-- ==== Sys2Proof/Word.lean ====
section
/-! DEFINITION. The word and byte of R8 and their plainest arithmetic. -/

namespace Sys2Proof

/-- A register, and a word of memory (R8). -/
abbrev Word := BitVec 32

/-- A byte of memory (R8). -/
abbrev Byte := BitVec 8

end Sys2Proof
end

