-- ==== Sys2Proof/Syntax.lean ====
section
/-! DEFINITION. The commands of the block: one constructor for each row of spec/opcode_table.json, with the operands
that the sender decides. An operand is what arrives from outside the block (an initiator, a written value, a level on a
ball, a measured quantity, a lane's samples) or a number that says which unit of the block an event concerns; one of type
`Unit` carries nothing. -/

namespace Sys2Proof

/-- Who issues an access (R52, R300): a core, a Mover channel, a host transaction with its VI field, the cipher engine,
the debug access port, or the remote-access path of the cascade. -/
inductive Initiator
  | core (c : Fin 2)
  | mover (ch : Fin 16)
  | host (vi : Fin 16)
  | cipher
  | debug
  | remote
  deriving DecidableEq, Repr

/-- What a debugger reaches (R595): memory and pages with an access of 1, 2 or 4 bytes, a control register of a core, an entry
of its operand or return stack counted from the top, or a breakpoint at an address of a core's code. -/
inductive DebugTarget
  | mem (a : Word) (n : Fin 3)
  | control (c : Fin 2) (r : Fin 26)
  | stack (c : Fin 2) (ret : Bool) (k : Nat)
  | breakpoint (c : Fin 2) (a : Word) (set : Bool)
  deriving DecidableEq, Repr


/-- The commands, in the order of the table; each constructor cites the rule of its row. -/
inductive Instr
  /-- REGISTER_WRITE (R25) -/
  | registerWrite (i : Initiator) (a w : Word)
  /-- NARROW_OR_MISALIGNED_ACCESS (R9) -/
  | narrowOrMisalignedAccess (i : Initiator) (a : Word) (n : Fin 3) (w : Option Word)
  /-- UNMAPPED_ACCESS (R43) -/
  | unmappedAccess (i : Initiator) (a : Word) (w : Option Word)
  /-- DOMAIN_OFF_ACCESS (R41) -/
  | domainOffAccess (i : Initiator) (a : Word) (w : Option Word)
  /-- ROM_FLASH_STORE (R44) -/
  | romFlashStore (i : Initiator) (a : Word) (n : Fin 3) (w : Word)
  /-- STICKY_CLEAR (R15) -/
  | stickyClear (i : Initiator) (p : Fin 38) (v : Fin 16) (w : Word)
  /-- LOCK_WRITE (R21) -/
  | lockWrite (i : Initiator) (p : Fin 38) (v : Fin 16) (w : Word)
  /-- READ_TO_CLEAR (R10) -/
  | readToClear (i : Initiator) (a : Word)
  /-- ROLE_WRITE (R38) -/
  | roleWrite (i : Initiator) (w : Word)
  /-- SLOT_TICK (R53) -/
  | slotTick (temp : Int)
  /-- TBLO_READ (R52) -/
  | tbloRead (i : Initiator)
  /-- TICKADJ_WRITE (R55) -/
  | tickadjWrite (i : Initiator) (w : Word)
  /-- ASNHI_WRITE (R56) -/
  | asnhiWrite (i : Initiator) (w : Word)
  /-- ASNLO_WRITE (R56) -/
  | asnloWrite (i : Initiator) (w : Word)
  /-- ASNLO_READ (R56) -/
  | asnloRead (i : Initiator)
  /-- TICKEN_WRITE (R57) -/
  | tickenWrite (i : Initiator) (w : Word)
  /-- PLL_UNLOCK (R61) -/
  | pllUnlock
  /-- PLL_RELOCK (R527) -/
  | pllRelock
  /-- K32_FAIL (R469) -/
  | k32Fail (k32 : Nat)
  /-- K32_RESTART (R275) -/
  | k32Restart
  /-- GAIN_WRITE (R80) -/
  | gainWrite (i : Initiator) (n : Fin 2) (cfg : Bool) (w : Word)
  /-- AGC_STEP_DOWN (R77) -/
  | agcStepDown (n : Fin 2) (level : Int × BitVec 12)
  /-- AGC_STEP_UP (R77) -/
  | agcStepUp (n : Fin 2) (level : Int × BitVec 12)
  /-- GAIN_SETTLED (R78) -/
  | gainSettled (n : Fin 2)
  /-- CLIP_EVENT (R81) -/
  | clipEvent (n : Fin 2) (low : Bool)
  /-- CONVERTER_RUN (R83) -/
  | converterRun (n : Fin 2)
  /-- EXTERNAL_PA_ENABLE (R72) -/
  | externalPaEnable (c : Fin 2)
  /-- TX_RAMP_UP (R86) -/
  | txRampUp (c : Fin 2)
  /-- TX_PREAMBLE_START (R62) -/
  | txPreambleStart (c : Fin 2) (fine : Fin 64)
  /-- TX_LAST_BIT (R86) -/
  | txLastBit (c : Fin 2)
  /-- TX_RAMP_DOWN_END (R154) -/
  | txRampDownEnd (c : Fin 2)
  /-- PORT_TX_EXIT (R69) -/
  | portTxExit (n : Fin 2)
  /-- RETURN_LOSS_MEASURE (R90) -/
  | returnLossMeasure (n : Fin 2) (loss : Nat)
  /-- CALREQ_WRITE (R94) -/
  | calreqWrite (i : Initiator) (w : Word)
  /-- CAL_PERIOD_EXPIRE (R94) -/
  | calPeriodExpire (u : Fin 13)
  /-- CAL_UNIT_COMPLETE (R96) -/
  | calUnitComplete (u : Fin 13) (results : List Int)
  /-- CAL_STARVE (R97) -/
  | calStarve (u : Fin 13)
  /-- WINDOW_WRITE (R102) -/
  | windowWrite (i : Initiator) (n : Fin 4) (w : Word)
  /-- WINDOW_APPLY (R102) -/
  | windowApply (n : Fin 4)
  /-- LANE_CFG_WRITE (R107) -/
  | laneCfgWrite (i : Initiator) (v : Fin 16) (reg : Fin 3) (n : Fin 128) (w : Word)
  /-- CNTCLR_WRITE (R133) -/
  | cntclrWrite (i : Initiator) (v : Fin 16) (w : Word)
  /-- RX_WINDOW_OPEN (R201) -/
  | rxWindowOpen (k : Nat)
  /-- RX_WINDOW_CLOSE (R201) -/
  | rxWindowClose (k : Nat)
  /-- ENERGY_DETECT (R115) -/
  | energyDetect (n : Fin 128) (dbm : Int) (t : Nat)
  /-- QUALIFIER_PASS (R116) -/
  | qualifierPass (n : Fin 128) (xs : List (Int × Int)) (t : Nat)
  /-- QUALIFIER_TIMEOUT (R115) -/
  | qualifierTimeout (n : Fin 128)
  /-- SFD_MATCH (R117) -/
  | sfdMatch (n : Fin 128) (t : Nat) (fine : Fin 64) (xs : List (Int × Int)) (power : Int) (parts : Nat) (u : Unit)
  /-- SFD_TIMEOUT (R115) -/
  | sfdTimeout (n : Fin 128)
  /-- PHR_RECEIVED (R118) -/
  | phrReceived (n : Fin 128) (xs : List (Int × Int))
  /-- PSDU_BYTE (R120) -/
  | psduByte (n : Fin 128) (xs : List (Int × Int))
  /-- ADDRESS_VERDICT (R166) -/
  | addressVerdict (n : Fin 128)
  /-- FRAME_END (R128) -/
  | frameEnd (n : Fin 128) (xs : List (Int × Int)) (u v w x : Unit)
  /-- DFE_BLOCK_CHECK (R125) -/
  | dfeBlockCheck (n : Fin 128) (xs : List (Int × Int))
  /-- ENERGY_IN_HOLD (R129) -/
  | energyInHold (n : Fin 128) (dbm : Int) (t : Nat)
  /-- STAGING_BUFFER_LOAD (R154) -/
  | stagingBufferLoad (k : Nat)
  /-- DIRECT_FRAME_GO (R155) -/
  | directFrameGo (i : Initiator) (c : Fin 2) (now : Bool)
  /-- DIRECT_WAKE_GO (R160) -/
  | directWakeGo (i : Initiator) (c : Fin 2) (now : Bool)
  /-- DIRECT_DUE (R155) -/
  | directDue (c : Fin 2)
  /-- MASK_EVALUATE (R159) -/
  | maskEvaluate (c : Fin 2) (k : Nat) (p1 p2 : Int)
  /-- FRAME_JOB_START (R174) -/
  | frameJobStart
  /-- FRAME_VERIFY_DONE (R173) -/
  | frameVerifyDone (dual : Fin 3)
  /-- ACK_BUILT (R180) -/
  | ackBuilt (lane : Fin 128) (buf : Fin 2) (t : Nat)
  /-- ACK_DUE (R180) -/
  | ackDue (c : Fin 2)
  /-- DELIVERY_WRITE (R188) -/
  | deliveryWrite (v : Fin 16)
  /-- ACK_MATCH (R181) -/
  | ackMatch (lane : Fin 128) (buf : Fin 2)
  /-- ACK_TIMEOUT (R181) -/
  | ackTimeout (lane : Fin 128)
  /-- RING_CFG_WRITE (R184) -/
  | ringCfgWrite (i : Initiator) (v : Fin 16) (w : Word)
  /-- RDIDX_WRITE (R185) -/
  | rdidxWrite (i : Initiator) (v : Fin 16) (w : Word)
  /-- PATTERN_TDATA0_WRITE (R191) -/
  | patternTdata0Write (i : Initiator) (v : Fin 16) (w : Word)
  /-- PATTERN_CELL_COMMIT (R193) -/
  | patternCellCommit (i : Initiator) (v : Fin 16) (w : Word)
  /-- PATTERN_DATA_READ (R191) -/
  | patternDataRead (i : Initiator) (v : Fin 16) (hi : Bool)
  /-- SLOTFRAME_ENABLE (R192) -/
  | slotframeEnable (i : Initiator) (v : Fin 16) (h : Fin 32) (w : Word)
  /-- SLOTFRAME_CFG_WRITE (R195) -/
  | slotframeCfgWrite (i : Initiator) (v : Fin 16) (h : Fin 32) (range : Bool) (w : Word)
  /-- PRESET_GO (R216) -/
  | presetGo (i : Initiator) (v : Fin 16) (w : Word)
  /-- CELL_PREFETCH (R198) -/
  | cellPrefetch
  /-- TX_SUBMIT (R204) -/
  | txSubmit (i : Initiator) (v : Fin 16) (w : Word)
  /-- TXDONE_POP (R206) -/
  | txdonePop (i : Initiator) (v : Fin 16)
  /-- TX_SECURE_DONE (R207) -/
  | txSecureDone (dual : Fin 3)
  /-- JOIN (R211) -/
  | join (i : Initiator) (v : Fin 16)
  /-- FORM (R212) -/
  | form (i : Initiator) (v : Fin 16)
  /-- STOP (R212) -/
  | stop (i : Initiator) (v : Fin 16)
  /-- BEACON_JOIN (R211) -/
  | beaconJoin
  /-- FORMATION_COMPLETE (R213) -/
  | formationComplete
  /-- COMPETING_BEACON (R214) -/
  | competingBeacon
  /-- BOBBIN_WINDOW_WRITE (R219) -/
  | bobbinWindowWrite (i : Initiator) (off : Fin 0x80000)
  /-- LIVENESS_SWEEP (R230) -/
  | livenessSweep
  /-- NOACKMAX_REACHED (R228) -/
  | noackmaxReached (n : Fin 4096)
  /-- RJONLY_SET (R246) -/
  | rjonlySet (i : Initiator) (w : Word)
  /-- RJCLR (R247) -/
  | rjclr (i : Initiator) (w : Word)
  /-- ALLOC (R255) -/
  | alloc (i : Initiator) (v : Fin 16)
  /-- CONTEXT_ACTIVATE (R255) -/
  | contextActivate (i : Initiator) (v : Fin 16) (n : Fin 4096)
  /-- SETSHORT (R255) -/
  | setshort (i : Initiator) (v : Fin 16) (n : Fin 4096)
  /-- SETKEY (R234) -/
  | setkey (i : Initiator) (v : Fin 16) (n : Fin 4096)
  /-- DECLDEAD (R255) -/
  | decldead (i : Initiator) (v : Fin 16) (n : Fin 4096)
  /-- SUPERSEDE (R240) -/
  | supersede (i : Initiator) (v : Fin 16) (n : Fin 4096)
  /-- FREE (R255) -/
  | free (i : Initiator) (v : Fin 16) (n : Fin 4096)
  /-- CLRCOL (R248) -/
  | clrcol (i : Initiator) (v : Fin 16) (n : Fin 4096)
  /-- SETTS (R255) -/
  | setts (i : Initiator) (v : Fin 16) (n : Fin 4096)
  /-- HANDOVER (R249) -/
  | handover (i : Initiator) (v : Fin 16) (n : Fin 4096)
  /-- READ (R255) -/
  | read (i : Initiator) (v : Fin 16) (n : Fin 4096)
  /-- BUCKET_ROLL (R268) -/
  | bucketRoll
  /-- DWELL_ROLL (R270) -/
  | dwellRoll
  /-- REGTIGHT (R260) -/
  | regtight (i : Initiator) (blk : List Byte) (dual : Fin 3)
  /-- THIMBLE_RESTART (R275) -/
  | thimbleRestart (i : Initiator) (khz : Option Nat)
  /-- THIMBLE_DETECT_START (R275) -/
  | thimbleDetectStart
  /-- WAKE_FRAME_RECEIVED (R278) -/
  | wakeFrameReceived (crc : Option Byte) (code : BitVec 16) (group : Byte) (k32 : Nat)
  /-- PHOLD_EXPIRE (R283) -/
  | pholdExpire
  /-- TENANCY_OPEN (R292) -/
  | tenancyOpen (i : Initiator) (blk : List Byte) (dual : Fin 3)
  /-- TENANCY_MODIFY (R291) -/
  | tenancyModify (i : Initiator) (blk : List Byte) (dual : Fin 3)
  /-- TENANCY_CLOSE (R293) -/
  | tenancyClose (i : Initiator) (blk : List Byte) (dual : Fin 3)
  /-- VI_CLOSE_TICK (R293) -/
  | viCloseTick (v : Fin 16)
  /-- VI_CLOSE_COMPLETE (R293) -/
  | viCloseComplete (v : Fin 16)
  /-- VIEW_REFUSED (R297) -/
  | viewRefused (i : Initiator) (v : Fin 16) (off : Fin 0x100000) (w : Option Word)
  /-- BIND_VIOLATION (R300) -/
  | bindViolation (i : Initiator) (a : Word) (n : Fin 3) (w : Option Word)
  /-- LINK_ENABLE (R311) -/
  | linkEnable (i : Initiator) (w : Word)
  /-- LINK_ALIGN_LOCK (R313) -/
  | linkAlignLock (up : Fin 8)
  /-- TRAINING_MARKER (R314) -/
  | trainingMarker (fromUp : Bool)
  /-- TRAINING_DONE (R314) -/
  | trainingDone (rt : List Nat) (up : Int) (nmem : Fin 9)
  /-- TRAINING_TIMEOUT (R314) -/
  | trainingTimeout
  /-- LOAD_RECORD_SEND (R316) -/
  | loadRecordSend
  /-- LOAD_RECORD_APPLY (R316) -/
  | loadRecordApply (tb next : BitVec 64) (asn : BitVec 40) (commit : Bool) (len : BitVec 16) (adj : Int) (on : Bool) (phase : Fin 64)
  /-- TICK_MARKER_CHECK (R319) -/
  | tickMarkerCheck (ns : Option Int)
  /-- LINK_LOSS (R328) -/
  | linkLoss (reason : Fin 3) (codes crcs : Nat)
  /-- RETRAIN (R330) -/
  | retrain
  /-- HANDOVER_RECORD_SEND (R323) -/
  | handoverRecordSend (n : Fin 4096)
  /-- HANDOVER_RECORD_RECEIVE (R323) -/
  | handoverRecordReceive (words : List Word)
  /-- HANDOVER_ACCEPT_RECEIVE (R323) -/
  | handoverAcceptReceive (n : Fin 4096) (accepted : Bool)
  /-- HANDOVER_SLOT_H (R250) -/
  | handoverSlotH (n : Fin 4096)
  /-- MIGRATION_END (R251) -/
  | migrationEnd (n : Fin 4096)
  /-- RELAYED_FRAME (R324) -/
  | relayedFrame (octets : List Byte) (tb : BitVec 64) (fine : Fin 64) (asn : BitVec 40) (lane : Fin 8 × Fin 128) (port : Fin 2) (vi : Fin 16) (mode : Fin 16) (chan : Fin 2048) (plan : Fin 4) (fcs2 : Bool) (rssi : Int) (lqi : Byte) (fo : Int) (gen : BitVec 16)
  /-- CLOSE_RECORD (R325) -/
  | closeRecord (n : Fin 4096) (rxfc : Word)
  /-- RXFC_RECONCILE (R252) -/
  | rxfcReconcile (n : Fin 4096)
  /-- REMOTE_READ (R326) -/
  | remoteRead (i : Initiator) (member : Fin 8) (addr : Word) (words : Fin 16)
  /-- REMOTE_WRITE (R326) -/
  | remoteWrite (i : Initiator) (member : Fin 8) (addr : Word) (words : Fin 16)
  /-- REMOTE_ACCESS_SERVE (R326) -/
  | remoteAccessServe (a : Word) (n : Fin 16) (words : Option (List Word))
  /-- REMOTE_ACCESS_DONE (R326) -/
  | remoteAccessDone (result : Fin 4) (words : List Word)
  /-- MEMBER_IRQ_LEVEL (R327) -/
  | memberIrqLevel (k : Fin 8) (level : Bool)
  /-- SHUTTLE_RUN_WRITE (R335) -/
  | shuttleRunWrite (i : Initiator) (v : Fin 16) (w : Word)
  /-- CHECKPOINT_WRITE_DONE (R336) -/
  | checkpointWriteDone (agree : Bool)
  /-- INTERMEDIATE_CHECKPOINT (R337) -/
  | intermediateCheckpoint
  /-- LOCKSTEP_MISMATCH (R334) -/
  | lockstepMismatch
  /-- QUIESCE_COMPLETE (R339) -/
  | quiesceComplete
  /-- RESTORE_COMPLETE (R342) -/
  | restoreComplete (good : Bool)
  /-- BOBBIN_UE_DETECT (R345) -/
  | bobbinUeDetect (what : Fin 3) (n : Fin 4096) (word : Fin 32) (both : Bool) (frame : Option (Fin 128 × Fin 2))
  /-- BOBBIN_REPAIR_DONE (R345) -/
  | bobbinRepairDone
  /-- FAULT_REPORT_ARRIVE (R349) -/
  | faultReportArrive
  /-- FAULT_QUEUE_APPEND (R349) -/
  | faultQueueAppend
  /-- OVERFLOW_MARKER_APPEND (R351) -/
  | overflowMarkerAppend
  /-- FAULT_POP (R352) -/
  | faultPop (i : Initiator) (w : Word)
  /-- INJECT_SHUOUT (R356) -/
  | injectShuout (i : Initiator)
  /-- INJECT_BOBCTX (R356) -/
  | injectBobctx (i : Initiator) (n : Fin 4096)
  /-- CCM_ENC (R364) -/
  | ccmEnc (i : Initiator) (v : Fin 16) (w : Word)
  /-- CCM_DEC (R364) -/
  | ccmDec (i : Initiator) (v : Fin 16) (w : Word)
  /-- CTR (R364) -/
  | ctr (i : Initiator) (v : Fin 16) (w : Word)
  /-- CMAC_GEN (R364) -/
  | cmacGen (i : Initiator) (v : Fin 16) (w : Word)
  /-- CMAC_VER (R364) -/
  | cmacVer (i : Initiator) (v : Fin 16) (w : Word)
  /-- UNWRAP (R365) -/
  | unwrap (i : Initiator) (v : Fin 16) (w : Word)
  /-- WRAP (R365) -/
  | wrap (i : Initiator) (v : Fin 16) (w : Word)
  /-- SOFTWARE_JOB_DONE (R362) -/
  | softwareJobDone (fault : Fin 4)
  /-- ERASE (R369) -/
  | erase (i : Initiator) (v : Fin 16) (n : Fin 64)
  /-- ENTROPY_RESTART (R370) -/
  | entropyRestart (i : Initiator)
  /-- ENTROPY_STARTUP_DONE (R370) -/
  | entropyStartupDone
  /-- ENTROPY_BLOCK (R370) -/
  | entropyBlock (fail : Option (Fin 512))
  /-- RNG_READ (R371) -/
  | rngRead (i : Initiator) (v : Fin 16)
  /-- HASH (R372) -/
  | hash (i : Initiator)
  /-- VERIFY (R372) -/
  | verify (i : Initiator)
  /-- HASH_UNIT_DONE (R372) -/
  | hashUnitDone (differ bad : Bool)
  /-- COMMAND_SLOW_START (R380) -/
  | commandSlowStart (dual : Fin 5)
  /-- KEYLOAD (R378) -/
  | keyload (i : Initiator) (blk : List Byte) (dual : Fin 5)
  /-- CTRRESET (R379) -/
  | ctrreset (i : Initiator) (blk : List Byte) (dual : Fin 3)
  /-- DN1RUN_WRITE (R407) -/
  | dn1runWrite (i : Initiator) (run : Bool)
  /-- DBSET_WRITE (R407) -/
  | dbsetWrite (i : Initiator) (w : Word)
  /-- INTERRUPT_ENTRY (R399) -/
  | interruptEntry (c : Fin 2)
  /-- SLEEP_WAKE (R401) -/
  | sleepWake (c : Fin 2)
  /-- UNDEFINED_INSTRUCTION (R425) -/
  | undefinedInstruction (c : Fin 2) (enc : Word)
  /-- NOP (R411) -/
  | nop (c : Fin 2)
  /-- DUP (R411) -/
  | dup (c : Fin 2)
  /-- DROP (R411) -/
  | drop (c : Fin 2)
  /-- SWAP (R411) -/
  | swap (c : Fin 2)
  /-- OVER (R411) -/
  | overTop (c : Fin 2)
  /-- ROT (R411) -/
  | rot (c : Fin 2)
  /-- NIP (R411) -/
  | nip (c : Fin 2)
  /-- TUCK (R411) -/
  | tuck (c : Fin 2)
  /-- PICK (R411) -/
  | pick (c : Fin 2)
  /-- TO_R (R411) -/
  | toR (c : Fin 2)
  /-- R_FROM (R411) -/
  | rFrom (c : Fin 2)
  /-- R_FETCH (R411) -/
  | rFetch (c : Fin 2)
  /-- RDROP (R411) -/
  | rdrop (c : Fin 2)
  /-- ADD (R412) -/
  | add (c : Fin 2)
  /-- ADC (R412) -/
  | adc (c : Fin 2)
  /-- SUB (R412) -/
  | sub (c : Fin 2)
  /-- SBC (R412) -/
  | sbc (c : Fin 2)
  /-- NEG (R412) -/
  | neg (c : Fin 2)
  /-- ABS (R412) -/
  | abs (c : Fin 2)
  /-- MUL (R412) -/
  | mul (c : Fin 2)
  /-- MULL (R412) -/
  | mull (c : Fin 2)
  /-- MULU (R412) -/
  | mulu (c : Fin 2)
  /-- MULQ (R412) -/
  | mulq (c : Fin 2)
  /-- DIV (R412) -/
  | div (c : Fin 2)
  /-- DIVU (R412) -/
  | divu (c : Fin 2)
  /-- MOD (R412) -/
  | mod (c : Fin 2)
  /-- MODU (R412) -/
  | modu (c : Fin 2)
  /-- CMP (R412) -/
  | cmp (c : Fin 2)
  /-- TST (R412) -/
  | tst (c : Fin 2)
  /-- AND (R413) -/
  | and (c : Fin 2)
  /-- OR (R413) -/
  | or (c : Fin 2)
  /-- XOR (R413) -/
  | xor (c : Fin 2)
  /-- NOT (R413) -/
  | not (c : Fin 2)
  /-- SHL (R413) -/
  | shl (c : Fin 2)
  /-- SHR (R413) -/
  | shr (c : Fin 2)
  /-- SAR (R413) -/
  | sar (c : Fin 2)
  /-- ROR (R413) -/
  | ror (c : Fin 2)
  /-- CLZ (R413) -/
  | clz (c : Fin 2)
  /-- BSWAP (R413) -/
  | bswap (c : Fin 2)
  /-- SEXTB (R413) -/
  | sextb (c : Fin 2)
  /-- SEXTH (R413) -/
  | sexth (c : Fin 2)
  /-- ADDH2 (R413) -/
  | addh2 (c : Fin 2)
  /-- SUBH2 (R413) -/
  | subh2 (c : Fin 2)
  /-- DADC (R415) -/
  | dadc (c : Fin 2)
  /-- DSBC (R415) -/
  | dsbc (c : Fin 2)
  /-- DAJ (R415) -/
  | daj (c : Fin 2)
  /-- DCHK (R414) -/
  | dchk (c : Fin 2)
  /-- B2D (R414) -/
  | b2d (c : Fin 2)
  /-- D2B (R414) -/
  | d2b (c : Fin 2)
  /-- CLC (R414) -/
  | clc (c : Fin 2)
  /-- SETC (R414) -/
  | setc (c : Fin 2)
  /-- LDW (R416) -/
  | ldw (c : Fin 2) (parity : Bool)
  /-- LDH (R416) -/
  | ldh (c : Fin 2)
  /-- LDHS (R416) -/
  | ldhs (c : Fin 2)
  /-- LDB (R416) -/
  | ldb (c : Fin 2)
  /-- LDBS (R416) -/
  | ldbs (c : Fin 2)
  /-- STW (R416) -/
  | stw (c : Fin 2) (parity : Bool)
  /-- STH (R416) -/
  | sth (c : Fin 2)
  /-- STB (R416) -/
  | stb (c : Fin 2)
  /-- LDD (R417) -/
  | ldd (c : Fin 2)
  /-- STD (R417) -/
  | std (c : Fin 2)
  /-- RET (R418) -/
  | ret (c : Fin 2)
  /-- RETI (R418) -/
  | reti (c : Fin 2)
  /-- JMP (R418) -/
  | jmp (c : Fin 2)
  /-- CALLX (R418) -/
  | callx (c : Fin 2)
  /-- DO (R418) -/
  | doLoop (c : Fin 2)
  /-- FENCE (R403) -/
  | fence (c : Fin 2)
  /-- SYNCI (R405) -/
  | synci (c : Fin 2)
  /-- SYNCIA (R405) -/
  | syncia (c : Fin 2)
  /-- SLEEP (R401) -/
  | sleep (c : Fin 2)
  /-- BRK (R418) -/
  | brk (c : Fin 2)
  /-- EI (R418) -/
  | ei (c : Fin 2)
  /-- DI (R418) -/
  | di (c : Fin 2)
  /-- PUSHS (R419) -/
  | pushs (c : Fin 2) (x : BitVec 12)
  /-- LDA (R419) -/
  | lda (c : Fin 2) (n w : Fin 4) (step : BitVec 8)
  /-- STA (R419) -/
  | sta (c : Fin 2) (n : Fin 4) (w : Fin 3) (step : BitVec 8)
  /-- BR (R419) -/
  | br (c : Fin 2) (rel : BitVec 12)
  /-- BZ (R419) -/
  | bz (c : Fin 2) (rel : BitVec 12)
  /-- BNZ (R419) -/
  | bnz (c : Fin 2) (rel : BitVec 12)
  /-- CALL (R419) -/
  | call (c : Fin 2) (rel : BitVec 12)
  /-- ADDI (R419) -/
  | addi (c : Fin 2) (x : BitVec 12)
  /-- LOOP (R419) -/
  | loop (c : Fin 2) (rel : BitVec 12)
  /-- LDS (R419) -/
  | lds (c : Fin 2) (n : Fin 4) (off : BitVec 10)
  /-- STS (R419) -/
  | sts (c : Fin 2) (n : Fin 4) (off : BitVec 10)
  /-- BCC (R420) -/
  | bcc (c : Fin 2) (cond : Fin 15) (rel : BitVec 8)
  /-- AGET (R419) -/
  | aget (c : Fin 2) (n : Fin 4)
  /-- ASET (R419) -/
  | aset (c : Fin 2) (n : Fin 4)
  /-- ASTEP (R419) -/
  | astep (c : Fin 2) (n : Fin 4) (step : BitVec 8)
  /-- PUSHL (R421) -/
  | pushl (c : Fin 2) (x : BitVec 24)
  /-- PUSHHI (R421) -/
  | pushhi (c : Fin 2) (x : BitVec 16)
  /-- ORI (R421) -/
  | ori (c : Fin 2) (x : BitVec 16)
  /-- BRL (R421) -/
  | brl (c : Fin 2) (rel : BitVec 24)
  /-- CALLL (R421) -/
  | calll (c : Fin 2) (rel : BitVec 24)
  /-- RDC (R422) -/
  | rdc (c : Fin 2) (r : BitVec 8)
  /-- WRC (R422) -/
  | wrc (c : Fin 2) (r : BitVec 8)
  /-- TRAP (R421) -/
  | trap (c : Fin 2) (t : BitVec 8)
  /-- LDO (R421) -/
  | ldo (c : Fin 2) (w : Fin 4) (off : BitVec 16)
  /-- STO (R421) -/
  | sto (c : Fin 2) (w : Fin 3) (off : BitVec 16)
  /-- MACX (R421) -/
  | macx (c : Fin 2) (x y : Fin 4) (sx sy : BitVec 8)
  /-- MRAM_PROTECTED_STORE (R430) -/
  | mramProtectedStore (i : Initiator) (off : Fin 0x40000) (w : Word)
  /-- MRAM_WRITE_COMMIT (R431) -/
  | mramWriteCommit
  /-- QUEUE_ENABLE (R437) -/
  | queueEnable (i : Initiator) (n : Fin 8) (w : Word)
  /-- QUEUE_SUBMIT (R437) -/
  | queueSubmit (i : Initiator) (n : Fin 8) (w : Word)
  /-- FLASH_DESCRIPTOR_START (R441) -/
  | flashDescriptorStart (b : Fin 2)
  /-- FLASH_PROGRAM_DONE (R434) -/
  | flashProgramDone (b : Fin 2)
  /-- FLASH_ERASE_DONE (R433) -/
  | flashEraseDone (b : Fin 2)
  /-- FLASH_BLANK_DONE (R439) -/
  | flashBlankDone (b : Fin 2)
  /-- FLASH_UNLOCK (R442) -/
  | flashUnlock (i : Initiator) (w : Word)
  /-- PRIVILEGED_PROGRAM (R442) -/
  | privilegedProgram (i : Initiator) (w : Word)
  /-- PRIVILEGED_ERASE (R442) -/
  | privilegedErase (i : Initiator) (w : Word)
  /-- UNLOCK_PAUSE_RELOCK (R442) -/
  | unlockPauseRelock
  /-- FLASH_READ_BUSY_BANK (R435) -/
  | flashReadBusyBank (i : Initiator) (a : Word)
  /-- FLASH_SUSP_WRITE (R444) -/
  | flashSuspWrite (i : Initiator) (w : Word)
  /-- FLASH_SUSPENDED (R444) -/
  | flashSuspended (b : Fin 2)
  /-- FLASH_RESUME (R444) -/
  | flashResume (b : Fin 2)
  /-- FLASH_STARVE_TIMEOUT (R445) -/
  | flashStarveTimeout (b : Fin 2)
  /-- MOVER_GO (R448) -/
  | moverGo (i : Initiator) (c : Fin 16) (prio : Fin 4)
  /-- MOVER_STOP (R448) -/
  | moverStop (i : Initiator) (c : Fin 16) (prio : Fin 4)
  /-- MOVER_COPY (R449) -/
  | moverCopy (c : Fin 16) (beats : Nat)
  /-- MOVER_FILL (R449) -/
  | moverFill (c : Fin 16) (beats : Nat)
  /-- MOVER_COPY2D (R449) -/
  | moverCopy2d (c : Fin 16) (beats : Nat)
  /-- MOVER_DESCRIPTOR_DONE (R451) -/
  | moverDescriptorDone (c : Fin 16)
  /-- ECC_WRITE_BACK (R457) -/
  | eccWriteBack (m : Fin 5) (off : Nat)
  /-- SCRUB_READ (R463) -/
  | scrubRead (m : Fin 7) (off : Nat) (found : Fin 3)
  /-- SCRUB_LAP_START (R464) -/
  | scrubLapStart
  /-- LAP_SLOW (R465) -/
  | lapSlow
  /-- LOGCLR (R466) -/
  | logclr (i : Initiator)
  /-- MODEREQ_WRITE (R471) -/
  | modereqWrite (i : Initiator) (w : Word)
  /-- DOMEN_WRITE (R471) -/
  | domenWrite (i : Initiator) (w : Word)
  /-- POWER_DOWN_START (R471) -/
  | powerDownStart
  /-- FENCE_END (R472) -/
  | fenceEnd
  /-- FENCE_TIMEOUT (R472) -/
  | fenceTimeout
  /-- WAKEN_LOW (R475) -/
  | wakenLow (k32 : Nat)
  /-- XO_STABLE (R476) -/
  | xoStable
  /-- DOMAIN_RESTORE_STEP (R476) -/
  | domainRestoreStep (k32 : Nat)
  /-- RTC_SECOND (R469) -/
  | rtcSecond (k32 : Nat)
  /-- RTCSEC_WRITE (R469) -/
  | rtcsecWrite (i : Initiator) (w : Word)
  /-- VIN_FALL (R480) -/
  | vinFall (k32 : Nat)
  /-- VIN_RESTORED (R480) -/
  | vinRestored (k32 : Nat)
  /-- AON_POWER_ON (R620) -/
  | aonPowerOn (onBackup lowVio : Bool)
  /-- DEVICE_RESET_END (R620) -/
  | deviceResetEnd (boot0 boot1 casm : Bool)
  /-- RESETN_LOW (R621) -/
  | resetnLow
  /-- BROWN_OUT (R609) -/
  | brownOut
  /-- CUTOFF (R514) -/
  | cutoff (k32 : Nat)
  /-- CHANNEL_EN_WRITE (R489) -/
  | channelEnWrite (i : Initiator) (n : Fin 4) (en : Bool)
  /-- DIM_WINDOW_START (R485) -/
  | dimWindowStart (n : Fin 4) (sense : Nat)
  /-- SOFT_START_END (R486) -/
  | softStartEnd (n : Fin 4)
  /-- RAMPSHORT_TRIP (R491) -/
  | rampshortTrip (n : Fin 4) (microvolts : Nat)
  /-- SHORT_DETECT (R491) -/
  | shortDetect (n : Fin 4) (millivolts : Nat)
  /-- OVP_DETECT (R491) -/
  | ovpDetect (n : Fin 4) (millivolts : Nat)
  /-- NTC_HOT (R495) -/
  | ntcHot (millivolts : Nat)
  /-- NTC_COOL (R495) -/
  | ntcCool (millivolts : Nat)
  /-- OPEN_DIAG_DECISION (R493) -/
  | openDiagDecision (n : Fin 4)
  /-- PROBE_DUE (R494) -/
  | probeDue (n : Fin 4)
  /-- RETRY_DELAY_EXPIRE (R489) -/
  | retryDelayExpire (n : Fin 4)
  /-- ON_FAULT_FREE_10S (R489) -/
  | onFaultFree10s (n : Fin 4)
  /-- LMPEN_CHANGE (R487) -/
  | lmpenChange (level : Bool)
  /-- VGD_CHANGE (R487) -/
  | vgdChange (millivolts : Nat)
  /-- RELAY_SET (R497) -/
  | relaySet (i : Initiator) (r : Fin 2)
  /-- RELAY_RESET (R497) -/
  | relayReset (i : Initiator) (r : Fin 2)
  /-- RELAY_PULSE_END (R497) -/
  | relayPulseEnd (r : Fin 2)
  /-- RELAY_WAIT_START (R497) -/
  | relayWaitStart (r : Fin 2)
  /-- LAMPOVR_RELEASE (R500) -/
  | lampovrRelease (i : Initiator) (blk : List Byte) (dual : Fin 3)
  /-- LAMPOVR_OFF (R499) -/
  | lampovrOff (i : Initiator) (blk : List Byte) (dual : Fin 3)
  /-- LAMPOVR_LEVEL (R499) -/
  | lampovrLevel (i : Initiator) (blk : List Byte) (dual : Fin 3)
  /-- OVERRIDE_EXPIRE (R500) -/
  | overrideExpire (n : Fin 4)
  /-- METER_INTERVAL_END (R503) -/
  | meterIntervalEnd (samples : List (Int × Int)) (full : Bool)
  /-- METER_NOZC_TIMEOUT (R503) -/
  | meterNozcTimeout (samples : List (Int × Int)) (full : Bool)
  /-- RSTAT_READ (R504) -/
  | rstatRead (i : Initiator)
  /-- ENERGY_READ (R505) -/
  | energyRead (i : Initiator) (rev : Bool)
  /-- REF_COMPARE (R507) -/
  | refCompare (a b c : Int)
  /-- REF_SWITCHOVER (R509) -/
  | refSwitchover
  /-- REFOVR_SELECT (R512) -/
  | refovrSelect (i : Initiator) (blk : List Byte) (dual : Fin 3)
  /-- REFOVR_AUTO (R512) -/
  | refovrAuto (i : Initiator) (blk : List Byte) (dual : Fin 3)
  /-- GAUGE_CHARGE_COUNT (R513) -/
  | gaugeChargeCount (currents : List Int)
  /-- CHG_WRITE (R513) -/
  | chgWrite (i : Initiator) (w : Word)
  /-- GAUGE_REANCHOR (R516) -/
  | gaugeReanchor (millivolts : Nat)
  /-- TIMER_ARM (R526) -/
  | timerArm (i : Initiator) (v : Fin 16) (n : Fin 8) (w : Word)
  /-- TIMER_STOP (R526) -/
  | timerStop (i : Initiator) (v : Fin 16) (n : Fin 8) (w : Word)
  /-- TIMER_CMP_WRITE (R524) -/
  | timerCmpWrite (i : Initiator) (v : Fin 16) (n : Fin 8) (w : Word)
  /-- TIMER_FIRE (R525) -/
  | timerFire (n : Fin 8)
  /-- STITCH_EVENT (R531) -/
  | stitchEvent
  /-- SWTRIG (R532) -/
  | swtrig (i : Initiator) (w : Word)
  /-- RECORDER_TRIGGER (R539) -/
  | recorderTrigger
  /-- RECORD_WRITE (R543) -/
  | recordWrite
  /-- LIFE_COUNTER_WRITE (R544) -/
  | lifeCounterWrite
  /-- RECORDER_FREEZE (R545) -/
  | recorderFreeze (i : Initiator) (w : Word)
  /-- I2C_WRITE (R549) -/
  | i2cWrite (i : Initiator) (n : Fin 2) (addr : BitVec 7) (data : Byte)
  /-- I2C_READ (R549) -/
  | i2cRead (i : Initiator) (n : Fin 2) (addr : BitVec 7)
  /-- I2C_START_ON_FREE_BUS (R549) -/
  | i2cStartOnFreeBus (n : Fin 2)
  /-- I2C_TRANSACTION_END (R550) -/
  | i2cTransactionEnd (n : Fin 2) (addrAck dataAck : Bool) (rx : Byte) (freed : Bool)
  /-- ARBITRATION_LOST (R551) -/
  | arbitrationLost (n : Fin 2)
  /-- I2C_LOW_TIMEOUT (R552) -/
  | i2cLowTimeout (port : Fin 3) (sda : Bool)
  /-- BUS_RECOVERY (R553) -/
  | busRecovery (i : Initiator) (n : Fin 2)
  /-- TARGET_WRITE_RECEIVED (R555) -/
  | targetWriteReceived (addr : BitVec 7) (data : Byte)
  /-- TARGET_READ (R555) -/
  | targetRead (addr : BitVec 7)
  /-- RXREG_READ (R556) -/
  | rxregRead (i : Initiator)
  /-- TXREG_WRITE (R556) -/
  | txregWrite (i : Initiator) (b : Byte)
  /-- TARGET_SCL_TIMEOUT (R557) -/
  | targetSclTimeout
  /-- TARGET_WAKE_MATCH (R558) -/
  | targetWakeMatch (addr : BitVec 7) (k32 : Nat)
  /-- RD (R564) -/
  | rd (vi : Fin 16) (a : BitVec 24) (n : Nat)
  /-- RDF (R564) -/
  | rdf (vi : Fin 16) (a : BitVec 24) (n : Nat)
  /-- WR (R566) -/
  | wr (vi : Fin 16) (a : BitVec 24) (words : List Word) (drains : List Nat) (abort : Bool)
  /-- WRF (R566) -/
  | wrf (vi : Fin 16) (a : BitVec 24) (words : List Word) (drains : List Nat) (abort : Bool)
  /-- RDSR (R562) -/
  | rdsr
  /-- SEG (R562) -/
  | seg (b : Byte)
  /-- BAD_OPCODE (R562) -/
  | badOpcode (op : Byte)
  /-- HOST_WAIT_TIMEOUT (R565) -/
  | hostWaitTimeout
  /-- HOST_FIFO_WRITE (R566) -/
  | hostFifoWrite
  /-- HDBSET_WRITE (R568) -/
  | hdbsetWrite (i : Initiator) (set : Bool)
  /-- BOOT_SEQUENCE (R577) -/
  | bootSequence (migrator : Option Nat)
  /-- RELOAD_ROUTINE (R581) -/
  | reloadRoutine (c : Fin 2)
  /-- HCONF_WRITE (R584) -/
  | hconfWrite (i : Initiator) (w : Word)
  /-- JOURNAL_WRITE (R585) -/
  | journalWrite (i : Initiator) (off : Fin 0x8000) (v : BitVec 64)
  /-- SRV_WRITE (R588) -/
  | srvWrite (i : Initiator) (w : Word)
  /-- MANIFEST (R589) -/
  | manifest (i : Initiator) (src : Word)
  /-- HLIST (R589) -/
  | hlist (i : Initiator)
  /-- BLOCK (R589) -/
  | block (i : Initiator) (src : Word) (k : Fin 4096)
  /-- IMAGE_CHECK_DONE (R589) -/
  | imageCheckDone
  /-- ACTIVATE (R592) -/
  | activate (i : Initiator) (blk : List Byte) (dual : Fin 3)
  /-- ACTIVATE_RESET (R592) -/
  | activateReset
  /-- TAP_RESET (R594) -/
  | tapReset
  /-- EXTEST (R594) -/
  | extest
  /-- IDCODE (R594) -/
  | idcode
  /-- SAMPLE_PRELOAD (R594) -/
  | samplePreload
  /-- DBGAP (R595) -/
  | dbgap
  /-- BYPASS (R594) -/
  | bypass
  /-- DEBUG_HALT (R595) -/
  | debugHalt (c : Fin 2)
  /-- DEBUG_STEP (R595) -/
  | debugStep (c : Fin 2)
  /-- DEBUG_RESUME (R595) -/
  | debugResume (c : Fin 2)
  /-- DEBUG_ACCESS (R595) -/
  | debugAccess (t : DebugTarget) (w : Option Word)
  /-- SEAL_WRITE (R597) -/
  | sealWrite (i : Initiator) (w : Word)
  /-- SECMAP_WRITE (R598) -/
  | secmapWrite (i : Initiator) (r : Fin 6) (w : Word)
  /-- DBGREOPEN (R599) -/
  | dbgreopen (i : Initiator) (blk : List Byte) (dual : Fin 3)
  /-- GPIO_EDGE (R625) -/
  | gpioEdge (p : Fin 30) (level : Bool)
  /-- POWER_ON_RESET_ENGAGE (R609) -/
  | powerOnResetEngage
  /-- VIN_RISE_IN_OFF (R470) -/
  | vinRiseInOff
  /-- THIMBLE_SYNC_FOUND (R278) -/
  | thimbleSyncFound
  /-- DOWNSTREAM_LINK_LOSS (R328) -/
  | downstreamLinkLoss (nmem : Fin 9)
  /-- FETCH_FAULT (R392) -/
  | fetchFault (c : Fin 2) (long : Bool)
  /-- COMMAND_RESERVED_ID (R376) -/
  | commandReservedId (i : Initiator) (id : BitVec 16) (blk : List Byte)
  /-- MOVER_RESERVED_OP (R450) -/
  | moverReservedOp (c : Fin 16)
  deriving DecidableEq, Repr

end Sys2Proof
end

