-- ==== Sys2Proof/Config.lean ====
section
/-! DEFINITION. What an implementation fixes, and the values the spec leaves open. -/

namespace Sys2Proof

/-- A value the spec leaves open or calls random: the n-th one the machine takes. It has no body, so nothing proves what
it is. `State.drawn` counts how many have been taken (notes/assumptions/3.md). -/
opaque Config.freeWord : Nat → BitVec 32

/-- The two keyed hash functions of the Bobbin's tables (R223): key of the hash, key of the context, and which function. The
spec gives no formula (notes/assumptions/3.md). -/
opaque Config.bobbinHash : Nat → Nat → Nat → Nat

/-- The receiver's arithmetic where the spec states no rounding and no rule for equal candidates: whether the upper of two
neighbouring values is taken, from the numbers of the case (notes/assumptions/60.md). -/
opaque Config.takesUpper : List Int → Bool

end Sys2Proof
end

