-- ==== Sys2Proof/Machine/Blocks.lean ====
section
/-! DEFINITION. The state of each block that no register shows. -/

namespace Sys2Proof.Machine

/-- The time base (R49), the slot tick (R53) and what AON keeps of them while CORE is off (R58). -/
structure ClkSt where
  /-- TB, 64 bits (R49). -/
  tb        : Nat := 0
  /-- TB of the last slot tick (R53). -/
  lastTick  : Nat := 0
  /-- NEXTTICK, 64 bits (R53). -/
  nextTick  : Nat := 0
  /-- ASN, 40 bits (R56); the TB from which it is the ASN, and the ASN of the slot before that (R60). -/
  asn       : Nat := 0
  asnSince  : Nat := 0
  asnBefore : Nat := 0
  /-- ASN[39:32] staged by a write of ASNHI (R56). -/
  asnStaged : Nat := 0
  /-- The ASN committed for the slot that begins at the next tick (R56). -/
  asnCommit : Option Nat := none
  /-- TB when CORE powered down, while CORE is off (R58). -/
  savedTb   : Option Nat := none
  /-- Whether the PLL-derived clocks are gated because the PLL lost lock (R61). -/
  gated     : Bool := false
  /-- Whether the 40 MHz reference is the clock on CKIN, as the last device reset took it from XOSRC (R68). -/
  external  : Bool := false
  /-- Whether TICKEN was 1 at that moment (R58). -/
  savedTick : Bool := false
  /-- At M0, what the load record for the coming tick holds: SLOTLEN, the pending adjustment and the committed ASN (R316,
  R318). -/
  record    : Option (Nat × Int × Option Nat) := none
  deriving DecidableEq, Repr

/-- A report or a recovery entry of the fault collector (R20, R350). `kind` is 1 REPORT, 2 OVERFLOW, 3 RECOVERY. -/
structure Report where
  tb   : Nat
  page : Nat
  inst : Nat
  bit  : Nat
  kind : Nat
  info : Nat
  deriving DecidableEq, Repr

/-- The fault collector (R349 to R354). -/
structure FltSt where
  /-- Reports sent by their pages that have not reached the staging area (R349). -/
  sent   : List Report := []
  /-- The staging area, at most 256 reports. -/
  staged : List Report := []
  /-- The queue, oldest first, at most 64 entries with the overflow marker (R351). -/
  queue  : List Report := []
  /-- The lowest-ranked report lost since the overflow opened; `none` while no overflow is open (R351). -/
  lost   : Option Report := none
  /-- Whether the marker of the open overflow stands in the queue (R351). -/
  marked : Bool := false
  /-- Reports of AON pages held while CORE is off, at most 4 (R354). -/
  aon    : List Report := []
  /-- Reports of AON pages that found four held (R354). -/
  aonLost : List Report := []
  deriving DecidableEq, Repr

/-- Events of the Stitch producers that have not yet reached their channels (R531): producer and TB. -/
structure StmSt where
  pulses : List (Nat × Nat) := []
  deriving DecidableEq, Repr

/-- A recorder definition that has fired (R539): its number, the stamp, the source (0 STITCH, 1 STICKY), page and bit. -/
structure Fired where
  defn : Nat
  tb   : Nat
  src  : Nat
  page : Nat
  bit  : Nat
  deriving DecidableEq, Repr

/-- A sample that awaits its write (R540 to R542): its trigger, the values of its registers, OFFMASK, and OPSEC. -/
structure Sample where
  fired : Fired
  vals  : List Nat
  off   : Nat
  opsec : Nat
  deriving DecidableEq, Repr

/-- The event recorder (R539 to R546). -/
structure RecSt where
  /-- Definitions that have fired and not been sampled. -/
  fired : List Fired := []
  /-- The samples held, at most 4 (R541). -/
  held  : List Sample := []
  /-- The whole second of TB of the last record, and the records written in it (R541). -/
  second : Nat := 0
  inSec  : Nat := 0
  /-- OPSEC as AON counts it, PCYC, and the OPSEC of the last write of a life counter copy (R544). -/
  opsec  : Nat := 0
  pcyc   : Nat := 0
  lifeAt : Nat := 0
  /-- Whether a write of a life counter copy fell due during a freeze (R545). -/
  owed   : Bool := false
  /-- TB at which the scan of the ring ends (R543). -/
  scanTo : Nat := 0
  deriving DecidableEq, Repr

/-- The Thimble (R273 to R280). -/
structure ThmSt where
  /-- Whether the 32.768 kHz crystal oscillates, as AON sees it (R275). -/
  k32ok       : Bool := false
  /-- Whether detection runs (R275). -/
  detecting   : Bool := false
  /-- TB at which detection begins after a restart (R275). -/
  detectAt    : Option Nat := none
  /-- Stamp of the last trigger since device reset (R280). -/
  lastTrigger : Option Nat := none
  deriving DecidableEq, Repr

/-- The timers: prescaler accumulators (R523) and the TB up to which each counter's register is current (R521). -/
structure TimSt where
  acc   : List Nat := [0, 0, 0, 0, 0, 0, 0, 0]
  since : List Nat := [0, 0, 0, 0, 0, 0, 0, 0]
  deriving DecidableEq, Repr

/-- A Mover channel: the words of the descriptor in progress, the bytes moved, the status once it is decided, and whether
STOP was written (R448 to R451). -/
structure MovCh where
  desc   : Option (List Nat) := none
  moved  : Nat := 0
  status : Option Nat := none
  stop   : Bool := false
  /-- Whether the descriptor has been checked and its bytes move (R450). -/
  moving : Bool := false
  deriving DecidableEq, Repr

/-- The Mover: its channels, and those for which a Stitch event is kept (R451). -/
structure MovSt where
  chans  : List MovCh := List.replicate 16 {}
  events : List Nat := []
  deriving DecidableEq, Repr

/-- A controller's transaction (R549): its operation (1 WRITE, 2 READ, 3 recovery), address, data, and whether it still
waits for a free bus. -/
structure I2cTx where
  op      : Nat
  addr    : Nat
  data    : Nat
  waiting : Bool
  deriving DecidableEq, Repr

/-- The two-wire ports. -/
structure I2cSt where
  a : Option I2cTx := none
  b : Option I2cTx := none
  deriving DecidableEq, Repr

/-- A lamp override (R499, R500): LEVEL or OFF, its DUTY and ADIM, and the TB at which it ends, if it does. -/
structure LampOvr where
  level : Bool
  duty  : Nat
  adim  : Nat
  ends  : Option Nat
  deriving DecidableEq, Repr

/-- One lamp channel (R485 to R494). -/
structure LampCh where
  ovr      : Option LampOvr := none
  /-- DUTY, ADIM and CHCFG of the window in progress (R485). -/
  duty     : Nat := 10000
  adim     : Nat := 100
  cfg      : Nat := 0x503C4144
  /-- TB at which the window in progress ends, or at which the channel entered START (R485). -/
  winEnd   : Nat := 0
  /-- TB of the first window start in START (R486). -/
  ssFrom   : Option Nat := none
  /-- TB of the entry into the state (R491). -/
  since    : Nat := 0
  /-- TB of the entry into ON, or of the last ten fault-free seconds (R489). -/
  onAt     : Nat := 0
  /-- TB of the entry into FAULT, and whether OVERTEMP was its only fault (R489). -/
  faultAt  : Nat := 0
  onlyHot  : Bool := false
  /-- Conduction in ns, windows, and whether current was seen, since the accumulation began (R493). -/
  conduct  : Nat := 0
  windows  : Nat := 0
  seen     : Bool := false
  /-- Whether the accumulation waits for a probe pulse (R493). -/
  waiting  : Bool := false
  /-- TB of the next probe, and whether the next window is stretched for one (R494). -/
  probeAt  : Nat := 0
  probing  : Bool := false
  deriving DecidableEq, Repr

/-- A relay (R496, R497): the action and start of its pulse, the action that waits, and whether it waits behind the other's. -/
structure Relay where
  pulse : Option (Nat × Nat) := none
  waits : Option Nat := none
  behind : Bool := false
  deriving DecidableEq, Repr

/-- The lamp drive. -/
structure LmpSt where
  ch      : List LampCh := [{}, {}, {}, {}]
  /-- The state and the channel as each stood when it last took a fault (R491). -/
  left    : List (Nat × LampCh) := List.replicate 4 (0, {})
  relay   : List Relay := [{}, {}]
  /-- TB at which the last relay pulse ended (R497). -/
  pulseEnd : Nat := 0
  /-- TB at which LAMP became reachable, the origin of the windows (R485). -/
  origin  : Nat := 0
  /-- Levels from outside: VGD above its threshold, VGD above its presence threshold, the LMPEN ball (R487, R604). -/
  vgdOk   : Bool := false
  vgdHere : Bool := true
  enBall  : Bool := false
  deriving DecidableEq, Repr

/-- An access to the SHU, PAT or BOB page that waits for the lockstep pair (R341): the initiator, the view, the register's
key, the word of a write, and for a read the bytes of the word that it asks for (R9). -/
structure WaitAcc where
  ini  : Initiator
  view : Nat
  key  : Nat
  word : Option Nat
  byte : Nat := 0
  size : Nat := 4
  deriving DecidableEq, Repr

/-- The accesses on the bus: what each initiator's last read returned, by initiator index (notes/assumptions/4.md). -/
structure BusSt where
  answer : List (Nat × Nat) := []
  /-- Accesses that wait until the lockstep pair resumes (R341). -/
  waiting : List WaitAcc := []
  deriving DecidableEq, Repr

/-- A word in the host's write FIFO (R566): its VI field, its address field and bus address, the APOFS with which its burst
started (R296), whether that was outside a fence (R472), and its value. -/
structure HostWord where
  vi    : Fin 16
  field : Nat
  addr  : Nat
  ap    : Nat
  early : Bool
  word  : Nat
  deriving DecidableEq, Repr

/-- A host read burst that waits (R341, R565): the VI field, whether the address is fixed, the next word's address field and the
segment, APOFS of each VI at its start, whether it started outside a fence, the words left, the TB from which it waits, and
whether the access of the next word has been issued. -/
structure HostRead where
  vi     : Fin 16
  fixed  : Bool
  field  : Nat
  seg    : Nat
  aps    : List Nat
  early  : Bool
  left   : Nat
  since  : Nat
  issued : Bool
  deriving DecidableEq, Repr

/-- The host link (R561 to R569): the write FIFO, a read burst in progress, and what the last read transaction has driven: for
each word the token 0xA or 0x5 and the word, or the status byte of RDSR. -/
structure HifSt where
  fifo : List HostWord := []
  read : Option HostRead := none
  out  : List (Nat × Nat) := []
  deriving DecidableEq, Repr

/-- The power-down sequence and the restore in progress, and the supply (R471 to R480). -/
structure PwrSt where
  /-- Domains that the fence closes, one bit each; 0 while no fence is open (R472). -/
  closing    : Nat := 0
  /-- TB at which the fence opened. -/
  fenceAt    : Nat := 0
  /-- The mode the running power-down sequence leads to (R471). -/
  downTo     : Nat := 0
  /-- Domains still to be restored, in the order of R476. -/
  restoring  : List Nat := []
  /-- The mode the running restore leads to (R476). -/
  upTo       : Nat := 0
  /-- Whether a restore waits for the XO and the PLL (R476). -/
  starting   : Bool := false
  /-- The target of a wake that arrived during a power-down sequence (R478). -/
  wakeAfter  : Option Nat := none
  /-- Whether the RTC alarm of the present RTCSEC has been taken (R469). -/
  alarmDone  : Bool := false
  /-- TB of the request that MODEREQ.PEND shows (R471), and of the last step of the restore, while CORE is on (R476). -/
  askedAt    : Nat := 0
  stepAt     : Nat := 0
  /-- Whether that request was made while PHOLD was above 0, and whether a tick that carries it out has come since (R283,
  R471). -/
  held       : Bool := false
  tickCame   : Bool := false
  /-- Whether the device is in reset, from the event of R620 or R621 to the end of the sequence; whether that reset follows
  an AON power-on or a stay in OFF (R544). -/
  inReset    : Bool := false
  cold       : Bool := false
  /-- The levels of the PGOOD ball (R620) and the VIO range: true for 1.8 V (R605). -/
  pgood      : Bool := true
  lowVio     : Bool := false
  deriving DecidableEq, Repr

/-- Metering (R502 to R506): the TB at which the interval in progress began, whether it carries REFSW or SAT, and the energy
fractions below 1 Wh, in units of 0.01 W for one sample period. -/
structure MtrSt where
  start   : Nat := 0
  refsw   : Bool := false
  sat     : Bool := false
  forward : Nat := 0
  reverse : Nat := 0
  deriving DecidableEq, Repr

/-- A switchover that is due (R509): the new selection, its cause (1 AUTO, 2 OVR) and the TB of its boundary. -/
structure RefDue where
  sel   : Nat
  cause : Nat
  at_   : Nat
  deriving DecidableEq, Repr

/-- The references (R507 to R512). -/
structure RefSt where
  due     : Option RefDue := none
  /-- TB of the last boundary whose slot carries REFSW, and of the boundary after it (R509). -/
  swFrom  : Nat := 0
  swTo    : Nat := 0
  /-- Consecutive comparisons in which the selected reference disagrees with C while a BAD flag is 1 (R508). -/
  selOff  : Nat := 0
  /-- Consecutive comparisons in which A and B both agree with C (R510). -/
  cAgree  : Nat := 0
  /-- TB of the last comparison: a slot has one (R507). -/
  done    : Option Nat := none
  deriving DecidableEq, Repr

/-- The backup gauge (R513 to R517): the TB of the last current sample, the part of CHG below 1 µAh in 1/36000 µAh, the unbroken
rest in ms, and the seconds AON has counted while MTR is off. -/
structure GauSt where
  at_     : Nat := 0
  frac    : Nat := 0
  rest    : Nat := 0
  offSec  : Nat := 0
  deriving DecidableEq, Repr

/-- A sub-band descriptor of the region lock (R257): the band in kHz, EIRP in 0.5 dB, the duty code of R259. -/
structure SubBand where
  flo   : Nat := 0
  fhi   : Nat := 0
  en    : Bool := false
  dwell : Bool := false
  eirp  : Int := 0
  duty  : Nat := 0
  deriving DecidableEq, Repr

/-- A tightening record (R260). -/
structure Tighten where
  sb   : Nat
  eirp : Int
  duty : Nat
  dis  : Bool
  deriving DecidableEq, Repr

/-- The OTP (R42, R257): programmed at manufacture and by REGTIGHT, and kept through every reset. -/
structure OtpSt where
  region  : Nat := 0
  bands   : List SubBand := []
  records : List Tighten := []
  /-- The factory EUI-64 (R47). -/
  uid     : Nat := 0
  /-- Conducted limits OTPINT and OTPEXT of each port in 0.5 dB (R87), and its RSSICAL (R131). -/
  plim    : List (Int × Int) := [(0, 0), (0, 0)]
  rssiCal : List Int := [0, 0]
  /-- The XO trim and its temperature curve, indexed by temperature + 128 (R96). -/
  xoTrim  : Int := 0
  xoCurve : List Int := []
  /-- The keys of authority 0 and the device root, 32 octets each, and the image key digest (R373, R42). -/
  auth0   : List Nat := List.replicate 32 0
  root    : List Nat := List.replicate 32 0
  image   : List Nat := List.replicate 32 0
  /-- The REFC trim (R519). -/
  ctrim   : Int := 0
  deriving DecidableEq, Repr

/-- The region codes (R258). -/
def regionBlank : Nat := 0
def regionEu : Nat := 1
def regionUs : Nat := 2
def regionIn : Nat := 3

/-- The sub-bands of the factory profile of a region (R258, R259). -/
def factoryBands (region : Nat) : List SubBand :=
  let eu (flo fhi : Nat) (eirp : Int) (duty : Nat) : SubBand := { en := true, dwell := false, flo, fhi, eirp, duty }
  if region = regionEu then
    [eu 863000 865000 32 10, eu 865000 868000 32 100, eu 868000 868600 32 100, eu 868700 869200 32 10,
      eu 869400 869650 58 1000, eu 869700 870000 32 100]
  else if region = regionUs then [{ en := true, dwell := true, flo := 902000, fhi := 928000, eirp := 72, duty := 0xFFFF }]
  else if region = regionIn then [eu 865000 867000 72 0xFFFF]
  else []

/-- The one-time memory of a device that leaves the factory with the profile of a region (R258). -/
def OtpSt.factory (o : OtpSt) (region : Nat) : OtpSt := { o with region, bands := factoryBands region, records := [] }

/-- The sub-bands that the lock holds: those of its descriptors under one of the three regions, and none under BLANK, with which
nothing is transmitted, or under a code that R258 does not give. -/
def OtpSt.held (o : OtpSt) : List SubBand := if 1 ≤ o.region ∧ o.region ≤ 3 then o.bands else []

/-- The descriptor of a sub-band; a sub-band that the lock does not hold is disabled and forbidden. -/
def OtpSt.band (o : OtpSt) (sb : Nat) : SubBand := o.held.getD sb {}

/-- Air time of a VI in a sub-band, in the bucket of one minute, in twelfths of a µs (R268). -/
structure Air where
  sb     : Nat
  vi     : Nat
  bucket : Nat
  dur    : Nat
  deriving DecidableEq, Repr

/-- Air time on a carrier frequency in Hz, in the bucket of one second, in twelfths of a µs (R270). -/
structure DwellAir where
  fc     : Nat
  bucket : Nat
  dur    : Nat
  deriving DecidableEq, Repr

/-- The air-time buckets. Buckets are numbered by the rolls since device reset. -/
structure DutSt where
  rollNo      : Nat := 0
  /-- The TB multiple of the next roll (R268). -/
  rollAt      : Nat := 240000000
  air         : List Air := []
  /-- The carry buckets, and the TB from which a roll drops them (R269). -/
  carry       : List Air := []
  carryTo     : Nat := 0
  dwellNo     : Nat := 0
  /-- The TB multiple of the next dwell roll (R270). -/
  dwellAt     : Nat := 4000000
  dwellAir    : List DwellAir := []
  /-- D, and the TB up to which it counts (R271). -/
  dwellKept   : Nat := 0
  dwellKeptTo : Nat := 0
  deriving DecidableEq, Repr

/-- One aerial port (R69 to R92). -/
structure RfPort where
  /-- GMODE in force; the register holds the written one (R80). -/
  mode      : Nat := 0
  /-- Whether a write of SCHGAIN or GMODE is held by a freeze, and a search move held by it (R80). -/
  heldGain  : Bool := false
  heldTune  : Option Nat := none
  /-- A tuner state that waits for a tick, and whether the search asked for it (R89, R91). -/
  nextTune  : Option (Nat × Bool) := none
  /-- The search direction, upward at first, which R91 leaves open (notes/assumptions/58.md, DESIGN CHOICE), and the last
  return loss measured (R91). -/
  up        : Bool := true
  lastLoss  : Option Nat := none
  /-- Whether CEIL is a further 6 dB lower (R92). -/
  severe    : Bool := false
  /-- TB from which the AGC's dwell counts run (R77), and TB at which a gain change has settled (R78). -/
  dwellFrom : Nat := 0
  settleAt  : Nat := 0
  /-- TB at which the converter runs (R83). -/
  runAt     : Option Nat := none
  /-- TB at which the port leaves TX (R69). -/
  exitAt    : Option Nat := none
  /-- Whether EPAn is high (R72). -/
  epa       : Bool := false
  deriving DecidableEq, Repr

/-- One calibration unit (R93 to R97). -/
structure CalUnit where
  pending : Bool := false
  /-- Consecutive slots for which it has been pending (R97). -/
  age     : Nat := 0
  /-- TB and temperature of its last completion (R94). -/
  doneAt  : Nat := 0
  doneT   : Int := 0
  /-- TB at which a granted unit ends (R95). -/
  ends    : Option Nat := none
  deriving DecidableEq, Repr

/-- The front end: ports 0 and 1, and the units of R93 in the order of grants. -/
structure RfeSt where
  ports : List RfPort := [{}, {}]
  cal   : List CalUnit := List.replicate 13 {}
  /-- Whether a completed XO unit is moving the applied trim toward its target (R96). -/
  xoMoves : Bool := false
  deriving DecidableEq, Repr

/-- The windows (R102): while a written value waits, the word in force, and whether the tick that applies it has come. -/
structure ChzSt where
  force : List (Option (Nat × Bool)) := [none, none, none, none]
  deriving DecidableEq, Repr

/-- The words of a plan: F0 in kHz, SP in 100 Hz, NCH (R103). -/
structure PlanWords where
  f0  : Nat
  sp  : Nat
  nch : Nat
  deriving DecidableEq, Repr

/-- One demodulation lane. -/
structure LaneSt where
  /-- TB of the entry into its present state. -/
  since   : Nat := 0
  /-- The cell of the slot that it serves, by its place in execution order, and whether that cell's window is open
  (R110, R201). -/
  cell    : Option Nat := none
  isOpen  : Bool := false
  /-- The words that its plan held at its last entry into ENERGY (R103). -/
  tuned   : Option PlanWords := none
  /-- ENERGY, QUALFAIL, SFDTO, PHRERR, FRAMES, FCSERR, BLANKED, BUFBUSY, ABANDON and DFERST (R133, R135). -/
  counts  : List Nat := [0, 0, 0, 0, 0, 0, 0, 0, 0, 0]
  /-- Final taps of its last frame, c[0] to c[6] and b[1] to b[3] (R133). -/
  taps    : List Int := [0, 0, 0, 0, 0, 0, 0, 0, 0, 0]
  /-- CODEDFR and CBDIFF (R147, R161). -/
  coded   : Nat := 0
  diffs   : Nat := 0
  deriving DecidableEq, Repr

/-- The lanes, and lane 0's copy of its coding bits in RXN (R148). -/
structure DmdSt where
  lanes : List LaneSt := List.replicate 128 {}
  rsc0  : Bool := false
  ilv0  : Bool := true
  deriving DecidableEq, Repr

/-- A template as a prefetch found it (R195, R196), in µs, and the preamble's octets. -/
structure Template where
  txoff   : Nat := 0
  rxoff   : Nat := 0
  rxwait  : Nat := 0
  txackd  : Nat := 0
  rxackd  : Nat := 0
  ackwait : Nat := 0
  prelen  : Nat := 0
  deriving DecidableEq, Repr

/-- A cell of a slot (R193, R199): slotframe, number, VI, its two words, channel, template; whether it transmits, was
granted, requests an acknowledgement, waits for a lane, and has had its window closed; its lane and its transmit
descriptor; whether its frame has been loaded. -/
structure RunCell where
  sf      : Nat
  idx     : Nat
  vi      : Nat
  w0      : Nat
  w1      : Nat
  chan    : Nat
  t       : Template := {}
  tx      : Bool := false
  granted : Bool := false
  ackReq  : Bool := false
  waits   : Bool := false
  closed  : Bool := false
  loaded  : Bool := false
  lane    : Option Nat := none
  desc    : Option Nat := none
  beacon  : Bool := false
  /-- The formation beacon of the slot (R213), which is no cell of a slotframe. -/
  forming : Bool := false
  /-- The priority that ranks its VI in the slot (R292, R301). -/
  prio    : Nat := 0
  /-- The free value that a beacon's unstated parameters are taken from. -/
  free    : Nat := 0
  deriving DecidableEq, Repr

/-- What the address verdict found (R166): accepting VIs as a mask, whether an acknowledgement is due, the context result
of R169 and the context. -/
structure Verdict where
  vis    : Nat
  ackDue : Bool
  res    : Nat
  ctx    : Nat
  deriving DecidableEq, Repr

/-- The receive path of a lane with a frame in progress (R121 to R127, R132, R145): the carrier offset in 2^-16 Hz and the
magnitude of the unit level, the taps c[0] to c[6] and b[1] to b[3] and their snapshot, the window of seven samples and the
last three decisions, newest first, in thirds; the next training symbol; the timing in 2^-32 of a symbol; the error sums of
training, of decision-directed symbols and of the block in progress with their counts, and the restores; the sum of the
offset; the bits sliced, newest first; the code bits in order; and the SFD found, with whether it marks the frame as coded. -/
structure RxDsp where
  off      : Int := 0
  level    : Nat := 1
  taps     : List Int := [0, 0, 0, 8192, 0, 0, 0, 0, 0, 0]
  snap     : List Int := [0, 0, 0, 8192, 0, 0, 0, 0, 0, 0]
  win      : List Int := []
  past     : List Int := [0, 0, 0]
  train    : Int := 3
  timing   : Int := 0
  trainSum : Nat := 0
  trainN   : Nat := 0
  fullSum  : Nat := 0
  fullN    : Nat := 0
  blockSum : Nat := 0
  blockN   : Nat := 0
  restores : Nat := 0
  offSum   : Int := 0
  offN     : Nat := 0
  bits     : List Bool := []
  soft     : List (Int × Bool) := []
  found    : Option Bool := none
  deriving DecidableEq, Repr

/-- A frame in a lane's buffer (R128). -/
structure RxFrame where
  lane   : Nat
  buf    : Nat
  port   : Nat
  vi     : Nat
  mode   : Nat
  midx   : Nat
  plan   : Nat
  chan   : Nat
  sfdsel : Nat
  rsc    : Bool
  ilv    : Bool
  /-- The window, FECEN and SFDTO that it was found with (R107). -/
  win    : Nat := 0
  fecen  : Bool := true
  sfdto  : Nat := 96
  /-- 0 searching the SFD, 1 receiving, 2 handed over, 3 processed and ready for delivery. -/
  stage  : Nat := 0
  /-- The SFD stamp, and the ASN of its slot (R119). -/
  tb     : Nat := 0
  fine   : Nat := 0
  asn    : Nat := 0
  coded  : Bool := false
  len    : Nat := 0
  white  : Bool := false
  fcs2   : Bool := false
  octets : List Nat := []
  rssi   : Int := 0
  lqi    : Nat := 0
  fo     : Int := 0
  clip   : Bool := false
  restored : Bool := false
  /-- The receive path while it is in progress (R121), and whether its lane was SCHED when it was found (R60, R107). -/
  rx     : RxDsp := {}
  sched  : Bool := false
  /-- The cell it was received in, with the expected stamp E in fine units (R175, R196). -/
  cell   : Option RunCell := none
  expect : Int := 0
  /-- Whether it was received on a lane that awaits an acknowledgement (R181). -/
  awaits : Bool := false
  verdict : Option Verdict := none
  hdrBad : Bool := false
  /-- VIs with reserved entries and how many (R187), and VIs whose copy is neither written nor dropped. -/
  resv   : List (Nat × Nat) := []
  copies : List Nat := []
  /-- What the primary copy carries: status, SECRAW, length and payload after processing (R171 to R173). -/
  status : Nat := 0
  secraw : Bool := false
  plain  : List Nat := []
  /-- The security job (R174): 0 none; 1 a verification that waits with its key slot, 2 running, 3 done; 4 the securing of the
  acknowledgement that waits, 5 running, 6 done; and the counter that this took (R234). -/
  job    : Nat := 0
  ackCounter : Option Nat := none
  slot   : Nat := 0
  nacked : Bool := false
  ackSent : Bool := false
  ackRequired : Bool := false
  ackResolved : Bool := false
  /-- Whether the destination of a handover received it over the link, and whether the source must relay it (R250, R324). -/
  relayed : Bool := false
  toRelay : Bool := false
  /-- The member whose stamp a relayed frame carries (R67). -/
  member : Nat := 0
  /-- The key that its job took at its start (R368). -/
  secret : List Nat := []
  deriving DecidableEq, Repr

/-- The frame engine: frames from qualifier pass to buffer release. -/
structure FrmSt where
  frames : List RxFrame := []
  deriving DecidableEq, Repr

/-- What a chain sends (R149). -/
inductive TxWhat
  /-- A queued frame: descriptor offset, and its cell. -/
  | queued (desc : Nat) (cell : RunCell)
  /-- A beacon of a VI (R209), or its formation beacon (R213). -/
  | beacon
  | formation
  /-- The acknowledgement of the frame in a lane's buffer (R176). -/
  | ack (lane buf : Nat)
  /-- A direct transmission (R155): a frame, or a wake burst. -/
  | direct
  | wake
  deriving DecidableEq, Repr

/-- An air-time charge, by which a refund finds its buckets (R266). -/
structure Charge where
  sb       : Nat
  vi       : Nat
  bucket   : Nat
  fc       : Nat
  dwBucket : Nat
  dwell    : Bool
  deriving DecidableEq, Repr

/-- A transmission that holds a staging buffer (R154). -/
structure TxRun where
  what   : TxWhat
  vi     : Nat
  w0     : Nat
  w1     : Nat
  octets : List Nat
  /-- TB of its first preamble bit at the PA output, where that is fixed. -/
  start  : Nat
  /-- 0 loaded, 1 ramping up, 2 on air, 3 ramping down. -/
  phase  : Nat := 0
  port   : Nat := 0
  fc     : Nat := 0
  power  : Int := 0
  /-- Air time in twelfths of a µs, and the TB of its ramp-up. -/
  air    : Nat := 0
  rampAt : Nat := 0
  charge : Option Charge := none
  status : Nat := 0
  ackReq : Bool := false
  /-- Whether the mask monitor has evaluated a window of it (R158), and the mismatch detector has measured it (R90). -/
  measured : Bool := false
  lossSeen : Bool := false
  /-- The number of its staging buffer (R154, R162). -/
  buf    : Nat := 0
  /-- What it keeps from the start of its ramp-up: the ramp time in TB units (R86), the words of its shaping set, of CcMASK1,
  CcMASK2 and CcMCFG, and of CcWAKE (R153, R159, R160). -/
  ramp   : Nat := 0
  coefs  : List Nat := []
  masks  : List Nat := []
  wake   : Nat := 0
  /-- TB and fine fraction of its start stamp, and the ASN of its slot. -/
  tb     : Nat := 0
  fine   : Nat := 0
  asn    : Nat := 0
  deriving DecidableEq, Repr

/-- A transmit chain: its transmissions, and its class for the slot (R156). -/
structure ChainSt where
  runs   : List TxRun := []
  direct : Bool := false
  deriving DecidableEq, Repr

/-- The transmit chains TXA and TXB. -/
structure TxpSt where
  chains : List ChainSt := [{}, {}]
  deriving DecidableEq, Repr

/-- A queued transmit descriptor: its offset, the attempts made, and the stamp and ASN of the last one (R206). -/
structure TxEntry where
  off   : Nat
  tries : Nat := 0
  tb    : Nat := 0
  fine  : Nat := 0
  asn   : Nat := 0
  deriving DecidableEq, Repr

/-- A transmit queue (R204, R205): its VI, its kind (0 context, 1 AQ, 2 BQ), its context, its descriptors in order, and for
AQ and BQ its backoff exponent and count (R208). -/
structure TxQueue where
  vi    : Nat
  kind  : Nat
  ctx   : Nat
  descs : List TxEntry := []
  be    : Nat := 1
  bc    : Nat := 0
  deriving DecidableEq, Repr

/-- A wait for an acknowledgement (R181): the lane, the cell, the descriptor, the octets as sent without the FCS, the key
slot of a secured frame, and the end of the frame on air in TB. -/
structure AckWait where
  lane   : Nat
  cell   : RunCell
  desc   : Nat
  frame  : List Nat
  ends   : Nat
  deriving DecidableEq, Repr

/-- The securing of a transmission (R207): its cell, its octets without the FCS, the counter and the key that it took at
its start, and its stage: 0 waiting, 1 running, 2 done. -/
structure TxJob where
  cell    : Nat
  vi      : Nat
  ctx     : Nat
  slot    : Nat
  octets  : List Nat
  counter : Option Nat := none
  secret  : List Nat := []
  stage   : Nat := 0
  deriving DecidableEq, Repr

/-- An enhanced beacon that the timing VI has taken and the Shuttle has not yet acted on (R211, R214): its octets, its SFD
stamp in fine units, its mode, and the sender's context. -/
structure Heard where
  octets : List Nat
  stamp  : Nat
  mode   : Nat
  ctx    : Nat
  deriving DecidableEq, Repr

/-- The lockstep pair (R332 to R343). -/
structure PairSt where
  /-- TB at which the checkpoint being written ends, whether an older one is valid, and the journal entries since the
  newest checkpoint and since the last tick (R336, R337). -/
  writing : Option Nat := none
  older   : Bool := false
  journal : Nat := 0
  entries : Nat := 0
  /-- 0 running, 1 quiescing, 2 restoring; TB of the detection, and the case of R350. -/
  stage   : Nat := 0
  since   : Nat := 0
  kind    : Nat := 0
  /-- An injected fault waits for copy B's next output (R356). -/
  inject  : Bool := false
  deriving DecidableEq, Repr

/-- The Shuttle (R197 to R217). -/
structure ShuSt where
  /-- The prefetch of the coming slot: the ASN that its tick will carry and its cells; and whether a change of ASN has made
  it void (R198). -/
  next     : Option (Nat × List RunCell) := none
  /-- TB at which RUN last became 1 (R198). -/
  runFrom  : Nat := 0
  void     : Bool := false
  pair     : PairSt := {}
  /-- The cells of the present slot in execution order, the TB of its tick and its ASN. -/
  cells    : List RunCell := []
  tick     : Nat := 0
  asn      : Nat := 0
  queues   : List TxQueue := []
  /-- The completion FIFOs: VI, status, descriptor offset, oldest first (R206). -/
  done     : List (Nat × Nat × Nat) := []
  waits    : List AckWait := []
  jobs     : List TxJob := []
  heard    : List Heard := []
  /-- Whether a restore of the lockstep pair disturbs the present slot (R340). -/
  disturbed : Bool := false
  /-- ASN of each VI's last beacon (R209). -/
  beacons  : List (Nat × Nat) := []
  /-- Whether the formation beacons of the slotframe in progress are cancelled (R214). -/
  lost     : Bool := false
  deriving DecidableEq, Repr

/-- A repair of the Bobbin (R345): 0 store word, 1 lining word, 2 key table; the context and word; whether the store word
and its lining word are both in error; the TB of the detection. -/
structure Repair where
  what  : Nat
  ctx   : Nat
  word  : Nat
  both  : Bool
  since : Nat
  deriving DecidableEq, Repr

/-- What the destination of a handover keeps of slots H and H + 1: the context, its RXFC at H where it was valid, and the
counters accepted since (R252). -/
structure RelaySet where
  ctx  : Nat
  base : Option Nat := none
  got  : List Nat := []
  deriving DecidableEq, Repr

/-- The Bobbin (R219 to R256). -/
structure BobSt where
  /-- Contexts whose silence restarts at their next sweep, and the ASN that it restarts from (R230). -/
  restart  : List Nat := []
  from_    : Nat := 0
  /-- TB of the last lease write, and whether the immediate write of RJONLY is due (R244). -/
  leaseAt  : Option Nat := none
  leaseNow : Bool := false
  /-- The handed-over contexts in their slots H and H + 1, or waiting for their close record (R252, R325). -/
  seen     : List RelaySet := []
  /-- Handovers whose slot H has not come, and those in their relay window: context and stage (R249 to R251). -/
  handovers : List (Nat × Nat) := []
  /-- Context records accepted from another member: the context kept for each, its slot H and its words (R252, R323); and the
  final RXFC of close records (R325). -/
  incoming : List (Nat × Nat × List Nat) := []
  closes   : List (Nat × Nat) := []
  /-- The hash key, whether the restore of MAC draws a new one, and the places of extended and short keys: context and bucket,
  2048 for the stash (R223). -/
  hashKey  : Nat := 0
  hashDue  : Bool := false
  /-- The context whose next read of word 7 reports an injected error (R356), and the repairs that run (R345). -/
  inject   : Option Nat := none
  repairs  : List Repair := []
  extKeys  : List (Nat × Nat) := []
  shortKeys : List (Nat × Nat) := []
  deriving DecidableEq, Repr

/-- The key store (R366): the key of each slot, EMPTY as no octets. -/
structure KeySt where
  keys : List (List Nat) := List.replicate 64 []
  deriving DecidableEq, Repr

/-- A software job (R362): its VI, and the words of its registers JCFG, JSRC, JDST, JLEN and JKEY, its JIV and JTAG octets and
the key it took at its start (R368). -/
structure SoftJob where
  vi     : Nat
  cfg    : Nat
  src    : Nat
  dst    : Nat
  len    : Nat
  key    : Nat
  iv     : List Nat
  tag    : List Nat
  secret : List Nat := []
  status : Option Nat := none
  deriving DecidableEq, Repr

/-- A frame job of the cipher engine (R174): the verification of a received frame, the securing of its acknowledgement, or
the securing of a cell's frame. -/
inductive FrameJob
  | verify (lane buf : Nat)
  | answer (lane buf : Nat)
  | secure (cell : Nat)
  deriving DecidableEq, Repr

/-- A hash or a verification (R372): whether it verifies, its addresses and length, and the TB of its end. -/
structure HashJob where
  verify : Bool
  src    : Nat
  len    : Nat
  key    : Nat
  sig    : Nat
  ends   : Nat
  deriving DecidableEq, Repr

/-- A change of a key slot (R366, R368): its new attributes, its new key, and whether KCMD asked for it (R369). -/
structure KeyChange where
  slot  : Nat
  attrs : Nat
  key   : List Nat
  kcmd  : Bool
  deriving DecidableEq, Repr

/-- The cipher engine. -/
structure SecSt where
  /-- Software jobs in the order of their GO writes (R362). -/
  jobs    : List SoftJob := []
  /-- The frame job that runs (R174). -/
  frame   : Option FrameJob := none
  /-- Raw bits since start-up and the places of the failures among the last 65 536 (R370). -/
  raw     : Nat := 0
  fails   : List Nat := []
  /-- The words in the pool (R371). -/
  pool    : List Nat := []
  /-- The running hash or verification, as its registers stood at GO (R372). -/
  hash    : Option HashJob := none
  /-- Erases and replacements of slots that wait for a running job (R368). -/
  changes : List KeyChange := []
  deriving DecidableEq, Repr

/-- The command engine: TB before which step 2 of a slowed command does not start (R380). -/
structure CmdSt where
  slowTo : Nat := 0
  deriving DecidableEq, Repr

/-- The memories' error state (R455 to R465). Words are named by memory number and offset of the code word. -/
structure EccSt where
  /-- Words that hold an uncorrectable error (R460), and words whose correction waits for its write-back (R457). -/
  bad    : List (Nat × Nat) := []
  fresh  : List (Nat × Nat) := []
  /-- CE, UE and LOGOVF of each memory, and its last uncorrectable word with UELOG.V, which a read clears (R456, R458, R460,
  R466). -/
  ce     : List Nat := [0, 0, 0, 0, 0, 0, 0]
  ue     : List Nat := [0, 0, 0, 0, 0, 0, 0]
  lost   : List Nat := [0, 0, 0, 0, 0, 0, 0]
  last   : List (Nat × Bool) := List.replicate 7 (0, false)
  /-- The address logs: memory, offset and HITS, in the order of their entries, empty ones with HITS 0 (R458). -/
  log    : List (List (Nat × Nat)) := List.replicate 5 (List.replicate 16 (0, 0))
  /-- Correctable errors of the flash sectors: bank, sector, count (R456). -/
  sectors : List (Nat × Nat × Nat) := []
  /-- TB at which the running lap started, and at which the next is due; whether LAPSLOW was set for it (R464, R465). -/
  lapFrom : Option Nat := none
  lapDue  : Nat := 0
  slow    : Bool := false
  deriving DecidableEq, Repr

/-- An operation of a flash bank (R433, R438, R442): its queue, or none for the privileged path; 1 PROGRAM, 2 ERASE, 3 BLANK;
the unit or sector in progress, how many have completed and how many there are; the source; NOSUSP; whether protection is
ignored; whether it is suspended and whether a read has asked for that; the TB of its start and whether STARVE was set. -/
structure FlashOp where
  queue   : Option Nat
  kind    : Nat
  addr    : Nat
  first   : Nat
  done    : Nat
  count   : Nat
  daddr   : Nat
  data    : List Nat
  noSusp  : Bool
  free    : Bool
  paused  : Bool := false
  asked   : Bool := false
  since   : Nat := 0
  starved : Bool := false
  deriving DecidableEq, Repr

/-- A flash bank: its operation, the queue it served last, the TB of its last read and at which its re-ramp ends, the open operation record (kind, address,
data), and the slot of the next one (R441, R444, R446). -/
structure FlashBank where
  op     : Option FlashOp := none
  served : Nat := 7
  readAt : Nat := 0
  rampTo : Nat := 0
  rec_   : Option (Nat × Nat × List Nat) := none
  slot   : Nat := 0
  deriving DecidableEq, Repr

/-- The flash controller. -/
structure FlcSt where
  banks   : List FlashBank := [{}, {}]
  /-- Steps of the privileged path taken: 0 locked, 1 first key, 2 unlocked, 3 CMD written, 4 ADDR written, 5 to 7 DATA0 to
  DATA2 written; and the TB of the last (R442). -/
  step    : Nat := 0
  stepAt  : Nat := 0
  /-- A privileged command that waits for its bank: kind, address, data, NOSUSP, and whether it ignores protection. -/
  waits   : Option (Nat × Nat × List Nat × Bool × Bool) := none
  deriving DecidableEq, Repr

/-- A Denat core (R384, R406): its program counter, control registers, the register-held entries of its two stacks with the top
first (R386, R387), its address registers and task regions, whether it sleeps (R401), runs (R407), and is held by a debugger
(R595). The defaults are the reset values of DN0. -/
structure DnCore where
  pc     : Nat := 0
  /-- STATUS: M [31], IE [30], LVL [29:28], N [3], Z [2], V [1], C [0]. -/
  status : Nat := 0x80000000
  dsp    : Nat := 0x20004000
  dsbase : Nat := 0x20004000
  dslim  : Nat := 0x20002000
  rsp    : Nat := 0x20002000
  rsbase : Nat := 0x20002000
  rslim  : Nat := 0x20001000
  vbar   : Nat := 0
  ds     : List Nat := []
  rs     : List Nat := []
  a      : List Nat := [0, 0, 0, 0]
  abase  : List Nat := [0, 0, 0, 0]
  amode  : List Nat := [0, 0, 0, 0]
  trgn   : List Nat := [0, 0, 0, 0]
  asleep : Bool := false
  runs   : Bool := true
  held   : Bool := false
  /-- Whether a debugger has asked for one instruction of the held core (R595). -/
  step   : Bool := false
  deriving DecidableEq, Repr

/-- A core at its reset values (R406). -/
def DnCore.reset (c : Nat) : DnCore :=
  if c = 0 then {} else
    { dsp := 0x201FC000, dsbase := 0x201FC000, dslim := 0x201FA000, rsp := 0x201FA000, rsbase := 0x201FA000
      rslim := 0x201F9000, runs := false }

/-- The two cores. -/
structure DnSt where
  cores : List DnCore := [DnCore.reset 0, DnCore.reset 1]
  deriving DecidableEq, Repr

/-- The test access port (R594, R595): its instruction, what the last one shifted out, and the breakpoints: core and
address. -/
structure DbgSt where
  ir     : Nat := 1
  out    : Nat := 0
  breaks : List (Nat × Nat) := []
  /-- The erasure of a reopen was started by the command engine, which reports its end (R599). -/
  byCmd  : Bool := false
  deriving DecidableEq, Repr

/-- The tenancy table: the CLOSING virtual interfaces whose step 2 has run (R293). -/
structure VifSt where
  ticked : List Nat := []
  /-- The VIs that were CLOSING at the last slot tick, whose step 2 is due (R293). -/
  due    : List Nat := []
  deriving DecidableEq, Repr

/-- Boot and update (R577, R581, R585, R592): the boot that is due (cold or wake); the bank whose migrator runs and whether its
journal was found full; the octets of SHUCODE, CHZTAB and DMDTAB in their RAMs; the TB of the reset that ACTIVATE asked for. -/
structure UpdSt where
  due       : Option Bool := some true
  migrating : Option Nat := none
  full      : Bool := false
  code      : List (List Nat) := [[], [], []]
  resetAt   : Option Nat := none
  deriving DecidableEq, Repr

/-- What this device sends over the link (R316, R322 to R326), with the member that it is for: a load record; a context
record, the answer to one and a close record; a relayed frame with its tag; a remote access. -/
inductive LinkSend
  | load (len : Nat) (adj : Int) (commit : Option Nat)
  | record (dest ctx : Nat) (words : List Nat)
  | answer (dest : Nat) (accepted : Bool)
  | close (dest ctx rxfc : Nat)
  | relay (dest lane port tb fine asn gen : Nat) (octets : List Nat)
  | remote (dest addr words : Nat) (write : Bool)
  deriving DecidableEq, Repr

/-- The cascade link (R308 to R330): TB of the entry into TRAIN and of the last loss, while the link is lost; markers returned; the
last answer to a context record; and the words read for the last remote access served. -/
structure CasSt where
  trainAt : Nat := 0
  lostAt  : Option Nat := none
  echoes  : Nat := 0
  reply   : Option Bool := none
  /-- What this device has put on the link since the last tick, in the order of R322 in each direction. -/
  out     : List LinkSend := []
  served  : List Nat := []
  deriving DecidableEq, Repr

end Sys2Proof.Machine
end

