-- ==== Sys2Proof/Machine/RegDesc.lean ====
section
/-! DEFINITION. The shape of a register description: a field's place, access code (R14) and permitted values (R23). -/

namespace Sys2Proof.Machine

/-- The pages of R40. -/
inductive Page
  | SYS | PWR | CLK | FLT | REC | STM | TIM | I2C | HIF | DBG | FLC | MEM | NVS | SEC | KEY | CMD | RFE | RXS | CHZ
  | DMD | FEC | TXP | FRM | SHU | PAT | BOB | DUT | THM | VIF | CAS | LMP | MTR | REF | GAU | UPD | GIO | CPU | MOV
  deriving DecidableEq, Repr

/-- The access codes of R14. RWV is RW with `Copy.perVi` on the register. -/
inductive Acc
  | rw | ro | wo | w1c | w1s | rwl
  deriving DecidableEq, Repr

/-- The values a field may hold; every other value is a reserved encoding (R22, R23). -/
inductive Lim
  | any
  | range (lo hi : Nat)
  | either (lo hi lo' hi' : Nat)
  | signed (lo hi : Int)
  deriving DecidableEq, Repr

/-- Which copies a register has: one, one for each virtual interface (R14, RWV), or one for each initiator (R52). -/
inductive Copy
  | shared | perVi | perIni
  deriving DecidableEq, Repr

structure FieldDesc where
  lo    : Nat
  width : Nat
  acc   : Acc
  lim   : Lim
  deriving DecidableEq, Repr

/-- `count` registers at `off + stride * i` of a page, alike in their fields and their reset value. -/
structure RegDesc where
  off    : Nat
  count  : Nat
  stride : Nat
  reset  : Nat
  copy   : Copy
  fields : List FieldDesc
  deriving DecidableEq, Repr

/-- A place in the register file: a key (an address, with the copy's number above it), a bit position and a width.
`stride` leads from one instance's register to the next. -/
structure Fld where
  key    : Nat
  lo     : Nat
  width  : Nat
  stride : Nat
  deriving DecidableEq, Repr

/-- A key moved on by a distance. -/
def movedKey (k d : Nat) : Nat := k + d

/-- The same field of instance `n` (R7). -/
def Fld.i (f : Fld) (n : Nat) : Fld := ⟨movedKey f.key (f.stride * n), f.lo, f.width, f.stride⟩

/-- The same field of copy `c` of its register (R14, R52, R298). -/
def Fld.copy (f : Fld) (c : Nat) : Fld := ⟨movedKey f.key (0x100000000 * c), f.lo, f.width, f.stride⟩

/-- One bit of a field that holds one bit per item. -/
def Fld.bit (f : Fld) (b : Nat) : Fld := { f with lo := f.lo + b, width := 1 }

/-- A field of `w` bits inside a wider field, `b` bits above its lowest. -/
def Fld.sub (f : Fld) (b w : Nat) : Fld := { f with lo := f.lo + b, width := w }

/-- One bit of a row of registers that together hold one bit per item, 32 to a register. -/
def Fld.mapBit (f : Fld) (n : Nat) : Fld := (f.i (n / 32)).bit (n % 32)

/-- Whether a value is one of a field's permitted values. -/
def Lim.allows (l : Lim) (width v : Nat) : Bool :=
  match l with
  | .any => true
  | .range a b => a ≤ v && v ≤ b
  | .either a b c d => (a ≤ v && v ≤ b) || (c ≤ v && v ≤ d)
  | .signed a b =>
    let x : Int := if v < 2 ^ (width - 1) then v else (v : Int) - 2 ^ width
    a ≤ x && x ≤ b

end Sys2Proof.Machine
end

