-- ==== Sys2Proof/Machine/RegMap.lean ====
section
/-! DEFINITION. The register map: every register page of R40, every register and every field of the page tables of
spec/00 to spec/28 (header R16, R18, R21), with access code (R14), permitted values (R22, R23) and reset value (R27). -/



namespace Sys2Proof.Machine

/-! Page SYS, code 0x00 (R40). -/

def SYS.ID : Fld := ⟨0x40000000, 0, 32, 0⟩
def SYS.ID.CODE : Fld := ⟨0x40000000, 24, 8, 0⟩
def SYS.ID.VERSION : Fld := ⟨0x40000000, 16, 8, 0⟩
def SYS.ID.INSTANCES : Fld := ⟨0x40000000, 8, 8, 0⟩
def SYS.CAPS : Fld := ⟨0x40000004, 0, 32, 0⟩
def SYS.CAPS.C : Fld := ⟨0x40000004, 0, 32, 0⟩
def SYS.CTRL : Fld := ⟨0x40000008, 0, 32, 0⟩
def SYS.STAT : Fld := ⟨0x4000000C, 0, 32, 0⟩
def SYS.STAT.BOOT1 : Fld := ⟨0x4000000C, 2, 1, 0⟩
def SYS.STAT.BOOT0 : Fld := ⟨0x4000000C, 1, 1, 0⟩
def SYS.STAT.CASM : Fld := ⟨0x4000000C, 0, 1, 0⟩
def SYS.STICKY : Fld := ⟨0x40000010, 0, 32, 0⟩
def SYS.STICKY.RSVD : Fld := ⟨0x40000010, 31, 1, 0⟩
def SYS.STICKY.LOCKV : Fld := ⟨0x40000010, 30, 1, 0⟩
def SYS.STICKY.DOMOFF : Fld := ⟨0x40000010, 2, 1, 0⟩
def SYS.STICKY.ROWRITE : Fld := ⟨0x40000010, 1, 1, 0⟩
def SYS.STICKY.UNMAPPED : Fld := ⟨0x40000010, 0, 1, 0⟩
def SYS.IRQEN : Fld := ⟨0x40000014, 0, 32, 0⟩
def SYS.FLTEN : Fld := ⟨0x40000018, 0, 32, 0⟩
def SYS.LOCK : Fld := ⟨0x4000001C, 0, 32, 0⟩
def SYS.LOCK.VAL : Fld := ⟨0x4000001C, 0, 1, 0⟩
def SYS.REVID : Fld := ⟨0x40000040, 0, 32, 0⟩
def SYS.REVID.PART : Fld := ⟨0x40000040, 16, 16, 0⟩
def SYS.REVID.STEP : Fld := ⟨0x40000040, 0, 8, 0⟩
def SYS.ROLE : Fld := ⟨0x40000044, 0, 32, 0⟩
def SYS.ROLE.VAL : Fld := ⟨0x40000044, 0, 2, 0⟩
def SYS.UIDLO : Fld := ⟨0x40000048, 0, 32, 0⟩
def SYS.UIDLO.UID : Fld := ⟨0x40000048, 0, 32, 0⟩
def SYS.UIDHI : Fld := ⟨0x4000004C, 0, 32, 0⟩
def SYS.UIDHI.UID : Fld := ⟨0x4000004C, 0, 32, 0⟩

def SYS.table : List RegDesc :=
[⟨0x000, 1, 0, 0x00030100, .shared, [⟨24, 8, .ro, .any⟩, ⟨16, 8, .ro, .any⟩, ⟨8, 8, .ro, .any⟩]⟩,
   ⟨0x004, 1, 0, 0x00008010, .shared, [⟨0, 32, .ro, .any⟩]⟩,
   ⟨0x008, 1, 0, 0x00000000, .shared, []⟩,
   ⟨0x00C, 1, 0, 0x00000000, .shared, [⟨2, 1, .ro, .any⟩, ⟨1, 1, .ro, .any⟩, ⟨0, 1, .ro, .any⟩]⟩,
   ⟨0x010, 1, 0, 0x00000000, .shared, [⟨31, 1, .w1c, .any⟩, ⟨30, 1, .w1c, .any⟩, ⟨2, 1, .w1c, .any⟩, ⟨1, 1, .w1c, .any⟩, ⟨0, 1, .w1c, .any⟩]⟩,
   ⟨0x014, 1, 0, 0x00000000, .shared, [⟨0, 32, .rw, .any⟩]⟩,
   ⟨0x018, 1, 0, 0x00000000, .shared, [⟨0, 32, .rw, .any⟩]⟩,
   ⟨0x01C, 1, 0, 0x00000000, .shared, [⟨0, 1, .w1s, .any⟩]⟩,
   ⟨0x040, 1, 0, 0x409600B0, .shared, [⟨16, 16, .ro, .any⟩, ⟨0, 8, .ro, .any⟩]⟩,
   ⟨0x044, 1, 0, 0x00000000, .shared, [⟨0, 2, .rwl, .range 0 2⟩]⟩,
   ⟨0x048, 1, 0, 0x00000000, .shared, [⟨0, 32, .ro, .any⟩]⟩,
   ⟨0x04C, 1, 0, 0x00000000, .shared, [⟨0, 32, .ro, .any⟩]⟩]

/-! Page PWR, code 0x01 (R40). -/

def PWR.ID : Fld := ⟨0x40001000, 0, 32, 0⟩
def PWR.ID.CODE : Fld := ⟨0x40001000, 24, 8, 0⟩
def PWR.ID.VERSION : Fld := ⟨0x40001000, 16, 8, 0⟩
def PWR.ID.INSTANCES : Fld := ⟨0x40001000, 8, 8, 0⟩
def PWR.CAPS : Fld := ⟨0x40001004, 0, 32, 0⟩
def PWR.CAPS.C : Fld := ⟨0x40001004, 0, 32, 0⟩
def PWR.CTRL : Fld := ⟨0x40001008, 0, 32, 0⟩
def PWR.CTRL.AUTONARROW : Fld := ⟨0x40001008, 1, 1, 0⟩
def PWR.CTRL.WAKEMODE : Fld := ⟨0x40001008, 0, 1, 0⟩
def PWR.STAT : Fld := ⟨0x4000100C, 0, 32, 0⟩
def PWR.STAT.MODE : Fld := ⟨0x4000100C, 29, 3, 0⟩
def PWR.STAT.BUSY : Fld := ⟨0x4000100C, 28, 1, 0⟩
def PWR.STAT.ONBAK : Fld := ⟨0x4000100C, 27, 1, 0⟩
def PWR.STAT.RTCLOST : Fld := ⟨0x4000100C, 26, 1, 0⟩
def PWR.STAT.DOMON : Fld := ⟨0x4000100C, 0, 9, 0⟩
def PWR.STICKY : Fld := ⟨0x40001010, 0, 32, 0⟩
def PWR.STICKY.RSVD : Fld := ⟨0x40001010, 31, 1, 0⟩
def PWR.STICKY.LOCKV : Fld := ⟨0x40001010, 30, 1, 0⟩
def PWR.STICKY.WREF : Fld := ⟨0x40001010, 5, 1, 0⟩
def PWR.STICKY.FENCETO : Fld := ⟨0x40001010, 4, 1, 0⟩
def PWR.STICKY.WAKE : Fld := ⟨0x40001010, 3, 1, 0⟩
def PWR.STICKY.VINBACK : Fld := ⟨0x40001010, 2, 1, 0⟩
def PWR.STICKY.OUTAGE : Fld := ⟨0x40001010, 1, 1, 0⟩
def PWR.STICKY.RTCLOST : Fld := ⟨0x40001010, 0, 1, 0⟩
def PWR.IRQEN : Fld := ⟨0x40001014, 0, 32, 0⟩
def PWR.FLTEN : Fld := ⟨0x40001018, 0, 32, 0⟩
def PWR.LOCK : Fld := ⟨0x4000101C, 0, 32, 0⟩
def PWR.LOCK.VAL : Fld := ⟨0x4000101C, 0, 1, 0⟩
def PWR.MODEREQ : Fld := ⟨0x40001040, 0, 32, 0⟩
def PWR.MODEREQ.PEND : Fld := ⟨0x40001040, 31, 1, 0⟩
def PWR.MODEREQ.TARGET : Fld := ⟨0x40001040, 0, 3, 0⟩
def PWR.DOMEN : Fld := ⟨0x40001044, 0, 32, 0⟩
def PWR.DOMEN.NAROPT : Fld := ⟨0x40001044, 4, 3, 0⟩
def PWR.DOMEN.RUNOPT : Fld := ⟨0x40001044, 0, 3, 0⟩
def PWR.RETAIN : Fld := ⟨0x40001048, 0, 32, 0⟩
def PWR.RETAIN.BOB : Fld := ⟨0x40001048, 16, 1, 0⟩
def PWR.RETAIN.BANKS : Fld := ⟨0x40001048, 0, 16, 0⟩
def PWR.WAKEEN : Fld := ⟨0x4000104C, 0, 32, 0⟩
def PWR.WAKEEN.SRC : Fld := ⟨0x4000104C, 0, 5, 0⟩
def PWR.WAKESRC : Fld := ⟨0x40001050, 0, 32, 0⟩
def PWR.WAKESRC.V : Fld := ⟨0x40001050, 31, 1, 0⟩
def PWR.WAKESRC.FROM : Fld := ⟨0x40001050, 16, 3, 0⟩
def PWR.WAKESRC.SRC : Fld := ⟨0x40001050, 0, 5, 0⟩
def PWR.WAKETB : Fld := ⟨0x40001054, 0, 32, 0⟩
def PWR.WAKETB.TB : Fld := ⟨0x40001054, 0, 32, 0⟩
def PWR.PDFENCE : Fld := ⟨0x40001058, 0, 32, 0⟩
def PWR.PDFENCE.LIMIT : Fld := ⟨0x40001058, 0, 16, 0⟩
def PWR.FENCELOG : Fld := ⟨0x4000105C, 0, 32, 0⟩
def PWR.FENCELOG.V : Fld := ⟨0x4000105C, 31, 1, 0⟩
def PWR.FENCELOG.INIT : Fld := ⟨0x4000105C, 28, 3, 0⟩
def PWR.FENCELOG.CH : Fld := ⟨0x4000105C, 24, 4, 0⟩
def PWR.FENCELOG.DOMAIN : Fld := ⟨0x4000105C, 0, 4, 0⟩
def PWR.RTCSEC : Fld := ⟨0x40001060, 0, 32, 0⟩
def PWR.RTCSEC.SEC : Fld := ⟨0x40001060, 0, 32, 0⟩
def PWR.RTCALM : Fld := ⟨0x40001064, 0, 32, 0⟩
def PWR.RTCALM.SEC : Fld := ⟨0x40001064, 0, 32, 0⟩
def PWR.BAKCFG : Fld := ⟨0x40001068, 0, 32, 0⟩
def PWR.BAKCFG.DEB : Fld := ⟨0x40001068, 16, 8, 0⟩
def PWR.BAKCFG.RISE : Fld := ⟨0x40001068, 8, 8, 0⟩
def PWR.BAKCFG.FALL : Fld := ⟨0x40001068, 0, 8, 0⟩

def PWR.table : List RegDesc :=
[⟨0x000, 1, 0, 0x01030100, .shared, [⟨24, 8, .ro, .any⟩, ⟨16, 8, .ro, .any⟩, ⟨8, 8, .ro, .any⟩]⟩,
   ⟨0x004, 1, 0, 0x00000010, .shared, [⟨0, 32, .ro, .any⟩]⟩,
   ⟨0x008, 1, 0, 0x00000003, .shared, [⟨1, 1, .rw, .any⟩, ⟨0, 1, .rw, .any⟩]⟩,
   ⟨0x00C, 1, 0, 0x040001FF, .shared, [⟨29, 3, .ro, .any⟩, ⟨28, 1, .ro, .any⟩, ⟨27, 1, .ro, .any⟩, ⟨26, 1, .ro, .any⟩, ⟨0, 9, .ro, .any⟩]⟩,
   ⟨0x010, 1, 0, 0x00000000, .shared, [⟨31, 1, .w1c, .any⟩, ⟨30, 1, .w1c, .any⟩, ⟨5, 1, .w1c, .any⟩, ⟨4, 1, .w1c, .any⟩, ⟨3, 1, .w1c, .any⟩, ⟨2, 1, .w1c, .any⟩, ⟨1, 1, .w1c, .any⟩, ⟨0, 1, .w1c, .any⟩]⟩,
   ⟨0x014, 1, 0, 0x00000000, .shared, [⟨0, 32, .rw, .any⟩]⟩,
   ⟨0x018, 1, 0, 0x00000010, .shared, [⟨0, 32, .rw, .any⟩]⟩,
   ⟨0x01C, 1, 0, 0x00000000, .shared, [⟨0, 1, .w1s, .any⟩]⟩,
   ⟨0x040, 1, 0, 0x00000000, .shared, [⟨31, 1, .ro, .any⟩, ⟨0, 3, .rw, .range 0 4⟩]⟩,
   ⟨0x044, 1, 0, 0x00000007, .shared, [⟨4, 3, .rw, .any⟩, ⟨0, 3, .rw, .any⟩]⟩,
   ⟨0x048, 1, 0, 0x00000001, .shared, [⟨16, 1, .rw, .any⟩, ⟨0, 16, .rw, .any⟩]⟩,
   ⟨0x04C, 1, 0, 0x0000001F, .shared, [⟨0, 5, .rw, .any⟩]⟩,
   ⟨0x050, 1, 0, 0x00000000, .shared, [⟨31, 1, .ro, .any⟩, ⟨16, 3, .ro, .any⟩, ⟨0, 5, .ro, .any⟩]⟩,
   ⟨0x054, 1, 0, 0x00000000, .shared, [⟨0, 32, .ro, .any⟩]⟩,
   ⟨0x058, 1, 0, 0x00000064, .shared, [⟨0, 16, .rw, .range 1 65535⟩]⟩,
   ⟨0x05C, 1, 0, 0x00000000, .shared, [⟨31, 1, .ro, .any⟩, ⟨28, 3, .ro, .any⟩, ⟨24, 4, .ro, .any⟩, ⟨0, 4, .ro, .any⟩]⟩,
   ⟨0x060, 1, 0, 0x00000000, .shared, [⟨0, 32, .rw, .any⟩]⟩,
   ⟨0x064, 1, 0, 0x00000000, .shared, [⟨0, 32, .rw, .any⟩]⟩,
   ⟨0x068, 1, 0, 0x000A5A4B, .shared, [⟨16, 8, .rw, .range 1 255⟩, ⟨8, 8, .rw, .any⟩, ⟨0, 8, .rw, .range 70 255⟩]⟩]

/-! Page CLK, code 0x02 (R40). -/

def CLK.ID : Fld := ⟨0x40002000, 0, 32, 0⟩
def CLK.ID.CODE : Fld := ⟨0x40002000, 24, 8, 0⟩
def CLK.ID.VERSION : Fld := ⟨0x40002000, 16, 8, 0⟩
def CLK.ID.INSTANCES : Fld := ⟨0x40002000, 8, 8, 0⟩
def CLK.CAPS : Fld := ⟨0x40002004, 0, 32, 0⟩
def CLK.CAPS.C : Fld := ⟨0x40002004, 0, 32, 0⟩
def CLK.CTRL : Fld := ⟨0x40002008, 0, 32, 0⟩
def CLK.CTRL.XOSRC : Fld := ⟨0x40002008, 4, 1, 0⟩
def CLK.CTRL.CKOUTSEL : Fld := ⟨0x40002008, 1, 3, 0⟩
def CLK.CTRL.TICKEN : Fld := ⟨0x40002008, 0, 1, 0⟩
def CLK.STAT : Fld := ⟨0x4000200C, 0, 32, 0⟩
def CLK.STAT.CASSYNC : Fld := ⟨0x4000200C, 3, 1, 0⟩
def CLK.STAT.TBEST : Fld := ⟨0x4000200C, 2, 1, 0⟩
def CLK.STAT.K32OK : Fld := ⟨0x4000200C, 1, 1, 0⟩
def CLK.STAT.PLLLOCK : Fld := ⟨0x4000200C, 0, 1, 0⟩
def CLK.STICKY : Fld := ⟨0x40002010, 0, 32, 0⟩
def CLK.STICKY.RSVD : Fld := ⟨0x40002010, 31, 1, 0⟩
def CLK.STICKY.LOCKV : Fld := ⟨0x40002010, 30, 1, 0⟩
def CLK.STICKY.K32FAIL : Fld := ⟨0x40002010, 2, 1, 0⟩
def CLK.STICKY.ADJSAT : Fld := ⟨0x40002010, 1, 1, 0⟩
def CLK.STICKY.PLLUNLOCK : Fld := ⟨0x40002010, 0, 1, 0⟩
def CLK.IRQEN : Fld := ⟨0x40002014, 0, 32, 0⟩
def CLK.FLTEN : Fld := ⟨0x40002018, 0, 32, 0⟩
def CLK.LOCK : Fld := ⟨0x4000201C, 0, 32, 0⟩
def CLK.LOCK.VAL : Fld := ⟨0x4000201C, 0, 1, 0⟩
def CLK.TBLO : Fld := ⟨0x40002040, 0, 32, 0⟩
def CLK.TBLO.TB : Fld := ⟨0x40002040, 0, 32, 0⟩
def CLK.TBHI : Fld := ⟨0x40002044, 0, 32, 0⟩
def CLK.TBHI.TB : Fld := ⟨0x40002044, 0, 32, 0⟩
def CLK.SLOTLEN : Fld := ⟨0x40002048, 0, 32, 0⟩
def CLK.SLOTLEN.LEN : Fld := ⟨0x40002048, 0, 16, 0⟩
def CLK.TICKADJ : Fld := ⟨0x4000204C, 0, 32, 0⟩
def CLK.TICKADJ.ADJ : Fld := ⟨0x4000204C, 0, 16, 0⟩
def CLK.ADJPEND : Fld := ⟨0x40002050, 0, 32, 0⟩
def CLK.ADJPEND.ADJ : Fld := ⟨0x40002050, 0, 16, 0⟩
def CLK.NEXTLO : Fld := ⟨0x40002054, 0, 32, 0⟩
def CLK.NEXTLO.TB : Fld := ⟨0x40002054, 0, 32, 0⟩
def CLK.NEXTHI : Fld := ⟨0x40002058, 0, 32, 0⟩
def CLK.NEXTHI.TB : Fld := ⟨0x40002058, 0, 32, 0⟩
def CLK.ASNLO : Fld := ⟨0x4000205C, 0, 32, 0⟩
def CLK.ASNLO.ASN : Fld := ⟨0x4000205C, 0, 32, 0⟩
def CLK.ASNHI : Fld := ⟨0x40002060, 0, 32, 0⟩
def CLK.ASNHI.ASN : Fld := ⟨0x40002060, 0, 8, 0⟩

def CLK.table : List RegDesc :=
[⟨0x000, 1, 0, 0x02030100, .shared, [⟨24, 8, .ro, .any⟩, ⟨16, 8, .ro, .any⟩, ⟨8, 8, .ro, .any⟩]⟩,
   ⟨0x004, 1, 0, 0x00000000, .shared, [⟨0, 32, .ro, .any⟩]⟩,
   ⟨0x008, 1, 0, 0x00000000, .shared, [⟨4, 1, .rwl, .any⟩, ⟨1, 3, .rw, .range 0 4⟩, ⟨0, 1, .rw, .any⟩]⟩,
   ⟨0x00C, 1, 0, 0x00000000, .shared, [⟨3, 1, .ro, .any⟩, ⟨2, 1, .ro, .any⟩, ⟨1, 1, .ro, .any⟩, ⟨0, 1, .ro, .any⟩]⟩,
   ⟨0x010, 1, 0, 0x00000000, .shared, [⟨31, 1, .w1c, .any⟩, ⟨30, 1, .w1c, .any⟩, ⟨2, 1, .w1c, .any⟩, ⟨1, 1, .w1c, .any⟩, ⟨0, 1, .w1c, .any⟩]⟩,
   ⟨0x014, 1, 0, 0x00000000, .shared, [⟨0, 32, .rw, .any⟩]⟩,
   ⟨0x018, 1, 0, 0x00000005, .shared, [⟨0, 32, .rw, .any⟩]⟩,
   ⟨0x01C, 1, 0, 0x00000000, .shared, [⟨0, 1, .w1s, .any⟩]⟩,
   ⟨0x040, 1, 0, 0x00000000, .shared, [⟨0, 32, .ro, .any⟩]⟩,
   ⟨0x044, 1, 0, 0x00000000, .perIni, [⟨0, 32, .ro, .any⟩]⟩,
   ⟨0x048, 1, 0, 0x00009C40, .shared, [⟨0, 16, .rw, .range 8000 64000⟩]⟩,
   ⟨0x04C, 1, 0, 0x00000000, .shared, [⟨0, 16, .wo, .any⟩]⟩,
   ⟨0x050, 1, 0, 0x00000000, .shared, [⟨0, 16, .ro, .any⟩]⟩,
   ⟨0x054, 1, 0, 0x00000000, .shared, [⟨0, 32, .ro, .any⟩]⟩,
   ⟨0x058, 1, 0, 0x00000000, .shared, [⟨0, 32, .ro, .any⟩]⟩,
   ⟨0x05C, 1, 0, 0x00000000, .shared, [⟨0, 32, .rw, .any⟩]⟩,
   ⟨0x060, 1, 0, 0x00000000, .perIni, [⟨0, 8, .rw, .any⟩]⟩]

/-! Page FLT, code 0x03 (R40). -/

def FLT.ID : Fld := ⟨0x40003000, 0, 32, 0⟩
def FLT.ID.CODE : Fld := ⟨0x40003000, 24, 8, 0⟩
def FLT.ID.VERSION : Fld := ⟨0x40003000, 16, 8, 0⟩
def FLT.ID.INSTANCES : Fld := ⟨0x40003000, 8, 8, 0⟩
def FLT.CAPS : Fld := ⟨0x40003004, 0, 32, 0⟩
def FLT.CAPS.C : Fld := ⟨0x40003004, 0, 32, 0⟩
def FLT.CTRL : Fld := ⟨0x40003008, 0, 32, 0⟩
def FLT.STAT : Fld := ⟨0x4000300C, 0, 32, 0⟩
def FLT.STAT.RESTORING : Fld := ⟨0x4000300C, 1, 1, 0⟩
def FLT.STAT.PAIRDOWN : Fld := ⟨0x4000300C, 0, 1, 0⟩
def FLT.STICKY : Fld := ⟨0x40003010, 0, 32, 0⟩
def FLT.STICKY.RSVD : Fld := ⟨0x40003010, 31, 1, 0⟩
def FLT.STICKY.LOCKV : Fld := ⟨0x40003010, 30, 1, 0⟩
def FLT.STICKY.QAVAIL : Fld := ⟨0x40003010, 5, 1, 0⟩
def FLT.STICKY.CKPTX : Fld := ⟨0x40003010, 4, 1, 0⟩
def FLT.STICKY.BOBREC : Fld := ⟨0x40003010, 3, 1, 0⟩
def FLT.STICKY.LSFAIL : Fld := ⟨0x40003010, 2, 1, 0⟩
def FLT.STICKY.LSMISM : Fld := ⟨0x40003010, 1, 1, 0⟩
def FLT.STICKY.OVF : Fld := ⟨0x40003010, 0, 1, 0⟩
def FLT.IRQEN : Fld := ⟨0x40003014, 0, 32, 0⟩
def FLT.FLTEN : Fld := ⟨0x40003018, 0, 32, 0⟩
def FLT.LOCK : Fld := ⟨0x4000301C, 0, 32, 0⟩
def FLT.LOCK.VAL : Fld := ⟨0x4000301C, 0, 1, 0⟩
def FLT.QSTAT : Fld := ⟨0x40003040, 0, 32, 0⟩
def FLT.QSTAT.MARKER : Fld := ⟨0x40003040, 8, 1, 0⟩
def FLT.QSTAT.COUNT : Fld := ⟨0x40003040, 0, 7, 0⟩
def FLT.ENT : Fld := ⟨0x40003044, 0, 32, 4⟩
def FLT.ENT.WORD : Fld := ⟨0x40003044, 0, 32, 4⟩
def FLT.POP : Fld := ⟨0x40003054, 0, 32, 0⟩
def FLT.POP.VAL : Fld := ⟨0x40003054, 0, 1, 0⟩
def FLT.RECCNT : Fld := ⟨0x40003058, 0, 32, 0⟩
def FLT.RECCNT.BOB : Fld := ⟨0x40003058, 16, 16, 0⟩
def FLT.RECCNT.SHU : Fld := ⟨0x40003058, 0, 16, 0⟩
def FLT.LASTREC : Fld := ⟨0x4000305C, 0, 32, 0⟩
def FLT.LASTREC.CASE : Fld := ⟨0x4000305C, 28, 4, 0⟩
def FLT.LASTREC.CTX : Fld := ⟨0x4000305C, 16, 12, 0⟩
def FLT.LASTREC.TIME : Fld := ⟨0x4000305C, 0, 16, 0⟩
def FLT.INJECT : Fld := ⟨0x40003060, 0, 32, 0⟩
def FLT.INJECT.CTX : Fld := ⟨0x40003060, 16, 12, 0⟩
def FLT.INJECT.KIND : Fld := ⟨0x40003060, 0, 2, 0⟩
def FLT.CKPT : Fld := ⟨0x40003064, 0, 32, 0⟩
def FLT.CKPT.JOURNAL : Fld := ⟨0x40003064, 16, 16, 0⟩
def FLT.CKPT.CKPTX : Fld := ⟨0x40003064, 0, 16, 0⟩
def FLT.LOST : Fld := ⟨0x40003080, 0, 32, 4⟩
def FLT.LOST.C3 : Fld := ⟨0x40003080, 24, 8, 4⟩
def FLT.LOST.C2 : Fld := ⟨0x40003080, 16, 8, 4⟩
def FLT.LOST.C1 : Fld := ⟨0x40003080, 8, 8, 4⟩
def FLT.LOST.C0 : Fld := ⟨0x40003080, 0, 8, 4⟩

def FLT.table : List RegDesc :=
[⟨0x000, 1, 0, 0x03030100, .shared, [⟨24, 8, .ro, .any⟩, ⟨16, 8, .ro, .any⟩, ⟨8, 8, .ro, .any⟩]⟩,
   ⟨0x004, 1, 0, 0x00000040, .shared, [⟨0, 32, .ro, .any⟩]⟩,
   ⟨0x008, 1, 0, 0x00000000, .shared, []⟩,
   ⟨0x00C, 1, 0, 0x00000000, .shared, [⟨1, 1, .ro, .any⟩, ⟨0, 1, .ro, .any⟩]⟩,
   ⟨0x010, 1, 0, 0x00000000, .shared, [⟨31, 1, .w1c, .any⟩, ⟨30, 1, .w1c, .any⟩, ⟨5, 1, .w1c, .any⟩, ⟨4, 1, .w1c, .any⟩, ⟨3, 1, .w1c, .any⟩, ⟨2, 1, .w1c, .any⟩, ⟨1, 1, .w1c, .any⟩, ⟨0, 1, .w1c, .any⟩]⟩,
   ⟨0x014, 1, 0, 0x00000000, .shared, [⟨0, 32, .rw, .any⟩]⟩,
   ⟨0x018, 1, 0, 0x00000000, .shared, [⟨0, 32, .rw, .any⟩]⟩,
   ⟨0x01C, 1, 0, 0x00000000, .shared, [⟨0, 1, .w1s, .any⟩]⟩,
   ⟨0x040, 1, 0, 0x00000000, .shared, [⟨8, 1, .ro, .any⟩, ⟨0, 7, .ro, .any⟩]⟩,
   ⟨0x044, 4, 4, 0x00000000, .shared, [⟨0, 32, .ro, .any⟩]⟩,
   ⟨0x054, 1, 0, 0x00000000, .shared, [⟨0, 1, .wo, .any⟩]⟩,
   ⟨0x058, 1, 0, 0x00000000, .shared, [⟨16, 16, .ro, .any⟩, ⟨0, 16, .ro, .any⟩]⟩,
   ⟨0x05C, 1, 0, 0x00000000, .shared, [⟨28, 4, .ro, .any⟩, ⟨16, 12, .ro, .any⟩, ⟨0, 16, .ro, .any⟩]⟩,
   ⟨0x060, 1, 0, 0x00000000, .shared, [⟨16, 12, .wo, .any⟩, ⟨0, 2, .wo, .range 1 2⟩]⟩,
   ⟨0x064, 1, 0, 0x00000000, .shared, [⟨16, 16, .ro, .any⟩, ⟨0, 16, .ro, .any⟩]⟩,
   ⟨0x080, 10, 4, 0x00000000, .shared, [⟨24, 8, .ro, .any⟩, ⟨16, 8, .ro, .any⟩, ⟨8, 8, .ro, .any⟩, ⟨0, 8, .ro, .any⟩]⟩]

/-! Page REC, code 0x04 (R40). -/

def REC.ID : Fld := ⟨0x40004000, 0, 32, 0⟩
def REC.ID.CODE : Fld := ⟨0x40004000, 24, 8, 0⟩
def REC.ID.VERSION : Fld := ⟨0x40004000, 16, 8, 0⟩
def REC.ID.INSTANCES : Fld := ⟨0x40004000, 8, 8, 0⟩
def REC.CAPS : Fld := ⟨0x40004004, 0, 32, 0⟩
def REC.CAPS.C : Fld := ⟨0x40004004, 0, 32, 0⟩
def REC.CTRL : Fld := ⟨0x40004008, 0, 32, 0⟩
def REC.CTRL.FREEZE : Fld := ⟨0x40004008, 1, 1, 0⟩
def REC.CTRL.EN : Fld := ⟨0x40004008, 0, 1, 0⟩
def REC.STAT : Fld := ⟨0x4000400C, 0, 32, 0⟩
def REC.STAT.SCAN : Fld := ⟨0x4000400C, 1, 1, 0⟩
def REC.STAT.BUSY : Fld := ⟨0x4000400C, 0, 1, 0⟩
def REC.STICKY : Fld := ⟨0x40004010, 0, 32, 0⟩
def REC.STICKY.RSVD : Fld := ⟨0x40004010, 31, 1, 0⟩
def REC.STICKY.LOCKV : Fld := ⟨0x40004010, 30, 1, 0⟩
def REC.STICKY.NOLIFE : Fld := ⟨0x40004010, 3, 1, 0⟩
def REC.STICKY.LOST : Fld := ⟨0x40004010, 2, 1, 0⟩
def REC.STICKY.FROZTRG : Fld := ⟨0x40004010, 1, 1, 0⟩
def REC.STICKY.WRITTEN : Fld := ⟨0x40004010, 0, 1, 0⟩
def REC.IRQEN : Fld := ⟨0x40004014, 0, 32, 0⟩
def REC.FLTEN : Fld := ⟨0x40004018, 0, 32, 0⟩
def REC.LOCK : Fld := ⟨0x4000401C, 0, 32, 0⟩
def REC.LOCK.VAL : Fld := ⟨0x4000401C, 0, 1, 0⟩
def REC.WRIDX : Fld := ⟨0x40004040, 0, 32, 0⟩
def REC.WRIDX.IDX : Fld := ⟨0x40004040, 0, 8, 0⟩
def REC.SEQ : Fld := ⟨0x40004044, 0, 32, 0⟩
def REC.SEQ.VAL : Fld := ⟨0x40004044, 0, 32, 0⟩
def REC.OPSEC : Fld := ⟨0x40004048, 0, 32, 0⟩
def REC.OPSEC.SEC : Fld := ⟨0x40004048, 0, 32, 0⟩
def REC.PCYC : Fld := ⟨0x4000404C, 0, 32, 0⟩
def REC.PCYC.CNT : Fld := ⟨0x4000404C, 0, 24, 0⟩
def REC.FROZCNT : Fld := ⟨0x40004050, 0, 32, 0⟩
def REC.FROZCNT.CNT : Fld := ⟨0x40004050, 0, 16, 0⟩
def REC.FROZTB : Fld := ⟨0x40004054, 0, 32, 0⟩
def REC.FROZTB.TB : Fld := ⟨0x40004054, 0, 32, 0⟩
def REC.LOSTCNT : Fld := ⟨0x40004058, 0, 32, 0⟩
def REC.LOSTCNT.RATE : Fld := ⟨0x40004058, 16, 16, 0⟩
def REC.LOSTCNT.QUEUE : Fld := ⟨0x40004058, 0, 16, 0⟩
def REC.TRG : Fld := ⟨0x40004080, 0, 32, 4⟩
def REC.TRG.EN : Fld := ⟨0x40004080, 31, 1, 4⟩
def REC.TRG.SRC : Fld := ⟨0x40004080, 30, 1, 4⟩
def REC.TRG.PAGE : Fld := ⟨0x40004080, 16, 8, 4⟩
def REC.TRG.BIT : Fld := ⟨0x40004080, 8, 5, 4⟩
def REC.TRG.NREG : Fld := ⟨0x40004080, 0, 5, 4⟩
def REC.REG : Fld := ⟨0x40004100, 0, 32, 4⟩
def REC.REG.ADDR : Fld := ⟨0x40004100, 0, 32, 4⟩

def REC.table : List RegDesc :=
[⟨0x000, 1, 0, 0x04030100, .shared, [⟨24, 8, .ro, .any⟩, ⟨16, 8, .ro, .any⟩, ⟨8, 8, .ro, .any⟩]⟩,
   ⟨0x004, 1, 0, 0x00001008, .shared, [⟨0, 32, .ro, .any⟩]⟩,
   ⟨0x008, 1, 0, 0x00000000, .shared, [⟨1, 1, .rw, .any⟩, ⟨0, 1, .rw, .any⟩]⟩,
   ⟨0x00C, 1, 0, 0x00000000, .shared, [⟨1, 1, .ro, .any⟩, ⟨0, 1, .ro, .any⟩]⟩,
   ⟨0x010, 1, 0, 0x00000000, .shared, [⟨31, 1, .w1c, .any⟩, ⟨30, 1, .w1c, .any⟩, ⟨3, 1, .w1c, .any⟩, ⟨2, 1, .w1c, .any⟩, ⟨1, 1, .w1c, .any⟩, ⟨0, 1, .w1c, .any⟩]⟩,
   ⟨0x014, 1, 0, 0x00000000, .shared, [⟨0, 32, .rw, .any⟩]⟩,
   ⟨0x018, 1, 0, 0x00000000, .shared, [⟨0, 32, .rw, .any⟩]⟩,
   ⟨0x01C, 1, 0, 0x00000000, .shared, [⟨0, 1, .w1s, .any⟩]⟩,
   ⟨0x040, 1, 0, 0x00000000, .shared, [⟨0, 8, .ro, .any⟩]⟩,
   ⟨0x044, 1, 0, 0x00000001, .shared, [⟨0, 32, .ro, .any⟩]⟩,
   ⟨0x048, 1, 0, 0x00000000, .shared, [⟨0, 32, .ro, .any⟩]⟩,
   ⟨0x04C, 1, 0, 0x00000000, .shared, [⟨0, 24, .ro, .any⟩]⟩,
   ⟨0x050, 1, 0, 0x00000000, .shared, [⟨0, 16, .ro, .any⟩]⟩,
   ⟨0x054, 1, 0, 0x00000000, .shared, [⟨0, 32, .ro, .any⟩]⟩,
   ⟨0x058, 1, 0, 0x00000000, .shared, [⟨16, 16, .ro, .any⟩, ⟨0, 16, .ro, .any⟩]⟩,
   ⟨0x080, 8, 4, 0x00000001, .shared, [⟨31, 1, .rw, .any⟩, ⟨30, 1, .rw, .any⟩, ⟨16, 8, .rw, .range 0 37⟩, ⟨8, 5, .rw, .any⟩, ⟨0, 5, .rw, .range 1 16⟩]⟩,
   ⟨0x100, 128, 4, 0x00000000, .shared, [⟨0, 32, .rw, .any⟩]⟩]

/-! Page STM, code 0x05 (R40). -/

def STM.ID : Fld := ⟨0x40005000, 0, 32, 0⟩
def STM.ID.CODE : Fld := ⟨0x40005000, 24, 8, 0⟩
def STM.ID.VERSION : Fld := ⟨0x40005000, 16, 8, 0⟩
def STM.ID.INSTANCES : Fld := ⟨0x40005000, 8, 8, 0⟩
def STM.CAPS : Fld := ⟨0x40005004, 0, 32, 0⟩
def STM.CAPS.C : Fld := ⟨0x40005004, 0, 32, 0⟩
def STM.CTRL : Fld := ⟨0x40005008, 0, 32, 0⟩
def STM.STAT : Fld := ⟨0x4000500C, 0, 32, 0⟩
def STM.STICKY : Fld := ⟨0x40005010, 0, 32, 0⟩
def STM.STICKY.RSVD : Fld := ⟨0x40005010, 31, 1, 0⟩
def STM.STICKY.LOCKV : Fld := ⟨0x40005010, 30, 1, 0⟩
def STM.STICKY.FLAG : Fld := ⟨0x40005010, 0, 1, 0⟩
def STM.IRQEN : Fld := ⟨0x40005014, 0, 32, 0⟩
def STM.FLTEN : Fld := ⟨0x40005018, 0, 32, 0⟩
def STM.LOCK : Fld := ⟨0x4000501C, 0, 32, 0⟩
def STM.LOCK.VAL : Fld := ⟨0x4000501C, 0, 1, 0⟩
def STM.FLAG : Fld := ⟨0x40005040, 0, 32, 0⟩
def STM.FLAG.CH : Fld := ⟨0x40005040, 0, 32, 0⟩
def STM.FLAGEN : Fld := ⟨0x40005044, 0, 32, 0⟩
def STM.FLAGEN.CH : Fld := ⟨0x40005044, 0, 32, 0⟩
def STM.SWTRIG : Fld := ⟨0x40005048, 0, 32, 0⟩
def STM.SWTRIG.SW : Fld := ⟨0x40005048, 0, 8, 0⟩
def STM.RTCCAP : Fld := ⟨0x4000504C, 0, 32, 0⟩
def STM.RTCCAP.SEC : Fld := ⟨0x4000504C, 0, 32, 0⟩
def STM.CHCFG : Fld := ⟨0x40005080, 0, 32, 4⟩
def STM.CHCFG.LEGACY : Fld := ⟨0x40005080, 31, 1, 4⟩
def STM.CHCFG.LCONS : Fld := ⟨0x40005080, 0, 6, 4⟩
def STM.PEN : Fld := ⟨0x40005200, 0, 32, 4⟩
def STM.PEN.P : Fld := ⟨0x40005200, 0, 32, 4⟩
def STM.CM : Fld := ⟨0x40005400, 0, 32, 4⟩
def STM.CM.C : Fld := ⟨0x40005400, 0, 32, 4⟩

def STM.table : List RegDesc :=
[⟨0x000, 1, 0, 0x05030100, .shared, [⟨24, 8, .ro, .any⟩, ⟨16, 8, .ro, .any⟩, ⟨8, 8, .ro, .any⟩]⟩,
   ⟨0x004, 1, 0, 0x00402060, .shared, [⟨0, 32, .ro, .any⟩]⟩,
   ⟨0x008, 1, 0, 0x00000000, .shared, []⟩,
   ⟨0x00C, 1, 0, 0x00000000, .shared, []⟩,
   ⟨0x010, 1, 0, 0x00000000, .shared, [⟨31, 1, .w1c, .any⟩, ⟨30, 1, .w1c, .any⟩, ⟨0, 1, .w1c, .any⟩]⟩,
   ⟨0x014, 1, 0, 0x00000000, .shared, [⟨0, 32, .rw, .any⟩]⟩,
   ⟨0x018, 1, 0, 0x00000000, .shared, [⟨0, 32, .rw, .any⟩]⟩,
   ⟨0x01C, 1, 0, 0x00000000, .shared, [⟨0, 1, .w1s, .any⟩]⟩,
   ⟨0x040, 1, 0, 0x00000000, .shared, [⟨0, 32, .w1c, .any⟩]⟩,
   ⟨0x044, 1, 0, 0x00000000, .shared, [⟨0, 32, .rw, .any⟩]⟩,
   ⟨0x048, 1, 0, 0x00000000, .shared, [⟨0, 8, .wo, .any⟩]⟩,
   ⟨0x04C, 1, 0, 0x00000000, .shared, [⟨0, 32, .ro, .any⟩]⟩,
   ⟨0x080, 32, 4, 0x00000000, .shared, [⟨31, 1, .rw, .any⟩, ⟨0, 6, .rw, .any⟩]⟩,
   ⟨0x200, 96, 4, 0x00000000, .shared, [⟨0, 32, .rw, .any⟩]⟩,
   ⟨0x400, 64, 4, 0x00000000, .shared, [⟨0, 32, .rw, .any⟩]⟩]

/-! Page TIM, code 0x06 (R40). -/

def TIM.ID : Fld := ⟨0x40006000, 0, 32, 0⟩
def TIM.ID.CODE : Fld := ⟨0x40006000, 24, 8, 0⟩
def TIM.ID.VERSION : Fld := ⟨0x40006000, 16, 8, 0⟩
def TIM.ID.INSTANCES : Fld := ⟨0x40006000, 8, 8, 0⟩
def TIM.CAPS : Fld := ⟨0x40006004, 0, 32, 0⟩
def TIM.CAPS.C : Fld := ⟨0x40006004, 0, 32, 0⟩
def TIM.CTRL : Fld := ⟨0x40006008, 0, 32, 0⟩
def TIM.STAT : Fld := ⟨0x4000600C, 0, 32, 0⟩
def TIM.STAT.ARMED : Fld := ⟨0x4000600C, 0, 8, 0⟩
def TIM.STICKY : Fld := ⟨0x40006010, 0, 32, 0⟩
def TIM.STICKY.RSVD : Fld := ⟨0x40006010, 31, 1, 0⟩
def TIM.STICKY.LOCKV : Fld := ⟨0x40006010, 30, 1, 0⟩
def TIM.STICKY.PLLGAP : Fld := ⟨0x40006010, 9, 1, 0⟩
def TIM.STICKY.BUSYWR : Fld := ⟨0x40006010, 8, 1, 0⟩
def TIM.STICKY.FIRE : Fld := ⟨0x40006010, 0, 8, 0⟩
def TIM.IRQEN : Fld := ⟨0x40006014, 0, 32, 0⟩
def TIM.FLTEN : Fld := ⟨0x40006018, 0, 32, 0⟩
def TIM.LOCK : Fld := ⟨0x4000601C, 0, 32, 0⟩
def TIM.LOCK.VAL : Fld := ⟨0x4000601C, 0, 1, 0⟩
def TIM.TCTRL : Fld := ⟨0x40006100, 0, 32, 256⟩
def TIM.TCTRL.ARM : Fld := ⟨0x40006100, 31, 1, 256⟩
def TIM.TCTRL.STOP : Fld := ⟨0x40006100, 30, 1, 256⟩
def TIM.TCTRL.ZERO : Fld := ⟨0x40006100, 29, 1, 256⟩
def TIM.TCTRL.MODE : Fld := ⟨0x40006100, 28, 1, 256⟩
def TIM.TCTRL.SRC : Fld := ⟨0x40006100, 24, 3, 256⟩
def TIM.TCTRL.EDGE : Fld := ⟨0x40006100, 22, 2, 256⟩
def TIM.TCTRL.SEL : Fld := ⟨0x40006100, 16, 5, 256⟩
def TIM.PRE : Fld := ⟨0x40006104, 0, 32, 256⟩
def TIM.PRE.N : Fld := ⟨0x40006104, 16, 16, 256⟩
def TIM.PRE.F : Fld := ⟨0x40006104, 0, 8, 256⟩
def TIM.CMP : Fld := ⟨0x40006108, 0, 32, 256⟩
def TIM.CMP.VAL : Fld := ⟨0x40006108, 0, 32, 256⟩
def TIM.CNT : Fld := ⟨0x4000610C, 0, 32, 256⟩
def TIM.CNT.VAL : Fld := ⟨0x4000610C, 0, 32, 256⟩
def TIM.FIRETB : Fld := ⟨0x40006110, 0, 32, 256⟩
def TIM.FIRETB.TB : Fld := ⟨0x40006110, 0, 32, 256⟩

def TIM.table : List RegDesc :=
[⟨0x000, 1, 0, 0x06030800, .shared, [⟨24, 8, .ro, .any⟩, ⟨16, 8, .ro, .any⟩, ⟨8, 8, .ro, .any⟩]⟩,
   ⟨0x004, 1, 0, 0x00000008, .shared, [⟨0, 32, .ro, .any⟩]⟩,
   ⟨0x008, 1, 0, 0x00000000, .shared, []⟩,
   ⟨0x00C, 1, 0, 0x00000000, .shared, [⟨0, 8, .ro, .any⟩]⟩,
   ⟨0x010, 1, 0, 0x00000000, .shared, [⟨31, 1, .w1c, .any⟩, ⟨30, 1, .w1c, .any⟩, ⟨9, 1, .w1c, .any⟩, ⟨8, 1, .w1c, .any⟩, ⟨0, 8, .w1c, .any⟩]⟩,
   ⟨0x014, 1, 0, 0x00000000, .shared, [⟨0, 32, .rw, .any⟩]⟩,
   ⟨0x018, 1, 0, 0x00000000, .shared, [⟨0, 32, .rw, .any⟩]⟩,
   ⟨0x01C, 1, 0, 0x00000000, .shared, [⟨0, 1, .w1s, .any⟩]⟩,
   ⟨0x100, 8, 256, 0x00000000, .shared, [⟨31, 1, .w1s, .any⟩, ⟨30, 1, .w1s, .any⟩, ⟨29, 1, .rw, .any⟩, ⟨28, 1, .rw, .any⟩, ⟨24, 3, .rw, .any⟩, ⟨22, 2, .rw, .range 0 2⟩, ⟨16, 5, .rw, .any⟩]⟩,
   ⟨0x104, 8, 256, 0x00010000, .shared, [⟨16, 16, .rw, .range 1 65535⟩, ⟨0, 8, .rw, .any⟩]⟩,
   ⟨0x108, 8, 256, 0x00000000, .shared, [⟨0, 32, .rw, .any⟩]⟩,
   ⟨0x10C, 8, 256, 0x00000000, .shared, [⟨0, 32, .rw, .any⟩]⟩,
   ⟨0x110, 8, 256, 0x00000000, .shared, [⟨0, 32, .ro, .any⟩]⟩]

/-! Page I2C, code 0x07 (R40). -/

def I2C.ID : Fld := ⟨0x40007000, 0, 32, 0⟩
def I2C.ID.CODE : Fld := ⟨0x40007000, 24, 8, 0⟩
def I2C.ID.VERSION : Fld := ⟨0x40007000, 16, 8, 0⟩
def I2C.ID.INSTANCES : Fld := ⟨0x40007000, 8, 8, 0⟩
def I2C.CAPS : Fld := ⟨0x40007004, 0, 32, 0⟩
def I2C.CAPS.C : Fld := ⟨0x40007004, 0, 32, 0⟩
def I2C.CTRL : Fld := ⟨0x40007008, 0, 32, 0⟩
def I2C.STAT : Fld := ⟨0x4000700C, 0, 32, 0⟩
def I2C.STAT.TBUSY : Fld := ⟨0x4000700C, 2, 1, 0⟩
def I2C.STAT.BBUSY : Fld := ⟨0x4000700C, 1, 1, 0⟩
def I2C.STAT.ABUSY : Fld := ⟨0x4000700C, 0, 1, 0⟩
def I2C.STICKY : Fld := ⟨0x40007010, 0, 32, 0⟩
def I2C.STICKY.RSVD : Fld := ⟨0x40007010, 31, 1, 0⟩
def I2C.STICKY.LOCKV : Fld := ⟨0x40007010, 30, 1, 0⟩
def I2C.STICKY.TSCLTO : Fld := ⟨0x40007010, 11, 1, 0⟩
def I2C.STICKY.TOVR : Fld := ⟨0x40007010, 10, 1, 0⟩
def I2C.STICKY.TTX : Fld := ⟨0x40007010, 9, 1, 0⟩
def I2C.STICKY.TRX : Fld := ⟨0x40007010, 8, 1, 0⟩
def I2C.STICKY.BSDATO : Fld := ⟨0x40007010, 7, 1, 0⟩
def I2C.STICKY.ASDATO : Fld := ⟨0x40007010, 6, 1, 0⟩
def I2C.STICKY.BSCLTO : Fld := ⟨0x40007010, 5, 1, 0⟩
def I2C.STICKY.ASCLTO : Fld := ⟨0x40007010, 4, 1, 0⟩
def I2C.STICKY.BARB : Fld := ⟨0x40007010, 3, 1, 0⟩
def I2C.STICKY.AARB : Fld := ⟨0x40007010, 2, 1, 0⟩
def I2C.STICKY.BDONE : Fld := ⟨0x40007010, 1, 1, 0⟩
def I2C.STICKY.ADONE : Fld := ⟨0x40007010, 0, 1, 0⟩
def I2C.IRQEN : Fld := ⟨0x40007014, 0, 32, 0⟩
def I2C.FLTEN : Fld := ⟨0x40007018, 0, 32, 0⟩
def I2C.LOCK : Fld := ⟨0x4000701C, 0, 32, 0⟩
def I2C.LOCK.VAL : Fld := ⟨0x4000701C, 0, 1, 0⟩
def I2C.CCFG : Fld := ⟨0x40007100, 0, 32, 256⟩
def I2C.CCFG.EN : Fld := ⟨0x40007100, 31, 1, 256⟩
def I2C.CCFG.TOUT : Fld := ⟨0x40007100, 8, 8, 256⟩
def I2C.CCFG.SPEED : Fld := ⟨0x40007100, 0, 2, 256⟩
def I2C.CCMD : Fld := ⟨0x40007104, 0, 32, 256⟩
def I2C.CCMD.GO : Fld := ⟨0x40007104, 31, 1, 256⟩
def I2C.CCMD.OP : Fld := ⟨0x40007104, 24, 2, 256⟩
def I2C.CCMD.ADDR : Fld := ⟨0x40007104, 16, 7, 256⟩
def I2C.CCMD.DATA : Fld := ⟨0x40007104, 0, 8, 256⟩
def I2C.CRES : Fld := ⟨0x40007108, 0, 32, 256⟩
def I2C.CRES.BUSY : Fld := ⟨0x40007108, 31, 1, 256⟩
def I2C.CRES.DONE : Fld := ⟨0x40007108, 30, 1, 256⟩
def I2C.CRES.RESULT : Fld := ⟨0x40007108, 24, 3, 256⟩
def I2C.CRES.SCL : Fld := ⟨0x40007108, 17, 1, 256⟩
def I2C.CRES.SDA : Fld := ⟨0x40007108, 16, 1, 256⟩
def I2C.CRES.RXDATA : Fld := ⟨0x40007108, 0, 8, 256⟩
def I2C.CRECOV : Fld := ⟨0x4000710C, 0, 32, 256⟩
def I2C.CRECOV.GO : Fld := ⟨0x4000710C, 0, 1, 256⟩
def I2C.TCFG : Fld := ⟨0x40007300, 0, 32, 0⟩
def I2C.TCFG.EN : Fld := ⟨0x40007300, 31, 1, 0⟩
def I2C.TCFG.TOUT : Fld := ⟨0x40007300, 8, 8, 0⟩
def I2C.TCFG.ADDR : Fld := ⟨0x40007300, 0, 7, 0⟩
def I2C.RXREG : Fld := ⟨0x40007304, 0, 32, 0⟩
def I2C.RXREG.RXV : Fld := ⟨0x40007304, 8, 1, 0⟩
def I2C.RXREG.BYTE : Fld := ⟨0x40007304, 0, 8, 0⟩
def I2C.TXREG : Fld := ⟨0x40007308, 0, 32, 0⟩
def I2C.TXREG.TXV : Fld := ⟨0x40007308, 8, 1, 0⟩
def I2C.TXREG.BYTE : Fld := ⟨0x40007308, 0, 8, 0⟩
def I2C.TSTAT : Fld := ⟨0x4000730C, 0, 32, 0⟩
def I2C.TSTAT.WAKEHOLD : Fld := ⟨0x4000730C, 2, 1, 0⟩
def I2C.TSTAT.INTX : Fld := ⟨0x4000730C, 1, 1, 0⟩
def I2C.TSTAT.STALE : Fld := ⟨0x4000730C, 0, 1, 0⟩

def I2C.table : List RegDesc :=
[⟨0x000, 1, 0, 0x07030300, .shared, [⟨24, 8, .ro, .any⟩, ⟨16, 8, .ro, .any⟩, ⟨8, 8, .ro, .any⟩]⟩,
   ⟨0x004, 1, 0, 0x00000102, .shared, [⟨0, 32, .ro, .any⟩]⟩,
   ⟨0x008, 1, 0, 0x00000000, .shared, []⟩,
   ⟨0x00C, 1, 0, 0x00000000, .shared, [⟨2, 1, .ro, .any⟩, ⟨1, 1, .ro, .any⟩, ⟨0, 1, .ro, .any⟩]⟩,
   ⟨0x010, 1, 0, 0x00000000, .shared, [⟨31, 1, .w1c, .any⟩, ⟨30, 1, .w1c, .any⟩, ⟨11, 1, .w1c, .any⟩, ⟨10, 1, .w1c, .any⟩, ⟨9, 1, .w1c, .any⟩, ⟨8, 1, .w1c, .any⟩, ⟨7, 1, .w1c, .any⟩, ⟨6, 1, .w1c, .any⟩, ⟨5, 1, .w1c, .any⟩, ⟨4, 1, .w1c, .any⟩, ⟨3, 1, .w1c, .any⟩, ⟨2, 1, .w1c, .any⟩, ⟨1, 1, .w1c, .any⟩, ⟨0, 1, .w1c, .any⟩]⟩,
   ⟨0x014, 1, 0, 0x00000000, .shared, [⟨0, 32, .rw, .any⟩]⟩,
   ⟨0x018, 1, 0, 0x000008F0, .shared, [⟨0, 32, .rw, .any⟩]⟩,
   ⟨0x01C, 1, 0, 0x00000000, .shared, [⟨0, 1, .w1s, .any⟩]⟩,
   ⟨0x100, 2, 256, 0x00001900, .shared, [⟨31, 1, .rw, .any⟩, ⟨8, 8, .rw, .range 1 255⟩, ⟨0, 2, .rw, .range 0 2⟩]⟩,
   ⟨0x104, 2, 256, 0x00000000, .shared, [⟨31, 1, .wo, .any⟩, ⟨24, 2, .wo, .any⟩, ⟨16, 7, .wo, .any⟩, ⟨0, 8, .wo, .any⟩]⟩,
   ⟨0x108, 2, 256, 0x00000000, .shared, [⟨31, 1, .ro, .any⟩, ⟨30, 1, .ro, .any⟩, ⟨24, 3, .ro, .any⟩, ⟨17, 1, .ro, .any⟩, ⟨16, 1, .ro, .any⟩, ⟨0, 8, .ro, .any⟩]⟩,
   ⟨0x10C, 2, 256, 0x00000000, .shared, [⟨0, 1, .wo, .any⟩]⟩,
   ⟨0x300, 1, 0, 0x0000194C, .shared, [⟨31, 1, .rw, .any⟩, ⟨8, 8, .rw, .range 1 255⟩, ⟨0, 7, .rw, .range 8 119⟩]⟩,
   ⟨0x304, 1, 0, 0x00000000, .shared, [⟨8, 1, .ro, .any⟩, ⟨0, 8, .ro, .any⟩]⟩,
   ⟨0x308, 1, 0, 0x00000000, .shared, [⟨8, 1, .ro, .any⟩, ⟨0, 8, .rw, .any⟩]⟩,
   ⟨0x30C, 1, 0, 0x00000000, .shared, [⟨2, 1, .ro, .any⟩, ⟨1, 1, .ro, .any⟩, ⟨0, 1, .ro, .any⟩]⟩]

/-! Page HIF, code 0x08 (R40). -/

def HIF.ID : Fld := ⟨0x40008000, 0, 32, 0⟩
def HIF.ID.CODE : Fld := ⟨0x40008000, 24, 8, 0⟩
def HIF.ID.VERSION : Fld := ⟨0x40008000, 16, 8, 0⟩
def HIF.ID.INSTANCES : Fld := ⟨0x40008000, 8, 8, 0⟩
def HIF.CAPS : Fld := ⟨0x40008004, 0, 32, 0⟩
def HIF.CAPS.C : Fld := ⟨0x40008004, 0, 32, 0⟩
def HIF.CTRL : Fld := ⟨0x40008008, 0, 32, 0⟩
def HIF.STAT : Fld := ⟨0x4000800C, 0, 32, 0⟩
def HIF.STAT.WROVF : Fld := ⟨0x4000800C, 16, 8, 0⟩
def HIF.STAT.WFIFO : Fld := ⟨0x4000800C, 0, 5, 0⟩
def HIF.STICKY : Fld := ⟨0x40008010, 0, 32, 0⟩
def HIF.STICKY.RSVD : Fld := ⟨0x40008010, 31, 1, 0⟩
def HIF.STICKY.LOCKV : Fld := ⟨0x40008010, 30, 1, 0⟩
def HIF.STICKY.SEGEND : Fld := ⟨0x40008010, 6, 1, 0⟩
def HIF.STICKY.WROVF : Fld := ⟨0x40008010, 5, 1, 0⟩
def HIF.STICKY.WAITTO : Fld := ⟨0x40008010, 4, 1, 0⟩
def HIF.STICKY.HECC : Fld := ⟨0x40008010, 3, 1, 0⟩
def HIF.STICKY.VIREF : Fld := ⟨0x40008010, 2, 1, 0⟩
def HIF.STICKY.BADOP : Fld := ⟨0x40008010, 1, 1, 0⟩
def HIF.STICKY.ABORT : Fld := ⟨0x40008010, 0, 1, 0⟩
def HIF.IRQEN : Fld := ⟨0x40008014, 0, 32, 0⟩
def HIF.FLTEN : Fld := ⟨0x40008018, 0, 32, 0⟩
def HIF.LOCK : Fld := ⟨0x4000801C, 0, 32, 0⟩
def HIF.LOCK.VAL : Fld := ⟨0x4000801C, 0, 1, 0⟩
def HIF.CFG : Fld := ⟨0x40008040, 0, 32, 0⟩
def HIF.CFG.WAITTO : Fld := ⟨0x40008040, 0, 16, 0⟩
def HIF.SEG : Fld := ⟨0x40008044, 0, 32, 0⟩
def HIF.SEG.VAL : Fld := ⟨0x40008044, 0, 8, 0⟩
def HIF.HSTAT : Fld := ⟨0x40008048, 0, 32, 0⟩
def HIF.HSTAT.IRQ : Fld := ⟨0x40008048, 7, 1, 0⟩
def HIF.HSTAT.ERR : Fld := ⟨0x40008048, 6, 1, 0⟩
def HIF.HSTAT.WFULL : Fld := ⟨0x40008048, 5, 1, 0⟩
def HIF.HSTAT.WBUSY : Fld := ⟨0x40008048, 4, 1, 0⟩
def HIF.HMASK0 : Fld := ⟨0x4000804C, 0, 32, 0⟩
def HIF.HMASK0.M : Fld := ⟨0x4000804C, 0, 32, 0⟩
def HIF.HMASK1 : Fld := ⟨0x40008050, 0, 32, 0⟩
def HIF.HMASK1.M : Fld := ⟨0x40008050, 0, 6, 0⟩
def HIF.HDBSET : Fld := ⟨0x40008054, 0, 32, 0⟩
def HIF.HDBSET.SET : Fld := ⟨0x40008054, 0, 1, 0⟩
def HIF.HDB : Fld := ⟨0x40008058, 0, 32, 0⟩
def HIF.HDB.VAL : Fld := ⟨0x40008058, 0, 1, 0⟩
def HIF.HIRQSTAT : Fld := ⟨0x4000805C, 0, 32, 0⟩
def HIF.HIRQSTAT.DB : Fld := ⟨0x4000805C, 2, 1, 0⟩
def HIF.HIRQSTAT.TENANT : Fld := ⟨0x4000805C, 1, 1, 0⟩
def HIF.HIRQSTAT.PAGE : Fld := ⟨0x4000805C, 0, 1, 0⟩
def HIF.ERRLOG : Fld := ⟨0x40008060, 0, 32, 0⟩
def HIF.ERRLOG.V : Fld := ⟨0x40008060, 31, 1, 0⟩
def HIF.ERRLOG.KIND : Fld := ⟨0x40008060, 28, 3, 0⟩
def HIF.ERRLOG.VI : Fld := ⟨0x40008060, 24, 4, 0⟩
def HIF.ERRLOG.ADDR : Fld := ⟨0x40008060, 0, 24, 0⟩

def HIF.table : List RegDesc :=
[⟨0x000, 1, 0, 0x08030100, .shared, [⟨24, 8, .ro, .any⟩, ⟨16, 8, .ro, .any⟩, ⟨8, 8, .ro, .any⟩]⟩,
   ⟨0x004, 1, 0, 0x00000050, .shared, [⟨0, 32, .ro, .any⟩]⟩,
   ⟨0x008, 1, 0, 0x00000000, .shared, []⟩,
   ⟨0x00C, 1, 0, 0x00000000, .shared, [⟨16, 8, .ro, .any⟩, ⟨0, 5, .ro, .any⟩]⟩,
   ⟨0x010, 1, 0, 0x00000000, .shared, [⟨31, 1, .w1c, .any⟩, ⟨30, 1, .w1c, .any⟩, ⟨6, 1, .w1c, .any⟩, ⟨5, 1, .w1c, .any⟩, ⟨4, 1, .w1c, .any⟩, ⟨3, 1, .w1c, .any⟩, ⟨2, 1, .w1c, .any⟩, ⟨1, 1, .w1c, .any⟩, ⟨0, 1, .w1c, .any⟩]⟩,
   ⟨0x014, 1, 0, 0x00000000, .shared, [⟨0, 32, .rw, .any⟩]⟩,
   ⟨0x018, 1, 0, 0x00000008, .shared, [⟨0, 32, .rw, .any⟩]⟩,
   ⟨0x01C, 1, 0, 0x00000000, .shared, [⟨0, 1, .w1s, .any⟩]⟩,
   ⟨0x040, 1, 0, 0x0000044C, .shared, [⟨0, 16, .rw, .range 1 65535⟩]⟩,
   ⟨0x044, 1, 0, 0x00000040, .shared, [⟨0, 8, .rw, .any⟩]⟩,
   ⟨0x048, 1, 0, 0x00000000, .shared, [⟨7, 1, .ro, .any⟩, ⟨6, 1, .ro, .any⟩, ⟨5, 1, .ro, .any⟩, ⟨4, 1, .ro, .any⟩]⟩,
   ⟨0x04C, 1, 0, 0x00000000, .shared, [⟨0, 32, .rw, .any⟩]⟩,
   ⟨0x050, 1, 0, 0x00000000, .shared, [⟨0, 6, .rw, .any⟩]⟩,
   ⟨0x054, 1, 0, 0x00000000, .shared, [⟨0, 1, .wo, .any⟩]⟩,
   ⟨0x058, 1, 0, 0x00000000, .shared, [⟨0, 1, .w1c, .any⟩]⟩,
   ⟨0x05C, 1, 0, 0x00000000, .shared, [⟨2, 1, .ro, .any⟩, ⟨1, 1, .ro, .any⟩, ⟨0, 1, .ro, .any⟩]⟩,
   ⟨0x060, 1, 0, 0x00000000, .shared, [⟨31, 1, .ro, .any⟩, ⟨28, 3, .ro, .any⟩, ⟨24, 4, .ro, .any⟩, ⟨0, 24, .ro, .any⟩]⟩]

/-! Page DBG, code 0x09 (R40). -/

def DBG.ID : Fld := ⟨0x40009000, 0, 32, 0⟩
def DBG.ID.CODE : Fld := ⟨0x40009000, 24, 8, 0⟩
def DBG.ID.VERSION : Fld := ⟨0x40009000, 16, 8, 0⟩
def DBG.ID.INSTANCES : Fld := ⟨0x40009000, 8, 8, 0⟩
def DBG.CAPS : Fld := ⟨0x40009004, 0, 32, 0⟩
def DBG.CAPS.C : Fld := ⟨0x40009004, 0, 32, 0⟩
def DBG.CTRL : Fld := ⟨0x40009008, 0, 32, 0⟩
def DBG.STAT : Fld := ⟨0x4000900C, 0, 32, 0⟩
def DBG.STAT.ERASING : Fld := ⟨0x4000900C, 1, 1, 0⟩
def DBG.STAT.DBGCONN : Fld := ⟨0x4000900C, 0, 1, 0⟩
def DBG.STICKY : Fld := ⟨0x40009010, 0, 32, 0⟩
def DBG.STICKY.RSVD : Fld := ⟨0x40009010, 31, 1, 0⟩
def DBG.STICKY.LOCKV : Fld := ⟨0x40009010, 30, 1, 0⟩
def DBG.STICKY.RECBAD : Fld := ⟨0x40009010, 3, 1, 0⟩
def DBG.STICKY.RESUMED : Fld := ⟨0x40009010, 2, 1, 0⟩
def DBG.STICKY.REOPEN : Fld := ⟨0x40009010, 1, 1, 0⟩
def DBG.STICKY.DREF : Fld := ⟨0x40009010, 0, 1, 0⟩
def DBG.IRQEN : Fld := ⟨0x40009014, 0, 32, 0⟩
def DBG.FLTEN : Fld := ⟨0x40009018, 0, 32, 0⟩
def DBG.LOCK : Fld := ⟨0x4000901C, 0, 32, 0⟩
def DBG.LOCK.VAL : Fld := ⟨0x4000901C, 0, 1, 0⟩
def DBG.STATE : Fld := ⟨0x40009040, 0, 32, 0⟩
def DBG.STATE.VAL : Fld := ⟨0x40009040, 0, 2, 0⟩
def DBG.SEAL : Fld := ⟨0x40009044, 0, 32, 0⟩
def DBG.SEAL.KEY : Fld := ⟨0x40009044, 0, 16, 0⟩
def DBG.PROG : Fld := ⟨0x40009048, 0, 32, 0⟩
def DBG.PROG.INDEX : Fld := ⟨0x40009048, 4, 17, 0⟩
def DBG.PROG.PHASE : Fld := ⟨0x40009048, 0, 4, 0⟩
def DBG.SECMAPA : Fld := ⟨0x40009050, 0, 32, 4⟩
def DBG.SECMAPA.S : Fld := ⟨0x40009050, 0, 32, 4⟩
def DBG.SECMAPB : Fld := ⟨0x40009060, 0, 32, 4⟩
def DBG.SECMAPB.S : Fld := ⟨0x40009060, 0, 32, 4⟩

def DBG.table : List RegDesc :=
[⟨0x000, 1, 0, 0x09030100, .shared, [⟨24, 8, .ro, .any⟩, ⟨16, 8, .ro, .any⟩, ⟨8, 8, .ro, .any⟩]⟩,
   ⟨0x004, 1, 0, 0x00000000, .shared, [⟨0, 32, .ro, .any⟩]⟩,
   ⟨0x008, 1, 0, 0x00000000, .shared, []⟩,
   ⟨0x00C, 1, 0, 0x00000000, .shared, [⟨1, 1, .ro, .any⟩, ⟨0, 1, .ro, .any⟩]⟩,
   ⟨0x010, 1, 0, 0x00000000, .shared, [⟨31, 1, .w1c, .any⟩, ⟨30, 1, .w1c, .any⟩, ⟨3, 1, .w1c, .any⟩, ⟨2, 1, .w1c, .any⟩, ⟨1, 1, .w1c, .any⟩, ⟨0, 1, .w1c, .any⟩]⟩,
   ⟨0x014, 1, 0, 0x00000000, .shared, [⟨0, 32, .rw, .any⟩]⟩,
   ⟨0x018, 1, 0, 0x00000008, .shared, [⟨0, 32, .rw, .any⟩]⟩,
   ⟨0x01C, 1, 0, 0x00000000, .shared, [⟨0, 1, .w1s, .any⟩]⟩,
   ⟨0x040, 1, 0, 0x00000000, .shared, [⟨0, 2, .ro, .any⟩]⟩,
   ⟨0x044, 1, 0, 0x00000000, .shared, [⟨0, 16, .wo, .any⟩]⟩,
   ⟨0x048, 1, 0, 0x00000000, .shared, [⟨4, 17, .ro, .any⟩, ⟨0, 4, .ro, .any⟩]⟩,
   ⟨0x050, 3, 4, 0x00000000, .shared, [⟨0, 32, .w1s, .any⟩]⟩,
   ⟨0x060, 3, 4, 0x00000000, .shared, [⟨0, 32, .w1s, .any⟩]⟩]

/-! Page FLC, code 0x0A (R40). -/

def FLC.ID : Fld := ⟨0x4000A000, 0, 32, 0⟩
def FLC.ID.CODE : Fld := ⟨0x4000A000, 24, 8, 0⟩
def FLC.ID.VERSION : Fld := ⟨0x4000A000, 16, 8, 0⟩
def FLC.ID.INSTANCES : Fld := ⟨0x4000A000, 8, 8, 0⟩
def FLC.CAPS : Fld := ⟨0x4000A004, 0, 32, 0⟩
def FLC.CAPS.C : Fld := ⟨0x4000A004, 0, 32, 0⟩
def FLC.CTRL : Fld := ⟨0x4000A008, 0, 32, 0⟩
def FLC.CTRL.SUSPB : Fld := ⟨0x4000A008, 3, 1, 0⟩
def FLC.CTRL.SUSPA : Fld := ⟨0x4000A008, 2, 1, 0⟩
def FLC.CTRL.AUTOSUSP : Fld := ⟨0x4000A008, 0, 1, 0⟩
def FLC.STAT : Fld := ⟨0x4000A00C, 0, 32, 0⟩
def FLC.STAT.REPAIR : Fld := ⟨0x4000A00C, 5, 1, 0⟩
def FLC.STAT.PBUSY : Fld := ⟨0x4000A00C, 4, 1, 0⟩
def FLC.STAT.BSTATEB : Fld := ⟨0x4000A00C, 2, 2, 0⟩
def FLC.STAT.BSTATEA : Fld := ⟨0x4000A00C, 0, 2, 0⟩
def FLC.STICKY : Fld := ⟨0x4000A010, 0, 32, 0⟩
def FLC.STICKY.RSVD : Fld := ⟨0x4000A010, 31, 1, 0⟩
def FLC.STICKY.LOCKV : Fld := ⟨0x4000A010, 30, 1, 0⟩
def FLC.STICKY.QERR : Fld := ⟨0x4000A010, 7, 1, 0⟩
def FLC.STICKY.UNLKREF : Fld := ⟨0x4000A010, 6, 1, 0⟩
def FLC.STICKY.REPAIRED : Fld := ⟨0x4000A010, 5, 1, 0⟩
def FLC.STICKY.STARVE : Fld := ⟨0x4000A010, 4, 1, 0⟩
def FLC.STICKY.PROTV : Fld := ⟨0x4000A010, 3, 1, 0⟩
def FLC.STICKY.NOTERASED : Fld := ⟨0x4000A010, 2, 1, 0⟩
def FLC.STICKY.PDONE : Fld := ⟨0x4000A010, 1, 1, 0⟩
def FLC.STICKY.QDONE : Fld := ⟨0x4000A010, 0, 1, 0⟩
def FLC.IRQEN : Fld := ⟨0x4000A014, 0, 32, 0⟩
def FLC.FLTEN : Fld := ⟨0x4000A018, 0, 32, 0⟩
def FLC.LOCK : Fld := ⟨0x4000A01C, 0, 32, 0⟩
def FLC.LOCK.VAL : Fld := ⟨0x4000A01C, 0, 1, 0⟩
def FLC.UNLK : Fld := ⟨0x4000A040, 0, 32, 0⟩
def FLC.UNLK.KEY : Fld := ⟨0x4000A040, 0, 16, 0⟩
def FLC.CMD : Fld := ⟨0x4000A044, 0, 32, 0⟩
def FLC.CMD.NOSUSP : Fld := ⟨0x4000A044, 8, 1, 0⟩
def FLC.CMD.OP : Fld := ⟨0x4000A044, 0, 4, 0⟩
def FLC.ADDR : Fld := ⟨0x4000A048, 0, 32, 0⟩
def FLC.ADDR.VAL : Fld := ⟨0x4000A048, 0, 32, 0⟩
def FLC.DATA : Fld := ⟨0x4000A04C, 0, 32, 4⟩
def FLC.DATA.VAL : Fld := ⟨0x4000A04C, 0, 32, 4⟩
def FLC.PSTAT : Fld := ⟨0x4000A05C, 0, 32, 0⟩
def FLC.PSTAT.BUSY : Fld := ⟨0x4000A05C, 31, 1, 0⟩
def FLC.PSTAT.DONE : Fld := ⟨0x4000A05C, 30, 1, 0⟩
def FLC.PSTAT.STATUS : Fld := ⟨0x4000A05C, 0, 8, 0⟩
def FLC.SUSPCNT : Fld := ⟨0x4000A060, 0, 32, 0⟩
def FLC.SUSPCNT.B : Fld := ⟨0x4000A060, 16, 16, 0⟩
def FLC.SUSPCNT.A : Fld := ⟨0x4000A060, 0, 16, 0⟩
def FLC.OPSUSP : Fld := ⟨0x4000A064, 0, 32, 0⟩
def FLC.OPSUSP.B : Fld := ⟨0x4000A064, 16, 16, 0⟩
def FLC.OPSUSP.A : Fld := ⟨0x4000A064, 0, 16, 0⟩
def FLC.STARV : Fld := ⟨0x4000A068, 0, 32, 0⟩
def FLC.STARV.TMAX : Fld := ⟨0x4000A068, 16, 16, 0⟩
def FLC.STARV.SUSPMAX : Fld := ⟨0x4000A068, 0, 8, 0⟩
def FLC.CFG : Fld := ⟨0x4000A06C, 0, 32, 0⟩
def FLC.CFG.RESUMEDLY : Fld := ⟨0x4000A06C, 0, 8, 0⟩
def FLC.REPLOG : Fld := ⟨0x4000A070, 0, 32, 0⟩
def FLC.REPLOG.V : Fld := ⟨0x4000A070, 31, 1, 0⟩
def FLC.REPLOG.BANK : Fld := ⟨0x4000A070, 30, 1, 0⟩
def FLC.REPLOG.OP : Fld := ⟨0x4000A070, 28, 2, 0⟩
def FLC.REPLOG.OFF : Fld := ⟨0x4000A070, 0, 22, 0⟩
def FLC.WPA : Fld := ⟨0x4000A080, 0, 32, 4⟩
def FLC.WPA.S : Fld := ⟨0x4000A080, 0, 32, 4⟩
def FLC.WPA2 : Fld := ⟨0x4000A088, 0, 32, 0⟩
def FLC.WPA2.S : Fld := ⟨0x4000A088, 0, 7, 0⟩
def FLC.WPB : Fld := ⟨0x4000A090, 0, 32, 4⟩
def FLC.WPB.S : Fld := ⟨0x4000A090, 0, 32, 4⟩
def FLC.WPB2 : Fld := ⟨0x4000A098, 0, 32, 0⟩
def FLC.WPB2.S : Fld := ⟨0x4000A098, 0, 7, 0⟩
def FLC.QBASE : Fld := ⟨0x4000A100, 0, 32, 16⟩
def FLC.QBASE.ADDR : Fld := ⟨0x4000A100, 4, 28, 16⟩
def FLC.QCFG : Fld := ⟨0x4000A104, 0, 32, 16⟩
def FLC.QCFG.EN : Fld := ⟨0x4000A104, 31, 1, 16⟩
def FLC.QCFG.LOG2N : Fld := ⟨0x4000A104, 0, 4, 16⟩
def FLC.QHEAD : Fld := ⟨0x4000A108, 0, 32, 16⟩
def FLC.QHEAD.IDX : Fld := ⟨0x4000A108, 0, 8, 16⟩
def FLC.QTAIL : Fld := ⟨0x4000A10C, 0, 32, 16⟩
def FLC.QTAIL.IDX : Fld := ⟨0x4000A10C, 0, 8, 16⟩

def FLC.table : List RegDesc :=
[⟨0x000, 1, 0, 0x0A030100, .shared, [⟨24, 8, .ro, .any⟩, ⟨16, 8, .ro, .any⟩, ⟨8, 8, .ro, .any⟩]⟩,
   ⟨0x004, 1, 0, 0x00470008, .shared, [⟨0, 32, .ro, .any⟩]⟩,
   ⟨0x008, 1, 0, 0x00000001, .shared, [⟨3, 1, .rw, .any⟩, ⟨2, 1, .rw, .any⟩, ⟨0, 1, .rw, .any⟩]⟩,
   ⟨0x00C, 1, 0, 0x00000000, .shared, [⟨5, 1, .ro, .any⟩, ⟨4, 1, .ro, .any⟩, ⟨2, 2, .ro, .any⟩, ⟨0, 2, .ro, .any⟩]⟩,
   ⟨0x010, 1, 0, 0x00000000, .shared, [⟨31, 1, .w1c, .any⟩, ⟨30, 1, .w1c, .any⟩, ⟨7, 1, .w1c, .any⟩, ⟨6, 1, .w1c, .any⟩, ⟨5, 1, .w1c, .any⟩, ⟨4, 1, .w1c, .any⟩, ⟨3, 1, .w1c, .any⟩, ⟨2, 1, .w1c, .any⟩, ⟨1, 1, .w1c, .any⟩, ⟨0, 1, .w1c, .any⟩]⟩,
   ⟨0x014, 1, 0, 0x00000000, .shared, [⟨0, 32, .rw, .any⟩]⟩,
   ⟨0x018, 1, 0, 0x000000A0, .shared, [⟨0, 32, .rw, .any⟩]⟩,
   ⟨0x01C, 1, 0, 0x00000000, .shared, [⟨0, 1, .w1s, .any⟩]⟩,
   ⟨0x040, 1, 0, 0x00000000, .shared, [⟨0, 16, .wo, .any⟩]⟩,
   ⟨0x044, 1, 0, 0x00000000, .shared, [⟨8, 1, .rw, .any⟩, ⟨0, 4, .rw, .range 0 2⟩]⟩,
   ⟨0x048, 1, 0, 0x00000000, .shared, [⟨0, 32, .rw, .any⟩]⟩,
   ⟨0x04C, 4, 4, 0x00000000, .shared, [⟨0, 32, .rw, .any⟩]⟩,
   ⟨0x05C, 1, 0, 0x00000000, .shared, [⟨31, 1, .ro, .any⟩, ⟨30, 1, .ro, .any⟩, ⟨0, 8, .ro, .any⟩]⟩,
   ⟨0x060, 1, 0, 0x00000000, .shared, [⟨16, 16, .ro, .any⟩, ⟨0, 16, .ro, .any⟩]⟩,
   ⟨0x064, 1, 0, 0x00000000, .shared, [⟨16, 16, .ro, .any⟩, ⟨0, 16, .ro, .any⟩]⟩,
   ⟨0x068, 1, 0, 0x01F400FF, .shared, [⟨16, 16, .rw, .range 1 65535⟩, ⟨0, 8, .rw, .range 1 255⟩]⟩,
   ⟨0x06C, 1, 0, 0x0000000A, .shared, [⟨0, 8, .rw, .range 1 255⟩]⟩,
   ⟨0x070, 1, 0, 0x00000000, .shared, [⟨31, 1, .ro, .any⟩, ⟨30, 1, .ro, .any⟩, ⟨28, 2, .ro, .any⟩, ⟨0, 22, .ro, .any⟩]⟩,
   ⟨0x080, 2, 4, 0xFFFFFFFF, .shared, [⟨0, 32, .rwl, .any⟩]⟩,
   ⟨0x088, 1, 0, 0x0000007F, .shared, [⟨0, 7, .rwl, .any⟩]⟩]
  ++ [⟨0x090, 2, 4, 0xFFFFFFFF, .shared, [⟨0, 32, .rwl, .any⟩]⟩,
   ⟨0x098, 1, 0, 0x0000007F, .shared, [⟨0, 7, .rwl, .any⟩]⟩,
   ⟨0x100, 8, 16, 0x00000000, .shared, [⟨4, 28, .rw, .any⟩]⟩,
   ⟨0x104, 8, 16, 0x00000004, .shared, [⟨31, 1, .rw, .any⟩, ⟨0, 4, .rw, .range 1 8⟩]⟩,
   ⟨0x108, 8, 16, 0x00000000, .shared, [⟨0, 8, .ro, .any⟩]⟩,
   ⟨0x10C, 8, 16, 0x00000000, .shared, [⟨0, 8, .rw, .any⟩]⟩]

/-! Page MEM, code 0x0B (R40). -/

def MEM.ID : Fld := ⟨0x4000B000, 0, 32, 0⟩
def MEM.ID.CODE : Fld := ⟨0x4000B000, 24, 8, 0⟩
def MEM.ID.VERSION : Fld := ⟨0x4000B000, 16, 8, 0⟩
def MEM.ID.INSTANCES : Fld := ⟨0x4000B000, 8, 8, 0⟩
def MEM.CAPS : Fld := ⟨0x4000B004, 0, 32, 0⟩
def MEM.CAPS.C : Fld := ⟨0x4000B004, 0, 32, 0⟩
def MEM.CTRL : Fld := ⟨0x4000B008, 0, 32, 0⟩
def MEM.CTRL.SCREN : Fld := ⟨0x4000B008, 0, 7, 0⟩
def MEM.STAT : Fld := ⟨0x4000B00C, 0, 32, 0⟩
def MEM.STAT.LAPRUN : Fld := ⟨0x4000B00C, 8, 1, 0⟩
def MEM.STAT.SCRUN : Fld := ⟨0x4000B00C, 0, 7, 0⟩
def MEM.STICKY : Fld := ⟨0x4000B010, 0, 32, 0⟩
def MEM.STICKY.RSVD : Fld := ⟨0x4000B010, 31, 1, 0⟩
def MEM.STICKY.LOCKV : Fld := ⟨0x4000B010, 30, 1, 0⟩
def MEM.STICKY.UEWR : Fld := ⟨0x4000B010, 4, 1, 0⟩
def MEM.STICKY.LOGOVF : Fld := ⟨0x4000B010, 3, 1, 0⟩
def MEM.STICKY.LAPSLOW : Fld := ⟨0x4000B010, 2, 1, 0⟩
def MEM.STICKY.UE : Fld := ⟨0x4000B010, 1, 1, 0⟩
def MEM.STICKY.CE : Fld := ⟨0x4000B010, 0, 1, 0⟩
def MEM.IRQEN : Fld := ⟨0x4000B014, 0, 32, 0⟩
def MEM.FLTEN : Fld := ⟨0x4000B018, 0, 32, 0⟩
def MEM.LOCK : Fld := ⟨0x4000B01C, 0, 32, 0⟩
def MEM.LOCK.VAL : Fld := ⟨0x4000B01C, 0, 1, 0⟩
def MEM.LAPPER : Fld := ⟨0x4000B040, 0, 32, 0⟩
def MEM.LAPPER.SEC : Fld := ⟨0x4000B040, 0, 16, 0⟩
def MEM.LAPMAX : Fld := ⟨0x4000B044, 0, 32, 0⟩
def MEM.LAPMAX.MS : Fld := ⟨0x4000B044, 0, 32, 0⟩
def MEM.LASTLAP : Fld := ⟨0x4000B048, 0, 32, 0⟩
def MEM.LASTLAP.MS : Fld := ⟨0x4000B048, 0, 32, 0⟩
def MEM.MAXLAP : Fld := ⟨0x4000B04C, 0, 32, 0⟩
def MEM.MAXLAP.MS : Fld := ⟨0x4000B04C, 0, 32, 0⟩
def MEM.LOGSEL : Fld := ⟨0x4000B050, 0, 32, 0⟩
def MEM.LOGSEL.NUM : Fld := ⟨0x4000B050, 0, 3, 0⟩
def MEM.CNT : Fld := ⟨0x4000B054, 0, 32, 0⟩
def MEM.CNT.CE : Fld := ⟨0x4000B054, 16, 16, 0⟩
def MEM.CNT.UE : Fld := ⟨0x4000B054, 0, 16, 0⟩
def MEM.UELOG : Fld := ⟨0x4000B058, 0, 32, 0⟩
def MEM.UELOG.V : Fld := ⟨0x4000B058, 31, 1, 0⟩
def MEM.UELOG.OFF : Fld := ⟨0x4000B058, 0, 28, 0⟩
def MEM.LOGOVF : Fld := ⟨0x4000B05C, 0, 32, 0⟩
def MEM.LOGOVF.CNT : Fld := ⟨0x4000B05C, 0, 16, 0⟩
def MEM.LOGCLR : Fld := ⟨0x4000B060, 0, 32, 0⟩
def MEM.LOGCLR.CLR : Fld := ⟨0x4000B060, 0, 1, 0⟩
def MEM.FSEL : Fld := ⟨0x4000B064, 0, 32, 0⟩
def MEM.FSEL.BANK : Fld := ⟨0x4000B064, 7, 1, 0⟩
def MEM.FSEL.SECTOR : Fld := ⟨0x4000B064, 0, 7, 0⟩
def MEM.FCNT : Fld := ⟨0x4000B068, 0, 32, 0⟩
def MEM.FCNT.CNT : Fld := ⟨0x4000B068, 0, 16, 0⟩
def MEM.LOG : Fld := ⟨0x4000B080, 0, 32, 4⟩
def MEM.LOG.HITS : Fld := ⟨0x4000B080, 28, 4, 4⟩
def MEM.LOG.OFF : Fld := ⟨0x4000B080, 0, 28, 4⟩

def MEM.table : List RegDesc :=
[⟨0x000, 1, 0, 0x0B030100, .shared, [⟨24, 8, .ro, .any⟩, ⟨16, 8, .ro, .any⟩, ⟨8, 8, .ro, .any⟩]⟩,
   ⟨0x004, 1, 0, 0x00000006, .shared, [⟨0, 32, .ro, .any⟩]⟩,
   ⟨0x008, 1, 0, 0x0000007F, .shared, [⟨0, 7, .rw, .any⟩]⟩,
   ⟨0x00C, 1, 0, 0x00000000, .shared, [⟨8, 1, .ro, .any⟩, ⟨0, 7, .ro, .any⟩]⟩,
   ⟨0x010, 1, 0, 0x00000000, .shared, [⟨31, 1, .w1c, .any⟩, ⟨30, 1, .w1c, .any⟩, ⟨4, 1, .w1c, .any⟩, ⟨3, 1, .w1c, .any⟩, ⟨2, 1, .w1c, .any⟩, ⟨1, 1, .w1c, .any⟩, ⟨0, 1, .w1c, .any⟩]⟩,
   ⟨0x014, 1, 0, 0x00000000, .shared, [⟨0, 32, .rw, .any⟩]⟩,
   ⟨0x018, 1, 0, 0x00000006, .shared, [⟨0, 32, .rw, .any⟩]⟩,
   ⟨0x01C, 1, 0, 0x00000000, .shared, [⟨0, 1, .w1s, .any⟩]⟩,
   ⟨0x040, 1, 0, 0x0000003C, .shared, [⟨0, 16, .rw, .any⟩]⟩,
   ⟨0x044, 1, 0, 0x00007530, .shared, [⟨0, 32, .rw, .range 1 4294967295⟩]⟩,
   ⟨0x048, 1, 0, 0x00000000, .shared, [⟨0, 32, .ro, .any⟩]⟩,
   ⟨0x04C, 1, 0, 0x00000000, .shared, [⟨0, 32, .ro, .any⟩]⟩,
   ⟨0x050, 1, 0, 0x00000000, .perIni, [⟨0, 3, .rw, .range 0 6⟩]⟩,
   ⟨0x054, 1, 0, 0x00000000, .shared, [⟨16, 16, .ro, .any⟩, ⟨0, 16, .ro, .any⟩]⟩,
   ⟨0x058, 1, 0, 0x00000000, .shared, [⟨31, 1, .ro, .any⟩, ⟨0, 28, .ro, .any⟩]⟩,
   ⟨0x05C, 1, 0, 0x00000000, .shared, [⟨0, 16, .ro, .any⟩]⟩,
   ⟨0x060, 1, 0, 0x00000000, .shared, [⟨0, 1, .wo, .any⟩]⟩,
   ⟨0x064, 1, 0, 0x00000000, .shared, [⟨7, 1, .rw, .any⟩, ⟨0, 7, .rw, .range 0 70⟩]⟩,
   ⟨0x068, 1, 0, 0x00000000, .shared, [⟨0, 16, .ro, .any⟩]⟩,
   ⟨0x080, 16, 4, 0x00000000, .shared, [⟨28, 4, .ro, .any⟩, ⟨0, 28, .ro, .any⟩]⟩]

/-! Page NVS, code 0x0C (R40). -/

def NVS.ID : Fld := ⟨0x4000C000, 0, 32, 0⟩
def NVS.ID.CODE : Fld := ⟨0x4000C000, 24, 8, 0⟩
def NVS.ID.VERSION : Fld := ⟨0x4000C000, 16, 8, 0⟩
def NVS.ID.INSTANCES : Fld := ⟨0x4000C000, 8, 8, 0⟩
def NVS.CAPS : Fld := ⟨0x4000C004, 0, 32, 0⟩
def NVS.CAPS.C : Fld := ⟨0x4000C004, 0, 32, 0⟩
def NVS.CTRL : Fld := ⟨0x4000C008, 0, 32, 0⟩
def NVS.CTRL.WEN : Fld := ⟨0x4000C008, 0, 1, 0⟩
def NVS.STAT : Fld := ⟨0x4000C00C, 0, 32, 0⟩
def NVS.STAT.WBUF : Fld := ⟨0x4000C00C, 0, 3, 0⟩
def NVS.STICKY : Fld := ⟨0x4000C010, 0, 32, 0⟩
def NVS.STICKY.RSVD : Fld := ⟨0x4000C010, 31, 1, 0⟩
def NVS.STICKY.LOCKV : Fld := ⟨0x4000C010, 30, 1, 0⟩
def NVS.STICKY.SYSWR : Fld := ⟨0x4000C010, 1, 1, 0⟩
def NVS.STICKY.WDIS : Fld := ⟨0x4000C010, 0, 1, 0⟩
def NVS.IRQEN : Fld := ⟨0x4000C014, 0, 32, 0⟩
def NVS.FLTEN : Fld := ⟨0x4000C018, 0, 32, 0⟩
def NVS.LOCK : Fld := ⟨0x4000C01C, 0, 32, 0⟩
def NVS.LOCK.VAL : Fld := ⟨0x4000C01C, 0, 1, 0⟩

def NVS.table : List RegDesc :=
[⟨0x000, 1, 0, 0x0C030100, .shared, [⟨24, 8, .ro, .any⟩, ⟨16, 8, .ro, .any⟩, ⟨8, 8, .ro, .any⟩]⟩,
   ⟨0x004, 1, 0, 0x00000100, .shared, [⟨0, 32, .ro, .any⟩]⟩,
   ⟨0x008, 1, 0, 0x00000000, .shared, [⟨0, 1, .rw, .any⟩]⟩,
   ⟨0x00C, 1, 0, 0x00000000, .shared, [⟨0, 3, .ro, .any⟩]⟩,
   ⟨0x010, 1, 0, 0x00000000, .shared, [⟨31, 1, .w1c, .any⟩, ⟨30, 1, .w1c, .any⟩, ⟨1, 1, .w1c, .any⟩, ⟨0, 1, .w1c, .any⟩]⟩,
   ⟨0x014, 1, 0, 0x00000000, .shared, [⟨0, 32, .rw, .any⟩]⟩,
   ⟨0x018, 1, 0, 0x00000000, .shared, [⟨0, 32, .rw, .any⟩]⟩,
   ⟨0x01C, 1, 0, 0x00000000, .shared, [⟨0, 1, .w1s, .any⟩]⟩]

/-! Page SEC, code 0x0D (R40). -/

def SEC.ID : Fld := ⟨0x4000D000, 0, 32, 0⟩
def SEC.ID.CODE : Fld := ⟨0x4000D000, 24, 8, 0⟩
def SEC.ID.VERSION : Fld := ⟨0x4000D000, 16, 8, 0⟩
def SEC.ID.INSTANCES : Fld := ⟨0x4000D000, 8, 8, 0⟩
def SEC.CAPS : Fld := ⟨0x4000D004, 0, 32, 0⟩
def SEC.CAPS.C : Fld := ⟨0x4000D004, 0, 32, 0⟩
def SEC.CTRL : Fld := ⟨0x4000D008, 0, 32, 0⟩
def SEC.STAT : Fld := ⟨0x4000D00C, 0, 32, 0⟩
def SEC.STAT.MASKDEG : Fld := ⟨0x4000D00C, 2, 1, 0⟩
def SEC.STAT.CLASS : Fld := ⟨0x4000D00C, 0, 2, 0⟩
def SEC.STICKY : Fld := ⟨0x4000D010, 0, 32, 0⟩
def SEC.STICKY.RSVD : Fld := ⟨0x4000D010, 31, 1, 0⟩
def SEC.STICKY.LOCKV : Fld := ⟨0x4000D010, 30, 1, 0⟩
def SEC.STICKY.HDONE : Fld := ⟨0x4000D010, 6, 1, 0⟩
def SEC.STICKY.RNGEMPTY : Fld := ⟨0x4000D010, 5, 1, 0⟩
def SEC.STICKY.ENTFAIL : Fld := ⟨0x4000D010, 4, 1, 0⟩
def SEC.STICKY.DUALFAIL : Fld := ⟨0x4000D010, 3, 1, 0⟩
def SEC.STICKY.DUALMIS : Fld := ⟨0x4000D010, 2, 1, 0⟩
def SEC.STICKY.JBUSY : Fld := ⟨0x4000D010, 1, 1, 0⟩
def SEC.STICKY.JDONE : Fld := ⟨0x4000D010, 0, 1, 0⟩
def SEC.IRQEN : Fld := ⟨0x4000D014, 0, 32, 0⟩
def SEC.FLTEN : Fld := ⟨0x4000D018, 0, 32, 0⟩
def SEC.LOCK : Fld := ⟨0x4000D01C, 0, 32, 0⟩
def SEC.LOCK.VAL : Fld := ⟨0x4000D01C, 0, 1, 0⟩
def SEC.JCFG : Fld := ⟨0x4000D040, 0, 32, 0⟩
def SEC.JCFG.OP : Fld := ⟨0x4000D040, 28, 4, 0⟩
def SEC.JCFG.SLOT : Fld := ⟨0x4000D040, 16, 6, 0⟩
def SEC.JCFG.MICLEN : Fld := ⟨0x4000D040, 14, 2, 0⟩
def SEC.JSRC : Fld := ⟨0x4000D044, 0, 32, 0⟩
def SEC.JSRC.ADDR : Fld := ⟨0x4000D044, 0, 32, 0⟩
def SEC.JDST : Fld := ⟨0x4000D048, 0, 32, 0⟩
def SEC.JDST.ADDR : Fld := ⟨0x4000D048, 0, 32, 0⟩
def SEC.JLEN : Fld := ⟨0x4000D04C, 0, 32, 0⟩
def SEC.JLEN.ALEN : Fld := ⟨0x4000D04C, 16, 16, 0⟩
def SEC.JLEN.MLEN : Fld := ⟨0x4000D04C, 0, 16, 0⟩
def SEC.JIV : Fld := ⟨0x4000D050, 0, 32, 4⟩
def SEC.JIV.IV : Fld := ⟨0x4000D050, 0, 32, 4⟩
def SEC.JTAG : Fld := ⟨0x4000D060, 0, 32, 4⟩
def SEC.JTAG.TAG : Fld := ⟨0x4000D060, 0, 32, 4⟩
def SEC.JKEY : Fld := ⟨0x4000D070, 0, 32, 0⟩
def SEC.JKEY.TARGET : Fld := ⟨0x4000D070, 16, 6, 0⟩
def SEC.JKEY.FLAGS : Fld := ⟨0x4000D070, 0, 9, 0⟩
def SEC.JCTRL : Fld := ⟨0x4000D074, 0, 32, 0⟩
def SEC.JCTRL.GO : Fld := ⟨0x4000D074, 0, 1, 0⟩
def SEC.JSTAT : Fld := ⟨0x4000D078, 0, 32, 0⟩
def SEC.JSTAT.BUSY : Fld := ⟨0x4000D078, 31, 1, 0⟩
def SEC.JSTAT.DONE : Fld := ⟨0x4000D078, 30, 1, 0⟩
def SEC.JSTAT.STATUS : Fld := ⟨0x4000D078, 0, 8, 0⟩
def SEC.RNG : Fld := ⟨0x4000D080, 0, 32, 0⟩
def SEC.RNG.WORD : Fld := ⟨0x4000D080, 0, 32, 0⟩
def SEC.ENTSTAT : Fld := ⟨0x4000D084, 0, 32, 0⟩
def SEC.ENTSTAT.AVAIL : Fld := ⟨0x4000D084, 24, 6, 0⟩
def SEC.ENTSTAT.STATE : Fld := ⟨0x4000D084, 8, 2, 0⟩
def SEC.ENTSTAT.FAILCNT : Fld := ⟨0x4000D084, 0, 8, 0⟩
def SEC.ENTCTRL : Fld := ⟨0x4000D088, 0, 32, 0⟩
def SEC.ENTCTRL.RESTART : Fld := ⟨0x4000D088, 0, 1, 0⟩
def SEC.HSRC : Fld := ⟨0x4000D0C0, 0, 32, 0⟩
def SEC.HSRC.ADDR : Fld := ⟨0x4000D0C0, 0, 32, 0⟩
def SEC.HLEN : Fld := ⟨0x4000D0C4, 0, 32, 0⟩
def SEC.HLEN.LEN : Fld := ⟨0x4000D0C4, 0, 32, 0⟩
def SEC.HKEY : Fld := ⟨0x4000D0C8, 0, 32, 0⟩
def SEC.HKEY.ADDR : Fld := ⟨0x4000D0C8, 0, 32, 0⟩
def SEC.HSIG : Fld := ⟨0x4000D0CC, 0, 32, 0⟩
def SEC.HSIG.ADDR : Fld := ⟨0x4000D0CC, 0, 32, 0⟩
def SEC.HCTRL : Fld := ⟨0x4000D0D0, 0, 32, 0⟩
def SEC.HCTRL.GO : Fld := ⟨0x4000D0D0, 31, 1, 0⟩
def SEC.HCTRL.OP : Fld := ⟨0x4000D0D0, 0, 2, 0⟩
def SEC.HSTAT : Fld := ⟨0x4000D0D4, 0, 32, 0⟩
def SEC.HSTAT.BUSY : Fld := ⟨0x4000D0D4, 31, 1, 0⟩
def SEC.HSTAT.STATUS : Fld := ⟨0x4000D0D4, 0, 8, 0⟩
def SEC.HASH : Fld := ⟨0x4000D0E0, 0, 32, 4⟩
def SEC.HASH.H : Fld := ⟨0x4000D0E0, 0, 32, 4⟩

def SEC.table : List RegDesc :=
[⟨0x000, 1, 0, 0x0D030100, .shared, [⟨24, 8, .ro, .any⟩, ⟨16, 8, .ro, .any⟩, ⟨8, 8, .ro, .any⟩]⟩,
   ⟨0x004, 1, 0, 0x000000FE, .shared, [⟨0, 32, .ro, .any⟩]⟩,
   ⟨0x008, 1, 0, 0x00000000, .shared, []⟩,
   ⟨0x00C, 1, 0, 0x00000000, .shared, [⟨2, 1, .ro, .any⟩, ⟨0, 2, .ro, .any⟩]⟩,
   ⟨0x010, 1, 0, 0x00000000, .shared, [⟨31, 1, .w1c, .any⟩, ⟨30, 1, .w1c, .any⟩, ⟨6, 1, .w1c, .any⟩, ⟨5, 1, .w1c, .any⟩, ⟨4, 1, .w1c, .any⟩, ⟨3, 1, .w1c, .any⟩, ⟨2, 1, .w1c, .any⟩, ⟨1, 1, .w1c, .any⟩, ⟨0, 1, .w1c, .any⟩]⟩,
   ⟨0x014, 1, 0, 0x00000000, .shared, [⟨0, 32, .rw, .any⟩]⟩,
   ⟨0x018, 1, 0, 0x0000001C, .shared, [⟨0, 32, .rw, .any⟩]⟩,
   ⟨0x01C, 1, 0, 0x00000000, .shared, [⟨0, 1, .w1s, .any⟩]⟩,
   ⟨0x040, 1, 0, 0x00000000, .perVi, [⟨28, 4, .rw, .range 1 7⟩, ⟨16, 6, .rw, .any⟩, ⟨14, 2, .rw, .any⟩]⟩,
   ⟨0x044, 1, 0, 0x00000000, .perVi, [⟨0, 32, .rw, .any⟩]⟩,
   ⟨0x048, 1, 0, 0x00000000, .perVi, [⟨0, 32, .rw, .any⟩]⟩,
   ⟨0x04C, 1, 0, 0x00000000, .perVi, [⟨16, 16, .rw, .any⟩, ⟨0, 16, .rw, .any⟩]⟩,
   ⟨0x050, 4, 4, 0x00000000, .perVi, [⟨0, 32, .rw, .any⟩]⟩,
   ⟨0x060, 4, 4, 0x00000000, .perVi, [⟨0, 32, .rw, .any⟩]⟩,
   ⟨0x070, 1, 0, 0x00000000, .perVi, [⟨16, 6, .rw, .any⟩, ⟨0, 9, .rw, .any⟩]⟩,
   ⟨0x074, 1, 0, 0x00000000, .perVi, [⟨0, 1, .w1s, .any⟩]⟩,
   ⟨0x078, 1, 0, 0x00000000, .perVi, [⟨31, 1, .ro, .any⟩, ⟨30, 1, .ro, .any⟩, ⟨0, 8, .ro, .any⟩]⟩,
   ⟨0x080, 1, 0, 0x00000000, .shared, [⟨0, 32, .ro, .any⟩]⟩,
   ⟨0x084, 1, 0, 0x00000000, .shared, [⟨24, 6, .ro, .any⟩, ⟨8, 2, .ro, .any⟩, ⟨0, 8, .ro, .any⟩]⟩,
   ⟨0x088, 1, 0, 0x00000000, .shared, [⟨0, 1, .w1s, .any⟩]⟩]
  ++ [⟨0x0C0, 1, 0, 0x00000000, .shared, [⟨0, 32, .rw, .any⟩]⟩,
   ⟨0x0C4, 1, 0, 0x00000000, .shared, [⟨0, 32, .rw, .any⟩]⟩,
   ⟨0x0C8, 1, 0, 0x00000000, .shared, [⟨0, 32, .rw, .any⟩]⟩,
   ⟨0x0CC, 1, 0, 0x00000000, .shared, [⟨0, 32, .rw, .any⟩]⟩,
   ⟨0x0D0, 1, 0, 0x00000000, .shared, [⟨31, 1, .w1s, .any⟩, ⟨0, 2, .rw, .range 1 2⟩]⟩,
   ⟨0x0D4, 1, 0, 0x00000000, .shared, [⟨31, 1, .ro, .any⟩, ⟨0, 8, .ro, .any⟩]⟩,
   ⟨0x0E0, 8, 4, 0x00000000, .shared, [⟨0, 32, .ro, .any⟩]⟩]

/-! Page KEY, code 0x0E (R40). -/

def KEY.ID : Fld := ⟨0x4000E000, 0, 32, 0⟩
def KEY.ID.CODE : Fld := ⟨0x4000E000, 24, 8, 0⟩
def KEY.ID.VERSION : Fld := ⟨0x4000E000, 16, 8, 0⟩
def KEY.ID.INSTANCES : Fld := ⟨0x4000E000, 8, 8, 0⟩
def KEY.CAPS : Fld := ⟨0x4000E004, 0, 32, 0⟩
def KEY.CAPS.C : Fld := ⟨0x4000E004, 0, 32, 0⟩
def KEY.CTRL : Fld := ⟨0x4000E008, 0, 32, 0⟩
def KEY.STAT : Fld := ⟨0x4000E00C, 0, 32, 0⟩
def KEY.STICKY : Fld := ⟨0x4000E010, 0, 32, 0⟩
def KEY.STICKY.RSVD : Fld := ⟨0x4000E010, 31, 1, 0⟩
def KEY.STICKY.LOCKV : Fld := ⟨0x4000E010, 30, 1, 0⟩
def KEY.STICKY.KREFUSED : Fld := ⟨0x4000E010, 1, 1, 0⟩
def KEY.STICKY.ERASED : Fld := ⟨0x4000E010, 0, 1, 0⟩
def KEY.IRQEN : Fld := ⟨0x4000E014, 0, 32, 0⟩
def KEY.FLTEN : Fld := ⟨0x4000E018, 0, 32, 0⟩
def KEY.LOCK : Fld := ⟨0x4000E01C, 0, 32, 0⟩
def KEY.LOCK.VAL : Fld := ⟨0x4000E01C, 0, 1, 0⟩
def KEY.KCMD : Fld := ⟨0x4000E040, 0, 32, 0⟩
def KEY.KCMD.OP : Fld := ⟨0x4000E040, 28, 4, 0⟩
def KEY.KCMD.SLOT : Fld := ⟨0x4000E040, 0, 6, 0⟩
def KEY.KSTAT : Fld := ⟨0x4000E044, 0, 32, 0⟩
def KEY.KSTAT.BUSY : Fld := ⟨0x4000E044, 31, 1, 0⟩
def KEY.KSTAT.STATUS : Fld := ⟨0x4000E044, 16, 8, 0⟩
def KEY.USED : Fld := ⟨0x4000E048, 0, 32, 0⟩
def KEY.USED.CNT : Fld := ⟨0x4000E048, 0, 7, 0⟩
def KEY.KS : Fld := ⟨0x4000E100, 0, 32, 4⟩
def KEY.KS.STATE : Fld := ⟨0x4000E100, 30, 2, 4⟩
def KEY.KS.VI : Fld := ⟨0x4000E100, 26, 4, 4⟩
def KEY.KS.SIZE : Fld := ⟨0x4000E100, 25, 1, 4⟩
def KEY.KS.ORIGIN : Fld := ⟨0x4000E100, 24, 1, 4⟩
def KEY.KS.PERM : Fld := ⟨0x4000E100, 16, 8, 4⟩
def KEY.KS.AUTHNUM : Fld := ⟨0x4000E100, 12, 4, 4⟩
def KEY.KS.FLAGS : Fld := ⟨0x4000E100, 0, 9, 4⟩

def KEY.table : List RegDesc :=
[⟨0x000, 1, 0, 0x0E030100, .shared, [⟨24, 8, .ro, .any⟩, ⟨16, 8, .ro, .any⟩, ⟨8, 8, .ro, .any⟩]⟩,
   ⟨0x004, 1, 0, 0x00000040, .shared, [⟨0, 32, .ro, .any⟩]⟩,
   ⟨0x008, 1, 0, 0x00000000, .shared, []⟩,
   ⟨0x00C, 1, 0, 0x00000000, .shared, []⟩,
   ⟨0x010, 1, 0, 0x00000000, .shared, [⟨31, 1, .w1c, .any⟩, ⟨30, 1, .w1c, .any⟩, ⟨1, 1, .w1c, .any⟩, ⟨0, 1, .w1c, .any⟩]⟩,
   ⟨0x014, 1, 0, 0x00000000, .shared, [⟨0, 32, .rw, .any⟩]⟩,
   ⟨0x018, 1, 0, 0x00000000, .shared, [⟨0, 32, .rw, .any⟩]⟩,
   ⟨0x01C, 1, 0, 0x00000000, .shared, [⟨0, 1, .w1s, .any⟩]⟩,
   ⟨0x040, 1, 0, 0x00000000, .shared, [⟨28, 4, .wo, .any⟩, ⟨0, 6, .wo, .any⟩]⟩,
   ⟨0x044, 1, 0, 0x00000000, .shared, [⟨31, 1, .ro, .any⟩, ⟨16, 8, .ro, .any⟩]⟩,
   ⟨0x048, 1, 0, 0x00000000, .shared, [⟨0, 7, .ro, .any⟩]⟩,
   ⟨0x100, 64, 4, 0x00000000, .shared, [⟨30, 2, .ro, .any⟩, ⟨26, 4, .ro, .any⟩, ⟨25, 1, .ro, .any⟩, ⟨24, 1, .ro, .any⟩, ⟨16, 8, .ro, .any⟩, ⟨12, 4, .ro, .any⟩, ⟨0, 9, .ro, .any⟩]⟩]

/-! Page CMD, code 0x0F (R40). -/

def CMD.ID : Fld := ⟨0x4000F000, 0, 32, 0⟩
def CMD.ID.CODE : Fld := ⟨0x4000F000, 24, 8, 0⟩
def CMD.ID.VERSION : Fld := ⟨0x4000F000, 16, 8, 0⟩
def CMD.ID.INSTANCES : Fld := ⟨0x4000F000, 8, 8, 0⟩
def CMD.CAPS : Fld := ⟨0x4000F004, 0, 32, 0⟩
def CMD.CAPS.C : Fld := ⟨0x4000F004, 0, 32, 0⟩
def CMD.CTRL : Fld := ⟨0x4000F008, 0, 32, 0⟩
def CMD.STAT : Fld := ⟨0x4000F00C, 0, 32, 0⟩
def CMD.STAT.SLOW : Fld := ⟨0x4000F00C, 1, 1, 0⟩
def CMD.STAT.BUSY : Fld := ⟨0x4000F00C, 0, 1, 0⟩
def CMD.STICKY : Fld := ⟨0x4000F010, 0, 32, 0⟩
def CMD.STICKY.RSVD : Fld := ⟨0x4000F010, 31, 1, 0⟩
def CMD.STICKY.LOCKV : Fld := ⟨0x4000F010, 30, 1, 0⟩
def CMD.STICKY.CMDBUSY : Fld := ⟨0x4000F010, 5, 1, 0⟩
def CMD.STICKY.CTRWR : Fld := ⟨0x4000F010, 4, 1, 0⟩
def CMD.STICKY.CTRBAD : Fld := ⟨0x4000F010, 3, 1, 0⟩
def CMD.STICKY.STALE : Fld := ⟨0x4000F010, 2, 1, 0⟩
def CMD.STICKY.AUTHFAIL : Fld := ⟨0x4000F010, 1, 1, 0⟩
def CMD.STICKY.DONE : Fld := ⟨0x4000F010, 0, 1, 0⟩
def CMD.IRQEN : Fld := ⟨0x4000F014, 0, 32, 0⟩
def CMD.FLTEN : Fld := ⟨0x4000F018, 0, 32, 0⟩
def CMD.LOCK : Fld := ⟨0x4000F01C, 0, 32, 0⟩
def CMD.LOCK.VAL : Fld := ⟨0x4000F01C, 0, 1, 0⟩
def CMD.BLK : Fld := ⟨0x4000F040, 0, 32, 4⟩
def CMD.BLK.W : Fld := ⟨0x4000F040, 0, 32, 4⟩
def CMD.GO : Fld := ⟨0x4000F080, 0, 32, 0⟩
def CMD.GO.VAL : Fld := ⟨0x4000F080, 0, 1, 0⟩
def CMD.RESULT : Fld := ⟨0x4000F084, 0, 32, 0⟩
def CMD.RESULT.V : Fld := ⟨0x4000F084, 31, 1, 0⟩
def CMD.RESULT.AUTH : Fld := ⟨0x4000F084, 24, 4, 0⟩
def CMD.RESULT.STATUS : Fld := ⟨0x4000F084, 16, 8, 0⟩
def CMD.RESULT.ID : Fld := ⟨0x4000F084, 0, 16, 0⟩
def CMD.FAILRUN : Fld := ⟨0x4000F088, 0, 32, 0⟩
def CMD.FAILRUN.CNT : Fld := ⟨0x4000F088, 0, 8, 0⟩
def CMD.CTR : Fld := ⟨0x4000F0C0, 0, 32, 4⟩
def CMD.CTR.VAL : Fld := ⟨0x4000F0C0, 0, 32, 4⟩

def CMD.table : List RegDesc :=
[⟨0x000, 1, 0, 0x0F030100, .shared, [⟨24, 8, .ro, .any⟩, ⟨16, 8, .ro, .any⟩, ⟨8, 8, .ro, .any⟩]⟩,
   ⟨0x004, 1, 0, 0x00001008, .shared, [⟨0, 32, .ro, .any⟩]⟩,
   ⟨0x008, 1, 0, 0x00000000, .shared, []⟩,
   ⟨0x00C, 1, 0, 0x00000000, .shared, [⟨1, 1, .ro, .any⟩, ⟨0, 1, .ro, .any⟩]⟩,
   ⟨0x010, 1, 0, 0x00000000, .shared, [⟨31, 1, .w1c, .any⟩, ⟨30, 1, .w1c, .any⟩, ⟨5, 1, .w1c, .any⟩, ⟨4, 1, .w1c, .any⟩, ⟨3, 1, .w1c, .any⟩, ⟨2, 1, .w1c, .any⟩, ⟨1, 1, .w1c, .any⟩, ⟨0, 1, .w1c, .any⟩]⟩,
   ⟨0x014, 1, 0, 0x00000000, .shared, [⟨0, 32, .rw, .any⟩]⟩,
   ⟨0x018, 1, 0, 0x0000001E, .shared, [⟨0, 32, .rw, .any⟩]⟩,
   ⟨0x01C, 1, 0, 0x00000000, .shared, [⟨0, 1, .w1s, .any⟩]⟩,
   ⟨0x040, 16, 4, 0x00000000, .shared, [⟨0, 32, .rw, .any⟩]⟩,
   ⟨0x080, 1, 0, 0x00000000, .shared, [⟨0, 1, .wo, .any⟩]⟩,
   ⟨0x084, 1, 0, 0x00000000, .shared, [⟨31, 1, .ro, .any⟩, ⟨24, 4, .ro, .any⟩, ⟨16, 8, .ro, .any⟩, ⟨0, 16, .ro, .any⟩]⟩,
   ⟨0x088, 1, 0, 0x00000000, .shared, [⟨0, 8, .ro, .any⟩]⟩,
   ⟨0x0C0, 16, 4, 0x00000000, .shared, [⟨0, 32, .ro, .any⟩]⟩]

/-! Page RFE, code 0x10 (R40). -/

def RFE.ID : Fld := ⟨0x40010000, 0, 32, 0⟩
def RFE.ID.CODE : Fld := ⟨0x40010000, 24, 8, 0⟩
def RFE.ID.VERSION : Fld := ⟨0x40010000, 16, 8, 0⟩
def RFE.ID.INSTANCES : Fld := ⟨0x40010000, 8, 8, 0⟩
def RFE.CAPS : Fld := ⟨0x40010004, 0, 32, 0⟩
def RFE.CAPS.C : Fld := ⟨0x40010004, 0, 32, 0⟩
def RFE.CTRL : Fld := ⟨0x40010008, 0, 32, 0⟩
def RFE.CTRL.TXMAP : Fld := ⟨0x40010008, 0, 2, 0⟩
def RFE.STAT : Fld := ⟨0x4001000C, 0, 32, 0⟩
def RFE.STAT.P1STATE : Fld := ⟨0x4001000C, 4, 2, 0⟩
def RFE.STAT.P0STATE : Fld := ⟨0x4001000C, 2, 2, 0⟩
def RFE.STICKY : Fld := ⟨0x40010010, 0, 32, 0⟩
def RFE.STICKY.RSVD : Fld := ⟨0x40010010, 31, 1, 0⟩
def RFE.STICKY.LOCKV : Fld := ⟨0x40010010, 30, 1, 0⟩
def RFE.STICKY.SEVERE : Fld := ⟨0x40010010, 7, 1, 0⟩
def RFE.STICKY.CLIP1 : Fld := ⟨0x40010010, 6, 1, 0⟩
def RFE.STICKY.CLIP0 : Fld := ⟨0x40010010, 5, 1, 0⟩
def RFE.STICKY.CALSTARVE : Fld := ⟨0x40010010, 4, 1, 0⟩
def RFE.STICKY.CALFAIL : Fld := ⟨0x40010010, 3, 1, 0⟩
def RFE.STICKY.PCLAMP : Fld := ⟨0x40010010, 2, 1, 0⟩
def RFE.STICKY.MISMATCH1 : Fld := ⟨0x40010010, 1, 1, 0⟩
def RFE.STICKY.MISMATCH0 : Fld := ⟨0x40010010, 0, 1, 0⟩
def RFE.IRQEN : Fld := ⟨0x40010014, 0, 32, 0⟩
def RFE.FLTEN : Fld := ⟨0x40010018, 0, 32, 0⟩
def RFE.LOCK : Fld := ⟨0x4001001C, 0, 32, 0⟩
def RFE.LOCK.VAL : Fld := ⟨0x4001001C, 0, 1, 0⟩
def RFE.PCFG : Fld := ⟨0x40010040, 0, 32, 64⟩
def RFE.PCFG.AGCSPAN : Fld := ⟨0x40010040, 12, 4, 64⟩
def RFE.PCFG.CLIPSTEP : Fld := ⟨0x40010040, 8, 4, 64⟩
def RFE.PCFG.GMODE : Fld := ⟨0x40010040, 4, 2, 64⟩
def RFE.PCFG.TUNEAUTO : Fld := ⟨0x40010040, 2, 1, 64⟩
def RFE.PCFG.PAPATH : Fld := ⟨0x40010040, 1, 1, 64⟩
def RFE.PCFG.EN : Fld := ⟨0x40010040, 0, 1, 64⟩
def RFE.PGAIN : Fld := ⟨0x40010044, 0, 32, 64⟩
def RFE.PGAIN.MANGAIN : Fld := ⟨0x40010044, 8, 8, 64⟩
def RFE.PGAIN.SCHGAIN : Fld := ⟨0x40010044, 0, 8, 64⟩
def RFE.PGSTAT : Fld := ⟨0x40010048, 0, 32, 64⟩
def RFE.PGSTAT.SETTLING : Fld := ⟨0x40010048, 18, 1, 64⟩
def RFE.PGSTAT.HELD : Fld := ⟨0x40010048, 17, 1, 64⟩
def RFE.PGSTAT.FROZEN : Fld := ⟨0x40010048, 16, 1, 64⟩
def RFE.PGSTAT.ATT : Fld := ⟨0x40010048, 10, 5, 64⟩
def RFE.PGSTAT.LNA : Fld := ⟨0x40010048, 8, 2, 64⟩
def RFE.PGSTAT.GAIN : Fld := ⟨0x40010048, 0, 8, 64⟩
def RFE.PAGC : Fld := ⟨0x4001004C, 0, 32, 64⟩
def RFE.PAGC.AGCSTEP : Fld := ⟨0x4001004C, 28, 4, 64⟩
def RFE.PAGC.DWELLUP : Fld := ⟨0x4001004C, 20, 8, 64⟩
def RFE.PAGC.DWELLDN : Fld := ⟨0x4001004C, 16, 4, 64⟩
def RFE.PAGC.AGCLO : Fld := ⟨0x4001004C, 8, 8, 64⟩
def RFE.PAGC.AGCHI : Fld := ⟨0x4001004C, 0, 8, 64⟩
def RFE.PPWR : Fld := ⟨0x40010050, 0, 32, 64⟩
def RFE.PPWR.RAMP : Fld := ⟨0x40010050, 24, 4, 64⟩
def RFE.PPWR.EPAGAIN : Fld := ⟨0x40010050, 16, 8, 64⟩
def RFE.PPWR.AGAIN : Fld := ⟨0x40010050, 8, 8, 64⟩
def RFE.PPWR.PMAX : Fld := ⟨0x40010050, 0, 8, 64⟩
def RFE.PPLIM : Fld := ⟨0x40010054, 0, 32, 64⟩
def RFE.PPLIM.CEIL : Fld := ⟨0x40010054, 16, 8, 64⟩
def RFE.PPLIM.OTPEXT : Fld := ⟨0x40010054, 8, 8, 64⟩
def RFE.PPLIM.OTPINT : Fld := ⟨0x40010054, 0, 8, 64⟩
def RFE.PTUNE : Fld := ⟨0x40010058, 0, 32, 64⟩
def RFE.PTUNE.TUNETH : Fld := ⟨0x40010058, 24, 8, 64⟩
def RFE.PTUNE.MMTH : Fld := ⟨0x40010058, 16, 8, 64⟩
def RFE.PTUNE.RLOSS : Fld := ⟨0x40010058, 8, 8, 64⟩
def RFE.PTUNE.TUNE : Fld := ⟨0x40010058, 0, 6, 64⟩
def RFE.PEPB : Fld := ⟨0x4001005C, 0, 32, 64⟩
def RFE.PEPB.EPBIAS : Fld := ⟨0x4001005C, 0, 6, 64⟩
def RFE.CALREQ : Fld := ⟨0x400100C0, 0, 32, 0⟩
def RFE.CALREQ.REQ : Fld := ⟨0x400100C0, 0, 5, 0⟩
def RFE.CALCFG : Fld := ⟨0x400100C4, 0, 32, 0⟩
def RFE.CALCFG.PERIOD : Fld := ⟨0x400100C4, 24, 8, 0⟩
def RFE.CALCFG.CALDT : Fld := ⟨0x400100C4, 16, 4, 0⟩
def RFE.CALCFG.BUDGET : Fld := ⟨0x400100C4, 0, 16, 0⟩
def RFE.CALSTAT : Fld := ⟨0x400100C8, 0, 32, 0⟩
def RFE.CALSTAT.FAILED : Fld := ⟨0x400100C8, 16, 5, 0⟩
def RFE.CALSTAT.RUN : Fld := ⟨0x400100C8, 0, 5, 0⟩
def RFE.DCRES : Fld := ⟨0x400100CC, 0, 32, 0⟩
def RFE.DCRES.THMOFS : Fld := ⟨0x400100CC, 16, 6, 0⟩
def RFE.DCRES.P1 : Fld := ⟨0x400100CC, 8, 6, 0⟩
def RFE.DCRES.P0 : Fld := ⟨0x400100CC, 0, 6, 0⟩
def RFE.LKRES : Fld := ⟨0x400100D0, 0, 32, 0⟩
def RFE.LKRES.TXBQ : Fld := ⟨0x400100D0, 24, 6, 0⟩
def RFE.LKRES.TXBI : Fld := ⟨0x400100D0, 16, 6, 0⟩
def RFE.LKRES.TXAQ : Fld := ⟨0x400100D0, 8, 6, 0⟩
def RFE.LKRES.TXAI : Fld := ⟨0x400100D0, 0, 6, 0⟩
def RFE.FILTRES : Fld := ⟨0x400100D4, 0, 32, 0⟩
def RFE.FILTRES.TXB : Fld := ⟨0x400100D4, 24, 6, 0⟩
def RFE.FILTRES.TXA : Fld := ⟨0x400100D4, 16, 6, 0⟩
def RFE.FILTRES.P1 : Fld := ⟨0x400100D4, 8, 6, 0⟩
def RFE.FILTRES.P0 : Fld := ⟨0x400100D4, 0, 6, 0⟩
def RFE.IQRES : Fld := ⟨0x400100D8, 0, 32, 0⟩
def RFE.IQRES.TXBPH : Fld := ⟨0x400100D8, 24, 8, 0⟩
def RFE.IQRES.TXBG : Fld := ⟨0x400100D8, 16, 8, 0⟩
def RFE.IQRES.TXAPH : Fld := ⟨0x400100D8, 8, 8, 0⟩
def RFE.IQRES.TXAG : Fld := ⟨0x400100D8, 0, 8, 0⟩
def RFE.IMGREJ : Fld := ⟨0x400100DC, 0, 32, 0⟩
def RFE.IMGREJ.TXB : Fld := ⟨0x400100DC, 8, 8, 0⟩
def RFE.IMGREJ.TXA : Fld := ⟨0x400100DC, 0, 8, 0⟩
def RFE.XOTRIM : Fld := ⟨0x400100E0, 0, 32, 0⟩
def RFE.XOTRIM.XOADJ : Fld := ⟨0x400100E0, 16, 8, 0⟩
def RFE.XOTRIM.TARGET : Fld := ⟨0x400100E0, 8, 8, 0⟩
def RFE.XOTRIM.TRIM : Fld := ⟨0x400100E0, 0, 8, 0⟩
def RFE.RCRES : Fld := ⟨0x400100E4, 0, 32, 0⟩
def RFE.RCRES.ERR : Fld := ⟨0x400100E4, 16, 16, 0⟩
def RFE.RCRES.TRIM : Fld := ⟨0x400100E4, 0, 10, 0⟩
def RFE.TEMP : Fld := ⟨0x400100E8, 0, 32, 0⟩
def RFE.TEMP.T : Fld := ⟨0x400100E8, 0, 8, 0⟩
def RFE.FECCFG : Fld := ⟨0x40010100, 0, 32, 4⟩
def RFE.FECCFG.OE : Fld := ⟨0x40010100, 9, 1, 4⟩
def RFE.FECCFG.PORT : Fld := ⟨0x40010100, 8, 1, 4⟩
def RFE.FECCFG.LEVEL : Fld := ⟨0x40010100, 0, 4, 4⟩

def RFE.table : List RegDesc :=
[⟨0x000, 1, 0, 0x10030100, .shared, [⟨24, 8, .ro, .any⟩, ⟨16, 8, .ro, .any⟩, ⟨8, 8, .ro, .any⟩]⟩,
   ⟨0x004, 1, 0, 0x00004022, .shared, [⟨0, 32, .ro, .any⟩]⟩,
   ⟨0x008, 1, 0, 0x00000000, .shared, [⟨0, 2, .rwl, .range 0 1⟩]⟩,
   ⟨0x00C, 1, 0, 0x00000000, .shared, [⟨4, 2, .ro, .any⟩, ⟨2, 2, .ro, .any⟩]⟩,
   ⟨0x010, 1, 0, 0x00000000, .shared, [⟨31, 1, .w1c, .any⟩, ⟨30, 1, .w1c, .any⟩, ⟨7, 1, .w1c, .any⟩, ⟨6, 1, .w1c, .any⟩, ⟨5, 1, .w1c, .any⟩, ⟨4, 1, .w1c, .any⟩, ⟨3, 1, .w1c, .any⟩, ⟨2, 1, .w1c, .any⟩, ⟨1, 1, .w1c, .any⟩, ⟨0, 1, .w1c, .any⟩]⟩,
   ⟨0x014, 1, 0, 0x00000000, .shared, [⟨0, 32, .rw, .any⟩]⟩,
   ⟨0x018, 1, 0, 0x00000088, .shared, [⟨0, 32, .rw, .any⟩]⟩,
   ⟨0x01C, 1, 0, 0x00000000, .shared, [⟨0, 1, .w1s, .any⟩]⟩,
   ⟨0x040, 2, 64, 0x00006A00, .shared, [⟨12, 4, .rw, .any⟩, ⟨8, 4, .rw, .range 1 15⟩, ⟨4, 2, .rw, .range 0 2⟩, ⟨2, 1, .rw, .any⟩, ⟨1, 1, .rwl, .any⟩, ⟨0, 1, .rw, .any⟩]⟩,
   ⟨0x044, 2, 64, 0x00000000, .shared, [⟨8, 8, .rw, .signed (-31) 30⟩, ⟨0, 8, .rw, .signed (-31) 30⟩]⟩,
   ⟨0x048, 2, 64, 0x00000000, .shared, [⟨18, 1, .ro, .any⟩, ⟨17, 1, .ro, .any⟩, ⟨16, 1, .ro, .any⟩, ⟨10, 5, .ro, .any⟩, ⟨8, 2, .ro, .any⟩, ⟨0, 8, .ro, .any⟩]⟩,
   ⟨0x04C, 2, 64, 0x3102E2F4, .shared, [⟨28, 4, .rw, .range 1 10⟩, ⟨20, 8, .rw, .range 1 255⟩, ⟨16, 4, .rw, .range 1 15⟩, ⟨8, 8, .rw, .any⟩, ⟨0, 8, .rw, .any⟩]⟩,
   ⟨0x050, 2, 64, 0x07001E3C, .shared, [⟨24, 4, .rw, .range 1 15⟩, ⟨16, 8, .rwl, .any⟩, ⟨8, 8, .rwl, .any⟩, ⟨0, 8, .rw, .any⟩]⟩,
   ⟨0x054, 2, 64, 0x00000000, .shared, [⟨16, 8, .ro, .any⟩, ⟨8, 8, .ro, .any⟩, ⟨0, 8, .ro, .any⟩]⟩,
   ⟨0x058, 2, 64, 0x2818FF20, .shared, [⟨24, 8, .rw, .any⟩, ⟨16, 8, .rw, .any⟩, ⟨8, 8, .ro, .any⟩, ⟨0, 6, .rw, .any⟩]⟩,
   ⟨0x05C, 2, 64, 0x00000000, .shared, [⟨0, 6, .rw, .any⟩]⟩,
   ⟨0x0C0, 1, 0, 0x00000000, .shared, [⟨0, 5, .w1s, .any⟩]⟩,
   ⟨0x0C4, 1, 0, 0x3C0A0BB8, .shared, [⟨24, 8, .rw, .any⟩, ⟨16, 4, .rw, .any⟩, ⟨0, 16, .rw, .any⟩]⟩,
   ⟨0x0C8, 1, 0, 0x00000000, .shared, [⟨16, 5, .ro, .any⟩, ⟨0, 5, .ro, .any⟩]⟩,
   ⟨0x0CC, 1, 0, 0x00000000, .shared, [⟨16, 6, .ro, .any⟩, ⟨8, 6, .ro, .any⟩, ⟨0, 6, .ro, .any⟩]⟩]
  ++ [⟨0x0D0, 1, 0, 0x00000000, .shared, [⟨24, 6, .ro, .any⟩, ⟨16, 6, .ro, .any⟩, ⟨8, 6, .ro, .any⟩, ⟨0, 6, .ro, .any⟩]⟩,
   ⟨0x0D4, 1, 0, 0x20202020, .shared, [⟨24, 6, .ro, .any⟩, ⟨16, 6, .ro, .any⟩, ⟨8, 6, .ro, .any⟩, ⟨0, 6, .ro, .any⟩]⟩,
   ⟨0x0D8, 1, 0, 0x00000000, .shared, [⟨24, 8, .ro, .any⟩, ⟨16, 8, .ro, .any⟩, ⟨8, 8, .ro, .any⟩, ⟨0, 8, .ro, .any⟩]⟩,
   ⟨0x0DC, 1, 0, 0x00000000, .shared, [⟨8, 8, .ro, .any⟩, ⟨0, 8, .ro, .any⟩]⟩,
   ⟨0x0E0, 1, 0, 0x00000000, .shared, [⟨16, 8, .rw, .any⟩, ⟨8, 8, .ro, .any⟩, ⟨0, 8, .ro, .any⟩]⟩,
   ⟨0x0E4, 1, 0, 0x00000200, .shared, [⟨16, 16, .ro, .any⟩, ⟨0, 10, .ro, .any⟩]⟩,
   ⟨0x0E8, 1, 0, 0x00000000, .shared, [⟨0, 8, .ro, .any⟩]⟩,
   ⟨0x100, 6, 4, 0x00000000, .shared, [⟨9, 1, .rw, .any⟩, ⟨8, 1, .rw, .any⟩, ⟨0, 4, .rw, .any⟩]⟩]

/-! Page RXS, code 0x11 (R40). -/

def RXS.ID : Fld := ⟨0x40011000, 0, 32, 0⟩
def RXS.ID.CODE : Fld := ⟨0x40011000, 24, 8, 0⟩
def RXS.ID.VERSION : Fld := ⟨0x40011000, 16, 8, 0⟩
def RXS.ID.INSTANCES : Fld := ⟨0x40011000, 8, 8, 0⟩
def RXS.CAPS : Fld := ⟨0x40011004, 0, 32, 0⟩
def RXS.CAPS.C : Fld := ⟨0x40011004, 0, 32, 0⟩
def RXS.CTRL : Fld := ⟨0x40011008, 0, 32, 0⟩
def RXS.CTRL.DITHER : Fld := ⟨0x40011008, 2, 1, 0⟩
def RXS.CTRL.EN1 : Fld := ⟨0x40011008, 1, 1, 0⟩
def RXS.CTRL.EN0 : Fld := ⟨0x40011008, 0, 1, 0⟩
def RXS.STAT : Fld := ⟨0x4001100C, 0, 32, 0⟩
def RXS.STAT.RUN1 : Fld := ⟨0x4001100C, 1, 1, 0⟩
def RXS.STAT.RUN0 : Fld := ⟨0x4001100C, 0, 1, 0⟩
def RXS.STICKY : Fld := ⟨0x40011010, 0, 32, 0⟩
def RXS.STICKY.RSVD : Fld := ⟨0x40011010, 31, 1, 0⟩
def RXS.STICKY.LOCKV : Fld := ⟨0x40011010, 30, 1, 0⟩
def RXS.STICKY.CLIPEV1 : Fld := ⟨0x40011010, 1, 1, 0⟩
def RXS.STICKY.CLIPEV0 : Fld := ⟨0x40011010, 0, 1, 0⟩
def RXS.IRQEN : Fld := ⟨0x40011014, 0, 32, 0⟩
def RXS.FLTEN : Fld := ⟨0x40011018, 0, 32, 0⟩
def RXS.LOCK : Fld := ⟨0x4001101C, 0, 32, 0⟩
def RXS.LOCK.VAL : Fld := ⟨0x4001101C, 0, 1, 0⟩
def RXS.PCLIPN : Fld := ⟨0x40011040, 0, 32, 16⟩
def RXS.PCLIPN.N : Fld := ⟨0x40011040, 0, 4, 16⟩
def RXS.PLEVEL : Fld := ⟨0x40011044, 0, 32, 16⟩
def RXS.PLEVEL.L : Fld := ⟨0x40011044, 0, 8, 16⟩
def RXS.PPEAK : Fld := ⟨0x40011048, 0, 32, 16⟩
def RXS.PPEAK.PK : Fld := ⟨0x40011048, 0, 12, 16⟩
def RXS.PCLIPS : Fld := ⟨0x4001104C, 0, 32, 16⟩
def RXS.PCLIPS.CNT : Fld := ⟨0x4001104C, 0, 16, 16⟩

def RXS.table : List RegDesc :=
[⟨0x000, 1, 0, 0x11030100, .shared, [⟨24, 8, .ro, .any⟩, ⟨16, 8, .ro, .any⟩, ⟨8, 8, .ro, .any⟩]⟩,
   ⟨0x004, 1, 0, 0x000C0A00, .shared, [⟨0, 32, .ro, .any⟩]⟩,
   ⟨0x008, 1, 0, 0x00000004, .shared, [⟨2, 1, .rw, .any⟩, ⟨1, 1, .rw, .any⟩, ⟨0, 1, .rw, .any⟩]⟩,
   ⟨0x00C, 1, 0, 0x00000000, .shared, [⟨1, 1, .ro, .any⟩, ⟨0, 1, .ro, .any⟩]⟩,
   ⟨0x010, 1, 0, 0x00000000, .shared, [⟨31, 1, .w1c, .any⟩, ⟨30, 1, .w1c, .any⟩, ⟨1, 1, .w1c, .any⟩, ⟨0, 1, .w1c, .any⟩]⟩,
   ⟨0x014, 1, 0, 0x00000000, .shared, [⟨0, 32, .rw, .any⟩]⟩,
   ⟨0x018, 1, 0, 0x00000000, .shared, [⟨0, 32, .rw, .any⟩]⟩,
   ⟨0x01C, 1, 0, 0x00000000, .shared, [⟨0, 1, .w1s, .any⟩]⟩,
   ⟨0x040, 2, 16, 0x00000002, .shared, [⟨0, 4, .rw, .range 1 15⟩]⟩,
   ⟨0x044, 2, 16, 0x00000080, .shared, [⟨0, 8, .ro, .any⟩]⟩,
   ⟨0x048, 2, 16, 0x00000000, .shared, [⟨0, 12, .ro, .any⟩]⟩,
   ⟨0x04C, 2, 16, 0x00000000, .shared, [⟨0, 16, .ro, .any⟩]⟩]

/-! Page CHZ, code 0x12 (R40). -/

def CHZ.ID : Fld := ⟨0x40012000, 0, 32, 0⟩
def CHZ.ID.CODE : Fld := ⟨0x40012000, 24, 8, 0⟩
def CHZ.ID.VERSION : Fld := ⟨0x40012000, 16, 8, 0⟩
def CHZ.ID.INSTANCES : Fld := ⟨0x40012000, 8, 8, 0⟩
def CHZ.CAPS : Fld := ⟨0x40012004, 0, 32, 0⟩
def CHZ.CAPS.C : Fld := ⟨0x40012004, 0, 32, 0⟩
def CHZ.CTRL : Fld := ⟨0x40012008, 0, 32, 0⟩
def CHZ.STAT : Fld := ⟨0x4001200C, 0, 32, 0⟩
def CHZ.STAT.WON : Fld := ⟨0x4001200C, 4, 4, 0⟩
def CHZ.STAT.WHELD : Fld := ⟨0x4001200C, 0, 4, 0⟩
def CHZ.STICKY : Fld := ⟨0x40012010, 0, 32, 0⟩
def CHZ.STICKY.RSVD : Fld := ⟨0x40012010, 31, 1, 0⟩
def CHZ.STICKY.LOCKV : Fld := ⟨0x40012010, 30, 1, 0⟩
def CHZ.STICKY.OUTWIN : Fld := ⟨0x40012010, 0, 1, 0⟩
def CHZ.IRQEN : Fld := ⟨0x40012014, 0, 32, 0⟩
def CHZ.FLTEN : Fld := ⟨0x40012018, 0, 32, 0⟩
def CHZ.LOCK : Fld := ⟨0x4001201C, 0, 32, 0⟩
def CHZ.LOCK.VAL : Fld := ⟨0x4001201C, 0, 1, 0⟩
def CHZ.WCFG : Fld := ⟨0x40012040, 0, 32, 4⟩
def CHZ.WCFG.EN : Fld := ⟨0x40012040, 31, 1, 4⟩
def CHZ.WCFG.WIDTH : Fld := ⟨0x40012040, 28, 3, 4⟩
def CHZ.WCFG.CENTRE : Fld := ⟨0x40012040, 0, 21, 4⟩
def CHZ.PLANF0 : Fld := ⟨0x40012060, 0, 32, 8⟩
def CHZ.PLANF0.F0 : Fld := ⟨0x40012060, 0, 21, 8⟩
def CHZ.PLANSP : Fld := ⟨0x40012064, 0, 32, 8⟩
def CHZ.PLANSP.NCH : Fld := ⟨0x40012064, 16, 11, 8⟩
def CHZ.PLANSP.SP : Fld := ⟨0x40012064, 0, 16, 8⟩

def CHZ.table : List RegDesc :=
[⟨0x000, 1, 0, 0x12030100, .shared, [⟨24, 8, .ro, .any⟩, ⟨16, 8, .ro, .any⟩, ⟨8, 8, .ro, .any⟩]⟩,
   ⟨0x004, 1, 0, 0x00000004, .shared, [⟨0, 32, .ro, .any⟩]⟩,
   ⟨0x008, 1, 0, 0x00000000, .shared, []⟩,
   ⟨0x00C, 1, 0, 0x00000000, .shared, [⟨4, 4, .ro, .any⟩, ⟨0, 4, .ro, .any⟩]⟩,
   ⟨0x010, 1, 0, 0x00000000, .shared, [⟨31, 1, .w1c, .any⟩, ⟨30, 1, .w1c, .any⟩, ⟨0, 1, .w1c, .any⟩]⟩,
   ⟨0x014, 1, 0, 0x00000000, .shared, [⟨0, 32, .rw, .any⟩]⟩,
   ⟨0x018, 1, 0, 0x00000000, .shared, [⟨0, 32, .rw, .any⟩]⟩,
   ⟨0x01C, 1, 0, 0x00000000, .shared, [⟨0, 1, .w1s, .any⟩]⟩,
   ⟨0x040, 4, 4, 0x400927C0, .shared, [⟨31, 1, .rw, .any⟩, ⟨28, 3, .rw, .range 0 4⟩, ⟨0, 21, .rw, .any⟩]⟩,
   ⟨0x060, 4, 8, 0x00000000, .shared, [⟨0, 21, .rw, .any⟩]⟩,
   ⟨0x064, 4, 8, 0x00000000, .shared, [⟨16, 11, .rw, .any⟩, ⟨0, 16, .rw, .any⟩]⟩]

/-! Page DMD, code 0x13 (R40). -/

def DMD.ID : Fld := ⟨0x40013000, 0, 32, 0⟩
def DMD.ID.CODE : Fld := ⟨0x40013000, 24, 8, 0⟩
def DMD.ID.VERSION : Fld := ⟨0x40013000, 16, 8, 0⟩
def DMD.ID.INSTANCES : Fld := ⟨0x40013000, 8, 8, 0⟩
def DMD.CAPS : Fld := ⟨0x40013004, 0, 32, 0⟩
def DMD.CAPS.C : Fld := ⟨0x40013004, 0, 32, 0⟩
def DMD.CTRL : Fld := ⟨0x40013008, 0, 32, 0⟩
def DMD.CTRL.L0NARROW : Fld := ⟨0x40013008, 0, 1, 0⟩
def DMD.STAT : Fld := ⟨0x4001300C, 0, 32, 0⟩
def DMD.STAT.HOLDN : Fld := ⟨0x4001300C, 8, 8, 0⟩
def DMD.STAT.INPROG : Fld := ⟨0x4001300C, 0, 8, 0⟩
def DMD.STICKY : Fld := ⟨0x40013010, 0, 32, 0⟩
def DMD.STICKY.RSVD : Fld := ⟨0x40013010, 31, 1, 0⟩
def DMD.STICKY.LOCKV : Fld := ⟨0x40013010, 30, 1, 0⟩
def DMD.STICKY.DFERST : Fld := ⟨0x40013010, 5, 1, 0⟩
def DMD.STICKY.FCSERR : Fld := ⟨0x40013010, 4, 1, 0⟩
def DMD.STICKY.PHRERR : Fld := ⟨0x40013010, 3, 1, 0⟩
def DMD.STICKY.BUFBUSY : Fld := ⟨0x40013010, 2, 1, 0⟩
def DMD.STICKY.NOLANE : Fld := ⟨0x40013010, 1, 1, 0⟩
def DMD.STICKY.CLIP : Fld := ⟨0x40013010, 0, 1, 0⟩
def DMD.IRQEN : Fld := ⟨0x40013014, 0, 32, 0⟩
def DMD.FLTEN : Fld := ⟨0x40013018, 0, 32, 0⟩
def DMD.LOCK : Fld := ⟨0x4001301C, 0, 32, 0⟩
def DMD.LOCK.VAL : Fld := ⟨0x4001301C, 0, 1, 0⟩
def DMD.SFDCFG : Fld := ⟨0x40013040, 0, 32, 0⟩
def DMD.SFDCFG.MAXLEN : Fld := ⟨0x40013040, 16, 11, 0⟩
def DMD.SFDCFG.SFDERR : Fld := ⟨0x40013040, 0, 2, 0⟩
def DMD.TRACK : Fld := ⟨0x40013044, 0, 32, 0⟩
def DMD.TRACK.TMTK : Fld := ⟨0x40013044, 4, 4, 0⟩
def DMD.TRACK.FOTK : Fld := ⟨0x40013044, 0, 4, 0⟩
def DMD.RSSICAL : Fld := ⟨0x40013048, 0, 32, 0⟩
def DMD.RSSICAL.P1 : Fld := ⟨0x40013048, 8, 8, 0⟩
def DMD.RSSICAL.P0 : Fld := ⟨0x40013048, 0, 8, 0⟩
def DMD.NOLANE : Fld := ⟨0x4001304C, 0, 32, 0⟩
def DMD.NOLANE.CNT : Fld := ⟨0x4001304C, 0, 16, 0⟩
def DMD.CNTSEL : Fld := ⟨0x40013050, 0, 32, 0⟩
def DMD.CNTSEL.LANE : Fld := ⟨0x40013050, 0, 7, 0⟩
def DMD.CNTCLR : Fld := ⟨0x40013054, 0, 32, 0⟩
def DMD.CNTCLR.ALL : Fld := ⟨0x40013054, 31, 1, 0⟩
def DMD.CNTCLR.LANE : Fld := ⟨0x40013054, 0, 7, 0⟩
def DMD.CNT : Fld := ⟨0x40013058, 0, 32, 4⟩
def DMD.CNT.HI : Fld := ⟨0x40013058, 16, 16, 4⟩
def DMD.CNT.LO : Fld := ⟨0x40013058, 0, 16, 4⟩
def DMD.TAPSEL : Fld := ⟨0x40013070, 0, 32, 0⟩
def DMD.TAPSEL.LANE : Fld := ⟨0x40013070, 0, 7, 0⟩
def DMD.TAP : Fld := ⟨0x40013074, 0, 32, 4⟩
def DMD.TAP.HI : Fld := ⟨0x40013074, 16, 16, 4⟩
def DMD.TAP.LO : Fld := ⟨0x40013074, 0, 16, 4⟩
def DMD.LCFG : Fld := ⟨0x40013200, 0, 32, 4⟩
def DMD.LCFG.EN : Fld := ⟨0x40013200, 31, 1, 4⟩
def DMD.LCFG.SCHED : Fld := ⟨0x40013200, 30, 1, 4⟩
def DMD.LCFG.VI : Fld := ⟨0x40013200, 26, 4, 4⟩
def DMD.LCFG.WIN : Fld := ⟨0x40013200, 24, 2, 4⟩
def DMD.LCFG.MODE : Fld := ⟨0x40013200, 20, 4, 4⟩
def DMD.LCFG.MIDX : Fld := ⟨0x40013200, 18, 2, 4⟩
def DMD.LCFG.FECEN : Fld := ⟨0x40013200, 17, 1, 4⟩
def DMD.LCFG.SFDSEL : Fld := ⟨0x40013200, 16, 1, 4⟩
def DMD.LCFG.PLAN : Fld := ⟨0x40013200, 11, 2, 4⟩
def DMD.LCFG.CHAN : Fld := ⟨0x40013200, 0, 11, 4⟩
def DMD.LFIND : Fld := ⟨0x40013400, 0, 32, 4⟩
def DMD.LFIND.RSSITH : Fld := ⟨0x40013400, 24, 8, 4⟩
def DMD.LFIND.EDLEN : Fld := ⟨0x40013400, 22, 2, 4⟩
def DMD.LFIND.QUALN : Fld := ⟨0x40013400, 16, 6, 4⟩
def DMD.LFIND.QUALTH : Fld := ⟨0x40013400, 8, 8, 4⟩
def DMD.LFIND.SFDTO : Fld := ⟨0x40013400, 0, 8, 4⟩
def DMD.LDFE : Fld := ⟨0x40013600, 0, 32, 4⟩
def DMD.LDFE.MUFT : Fld := ⟨0x40013600, 28, 4, 4⟩
def DMD.LDFE.MUBT : Fld := ⟨0x40013600, 24, 4, 4⟩
def DMD.LDFE.MUFD : Fld := ⟨0x40013600, 20, 4, 4⟩
def DMD.LDFE.MUBD : Fld := ⟨0x40013600, 16, 4, 4⟩
def DMD.LDFE.DIVTH : Fld := ⟨0x40013600, 8, 8, 4⟩
def DMD.LDFE.DFEMODE : Fld := ⟨0x40013600, 0, 2, 4⟩
def DMD.LSTAT : Fld := ⟨0x40013800, 0, 32, 4⟩
def DMD.LSTAT.STATE : Fld := ⟨0x40013800, 29, 3, 4⟩
def DMD.LSTAT.BUFA : Fld := ⟨0x40013800, 28, 1, 4⟩
def DMD.LSTAT.BUFB : Fld := ⟨0x40013800, 27, 1, 4⟩
def DMD.LSTAT.CLIPM : Fld := ⟨0x40013800, 26, 1, 4⟩
def DMD.LSTAT.LQI : Fld := ⟨0x40013800, 16, 8, 4⟩
def DMD.LSTAT.RSSI : Fld := ⟨0x40013800, 8, 8, 4⟩
def DMD.LSTAT.FO : Fld := ⟨0x40013800, 0, 8, 4⟩

def DMD.table : List RegDesc :=
[⟨0x000, 1, 0, 0x13030100, .shared, [⟨24, 8, .ro, .any⟩, ⟨16, 8, .ro, .any⟩, ⟨8, 8, .ro, .any⟩]⟩,
   ⟨0x004, 1, 0, 0x00000080, .shared, [⟨0, 32, .ro, .any⟩]⟩,
   ⟨0x008, 1, 0, 0x00000000, .shared, [⟨0, 1, .rw, .any⟩]⟩,
   ⟨0x00C, 1, 0, 0x00000000, .shared, [⟨8, 8, .ro, .any⟩, ⟨0, 8, .ro, .any⟩]⟩,
   ⟨0x010, 1, 0, 0x00000000, .shared, [⟨31, 1, .w1c, .any⟩, ⟨30, 1, .w1c, .any⟩, ⟨5, 1, .w1c, .any⟩, ⟨4, 1, .w1c, .any⟩, ⟨3, 1, .w1c, .any⟩, ⟨2, 1, .w1c, .any⟩, ⟨1, 1, .w1c, .any⟩, ⟨0, 1, .w1c, .any⟩]⟩,
   ⟨0x014, 1, 0, 0x00000000, .shared, [⟨0, 32, .rw, .any⟩]⟩,
   ⟨0x018, 1, 0, 0x00000006, .shared, [⟨0, 32, .rw, .any⟩]⟩,
   ⟨0x01C, 1, 0, 0x00000000, .shared, [⟨0, 1, .w1s, .any⟩]⟩,
   ⟨0x040, 1, 0, 0x07FF0001, .shared, [⟨16, 11, .rw, .range 5 2047⟩, ⟨0, 2, .rw, .any⟩]⟩,
   ⟨0x044, 1, 0, 0x00000056, .shared, [⟨4, 4, .rw, .range 3 10⟩, ⟨0, 4, .rw, .range 4 12⟩]⟩,
   ⟨0x048, 1, 0, 0x00000000, .shared, [⟨8, 8, .ro, .any⟩, ⟨0, 8, .ro, .any⟩]⟩,
   ⟨0x04C, 1, 0, 0x00000000, .shared, [⟨0, 16, .ro, .any⟩]⟩,
   ⟨0x050, 1, 0, 0x00000000, .perIni, [⟨0, 7, .rw, .any⟩]⟩,
   ⟨0x054, 1, 0, 0x00000000, .shared, [⟨31, 1, .wo, .any⟩, ⟨0, 7, .wo, .any⟩]⟩,
   ⟨0x058, 5, 4, 0x00000000, .shared, [⟨16, 16, .ro, .any⟩, ⟨0, 16, .ro, .any⟩]⟩,
   ⟨0x070, 1, 0, 0x00000000, .perIni, [⟨0, 7, .rw, .any⟩]⟩,
   ⟨0x074, 5, 4, 0x00000000, .shared, [⟨16, 16, .ro, .any⟩, ⟨0, 16, .ro, .any⟩]⟩,
   ⟨0x200, 128, 4, 0x000A0000, .shared, [⟨31, 1, .rw, .any⟩, ⟨30, 1, .rw, .any⟩, ⟨26, 4, .rw, .any⟩, ⟨24, 2, .rw, .any⟩, ⟨20, 4, .rw, .range 0 12⟩, ⟨18, 2, .rw, .range 0 2⟩, ⟨17, 1, .rw, .any⟩, ⟨16, 1, .rw, .any⟩, ⟨11, 2, .rw, .any⟩, ⟨0, 11, .rw, .any⟩]⟩,
   ⟨0x400, 128, 4, 0x9C5FA060, .shared, [⟨24, 8, .rw, .any⟩, ⟨22, 2, .rw, .any⟩, ⟨16, 6, .rw, .range 7 63⟩, ⟨8, 8, .rw, .any⟩, ⟨0, 8, .rw, .range 1 255⟩]⟩,
   ⟨0x600, 128, 4, 0x679A4002, .shared, [⟨28, 4, .rw, .range 2 15⟩, ⟨24, 4, .rw, .range 2 15⟩, ⟨20, 4, .rw, .range 2 15⟩, ⟨16, 4, .rw, .range 2 15⟩, ⟨8, 8, .rw, .any⟩, ⟨0, 2, .rw, .range 0 2⟩]⟩]
  ++ [⟨0x800, 128, 4, 0x00000000, .shared, [⟨29, 3, .ro, .any⟩, ⟨28, 1, .ro, .any⟩, ⟨27, 1, .ro, .any⟩, ⟨26, 1, .ro, .any⟩, ⟨16, 8, .ro, .any⟩, ⟨8, 8, .ro, .any⟩, ⟨0, 8, .ro, .any⟩]⟩]

/-! Page FEC, code 0x14 (R40). -/

def FEC.ID : Fld := ⟨0x40014000, 0, 32, 0⟩
def FEC.ID.CODE : Fld := ⟨0x40014000, 24, 8, 0⟩
def FEC.ID.VERSION : Fld := ⟨0x40014000, 16, 8, 0⟩
def FEC.ID.INSTANCES : Fld := ⟨0x40014000, 8, 8, 0⟩
def FEC.CAPS : Fld := ⟨0x40014004, 0, 32, 0⟩
def FEC.CAPS.C : Fld := ⟨0x40014004, 0, 32, 0⟩
def FEC.CTRL : Fld := ⟨0x40014008, 0, 32, 0⟩
def FEC.STAT : Fld := ⟨0x4001400C, 0, 32, 0⟩
def FEC.STICKY : Fld := ⟨0x40014010, 0, 32, 0⟩
def FEC.STICKY.RSVD : Fld := ⟨0x40014010, 31, 1, 0⟩
def FEC.STICKY.LOCKV : Fld := ⟨0x40014010, 30, 1, 0⟩
def FEC.STICKY.TAILERR : Fld := ⟨0x40014010, 0, 1, 0⟩
def FEC.IRQEN : Fld := ⟨0x40014014, 0, 32, 0⟩
def FEC.FLTEN : Fld := ⟨0x40014018, 0, 32, 0⟩
def FEC.LOCK : Fld := ⟨0x4001401C, 0, 32, 0⟩
def FEC.LOCK.VAL : Fld := ⟨0x4001401C, 0, 1, 0⟩
def FEC.RSCMAP : Fld := ⟨0x40014040, 0, 32, 4⟩
def FEC.RSCMAP.L : Fld := ⟨0x40014040, 0, 32, 4⟩
def FEC.ILVMAP : Fld := ⟨0x40014050, 0, 32, 4⟩
def FEC.ILVMAP.L : Fld := ⟨0x40014050, 0, 32, 4⟩
def FEC.DCFG : Fld := ⟨0x40014060, 0, 32, 0⟩
def FEC.DCFG.SOFTK : Fld := ⟨0x40014060, 0, 3, 0⟩
def FEC.LANESEL : Fld := ⟨0x40014064, 0, 32, 0⟩
def FEC.LANESEL.LANE : Fld := ⟨0x40014064, 0, 7, 0⟩
def FEC.CODEDFR : Fld := ⟨0x40014068, 0, 32, 0⟩
def FEC.CODEDFR.CNT : Fld := ⟨0x40014068, 0, 16, 0⟩
def FEC.CBDIFF : Fld := ⟨0x4001406C, 0, 32, 0⟩
def FEC.CBDIFF.CNT : Fld := ⟨0x4001406C, 0, 32, 0⟩

def FEC.table : List RegDesc :=
[⟨0x000, 1, 0, 0x14030100, .shared, [⟨24, 8, .ro, .any⟩, ⟨16, 8, .ro, .any⟩, ⟨8, 8, .ro, .any⟩]⟩,
   ⟨0x004, 1, 0, 0x00000003, .shared, [⟨0, 32, .ro, .any⟩]⟩,
   ⟨0x008, 1, 0, 0x00000000, .shared, []⟩,
   ⟨0x00C, 1, 0, 0x00000000, .shared, []⟩,
   ⟨0x010, 1, 0, 0x00000000, .shared, [⟨31, 1, .w1c, .any⟩, ⟨30, 1, .w1c, .any⟩, ⟨0, 1, .w1c, .any⟩]⟩,
   ⟨0x014, 1, 0, 0x00000000, .shared, [⟨0, 32, .rw, .any⟩]⟩,
   ⟨0x018, 1, 0, 0x00000000, .shared, [⟨0, 32, .rw, .any⟩]⟩,
   ⟨0x01C, 1, 0, 0x00000000, .shared, [⟨0, 1, .w1s, .any⟩]⟩,
   ⟨0x040, 4, 4, 0x00000000, .shared, [⟨0, 32, .rw, .any⟩]⟩,
   ⟨0x050, 4, 4, 0xFFFFFFFF, .shared, [⟨0, 32, .rw, .any⟩]⟩,
   ⟨0x060, 1, 0, 0x00000004, .shared, [⟨0, 3, .rw, .range 1 7⟩]⟩,
   ⟨0x064, 1, 0, 0x00000000, .perIni, [⟨0, 7, .rw, .any⟩]⟩,
   ⟨0x068, 1, 0, 0x00000000, .shared, [⟨0, 16, .ro, .any⟩]⟩,
   ⟨0x06C, 1, 0, 0x00000000, .shared, [⟨0, 32, .ro, .any⟩]⟩]

/-! Page TXP, code 0x15 (R40). -/

def TXP.ID : Fld := ⟨0x40015000, 0, 32, 0⟩
def TXP.ID.CODE : Fld := ⟨0x40015000, 24, 8, 0⟩
def TXP.ID.VERSION : Fld := ⟨0x40015000, 16, 8, 0⟩
def TXP.ID.INSTANCES : Fld := ⟨0x40015000, 8, 8, 0⟩
def TXP.CAPS : Fld := ⟨0x40015004, 0, 32, 0⟩
def TXP.CAPS.C : Fld := ⟨0x40015004, 0, 32, 0⟩
def TXP.CTRL : Fld := ⟨0x40015008, 0, 32, 0⟩
def TXP.STAT : Fld := ⟨0x4001500C, 0, 32, 0⟩
def TXP.STAT.BUF1 : Fld := ⟨0x4001500C, 4, 2, 0⟩
def TXP.STAT.BUF0 : Fld := ⟨0x4001500C, 2, 2, 0⟩
def TXP.STAT.BUSY1 : Fld := ⟨0x4001500C, 1, 1, 0⟩
def TXP.STAT.BUSY0 : Fld := ⟨0x4001500C, 0, 1, 0⟩
def TXP.STICKY : Fld := ⟨0x40015010, 0, 32, 0⟩
def TXP.STICKY.RSVD : Fld := ⟨0x40015010, 31, 1, 0⟩
def TXP.STICKY.LOCKV : Fld := ⟨0x40015010, 30, 1, 0⟩
def TXP.STICKY.ACKSKIP : Fld := ⟨0x40015010, 5, 1, 0⟩
def TXP.STICKY.DBUSY : Fld := ⟨0x40015010, 4, 1, 0⟩
def TXP.STICKY.NOBUF : Fld := ⟨0x40015010, 3, 1, 0⟩
def TXP.STICKY.SHAPEBAD : Fld := ⟨0x40015010, 2, 1, 0⟩
def TXP.STICKY.MASKVIO : Fld := ⟨0x40015010, 1, 1, 0⟩
def TXP.STICKY.MASKAB : Fld := ⟨0x40015010, 0, 1, 0⟩
def TXP.IRQEN : Fld := ⟨0x40015014, 0, 32, 0⟩
def TXP.FLTEN : Fld := ⟨0x40015018, 0, 32, 0⟩
def TXP.LOCK : Fld := ⟨0x4001501C, 0, 32, 0⟩
def TXP.LOCK.VAL : Fld := ⟨0x4001501C, 0, 1, 0⟩
def TXP.CMASK1 : Fld := ⟨0x40015040, 0, 32, 64⟩
def TXP.CMASK1.LIM : Fld := ⟨0x40015040, 24, 8, 64⟩
def TXP.CMASK1.OFF : Fld := ⟨0x40015040, 12, 12, 64⟩
def TXP.CMASK1.MBW : Fld := ⟨0x40015040, 0, 12, 64⟩
def TXP.CMASK2 : Fld := ⟨0x40015044, 0, 32, 64⟩
def TXP.CMASK2.LIM : Fld := ⟨0x40015044, 24, 8, 64⟩
def TXP.CMASK2.OFF : Fld := ⟨0x40015044, 12, 12, 64⟩
def TXP.CMASK2.MBW : Fld := ⟨0x40015044, 0, 12, 64⟩
def TXP.CMCFG : Fld := ⟨0x40015048, 0, 32, 64⟩
def TXP.CMCFG.MWIN : Fld := ⟨0x40015048, 8, 8, 64⟩
def TXP.CMCFG.ACTION : Fld := ⟨0x40015048, 0, 2, 64⟩
def TXP.CMEAS : Fld := ⟨0x4001504C, 0, 32, 64⟩
def TXP.CMEAS.PAIR2 : Fld := ⟨0x4001504C, 8, 8, 64⟩
def TXP.CMEAS.PAIR1 : Fld := ⟨0x4001504C, 0, 8, 64⟩
def TXP.CDW0 : Fld := ⟨0x40015050, 0, 32, 64⟩
def TXP.CDW0.POWER : Fld := ⟨0x40015050, 24, 8, 64⟩
def TXP.CDW0.PLAN : Fld := ⟨0x40015050, 22, 2, 64⟩
def TXP.CDW0.CHAN : Fld := ⟨0x40015050, 11, 11, 64⟩
def TXP.CDW0.LEN : Fld := ⟨0x40015050, 0, 11, 64⟩
def TXP.CDW1 : Fld := ⟨0x40015054, 0, 32, 64⟩
def TXP.CDW1.PRELEN : Fld := ⟨0x40015054, 22, 10, 64⟩
def TXP.CDW1.SHAPE : Fld := ⟨0x40015054, 21, 1, 64⟩
def TXP.CDW1.FCS2 : Fld := ⟨0x40015054, 20, 1, 64⟩
def TXP.CDW1.WHITEN : Fld := ⟨0x40015054, 19, 1, 64⟩
def TXP.CDW1.ILV : Fld := ⟨0x40015054, 18, 1, 64⟩
def TXP.CDW1.RSC : Fld := ⟨0x40015054, 17, 1, 64⟩
def TXP.CDW1.FEC : Fld := ⟨0x40015054, 16, 1, 64⟩
def TXP.CDW1.SFDSEL : Fld := ⟨0x40015054, 15, 1, 64⟩
def TXP.CDW1.MIDX : Fld := ⟨0x40015054, 13, 2, 64⟩
def TXP.CDW1.MODE : Fld := ⟨0x40015054, 9, 4, 64⟩
def TXP.CDADDR : Fld := ⟨0x40015058, 0, 32, 64⟩
def TXP.CDADDR.ADDR : Fld := ⟨0x40015058, 3, 17, 64⟩
def TXP.CDSTART : Fld := ⟨0x4001505C, 0, 32, 64⟩
def TXP.CDSTART.TB : Fld := ⟨0x4001505C, 0, 32, 64⟩
def TXP.CDCTRL : Fld := ⟨0x40015060, 0, 32, 64⟩
def TXP.CDCTRL.KIND : Fld := ⟨0x40015060, 2, 2, 64⟩
def TXP.CDCTRL.NOW : Fld := ⟨0x40015060, 1, 1, 64⟩
def TXP.CDCTRL.GO : Fld := ⟨0x40015060, 0, 1, 64⟩
def TXP.CDSTAT : Fld := ⟨0x40015064, 0, 32, 64⟩
def TXP.CDSTAT.ARMED : Fld := ⟨0x40015064, 31, 1, 64⟩
def TXP.CDSTAT.RUN : Fld := ⟨0x40015064, 30, 1, 64⟩
def TXP.CDSTAT.DONE : Fld := ⟨0x40015064, 29, 1, 64⟩
def TXP.CDSTAT.STATUS : Fld := ⟨0x40015064, 0, 8, 64⟩
def TXP.CDSTAMP : Fld := ⟨0x40015068, 0, 32, 64⟩
def TXP.CDSTAMP.TB : Fld := ⟨0x40015068, 6, 26, 64⟩
def TXP.CDSTAMP.FINE : Fld := ⟨0x40015068, 0, 6, 64⟩
def TXP.CWAKE : Fld := ⟨0x4001506C, 0, 32, 64⟩
def TXP.CWAKE.CODE : Fld := ⟨0x4001506C, 16, 16, 64⟩
def TXP.CWAKE.GROUP : Fld := ⟨0x4001506C, 8, 8, 64⟩
def TXP.CWAKE.WREP : Fld := ⟨0x4001506C, 0, 8, 64⟩
def TXP.CFIRSUM : Fld := ⟨0x40015070, 0, 32, 64⟩
def TXP.CFIRSUM.SET1 : Fld := ⟨0x40015070, 16, 16, 64⟩
def TXP.CFIRSUM.SET0 : Fld := ⟨0x40015070, 0, 16, 64⟩
def TXP.C0S0LO : Fld := ⟨0x40015200, 0, 32, 4⟩
def TXP.C0S0LO.HI : Fld := ⟨0x40015200, 16, 16, 4⟩
def TXP.C0S0LO.LO : Fld := ⟨0x40015200, 0, 16, 4⟩
def TXP.C0S0MID : Fld := ⟨0x40015220, 0, 32, 4⟩
def TXP.C0S0MID.HI : Fld := ⟨0x40015220, 16, 16, 4⟩
def TXP.C0S0MID.LO : Fld := ⟨0x40015220, 0, 16, 4⟩
def TXP.C0S0HI : Fld := ⟨0x40015224, 0, 32, 4⟩
def TXP.C0S0HI.HI : Fld := ⟨0x40015224, 16, 16, 4⟩
def TXP.C0S0HI.LO : Fld := ⟨0x40015224, 0, 16, 4⟩
def TXP.C0S1LO : Fld := ⟨0x40015240, 0, 32, 4⟩
def TXP.C0S1LO.HI : Fld := ⟨0x40015240, 16, 16, 4⟩
def TXP.C0S1LO.LO : Fld := ⟨0x40015240, 0, 16, 4⟩
def TXP.C0S1MID : Fld := ⟨0x40015260, 0, 32, 4⟩
def TXP.C0S1MID.HI : Fld := ⟨0x40015260, 16, 16, 4⟩
def TXP.C0S1MID.LO : Fld := ⟨0x40015260, 0, 16, 4⟩
def TXP.C0S1HI : Fld := ⟨0x40015264, 0, 32, 4⟩
def TXP.C0S1HI.HI : Fld := ⟨0x40015264, 16, 16, 4⟩
def TXP.C0S1HI.LO : Fld := ⟨0x40015264, 0, 16, 4⟩
def TXP.C1S0LO : Fld := ⟨0x40015280, 0, 32, 4⟩
def TXP.C1S0LO.HI : Fld := ⟨0x40015280, 16, 16, 4⟩
def TXP.C1S0LO.LO : Fld := ⟨0x40015280, 0, 16, 4⟩
def TXP.C1S0MID : Fld := ⟨0x400152A0, 0, 32, 4⟩
def TXP.C1S0MID.HI : Fld := ⟨0x400152A0, 16, 16, 4⟩
def TXP.C1S0MID.LO : Fld := ⟨0x400152A0, 0, 16, 4⟩
def TXP.C1S0HI : Fld := ⟨0x400152A4, 0, 32, 4⟩
def TXP.C1S0HI.HI : Fld := ⟨0x400152A4, 16, 16, 4⟩
def TXP.C1S0HI.LO : Fld := ⟨0x400152A4, 0, 16, 4⟩
def TXP.C1S1LO : Fld := ⟨0x400152C0, 0, 32, 4⟩
def TXP.C1S1LO.HI : Fld := ⟨0x400152C0, 16, 16, 4⟩
def TXP.C1S1LO.LO : Fld := ⟨0x400152C0, 0, 16, 4⟩
def TXP.C1S1MID : Fld := ⟨0x400152E0, 0, 32, 4⟩
def TXP.C1S1MID.HI : Fld := ⟨0x400152E0, 16, 16, 4⟩
def TXP.C1S1MID.LO : Fld := ⟨0x400152E0, 0, 16, 4⟩
def TXP.C1S1HI : Fld := ⟨0x400152E4, 0, 32, 4⟩
def TXP.C1S1HI.HI : Fld := ⟨0x400152E4, 16, 16, 4⟩
def TXP.C1S1HI.LO : Fld := ⟨0x400152E4, 0, 16, 4⟩

def TXP.table : List RegDesc :=
[⟨0x000, 1, 0, 0x15030100, .shared, [⟨24, 8, .ro, .any⟩, ⟨16, 8, .ro, .any⟩, ⟨8, 8, .ro, .any⟩]⟩,
   ⟨0x004, 1, 0, 0x00000022, .shared, [⟨0, 32, .ro, .any⟩]⟩,
   ⟨0x008, 1, 0, 0x00000000, .shared, []⟩,
   ⟨0x00C, 1, 0, 0x00000000, .shared, [⟨4, 2, .ro, .any⟩, ⟨2, 2, .ro, .any⟩, ⟨1, 1, .ro, .any⟩, ⟨0, 1, .ro, .any⟩]⟩,
   ⟨0x010, 1, 0, 0x00000000, .shared, [⟨31, 1, .w1c, .any⟩, ⟨30, 1, .w1c, .any⟩, ⟨5, 1, .w1c, .any⟩, ⟨4, 1, .w1c, .any⟩, ⟨3, 1, .w1c, .any⟩, ⟨2, 1, .w1c, .any⟩, ⟨1, 1, .w1c, .any⟩, ⟨0, 1, .w1c, .any⟩]⟩,
   ⟨0x014, 1, 0, 0x00000000, .shared, [⟨0, 32, .rw, .any⟩]⟩,
   ⟨0x018, 1, 0, 0x00000005, .shared, [⟨0, 32, .rw, .any⟩]⟩,
   ⟨0x01C, 1, 0, 0x00000000, .shared, [⟨0, 1, .w1s, .any⟩]⟩,
   ⟨0x040, 2, 64, 0xEC1900C8, .shared, [⟨24, 8, .rw, .any⟩, ⟨12, 12, .rw, .range 1 4095⟩, ⟨0, 12, .rw, .range 1 4095⟩]⟩,
   ⟨0x044, 2, 64, 0xD83200C8, .shared, [⟨24, 8, .rw, .any⟩, ⟨12, 12, .rw, .range 1 4095⟩, ⟨0, 12, .rw, .range 1 4095⟩]⟩,
   ⟨0x048, 2, 64, 0x00000A01, .shared, [⟨8, 8, .rw, .range 1 255⟩, ⟨0, 2, .rw, .range 0 2⟩]⟩,
   ⟨0x04C, 2, 64, 0x00000000, .shared, [⟨8, 8, .ro, .any⟩, ⟨0, 8, .ro, .any⟩]⟩,
   ⟨0x050, 2, 64, 0x00000000, .shared, [⟨24, 8, .rw, .any⟩, ⟨22, 2, .rw, .any⟩, ⟨11, 11, .rw, .any⟩, ⟨0, 11, .rw, .any⟩]⟩,
   ⟨0x054, 2, 64, 0x00000000, .shared, [⟨22, 10, .rw, .any⟩, ⟨21, 1, .rw, .any⟩, ⟨20, 1, .rw, .any⟩, ⟨19, 1, .rw, .any⟩, ⟨18, 1, .rw, .any⟩, ⟨17, 1, .rw, .any⟩, ⟨16, 1, .rw, .any⟩, ⟨15, 1, .rw, .any⟩, ⟨13, 2, .rw, .any⟩, ⟨9, 4, .rw, .any⟩]⟩,
   ⟨0x058, 2, 64, 0x00000000, .shared, [⟨3, 17, .rw, .any⟩]⟩,
   ⟨0x05C, 2, 64, 0x00000000, .shared, [⟨0, 32, .rw, .any⟩]⟩,
   ⟨0x060, 2, 64, 0x00000000, .shared, [⟨2, 2, .rw, .range 0 1⟩, ⟨1, 1, .rw, .any⟩, ⟨0, 1, .w1s, .any⟩]⟩,
   ⟨0x064, 2, 64, 0x00000000, .shared, [⟨31, 1, .ro, .any⟩, ⟨30, 1, .ro, .any⟩, ⟨29, 1, .ro, .any⟩, ⟨0, 8, .ro, .any⟩]⟩,
   ⟨0x068, 2, 64, 0x00000000, .shared, [⟨6, 26, .ro, .any⟩, ⟨0, 6, .ro, .any⟩]⟩,
   ⟨0x06C, 2, 64, 0x00000001, .shared, [⟨16, 16, .rw, .any⟩, ⟨8, 8, .rw, .any⟩, ⟨0, 8, .rw, .range 1 255⟩]⟩]
  ++ [⟨0x070, 2, 64, 0x40004000, .shared, [⟨16, 16, .ro, .any⟩, ⟨0, 16, .ro, .any⟩]⟩,
   ⟨0x200, 8, 4, 0x00000000, .shared, [⟨16, 16, .rw, .any⟩, ⟨0, 16, .rw, .any⟩]⟩,
   ⟨0x220, 1, 4, 0x00004000, .shared, [⟨16, 16, .rw, .any⟩, ⟨0, 16, .rw, .any⟩]⟩,
   ⟨0x224, 7, 4, 0x00000000, .shared, [⟨16, 16, .rw, .any⟩, ⟨0, 16, .rw, .any⟩]⟩,
   ⟨0x240, 8, 4, 0x00000000, .shared, [⟨16, 16, .rw, .any⟩, ⟨0, 16, .rw, .any⟩]⟩,
   ⟨0x260, 1, 4, 0x00004000, .shared, [⟨16, 16, .rw, .any⟩, ⟨0, 16, .rw, .any⟩]⟩,
   ⟨0x264, 7, 4, 0x00000000, .shared, [⟨16, 16, .rw, .any⟩, ⟨0, 16, .rw, .any⟩]⟩,
   ⟨0x280, 8, 4, 0x00000000, .shared, [⟨16, 16, .rw, .any⟩, ⟨0, 16, .rw, .any⟩]⟩,
   ⟨0x2A0, 1, 4, 0x00004000, .shared, [⟨16, 16, .rw, .any⟩, ⟨0, 16, .rw, .any⟩]⟩,
   ⟨0x2A4, 7, 4, 0x00000000, .shared, [⟨16, 16, .rw, .any⟩, ⟨0, 16, .rw, .any⟩]⟩,
   ⟨0x2C0, 8, 4, 0x00000000, .shared, [⟨16, 16, .rw, .any⟩, ⟨0, 16, .rw, .any⟩]⟩,
   ⟨0x2E0, 1, 4, 0x00004000, .shared, [⟨16, 16, .rw, .any⟩, ⟨0, 16, .rw, .any⟩]⟩,
   ⟨0x2E4, 7, 4, 0x00000000, .shared, [⟨16, 16, .rw, .any⟩, ⟨0, 16, .rw, .any⟩]⟩]

/-! Page FRM, code 0x16 (R40). -/

def FRM.ID : Fld := ⟨0x40016000, 0, 32, 0⟩
def FRM.ID.CODE : Fld := ⟨0x40016000, 24, 8, 0⟩
def FRM.ID.VERSION : Fld := ⟨0x40016000, 16, 8, 0⟩
def FRM.ID.INSTANCES : Fld := ⟨0x40016000, 8, 8, 0⟩
def FRM.CAPS : Fld := ⟨0x40016004, 0, 32, 0⟩
def FRM.CAPS.C : Fld := ⟨0x40016004, 0, 32, 0⟩
def FRM.CTRL : Fld := ⟨0x40016008, 0, 32, 0⟩
def FRM.STAT : Fld := ⟨0x4001600C, 0, 32, 0⟩
def FRM.STAT.HELD : Fld := ⟨0x4001600C, 16, 8, 0⟩
def FRM.STAT.PENDING : Fld := ⟨0x4001600C, 0, 16, 0⟩
def FRM.STICKY : Fld := ⟨0x40016010, 0, 32, 0⟩
def FRM.STICKY.RSVD : Fld := ⟨0x40016010, 31, 1, 0⟩
def FRM.STICKY.LOCKV : Fld := ⟨0x40016010, 30, 1, 0⟩
def FRM.STICKY.RXAVAIL : Fld := ⟨0x40016010, 5, 1, 0⟩
def FRM.STICKY.RINGERR : Fld := ⟨0x40016010, 4, 1, 0⟩
def FRM.STICKY.ACKSTRAY : Fld := ⟨0x40016010, 3, 1, 0⟩
def FRM.STICKY.HDRBAD : Fld := ⟨0x40016010, 2, 1, 0⟩
def FRM.STICKY.ACKMISS : Fld := ⟨0x40016010, 1, 1, 0⟩
def FRM.STICKY.RXDROP : Fld := ⟨0x40016010, 0, 1, 0⟩
def FRM.IRQEN : Fld := ⟨0x40016014, 0, 32, 0⟩
def FRM.FLTEN : Fld := ⟨0x40016018, 0, 32, 0⟩
def FRM.LOCK : Fld := ⟨0x4001601C, 0, 32, 0⟩
def FRM.LOCK.VAL : Fld := ⟨0x4001601C, 0, 1, 0⟩
def FRM.PANID : Fld := ⟨0x40016040, 0, 32, 0⟩
def FRM.PANID.PAN : Fld := ⟨0x40016040, 0, 16, 0⟩
def FRM.SHORT : Fld := ⟨0x40016044, 0, 32, 0⟩
def FRM.SHORT.ADDR : Fld := ⟨0x40016044, 0, 16, 0⟩
def FRM.EXTLO : Fld := ⟨0x40016048, 0, 32, 0⟩
def FRM.EXTLO.A : Fld := ⟨0x40016048, 0, 32, 0⟩
def FRM.EXTHI : Fld := ⟨0x4001604C, 0, 32, 0⟩
def FRM.EXTHI.A : Fld := ⟨0x4001604C, 0, 32, 0⟩
def FRM.FILT : Fld := ⟨0x40016050, 0, 32, 0⟩
def FRM.FILT.COORD : Fld := ⟨0x40016050, 2, 1, 0⟩
def FRM.FILT.BCNACC : Fld := ⟨0x40016050, 1, 1, 0⟩
def FRM.FILT.PROMISC : Fld := ⟨0x40016050, 0, 1, 0⟩
def FRM.ACKCFG : Fld := ⟨0x40016054, 0, 32, 0⟩
def FRM.ACKCFG.ACKPWR : Fld := ⟨0x40016054, 24, 8, 0⟩
def FRM.ACKCFG.PRELEN : Fld := ⟨0x40016054, 12, 10, 0⟩
def FRM.ACKCFG.ACKSHAPE : Fld := ⟨0x40016054, 1, 1, 0⟩
def FRM.ACKCFG.ACKEN : Fld := ⟨0x40016054, 0, 1, 0⟩
def FRM.KMAP : Fld := ⟨0x40016058, 0, 32, 4⟩
def FRM.KMAP.V : Fld := ⟨0x40016058, 31, 1, 4⟩
def FRM.KMAP.KIDX : Fld := ⟨0x40016058, 8, 8, 4⟩
def FRM.KMAP.SLOT : Fld := ⟨0x40016058, 0, 6, 4⟩
def FRM.RINGBASE : Fld := ⟨0x40016080, 0, 32, 0⟩
def FRM.RINGBASE.OFF : Fld := ⟨0x40016080, 5, 15, 0⟩
def FRM.RINGCFG : Fld := ⟨0x40016084, 0, 32, 0⟩
def FRM.RINGCFG.EN : Fld := ⟨0x40016084, 31, 1, 0⟩
def FRM.RINGCFG.CELLSZ : Fld := ⟨0x40016084, 8, 2, 0⟩
def FRM.RINGCFG.LOG2N : Fld := ⟨0x40016084, 0, 4, 0⟩
def FRM.DATABASE : Fld := ⟨0x40016088, 0, 32, 0⟩
def FRM.DATABASE.OFF : Fld := ⟨0x40016088, 8, 12, 0⟩
def FRM.WRIDX : Fld := ⟨0x4001608C, 0, 32, 0⟩
def FRM.WRIDX.IDX : Fld := ⟨0x4001608C, 0, 10, 0⟩
def FRM.RDIDX : Fld := ⟨0x40016090, 0, 32, 0⟩
def FRM.RDIDX.IDX : Fld := ⟨0x40016090, 0, 10, 0⟩
def FRM.RXDROP : Fld := ⟨0x40016094, 0, 32, 0⟩
def FRM.RXDROP.CNT : Fld := ⟨0x40016094, 0, 16, 0⟩
def FRM.CNT0 : Fld := ⟨0x400160A0, 0, 32, 0⟩
def FRM.CNT0.ACKSENT : Fld := ⟨0x400160A0, 16, 16, 0⟩
def FRM.CNT0.ACKMISS : Fld := ⟨0x400160A0, 0, 16, 0⟩
def FRM.CNT1 : Fld := ⟨0x400160A4, 0, 32, 0⟩
def FRM.CNT1.HDRBAD : Fld := ⟨0x400160A4, 16, 16, 0⟩
def FRM.CNT1.ACKSTRAY : Fld := ⟨0x400160A4, 0, 16, 0⟩

def FRM.table : List RegDesc :=
[⟨0x000, 1, 0, 0x16030100, .shared, [⟨24, 8, .ro, .any⟩, ⟨16, 8, .ro, .any⟩, ⟨8, 8, .ro, .any⟩]⟩,
   ⟨0x004, 1, 0, 0x00000810, .shared, [⟨0, 32, .ro, .any⟩]⟩,
   ⟨0x008, 1, 0, 0x00000000, .shared, []⟩,
   ⟨0x00C, 1, 0, 0x00000000, .shared, [⟨16, 8, .ro, .any⟩, ⟨0, 16, .ro, .any⟩]⟩,
   ⟨0x010, 1, 0, 0x00000000, .shared, [⟨31, 1, .w1c, .any⟩, ⟨30, 1, .w1c, .any⟩, ⟨5, 1, .w1c, .any⟩, ⟨4, 1, .w1c, .any⟩, ⟨3, 1, .w1c, .any⟩, ⟨2, 1, .w1c, .any⟩, ⟨1, 1, .w1c, .any⟩, ⟨0, 1, .w1c, .any⟩]⟩,
   ⟨0x014, 1, 0, 0x00000000, .shared, [⟨0, 32, .rw, .any⟩]⟩,
   ⟨0x018, 1, 0, 0x00000010, .shared, [⟨0, 32, .rw, .any⟩]⟩,
   ⟨0x01C, 1, 0, 0x00000000, .shared, [⟨0, 1, .w1s, .any⟩]⟩,
   ⟨0x040, 1, 0, 0x0000FFFF, .perVi, [⟨0, 16, .rw, .any⟩]⟩,
   ⟨0x044, 1, 0, 0x0000FFFF, .perVi, [⟨0, 16, .rw, .any⟩]⟩,
   ⟨0x048, 1, 0, 0x00000000, .perVi, [⟨0, 32, .rw, .any⟩]⟩,
   ⟨0x04C, 1, 0, 0x00000000, .perVi, [⟨0, 32, .rw, .any⟩]⟩,
   ⟨0x050, 1, 0, 0x00000000, .perVi, [⟨2, 1, .rw, .any⟩, ⟨1, 1, .rw, .any⟩, ⟨0, 1, .rw, .any⟩]⟩,
   ⟨0x054, 1, 0, 0x1C008001, .perVi, [⟨24, 8, .rw, .any⟩, ⟨12, 10, .rw, .range 4 1000⟩, ⟨1, 1, .rw, .any⟩, ⟨0, 1, .rw, .any⟩]⟩,
   ⟨0x058, 8, 4, 0x00000000, .perVi, [⟨31, 1, .rw, .any⟩, ⟨8, 8, .rw, .any⟩, ⟨0, 6, .rw, .any⟩]⟩,
   ⟨0x080, 1, 0, 0x00000000, .perVi, [⟨5, 15, .rw, .any⟩]⟩,
   ⟨0x084, 1, 0, 0x00000004, .perVi, [⟨31, 1, .rw, .any⟩, ⟨8, 2, .rw, .any⟩, ⟨0, 4, .rw, .range 4 10⟩]⟩,
   ⟨0x088, 1, 0, 0x00000000, .perVi, [⟨8, 12, .rw, .any⟩]⟩,
   ⟨0x08C, 1, 0, 0x00000000, .perVi, [⟨0, 10, .ro, .any⟩]⟩,
   ⟨0x090, 1, 0, 0x00000000, .perVi, [⟨0, 10, .rw, .any⟩]⟩]
  ++ [⟨0x094, 1, 0, 0x00000000, .perVi, [⟨0, 16, .ro, .any⟩]⟩,
   ⟨0x0A0, 1, 0, 0x00000000, .shared, [⟨16, 16, .ro, .any⟩, ⟨0, 16, .ro, .any⟩]⟩,
   ⟨0x0A4, 1, 0, 0x00000000, .shared, [⟨16, 16, .ro, .any⟩, ⟨0, 16, .ro, .any⟩]⟩]

/-! Page SHU, code 0x17 (R40). -/

def SHU.ID : Fld := ⟨0x40017000, 0, 32, 0⟩
def SHU.ID.CODE : Fld := ⟨0x40017000, 24, 8, 0⟩
def SHU.ID.VERSION : Fld := ⟨0x40017000, 16, 8, 0⟩
def SHU.ID.INSTANCES : Fld := ⟨0x40017000, 8, 8, 0⟩
def SHU.CAPS : Fld := ⟨0x40017004, 0, 32, 0⟩
def SHU.CAPS.C : Fld := ⟨0x40017004, 0, 32, 0⟩
def SHU.CTRL : Fld := ⟨0x40017008, 0, 32, 0⟩
def SHU.CTRL.TVI : Fld := ⟨0x40017008, 4, 4, 0⟩
def SHU.CTRL.RUN : Fld := ⟨0x40017008, 0, 1, 0⟩
def SHU.STAT : Fld := ⟨0x4001700C, 0, 32, 0⟩
def SHU.STAT.NCELL : Fld := ⟨0x4001700C, 0, 9, 0⟩
def SHU.STICKY : Fld := ⟨0x40017010, 0, 32, 0⟩
def SHU.STICKY.RSVD : Fld := ⟨0x40017010, 31, 1, 0⟩
def SHU.STICKY.LOCKV : Fld := ⟨0x40017010, 30, 1, 0⟩
def SHU.STICKY.TXDONE : Fld := ⟨0x40017010, 8, 1, 0⟩
def SHU.STICKY.DUPEUI : Fld := ⟨0x40017010, 7, 1, 0⟩
def SHU.STICKY.COMPETE : Fld := ⟨0x40017010, 6, 1, 0⟩
def SHU.STICKY.FORMREF : Fld := ⟨0x40017010, 5, 1, 0⟩
def SHU.STICKY.BCNBAD : Fld := ⟨0x40017010, 4, 1, 0⟩
def SHU.STICKY.TXSECLATE : Fld := ⟨0x40017010, 3, 1, 0⟩
def SHU.STICKY.DONEOVF : Fld := ⟨0x40017010, 2, 1, 0⟩
def SHU.STICKY.PREEMPT : Fld := ⟨0x40017010, 1, 1, 0⟩
def SHU.STICKY.SLOTSKIP : Fld := ⟨0x40017010, 0, 1, 0⟩
def SHU.IRQEN : Fld := ⟨0x40017014, 0, 32, 0⟩
def SHU.FLTEN : Fld := ⟨0x40017018, 0, 32, 0⟩
def SHU.LOCK : Fld := ⟨0x4001701C, 0, 32, 0⟩
def SHU.LOCK.VAL : Fld := ⟨0x4001701C, 0, 1, 0⟩
def SHU.TPLA : Fld := ⟨0x40017040, 0, 32, 16⟩
def SHU.TPLA.TXOFF : Fld := ⟨0x40017040, 16, 16, 16⟩
def SHU.TPLA.RXOFF : Fld := ⟨0x40017040, 0, 16, 16⟩
def SHU.TPLB : Fld := ⟨0x40017044, 0, 32, 16⟩
def SHU.TPLB.RXWAIT : Fld := ⟨0x40017044, 16, 16, 16⟩
def SHU.TPLB.TXACKD : Fld := ⟨0x40017044, 0, 16, 16⟩
def SHU.TPLC : Fld := ⟨0x40017048, 0, 32, 16⟩
def SHU.TPLC.RXACKD : Fld := ⟨0x40017048, 16, 16, 16⟩
def SHU.TPLC.ACKWAIT : Fld := ⟨0x40017048, 0, 16, 16⟩
def SHU.TPLD : Fld := ⟨0x4001704C, 0, 32, 16⟩
def SHU.TPLD.PRELEN : Fld := ⟨0x4001704C, 0, 10, 16⟩
def SHU.GTAB : Fld := ⟨0x40017080, 0, 32, 4⟩
def SHU.GTAB.C3 : Fld := ⟨0x40017080, 24, 8, 4⟩
def SHU.GTAB.C2 : Fld := ⟨0x40017080, 16, 8, 4⟩
def SHU.GTAB.C1 : Fld := ⟨0x40017080, 8, 8, 4⟩
def SHU.GTAB.C0 : Fld := ⟨0x40017080, 0, 8, 4⟩
def SHU.GDEF : Fld := ⟨0x40017088, 0, 32, 0⟩
def SHU.GDEF.P1 : Fld := ⟨0x40017088, 8, 8, 0⟩
def SHU.GDEF.P0 : Fld := ⟨0x40017088, 0, 8, 0⟩
def SHU.BOFF : Fld := ⟨0x4001708C, 0, 32, 0⟩
def SHU.BOFF.MAXBE : Fld := ⟨0x4001708C, 4, 3, 0⟩
def SHU.BOFF.MINBE : Fld := ⟨0x4001708C, 0, 3, 0⟩
def SHU.TXSUB : Fld := ⟨0x40017090, 0, 32, 0⟩
def SHU.TXSUB.QSEL : Fld := ⟨0x40017090, 30, 2, 0⟩
def SHU.TXSUB.OFF : Fld := ⟨0x40017090, 3, 17, 0⟩
def SHU.TXDONE : Fld := ⟨0x40017094, 0, 32, 0⟩
def SHU.TXDONE.V : Fld := ⟨0x40017094, 31, 1, 0⟩
def SHU.TXDONE.STATUS : Fld := ⟨0x40017094, 20, 8, 0⟩
def SHU.TXDONE.OFF : Fld := ⟨0x40017094, 3, 17, 0⟩
def SHU.QCNT : Fld := ⟨0x40017098, 0, 32, 0⟩
def SHU.QCNT.DONELOST : Fld := ⟨0x40017098, 16, 16, 0⟩
def SHU.QCNT.QUEUED : Fld := ⟨0x40017098, 0, 16, 0⟩
def SHU.PREEMPT : Fld := ⟨0x4001709C, 0, 32, 0⟩
def SHU.PREEMPT.CNT : Fld := ⟨0x4001709C, 0, 16, 0⟩
def SHU.BCNCFG : Fld := ⟨0x400170A0, 0, 32, 0⟩
def SHU.BCNCFG.EN : Fld := ⟨0x400170A0, 31, 1, 0⟩
def SHU.BCNCFG.EBINT : Fld := ⟨0x400170A0, 16, 12, 0⟩
def SHU.BCNCFG.KEYSLOT : Fld := ⟨0x400170A0, 8, 6, 0⟩
def SHU.BCNCFG.JM : Fld := ⟨0x400170A0, 0, 8, 0⟩
def SHU.BCNLOC : Fld := ⟨0x400170A4, 0, 32, 0⟩
def SHU.BCNLOC.LEN : Fld := ⟨0x400170A4, 20, 11, 0⟩
def SHU.BCNLOC.ADDR : Fld := ⟨0x400170A4, 3, 17, 0⟩
def SHU.FORMCFG : Fld := ⟨0x400170A8, 0, 32, 0⟩
def SHU.FORMCFG.PRIO : Fld := ⟨0x400170A8, 24, 8, 0⟩
def SHU.FORMCFG.LF : Fld := ⟨0x400170A8, 16, 8, 0⟩
def SHU.FORMCFG.FNUM : Fld := ⟨0x400170A8, 8, 8, 0⟩
def SHU.FORMCFG.FPORT : Fld := ⟨0x400170A8, 0, 1, 0⟩
def SHU.FORMCH : Fld := ⟨0x400170AC, 0, 32, 0⟩
def SHU.FORMCH.PLAN : Fld := ⟨0x400170AC, 22, 2, 0⟩
def SHU.FORMCH.CHAN : Fld := ⟨0x400170AC, 11, 11, 0⟩
def SHU.FORMCH.MODE : Fld := ⟨0x400170AC, 7, 4, 0⟩
def SHU.FORMCH.MIDX : Fld := ⟨0x400170AC, 5, 2, 0⟩
def SHU.FORMCH.TPL : Fld := ⟨0x400170AC, 0, 2, 0⟩
def SHU.FORMOUI : Fld := ⟨0x400170B0, 0, 32, 0⟩
def SHU.FORMOUI.OUI : Fld := ⟨0x400170B0, 0, 24, 0⟩
def SHU.VICMD : Fld := ⟨0x400170B4, 0, 32, 0⟩
def SHU.VICMD.CMD : Fld := ⟨0x400170B4, 0, 2, 0⟩
def SHU.VISTAT : Fld := ⟨0x400170B8, 0, 32, 0⟩
def SHU.VISTAT.TSCTX : Fld := ⟨0x400170B8, 20, 12, 0⟩
def SHU.VISTAT.TSV : Fld := ⟨0x400170B8, 19, 1, 0⟩
def SHU.VISTAT.STATE : Fld := ⟨0x400170B8, 0, 3, 0⟩

def SHU.table : List RegDesc :=
[⟨0x000, 1, 0, 0x17030100, .shared, [⟨24, 8, .ro, .any⟩, ⟨16, 8, .ro, .any⟩, ⟨8, 8, .ro, .any⟩]⟩,
   ⟨0x004, 1, 0, 0x00000004, .shared, [⟨0, 32, .ro, .any⟩]⟩,
   ⟨0x008, 1, 0, 0x00000000, .shared, [⟨4, 4, .rwl, .any⟩, ⟨0, 1, .rw, .any⟩]⟩,
   ⟨0x00C, 1, 0, 0x00000000, .shared, [⟨0, 9, .ro, .any⟩]⟩,
   ⟨0x010, 1, 0, 0x00000000, .shared, [⟨31, 1, .w1c, .any⟩, ⟨30, 1, .w1c, .any⟩, ⟨8, 1, .w1c, .any⟩, ⟨7, 1, .w1c, .any⟩, ⟨6, 1, .w1c, .any⟩, ⟨5, 1, .w1c, .any⟩, ⟨4, 1, .w1c, .any⟩, ⟨3, 1, .w1c, .any⟩, ⟨2, 1, .w1c, .any⟩, ⟨1, 1, .w1c, .any⟩, ⟨0, 1, .w1c, .any⟩]⟩,
   ⟨0x014, 1, 0, 0x00000000, .shared, [⟨0, 32, .rw, .any⟩]⟩,
   ⟨0x018, 1, 0, 0x00000000, .shared, [⟨0, 32, .rw, .any⟩]⟩,
   ⟨0x01C, 1, 0, 0x00000000, .shared, [⟨0, 1, .w1s, .any⟩]⟩,
   ⟨0x040, 4, 16, 0x084803FC, .shared, [⟨16, 16, .rw, .any⟩, ⟨0, 16, .rw, .any⟩]⟩,
   ⟨0x044, 4, 16, 0x089803E8, .shared, [⟨16, 16, .rw, .any⟩, ⟨0, 16, .rw, .any⟩]⟩,
   ⟨0x048, 4, 16, 0x03200190, .shared, [⟨16, 16, .rw, .any⟩, ⟨0, 16, .rw, .any⟩]⟩,
   ⟨0x04C, 4, 16, 0x00000008, .shared, [⟨0, 10, .rw, .range 4 1000⟩]⟩,
   ⟨0x080, 2, 4, 0x000A141E, .shared, [⟨24, 8, .rw, .signed (-31) 30⟩, ⟨16, 8, .rw, .signed (-31) 30⟩, ⟨8, 8, .rw, .signed (-31) 30⟩, ⟨0, 8, .rw, .signed (-31) 30⟩]⟩,
   ⟨0x088, 1, 0, 0x00001E1E, .shared, [⟨8, 8, .rw, .signed (-31) 30⟩, ⟨0, 8, .rw, .signed (-31) 30⟩]⟩,
   ⟨0x08C, 1, 0, 0x00000071, .perVi, [⟨4, 3, .rw, .any⟩, ⟨0, 3, .rw, .any⟩]⟩,
   ⟨0x090, 1, 0, 0x00000000, .perVi, [⟨30, 2, .wo, .any⟩, ⟨3, 17, .wo, .any⟩]⟩,
   ⟨0x094, 1, 0, 0x00000000, .perVi, [⟨31, 1, .ro, .any⟩, ⟨20, 8, .ro, .any⟩, ⟨3, 17, .ro, .any⟩]⟩,
   ⟨0x098, 1, 0, 0x00000000, .perVi, [⟨16, 16, .ro, .any⟩, ⟨0, 16, .ro, .any⟩]⟩,
   ⟨0x09C, 1, 0, 0x00000000, .perVi, [⟨0, 16, .ro, .any⟩]⟩,
   ⟨0x0A0, 1, 0, 0x00640000, .perVi, [⟨31, 1, .rw, .any⟩, ⟨16, 12, .rw, .range 1 4095⟩, ⟨8, 6, .rw, .any⟩, ⟨0, 8, .rw, .any⟩]⟩]
  ++ [⟨0x0A4, 1, 0, 0x00000000, .perVi, [⟨20, 11, .rw, .any⟩, ⟨3, 17, .rw, .any⟩]⟩,
   ⟨0x0A8, 1, 0, 0x04110800, .perVi, [⟨24, 8, .rw, .any⟩, ⟨16, 8, .rw, .range 2 255⟩, ⟨8, 8, .rw, .range 1 255⟩, ⟨0, 1, .rw, .any⟩]⟩,
   ⟨0x0AC, 1, 0, 0x00000000, .perVi, [⟨22, 2, .rw, .any⟩, ⟨11, 11, .rw, .any⟩, ⟨7, 4, .rw, .range 0 12⟩, ⟨5, 2, .rw, .range 0 2⟩, ⟨0, 2, .rw, .any⟩]⟩,
   ⟨0x0B0, 1, 0, 0x00000000, .perVi, [⟨0, 24, .rw, .any⟩]⟩,
   ⟨0x0B4, 1, 0, 0x00000000, .perVi, [⟨0, 2, .wo, .any⟩]⟩,
   ⟨0x0B8, 1, 0, 0x00000000, .perVi, [⟨20, 12, .ro, .any⟩, ⟨19, 1, .ro, .any⟩, ⟨0, 3, .ro, .any⟩]⟩]

/-! Page PAT, code 0x18 (R40). -/

def PAT.ID : Fld := ⟨0x40018000, 0, 32, 0⟩
def PAT.ID.CODE : Fld := ⟨0x40018000, 24, 8, 0⟩
def PAT.ID.VERSION : Fld := ⟨0x40018000, 16, 8, 0⟩
def PAT.ID.INSTANCES : Fld := ⟨0x40018000, 8, 8, 0⟩
def PAT.CAPS : Fld := ⟨0x40018004, 0, 32, 0⟩
def PAT.CAPS.C : Fld := ⟨0x40018004, 0, 32, 0⟩
def PAT.CTRL : Fld := ⟨0x40018008, 0, 32, 0⟩
def PAT.STAT : Fld := ⟨0x4001800C, 0, 32, 0⟩
def PAT.STAT.EN : Fld := ⟨0x4001800C, 0, 32, 0⟩
def PAT.STICKY : Fld := ⟨0x40018010, 0, 32, 0⟩
def PAT.STICKY.RSVD : Fld := ⟨0x40018010, 31, 1, 0⟩
def PAT.STICKY.LOCKV : Fld := ⟨0x40018010, 30, 1, 0⟩
def PAT.STICKY.CELLOVF : Fld := ⟨0x40018010, 2, 1, 0⟩
def PAT.STICKY.ORDERR : Fld := ⟨0x40018010, 1, 1, 0⟩
def PAT.STICKY.SFERR : Fld := ⟨0x40018010, 0, 1, 0⟩
def PAT.IRQEN : Fld := ⟨0x40018014, 0, 32, 0⟩
def PAT.FLTEN : Fld := ⟨0x40018018, 0, 32, 0⟩
def PAT.LOCK : Fld := ⟨0x4001801C, 0, 32, 0⟩
def PAT.LOCK.VAL : Fld := ⟨0x4001801C, 0, 1, 0⟩
def PAT.TADDR : Fld := ⟨0x40018040, 0, 32, 0⟩
def PAT.TADDR.AREA : Fld := ⟨0x40018040, 30, 2, 0⟩
def PAT.TADDR.AINC : Fld := ⟨0x40018040, 29, 1, 0⟩
def PAT.TADDR.INDEX : Fld := ⟨0x40018040, 0, 13, 0⟩
def PAT.TDATA0 : Fld := ⟨0x40018044, 0, 32, 0⟩
def PAT.TDATA0.D : Fld := ⟨0x40018044, 0, 32, 0⟩
def PAT.TDATA1 : Fld := ⟨0x40018048, 0, 32, 0⟩
def PAT.TDATA1.D : Fld := ⟨0x40018048, 0, 32, 0⟩
def PAT.HOPLEN : Fld := ⟨0x40018050, 0, 32, 4⟩
def PAT.HOPLEN.N : Fld := ⟨0x40018050, 0, 9, 4⟩
def PAT.PRESET : Fld := ⟨0x40018060, 0, 32, 0⟩
def PAT.PRESET.GO : Fld := ⟨0x40018060, 31, 1, 0⟩
def PAT.PRESET.SF : Fld := ⟨0x40018060, 26, 5, 0⟩
def PAT.PRESET.CELL : Fld := ⟨0x40018060, 13, 13, 0⟩
def PAT.PRESET.PLAN : Fld := ⟨0x40018060, 11, 2, 0⟩
def PAT.PRESET.MODE : Fld := ⟨0x40018060, 7, 4, 0⟩
def PAT.PRESET.MIDX : Fld := ⟨0x40018060, 5, 2, 0⟩
def PAT.SFCFG : Fld := ⟨0x40018100, 0, 32, 8⟩
def PAT.SFCFG.EN : Fld := ⟨0x40018100, 31, 1, 8⟩
def PAT.SFCFG.VI : Fld := ⟨0x40018100, 24, 4, 8⟩
def PAT.SFCFG.TPL : Fld := ⟨0x40018100, 20, 2, 8⟩
def PAT.SFCFG.HOPSEQ : Fld := ⟨0x40018100, 16, 2, 8⟩
def PAT.SFCFG.LEN : Fld := ⟨0x40018100, 0, 12, 8⟩
def PAT.SFRANGE : Fld := ⟨0x40018104, 0, 32, 8⟩
def PAT.SFRANGE.FIRST : Fld := ⟨0x40018104, 16, 13, 8⟩
def PAT.SFRANGE.COUNT : Fld := ⟨0x40018104, 0, 14, 8⟩

def PAT.table : List RegDesc :=
[⟨0x000, 1, 0, 0x18030100, .shared, [⟨24, 8, .ro, .any⟩, ⟨16, 8, .ro, .any⟩, ⟨8, 8, .ro, .any⟩]⟩,
   ⟨0x004, 1, 0, 0x20000020, .shared, [⟨0, 32, .ro, .any⟩]⟩,
   ⟨0x008, 1, 0, 0x00000000, .shared, []⟩,
   ⟨0x00C, 1, 0, 0x00000000, .shared, [⟨0, 32, .ro, .any⟩]⟩,
   ⟨0x010, 1, 0, 0x00000000, .shared, [⟨31, 1, .w1c, .any⟩, ⟨30, 1, .w1c, .any⟩, ⟨2, 1, .w1c, .any⟩, ⟨1, 1, .w1c, .any⟩, ⟨0, 1, .w1c, .any⟩]⟩,
   ⟨0x014, 1, 0, 0x00000000, .shared, [⟨0, 32, .rw, .any⟩]⟩,
   ⟨0x018, 1, 0, 0x00000000, .shared, [⟨0, 32, .rw, .any⟩]⟩,
   ⟨0x01C, 1, 0, 0x00000000, .shared, [⟨0, 1, .w1s, .any⟩]⟩,
   ⟨0x040, 1, 0, 0x00000000, .perIni, [⟨30, 2, .rw, .range 0 2⟩, ⟨29, 1, .rw, .any⟩, ⟨0, 13, .rw, .any⟩]⟩,
   ⟨0x044, 1, 0, 0x00000000, .perIni, [⟨0, 32, .rw, .any⟩]⟩,
   ⟨0x048, 1, 0, 0x00000000, .shared, [⟨0, 32, .rw, .any⟩]⟩,
   ⟨0x050, 4, 4, 0x00000001, .shared, [⟨0, 9, .rw, .range 1 256⟩]⟩,
   ⟨0x060, 1, 0, 0x00000000, .shared, [⟨31, 1, .wo, .any⟩, ⟨26, 5, .wo, .any⟩, ⟨13, 13, .wo, .any⟩, ⟨11, 2, .wo, .any⟩, ⟨7, 4, .wo, .any⟩, ⟨5, 2, .wo, .any⟩]⟩,
   ⟨0x100, 32, 8, 0x00000065, .shared, [⟨31, 1, .rw, .any⟩, ⟨24, 4, .rw, .any⟩, ⟨20, 2, .rw, .any⟩, ⟨16, 2, .rw, .any⟩, ⟨0, 12, .rw, .range 1 4095⟩]⟩,
   ⟨0x104, 32, 8, 0x00000000, .shared, [⟨16, 13, .rw, .any⟩, ⟨0, 14, .rw, .range 0 8192⟩]⟩]

/-! Page BOB, code 0x19 (R40). -/

def BOB.ID : Fld := ⟨0x40019000, 0, 32, 0⟩
def BOB.ID.CODE : Fld := ⟨0x40019000, 24, 8, 0⟩
def BOB.ID.VERSION : Fld := ⟨0x40019000, 16, 8, 0⟩
def BOB.ID.INSTANCES : Fld := ⟨0x40019000, 8, 8, 0⟩
def BOB.CAPS : Fld := ⟨0x40019004, 0, 32, 0⟩
def BOB.CAPS.C : Fld := ⟨0x40019004, 0, 32, 0⟩
def BOB.CTRL : Fld := ⟨0x40019008, 0, 32, 0⟩
def BOB.CTRL.RJCLR : Fld := ⟨0x40019008, 2, 1, 0⟩
def BOB.CTRL.RJONLY : Fld := ⟨0x40019008, 1, 1, 0⟩
def BOB.CTRL.SWEEP : Fld := ⟨0x40019008, 0, 1, 0⟩
def BOB.STAT : Fld := ⟨0x4001900C, 0, 32, 0⟩
def BOB.STAT.RJCONF : Fld := ⟨0x4001900C, 31, 1, 0⟩
def BOB.STAT.FREEN : Fld := ⟨0x4001900C, 0, 13, 0⟩
def BOB.STICKY : Fld := ⟨0x40019010, 0, 32, 0⟩
def BOB.STICKY.RSVD : Fld := ⟨0x40019010, 31, 1, 0⟩
def BOB.STICKY.LOCKV : Fld := ⟨0x40019010, 30, 1, 0⟩
def BOB.STICKY.STALEGEN : Fld := ⟨0x40019010, 14, 1, 0⟩
def BOB.STICKY.RJBLOCK : Fld := ⟨0x40019010, 13, 1, 0⟩
def BOB.STICKY.WINWR : Fld := ⟨0x40019010, 12, 1, 0⟩
def BOB.STICKY.SUSPECT : Fld := ⟨0x40019010, 11, 1, 0⟩
def BOB.STICKY.DEAD : Fld := ⟨0x40019010, 10, 1, 0⟩
def BOB.STICKY.CMDREF : Fld := ⟨0x40019010, 9, 1, 0⟩
def BOB.STICKY.FCEXH : Fld := ⟨0x40019010, 8, 1, 0⟩
def BOB.STICKY.TSLOST : Fld := ⟨0x40019010, 7, 1, 0⟩
def BOB.STICKY.REVIVE : Fld := ⟨0x40019010, 6, 1, 0⟩
def BOB.STICKY.SUPERSRX : Fld := ⟨0x40019010, 5, 1, 0⟩
def BOB.STICKY.COLLIDE : Fld := ⟨0x40019010, 4, 1, 0⟩
def BOB.STICKY.REJSUP : Fld := ⟨0x40019010, 3, 1, 0⟩
def BOB.STICKY.HASHOVF : Fld := ⟨0x40019010, 2, 1, 0⟩
def BOB.STICKY.CTXFULL : Fld := ⟨0x40019010, 1, 1, 0⟩
def BOB.IRQEN : Fld := ⟨0x40019014, 0, 32, 0⟩
def BOB.FLTEN : Fld := ⟨0x40019018, 0, 32, 0⟩
def BOB.LOCK : Fld := ⟨0x4001901C, 0, 32, 0⟩
def BOB.LOCK.VAL : Fld := ⟨0x4001901C, 0, 1, 0⟩
def BOB.LRN : Fld := ⟨0x40019040, 0, 32, 0⟩
def BOB.LRN.AUTOACT : Fld := ⟨0x40019040, 1, 1, 0⟩
def BOB.LRN.LEARN : Fld := ⟨0x40019040, 0, 1, 0⟩
def BOB.SUSP : Fld := ⟨0x40019044, 0, 32, 0⟩
def BOB.SUSP.NOACKMAX : Fld := ⟨0x40019044, 24, 8, 0⟩
def BOB.SUSP.SUSPN : Fld := ⟨0x40019044, 0, 24, 0⟩
def BOB.DEAD : Fld := ⟨0x40019048, 0, 32, 0⟩
def BOB.DEAD.DEADN : Fld := ⟨0x40019048, 0, 24, 0⟩
def BOB.DRIFT : Fld := ⟨0x4001904C, 0, 32, 0⟩
def BOB.DRIFT.TSDEAD : Fld := ⟨0x4001904C, 24, 8, 0⟩
def BOB.DRIFT.KB : Fld := ⟨0x4001904C, 8, 4, 0⟩
def BOB.DRIFT.KA : Fld := ⟨0x4001904C, 0, 4, 0⟩
def BOB.COLCFG : Fld := ⟨0x40019050, 0, 32, 0⟩
def BOB.COLCFG.WIN : Fld := ⟨0x40019050, 0, 12, 0⟩
def BOB.ADJACC : Fld := ⟨0x40019054, 0, 32, 0⟩
def BOB.ADJACC.ACC : Fld := ⟨0x40019054, 0, 32, 0⟩
def BOB.CTXFULLN : Fld := ⟨0x40019058, 0, 32, 0⟩
def BOB.CTXFULLN.CNT : Fld := ⟨0x40019058, 0, 16, 0⟩
def BOB.CMD : Fld := ⟨0x4001905C, 0, 32, 0⟩
def BOB.CMD.OP : Fld := ⟨0x4001905C, 28, 4, 0⟩
def BOB.CMD.CTX : Fld := ⟨0x4001905C, 0, 12, 0⟩
def BOB.ARG : Fld := ⟨0x40019060, 0, 32, 4⟩
def BOB.ARG.A : Fld := ⟨0x40019060, 0, 32, 4⟩
def BOB.CMDSTAT : Fld := ⟨0x40019070, 0, 32, 0⟩
def BOB.CMDSTAT.BUSY : Fld := ⟨0x40019070, 31, 1, 0⟩
def BOB.CMDSTAT.STATUS : Fld := ⟨0x40019070, 16, 8, 0⟩
def BOB.CMDSTAT.CTX : Fld := ⟨0x40019070, 0, 12, 0⟩
def BOB.REJLOG : Fld := ⟨0x40019074, 0, 32, 0⟩
def BOB.REJLOG.V : Fld := ⟨0x40019074, 31, 1, 0⟩
def BOB.REJLOG.CTX : Fld := ⟨0x40019074, 0, 12, 0⟩
def BOB.LEASELEN : Fld := ⟨0x40019078, 0, 32, 0⟩
def BOB.LEASELEN.SEC : Fld := ⟨0x40019078, 0, 32, 0⟩
def BOB.OWNINC : Fld := ⟨0x4001907C, 0, 32, 0⟩
def BOB.OWNINC.INC : Fld := ⟨0x4001907C, 0, 16, 0⟩
def BOB.CTXBUF : Fld := ⟨0x40019080, 0, 32, 4⟩
def BOB.CTXBUF.W : Fld := ⟨0x40019080, 0, 32, 4⟩

def BOB.table : List RegDesc :=
[⟨0x000, 1, 0, 0x19030100, .shared, [⟨24, 8, .ro, .any⟩, ⟨16, 8, .ro, .any⟩, ⟨8, 8, .ro, .any⟩]⟩,
   ⟨0x004, 1, 0, 0x00001000, .shared, [⟨0, 32, .ro, .any⟩]⟩,
   ⟨0x008, 1, 0, 0x00000001, .shared, [⟨2, 1, .w1s, .any⟩, ⟨1, 1, .w1s, .any⟩, ⟨0, 1, .rw, .any⟩]⟩,
   ⟨0x00C, 1, 0, 0x00001000, .shared, [⟨31, 1, .ro, .any⟩, ⟨0, 13, .ro, .any⟩]⟩,
   ⟨0x010, 1, 0, 0x00000000, .shared, [⟨31, 1, .w1c, .any⟩, ⟨30, 1, .w1c, .any⟩, ⟨14, 1, .w1c, .any⟩, ⟨13, 1, .w1c, .any⟩, ⟨12, 1, .w1c, .any⟩, ⟨11, 1, .w1c, .any⟩, ⟨10, 1, .w1c, .any⟩, ⟨9, 1, .w1c, .any⟩, ⟨8, 1, .w1c, .any⟩, ⟨7, 1, .w1c, .any⟩, ⟨6, 1, .w1c, .any⟩, ⟨5, 1, .w1c, .any⟩, ⟨4, 1, .w1c, .any⟩, ⟨3, 1, .w1c, .any⟩, ⟨2, 1, .w1c, .any⟩, ⟨1, 1, .w1c, .any⟩]⟩,
   ⟨0x014, 1, 0, 0x00000000, .shared, [⟨0, 32, .rw, .any⟩]⟩,
   ⟨0x018, 1, 0, 0x00000006, .shared, [⟨0, 32, .rw, .any⟩]⟩,
   ⟨0x01C, 1, 0, 0x00000000, .shared, [⟨0, 1, .w1s, .any⟩]⟩,
   ⟨0x040, 1, 0, 0x00000000, .perVi, [⟨1, 1, .rw, .any⟩, ⟨0, 1, .rw, .any⟩]⟩,
   ⟨0x044, 1, 0, 0x08001770, .shared, [⟨24, 8, .rw, .range 1 255⟩, ⟨0, 24, .rw, .any⟩]⟩,
   ⟨0x048, 1, 0, 0x00057E40, .shared, [⟨0, 24, .rw, .any⟩]⟩,
   ⟨0x04C, 1, 0, 0x10000301, .shared, [⟨24, 8, .rw, .any⟩, ⟨8, 4, .rw, .any⟩, ⟨0, 4, .rw, .any⟩]⟩,
   ⟨0x050, 1, 0, 0x00000065, .shared, [⟨0, 12, .rw, .range 1 4095⟩]⟩,
   ⟨0x054, 1, 0, 0x00000000, .shared, [⟨0, 32, .ro, .any⟩]⟩,
   ⟨0x058, 1, 0, 0x00000000, .perVi, [⟨0, 16, .ro, .any⟩]⟩,
   ⟨0x05C, 1, 0, 0x00000000, .perVi, [⟨28, 4, .wo, .any⟩, ⟨0, 12, .wo, .any⟩]⟩,
   ⟨0x060, 4, 4, 0x00000000, .perVi, [⟨0, 32, .rw, .any⟩]⟩,
   ⟨0x070, 1, 0, 0x00000000, .perVi, [⟨31, 1, .ro, .any⟩, ⟨16, 8, .ro, .any⟩, ⟨0, 12, .ro, .any⟩]⟩,
   ⟨0x074, 1, 0, 0x00000000, .perVi, [⟨31, 1, .ro, .any⟩, ⟨0, 12, .ro, .any⟩]⟩,
   ⟨0x078, 1, 0, 0x00000000, .shared, [⟨0, 32, .rw, .any⟩]⟩]
  ++ [⟨0x07C, 1, 0, 0x00000000, .shared, [⟨0, 16, .rw, .any⟩]⟩,
   ⟨0x080, 32, 4, 0x00000000, .perVi, [⟨0, 32, .ro, .any⟩]⟩]

/-! Page DUT, code 0x1A (R40). -/

def DUT.ID : Fld := ⟨0x4001A000, 0, 32, 0⟩
def DUT.ID.CODE : Fld := ⟨0x4001A000, 24, 8, 0⟩
def DUT.ID.VERSION : Fld := ⟨0x4001A000, 16, 8, 0⟩
def DUT.ID.INSTANCES : Fld := ⟨0x4001A000, 8, 8, 0⟩
def DUT.CAPS : Fld := ⟨0x4001A004, 0, 32, 0⟩
def DUT.CAPS.C : Fld := ⟨0x4001A004, 0, 32, 0⟩
def DUT.CTRL : Fld := ⟨0x4001A008, 0, 32, 0⟩
def DUT.STAT : Fld := ⟨0x4001A00C, 0, 32, 0⟩
def DUT.STAT.FULL : Fld := ⟨0x4001A00C, 0, 8, 0⟩
def DUT.STICKY : Fld := ⟨0x4001A010, 0, 32, 0⟩
def DUT.STICKY.RSVD : Fld := ⟨0x4001A010, 31, 1, 0⟩
def DUT.STICKY.LOCKV : Fld := ⟨0x4001A010, 30, 1, 0⟩
def DUT.STICKY.DWFULL : Fld := ⟨0x4001A010, 2, 1, 0⟩
def DUT.STICKY.NOBAND : Fld := ⟨0x4001A010, 1, 1, 0⟩
def DUT.STICKY.DENY : Fld := ⟨0x4001A010, 0, 1, 0⟩
def DUT.IRQEN : Fld := ⟨0x4001A014, 0, 32, 0⟩
def DUT.FLTEN : Fld := ⟨0x4001A018, 0, 32, 0⟩
def DUT.LOCK : Fld := ⟨0x4001A01C, 0, 32, 0⟩
def DUT.LOCK.VAL : Fld := ⟨0x4001A01C, 0, 1, 0⟩
def DUT.PROFILE : Fld := ⟨0x4001A040, 0, 32, 0⟩
def DUT.PROFILE.REGION : Fld := ⟨0x4001A040, 24, 8, 0⟩
def DUT.PROFILE.NSB : Fld := ⟨0x4001A040, 16, 4, 0⟩
def DUT.PROFILE.TREC : Fld := ⟨0x4001A040, 0, 4, 0⟩
def DUT.SBSEL : Fld := ⟨0x4001A044, 0, 32, 0⟩
def DUT.SBSEL.SB : Fld := ⟨0x4001A044, 0, 3, 0⟩
def DUT.USED : Fld := ⟨0x4001A048, 0, 32, 0⟩
def DUT.USED.US : Fld := ⟨0x4001A048, 0, 32, 0⟩
def DUT.BUDGET : Fld := ⟨0x4001A04C, 0, 32, 0⟩
def DUT.BUDGET.US : Fld := ⟨0x4001A04C, 0, 32, 0⟩
def DUT.VIUSED : Fld := ⟨0x4001A050, 0, 32, 0⟩
def DUT.VIUSED.US : Fld := ⟨0x4001A050, 0, 32, 0⟩
def DUT.VISHARE : Fld := ⟨0x4001A054, 0, 32, 0⟩
def DUT.VISHARE.SH : Fld := ⟨0x4001A054, 0, 10, 0⟩
def DUT.DENYLOG : Fld := ⟨0x4001A058, 0, 32, 0⟩
def DUT.DENYLOG.V : Fld := ⟨0x4001A058, 31, 1, 0⟩
def DUT.DENYLOG.REASON : Fld := ⟨0x4001A058, 24, 3, 0⟩
def DUT.DENYLOG.VI : Fld := ⟨0x4001A058, 16, 4, 0⟩
def DUT.DENYLOG.SB : Fld := ⟨0x4001A058, 12, 3, 0⟩
def DUT.DENYCNT : Fld := ⟨0x4001A05C, 0, 32, 0⟩
def DUT.DENYCNT.CNT : Fld := ⟨0x4001A05C, 0, 16, 0⟩
def DUT.DWMAX : Fld := ⟨0x4001A060, 0, 32, 0⟩
def DUT.DWMAX.MS : Fld := ⟨0x4001A060, 0, 10, 0⟩
def DUT.DWSTAT : Fld := ⟨0x4001A064, 0, 32, 0⟩
def DUT.DWSTAT.USED : Fld := ⟨0x4001A064, 0, 8, 0⟩
def DUT.SBOTP0 : Fld := ⟨0x4001A080, 0, 32, 16⟩
def DUT.SBOTP0.EN : Fld := ⟨0x4001A080, 31, 1, 16⟩
def DUT.SBOTP0.DWELL : Fld := ⟨0x4001A080, 30, 1, 16⟩
def DUT.SBOTP0.FLO : Fld := ⟨0x4001A080, 0, 21, 16⟩
def DUT.SBOTP1 : Fld := ⟨0x4001A084, 0, 32, 16⟩
def DUT.SBOTP1.FHI : Fld := ⟨0x4001A084, 0, 21, 16⟩
def DUT.SBOTP2 : Fld := ⟨0x4001A088, 0, 32, 16⟩
def DUT.SBOTP2.EIRP : Fld := ⟨0x4001A088, 24, 8, 16⟩
def DUT.SBOTP2.DUTY : Fld := ⟨0x4001A088, 0, 16, 16⟩
def DUT.SBSW : Fld := ⟨0x4001A08C, 0, 32, 16⟩
def DUT.SBSW.EIRP : Fld := ⟨0x4001A08C, 24, 8, 16⟩
def DUT.SBSW.SWEN : Fld := ⟨0x4001A08C, 16, 1, 16⟩
def DUT.SBSW.DUTY : Fld := ⟨0x4001A08C, 0, 16, 16⟩
def DUT.SHARE : Fld := ⟨0x4001A100, 0, 32, 4⟩
def DUT.SHARE.SH : Fld := ⟨0x4001A100, 0, 10, 4⟩

def DUT.table : List RegDesc :=
[⟨0x000, 1, 0, 0x1A030100, .shared, [⟨24, 8, .ro, .any⟩, ⟨16, 8, .ro, .any⟩, ⟨8, 8, .ro, .any⟩]⟩,
   ⟨0x004, 1, 0, 0x00000008, .shared, [⟨0, 32, .ro, .any⟩]⟩,
   ⟨0x008, 1, 0, 0x00000000, .shared, []⟩,
   ⟨0x00C, 1, 0, 0x00000000, .shared, [⟨0, 8, .ro, .any⟩]⟩,
   ⟨0x010, 1, 0, 0x00000000, .shared, [⟨31, 1, .w1c, .any⟩, ⟨30, 1, .w1c, .any⟩, ⟨2, 1, .w1c, .any⟩, ⟨1, 1, .w1c, .any⟩, ⟨0, 1, .w1c, .any⟩]⟩,
   ⟨0x014, 1, 0, 0x00000000, .shared, [⟨0, 32, .rw, .any⟩]⟩,
   ⟨0x018, 1, 0, 0x00000000, .shared, [⟨0, 32, .rw, .any⟩]⟩,
   ⟨0x01C, 1, 0, 0x00000000, .shared, [⟨0, 1, .w1s, .any⟩]⟩,
   ⟨0x040, 1, 0, 0x00000000, .shared, [⟨24, 8, .ro, .any⟩, ⟨16, 4, .ro, .any⟩, ⟨0, 4, .ro, .any⟩]⟩,
   ⟨0x044, 1, 0, 0x00000000, .perIni, [⟨0, 3, .rw, .any⟩]⟩,
   ⟨0x048, 1, 0, 0x00000000, .shared, [⟨0, 32, .ro, .any⟩]⟩,
   ⟨0x04C, 1, 0, 0x00000000, .shared, [⟨0, 32, .ro, .any⟩]⟩,
   ⟨0x050, 1, 0, 0x00000000, .shared, [⟨0, 32, .ro, .any⟩]⟩,
   ⟨0x054, 1, 0, 0x000003E8, .shared, [⟨0, 10, .ro, .any⟩]⟩,
   ⟨0x058, 1, 0, 0x00000000, .shared, [⟨31, 1, .ro, .any⟩, ⟨24, 3, .ro, .any⟩, ⟨16, 4, .ro, .any⟩, ⟨12, 3, .ro, .any⟩]⟩,
   ⟨0x05C, 1, 0, 0x00000000, .perVi, [⟨0, 16, .ro, .any⟩]⟩,
   ⟨0x060, 1, 0, 0x00000190, .shared, [⟨0, 10, .rwl, .range 1 400⟩]⟩,
   ⟨0x064, 1, 0, 0x00000000, .shared, [⟨0, 8, .ro, .any⟩]⟩,
   ⟨0x080, 8, 16, 0x00000000, .shared, [⟨31, 1, .ro, .any⟩, ⟨30, 1, .ro, .any⟩, ⟨0, 21, .ro, .any⟩]⟩,
   ⟨0x084, 8, 16, 0x00000000, .shared, [⟨0, 21, .ro, .any⟩]⟩]
  ++ [⟨0x088, 8, 16, 0x00000000, .shared, [⟨24, 8, .ro, .any⟩, ⟨0, 16, .ro, .any⟩]⟩,
   ⟨0x08C, 8, 16, 0x00000000, .shared, [⟨24, 8, .rwl, .any⟩, ⟨16, 1, .rwl, .any⟩, ⟨0, 16, .rwl, .any⟩]⟩,
   ⟨0x100, 16, 4, 0x000003E8, .shared, [⟨0, 10, .rwl, .any⟩]⟩]

/-! Page THM, code 0x1B (R40). -/

def THM.ID : Fld := ⟨0x4001B000, 0, 32, 0⟩
def THM.ID.CODE : Fld := ⟨0x4001B000, 24, 8, 0⟩
def THM.ID.VERSION : Fld := ⟨0x4001B000, 16, 8, 0⟩
def THM.ID.INSTANCES : Fld := ⟨0x4001B000, 8, 8, 0⟩
def THM.CAPS : Fld := ⟨0x4001B004, 0, 32, 0⟩
def THM.CAPS.C : Fld := ⟨0x4001B004, 0, 32, 0⟩
def THM.CTRL : Fld := ⟨0x4001B008, 0, 32, 0⟩
def THM.CTRL.ACTION : Fld := ⟨0x4001B008, 1, 2, 0⟩
def THM.CTRL.EN : Fld := ⟨0x4001B008, 0, 1, 0⟩
def THM.STAT : Fld := ⟨0x4001B00C, 0, 32, 0⟩
def THM.STAT.RUN : Fld := ⟨0x4001B00C, 17, 1, 0⟩
def THM.STAT.INFR : Fld := ⟨0x4001B00C, 16, 1, 0⟩
def THM.STAT.PHOLD : Fld := ⟨0x4001B00C, 0, 16, 0⟩
def THM.STICKY : Fld := ⟨0x4001B010, 0, 32, 0⟩
def THM.STICKY.RSVD : Fld := ⟨0x4001B010, 31, 1, 0⟩
def THM.STICKY.LOCKV : Fld := ⟨0x4001B010, 30, 1, 0⟩
def THM.STICKY.FPEND : Fld := ⟨0x4001B010, 3, 1, 0⟩
def THM.STICKY.NOK32 : Fld := ⟨0x4001B010, 2, 1, 0⟩
def THM.STICKY.BADFR : Fld := ⟨0x4001B010, 1, 1, 0⟩
def THM.STICKY.MATCH : Fld := ⟨0x4001B010, 0, 1, 0⟩
def THM.IRQEN : Fld := ⟨0x4001B014, 0, 32, 0⟩
def THM.FLTEN : Fld := ⟨0x4001B018, 0, 32, 0⟩
def THM.LOCK : Fld := ⟨0x4001B01C, 0, 32, 0⟩
def THM.LOCK.VAL : Fld := ⟨0x4001B01C, 0, 1, 0⟩
def THM.FREQ : Fld := ⟨0x4001B040, 0, 32, 0⟩
def THM.FREQ.KHZ : Fld := ⟨0x4001B040, 0, 21, 0⟩
def THM.CODE : Fld := ⟨0x4001B044, 0, 32, 0⟩
def THM.CODE.NETCODE : Fld := ⟨0x4001B044, 16, 16, 0⟩
def THM.CODE.VAL : Fld := ⟨0x4001B044, 0, 16, 0⟩
def THM.GMASK : Fld := ⟨0x4001B048, 0, 32, 0⟩
def THM.GMASK.G : Fld := ⟨0x4001B048, 0, 8, 0⟩
def THM.CFG : Fld := ⟨0x4001B04C, 0, 32, 0⟩
def THM.CFG.PENDHOLD : Fld := ⟨0x4001B04C, 16, 16, 0⟩
def THM.CFG.HOLDOFF : Fld := ⟨0x4001B04C, 8, 8, 0⟩
def THM.CFG.THOFS : Fld := ⟨0x4001B04C, 4, 4, 0⟩
def THM.LAST : Fld := ⟨0x4001B050, 0, 32, 0⟩
def THM.LAST.V : Fld := ⟨0x4001B050, 31, 1, 0⟩
def THM.LAST.CODE : Fld := ⟨0x4001B050, 8, 16, 0⟩
def THM.LAST.GROUP : Fld := ⟨0x4001B050, 0, 8, 0⟩
def THM.LASTTB : Fld := ⟨0x4001B054, 0, 32, 0⟩
def THM.LASTTB.TB : Fld := ⟨0x4001B054, 0, 32, 0⟩
def THM.CNT0 : Fld := ⟨0x4001B058, 0, 32, 0⟩
def THM.CNT0.MATCH : Fld := ⟨0x4001B058, 16, 16, 0⟩
def THM.CNT0.SUPPR : Fld := ⟨0x4001B058, 0, 16, 0⟩
def THM.CNT1 : Fld := ⟨0x4001B05C, 0, 32, 0⟩
def THM.CNT1.FRAMES : Fld := ⟨0x4001B05C, 16, 16, 0⟩
def THM.CNT1.BADFR : Fld := ⟨0x4001B05C, 0, 16, 0⟩
def THM.OFS : Fld := ⟨0x4001B060, 0, 32, 0⟩
def THM.OFS.VAL : Fld := ⟨0x4001B060, 0, 6, 0⟩

def THM.table : List RegDesc :=
[⟨0x000, 1, 0, 0x1B030100, .shared, [⟨24, 8, .ro, .any⟩, ⟨16, 8, .ro, .any⟩, ⟨8, 8, .ro, .any⟩]⟩,
   ⟨0x004, 1, 0, 0x00000000, .shared, [⟨0, 32, .ro, .any⟩]⟩,
   ⟨0x008, 1, 0, 0x00000000, .shared, [⟨1, 2, .rw, .range 0 2⟩, ⟨0, 1, .rw, .any⟩]⟩,
   ⟨0x00C, 1, 0, 0x00000000, .shared, [⟨17, 1, .ro, .any⟩, ⟨16, 1, .ro, .any⟩, ⟨0, 16, .ro, .any⟩]⟩,
   ⟨0x010, 1, 0, 0x00000000, .shared, [⟨31, 1, .w1c, .any⟩, ⟨30, 1, .w1c, .any⟩, ⟨3, 1, .w1c, .any⟩, ⟨2, 1, .w1c, .any⟩, ⟨1, 1, .w1c, .any⟩, ⟨0, 1, .w1c, .any⟩]⟩,
   ⟨0x014, 1, 0, 0x00000000, .shared, [⟨0, 32, .rw, .any⟩]⟩,
   ⟨0x018, 1, 0, 0x00000000, .shared, [⟨0, 32, .rw, .any⟩]⟩,
   ⟨0x01C, 1, 0, 0x00000000, .shared, [⟨0, 1, .w1s, .any⟩]⟩,
   ⟨0x040, 1, 0, 0x000DF638, .shared, [⟨0, 21, .rw, .range 150000 1050000⟩]⟩,
   ⟨0x044, 1, 0, 0x00000000, .shared, [⟨16, 16, .rw, .any⟩, ⟨0, 16, .rw, .any⟩]⟩,
   ⟨0x048, 1, 0, 0x00000000, .shared, [⟨0, 8, .rw, .any⟩]⟩,
   ⟨0x04C, 1, 0, 0x00001460, .shared, [⟨16, 16, .rw, .any⟩, ⟨8, 8, .rw, .range 1 255⟩, ⟨4, 4, .rw, .range 3 15⟩]⟩,
   ⟨0x050, 1, 0, 0x00000000, .shared, [⟨31, 1, .ro, .any⟩, ⟨8, 16, .ro, .any⟩, ⟨0, 8, .ro, .any⟩]⟩,
   ⟨0x054, 1, 0, 0x00000000, .shared, [⟨0, 32, .ro, .any⟩]⟩,
   ⟨0x058, 1, 0, 0x00000000, .shared, [⟨16, 16, .ro, .any⟩, ⟨0, 16, .ro, .any⟩]⟩,
   ⟨0x05C, 1, 0, 0x00000000, .shared, [⟨16, 16, .ro, .any⟩, ⟨0, 16, .ro, .any⟩]⟩,
   ⟨0x060, 1, 0, 0x00000000, .shared, [⟨0, 6, .ro, .any⟩]⟩]

/-! Page VIF, code 0x1C (R40). -/

def VIF.ID : Fld := ⟨0x4001C000, 0, 32, 0⟩
def VIF.ID.CODE : Fld := ⟨0x4001C000, 24, 8, 0⟩
def VIF.ID.VERSION : Fld := ⟨0x4001C000, 16, 8, 0⟩
def VIF.ID.INSTANCES : Fld := ⟨0x4001C000, 8, 8, 0⟩
def VIF.CAPS : Fld := ⟨0x4001C004, 0, 32, 0⟩
def VIF.CAPS.C : Fld := ⟨0x4001C004, 0, 32, 0⟩
def VIF.CTRL : Fld := ⟨0x4001C008, 0, 32, 0⟩
def VIF.STAT : Fld := ⟨0x4001C00C, 0, 32, 0⟩
def VIF.STAT.CLOSINGV : Fld := ⟨0x4001C00C, 16, 16, 0⟩
def VIF.STAT.OPENV : Fld := ⟨0x4001C00C, 0, 16, 0⟩
def VIF.STICKY : Fld := ⟨0x4001C010, 0, 32, 0⟩
def VIF.STICKY.RSVD : Fld := ⟨0x4001C010, 31, 1, 0⟩
def VIF.STICKY.LOCKV : Fld := ⟨0x4001C010, 30, 1, 0⟩
def VIF.STICKY.CLOSED : Fld := ⟨0x4001C010, 5, 1, 0⟩
def VIF.STICKY.TENWR : Fld := ⟨0x4001C010, 4, 1, 0⟩
def VIF.STICKY.TENBAD : Fld := ⟨0x4001C010, 3, 1, 0⟩
def VIF.STICKY.BINDVIOL : Fld := ⟨0x4001C010, 2, 1, 0⟩
def VIF.STICKY.QUOTA : Fld := ⟨0x4001C010, 1, 1, 0⟩
def VIF.STICKY.VIEWREF : Fld := ⟨0x4001C010, 0, 1, 0⟩
def VIF.IRQEN : Fld := ⟨0x4001C014, 0, 32, 0⟩
def VIF.FLTEN : Fld := ⟨0x4001C018, 0, 32, 0⟩
def VIF.LOCK : Fld := ⟨0x4001C01C, 0, 32, 0⟩
def VIF.LOCK.VAL : Fld := ⟨0x4001C01C, 0, 1, 0⟩
def VIF.IRQMAP : Fld := ⟨0x4001C040, 0, 32, 0⟩
def VIF.IRQMAP.V1 : Fld := ⟨0x4001C040, 2, 2, 0⟩
def VIF.IRQMAP.V2 : Fld := ⟨0x4001C040, 4, 2, 0⟩
def VIF.IRQMAP.V3 : Fld := ⟨0x4001C040, 6, 2, 0⟩
def VIF.IRQMAP.V4 : Fld := ⟨0x4001C040, 8, 2, 0⟩
def VIF.IRQMAP.V5 : Fld := ⟨0x4001C040, 10, 2, 0⟩
def VIF.IRQMAP.V6 : Fld := ⟨0x4001C040, 12, 2, 0⟩
def VIF.IRQMAP.V7 : Fld := ⟨0x4001C040, 14, 2, 0⟩
def VIF.IRQMAP.V8 : Fld := ⟨0x4001C040, 16, 2, 0⟩
def VIF.IRQMAP.V9 : Fld := ⟨0x4001C040, 18, 2, 0⟩
def VIF.IRQMAP.V10 : Fld := ⟨0x4001C040, 20, 2, 0⟩
def VIF.IRQMAP.V11 : Fld := ⟨0x4001C040, 22, 2, 0⟩
def VIF.IRQMAP.V12 : Fld := ⟨0x4001C040, 24, 2, 0⟩
def VIF.IRQMAP.V13 : Fld := ⟨0x4001C040, 26, 2, 0⟩
def VIF.IRQMAP.V14 : Fld := ⟨0x4001C040, 28, 2, 0⟩
def VIF.IRQMAP.V15 : Fld := ⟨0x4001C040, 30, 2, 0⟩
def VIF.IRQSTAT : Fld := ⟨0x4001C044, 0, 32, 0⟩
def VIF.IRQSTAT.V : Fld := ⟨0x4001C044, 1, 15, 0⟩
def VIF.BIND : Fld := ⟨0x4001C048, 0, 32, 0⟩
def VIF.BIND.DN1VI : Fld := ⟨0x4001C048, 0, 4, 0⟩
def VIF.HOSTEN : Fld := ⟨0x4001C04C, 0, 32, 0⟩
def VIF.HOSTEN.V : Fld := ⟨0x4001C04C, 1, 15, 0⟩
def VIF.MOVBIND : Fld := ⟨0x4001C050, 0, 32, 4⟩
def VIF.MOVBIND.B : Fld := ⟨0x4001C050, 0, 32, 4⟩
def VIF.VIOLLOG : Fld := ⟨0x4001C058, 0, 32, 0⟩
def VIF.VIOLLOG.V : Fld := ⟨0x4001C058, 31, 1, 0⟩
def VIF.VIOLLOG.INIT : Fld := ⟨0x4001C058, 29, 2, 0⟩
def VIF.VIOLLOG.VI : Fld := ⟨0x4001C058, 25, 4, 0⟩
def VIF.VIOLLOG.CH : Fld := ⟨0x4001C058, 21, 4, 0⟩
def VIF.VIOLLOG.ADDR : Fld := ⟨0x4001C058, 0, 20, 0⟩
def VIF.APOFS : Fld := ⟨0x4001C05C, 0, 32, 0⟩
def VIF.APOFS.OFF : Fld := ⟨0x4001C05C, 0, 7, 0⟩
def VIF.TENA0 : Fld := ⟨0x4001C100, 0, 32, 0⟩
def VIF.TENA0.STATE : Fld := ⟨0x4001C100, 30, 2, 0⟩
def VIF.TENA0.PRIO : Fld := ⟨0x4001C100, 24, 4, 0⟩
def VIF.TENA0.KEYQ : Fld := ⟨0x4001C100, 16, 7, 0⟩
def VIF.TENA0.LANEQ : Fld := ⟨0x4001C100, 8, 8, 0⟩
def VIF.TENA0.SFQ : Fld := ⟨0x4001C100, 0, 6, 0⟩
def VIF.TENB0 : Fld := ⟨0x4001C104, 0, 32, 0⟩
def VIF.TENB0.CTXQ : Fld := ⟨0x4001C104, 16, 13, 0⟩
def VIF.TENB0.CELLQ : Fld := ⟨0x4001C104, 0, 14, 0⟩
def VIF.TENC0 : Fld := ⟨0x4001C108, 0, 32, 0⟩
def VIF.TENC0.FMSIZE : Fld := ⟨0x4001C108, 16, 8, 0⟩
def VIF.TENC0.FMBASE : Fld := ⟨0x4001C108, 0, 7, 0⟩
def VIF.TEND0 : Fld := ⟨0x4001C10C, 0, 32, 0⟩
def VIF.TEND0.TIMMASK : Fld := ⟨0x4001C10C, 16, 8, 0⟩
def VIF.TEND0.SRAMMASK : Fld := ⟨0x4001C10C, 0, 16, 0⟩
def VIF.TENE0 : Fld := ⟨0x4001C110, 0, 32, 0⟩
def VIF.TENE0.CTXUSE : Fld := ⟨0x4001C110, 16, 13, 0⟩
def VIF.TENE0.LANEUSE : Fld := ⟨0x4001C110, 0, 8, 0⟩
def VIF.TENF0 : Fld := ⟨0x4001C114, 0, 32, 0⟩
def VIF.TENF0.SFUSE : Fld := ⟨0x4001C114, 24, 6, 0⟩
def VIF.TENF0.KEYUSE : Fld := ⟨0x4001C114, 16, 7, 0⟩
def VIF.TENF0.CELLUSE : Fld := ⟨0x4001C114, 0, 14, 0⟩
def VIF.TENA1 : Fld := ⟨0x4001C120, 0, 32, 32⟩
def VIF.TENA1.STATE : Fld := ⟨0x4001C120, 30, 2, 32⟩
def VIF.TENA1.PRIO : Fld := ⟨0x4001C120, 24, 4, 32⟩
def VIF.TENA1.KEYQ : Fld := ⟨0x4001C120, 16, 7, 32⟩
def VIF.TENA1.LANEQ : Fld := ⟨0x4001C120, 8, 8, 32⟩
def VIF.TENA1.SFQ : Fld := ⟨0x4001C120, 0, 6, 32⟩
def VIF.TENB1 : Fld := ⟨0x4001C124, 0, 32, 32⟩
def VIF.TENB1.CTXQ : Fld := ⟨0x4001C124, 16, 13, 32⟩
def VIF.TENB1.CELLQ : Fld := ⟨0x4001C124, 0, 14, 32⟩
def VIF.TENC1 : Fld := ⟨0x4001C128, 0, 32, 32⟩
def VIF.TENC1.FMSIZE : Fld := ⟨0x4001C128, 16, 8, 32⟩
def VIF.TENC1.FMBASE : Fld := ⟨0x4001C128, 0, 7, 32⟩
def VIF.TEND1 : Fld := ⟨0x4001C12C, 0, 32, 32⟩
def VIF.TEND1.TIMMASK : Fld := ⟨0x4001C12C, 16, 8, 32⟩
def VIF.TEND1.SRAMMASK : Fld := ⟨0x4001C12C, 0, 16, 32⟩
def VIF.TENE1 : Fld := ⟨0x4001C130, 0, 32, 32⟩
def VIF.TENE1.CTXUSE : Fld := ⟨0x4001C130, 16, 13, 32⟩
def VIF.TENE1.LANEUSE : Fld := ⟨0x4001C130, 0, 8, 32⟩
def VIF.TENF1 : Fld := ⟨0x4001C134, 0, 32, 32⟩
def VIF.TENF1.SFUSE : Fld := ⟨0x4001C134, 24, 6, 32⟩
def VIF.TENF1.KEYUSE : Fld := ⟨0x4001C134, 16, 7, 32⟩
def VIF.TENF1.CELLUSE : Fld := ⟨0x4001C134, 0, 14, 32⟩

def VIF.table : List RegDesc :=
[⟨0x000, 1, 0, 0x1C030100, .shared, [⟨24, 8, .ro, .any⟩, ⟨16, 8, .ro, .any⟩, ⟨8, 8, .ro, .any⟩]⟩,
   ⟨0x004, 1, 0, 0x00000010, .shared, [⟨0, 32, .ro, .any⟩]⟩,
   ⟨0x008, 1, 0, 0x00000000, .shared, []⟩,
   ⟨0x00C, 1, 0, 0x00000001, .shared, [⟨16, 16, .ro, .any⟩, ⟨0, 16, .ro, .any⟩]⟩,
   ⟨0x010, 1, 0, 0x00000000, .shared, [⟨31, 1, .w1c, .any⟩, ⟨30, 1, .w1c, .any⟩, ⟨5, 1, .w1c, .any⟩, ⟨4, 1, .w1c, .any⟩, ⟨3, 1, .w1c, .any⟩, ⟨2, 1, .w1c, .any⟩, ⟨1, 1, .w1c, .any⟩, ⟨0, 1, .w1c, .any⟩]⟩,
   ⟨0x014, 1, 0, 0x00000000, .shared, [⟨0, 32, .rw, .any⟩]⟩,
   ⟨0x018, 1, 0, 0x0000001C, .shared, [⟨0, 32, .rw, .any⟩]⟩,
   ⟨0x01C, 1, 0, 0x00000000, .shared, [⟨0, 1, .w1s, .any⟩]⟩,
   ⟨0x040, 1, 0, 0xAAAAAAA8, .shared, [⟨2, 2, .rw, .range 0 2⟩, ⟨4, 2, .rw, .range 0 2⟩, ⟨6, 2, .rw, .range 0 2⟩, ⟨8, 2, .rw, .range 0 2⟩, ⟨10, 2, .rw, .range 0 2⟩, ⟨12, 2, .rw, .range 0 2⟩, ⟨14, 2, .rw, .range 0 2⟩, ⟨16, 2, .rw, .range 0 2⟩, ⟨18, 2, .rw, .range 0 2⟩, ⟨20, 2, .rw, .range 0 2⟩, ⟨22, 2, .rw, .range 0 2⟩, ⟨24, 2, .rw, .range 0 2⟩, ⟨26, 2, .rw, .range 0 2⟩, ⟨28, 2, .rw, .range 0 2⟩, ⟨30, 2, .rw, .range 0 2⟩]⟩,
   ⟨0x044, 1, 0, 0x00000000, .shared, [⟨1, 15, .ro, .any⟩]⟩,
   ⟨0x048, 1, 0, 0x00000000, .shared, [⟨0, 4, .rw, .any⟩]⟩,
   ⟨0x04C, 1, 0, 0x00000000, .shared, [⟨1, 15, .rw, .any⟩]⟩,
   ⟨0x050, 2, 4, 0x00000000, .shared, [⟨0, 32, .rw, .any⟩]⟩,
   ⟨0x058, 1, 0, 0x00000000, .shared, [⟨31, 1, .ro, .any⟩, ⟨29, 2, .ro, .any⟩, ⟨25, 4, .ro, .any⟩, ⟨21, 4, .ro, .any⟩, ⟨0, 20, .ro, .any⟩]⟩,
   ⟨0x05C, 1, 0, 0x00000000, .perVi, [⟨0, 7, .rw, .any⟩]⟩,
   ⟨0x100, 1, 0, 0x40408020, .shared, [⟨30, 2, .ro, .any⟩, ⟨24, 4, .ro, .any⟩, ⟨16, 7, .ro, .any⟩, ⟨8, 8, .ro, .any⟩, ⟨0, 6, .ro, .any⟩]⟩,
   ⟨0x104, 1, 0, 0x10002000, .shared, [⟨16, 13, .ro, .any⟩, ⟨0, 14, .ro, .any⟩]⟩,
   ⟨0x108, 1, 0, 0x00800000, .shared, [⟨16, 8, .ro, .any⟩, ⟨0, 7, .ro, .any⟩]⟩,
   ⟨0x10C, 1, 0, 0x00FFFFFF, .shared, [⟨16, 8, .ro, .any⟩, ⟨0, 16, .ro, .any⟩]⟩,
   ⟨0x110, 1, 0, 0x00000000, .shared, [⟨16, 13, .ro, .any⟩, ⟨0, 8, .ro, .any⟩]⟩]
  ++ [⟨0x114, 1, 0, 0x00000000, .shared, [⟨24, 6, .ro, .any⟩, ⟨16, 7, .ro, .any⟩, ⟨0, 14, .ro, .any⟩]⟩,
   ⟨0x120, 15, 32, 0x00000000, .shared, [⟨30, 2, .ro, .any⟩, ⟨24, 4, .ro, .any⟩, ⟨16, 7, .ro, .any⟩, ⟨8, 8, .ro, .any⟩, ⟨0, 6, .ro, .any⟩]⟩,
   ⟨0x124, 15, 32, 0x00000000, .shared, [⟨16, 13, .ro, .any⟩, ⟨0, 14, .ro, .any⟩]⟩,
   ⟨0x128, 15, 32, 0x00000000, .shared, [⟨16, 8, .ro, .any⟩, ⟨0, 7, .ro, .any⟩]⟩,
   ⟨0x12C, 15, 32, 0x00000000, .shared, [⟨16, 8, .ro, .any⟩, ⟨0, 16, .ro, .any⟩]⟩,
   ⟨0x130, 15, 32, 0x00000000, .shared, [⟨16, 13, .ro, .any⟩, ⟨0, 8, .ro, .any⟩]⟩,
   ⟨0x134, 15, 32, 0x00000000, .shared, [⟨24, 6, .ro, .any⟩, ⟨16, 7, .ro, .any⟩, ⟨0, 14, .ro, .any⟩]⟩]

/-! Page CAS, code 0x1D (R40). -/

def CAS.ID : Fld := ⟨0x4001D000, 0, 32, 0⟩
def CAS.ID.CODE : Fld := ⟨0x4001D000, 24, 8, 0⟩
def CAS.ID.VERSION : Fld := ⟨0x4001D000, 16, 8, 0⟩
def CAS.ID.INSTANCES : Fld := ⟨0x4001D000, 8, 8, 0⟩
def CAS.CAPS : Fld := ⟨0x4001D004, 0, 32, 0⟩
def CAS.CAPS.C : Fld := ⟨0x4001D004, 0, 32, 0⟩
def CAS.CTRL : Fld := ⟨0x4001D008, 0, 32, 0⟩
def CAS.CTRL.REMEN : Fld := ⟨0x4001D008, 3, 1, 0⟩
def CAS.CTRL.IRQFWD : Fld := ⟨0x4001D008, 2, 1, 0⟩
def CAS.CTRL.AUTORT : Fld := ⟨0x4001D008, 1, 1, 0⟩
def CAS.CTRL.EN : Fld := ⟨0x4001D008, 0, 1, 0⟩
def CAS.STAT : Fld := ⟨0x4001D00C, 0, 32, 0⟩
def CAS.STAT.STATE : Fld := ⟨0x4001D00C, 16, 2, 0⟩
def CAS.STAT.NMEM : Fld := ⟨0x4001D00C, 8, 4, 0⟩
def CAS.STAT.MASTER : Fld := ⟨0x4001D00C, 3, 1, 0⟩
def CAS.STAT.MEMBER : Fld := ⟨0x4001D00C, 0, 3, 0⟩
def CAS.STICKY : Fld := ⟨0x4001D010, 0, 32, 0⟩
def CAS.STICKY.RSVD : Fld := ⟨0x4001D010, 31, 1, 0⟩
def CAS.STICKY.LOCKV : Fld := ⟨0x4001D010, 30, 1, 0⟩
def CAS.STICKY.CLKREF : Fld := ⟨0x4001D010, 8, 1, 0⟩
def CAS.STICKY.MIRQ : Fld := ⟨0x4001D010, 7, 1, 0⟩
def CAS.STICKY.RELAYLOST : Fld := ⟨0x4001D010, 6, 1, 0⟩
def CAS.STICKY.TBSTEP : Fld := ⟨0x4001D010, 5, 1, 0⟩
def CAS.STICKY.HOREFUSED : Fld := ⟨0x4001D010, 4, 1, 0⟩
def CAS.STICKY.TWOMAST : Fld := ⟨0x4001D010, 3, 1, 0⟩
def CAS.STICKY.TRAINFAIL : Fld := ⟨0x4001D010, 2, 1, 0⟩
def CAS.STICKY.LOSS : Fld := ⟨0x4001D010, 0, 1, 0⟩
def CAS.IRQEN : Fld := ⟨0x4001D014, 0, 32, 0⟩
def CAS.FLTEN : Fld := ⟨0x4001D018, 0, 32, 0⟩
def CAS.LOCK : Fld := ⟨0x4001D01C, 0, 32, 0⟩
def CAS.LOCK.VAL : Fld := ⟨0x4001D01C, 0, 1, 0⟩
def CAS.CFG : Fld := ⟨0x4001D040, 0, 32, 0⟩
def CAS.CFG.TRAINTO : Fld := ⟨0x4001D040, 8, 8, 0⟩
def CAS.CFG.LOSSN : Fld := ⟨0x4001D040, 0, 8, 0⟩
def CAS.HOPDLY : Fld := ⟨0x4001D044, 0, 32, 0⟩
def CAS.HOPDLY.D : Fld := ⟨0x4001D044, 0, 16, 0⟩
def CAS.CUMDLY : Fld := ⟨0x4001D048, 0, 32, 0⟩
def CAS.CUMDLY.C : Fld := ⟨0x4001D048, 0, 16, 0⟩
def CAS.STEP : Fld := ⟨0x4001D04C, 0, 32, 0⟩
def CAS.STEP.VAL : Fld := ⟨0x4001D04C, 0, 32, 0⟩
def CAS.LOSSLOG : Fld := ⟨0x4001D050, 0, 32, 0⟩
def CAS.LOSSLOG.V : Fld := ⟨0x4001D050, 31, 1, 0⟩
def CAS.LOSSLOG.REASON : Fld := ⟨0x4001D050, 0, 3, 0⟩
def CAS.LINKERR : Fld := ⟨0x4001D054, 0, 32, 0⟩
def CAS.LINKERR.CODE : Fld := ⟨0x4001D054, 16, 16, 0⟩
def CAS.LINKERR.CRC : Fld := ⟨0x4001D054, 0, 16, 0⟩
def CAS.RELAYCNT : Fld := ⟨0x4001D058, 0, 32, 0⟩
def CAS.RELAYCNT.RELAYED : Fld := ⟨0x4001D058, 16, 16, 0⟩
def CAS.RELAYCNT.RELAYLOST : Fld := ⟨0x4001D058, 0, 16, 0⟩
def CAS.HOLOG : Fld := ⟨0x4001D05C, 0, 32, 0⟩
def CAS.HOLOG.V : Fld := ⟨0x4001D05C, 31, 1, 0⟩
def CAS.HOLOG.REASON : Fld := ⟨0x4001D05C, 28, 2, 0⟩
def CAS.HOLOG.DEST : Fld := ⟨0x4001D05C, 24, 3, 0⟩
def CAS.HOLOG.CTX : Fld := ⟨0x4001D05C, 0, 12, 0⟩
def CAS.MIRQ : Fld := ⟨0x4001D060, 0, 32, 0⟩
def CAS.MIRQ.M : Fld := ⟨0x4001D060, 1, 7, 0⟩
def CAS.RADDR : Fld := ⟨0x4001D064, 0, 32, 0⟩
def CAS.RADDR.ADDR : Fld := ⟨0x4001D064, 0, 32, 0⟩
def CAS.RCTRL : Fld := ⟨0x4001D068, 0, 32, 0⟩
def CAS.RCTRL.GO : Fld := ⟨0x4001D068, 31, 1, 0⟩
def CAS.RCTRL.WR : Fld := ⟨0x4001D068, 30, 1, 0⟩
def CAS.RCTRL.MEMBER : Fld := ⟨0x4001D068, 24, 3, 0⟩
def CAS.RCTRL.WORDS : Fld := ⟨0x4001D068, 0, 4, 0⟩
def CAS.RSTAT : Fld := ⟨0x4001D06C, 0, 32, 0⟩
def CAS.RSTAT.BUSY : Fld := ⟨0x4001D06C, 31, 1, 0⟩
def CAS.RSTAT.RESULT : Fld := ⟨0x4001D06C, 0, 2, 0⟩
def CAS.RBUF : Fld := ⟨0x4001D080, 0, 32, 4⟩
def CAS.RBUF.W : Fld := ⟨0x4001D080, 0, 32, 4⟩

def CAS.table : List RegDesc :=
[⟨0x000, 1, 0, 0x1D030100, .shared, [⟨24, 8, .ro, .any⟩, ⟨16, 8, .ro, .any⟩, ⟨8, 8, .ro, .any⟩]⟩,
   ⟨0x004, 1, 0, 0x00000008, .shared, [⟨0, 32, .ro, .any⟩]⟩,
   ⟨0x008, 1, 0, 0x00000002, .shared, [⟨3, 1, .rwl, .any⟩, ⟨2, 1, .rw, .any⟩, ⟨1, 1, .rw, .any⟩, ⟨0, 1, .rw, .any⟩]⟩,
   ⟨0x00C, 1, 0, 0x00000000, .shared, [⟨16, 2, .ro, .any⟩, ⟨8, 4, .ro, .any⟩, ⟨3, 1, .ro, .any⟩, ⟨0, 3, .ro, .any⟩]⟩,
   ⟨0x010, 1, 0, 0x00000000, .shared, [⟨31, 1, .w1c, .any⟩, ⟨30, 1, .w1c, .any⟩, ⟨8, 1, .w1c, .any⟩, ⟨7, 1, .w1c, .any⟩, ⟨6, 1, .w1c, .any⟩, ⟨5, 1, .w1c, .any⟩, ⟨4, 1, .w1c, .any⟩, ⟨3, 1, .w1c, .any⟩, ⟨2, 1, .w1c, .any⟩, ⟨0, 1, .w1c, .any⟩]⟩,
   ⟨0x014, 1, 0, 0x00000000, .shared, [⟨0, 32, .rw, .any⟩]⟩,
   ⟨0x018, 1, 0, 0x00000007, .shared, [⟨0, 32, .rw, .any⟩]⟩,
   ⟨0x01C, 1, 0, 0x00000000, .shared, [⟨0, 1, .w1s, .any⟩]⟩,
   ⟨0x040, 1, 0, 0x00006408, .shared, [⟨8, 8, .rw, .range 1 255⟩, ⟨0, 8, .rw, .range 1 255⟩]⟩,
   ⟨0x044, 1, 0, 0x00000000, .shared, [⟨0, 16, .ro, .any⟩]⟩,
   ⟨0x048, 1, 0, 0x00000000, .shared, [⟨0, 16, .ro, .any⟩]⟩,
   ⟨0x04C, 1, 0, 0x00000000, .shared, [⟨0, 32, .ro, .any⟩]⟩,
   ⟨0x050, 1, 0, 0x00000000, .shared, [⟨31, 1, .ro, .any⟩, ⟨0, 3, .ro, .any⟩]⟩,
   ⟨0x054, 1, 0, 0x00000000, .shared, [⟨16, 16, .ro, .any⟩, ⟨0, 16, .ro, .any⟩]⟩,
   ⟨0x058, 1, 0, 0x00000000, .shared, [⟨16, 16, .ro, .any⟩, ⟨0, 16, .ro, .any⟩]⟩,
   ⟨0x05C, 1, 0, 0x00000000, .shared, [⟨31, 1, .ro, .any⟩, ⟨28, 2, .ro, .any⟩, ⟨24, 3, .ro, .any⟩, ⟨0, 12, .ro, .any⟩]⟩,
   ⟨0x060, 1, 0, 0x00000000, .shared, [⟨1, 7, .ro, .any⟩]⟩,
   ⟨0x064, 1, 0, 0x00000000, .shared, [⟨0, 32, .rw, .any⟩]⟩,
   ⟨0x068, 1, 0, 0x00000000, .shared, [⟨31, 1, .w1s, .any⟩, ⟨30, 1, .rw, .any⟩, ⟨24, 3, .rw, .any⟩, ⟨0, 4, .rw, .any⟩]⟩,
   ⟨0x06C, 1, 0, 0x00000000, .shared, [⟨31, 1, .ro, .any⟩, ⟨0, 2, .ro, .any⟩]⟩]
  ++ [⟨0x080, 16, 4, 0x00000000, .shared, [⟨0, 32, .rw, .any⟩]⟩]

/-! Page LMP, code 0x1E (R40). -/

def LMP.ID : Fld := ⟨0x4001E000, 0, 32, 0⟩
def LMP.ID.CODE : Fld := ⟨0x4001E000, 24, 8, 0⟩
def LMP.ID.VERSION : Fld := ⟨0x4001E000, 16, 8, 0⟩
def LMP.ID.INSTANCES : Fld := ⟨0x4001E000, 8, 8, 0⟩
def LMP.CAPS : Fld := ⟨0x4001E004, 0, 32, 0⟩
def LMP.CAPS.C : Fld := ⟨0x4001E004, 0, 32, 0⟩
def LMP.CTRL : Fld := ⟨0x4001E008, 0, 32, 0⟩
def LMP.CTRL.ENPIN : Fld := ⟨0x4001E008, 0, 1, 0⟩
def LMP.STAT : Fld := ⟨0x4001E00C, 0, 32, 0⟩
def LMP.STAT.VGDOK : Fld := ⟨0x4001E00C, 31, 1, 0⟩
def LMP.STAT.NTCHOT : Fld := ⟨0x4001E00C, 30, 1, 0⟩
def LMP.STAT.LMPEN : Fld := ⟨0x4001E00C, 29, 1, 0⟩
def LMP.STAT.STATES : Fld := ⟨0x4001E00C, 0, 12, 0⟩
def LMP.STICKY : Fld := ⟨0x4001E010, 0, 32, 0⟩
def LMP.STICKY.RSVD : Fld := ⟨0x4001E010, 31, 1, 0⟩
def LMP.STICKY.LOCKV : Fld := ⟨0x4001E010, 30, 1, 0⟩
def LMP.STICKY.RLYCUT : Fld := ⟨0x4001E010, 10, 1, 0⟩
def LMP.STICKY.OVR : Fld := ⟨0x4001E010, 9, 1, 0⟩
def LMP.STICKY.RLYBUSY : Fld := ⟨0x4001E010, 8, 1, 0⟩
def LMP.STICKY.OPENUNV : Fld := ⟨0x4001E010, 7, 1, 0⟩
def LMP.STICKY.VGDUV : Fld := ⟨0x4001E010, 6, 1, 0⟩
def LMP.STICKY.LOCKOUT : Fld := ⟨0x4001E010, 5, 1, 0⟩
def LMP.STICKY.OVERTEMP : Fld := ⟨0x4001E010, 4, 1, 0⟩
def LMP.STICKY.OVP : Fld := ⟨0x4001E010, 3, 1, 0⟩
def LMP.STICKY.OPEN : Fld := ⟨0x4001E010, 2, 1, 0⟩
def LMP.STICKY.SHORT : Fld := ⟨0x4001E010, 1, 1, 0⟩
def LMP.STICKY.RAMPSHORT : Fld := ⟨0x4001E010, 0, 1, 0⟩
def LMP.IRQEN : Fld := ⟨0x4001E014, 0, 32, 0⟩
def LMP.FLTEN : Fld := ⟨0x4001E018, 0, 32, 0⟩
def LMP.LOCK : Fld := ⟨0x4001E01C, 0, 32, 0⟩
def LMP.LOCK.VAL : Fld := ⟨0x4001E01C, 0, 1, 0⟩
def LMP.RETRYDLY : Fld := ⟨0x4001E040, 0, 32, 0⟩
def LMP.RETRYDLY.D : Fld := ⟨0x4001E040, 0, 16, 0⟩
def LMP.RETRYMAX : Fld := ⟨0x4001E044, 0, 32, 0⟩
def LMP.RETRYMAX.N : Fld := ⟨0x4001E044, 0, 4, 0⟩
def LMP.PROBE : Fld := ⟨0x4001E048, 0, 32, 0⟩
def LMP.PROBE.CH : Fld := ⟨0x4001E048, 0, 4, 0⟩
def LMP.PROBEINT : Fld := ⟨0x4001E04C, 0, 32, 0⟩
def LMP.PROBEINT.I : Fld := ⟨0x4001E04C, 0, 8, 0⟩
def LMP.NTCCFG : Fld := ⟨0x4001E050, 0, 32, 0⟩
def LMP.NTCCFG.NTCEN : Fld := ⟨0x4001E050, 31, 1, 0⟩
def LMP.NTCCFG.NTCTH : Fld := ⟨0x4001E050, 8, 8, 0⟩
def LMP.NTCCFG.NTCHYS : Fld := ⟨0x4001E050, 0, 8, 0⟩
def LMP.NTCV : Fld := ⟨0x4001E054, 0, 32, 0⟩
def LMP.NTCV.MV : Fld := ⟨0x4001E054, 0, 12, 0⟩
def LMP.RLYCTRL : Fld := ⟨0x4001E058, 0, 32, 0⟩
def LMP.RLYCTRL.B : Fld := ⟨0x4001E058, 4, 2, 0⟩
def LMP.RLYCTRL.A : Fld := ⟨0x4001E058, 0, 2, 0⟩
def LMP.RLYCFG : Fld := ⟨0x4001E05C, 0, 32, 0⟩
def LMP.RLYCFG.PW : Fld := ⟨0x4001E05C, 0, 8, 0⟩
def LMP.RLYSTAT : Fld := ⟨0x4001E060, 0, 32, 0⟩
def LMP.RLYSTAT.BLAST : Fld := ⟨0x4001E060, 6, 2, 0⟩
def LMP.RLYSTAT.BWAIT : Fld := ⟨0x4001E060, 5, 1, 0⟩
def LMP.RLYSTAT.BPULSE : Fld := ⟨0x4001E060, 4, 1, 0⟩
def LMP.RLYSTAT.ALAST : Fld := ⟨0x4001E060, 2, 2, 0⟩
def LMP.RLYSTAT.AWAIT : Fld := ⟨0x4001E060, 1, 1, 0⟩
def LMP.RLYSTAT.APULSE : Fld := ⟨0x4001E060, 0, 1, 0⟩
def LMP.OVRSTAT : Fld := ⟨0x4001E064, 0, 32, 0⟩
def LMP.OVRSTAT.CH : Fld := ⟨0x4001E064, 0, 4, 0⟩
def LMP.OVREND : Fld := ⟨0x4001E068, 0, 32, 0⟩
def LMP.OVREND.TB : Fld := ⟨0x4001E068, 0, 32, 0⟩
def LMP.OTCNT : Fld := ⟨0x4001E06C, 0, 32, 0⟩
def LMP.OTCNT.CNT : Fld := ⟨0x4001E06C, 0, 16, 0⟩
def LMP.CHCTRL : Fld := ⟨0x4001E100, 0, 32, 256⟩
def LMP.CHCTRL.EN : Fld := ⟨0x4001E100, 0, 1, 256⟩
def LMP.CHCFG : Fld := ⟨0x4001E104, 0, 32, 256⟩
def LMP.CHCFG.IPK : Fld := ⟨0x4001E104, 24, 8, 256⟩
def LMP.CHCFG.FSW : Fld := ⟨0x4001E104, 16, 8, 256⟩
def LMP.CHCFG.DIMF : Fld := ⟨0x4001E104, 13, 3, 256⟩
def LMP.CHCFG.PHASE : Fld := ⟨0x4001E104, 11, 2, 256⟩
def LMP.CHCFG.LEB : Fld := ⟨0x4001E104, 8, 3, 256⟩
def LMP.CHCFG.SLOPE : Fld := ⟨0x4001E104, 4, 4, 256⟩
def LMP.CHCFG.SSTIME : Fld := ⟨0x4001E104, 0, 4, 256⟩
def LMP.LEVEL : Fld := ⟨0x4001E108, 0, 32, 256⟩
def LMP.LEVEL.DUTY : Fld := ⟨0x4001E108, 16, 16, 256⟩
def LMP.LEVEL.ADIM : Fld := ⟨0x4001E108, 0, 7, 256⟩
def LMP.PROT : Fld := ⟨0x4001E10C, 0, 32, 256⟩
def LMP.PROT.OVPTH : Fld := ⟨0x4001E10C, 24, 8, 256⟩
def LMP.PROT.SHORTTH : Fld := ⟨0x4001E10C, 16, 8, 256⟩
def LMP.PROT.OPENTH : Fld := ⟨0x4001E10C, 8, 8, 256⟩
def LMP.PROT.SHORTT : Fld := ⟨0x4001E10C, 0, 8, 256⟩
def LMP.CHSTAT : Fld := ⟨0x4001E110, 0, 32, 256⟩
def LMP.CHSTAT.STATE : Fld := ⟨0x4001E110, 29, 3, 256⟩
def LMP.CHSTAT.HELD : Fld := ⟨0x4001E110, 28, 1, 256⟩
def LMP.CHSTAT.OVR : Fld := ⟨0x4001E110, 27, 1, 256⟩
def LMP.CHSTAT.RETRIES : Fld := ⟨0x4001E110, 23, 4, 256⟩
def LMP.CHSTAT.DIAG : Fld := ⟨0x4001E110, 16, 2, 256⟩
def LMP.CHSTAT.VFB : Fld := ⟨0x4001E110, 0, 12, 256⟩
def LMP.FLOG : Fld := ⟨0x4001E114, 0, 32, 256⟩
def LMP.FLOG.V : Fld := ⟨0x4001E114, 31, 1, 256⟩
def LMP.FLOG.KIND : Fld := ⟨0x4001E114, 28, 3, 256⟩
def LMP.FLOG.LOCK : Fld := ⟨0x4001E114, 27, 1, 256⟩
def LMP.FLOGTB : Fld := ⟨0x4001E118, 0, 32, 256⟩
def LMP.FLOGTB.TB : Fld := ⟨0x4001E118, 0, 32, 256⟩
def LMP.FCNT : Fld := ⟨0x4001E11C, 0, 32, 256⟩
def LMP.FCNT.RAMPSHORT : Fld := ⟨0x4001E11C, 24, 8, 256⟩
def LMP.FCNT.SHORT : Fld := ⟨0x4001E11C, 16, 8, 256⟩
def LMP.FCNT.OPENOVP : Fld := ⟨0x4001E11C, 8, 8, 256⟩
def LMP.FCNT.PROBES : Fld := ⟨0x4001E11C, 0, 8, 256⟩

def LMP.table : List RegDesc :=
[⟨0x000, 1, 0, 0x1E030400, .shared, [⟨24, 8, .ro, .any⟩, ⟨16, 8, .ro, .any⟩, ⟨8, 8, .ro, .any⟩]⟩,
   ⟨0x004, 1, 0, 0x00000204, .shared, [⟨0, 32, .ro, .any⟩]⟩,
   ⟨0x008, 1, 0, 0x00000000, .shared, [⟨0, 1, .rwl, .any⟩]⟩,
   ⟨0x00C, 1, 0, 0x00000000, .shared, [⟨31, 1, .ro, .any⟩, ⟨30, 1, .ro, .any⟩, ⟨29, 1, .ro, .any⟩, ⟨0, 12, .ro, .any⟩]⟩,
   ⟨0x010, 1, 0, 0x00000000, .shared, [⟨31, 1, .w1c, .any⟩, ⟨30, 1, .w1c, .any⟩, ⟨10, 1, .w1c, .any⟩, ⟨9, 1, .w1c, .any⟩, ⟨8, 1, .w1c, .any⟩, ⟨7, 1, .w1c, .any⟩, ⟨6, 1, .w1c, .any⟩, ⟨5, 1, .w1c, .any⟩, ⟨4, 1, .w1c, .any⟩, ⟨3, 1, .w1c, .any⟩, ⟨2, 1, .w1c, .any⟩, ⟨1, 1, .w1c, .any⟩, ⟨0, 1, .w1c, .any⟩]⟩,
   ⟨0x014, 1, 0, 0x00000000, .shared, [⟨0, 32, .rw, .any⟩]⟩,
   ⟨0x018, 1, 0, 0x0000007F, .shared, [⟨0, 32, .rw, .any⟩]⟩,
   ⟨0x01C, 1, 0, 0x00000000, .shared, [⟨0, 1, .w1s, .any⟩]⟩,
   ⟨0x040, 1, 0, 0x00000064, .shared, [⟨0, 16, .rw, .range 1 65535⟩]⟩,
   ⟨0x044, 1, 0, 0x00000003, .shared, [⟨0, 4, .rw, .any⟩]⟩,
   ⟨0x048, 1, 0, 0x00000000, .shared, [⟨0, 4, .rw, .any⟩]⟩,
   ⟨0x04C, 1, 0, 0x00000014, .shared, [⟨0, 8, .rw, .range 1 255⟩]⟩,
   ⟨0x050, 1, 0, 0x80001405, .shared, [⟨31, 1, .rw, .any⟩, ⟨8, 8, .rw, .any⟩, ⟨0, 8, .rw, .any⟩]⟩,
   ⟨0x054, 1, 0, 0x00000000, .shared, [⟨0, 12, .ro, .any⟩]⟩,
   ⟨0x058, 1, 0, 0x00000000, .shared, [⟨4, 2, .wo, .range 0 2⟩, ⟨0, 2, .wo, .range 0 2⟩]⟩,
   ⟨0x05C, 1, 0, 0x00000014, .shared, [⟨0, 8, .rw, .range 5 200⟩]⟩,
   ⟨0x060, 1, 0, 0x00000000, .shared, [⟨6, 2, .ro, .any⟩, ⟨5, 1, .ro, .any⟩, ⟨4, 1, .ro, .any⟩, ⟨2, 2, .ro, .any⟩, ⟨1, 1, .ro, .any⟩, ⟨0, 1, .ro, .any⟩]⟩,
   ⟨0x064, 1, 0, 0x00000000, .shared, [⟨0, 4, .ro, .any⟩]⟩,
   ⟨0x068, 1, 0, 0x00000000, .shared, [⟨0, 32, .ro, .any⟩]⟩,
   ⟨0x06C, 1, 0, 0x00000000, .shared, [⟨0, 16, .ro, .any⟩]⟩]
  ++ [⟨0x100, 4, 256, 0x00000000, .shared, [⟨0, 1, .rw, .any⟩]⟩,
   ⟨0x104, 4, 256, 0x503C4144, .shared, [⟨24, 8, .rw, .range 20 250⟩, ⟨16, 8, .rw, .range 20 120⟩, ⟨13, 3, .rw, .range 0 4⟩, ⟨11, 2, .rw, .any⟩, ⟨8, 3, .rw, .range 0 4⟩, ⟨4, 4, .rw, .any⟩, ⟨0, 4, .rw, .any⟩]⟩,
   ⟨0x108, 4, 256, 0x27100064, .shared, [⟨16, 16, .rw, .either 0 0 5 10000⟩, ⟨0, 7, .rw, .range 10 100⟩]⟩,
   ⟨0x10C, 4, 256, 0xC814080A, .shared, [⟨24, 8, .rw, .any⟩, ⟨16, 8, .rw, .any⟩, ⟨8, 8, .rw, .any⟩, ⟨0, 8, .rw, .range 1 255⟩]⟩,
   ⟨0x110, 4, 256, 0x00000000, .shared, [⟨29, 3, .ro, .any⟩, ⟨28, 1, .ro, .any⟩, ⟨27, 1, .ro, .any⟩, ⟨23, 4, .ro, .any⟩, ⟨16, 2, .ro, .any⟩, ⟨0, 12, .ro, .any⟩]⟩,
   ⟨0x114, 4, 256, 0x00000000, .shared, [⟨31, 1, .ro, .any⟩, ⟨28, 3, .ro, .any⟩, ⟨27, 1, .ro, .any⟩]⟩,
   ⟨0x118, 4, 256, 0x00000000, .shared, [⟨0, 32, .ro, .any⟩]⟩,
   ⟨0x11C, 4, 256, 0x00000000, .shared, [⟨24, 8, .ro, .any⟩, ⟨16, 8, .ro, .any⟩, ⟨8, 8, .ro, .any⟩, ⟨0, 8, .ro, .any⟩]⟩]

/-! Page MTR, code 0x1F (R40). -/

def MTR.ID : Fld := ⟨0x4001F000, 0, 32, 0⟩
def MTR.ID.CODE : Fld := ⟨0x4001F000, 24, 8, 0⟩
def MTR.ID.VERSION : Fld := ⟨0x4001F000, 16, 8, 0⟩
def MTR.ID.INSTANCES : Fld := ⟨0x4001F000, 8, 8, 0⟩
def MTR.CAPS : Fld := ⟨0x4001F004, 0, 32, 0⟩
def MTR.CAPS.C : Fld := ⟨0x4001F004, 0, 32, 0⟩
def MTR.CTRL : Fld := ⟨0x4001F008, 0, 32, 0⟩
def MTR.CTRL.EN : Fld := ⟨0x4001F008, 0, 1, 0⟩
def MTR.STAT : Fld := ⟨0x4001F00C, 0, 32, 0⟩
def MTR.STICKY : Fld := ⟨0x4001F010, 0, 32, 0⟩
def MTR.STICKY.RSVD : Fld := ⟨0x4001F010, 31, 1, 0⟩
def MTR.STICKY.LOCKV : Fld := ⟨0x4001F010, 30, 1, 0⟩
def MTR.STICKY.EOVF : Fld := ⟨0x4001F010, 4, 1, 0⟩
def MTR.STICKY.NOZC : Fld := ⟨0x4001F010, 3, 1, 0⟩
def MTR.STICKY.SAT : Fld := ⟨0x4001F010, 2, 1, 0⟩
def MTR.STICKY.REFSW : Fld := ⟨0x4001F010, 1, 1, 0⟩
def MTR.STICKY.RDY : Fld := ⟨0x4001F010, 0, 1, 0⟩
def MTR.IRQEN : Fld := ⟨0x4001F014, 0, 32, 0⟩
def MTR.FLTEN : Fld := ⟨0x4001F018, 0, 32, 0⟩
def MTR.LOCK : Fld := ⟨0x4001F01C, 0, 32, 0⟩
def MTR.LOCK.VAL : Fld := ⟨0x4001F01C, 0, 1, 0⟩
def MTR.CFG : Fld := ⟨0x4001F040, 0, 32, 0⟩
def MTR.CFG.NCYC : Fld := ⟨0x4001F040, 24, 8, 0⟩
def MTR.CFG.NOLOAD : Fld := ⟨0x4001F040, 0, 16, 0⟩
def MTR.VGAIN : Fld := ⟨0x4001F044, 0, 32, 0⟩
def MTR.VGAIN.G : Fld := ⟨0x4001F044, 0, 24, 0⟩
def MTR.IGAIN : Fld := ⟨0x4001F048, 0, 32, 0⟩
def MTR.IGAIN.G : Fld := ⟨0x4001F048, 0, 24, 0⟩
def MTR.PHCAL : Fld := ⟨0x4001F04C, 0, 32, 0⟩
def MTR.PHCAL.D : Fld := ⟨0x4001F04C, 0, 8, 0⟩
def MTR.OFFS : Fld := ⟨0x4001F050, 0, 32, 0⟩
def MTR.OFFS.IOFS : Fld := ⟨0x4001F050, 16, 16, 0⟩
def MTR.OFFS.VOFS : Fld := ⟨0x4001F050, 0, 16, 0⟩
def MTR.VRMS : Fld := ⟨0x4001F054, 0, 32, 0⟩
def MTR.VRMS.MV : Fld := ⟨0x4001F054, 0, 24, 0⟩
def MTR.IRMS : Fld := ⟨0x4001F058, 0, 32, 0⟩
def MTR.IRMS.MA : Fld := ⟨0x4001F058, 0, 24, 0⟩
def MTR.P : Fld := ⟨0x4001F05C, 0, 32, 0⟩
def MTR.P.W : Fld := ⟨0x4001F05C, 0, 32, 0⟩
def MTR.FREQ : Fld := ⟨0x4001F060, 0, 32, 0⟩
def MTR.FREQ.MHZ : Fld := ⟨0x4001F060, 0, 16, 0⟩
def MTR.RSTAT : Fld := ⟨0x4001F064, 0, 32, 0⟩
def MTR.RSTAT.V : Fld := ⟨0x4001F064, 31, 1, 0⟩
def MTR.RSTAT.REFSW : Fld := ⟨0x4001F064, 30, 1, 0⟩
def MTR.RSTAT.SAT : Fld := ⟨0x4001F064, 29, 1, 0⟩
def MTR.RSTAT.NOZC : Fld := ⟨0x4001F064, 28, 1, 0⟩
def MTR.RSTAT.CNT : Fld := ⟨0x4001F064, 0, 8, 0⟩
def MTR.EACC : Fld := ⟨0x4001F068, 0, 32, 0⟩
def MTR.EACC.WH : Fld := ⟨0x4001F068, 0, 24, 0⟩
def MTR.EREV : Fld := ⟨0x4001F06C, 0, 32, 0⟩
def MTR.EREV.WH : Fld := ⟨0x4001F06C, 0, 24, 0⟩

def MTR.table : List RegDesc :=
[⟨0x000, 1, 0, 0x1F030100, .shared, [⟨24, 8, .ro, .any⟩, ⟨16, 8, .ro, .any⟩, ⟨8, 8, .ro, .any⟩]⟩,
   ⟨0x004, 1, 0, 0x00000001, .shared, [⟨0, 32, .ro, .any⟩]⟩,
   ⟨0x008, 1, 0, 0x00000000, .shared, [⟨0, 1, .rw, .any⟩]⟩,
   ⟨0x00C, 1, 0, 0x00000000, .shared, []⟩,
   ⟨0x010, 1, 0, 0x00000000, .shared, [⟨31, 1, .w1c, .any⟩, ⟨30, 1, .w1c, .any⟩, ⟨4, 1, .w1c, .any⟩, ⟨3, 1, .w1c, .any⟩, ⟨2, 1, .w1c, .any⟩, ⟨1, 1, .w1c, .any⟩, ⟨0, 1, .w1c, .any⟩]⟩,
   ⟨0x014, 1, 0, 0x00000000, .shared, [⟨0, 32, .rw, .any⟩]⟩,
   ⟨0x018, 1, 0, 0x00000014, .shared, [⟨0, 32, .rw, .any⟩]⟩,
   ⟨0x01C, 1, 0, 0x00000000, .shared, [⟨0, 1, .w1s, .any⟩]⟩,
   ⟨0x040, 1, 0, 0x0A000032, .shared, [⟨24, 8, .rw, .range 1 255⟩, ⟨0, 16, .rw, .any⟩]⟩,
   ⟨0x044, 1, 0, 0x00100000, .shared, [⟨0, 24, .rw, .any⟩]⟩,
   ⟨0x048, 1, 0, 0x00100000, .shared, [⟨0, 24, .rw, .any⟩]⟩,
   ⟨0x04C, 1, 0, 0x00000000, .shared, [⟨0, 8, .rw, .any⟩]⟩,
   ⟨0x050, 1, 0, 0x00000000, .shared, [⟨16, 16, .rw, .any⟩, ⟨0, 16, .rw, .any⟩]⟩,
   ⟨0x054, 1, 0, 0x00000000, .perIni, [⟨0, 24, .ro, .any⟩]⟩,
   ⟨0x058, 1, 0, 0x00000000, .perIni, [⟨0, 24, .ro, .any⟩]⟩,
   ⟨0x05C, 1, 0, 0x00000000, .perIni, [⟨0, 32, .ro, .any⟩]⟩,
   ⟨0x060, 1, 0, 0x00000000, .perIni, [⟨0, 16, .ro, .any⟩]⟩,
   ⟨0x064, 1, 0, 0x00000000, .shared, [⟨31, 1, .ro, .any⟩, ⟨30, 1, .ro, .any⟩, ⟨29, 1, .ro, .any⟩, ⟨28, 1, .ro, .any⟩, ⟨0, 8, .ro, .any⟩]⟩,
   ⟨0x068, 1, 0, 0x00000000, .shared, [⟨0, 24, .ro, .any⟩]⟩,
   ⟨0x06C, 1, 0, 0x00000000, .shared, [⟨0, 24, .ro, .any⟩]⟩]

/-! Page REF, code 0x20 (R40). -/

def REF.ID : Fld := ⟨0x40020000, 0, 32, 0⟩
def REF.ID.CODE : Fld := ⟨0x40020000, 24, 8, 0⟩
def REF.ID.VERSION : Fld := ⟨0x40020000, 16, 8, 0⟩
def REF.ID.INSTANCES : Fld := ⟨0x40020000, 8, 8, 0⟩
def REF.CAPS : Fld := ⟨0x40020004, 0, 32, 0⟩
def REF.CAPS.C : Fld := ⟨0x40020004, 0, 32, 0⟩
def REF.CTRL : Fld := ⟨0x40020008, 0, 32, 0⟩
def REF.STAT : Fld := ⟨0x4002000C, 0, 32, 0⟩
def REF.STAT.SEL : Fld := ⟨0x4002000C, 31, 1, 0⟩
def REF.STAT.BADA : Fld := ⟨0x4002000C, 30, 1, 0⟩
def REF.STAT.BADB : Fld := ⟨0x4002000C, 29, 1, 0⟩
def REF.STAT.CSUSPECT : Fld := ⟨0x4002000C, 28, 1, 0⟩
def REF.STAT.HOLD : Fld := ⟨0x4002000C, 27, 1, 0⟩
def REF.STAT.DCNT : Fld := ⟨0x4002000C, 8, 8, 0⟩
def REF.STAT.CCNT : Fld := ⟨0x4002000C, 0, 8, 0⟩
def REF.STICKY : Fld := ⟨0x40020010, 0, 32, 0⟩
def REF.STICKY.RSVD : Fld := ⟨0x40020010, 31, 1, 0⟩
def REF.STICKY.LOCKV : Fld := ⟨0x40020010, 30, 1, 0⟩
def REF.STICKY.UNRESOLVED : Fld := ⟨0x40020010, 4, 1, 0⟩
def REF.STICKY.CSUSP : Fld := ⟨0x40020010, 3, 1, 0⟩
def REF.STICKY.REFSW : Fld := ⟨0x40020010, 2, 1, 0⟩
def REF.STICKY.DRIFT : Fld := ⟨0x40020010, 1, 1, 0⟩
def REF.IRQEN : Fld := ⟨0x40020014, 0, 32, 0⟩
def REF.FLTEN : Fld := ⟨0x40020018, 0, 32, 0⟩
def REF.LOCK : Fld := ⟨0x4002001C, 0, 32, 0⟩
def REF.LOCK.VAL : Fld := ⟨0x4002001C, 0, 1, 0⟩
def REF.CFG : Fld := ⟨0x40020040, 0, 32, 0⟩
def REF.CFG.DRIFTN : Fld := ⟨0x40020040, 24, 8, 0⟩
def REF.CFG.CTH : Fld := ⟨0x40020040, 16, 8, 0⟩
def REF.CFG.DRIFTTH : Fld := ⟨0x40020040, 0, 8, 0⟩
def REF.DAB : Fld := ⟨0x40020044, 0, 32, 0⟩
def REF.DAB.D : Fld := ⟨0x40020044, 0, 16, 0⟩
def REF.DAC : Fld := ⟨0x40020048, 0, 32, 0⟩
def REF.DAC.D : Fld := ⟨0x40020048, 0, 16, 0⟩
def REF.DBC : Fld := ⟨0x4002004C, 0, 32, 0⟩
def REF.DBC.D : Fld := ⟨0x4002004C, 0, 16, 0⟩
def REF.CTRIM : Fld := ⟨0x40020050, 0, 32, 0⟩
def REF.CTRIM.T : Fld := ⟨0x40020050, 0, 16, 0⟩
def REF.SWLOG : Fld := ⟨0x40020054, 0, 32, 0⟩
def REF.SWLOG.V : Fld := ⟨0x40020054, 31, 1, 0⟩
def REF.SWLOG.SEL : Fld := ⟨0x40020054, 30, 1, 0⟩
def REF.SWLOG.CAUSE : Fld := ⟨0x40020054, 28, 2, 0⟩
def REF.SWASN : Fld := ⟨0x40020058, 0, 32, 0⟩
def REF.SWASN.ASN : Fld := ⟨0x40020058, 0, 32, 0⟩

def REF.table : List RegDesc :=
[⟨0x000, 1, 0, 0x20030100, .shared, [⟨24, 8, .ro, .any⟩, ⟨16, 8, .ro, .any⟩, ⟨8, 8, .ro, .any⟩]⟩,
   ⟨0x004, 1, 0, 0x00000003, .shared, [⟨0, 32, .ro, .any⟩]⟩,
   ⟨0x008, 1, 0, 0x00000000, .shared, []⟩,
   ⟨0x00C, 1, 0, 0x00000000, .shared, [⟨31, 1, .ro, .any⟩, ⟨30, 1, .ro, .any⟩, ⟨29, 1, .ro, .any⟩, ⟨28, 1, .ro, .any⟩, ⟨27, 1, .ro, .any⟩, ⟨8, 8, .ro, .any⟩, ⟨0, 8, .ro, .any⟩]⟩,
   ⟨0x010, 1, 0, 0x00000000, .shared, [⟨31, 1, .w1c, .any⟩, ⟨30, 1, .w1c, .any⟩, ⟨4, 1, .w1c, .any⟩, ⟨3, 1, .w1c, .any⟩, ⟨2, 1, .w1c, .any⟩, ⟨1, 1, .w1c, .any⟩]⟩,
   ⟨0x014, 1, 0, 0x00000000, .shared, [⟨0, 32, .rw, .any⟩]⟩,
   ⟨0x018, 1, 0, 0x0000001E, .shared, [⟨0, 32, .rw, .any⟩]⟩,
   ⟨0x01C, 1, 0, 0x00000000, .shared, [⟨0, 1, .w1s, .any⟩]⟩,
   ⟨0x040, 1, 0, 0x40300078, .shared, [⟨24, 8, .rwl, .range 1 255⟩, ⟨16, 8, .rwl, .range 1 255⟩, ⟨0, 8, .rwl, .range 1 255⟩]⟩,
   ⟨0x044, 1, 0, 0x00000000, .shared, [⟨0, 16, .ro, .any⟩]⟩,
   ⟨0x048, 1, 0, 0x00000000, .shared, [⟨0, 16, .ro, .any⟩]⟩,
   ⟨0x04C, 1, 0, 0x00000000, .shared, [⟨0, 16, .ro, .any⟩]⟩,
   ⟨0x050, 1, 0, 0x00000000, .shared, [⟨0, 16, .ro, .any⟩]⟩,
   ⟨0x054, 1, 0, 0x00000000, .shared, [⟨31, 1, .ro, .any⟩, ⟨30, 1, .ro, .any⟩, ⟨28, 2, .ro, .any⟩]⟩,
   ⟨0x058, 1, 0, 0x00000000, .shared, [⟨0, 32, .ro, .any⟩]⟩]

/-! Page GAU, code 0x21 (R40). -/

def GAU.ID : Fld := ⟨0x40021000, 0, 32, 0⟩
def GAU.ID.CODE : Fld := ⟨0x40021000, 24, 8, 0⟩
def GAU.ID.VERSION : Fld := ⟨0x40021000, 16, 8, 0⟩
def GAU.ID.INSTANCES : Fld := ⟨0x40021000, 8, 8, 0⟩
def GAU.CAPS : Fld := ⟨0x40021004, 0, 32, 0⟩
def GAU.CAPS.C : Fld := ⟨0x40021004, 0, 32, 0⟩
def GAU.CTRL : Fld := ⟨0x40021008, 0, 32, 0⟩
def GAU.CTRL.EN : Fld := ⟨0x40021008, 0, 1, 0⟩
def GAU.STAT : Fld := ⟨0x4002100C, 0, 32, 0⟩
def GAU.STAT.ANCH : Fld := ⟨0x4002100C, 2, 1, 0⟩
def GAU.STAT.HOLD0 : Fld := ⟨0x4002100C, 1, 1, 0⟩
def GAU.STAT.REST : Fld := ⟨0x4002100C, 0, 1, 0⟩
def GAU.STICKY : Fld := ⟨0x40021010, 0, 32, 0⟩
def GAU.STICKY.RSVD : Fld := ⟨0x40021010, 31, 1, 0⟩
def GAU.STICKY.LOCKV : Fld := ⟨0x40021010, 30, 1, 0⟩
def GAU.STICKY.CUTOFF : Fld := ⟨0x40021010, 4, 1, 0⟩
def GAU.STICKY.LOWSOC : Fld := ⟨0x40021010, 3, 1, 0⟩
def GAU.STICKY.ANCHOR : Fld := ⟨0x40021010, 2, 1, 0⟩
def GAU.STICKY.DISAGREE : Fld := ⟨0x40021010, 1, 1, 0⟩
def GAU.IRQEN : Fld := ⟨0x40021014, 0, 32, 0⟩
def GAU.FLTEN : Fld := ⟨0x40021018, 0, 32, 0⟩
def GAU.LOCK : Fld := ⟨0x4002101C, 0, 32, 0⟩
def GAU.LOCK.VAL : Fld := ⟨0x4002101C, 0, 1, 0⟩
def GAU.CFG : Fld := ⟨0x40021040, 0, 32, 0⟩
def GAU.CFG.CAP : Fld := ⟨0x40021040, 16, 16, 0⟩
def GAU.CFG.SHUNT : Fld := ⟨0x40021040, 0, 16, 0⟩
def GAU.CUT : Fld := ⟨0x40021044, 0, 32, 0⟩
def GAU.CUT.CUTN : Fld := ⟨0x40021044, 16, 16, 0⟩
def GAU.CUT.CUTV : Fld := ⟨0x40021044, 0, 16, 0⟩
def GAU.REST : Fld := ⟨0x40021048, 0, 32, 0⟩
def GAU.REST.SLPI : Fld := ⟨0x40021048, 16, 16, 0⟩
def GAU.REST.RESTMIN : Fld := ⟨0x40021048, 0, 16, 0⟩
def GAU.LOWTH : Fld := ⟨0x4002104C, 0, 32, 0⟩
def GAU.LOWTH.SOC : Fld := ⟨0x4002104C, 0, 10, 0⟩
def GAU.I : Fld := ⟨0x40021050, 0, 32, 0⟩
def GAU.I.MA : Fld := ⟨0x40021050, 0, 32, 0⟩
def GAU.V : Fld := ⟨0x40021054, 0, 32, 0⟩
def GAU.V.MV : Fld := ⟨0x40021054, 0, 16, 0⟩
def GAU.CHG : Fld := ⟨0x40021058, 0, 32, 0⟩
def GAU.CHG.UAH : Fld := ⟨0x40021058, 0, 32, 0⟩
def GAU.SOC : Fld := ⟨0x4002105C, 0, 32, 0⟩
def GAU.SOC.VAL : Fld := ⟨0x4002105C, 0, 10, 0⟩
def GAU.OCV0 : Fld := ⟨0x40021060, 0, 32, 0⟩
def GAU.OCV0.HI : Fld := ⟨0x40021060, 16, 16, 0⟩
def GAU.OCV0.LO : Fld := ⟨0x40021060, 0, 16, 0⟩
def GAU.OCV1 : Fld := ⟨0x40021064, 0, 32, 0⟩
def GAU.OCV1.HI : Fld := ⟨0x40021064, 16, 16, 0⟩
def GAU.OCV1.LO : Fld := ⟨0x40021064, 0, 16, 0⟩
def GAU.OCV2 : Fld := ⟨0x40021068, 0, 32, 0⟩
def GAU.OCV2.HI : Fld := ⟨0x40021068, 16, 16, 0⟩
def GAU.OCV2.LO : Fld := ⟨0x40021068, 0, 16, 0⟩
def GAU.OCV3 : Fld := ⟨0x4002106C, 0, 32, 0⟩
def GAU.OCV3.HI : Fld := ⟨0x4002106C, 16, 16, 0⟩
def GAU.OCV3.LO : Fld := ⟨0x4002106C, 0, 16, 0⟩
def GAU.OCV4 : Fld := ⟨0x40021070, 0, 32, 0⟩
def GAU.OCV4.HI : Fld := ⟨0x40021070, 16, 16, 0⟩
def GAU.OCV4.LO : Fld := ⟨0x40021070, 0, 16, 0⟩
def GAU.OCV5 : Fld := ⟨0x40021074, 0, 32, 0⟩
def GAU.OCV5.LO : Fld := ⟨0x40021074, 0, 16, 0⟩
def GAU.RESTT : Fld := ⟨0x40021078, 0, 32, 0⟩
def GAU.RESTT.MIN : Fld := ⟨0x40021078, 0, 16, 0⟩

def GAU.table : List RegDesc :=
[⟨0x000, 1, 0, 0x21030100, .shared, [⟨24, 8, .ro, .any⟩, ⟨16, 8, .ro, .any⟩, ⟨8, 8, .ro, .any⟩]⟩,
   ⟨0x004, 1, 0, 0x00000000, .shared, [⟨0, 32, .ro, .any⟩]⟩,
   ⟨0x008, 1, 0, 0x00000000, .shared, [⟨0, 1, .rw, .any⟩]⟩,
   ⟨0x00C, 1, 0, 0x00000000, .shared, [⟨2, 1, .ro, .any⟩, ⟨1, 1, .ro, .any⟩, ⟨0, 1, .ro, .any⟩]⟩,
   ⟨0x010, 1, 0, 0x00000000, .shared, [⟨31, 1, .w1c, .any⟩, ⟨30, 1, .w1c, .any⟩, ⟨4, 1, .w1c, .any⟩, ⟨3, 1, .w1c, .any⟩, ⟨2, 1, .w1c, .any⟩, ⟨1, 1, .w1c, .any⟩]⟩,
   ⟨0x014, 1, 0, 0x00000000, .shared, [⟨0, 32, .rw, .any⟩]⟩,
   ⟨0x018, 1, 0, 0x00000012, .shared, [⟨0, 32, .rw, .any⟩]⟩,
   ⟨0x01C, 1, 0, 0x00000000, .shared, [⟨0, 1, .w1s, .any⟩]⟩,
   ⟨0x040, 1, 0, 0x07D003E8, .shared, [⟨16, 16, .rwl, .range 1 5000⟩, ⟨0, 16, .rwl, .range 1 65535⟩]⟩,
   ⟨0x044, 1, 0, 0x00640B54, .shared, [⟨16, 16, .rwl, .range 1 1000⟩, ⟨0, 16, .rwl, .range 2500 4400⟩]⟩,
   ⟨0x048, 1, 0, 0x0014001E, .shared, [⟨16, 16, .rw, .any⟩, ⟨0, 16, .rw, .range 1 65535⟩]⟩,
   ⟨0x04C, 1, 0, 0x00000064, .shared, [⟨0, 10, .rw, .range 0 1000⟩]⟩,
   ⟨0x050, 1, 0, 0x00000000, .shared, [⟨0, 32, .ro, .any⟩]⟩,
   ⟨0x054, 1, 0, 0x00000000, .shared, [⟨0, 16, .ro, .any⟩]⟩,
   ⟨0x058, 1, 0, 0x00000000, .shared, [⟨0, 32, .rw, .any⟩]⟩,
   ⟨0x05C, 1, 0, 0x00000000, .shared, [⟨0, 10, .ro, .any⟩]⟩,
   ⟨0x060, 1, 0, 0x0C1C0AF0, .shared, [⟨16, 16, .rw, .any⟩, ⟨0, 16, .rw, .any⟩]⟩,
   ⟨0x064, 1, 0, 0x0CB20C80, .shared, [⟨16, 16, .rw, .any⟩, ⟨0, 16, .rw, .any⟩]⟩,
   ⟨0x068, 1, 0, 0x0CDA0CC6, .shared, [⟨16, 16, .rw, .any⟩, ⟨0, 16, .rw, .any⟩]⟩,
   ⟨0x06C, 1, 0, 0x0CEE0CE4, .shared, [⟨16, 16, .rw, .any⟩, ⟨0, 16, .rw, .any⟩]⟩]
  ++ [⟨0x070, 1, 0, 0x0D160D02, .shared, [⟨16, 16, .rw, .any⟩, ⟨0, 16, .rw, .any⟩]⟩,
   ⟨0x074, 1, 0, 0x00000D48, .shared, [⟨0, 16, .rw, .any⟩]⟩,
   ⟨0x078, 1, 0, 0x00000000, .shared, [⟨0, 16, .ro, .any⟩]⟩]

/-! Page UPD, code 0x22 (R40). -/

def UPD.ID : Fld := ⟨0x40022000, 0, 32, 0⟩
def UPD.ID.CODE : Fld := ⟨0x40022000, 24, 8, 0⟩
def UPD.ID.VERSION : Fld := ⟨0x40022000, 16, 8, 0⟩
def UPD.ID.INSTANCES : Fld := ⟨0x40022000, 8, 8, 0⟩
def UPD.CAPS : Fld := ⟨0x40022004, 0, 32, 0⟩
def UPD.CAPS.C : Fld := ⟨0x40022004, 0, 32, 0⟩
def UPD.CTRL : Fld := ⟨0x40022008, 0, 32, 0⟩
def UPD.STAT : Fld := ⟨0x4002200C, 0, 32, 0⟩
def UPD.STICKY : Fld := ⟨0x40022010, 0, 32, 0⟩
def UPD.STICKY.RSVD : Fld := ⟨0x40022010, 31, 1, 0⟩
def UPD.STICKY.LOCKV : Fld := ⟨0x40022010, 30, 1, 0⟩
def UPD.STICKY.SEAMREF : Fld := ⟨0x40022010, 7, 1, 0⟩
def UPD.STICKY.JFULL : Fld := ⟨0x40022010, 6, 1, 0⟩
def UPD.STICKY.HREF : Fld := ⟨0x40022010, 5, 1, 0⟩
def UPD.STICKY.CONFIRMED : Fld := ⟨0x40022010, 4, 1, 0⟩
def UPD.STICKY.FALLBACK : Fld := ⟨0x40022010, 3, 1, 0⟩
def UPD.STICKY.ROLLBACK : Fld := ⟨0x40022010, 2, 1, 0⟩
def UPD.STICKY.RECBAD : Fld := ⟨0x40022010, 1, 1, 0⟩
def UPD.IRQEN : Fld := ⟨0x40022014, 0, 32, 0⟩
def UPD.FLTEN : Fld := ⟨0x40022018, 0, 32, 0⟩
def UPD.LOCK : Fld := ⟨0x4002201C, 0, 32, 0⟩
def UPD.LOCK.VAL : Fld := ⟨0x4002201C, 0, 1, 0⟩
def UPD.BOOTSTAT : Fld := ⟨0x40022040, 0, 32, 0⟩
def UPD.BOOTSTAT.WARM : Fld := ⟨0x40022040, 6, 1, 0⟩
def UPD.BOOTSTAT.SCHOLD : Fld := ⟨0x40022040, 5, 1, 0⟩
def UPD.BOOTSTAT.MIGRATED : Fld := ⟨0x40022040, 4, 1, 0⟩
def UPD.BOOTSTAT.PATH : Fld := ⟨0x40022040, 0, 3, 0⟩
def UPD.ACT : Fld := ⟨0x40022044, 0, 32, 0⟩
def UPD.ACT.VAL : Fld := ⟨0x40022044, 0, 32, 0⟩
def UPD.HEALTHBOOTS : Fld := ⟨0x40022048, 0, 32, 0⟩
def UPD.HEALTHBOOTS.HB : Fld := ⟨0x40022048, 0, 4, 0⟩
def UPD.HCONF : Fld := ⟨0x4002204C, 0, 32, 0⟩
def UPD.HCONF.KEY : Fld := ⟨0x4002204C, 0, 16, 0⟩
def UPD.IMGVER : Fld := ⟨0x40022050, 0, 32, 0⟩
def UPD.IMGVER.VER : Fld := ⟨0x40022050, 0, 32, 0⟩
def UPD.FLOOR : Fld := ⟨0x40022054, 0, 32, 0⟩
def UPD.FLOOR.F : Fld := ⟨0x40022054, 0, 16, 0⟩
def UPD.SCHEMA : Fld := ⟨0x40022058, 0, 32, 0⟩
def UPD.SCHEMA.S : Fld := ⟨0x40022058, 0, 16, 0⟩
def UPD.SRV : Fld := ⟨0x40022060, 0, 32, 0⟩
def UPD.SRV.BANK : Fld := ⟨0x40022060, 0, 1, 0⟩
def UPD.SSTAT : Fld := ⟨0x40022064, 0, 32, 0⟩
def UPD.SSTAT.CHECKED : Fld := ⟨0x40022064, 16, 13, 0⟩
def UPD.SSTAT.STATE : Fld := ⟨0x40022064, 0, 2, 0⟩
def UPD.IMGID : Fld := ⟨0x40022068, 0, 32, 0⟩
def UPD.IMGID.VER : Fld := ⟨0x40022068, 0, 32, 0⟩
def UPD.NBLK : Fld := ⟨0x4002206C, 0, 32, 0⟩
def UPD.NBLK.N : Fld := ⟨0x4002206C, 0, 13, 0⟩
def UPD.CHKSRC : Fld := ⟨0x40022070, 0, 32, 0⟩
def UPD.CHKSRC.ADDR : Fld := ⟨0x40022070, 10, 22, 0⟩
def UPD.CHKCTRL : Fld := ⟨0x40022074, 0, 32, 0⟩
def UPD.CHKCTRL.GO : Fld := ⟨0x40022074, 31, 1, 0⟩
def UPD.CHKCTRL.OP : Fld := ⟨0x40022074, 28, 2, 0⟩
def UPD.CHKCTRL.CBLK : Fld := ⟨0x40022074, 0, 12, 0⟩
def UPD.CHKSTAT : Fld := ⟨0x40022078, 0, 32, 0⟩
def UPD.CHKSTAT.BUSY : Fld := ⟨0x40022078, 31, 1, 0⟩
def UPD.CHKSTAT.STATUS : Fld := ⟨0x40022078, 0, 8, 0⟩
def UPD.JADDR : Fld := ⟨0x4002207C, 0, 32, 0⟩
def UPD.JADDR.OFF : Fld := ⟨0x4002207C, 3, 15, 0⟩
def UPD.JDLO : Fld := ⟨0x40022080, 0, 32, 0⟩
def UPD.JDLO.D : Fld := ⟨0x40022080, 0, 32, 0⟩
def UPD.JDHI : Fld := ⟨0x40022084, 0, 32, 0⟩
def UPD.JDHI.D : Fld := ⟨0x40022084, 0, 32, 0⟩
def UPD.JCTRL : Fld := ⟨0x40022088, 0, 32, 0⟩
def UPD.JCTRL.GO : Fld := ⟨0x40022088, 0, 1, 0⟩
def UPD.BMAP : Fld := ⟨0x40022200, 0, 32, 4⟩
def UPD.BMAP.B : Fld := ⟨0x40022200, 0, 32, 4⟩

def UPD.table : List RegDesc :=
[⟨0x000, 1, 0, 0x22030100, .shared, [⟨24, 8, .ro, .any⟩, ⟨16, 8, .ro, .any⟩, ⟨8, 8, .ro, .any⟩]⟩,
   ⟨0x004, 1, 0, 0x00001000, .shared, [⟨0, 32, .ro, .any⟩]⟩,
   ⟨0x008, 1, 0, 0x00000000, .shared, []⟩,
   ⟨0x00C, 1, 0, 0x00000000, .shared, []⟩,
   ⟨0x010, 1, 0, 0x00000000, .shared, [⟨31, 1, .w1c, .any⟩, ⟨30, 1, .w1c, .any⟩, ⟨7, 1, .w1c, .any⟩, ⟨6, 1, .w1c, .any⟩, ⟨5, 1, .w1c, .any⟩, ⟨4, 1, .w1c, .any⟩, ⟨3, 1, .w1c, .any⟩, ⟨2, 1, .w1c, .any⟩, ⟨1, 1, .w1c, .any⟩]⟩,
   ⟨0x014, 1, 0, 0x00000000, .shared, [⟨0, 32, .rw, .any⟩]⟩,
   ⟨0x018, 1, 0, 0x00000006, .shared, [⟨0, 32, .rw, .any⟩]⟩,
   ⟨0x01C, 1, 0, 0x00000000, .shared, [⟨0, 1, .w1s, .any⟩]⟩,
   ⟨0x040, 1, 0, 0x00000000, .shared, [⟨6, 1, .ro, .any⟩, ⟨5, 1, .ro, .any⟩, ⟨4, 1, .ro, .any⟩, ⟨0, 3, .ro, .any⟩]⟩,
   ⟨0x044, 1, 0, 0x00000000, .shared, [⟨0, 32, .ro, .any⟩]⟩,
   ⟨0x048, 1, 0, 0x00000003, .shared, [⟨0, 4, .ro, .any⟩]⟩,
   ⟨0x04C, 1, 0, 0x00000000, .shared, [⟨0, 16, .wo, .any⟩]⟩,
   ⟨0x050, 1, 0, 0x00000000, .shared, [⟨0, 32, .ro, .any⟩]⟩,
   ⟨0x054, 1, 0, 0x00000000, .shared, [⟨0, 16, .ro, .any⟩]⟩,
   ⟨0x058, 1, 0, 0x00000000, .shared, [⟨0, 16, .ro, .any⟩]⟩,
   ⟨0x060, 1, 0, 0x00000000, .shared, [⟨0, 1, .rw, .any⟩]⟩,
   ⟨0x064, 1, 0, 0x00000000, .shared, [⟨16, 13, .ro, .any⟩, ⟨0, 2, .ro, .any⟩]⟩,
   ⟨0x068, 1, 0, 0x00000000, .shared, [⟨0, 32, .ro, .any⟩]⟩,
   ⟨0x06C, 1, 0, 0x00000000, .shared, [⟨0, 13, .ro, .any⟩]⟩,
   ⟨0x070, 1, 0, 0x00000000, .shared, [⟨10, 22, .rw, .any⟩]⟩]
  ++ [⟨0x074, 1, 0, 0x00000000, .shared, [⟨31, 1, .w1s, .any⟩, ⟨28, 2, .rw, .range 1 3⟩, ⟨0, 12, .rw, .any⟩]⟩,
   ⟨0x078, 1, 0, 0x00000000, .shared, [⟨31, 1, .ro, .any⟩, ⟨0, 8, .ro, .any⟩]⟩,
   ⟨0x07C, 1, 0, 0x00000000, .shared, [⟨3, 15, .rw, .any⟩]⟩,
   ⟨0x080, 1, 0, 0x00000000, .shared, [⟨0, 32, .rw, .any⟩]⟩,
   ⟨0x084, 1, 0, 0x00000000, .shared, [⟨0, 32, .rw, .any⟩]⟩,
   ⟨0x088, 1, 0, 0x00000000, .shared, [⟨0, 1, .w1s, .any⟩]⟩,
   ⟨0x200, 128, 4, 0x00000000, .shared, [⟨0, 32, .ro, .any⟩]⟩]

/-! Page GIO, code 0x23 (R40). -/

def GIO.ID : Fld := ⟨0x40023000, 0, 32, 0⟩
def GIO.ID.CODE : Fld := ⟨0x40023000, 24, 8, 0⟩
def GIO.ID.VERSION : Fld := ⟨0x40023000, 16, 8, 0⟩
def GIO.ID.INSTANCES : Fld := ⟨0x40023000, 8, 8, 0⟩
def GIO.CAPS : Fld := ⟨0x40023004, 0, 32, 0⟩
def GIO.CAPS.C : Fld := ⟨0x40023004, 0, 32, 0⟩
def GIO.CTRL : Fld := ⟨0x40023008, 0, 32, 0⟩
def GIO.STAT : Fld := ⟨0x4002300C, 0, 32, 0⟩
def GIO.STICKY : Fld := ⟨0x40023010, 0, 32, 0⟩
def GIO.STICKY.RSVD : Fld := ⟨0x40023010, 31, 1, 0⟩
def GIO.STICKY.LOCKV : Fld := ⟨0x40023010, 30, 1, 0⟩
def GIO.STICKY.EDGE : Fld := ⟨0x40023010, 0, 30, 0⟩
def GIO.IRQEN : Fld := ⟨0x40023014, 0, 32, 0⟩
def GIO.FLTEN : Fld := ⟨0x40023018, 0, 32, 0⟩
def GIO.LOCK : Fld := ⟨0x4002301C, 0, 32, 0⟩
def GIO.LOCK.VAL : Fld := ⟨0x4002301C, 0, 1, 0⟩
def GIO.OUT : Fld := ⟨0x40023040, 0, 32, 0⟩
def GIO.OUT.P : Fld := ⟨0x40023040, 0, 30, 0⟩
def GIO.OUTSET : Fld := ⟨0x40023044, 0, 32, 0⟩
def GIO.OUTSET.P : Fld := ⟨0x40023044, 0, 30, 0⟩
def GIO.OUTCLR : Fld := ⟨0x40023048, 0, 32, 0⟩
def GIO.OUTCLR.P : Fld := ⟨0x40023048, 0, 30, 0⟩
def GIO.OE : Fld := ⟨0x4002304C, 0, 32, 0⟩
def GIO.OE.P : Fld := ⟨0x4002304C, 0, 30, 0⟩
def GIO.IN : Fld := ⟨0x40023050, 0, 32, 0⟩
def GIO.IN.P : Fld := ⟨0x40023050, 0, 30, 0⟩
def GIO.OD : Fld := ⟨0x40023054, 0, 32, 0⟩
def GIO.OD.P : Fld := ⟨0x40023054, 0, 30, 0⟩
def GIO.DRIVE : Fld := ⟨0x40023058, 0, 32, 0⟩
def GIO.DRIVE.P : Fld := ⟨0x40023058, 0, 30, 0⟩
def GIO.PULL0 : Fld := ⟨0x40023060, 0, 32, 0⟩
def GIO.PULL0.G0 : Fld := ⟨0x40023060, 0, 2, 0⟩
def GIO.PULL0.G1 : Fld := ⟨0x40023060, 2, 2, 0⟩
def GIO.PULL0.G2 : Fld := ⟨0x40023060, 4, 2, 0⟩
def GIO.PULL0.G3 : Fld := ⟨0x40023060, 6, 2, 0⟩
def GIO.PULL0.G4 : Fld := ⟨0x40023060, 8, 2, 0⟩
def GIO.PULL0.G5 : Fld := ⟨0x40023060, 10, 2, 0⟩
def GIO.PULL0.G6 : Fld := ⟨0x40023060, 12, 2, 0⟩
def GIO.PULL0.G7 : Fld := ⟨0x40023060, 14, 2, 0⟩
def GIO.PULL0.G8 : Fld := ⟨0x40023060, 16, 2, 0⟩
def GIO.PULL0.G9 : Fld := ⟨0x40023060, 18, 2, 0⟩
def GIO.PULL0.G10 : Fld := ⟨0x40023060, 20, 2, 0⟩
def GIO.PULL0.G11 : Fld := ⟨0x40023060, 22, 2, 0⟩
def GIO.PULL0.G12 : Fld := ⟨0x40023060, 24, 2, 0⟩
def GIO.PULL0.G13 : Fld := ⟨0x40023060, 26, 2, 0⟩
def GIO.PULL0.G14 : Fld := ⟨0x40023060, 28, 2, 0⟩
def GIO.PULL0.G15 : Fld := ⟨0x40023060, 30, 2, 0⟩
def GIO.PULL1 : Fld := ⟨0x40023064, 0, 32, 0⟩
def GIO.PULL1.G16 : Fld := ⟨0x40023064, 0, 2, 0⟩
def GIO.PULL1.G17 : Fld := ⟨0x40023064, 2, 2, 0⟩
def GIO.PULL1.G18 : Fld := ⟨0x40023064, 4, 2, 0⟩
def GIO.PULL1.G19 : Fld := ⟨0x40023064, 6, 2, 0⟩
def GIO.PULL1.G20 : Fld := ⟨0x40023064, 8, 2, 0⟩
def GIO.PULL1.G21 : Fld := ⟨0x40023064, 10, 2, 0⟩
def GIO.PULL1.G22 : Fld := ⟨0x40023064, 12, 2, 0⟩
def GIO.PULL1.G23 : Fld := ⟨0x40023064, 14, 2, 0⟩
def GIO.PULL1.G24 : Fld := ⟨0x40023064, 16, 2, 0⟩
def GIO.PULL1.G25 : Fld := ⟨0x40023064, 18, 2, 0⟩
def GIO.PULL1.G26 : Fld := ⟨0x40023064, 20, 2, 0⟩
def GIO.PULL1.G27 : Fld := ⟨0x40023064, 22, 2, 0⟩
def GIO.PULL1.G28 : Fld := ⟨0x40023064, 24, 2, 0⟩
def GIO.PULL1.G29 : Fld := ⟨0x40023064, 26, 2, 0⟩
def GIO.EDGE0 : Fld := ⟨0x40023070, 0, 32, 0⟩
def GIO.EDGE0.E : Fld := ⟨0x40023070, 0, 32, 0⟩
def GIO.EDGE1 : Fld := ⟨0x40023074, 0, 32, 0⟩
def GIO.EDGE1.E : Fld := ⟨0x40023074, 0, 28, 0⟩
def GIO.TASK : Fld := ⟨0x40023080, 0, 32, 4⟩
def GIO.TASK.ACTION : Fld := ⟨0x40023080, 8, 2, 4⟩
def GIO.TASK.BALL : Fld := ⟨0x40023080, 0, 5, 4⟩

def GIO.table : List RegDesc :=
[⟨0x000, 1, 0, 0x23030100, .shared, [⟨24, 8, .ro, .any⟩, ⟨16, 8, .ro, .any⟩, ⟨8, 8, .ro, .any⟩]⟩,
   ⟨0x004, 1, 0, 0x0000001E, .shared, [⟨0, 32, .ro, .any⟩]⟩,
   ⟨0x008, 1, 0, 0x00000000, .shared, []⟩,
   ⟨0x00C, 1, 0, 0x00000000, .shared, []⟩,
   ⟨0x010, 1, 0, 0x00000000, .shared, [⟨31, 1, .w1c, .any⟩, ⟨30, 1, .w1c, .any⟩, ⟨0, 30, .w1c, .any⟩]⟩,
   ⟨0x014, 1, 0, 0x00000000, .shared, [⟨0, 32, .rw, .any⟩]⟩,
   ⟨0x018, 1, 0, 0x00000000, .shared, [⟨0, 32, .rw, .any⟩]⟩,
   ⟨0x01C, 1, 0, 0x00000000, .shared, [⟨0, 1, .w1s, .any⟩]⟩,
   ⟨0x040, 1, 0, 0x00000000, .shared, [⟨0, 30, .rw, .any⟩]⟩,
   ⟨0x044, 1, 0, 0x00000000, .shared, [⟨0, 30, .w1s, .any⟩]⟩,
   ⟨0x048, 1, 0, 0x00000000, .shared, [⟨0, 30, .w1c, .any⟩]⟩,
   ⟨0x04C, 1, 0, 0x00000000, .shared, [⟨0, 30, .rw, .any⟩]⟩,
   ⟨0x050, 1, 0, 0x00000000, .shared, [⟨0, 30, .ro, .any⟩]⟩,
   ⟨0x054, 1, 0, 0x00000000, .shared, [⟨0, 30, .rw, .any⟩]⟩,
   ⟨0x058, 1, 0, 0x00000000, .shared, [⟨0, 30, .rw, .any⟩]⟩,
   ⟨0x060, 1, 0, 0x00000000, .shared, [⟨0, 2, .rw, .range 0 2⟩, ⟨2, 2, .rw, .range 0 2⟩, ⟨4, 2, .rw, .range 0 2⟩, ⟨6, 2, .rw, .range 0 2⟩, ⟨8, 2, .rw, .range 0 2⟩, ⟨10, 2, .rw, .range 0 2⟩, ⟨12, 2, .rw, .range 0 2⟩, ⟨14, 2, .rw, .range 0 2⟩, ⟨16, 2, .rw, .range 0 2⟩, ⟨18, 2, .rw, .range 0 2⟩, ⟨20, 2, .rw, .range 0 2⟩, ⟨22, 2, .rw, .range 0 2⟩, ⟨24, 2, .rw, .range 0 2⟩, ⟨26, 2, .rw, .range 0 2⟩, ⟨28, 2, .rw, .range 0 2⟩, ⟨30, 2, .rw, .range 0 2⟩]⟩,
   ⟨0x064, 1, 0, 0x00000000, .shared, [⟨0, 2, .rw, .range 0 2⟩, ⟨2, 2, .rw, .range 0 2⟩, ⟨4, 2, .rw, .range 0 2⟩, ⟨6, 2, .rw, .range 0 2⟩, ⟨8, 2, .rw, .range 0 2⟩, ⟨10, 2, .rw, .range 0 2⟩, ⟨12, 2, .rw, .range 0 2⟩, ⟨14, 2, .rw, .range 0 2⟩, ⟨16, 2, .rw, .range 0 2⟩, ⟨18, 2, .rw, .range 0 2⟩, ⟨20, 2, .rw, .range 0 2⟩, ⟨22, 2, .rw, .range 0 2⟩, ⟨24, 2, .rw, .range 0 2⟩, ⟨26, 2, .rw, .range 0 2⟩]⟩,
   ⟨0x070, 1, 0, 0x00000000, .shared, [⟨0, 32, .rw, .any⟩]⟩,
   ⟨0x074, 1, 0, 0x00000000, .shared, [⟨0, 28, .rw, .any⟩]⟩,
   ⟨0x080, 8, 4, 0x00000000, .shared, [⟨8, 2, .rw, .any⟩, ⟨0, 5, .rw, .range 0 29⟩]⟩]

/-! Page CPU, code 0x24 (R40). -/

def CPU.ID : Fld := ⟨0x40024000, 0, 32, 0⟩
def CPU.ID.CODE : Fld := ⟨0x40024000, 24, 8, 0⟩
def CPU.ID.VERSION : Fld := ⟨0x40024000, 16, 8, 0⟩
def CPU.ID.INSTANCES : Fld := ⟨0x40024000, 8, 8, 0⟩
def CPU.CAPS : Fld := ⟨0x40024004, 0, 32, 0⟩
def CPU.CAPS.C : Fld := ⟨0x40024004, 0, 32, 0⟩
def CPU.CTRL : Fld := ⟨0x40024008, 0, 32, 0⟩
def CPU.CTRL.DN1RUN : Fld := ⟨0x40024008, 0, 1, 0⟩
def CPU.STAT : Fld := ⟨0x4002400C, 0, 32, 0⟩
def CPU.STAT.LOCK1 : Fld := ⟨0x4002400C, 2, 1, 0⟩
def CPU.STAT.SLEEP1 : Fld := ⟨0x4002400C, 1, 1, 0⟩
def CPU.STAT.SLEEP0 : Fld := ⟨0x4002400C, 0, 1, 0⟩
def CPU.STICKY : Fld := ⟨0x40024010, 0, 32, 0⟩
def CPU.STICKY.RSVD : Fld := ⟨0x40024010, 31, 1, 0⟩
def CPU.STICKY.LOCKV : Fld := ⟨0x40024010, 30, 1, 0⟩
def CPU.STICKY.CACHEPAR : Fld := ⟨0x40024010, 1, 1, 0⟩
def CPU.STICKY.LOCKUP1 : Fld := ⟨0x40024010, 0, 1, 0⟩
def CPU.IRQEN : Fld := ⟨0x40024014, 0, 32, 0⟩
def CPU.FLTEN : Fld := ⟨0x40024018, 0, 32, 0⟩
def CPU.LOCK : Fld := ⟨0x4002401C, 0, 32, 0⟩
def CPU.LOCK.VAL : Fld := ⟨0x4002401C, 0, 1, 0⟩
def CPU.DN1PC : Fld := ⟨0x40024040, 0, 32, 0⟩
def CPU.DN1PC.PC : Fld := ⟨0x40024040, 1, 31, 0⟩
def CPU.DBSET : Fld := ⟨0x40024044, 0, 32, 0⟩
def CPU.DBSET.DB : Fld := ⟨0x40024044, 0, 2, 0⟩
def CPU.DBSTAT : Fld := ⟨0x40024048, 0, 32, 0⟩
def CPU.DBSTAT.DB : Fld := ⟨0x40024048, 0, 2, 0⟩
def CPU.XPC : Fld := ⟨0x40024080, 0, 32, 64⟩
def CPU.XPC.PC : Fld := ⟨0x40024080, 0, 32, 64⟩
def CPU.XCAUSE : Fld := ⟨0x40024084, 0, 32, 64⟩
def CPU.XCAUSE.V : Fld := ⟨0x40024084, 31, 1, 64⟩
def CPU.XCAUSE.LONG : Fld := ⟨0x40024084, 30, 1, 64⟩
def CPU.XCAUSE.MODE : Fld := ⟨0x40024084, 29, 1, 64⟩
def CPU.XCAUSE.ARG : Fld := ⟨0x40024084, 16, 8, 64⟩
def CPU.XCAUSE.CAUSE : Fld := ⟨0x40024084, 0, 4, 64⟩
def CPU.XADDR : Fld := ⟨0x40024088, 0, 32, 64⟩
def CPU.XADDR.A : Fld := ⟨0x40024088, 0, 32, 64⟩
def CPU.XFAULT : Fld := ⟨0x4002408C, 0, 32, 64⟩
def CPU.XFAULT.E : Fld := ⟨0x4002408C, 0, 32, 64⟩
def CPU.IPRIO0 : Fld := ⟨0x40024090, 0, 32, 64⟩
def CPU.IPRIO0.L : Fld := ⟨0x40024090, 0, 32, 64⟩
def CPU.IPRIO1 : Fld := ⟨0x40024094, 0, 32, 64⟩
def CPU.IPRIO1.L : Fld := ⟨0x40024094, 0, 32, 64⟩
def CPU.IPRIO2 : Fld := ⟨0x40024098, 0, 32, 64⟩
def CPU.IPRIO2.L : Fld := ⟨0x40024098, 0, 32, 64⟩
def CPU.IPRIO3 : Fld := ⟨0x4002409C, 0, 32, 64⟩
def CPU.IPRIO3.L : Fld := ⟨0x4002409C, 0, 32, 64⟩
def CPU.IPEND0 : Fld := ⟨0x400240A0, 0, 32, 64⟩
def CPU.IPEND0.P : Fld := ⟨0x400240A0, 0, 32, 64⟩
def CPU.IPEND1 : Fld := ⟨0x400240A4, 0, 32, 64⟩
def CPU.IPEND1.P : Fld := ⟨0x400240A4, 0, 32, 64⟩
def CPU.CACHEERR : Fld := ⟨0x400240A8, 0, 32, 64⟩
def CPU.CACHEERR.CNT : Fld := ⟨0x400240A8, 0, 16, 64⟩

def CPU.table : List RegDesc :=
[⟨0x000, 1, 0, 0x24030100, .shared, [⟨24, 8, .ro, .any⟩, ⟨16, 8, .ro, .any⟩, ⟨8, 8, .ro, .any⟩]⟩,
   ⟨0x004, 1, 0, 0x00000002, .shared, [⟨0, 32, .ro, .any⟩]⟩,
   ⟨0x008, 1, 0, 0x00000000, .shared, [⟨0, 1, .rw, .any⟩]⟩,
   ⟨0x00C, 1, 0, 0x00000000, .shared, [⟨2, 1, .ro, .any⟩, ⟨1, 1, .ro, .any⟩, ⟨0, 1, .ro, .any⟩]⟩,
   ⟨0x010, 1, 0, 0x00000000, .shared, [⟨31, 1, .w1c, .any⟩, ⟨30, 1, .w1c, .any⟩, ⟨1, 1, .w1c, .any⟩, ⟨0, 1, .w1c, .any⟩]⟩,
   ⟨0x014, 1, 0, 0x00000000, .shared, [⟨0, 32, .rw, .any⟩]⟩,
   ⟨0x018, 1, 0, 0x00000001, .shared, [⟨0, 32, .rw, .any⟩]⟩,
   ⟨0x01C, 1, 0, 0x00000000, .shared, [⟨0, 1, .w1s, .any⟩]⟩,
   ⟨0x040, 1, 0, 0x00000000, .shared, [⟨1, 31, .rw, .any⟩]⟩,
   ⟨0x044, 1, 0, 0x00000000, .shared, [⟨0, 2, .wo, .any⟩]⟩,
   ⟨0x048, 1, 0, 0x00000000, .shared, [⟨0, 2, .w1c, .any⟩]⟩,
   ⟨0x080, 2, 64, 0x00000000, .shared, [⟨0, 32, .ro, .any⟩]⟩,
   ⟨0x084, 2, 64, 0x00000000, .shared, [⟨31, 1, .ro, .any⟩, ⟨30, 1, .ro, .any⟩, ⟨29, 1, .ro, .any⟩, ⟨16, 8, .ro, .any⟩, ⟨0, 4, .ro, .any⟩]⟩,
   ⟨0x088, 2, 64, 0x00000000, .shared, [⟨0, 32, .ro, .any⟩]⟩,
   ⟨0x08C, 2, 64, 0x00000000, .shared, [⟨0, 32, .ro, .any⟩]⟩,
   ⟨0x090, 2, 64, 0x00000000, .shared, [⟨0, 32, .rw, .any⟩]⟩,
   ⟨0x094, 2, 64, 0x00000000, .shared, [⟨0, 32, .rw, .any⟩]⟩,
   ⟨0x098, 2, 64, 0x00000000, .shared, [⟨0, 32, .rw, .any⟩]⟩,
   ⟨0x09C, 2, 64, 0x00000000, .shared, [⟨0, 32, .rw, .any⟩]⟩,
   ⟨0x0A0, 2, 64, 0x00000000, .shared, [⟨0, 32, .ro, .any⟩]⟩]
  ++ [⟨0x0A4, 2, 64, 0x00000000, .shared, [⟨0, 32, .ro, .any⟩]⟩,
   ⟨0x0A8, 2, 64, 0x00000000, .shared, [⟨0, 16, .ro, .any⟩]⟩]

/-! Page MOV, code 0x25 (R40). -/

def MOV.ID : Fld := ⟨0x40025000, 0, 32, 0⟩
def MOV.ID.CODE : Fld := ⟨0x40025000, 24, 8, 0⟩
def MOV.ID.VERSION : Fld := ⟨0x40025000, 16, 8, 0⟩
def MOV.ID.INSTANCES : Fld := ⟨0x40025000, 8, 8, 0⟩
def MOV.CAPS : Fld := ⟨0x40025004, 0, 32, 0⟩
def MOV.CAPS.C : Fld := ⟨0x40025004, 0, 32, 0⟩
def MOV.CTRL : Fld := ⟨0x40025008, 0, 32, 0⟩
def MOV.STAT : Fld := ⟨0x4002500C, 0, 32, 0⟩
def MOV.STAT.ACTIVE : Fld := ⟨0x4002500C, 0, 16, 0⟩
def MOV.STICKY : Fld := ⟨0x40025010, 0, 32, 0⟩
def MOV.STICKY.RSVD : Fld := ⟨0x40025010, 31, 1, 0⟩
def MOV.STICKY.LOCKV : Fld := ⟨0x40025010, 30, 1, 0⟩
def MOV.STICKY.DESCERR : Fld := ⟨0x40025010, 17, 1, 0⟩
def MOV.STICKY.ERR : Fld := ⟨0x40025010, 16, 1, 0⟩
def MOV.STICKY.DONE : Fld := ⟨0x40025010, 0, 16, 0⟩
def MOV.IRQEN : Fld := ⟨0x40025014, 0, 32, 0⟩
def MOV.FLTEN : Fld := ⟨0x40025018, 0, 32, 0⟩
def MOV.LOCK : Fld := ⟨0x4002501C, 0, 32, 0⟩
def MOV.LOCK.VAL : Fld := ⟨0x4002501C, 0, 1, 0⟩
def MOV.CCTRL : Fld := ⟨0x40025100, 0, 32, 16⟩
def MOV.CCTRL.GO : Fld := ⟨0x40025100, 31, 1, 16⟩
def MOV.CCTRL.STOP : Fld := ⟨0x40025100, 30, 1, 16⟩
def MOV.CCTRL.PRIO : Fld := ⟨0x40025100, 28, 2, 16⟩
def MOV.CDESC : Fld := ⟨0x40025104, 0, 32, 16⟩
def MOV.CDESC.ADDR : Fld := ⟨0x40025104, 5, 27, 16⟩
def MOV.CCUR : Fld := ⟨0x40025108, 0, 32, 16⟩
def MOV.CCUR.ADDR : Fld := ⟨0x40025108, 0, 32, 16⟩
def MOV.CSTAT : Fld := ⟨0x4002510C, 0, 32, 16⟩
def MOV.CSTAT.STATE : Fld := ⟨0x4002510C, 29, 3, 16⟩
def MOV.CSTAT.BYTES : Fld := ⟨0x4002510C, 0, 24, 16⟩

def MOV.table : List RegDesc :=
[⟨0x000, 1, 0, 0x25030100, .shared, [⟨24, 8, .ro, .any⟩, ⟨16, 8, .ro, .any⟩, ⟨8, 8, .ro, .any⟩]⟩,
   ⟨0x004, 1, 0, 0x00000010, .shared, [⟨0, 32, .ro, .any⟩]⟩,
   ⟨0x008, 1, 0, 0x00000000, .shared, []⟩,
   ⟨0x00C, 1, 0, 0x00000000, .shared, [⟨0, 16, .ro, .any⟩]⟩,
   ⟨0x010, 1, 0, 0x00000000, .shared, [⟨31, 1, .w1c, .any⟩, ⟨30, 1, .w1c, .any⟩, ⟨17, 1, .w1c, .any⟩, ⟨16, 1, .w1c, .any⟩, ⟨0, 16, .w1c, .any⟩]⟩,
   ⟨0x014, 1, 0, 0x00000000, .shared, [⟨0, 32, .rw, .any⟩]⟩,
   ⟨0x018, 1, 0, 0x00020000, .shared, [⟨0, 32, .rw, .any⟩]⟩,
   ⟨0x01C, 1, 0, 0x00000000, .shared, [⟨0, 1, .w1s, .any⟩]⟩,
   ⟨0x100, 16, 16, 0x00000000, .shared, [⟨31, 1, .w1s, .any⟩, ⟨30, 1, .w1s, .any⟩, ⟨28, 2, .rw, .any⟩]⟩,
   ⟨0x104, 16, 16, 0x00000000, .shared, [⟨5, 27, .rw, .any⟩]⟩,
   ⟨0x108, 16, 16, 0x00000000, .shared, [⟨0, 32, .ro, .any⟩]⟩,
   ⟨0x10C, 16, 16, 0x00000000, .shared, [⟨29, 3, .ro, .any⟩, ⟨0, 24, .ro, .any⟩]⟩]

/-- The page code of a page of R40. -/
def Page.code : Page → Nat
  | .SYS => 0x00
  | .PWR => 0x01
  | .CLK => 0x02
  | .FLT => 0x03
  | .REC => 0x04
  | .STM => 0x05
  | .TIM => 0x06
  | .I2C => 0x07
  | .HIF => 0x08
  | .DBG => 0x09
  | .FLC => 0x0A
  | .MEM => 0x0B
  | .NVS => 0x0C
  | .SEC => 0x0D
  | .KEY => 0x0E
  | .CMD => 0x0F
  | .RFE => 0x10
  | .RXS => 0x11
  | .CHZ => 0x12
  | .DMD => 0x13
  | .FEC => 0x14
  | .TXP => 0x15
  | .FRM => 0x16
  | .SHU => 0x17
  | .PAT => 0x18
  | .BOB => 0x19
  | .DUT => 0x1A
  | .THM => 0x1B
  | .VIF => 0x1C
  | .CAS => 0x1D
  | .LMP => 0x1E
  | .MTR => 0x1F
  | .REF => 0x20
  | .GAU => 0x21
  | .UPD => 0x22
  | .GIO => 0x23
  | .CPU => 0x24
  | .MOV => 0x25

/-- The page with a code (R40). -/
def Page.ofCode : Nat → Option Page
  | 0x00 => some .SYS
  | 0x01 => some .PWR
  | 0x02 => some .CLK
  | 0x03 => some .FLT
  | 0x04 => some .REC
  | 0x05 => some .STM
  | 0x06 => some .TIM
  | 0x07 => some .I2C
  | 0x08 => some .HIF
  | 0x09 => some .DBG
  | 0x0A => some .FLC
  | 0x0B => some .MEM
  | 0x0C => some .NVS
  | 0x0D => some .SEC
  | 0x0E => some .KEY
  | 0x0F => some .CMD
  | 0x10 => some .RFE
  | 0x11 => some .RXS
  | 0x12 => some .CHZ
  | 0x13 => some .DMD
  | 0x14 => some .FEC
  | 0x15 => some .TXP
  | 0x16 => some .FRM
  | 0x17 => some .SHU
  | 0x18 => some .PAT
  | 0x19 => some .BOB
  | 0x1A => some .DUT
  | 0x1B => some .THM
  | 0x1C => some .VIF
  | 0x1D => some .CAS
  | 0x1E => some .LMP
  | 0x1F => some .MTR
  | 0x20 => some .REF
  | 0x21 => some .GAU
  | 0x22 => some .UPD
  | 0x23 => some .GIO
  | 0x24 => some .CPU
  | 0x25 => some .MOV
  | _ => none

/-- The power domain that holds a page's registers (R40). -/
def Page.domain : Page → Nat
  | .SYS => 0
  | .PWR => 0
  | .CLK => 2
  | .FLT => 2
  | .REC => 2
  | .STM => 2
  | .TIM => 2
  | .I2C => 2
  | .HIF => 2
  | .DBG => 2
  | .FLC => 1
  | .MEM => 2
  | .NVS => 2
  | .SEC => 2
  | .KEY => 2
  | .CMD => 2
  | .RFE => 4
  | .RXS => 5
  | .CHZ => 5
  | .DMD => 4
  | .FEC => 5
  | .TXP => 6
  | .FRM => 3
  | .SHU => 3
  | .PAT => 3
  | .BOB => 3
  | .DUT => 3
  | .THM => 0
  | .VIF => 3
  | .CAS => 3
  | .LMP => 7
  | .MTR => 8
  | .REF => 8
  | .GAU => 8
  | .UPD => 2
  | .GIO => 2
  | .CPU => 2
  | .MOV => 2

/-- The registers of a page. -/
def Page.table : Page → List RegDesc
  | .SYS => SYS.table
  | .PWR => PWR.table
  | .CLK => CLK.table
  | .FLT => FLT.table
  | .REC => REC.table
  | .STM => STM.table
  | .TIM => TIM.table
  | .I2C => I2C.table
  | .HIF => HIF.table
  | .DBG => DBG.table
  | .FLC => FLC.table
  | .MEM => MEM.table
  | .NVS => NVS.table
  | .SEC => SEC.table
  | .KEY => KEY.table
  | .CMD => CMD.table
  | .RFE => RFE.table
  | .RXS => RXS.table
  | .CHZ => CHZ.table
  | .DMD => DMD.table
  | .FEC => FEC.table
  | .TXP => TXP.table
  | .FRM => FRM.table
  | .SHU => SHU.table
  | .PAT => PAT.table
  | .BOB => BOB.table
  | .DUT => DUT.table
  | .THM => THM.table
  | .VIF => VIF.table
  | .CAS => CAS.table
  | .LMP => LMP.table
  | .MTR => MTR.table
  | .REF => REF.table
  | .GAU => GAU.table
  | .UPD => UPD.table
  | .GIO => GIO.table
  | .CPU => CPU.table
  | .MOV => MOV.table

end Sys2Proof.Machine
end

