-- ==== Sys2Proof/Machine/Sparse.lean ====
section
/-! DEFINITION. Sparse tables: a list of (key, value) pairs in one canonical form, with a default for every key that the
list does not hold. Memory, the register file and the Pattern RAM are such tables. -/

namespace Sys2Proof.Machine

/-- The value at a key: the listed one, or the default. -/
def Sparse.get {β : Type} (dflt : Nat → β) (l : List (Nat × β)) (k : Nat) : β :=
  match l.find? (fun c => c.1 == k) with
  | some c => c.2
  | none => dflt k

/-- The table with a key's value replaced. A value equal to the default is not listed. -/
def Sparse.set {β : Type} [DecidableEq β] (dflt : Nat → β) (l : List (Nat × β)) (k : Nat) (v : β) : List (Nat × β) :=
  l.filter (fun c => c.1 < k) ++ (if v = dflt k then [] else [(k, v)]) ++ l.filter (fun c => k < c.1)

/-- The table with every key that satisfies a test back at its default. -/
def Sparse.drop {β : Type} (l : List (Nat × β)) (p : Nat → Bool) : List (Nat × β) := l.filter fun c => !p c.1

/-- The table with every key of a range back at its default. -/
def Sparse.clear {β : Type} (l : List (Nat × β)) (lo hi : Nat) : List (Nat × β) :=
  Sparse.drop l fun k => lo ≤ k && k < hi

/-- The canonical form: keys strictly rising, no entry equal to the default. -/
def Sparse.wf {β : Type} [DecidableEq β] (dflt : Nat → β) : List (Nat × β) → Bool
  | [] => true
  | c :: l => (c.2 != dflt c.1) && (l.all (fun d => c.1 < d.1)) && Sparse.wf dflt l

end Sys2Proof.Machine
end

