-- ==== Sys2Proof/Machine/RegFile.lean ====
section
/-! DEFINITION. Reset words of the register map (R27) and the bit fields of a word. -/

namespace Sys2Proof.Machine

/-- The base of the register pages (R6). -/
def pageBase : Nat := 0x40000000

/-- The physical address of a key of the register file, without the copy number above it. -/
def keyAddr (k : Nat) : Nat := k % 0x100000000

/-- The copy number of a key: a virtual interface's number, or 64 plus an initiator's index. -/
def keyCopy (k : Nat) : Nat := k / 0x100000000

/-- The page code of a physical register address (R6): the pages stand 0x1000 apart from `pageBase` on. -/
def addrPage (a : Nat) : Nat := a / 0x1000 % 0x40000

/-- The description that covers an offset of a page, if a register stands there (R12). -/
def findReg (t : List RegDesc) (off : Nat) : Option RegDesc :=
  t.find? fun d => d.off ≤ off &&
    (if d.stride = 0 then off == d.off else (off - d.off) % d.stride == 0 && (off - d.off) / d.stride < d.count)

/-- The reset value of a register (R27); 0 where no register stands. Every copy has the register's reset value. -/
def resetWord (k : Nat) : Word :=
  match Page.ofCode (addrPage (keyAddr k)) with
  | none => 0
  | some p =>
    match findReg p.table (keyAddr k % 0x1000) with
    | some d => BitVec.ofNat 32 d.reset
    | none => 0

/-- The field of `width` bits at bit `lo` of a word. -/
def fieldOf (w : Word) (lo width : Nat) : Nat := w.toNat / 2 ^ lo % 2 ^ width

/-- The word with that field replaced. -/
def setField (w : Word) (lo width v : Nat) : Word :=
  BitVec.ofNat 32 (w.toNat % 2 ^ lo + (v % 2 ^ width) * 2 ^ lo + w.toNat / 2 ^ (lo + width) * 2 ^ (lo + width))

end Sys2Proof.Machine
end

