-- ==== Sys2Proof/Machine/State.lean ====
section
/-! DEFINITION. The state of the device as plain data, the reasons a step can stop, the state after reset, and the
primitive effects a command is made of. INVENTORY.md lists every piece of state with the rule that names it. -/

namespace Sys2Proof.Machine

/-- Why a step stops with a fault. -/
inductive Fault
  /-- Raised by no meaning: the spec gives every command an effect (NOTES.md, Stops). Safe. -/
  | none
  deriving DecidableEq, Repr

/-- Why a step is refused. -/
inductive Refusal
  /-- Raised by an arm of `exec` whose command has no meaning yet, under the command's mnemonic. Safe. -/
  | notModelled (mnemonic : String)
  deriving DecidableEq, Repr

/-- What a byte of memory that nothing has written reads as: an erased flash byte is 0xFF (R433); the 64-bit records of MRAM
that carry a complement hold 0 with its complement at manufacture (R374, R596); SRAM, the Bobbin store (R219, R428) and, by
notes/assumptions/2.md, every other memory reads 0. -/
def resetByte (a : Nat) : Byte :=
  if 0x08000000 ≤ a ∧ a < 0x08800000 then 0xFF
  else if 0x2803FC00 ≤ a ∧ a < 0x2803FCE0 ∧ 4 ≤ a % 8 then 0xFF
  else 0

/-- The device. `regs` holds every register by its key (R6, R16), `mem` every byte of the address space (R42),
`pat` the Pattern RAM (R191), and each block the state of that block that no register shows. -/
structure State where
  regs    : List (Nat × Word) := []
  mem     : List Host.Cell := []
  pat     : List (Nat × Nat) := []
  clk     : ClkSt := {}
  flt     : FltSt := {}
  stm     : StmSt := {}
  pwr     : PwrSt := {}
  recd    : RecSt := {}
  bus     : BusSt := {}
  thm     : ThmSt := {}
  tim     : TimSt := {}
  i2c     : I2cSt := {}
  mov     : MovSt := {}
  lmp     : LmpSt := {}
  mtr     : MtrSt := {}
  ref     : RefSt := {}
  gau     : GauSt := {}
  otp     : OtpSt := {}
  dut     : DutSt := {}
  rfe     : RfeSt := {}
  chz     : ChzSt := {}
  dmd     : DmdSt := {}
  frm     : FrmSt := {}
  txp     : TxpSt := {}
  shu     : ShuSt := {}
  bob     : BobSt := {}
  key     : KeySt := {}
  sec     : SecSt := {}
  cmd     : CmdSt := {}
  flc     : FlcSt := {}
  ecc     : EccSt := {}
  dn      : DnSt := {}
  dbg     : DbgSt := {}
  vif     : VifSt := {}
  upd     : UpdSt := {}
  cas     : CasSt := {}
  hif     : HifSt := {}
  drawn   : Nat := 0
  pending : List Instr := []
  deriving DecidableEq, Repr

/-- The primitive effects. Whatever a command does is a list of these (`Act`). -/
inductive Eff
  /-- A field of a register takes a value. -/
  | put (f : Fld) (v : Nat)
  /-- A byte of memory takes a value. -/
  | byte (a : Nat) (b : Byte)
  /-- The bytes of a range of memory take their unwritten value. -/
  | wipe (lo hi : Nat)
  /-- A word of the Pattern RAM takes a value. -/
  | pat (i w : Nat)
  /-- Every register whose key lies in a range takes its reset value. -/
  | resetKeys (lo hi : Nat)
  /-- Every register whose address lies in a range takes its reset value, in every copy. -/
  | resetPages (lo hi : Nat)
  /-- Every word of the Pattern RAM takes its unwritten value. -/
  | wipePat
  /-- The next free value has been taken. -/
  | drawn
  | clk (b : ClkSt)
  | flt (b : FltSt)
  | stm (b : StmSt)
  | pwr (b : PwrSt)
  | recd (b : RecSt)
  | bus (b : BusSt)
  | thm (b : ThmSt)
  | tim (b : TimSt)
  | i2c (b : I2cSt)
  | mov (b : MovSt)
  | lmp (b : LmpSt)
  | mtr (b : MtrSt)
  | ref (b : RefSt)
  | gau (b : GauSt)
  | otp (b : OtpSt)
  | dut (b : DutSt)
  | rfe (b : RfeSt)
  | chz (b : ChzSt)
  | dmd (b : DmdSt)
  | frm (b : FrmSt)
  | txp (b : TxpSt)
  | shu (b : ShuSt)
  | bob (b : BobSt)
  | key (b : KeySt)
  | sec (b : SecSt)
  | cmd (b : CmdSt)
  | flc (b : FlcSt)
  | ecc (b : EccSt)
  | dn (b : DnSt)
  | dbg (b : DbgSt)
  | vif (b : VifSt)
  | upd (b : UpdSt)
  | cas (b : CasSt)
  | hif (b : HifSt)
  deriving DecidableEq, Repr

/-- What one effect does to the state. No effect touches the queue of waiting commands. -/
def Eff.apply (s : State) : Eff → State
  | .put f v =>
    { s with regs := Sparse.set resetWord s.regs f.key (setField (Sparse.get resetWord s.regs f.key) f.lo f.width v) }
  | .byte a b => { s with mem := Sparse.set resetByte s.mem a b }
  | .wipe lo hi => { s with mem := Sparse.clear s.mem lo hi }
  | .pat i w => { s with pat := Sparse.set (fun _ => 0) s.pat i w }
  | .resetKeys lo hi => { s with regs := Sparse.clear s.regs lo hi }
  | .resetPages lo hi => { s with regs := Sparse.drop s.regs fun k => lo ≤ keyAddr k && keyAddr k < hi }
  | .wipePat => { s with pat := [] }
  | .drawn => { s with drawn := s.drawn + 1 }
  | .clk b => { s with clk := b }
  | .flt b => { s with flt := b }
  | .stm b => { s with stm := b }
  | .pwr b => { s with pwr := b }
  | .recd b => { s with recd := b }
  | .bus b => { s with bus := b }
  | .thm b => { s with thm := b }
  | .tim b => { s with tim := b }
  | .i2c b => { s with i2c := b }
  | .mov b => { s with mov := b }
  | .lmp b => { s with lmp := b }
  | .mtr b => { s with mtr := b }
  | .ref b => { s with ref := b }
  | .gau b => { s with gau := b }
  | .otp b => { s with otp := b }
  | .dut b => { s with dut := b }
  | .rfe b => { s with rfe := b }
  | .chz b => { s with chz := b }
  | .dmd b => { s with dmd := b }
  | .frm b => { s with frm := b }
  | .txp b => { s with txp := b }
  | .shu b => { s with shu := b }
  | .bob b => { s with bob := b }
  | .key b => { s with key := b }
  | .sec b => { s with sec := b }
  | .cmd b => { s with cmd := b }
  | .flc b => { s with flc := b }
  | .ecc b => { s with ecc := b }
  | .dn b => { s with dn := b }
  | .dbg b => { s with dbg := b }
  | .vif b => { s with vif := b }
  | .upd b => { s with upd := b }
  | .cas b => { s with cas := b }
  | .hif b => { s with hif := b }

/-- A command's effect: the primitive effects it has in a state, in order. -/
abbrev Act := State → List Eff

/-- The state after a list of effects. -/
def applyAll (s : State) (es : List Eff) : State := es.foldl Eff.apply s

/-- The state after an action. -/
def Act.run (a : Act) (s : State) : State := applyAll s (a s)

/-- A command whose whole meaning is an action completes with the action's state. -/
def act (a : Act) (s : State) : Host.Outcome State Fault Refusal := .next (a.run s)

/-- The state right after device reset (R27, R620): every register at the reset value of its table, every memory
unwritten, every block at rest. -/
def State.reset : State := {}

end Sys2Proof.Machine
end

