-- ==== Sys2Proof/Machine/OnBlock.lean ====
section
/-! DEFINITION. Actions that change one block of the state. -/

namespace Sys2Proof.Machine

/-- Changes the hidden state of the `clk` block. -/
def onClk (f : ClkSt → ClkSt) : Act := fun s => [.clk (f s.clk)]

/-- Changes the hidden state of the `flt` block. -/
def onFlt (f : FltSt → FltSt) : Act := fun s => [.flt (f s.flt)]

/-- Changes the hidden state of the `stm` block. -/
def onStm (f : StmSt → StmSt) : Act := fun s => [.stm (f s.stm)]

/-- Changes the hidden state of the `pwr` block. -/
def onPwr (f : PwrSt → PwrSt) : Act := fun s => [.pwr (f s.pwr)]

/-- Changes the hidden state of the `recd` block. -/
def onRecd (f : RecSt → RecSt) : Act := fun s => [.recd (f s.recd)]

/-- Changes the hidden state of the `bus` block. -/
def onBus (f : BusSt → BusSt) : Act := fun s => [.bus (f s.bus)]

/-- Changes the hidden state of the `thm` block. -/
def onThm (f : ThmSt → ThmSt) : Act := fun s => [.thm (f s.thm)]

/-- Changes the hidden state of the `tim` block. -/
def onTim (f : TimSt → TimSt) : Act := fun s => [.tim (f s.tim)]

/-- Changes the hidden state of the `i2c` block. -/
def onI2c (f : I2cSt → I2cSt) : Act := fun s => [.i2c (f s.i2c)]

/-- Changes the hidden state of the `mov` block. -/
def onMov (f : MovSt → MovSt) : Act := fun s => [.mov (f s.mov)]

/-- Changes the hidden state of the `lmp` block. -/
def onLmp (f : LmpSt → LmpSt) : Act := fun s => [.lmp (f s.lmp)]

/-- Changes the hidden state of the `mtr` block. -/
def onMtr (f : MtrSt → MtrSt) : Act := fun s => [.mtr (f s.mtr)]

/-- Changes the hidden state of the `ref` block. -/
def onRef (f : RefSt → RefSt) : Act := fun s => [.ref (f s.ref)]

/-- Changes the hidden state of the `gau` block. -/
def onGau (f : GauSt → GauSt) : Act := fun s => [.gau (f s.gau)]

/-- Changes the hidden state of the `otp` block. -/
def onOtp (f : OtpSt → OtpSt) : Act := fun s => [.otp (f s.otp)]

/-- Changes the hidden state of the `dut` block. -/
def onDut (f : DutSt → DutSt) : Act := fun s => [.dut (f s.dut)]

/-- Changes the hidden state of the `rfe` block. -/
def onRfe (f : RfeSt → RfeSt) : Act := fun s => [.rfe (f s.rfe)]

/-- Changes the hidden state of the `chz` block. -/
def onChz (f : ChzSt → ChzSt) : Act := fun s => [.chz (f s.chz)]

/-- Changes the hidden state of the `dmd` block. -/
def onDmd (f : DmdSt → DmdSt) : Act := fun s => [.dmd (f s.dmd)]

/-- Changes the hidden state of the `frm` block. -/
def onFrm (f : FrmSt → FrmSt) : Act := fun s => [.frm (f s.frm)]

/-- Changes the hidden state of the `txp` block. -/
def onTxp (f : TxpSt → TxpSt) : Act := fun s => [.txp (f s.txp)]

/-- Changes the hidden state of the `shu` block. -/
def onShu (f : ShuSt → ShuSt) : Act := fun s => [.shu (f s.shu)]

/-- Changes the hidden state of the `bob` block. -/
def onBob (f : BobSt → BobSt) : Act := fun s => [.bob (f s.bob)]

/-- Changes the hidden state of the `key` block. -/
def onKey (f : KeySt → KeySt) : Act := fun s => [.key (f s.key)]

/-- Changes the hidden state of the `sec` block. -/
def onSec (f : SecSt → SecSt) : Act := fun s => [.sec (f s.sec)]

/-- Changes the hidden state of the `cmd` block. -/
def onCmd (f : CmdSt → CmdSt) : Act := fun s => [.cmd (f s.cmd)]

/-- Changes the hidden state of the `flc` block. -/
def onFlc (f : FlcSt → FlcSt) : Act := fun s => [.flc (f s.flc)]

/-- Changes the hidden state of the `ecc` block. -/
def onEcc (f : EccSt → EccSt) : Act := fun s => [.ecc (f s.ecc)]

/-- Changes the hidden state of the `dn` block. -/
def onDn (f : DnSt → DnSt) : Act := fun s => [.dn (f s.dn)]

/-- Changes the hidden state of the `dbg` block. -/
def onDbg (f : DbgSt → DbgSt) : Act := fun s => [.dbg (f s.dbg)]

/-- Changes the hidden state of the `vif` block. -/
def onVif (f : VifSt → VifSt) : Act := fun s => [.vif (f s.vif)]

/-- Changes the hidden state of the `upd` block. -/
def onUpd (f : UpdSt → UpdSt) : Act := fun s => [.upd (f s.upd)]

/-- Changes the hidden state of the `cas` block. -/
def onCas (f : CasSt → CasSt) : Act := fun s => [.cas (f s.cas)]

/-- Changes the hidden state of the `hif` block. -/
def onHif (f : HifSt → HifSt) : Act := fun s => [.hif (f s.hif)]

end Sys2Proof.Machine
end

