-- ==== Sys2Proof/Machine/Ops.lean ====
section
/-! DEFINITION. The operations every block shares: actions and their composition, register fields, sticky bits and
fault reports (R15, R18, R20), Stitch producer events (R531), memory words (R8), status codes (R29), stamps (R50). -/

namespace Sys2Proof.Machine

/-! Actions. -/

/-- Nothing happens. -/
def skip : Act := fun _ => []

/-- Actions one after another, each in the state its predecessors leave. -/
def chain : List Act → Act
  | [] => skip
  | a :: l => fun s => a s ++ chain l (applyAll s (a s))

/-- An action chosen by looking at the state. -/
def look (g : State → Act) : Act := fun s => g s s

/-- An action taken only where a condition holds. -/
def whenA (c : Bool) (a : Act) : Act := if c then a else skip

/-- The same action for each item of a list, in order. -/
def eachA {α : Type} (l : List α) (f : α → Act) : Act := chain (l.map f)

/-! Numbers. -/

/-- The signed value of a `w`-bit number. -/
def toS (w v : Nat) : Int := if v % 2 ^ w < 2 ^ (w - 1) then (v % 2 ^ w : Nat) else ((v % 2 ^ w : Nat) : Int) - 2 ^ w

/-- The `w`-bit number that holds a signed value, modulo 2^w. -/
def ofS (w : Nat) (i : Int) : Nat := (i % (2 ^ w : Nat)).toNat

/-- A signed value limited to a range. -/
def clampS (lo hi i : Int) : Int := max lo (min hi i)

/-- Bit `b` of a number. -/
def bitOf (v b : Nat) : Nat := v / 2 ^ b % 2

/-- The bits [hi:lo] of a number. -/
def bits (v hi lo : Nat) : Nat := v / 2 ^ lo % 2 ^ (hi - lo + 1)

/-- A number with bit `b` given a value. -/
def withBit (v b : Nat) (x : Bool) : Nat := v - bitOf v b * 2 ^ b + (if x then 2 ^ b else 0)

/-- Division with the quotient rounded up. -/
def ceilDiv (a b : Nat) : Nat := (a + b - 1) / b

/-- Division rounded to the nearest, halves up. -/
def roundDiv (a b : Nat) : Nat := (2 * a + b) / (2 * b)

/-- The first number below a bound that satisfies a test. -/
def firstBelow (n : Nat) (p : Nat → Bool) : Option Nat := (List.range n).find? p

/-! Register fields. -/

/-- The word of a register. -/
def State.reg (s : State) (k : Nat) : Word := Sparse.get resetWord s.regs k

/-- The value of a register field. -/
def State.get (s : State) (f : Fld) : Nat := fieldOf (s.reg f.key) f.lo f.width

/-- Whether a one-bit field is 1. -/
def State.is (s : State) (f : Fld) : Bool := s.get f != 0

/-- The signed value of a field. -/
def State.getS (s : State) (f : Fld) : Int := toS f.width (s.get f)

/-- Gives a field a value. -/
def put (f : Fld) (v : Nat) : Act := fun _ => [.put f v]

/-- Gives a field a signed value. -/
def putS (f : Fld) (i : Int) : Act := put f (ofS f.width i)

/-- Adds to a counter field that stops at its largest value. -/
def addSat (f : Fld) (n : Nat) : Act := fun s => [.put f (min (s.get f + n) (2 ^ f.width - 1))]

/-- Counts one on a saturating counter field. -/
def count (f : Fld) : Act := addSat f 1

/-! Status codes (R29). -/

namespace Status
def ok : Nat := 0x00
def dutyDenied : Nat := 0x01
def cellPreempted : Nat := 0x02
def noack : Nat := 0x03
def maskAbort : Nat := 0x04
def clip : Nat := 0x05
def micFail : Nat := 0x06
def ctxFull : Nat := 0x07
def noCtx : Nat := 0x08
def abortedPd : Nat := 0x09
def pausedPd : Nat := 0x0A
def prot : Nat := 0x0B
def eccUncorr : Nat := 0x0C
def authFail : Nat := 0x0D
def counterStale : Nat := 0x0E
def rsvdOp : Nat := 0x0F
end Status

/-! Pages and domains. -/

/-- A register of the common header of the page that a key lies in (R16). -/
def headerOf (k off width : Nat) : Fld := ⟨k / 0x1000 * 0x1000 + off, 0, width, 0⟩

/-- Whether a power domain is on (R467). -/
def State.domOn (s : State) (d : Nat) : Bool := s.is (PWR.STAT.DOMON.bit d)

namespace Dom
def aon : Nat := 0
def nvm : Nat := 1
def core : Nat := 2
def mac : Nat := 3
def rxn : Nat := 4
def rxw : Nat := 5
def tx : Nat := 6
def lamp : Nat := 7
def mtr : Nat := 8
end Dom

/-! Stamps (R50, R59). -/

/-- TB (R49). -/
def State.tb (s : State) : Nat := s.clk.tb

/-- TB units passed while the 32.768 kHz crystal counts `n` cycles, halves rounded up (R58, R59). -/
def k32Units (n : Nat) : Nat := roundDiv (n * 15625) 128

/-- The stamp of an event: TB, or while CORE is off the stored TB and the crystal cycles since (R59). -/
def State.stampNow (s : State) (k : Nat) : Nat :=
  match s.clk.savedTb with
  | some t => (t + k32Units k) % 2 ^ 64
  | none => s.clk.tb

/-- Time passes to a due moment, if it has not passed it already. -/
def until_ (t : Nat) : Act := fun s => if s.clk.tb < t then onClk (fun c => { c with tb := t % 2 ^ 64 }) s else []

/-! Sticky bits, fault reports and recorder triggers. -/

/-- The recorder definitions that a STICKY bit triggers (R539), with the page and the bit. -/
def stickyTriggers (s : State) (page bit : Nat) : List Nat :=
  (List.range 8).filter fun k =>
    s.is (REC.TRG.EN.i k) && s.is (REC.TRG.SRC.i k) && s.get (REC.TRG.PAGE.i k) == page && s.get (REC.TRG.BIT.i k) == bit

/-- Sends a report to the fault collector, or while CORE is off has AON hold up to four (R20, R354). -/
def sendReport (r : Report) : Act := fun s =>
  if s.domOn Dom.core then [.flt { s.flt with sent := s.flt.sent ++ [r] }]
  else if s.flt.aon.length < 4 then [.flt { s.flt with aon := s.flt.aon ++ [r] }]
  else [.flt { s.flt with aonLost := s.flt.aonLost ++ [r] }]

/-- A sticky bit's rise: the bit, the report where FLTEN enables one, and the recorder definitions it triggers (R15, R20,
R539). `at_` is the stamp. -/
def stickRise (at_ : Nat) (f : Fld) (inst info : Nat) : Act := chain [
  put f 1,
  look fun s => whenA (addrPage f.key != 0x03 && s.is ((headerOf f.key 0x18 32).bit f.lo))
    (sendReport ⟨at_, addrPage f.key, inst, f.lo, 1, info⟩),
  look fun s => whenA (s.is REC.CTRL.EN && s.domOn Dom.core)
    (eachA (stickyTriggers s (addrPage f.key) f.lo) fun k =>
      onRecd fun r => { r with fired := r.fired ++ [⟨k, at_, 1, addrPage f.key, f.lo⟩] })]

/-- The condition of a sticky bit arises. A bit that is already 1 has no further consequence (R15). -/
def stickAt (at_ : Nat) (f : Fld) (inst info : Nat) : Act := look fun s => whenA (!s.is f) (stickRise at_ f inst info)

/-- A sticky bit's rise at the present TB, from instance `inst` of its page, with the report's INFO word. -/
def stickI (f : Fld) (inst info : Nat) : Act := look fun s => stickAt s.tb f inst info

/-- A sticky bit's rise at the present TB. -/
def stick (f : Fld) : Act := stickI f 0 0

/-- A condition that arises from a resource of virtual interface `v`: the physical copy and copy `v` (R298). -/
def stickV (f : Fld) (v : Nat) : Act := chain [stick f, whenA (v != 0) (put (f.copy v) 1)]

/-- The same, from an instance and with an INFO word. -/
def stickVI (f : Fld) (v inst info : Nat) : Act := chain [stickI f inst info, whenA (v != 0) (put (f.copy v) 1)]

/-! Stitch producers (R531, R532). -/

/-- A producer's pulse, at the present TB; STITCH_EVENT carries it to its channels. -/
def pulse (p : Nat) : Act := look fun s => onStm fun m => { m with pulses := m.pulses ++ [(p, s.tb)] }

/-- A change of the Shuttle's internal state that its journal holds (R337). -/
def journal : Act := look fun s => whenA (s.is SHU.CTRL.RUN) (onShu fun u => { u with
  pair := { u.pair with journal := u.pair.journal + 1, entries := u.pair.entries + 1 } })

/-! Memory (R8). -/

/-- The byte at an address. -/
def State.byte (s : State) (a : Nat) : Nat := (Sparse.get resetByte s.mem a).toNat

/-- The little-endian number in `n` bytes. -/
def State.bytes (s : State) (a : Nat) : Nat → Nat
  | 0 => 0
  | n + 1 => s.byte a + 256 * s.bytes (a + 1) n

/-- The word at an address (R8). -/
def State.word (s : State) (a : Nat) : Nat := s.bytes a 4

/-- The list of `n` bytes at an address. -/
def State.octets (s : State) (a n : Nat) : List Nat := (List.range n).map fun i => s.byte (a + i)

/-- Stores one byte. -/
def setByte (a v : Nat) : Act := fun _ => [.byte a (BitVec.ofNat 8 v)]

/-- Stores the `n` low bytes of a number, little-endian (R8). -/
def setBytes (a n v : Nat) : Act := fun _ => (List.range n).map fun i => .byte (a + i) (BitVec.ofNat 8 (v / 256 ^ i))

/-- Stores a word (R8). -/
def setWord (a v : Nat) : Act := setBytes a 4 v

/-- Stores a list of octets at rising addresses. -/
def setOctets (a : Nat) (l : List Nat) : Act := fun _ => l.zipIdx.map fun p => .byte (a + p.2) (BitVec.ofNat 8 p.1)

/-- Fills a range with zero bytes by taking it back to its unwritten value. -/
def wipe (lo hi : Nat) : Act := fun _ => [.wipe lo hi]

/-- The bits [hi:lo] of the word at an address. -/
def State.wordBits (s : State) (a hi lo : Nat) : Nat := bits (s.word a) hi lo

/-- Replaces the bits [hi:lo] of the word at an address. -/
def setWordBits (a hi lo v : Nat) : Act := fun s =>
  setWord a (setField (BitVec.ofNat 32 (s.word a)) lo (hi - lo + 1) v).toNat s

/-! Bases of the regions of R42. -/

namespace Base
def rom : Nat := 0x00000000
def flashA : Nat := 0x08000000
def flashB : Nat := 0x08400000
def sram : Nat := 0x20000000
def bobbin : Nat := 0x24000000
def mram : Nat := 0x28000000
def fram : Nat := 0x30000000
def window : Nat := 0x50000000
end Base

/-! Free values. -/

/-- The next free value. -/
def State.free (s : State) : Nat := (Config.freeWord s.drawn).toNat

/-- Takes a free value and goes on with it. -/
def draw (k : Nat → Act) : Act := fun s => .drawn :: k s.free (Eff.apply s .drawn)

end Sys2Proof.Machine
end

