-- ==== Sys2Proof/Machine/Codes.lean ====
section
/-! DEFINITION. Bits on air: their order, whitening, the convolutional codes and the interleaver (R118, R137, R139, R141 to
R144), which the transmit chains and the lanes share. -/

namespace Sys2Proof.Machine

/-- The low `n` bits of a number, least significant first, as octets are sent (R137). -/
def lsbFirst (n x : Nat) : List Bool := (List.range n).map fun i => x.testBit i

/-- The low `n` bits of a number, most significant first. -/
def msbFirst (n x : Nat) : List Bool := (lsbFirst n x).reverse

/-- The number whose bits a list holds, most significant first. -/
def ofMsb (l : List Bool) : Nat := l.foldl (fun a b => 2 * a + (if b then 1 else 0)) 0

/-- The number whose bits a list holds, least significant first. -/
def ofLsb (l : List Bool) : Nat := ofMsb l.reverse

/-- Whether the number of ones among the 16 bits of a GLR PHR is even (R139). -/
def evenParity (w : Nat) : Bool := ((List.range 16).map (bitOf w)).sum % 2 == 0

/-- `n` bits of the PN9 sequence of x^9 + x^5 + 1 after the nine bits of a register, oldest first (R144). -/
def pn9 : Nat → List Bool → List Bool
  | 0, _ => []
  | n + 1, reg =>
    let b := xor (reg.getD 0 false) (reg.getD 5 false)
    b :: pn9 n (reg.drop 1 ++ [b])

/-- Whitening: the bits under the sequence of seed 0x1FF; undone by itself (R144). -/
def whitened (l : List Bool) : List Bool := l.zipWith xor (pn9 l.length (List.replicate 9 true))

/-- Blocks of `m * m` code bits: bit `k` of a block is sent at position m * (k mod m) + k / m (R142, R143). The order in a
block is a transposition, so it is undone by itself. -/
def interleaved {α : Type} [Inhabited α] (m : Nat) (l : List α) : List α :=
  (List.range l.length).map fun p => l.getD (p - p % (m * m) + (m * (p % m) + p % (m * m) / m)) default

/-- One octet of the CRC-8 of R160: x⁸ + x² + x + 1, most significant bit first. -/
def crc8Octet (r b : Nat) : Nat :=
  (List.range 8).foldl (fun r _ => if r ≥ 128 then (2 * r % 256) ^^^ 0x07 else 2 * r) (r ^^^ b)

/-- The CRC-8 of a wake frame, initial value 0 (R160). -/
def crc8 (l : List Nat) : Nat := l.foldl crc8Octet 0

/-! The convolutional codes (R141, R143). A state holds the delays of the register, the newest in bit 0. -/

/-- The code of a frame: K = 4 without and with systematic output, and K = 7. -/
inductive Code
  | nrnsc
  | rsc
  | glr
  deriving DecidableEq, Repr

/-- The delays of a code. -/
def Code.mem (c : Code) : Nat := match c with | .glr => 6 | _ => 3

/-- The feedback of the systematic code, 1 + D² + D³ without its first term. -/
def Code.back (c : Code) (st : Nat) : Bool := match c with | .rsc => xor (st.testBit 1) (st.testBit 2) | _ => false

/-- The state after an information bit. -/
def Code.next (c : Code) (st : Nat) (x : Bool) : Nat :=
  (2 * st + (if xor x (c.back st) then 1 else 0)) % 2 ^ c.mem

/-- The two code bits of an information bit, in the order in which they are sent: 17 and 15 octal; the bit itself and the
parity 15 over 13; 171 and 133. -/
def Code.out (c : Code) (st : Nat) (x : Bool) : Bool × Bool :=
  let d (i : Nat) := st.testBit (i - 1)
  match c with
  | .nrnsc => (xor (xor x (d 1)) (xor (d 2) (d 3)), xor (xor x (d 1)) (d 3))
  | .rsc => (x, xor (xor (xor x (c.back st)) (d 1)) (d 3))
  | .glr => (xor (xor x (d 1)) (xor (xor (d 2) (d 3)) (d 6)), xor (xor x (d 2)) (xor (xor (d 3) (d 5)) (d 6)))

/-- The code bits of information bits from a state on. -/
def encode (c : Code) : Nat → List Bool → List Bool
  | _, [] => []
  | st, x :: l => (c.out st x).1 :: (c.out st x).2 :: encode c (c.next st x) l

/-- The tail bits that return a state to 0: zeros, or the register's feedback. -/
def tailBits (c : Code) : Nat → Nat → List Bool
  | 0, _ => []
  | n + 1, st => c.back st :: tailBits c n (c.next st (c.back st))

/-- Information bits with their tail. -/
def withTail (c : Code) (l : List Bool) : List Bool := l ++ tailBits c c.mem (l.foldl c.next 0)

/-- The pad bits of a coded SUN FSK frame (R141). -/
def padBits : List Bool := [false, true, false, true, true]

end Sys2Proof.Machine
end

