-- ==== Sys2Proof/Machine/Trellis.lean ====
section
/-! DEFINITION. The trellis decoder of a lane (R145 to R147): soft values, path metrics modulo 2^10, a traceback of 48 bits
during a frame and from state 0 at its end. -/

namespace Sys2Proof.Machine

/-- A quotient at the precision of its result: exact, or one of its two neighbours, which the spec leaves open
(notes/assumptions/60.md). -/
def narrow (num : Int) (den : Nat) : Int :=
  if num % den == 0 then num / den
  else num / den + (if Config.takesUpper [num, den] then 1 else 0)

/-- A quotient rounded to the nearest; what becomes of a half the spec leaves open (notes/assumptions/60.md). -/
def nearest (num : Int) (den : Nat) : Int :=
  let q := num / den
  let r := 2 * (num - q * den)
  if r < den then q else if r > den then q + 1 else if Config.takesUpper [num, den] then q + 1 else q

/-- A code bit as it is received: its soft value in -7 to +7, and its hard sign (R145, R147). -/
abbrev SoftBit := Int × Bool

/-- The cost of a code bit where its soft value is `q`: 0 where the value favours it most. -/
def bitCost (b : Bool) (q : Int) : Nat := (if b then 7 - q else 7 + q).toNat

/-- Whether a path metric is below another, modulo 2^10; of equal ones the spec leaves the choice open. -/
def below (a b tag : Nat) : Bool :=
  if a == b then Config.takesUpper [tag] else (b + 1024 - a) % 1024 < 512

/-- The best path into each state: its metric, none while no path leads there, and its bits, newest first, as far back as the
traceback goes. -/
abbrev Paths := List (Option (Nat × List Bool))

/-- The decoder before the first code bit: in state 0. -/
def startPaths (c : Code) : Paths := (List.range (2 ^ c.mem)).map fun st => if st == 0 then some (0, []) else none

/-- The better of two paths. -/
def better (tag : Nat) (a b : Option (Nat × List Bool)) : Option (Nat × List Bool) :=
  match a, b with
  | none, _ => b
  | _, none => a
  | some x, some y => if below x.1 y.1 tag then a else b

/-- One step of the decoder: the two code bits of an information bit. -/
def Paths.step (c : Code) (l : Paths) (q1 q2 : Int) : Paths :=
  (List.range (2 ^ c.mem)).map fun to_ =>
    let into (st : Nat) : Option (Nat × List Bool) :=
      let x := xor (to_.testBit 0) (c.back st)
      let o := c.out st x
      (l.getD st none).map fun p => ((p.1 + bitCost o.1 q1 + bitCost o.2 q2) % 1024, (x :: p.2).take 49)
    better to_ (into (to_ / 2)) (into (to_ / 2 + 2 ^ (c.mem - 1)))

/-- The state with the best metric. -/
def Paths.best (l : Paths) : Nat :=
  ((List.range l.length).foldl (fun (a : Nat × Option (Nat × List Bool)) st =>
    match a.2, l.getD st none with
    | none, x => (st, x)
    | some _, none => a
    | some x, some y => if below x.1 y.1 (64 + st) then a else (st, some y)) (0, none)).1

/-- The bits that leave during a frame: each from the best path, 48 bits after it. -/
def streamBits (c : Code) : Paths → Nat → List SoftBit → List Bool × Paths
  | l, n, a :: b :: rest =>
    let l := l.step c a.1 b.1
    let r := streamBits c l (n + 1) rest
    (if n < 48 then r.1
     else (match l.getD l.best none with | some p => p.2.getD 48 false | none => false) :: r.1, r.2)
  | l, _, _ => ([], l)

/-- The bits decoded during a frame. -/
def decodedSoFar (c : Code) (q : List SoftBit) : List Bool := (streamBits c (startPaths c) 0 q).1

/-- The bits of a whole frame, its code bits ending with the tail: the last 48 come from the path into state 0 (R146). -/
def decodedWhole (c : Code) (q : List SoftBit) : List Bool :=
  let r := streamBits c (startPaths c) 0 q
  r.1 ++ (match r.2.getD 0 none with | some p => (p.2.take 48).reverse | none => [])

/-- Whether the best metric at the end of the tail belongs to state 0 (R147). -/
def endsWell (c : Code) (q : List SoftBit) : Bool := (streamBits c (startPaths c) 0 q).2.best == 0

/-- The code bits whose hard sign differs from the decisions encoded again (R147). -/
def codeDiffs (c : Code) (q : List SoftBit) : Nat :=
  (((encode c 0 (decodedWhole c q)).zip (q.map (·.2))).filter fun p => p.1 != p.2).length

end Sys2Proof.Machine
end

