-- ==== Sys2Proof/Machine/Equaliser.lean ====
section
/-! DEFINITION. A lane's receive path from the discriminator to sliced bits and soft values: the qualifier (R116), gain and
carrier estimate (R121, R126), the adaptive equaliser (R121 to R125), the carrier and timing loops (R126, R127), the SFD
(R117) and the error sums behind LQI (R132). Samples are discriminator outputs in Hz, a pair for each symbol: at its
centre and half a symbol later. Where the spec states a law and no precision, the precision is free (`narrow`, notes/assumptions/60.md). -/

namespace Sys2Proof.Machine

/-! Modes. -/

/-- The symbol rate of a mode in symbols per second (R106). -/
def symbolRate (mode : Nat) : Nat :=
  [50000, 100000, 150000, 200000, 300000, 400000, 50000, 100000, 150000, 200000, 6250, 12500, 25000].getD mode 50000

/-- The filter bandwidth B of a mode in Hz (R106). -/
def modeBandwidth (mode : Nat) : Nat :=
  [100000, 200000, 300000, 400000, 600000, 800000, 200000, 400000, 600000, 800000, 12500, 25000, 50000].getD mode 100000

/-- Whether a mode is a GLR mode, which is always coded (R117). -/
def isGlr (mode : Nat) : Bool := 10 ≤ mode && mode ≤ 12

/-- Bits per symbol, β of R140. -/
def modeBits (mode : Nat) : Nat := if mode < 6 then 1 else 2

/-- The modulation index in hundredths: 0.33, 0.5 or 1.0 by MIDX, and 0.33 in GLR modes whatever MIDX holds (R106). -/
def modIndex (mode midx : Nat) : Nat := if isGlr mode then 33 else [33, 50, 100].getD midx 100

/-- FDEV, the offset of the outer level, in hundredths of a Hz (R152). -/
def deviation (mode midx : Nat) : Nat :=
  (if modeBits mode = 1 then 1 else 3) * modIndex mode midx * symbolRate mode / 2

/-! Slicing. -/

/-- The sign of a value; that of 0 is open. -/
def negative (y : Int) : Bool := y < 0 || (y == 0 && Config.takesUpper [y])

/-- Whether a magnitude lies in the outer of two levels; on the boundary between them it is open. -/
def outer (m bound : Int) : Bool := bound < m || (m == bound && Config.takesUpper [m, bound])

/-- The level nearest to a value, in thirds of the outer level: ±3 with one bit in a symbol, ±1 or ±3 with two. `unit3` is
three times the outer level in the value's units (R116, R121, R138). -/
def slice (beta : Nat) (y unit3 : Int) : Int :=
  let m : Int := if beta = 1 || outer (9 * y.natAbs) (2 * unit3) then 3 else 1
  if negative y then -m else m

/-- The bits of a sliced level, the earlier first (R138). -/
def levelBits (beta : Nat) (d : Int) : List Bool := if beta = 1 then [d > 0] else [d < 0, d.natAbs == 3]

/-! What governs the path. -/

/-- The settings of a lane's receive path: mode, modulation index, DFEMODE and the step exponents, DIVTH, FOTK, TMTK, the SFD
words with SFDERR, whether a coded SFD counts, and SOFTK. -/
structure RxSet where
  mode   : Nat
  midx   : Nat
  dfe    : Nat
  muft   : Nat
  mubt   : Nat
  mufd   : Nat
  mubd   : Nat
  divth  : Nat
  fotk   : Nat
  tmtk   : Nat
  sfds   : List (Nat × Bool)
  sfderr : Nat
  softk  : Nat
  deriving DecidableEq, Repr

/-- The SFD words of a lane, each with whether it marks the frame as coded (R117; the pairs are the standard's,
notes/assumptions/6.md). -/
def sfdWords (mode sfdsel : Nat) (fecen : Bool) : List (Nat × Bool) :=
  if isGlr mode then [(0xE14D2B97, true)]
  else (if sfdsel = 0 then 0x904E else 0x7A0E, false) :: (if fecen then [(if sfdsel = 0 then 0x6F4E else 0x632D, true)] else [])

/-! The qualifier (R116). -/

/-- The correlation of symbols with the alternation of R137, in ninths of A. -/
def correlate : List Int → Int
  | [] => 0
  | s :: l => 3 * s - correlate l

/-- Whether the metric over the last symbols reaches QUALTH: 256 × |Σ s p| / (QUALN × A). -/
def metricReaches (s3 : List Int) (qualth : Nat) : Bool :=
  256 * (correlate s3).natAbs ≥ qualth * 9 * s3.length

/-- The carrier offset over the centres of the qualifier's symbols in 2^-16 Hz: their mean, within ±B/4 (R126). -/
def carrierOf (p : RxSet) (c : List Int) : Int :=
  clampS (-(16384 * modeBandwidth p.mode : Nat)) (16384 * modeBandwidth p.mode : Nat) (narrow (65536 * c.sum) c.length)

/-- Samples with a carrier estimate removed, in 2^-16 Hz. -/
def removed (off : Int) (xs : List Int) : List Int := xs.map fun x => 65536 * x - off

/-- The sliced symbols of the qualifier: the slicer stands at their own mean, without which an offset within ±B/4 would fail it
(R116, R126; notes/assumptions/60.md, DEDUCED). -/
def qualSliced (p : RxSet) (c : List Int) : List Int :=
  (removed (carrierOf p c) c).map fun x => slice (modeBits p.mode) (100 * x) (196608 * deviation p.mode p.midx)

/-- The symbol at which the qualifier passes: the first, from the QUALN-th to the 2 × QUALN-th, over whose last QUALN symbols
the metric reaches QUALTH. -/
def qualifiesAt (p : RxSet) (qualn qualth : Nat) (xs : List (Int × Int)) : Option Nat :=
  let c := xs.map (·.1)
  (List.range (2 * qualn + 1)).find? fun m =>
    qualn ≤ m && m ≤ c.length && metricReaches (qualSliced p ((c.take m).drop (m - qualn))) qualth

/-- The taps that a qualifier pass loads: c[3] = 1.0 with 13 fractional bits, all others 0 (R122). -/
def startTaps : List Int := [0, 0, 0, 8192, 0, 0, 0, 0, 0, 0]

/-- A tap limited to its 16 bits (R122). -/
def satTap (x : Int) : Int := clampS (-32768) 32767 x

/-- The timing error of the Gardner detector, between the symbol at the centre and the one before it (R127), and the timing
that the loop keeps in 2^-32 of a symbol. -/
def RxDsp.timed (r : RxDsp) (p : RxSet) : RxDsp :=
  let u (i : Nat) := r.win.getD i 0
  { r with timing := r.timing + narrow (u 4 * (u 3 - u 5) * 2 ^ 32) (r.level ^ 2 * 2 ^ p.tmtk) }

/-- The two samples of a symbol enter the window (R121). -/
def RxDsp.taken (r : RxDsp) (x0 x1 : Int) : RxDsp := { r with win := (removed r.off [x1, x0] ++ r.win).take 7 }

/-- The samples of QUALIFY: the timing loop runs from the energy pass on (R127). -/
def RxDsp.acquired (p : RxSet) (r : RxDsp) (xs : List (Int × Int)) : RxDsp :=
  xs.foldl (fun r x => (r.taken x.1 x.2).timed p) r

/-- The receive path at the qualifier pass: the carrier offset, the mean of the discriminator output over the qualifier's
symbols, within ±B/4 (R126); the gain that takes their mean magnitude to the unit level (R121); the start taps; and the
phase of the pattern. -/
def RxDsp.start (p : RxSet) (qualn : Nat) (xs : List (Int × Int)) : RxDsp :=
  let c := (xs.drop (xs.length - qualn)).map (·.1)
  let off := carrierOf p c
  let level := max 1 (narrow ((removed off c).map fun x => (x.natAbs : Int)).sum c.length).toNat
  let last : Int := if negative (correlate (qualSliced p c)) == (c.length % 2 == 0) then 3 else -3
  RxDsp.acquired p { off, level, past := [-last, last, -last], train := last } xs

/-! One symbol (R121 to R127). -/

/-- The sum of products of two lists. -/
def dot : List Int → List Int → Int
  | a :: l, b :: m => a * b + dot l m
  | _, _ => 0

/-- The unit level on the scale of the equaliser's output: that scale is 3 × 2^13 × level to 1.0. -/
def RxDsp.one (r : RxDsp) : Int := 24576 * r.level

/-- The equaliser's output for the symbol at the centre of the window (R121, R124). -/
def RxDsp.output (r : RxDsp) (p : RxSet) : Int :=
  if p.dfe = 0 then 24576 * r.win.getD 3 0
  else 3 * dot (r.taps.take 7) r.win - r.level * dot (r.taps.drop 7) r.past

/-- The taps after a step with error `e`, for step exponents: c gains mu_f × e × x and b loses mu_b × e × d (R121). -/
def RxDsp.stepped (r : RxDsp) (e : Int) (muf mub : Nat) : List Int :=
  ((r.taps.take 7).zipWith (fun c u => satTap (c + narrow (e * u) (3 * r.level ^ 2 * 2 ^ muf))) r.win)
    ++ ((r.taps.drop 7).zipWith (fun b d => satTap (b - narrow (e * d) (9 * r.level * 2 ^ mub))) r.past)

/-- The carrier loop: from the SFD match on it follows what the decision leaves of the sample at the symbol's centre (R126). -/
def RxDsp.tracked (r : RxDsp) (p : RxSet) (d : Int) : RxDsp :=
  let off := r.off + narrow (3 * r.win.getD 3 0 - d * r.level) (3 * 2 ^ p.fotk)
  { r with off, offSum := r.offSum + off, offN := r.offN + 1 }

/-- The soft values of a symbol, each with its hard sign (R145). -/
def RxDsp.softBits (r : RxDsp) (p : RxSet) (y d : Int) : List SoftBit :=
  let q (num : Int) : Int := clampS (-7) 7 (nearest (7 * p.softk * num) (4 * r.one).toNat)
  let b := levelBits (modeBits p.mode) d
  if modeBits p.mode = 1 then [(q y, b.getD 0 false)]
  else [(q (-y), b.getD 0 false), (q (3 * (y.natAbs : Int) - 2 * r.one), b.getD 1 false)]

/-- How many of the newest bits differ from an SFD's, sent most significant bit first; `newest` holds the newest first. -/
def sfdErrors (n word : Nat) (newest : List Bool) : Nat :=
  (((lsbFirst n word).zip newest).filter fun p => p.1 != p.2).length

/-- The SFD that the sliced bits match, with fewer wrong bits than another (R117). -/
def sfdFound (p : RxSet) (newest : List Bool) : Option Bool :=
  let n := if isGlr p.mode then 32 else 16
  let hits := p.sfds.filter fun w => n ≤ newest.length && sfdErrors n w.1 newest ≤ p.sfderr
  match hits with
  | [] => none
  | [w] => some w.2
  | w :: x :: _ =>
    let a := sfdErrors n w.1 newest
    let b := sfdErrors n x.1 newest
    some (if a < b || (a == b && Config.takesUpper [a]) then w.2 else x.2)

/-- A training symbol: the error against the pattern, the step, and the search for the SFD (R117, R122). With DFEMODE OFF
nothing is stepped, and the error is that of the slicer's decision (R124). -/
def RxDsp.training (r : RxDsp) (p : RxSet) (y d : Int) : RxDsp :=
  let want := if p.dfe = 0 then d else r.train
  let e := 8192 * r.level * want - y
  let bits := (levelBits (modeBits p.mode) d).reverse ++ r.bits
  let taps := if p.dfe = 0 then r.taps else r.stepped e p.muft p.mubt
  let found := sfdFound p bits
  { r with
    taps, past := want :: r.past.take 2, train := -r.train, found
    snap := if found.isSome then taps else r.snap
    bits := if found.isSome then [] else bits.take 32
    trainSum := r.trainSum + (e * e).toNat, trainN := r.trainN + 1 }

/-- A symbol after the SFD: in FULL mode a decision-directed step, with the check of each block of 16 (R124, R125). -/
def RxDsp.directed (r : RxDsp) (p : RxSet) (y d : Int) : RxDsp :=
  let e := 8192 * r.level * d - y
  let full := p.dfe = 2
  let taps := if full then r.stepped e p.mufd p.mubd else r.taps
  let sum := r.blockSum + (e * e).toNat
  let ends := full && r.blockN = 15
  let diverged := ends && 256 * sum > 16 * p.divth * (r.one ^ 2).toNat
  let coded := r.found.getD false
  { r with
    taps := if diverged then r.snap else taps
    past := d :: r.past.take 2
    restores := r.restores + (if diverged then 1 else 0)
    blockSum := if full && !ends then sum else 0
    blockN := if full && !ends then r.blockN + 1 else 0
    fullSum := r.fullSum + (if full then (e * e).toNat else 0)
    fullN := r.fullN + (if full then 1 else 0)
    bits := if coded then [] else (levelBits (modeBits p.mode) d).reverse ++ r.bits
    soft := if coded then r.soft ++ r.softBits p y d else r.soft }

/-- The two samples of a symbol arrive: with them the window of the symbol before it is complete (R121). -/
def RxDsp.symbol (p : RxSet) (r : RxDsp) (x0 x1 : Int) : RxDsp :=
  let r := r.taken x0 x1
  let y := r.output p
  let d := slice (modeBits p.mode) y (3 * r.one)
  match r.found with
  | none => (r.training p y d).timed p
  | some _ => ((r.directed p y d).timed p).tracked p d

/-- Samples of several symbols. -/
def RxDsp.fed (p : RxSet) (r : RxDsp) (xs : List (Int × Int)) : RxDsp := xs.foldl (fun r x => r.symbol p x.1 x.2) r

/-! At the frame's end. -/

/-- The largest LQI that a mean squared error of `err` / `one`² over `n` symbols reaches: 8 times the ratio in dB, rounded, in
0 to 255 (R132). LQI is at least k where 8 × SNR is at least k - 1/2. -/
def lqiOf (err n one : Nat) : Nat :=
  (List.range 256).foldl (fun a k => if k == 0 || err ^ 160 * 10 ^ (2 * k - 1) ≤ (n * one ^ 2) ^ 160 then k else a) 0

/-- LQI of a frame, over the decision-directed symbols, or the training symbols where it had none or DFEMODE is not FULL
(R132). -/
def RxDsp.lqi (r : RxDsp) (p : RxSet) : Nat :=
  if p.dfe = 2 && r.fullN != 0 then lqiOf r.fullSum r.fullN r.one.toNat else lqiOf r.trainSum r.trainN r.one.toNat

/-- The mean frequency offset over the frame in kHz (R126). -/
def RxDsp.offset (r : RxDsp) : Int := if r.offN == 0 then 0 else nearest r.offSum (r.offN * 65536000)

end Sys2Proof.Machine
end

