-- ==== Sys2Proof/Machine/Access.lean ====
section
/-! DEFINITION. Where an access leads: the memory map (R42), the windows and views of the virtual interfaces (R295 to
R297), the bound initiators (R300), and what a refused access does (R13, R41, R43, R44, R46, R297, R300). -/

namespace Sys2Proof.Machine

/-- The index of an initiator among those of R52; the host link is one initiator whatever its VI field. -/
def iniIx : Initiator → Nat
  | .core c => c.val
  | .mover ch => 2 + ch.val
  | .host _ => 18
  | .cipher => 19
  | .debug => 20
  | .remote => 21

/-- The copy number of an initiator's own copy of a register (R52). -/
def iniCopy (i : Initiator) : Nat := 64 + iniIx i

/-- What an initiator's read returns. -/
def answer (i : Initiator) (v : Nat) : Act :=
  onBus fun b => { b with answer := Sparse.set (fun _ => 0) b.answer (iniIx i) v }

/-- What an initiator's last read returned. -/
def State.answered (s : State) (i : Initiator) : Nat := Sparse.get (fun _ => 0) s.bus.answer (iniIx i)

/-! Virtual interfaces. -/

/-- A field of the tenancy entry of VI `v`, from the field of VI 0's entry (R307). -/
def ten (f : Fld) (v : Nat) : Fld := ⟨movedKey f.key (0x20 * v), f.lo, f.width, f.stride⟩

/-- Whether VI `v` is OPEN (R285). -/
def State.viOpen (s : State) (v : Nat) : Bool := s.get (ten VIF.TENA0.STATE v) == 1

/-- The virtual interface an initiator is bound to, 0 for none (R300). -/
def State.boundTo (s : State) : Initiator → Nat
  | .core c => if c.val = 1 then s.get VIF.BIND.DN1VI else 0
  | .mover ch => s.get ((VIF.MOVBIND.B.i (ch.val / 8)).sub (4 * (ch.val % 8)) 4)
  | .host vi => vi.val
  | _ => 0

/-- Whether an address lies in the frame memory partition of VI `v`, at its physical place (R288). -/
def State.inPartition (s : State) (v a : Nat) : Bool :=
  let lo := Base.fram + s.get (ten VIF.TENC0.FMBASE v) * 0x2000
  lo ≤ a && a < lo + s.get (ten VIF.TENC0.FMSIZE v) * 0x2000

/-- Whether an initiator bound to VI `v` may reach an address (R300). -/
def State.boundReaches (s : State) (i : Initiator) (v a : Nat) (write : Bool) : Bool :=
  s.viOpen v &&
    ((Base.window + v * 0x100000 ≤ a && a < Base.window + (v + 1) * 0x100000)
      || s.inPartition v a
      || (Base.sram ≤ a && a < Base.sram + 0x200000
          && bitOf (s.get (ten VIF.TEND0.SRAMMASK v)) ((a - Base.sram) / 0x20000) == 1)
      || ((match i with | .core _ => true | _ => false) && !write
          && (a < 0x10000 || (Base.flashA ≤ a && a < 0x08800000))))

/-- The page behind a view of a window (R295). -/
def viewPage : Nat → Option Page
  | 0x0 => some .VIF
  | 0x1 => some .TIM
  | 0x2 => some .SEC
  | 0x3 => some .KEY
  | 0x4 => some .DMD
  | 0x5 => some .TXP
  | 0x6 => some .FRM
  | 0x7 => some .SHU
  | 0x8 => some .PAT
  | 0x9 => some .BOB
  | 0xA => some .DUT
  | _ => none

/-- The number of a page's view in a window, for the pages that have one (R295). -/
def pageView : Page → Option Nat
  | .VIF => some 0x0
  | .TIM => some 0x1
  | .SEC => some 0x2
  | .KEY => some 0x3
  | .DMD => some 0x4
  | .TXP => some 0x5
  | .FRM => some 0x6
  | .SHU => some 0x7
  | .PAT => some 0x8
  | .BOB => some 0x9
  | .DUT => some 0xA
  | _ => none

/-- The lane whose array register stands at an offset of the DMD page (R135). -/
def laneOf (off : Nat) : Option Nat := if 0x200 ≤ off ∧ off < 0xA00 then some ((off - 0x200) % 0x200 / 4) else none

/-- Whether the view of tenant VI `v` shows the register at an offset of a page to a read or a write (R297). Offsets below
0x040 are the common header. -/
def State.viewShows (s : State) (p : Page) (off v : Nat) (write : Bool) : Bool :=
  match p with
  | .VIF => off < 0x40 || off == 0x5C || (0x100 ≤ off && off < 0x118)
  | .TIM => off < 0x100 || bitOf (s.get (ten VIF.TEND0.TIMMASK v)) (off / 0x100 - 1) == 1
  | .SEC => off < 0x88
  | .KEY => !(0x100 ≤ off && off < 0x200) || s.get (KEY.KS.VI.i ((off - 0x100) / 4)) == v
  | .DMD =>
    match laneOf off with
    | some n => s.get (DMD.LCFG.VI.i n) == v
    | none => !(off == 0x08 || off == 0x40 || off == 0x44 || off == 0x4C)
  | .TXP => off < 0x40 || off % 0x40 == 0x0C && off < 0xC0 || off == 0x70 || off == 0xB0
  | .FRM => off < 0xA0
  | .SHU => (off < 0x40 && off != 0x0C && !(write && off == 0x08)) || (0x8C ≤ off && off ≤ 0xB8)
  | .PAT =>
    if 0x100 ≤ off then s.get (PAT.SFCFG.VI.i ((off - 0x100) / 8)) == v
    else !(write && 0x50 ≤ off && off < 0x60)
  | .BOB => !(off == 0x08 || off == 0x0C || (0x44 ≤ off && off ≤ 0x50) || off == 0x78 || off == 0x7C)
  | .DUT => !(write && (off == 0x60 || (0x80 ≤ off && off < 0x100))) && !(0x100 ≤ off)
  | _ => false

/-- Whether a tenant's access through a view is no refused one: an offset that holds no register is as R12 states. -/
def State.viewSees (s : State) (p : Page) (off v : Nat) (write : Bool) : Bool :=
  (findReg p.table off).isNone || s.viewShows p off v write

/-! Routing. -/

/-- Where an access leads. -/
inductive Route
  /-- A register page through the view of a virtual interface; 0 is the physical page. -/
  | reg (p : Page) (off v : Nat)
  /-- Memory at a physical address. -/
  | mem (a : Nat)
  /-- No region and no page (R13, R43). -/
  | unmapped
  /-- A page or region whose domain is off (R41, R46). -/
  | domOff
  /-- A store to boot ROM or flash (R44). -/
  | romWrite
  /-- A tenant view, or VI 0's window, does not show it (R295, R297). -/
  | viewRef (v : Nat)
  /-- A bound initiator outside its virtual interface (R300). -/
  | bindViol (v : Nat)
  deriving DecidableEq, Repr

/-- Whether a domain's pages and regions can be reached: it is on and no fence closes it (R41, R472). -/
def State.reachable (s : State) (d : Nat) : Bool := s.domOn d && bitOf s.pwr.closing d == 0

/-- Whether the domain that holds a register of a page is reachable; lanes above 0 lie in RXW (R40, R109, R135). -/
def State.pageOn (s : State) (p : Page) (off : Nat) : Bool :=
  s.reachable p.domain &&
    (match p, laneOf off with
     | .DMD, some (_ + 1) => s.reachable Dom.rxw
     | _, _ => true)

/-- The route of an unbound access to a physical address (R42). -/
def State.routePhys (s : State) (a : Nat) (write : Bool) : Route :=
  let inDom (d : Nat) : Route := if s.reachable d then .mem a else .domOff
  let rom (d : Nat) : Route := if !s.reachable d then .domOff else if write then .romWrite else .mem a
  if a < 0x10000 then rom Dom.core
  else if Base.flashA ≤ a ∧ a < 0x08800000 then rom Dom.nvm
  else if Base.sram ≤ a ∧ a < 0x20200000 then inDom Dom.core
  else if Base.bobbin ≤ a ∧ a < 0x24080000 then inDom Dom.mac
  else if Base.mram ≤ a ∧ a < 0x28040000 then inDom Dom.core
  else if Base.fram ≤ a ∧ a < 0x30100000 then inDom Dom.mac
  else if pageBase ≤ a ∧ a < 0x40026000 then
    match Page.ofCode (addrPage a) with
    | some p => if s.pageOn p (a % 0x1000) then .reg p (a % 0x1000) 0 else .domOff
    | none => .unmapped
  else if Base.window ≤ a ∧ a < 0x51000000 then
    let v := (a - Base.window) / 0x100000
    let off := a % 0x100000
    if !s.reachable Dom.mac then .domOff
    else if 0x80000 ≤ off then
      let x := s.get (VIF.APOFS.OFF.copy v) * 0x2000 + (off - 0x80000)
      if (v == 0 || s.viOpen v) && x < s.get (ten VIF.TENC0.FMSIZE v) * 0x2000 then
        .mem (Base.fram + s.get (ten VIF.TENC0.FMBASE v) * 0x2000 + x)
      else .viewRef v
    else
      match viewPage (off / 0x1000) with
      | none => .viewRef v
      | some p =>
        if !s.pageOn p (off % 0x1000) then .domOff
        else if v == 0 then .reg p (off % 0x1000) 0
        else if (s.viOpen v || p == .VIF) && s.viewSees p (off % 0x1000) v write then .reg p (off % 0x1000) v
        else .viewRef v
  else .unmapped

/-- The route of an initiator's access (R300 first, then the map). -/
def State.route (s : State) (i : Initiator) (a : Nat) (write : Bool) : Route :=
  let v := s.boundTo i
  if v != 0 && !s.boundReaches i v a write then .bindViol v else s.routePhys a write

/-- The initiator code and Mover channel of VIF.VIOLLOG (R307). -/
def violWho : Initiator → Nat × Nat
  | .mover ch => (1, ch.val)
  | .host _ => (2, 0)
  | _ => (0, 0)

/-- A bound initiator is refused: BINDVIOL is set, and VIOLLOG keeps the first (R300). -/
def bindViolation (i : Initiator) (v a : Nat) : Act := look fun s =>
  chain [stick VIF.STICKY.BINDVIOL,
    whenA (!s.is VIF.VIOLLOG.V) (chain [put VIF.VIOLLOG.INIT (violWho i).1, put VIF.VIOLLOG.VI v,
      put VIF.VIOLLOG.CH (violWho i).2, put VIF.VIOLLOG.ADDR (a / 0x1000), put VIF.VIOLLOG.V 1])]

/-- What a refused access sets; nothing for an access that reaches a register or memory. -/
def refusal (i : Initiator) (a : Nat) : Route → Act
  | .unmapped => stick SYS.STICKY.UNMAPPED
  | .domOff => stick SYS.STICKY.DOMOFF
  | .romWrite => stick SYS.STICKY.ROWRITE
  | .viewRef v => stickV VIF.STICKY.VIEWREF v
  | .bindViol v => bindViolation i v a
  | _ => skip

/-- A register access through the physical page (view 0) or the window of a tenant, at its address on the bus. -/
def viewAddr (f : Fld) (v : Nat) : Nat :=
  if v = 0 then keyAddr f.key
  else match Page.ofCode (addrPage (keyAddr f.key)) with
    | some p =>
      match pageView p with
      | some n => Base.window + v * 0x100000 + n * 0x1000 + keyAddr f.key % 0x1000
      | none => keyAddr f.key
    | none => keyAddr f.key

/-- Whether an initiator may not write the PWR page (R471). -/
def refusesPwr : Initiator → Bool
  | .core c => c.val == 1
  | .mover _ => true
  | .cipher => true
  | .remote => true
  | .host v => v.val != 0
  | .debug => false

/-- The effect of an access to a register of its own row where the route reaches the register, else the refusal. A write by
an initiator that may not write the PWR page sets WREF (R471). -/
def routed (i : Initiator) (a : Nat) (write : Bool) (effect : Act) : Route → Act
  | .reg p _ _ => if p == .PWR && (write && refusesPwr i) then stick PWR.STICKY.WREF else effect
  | r => chain [refusal i a r, whenA (!write) (answer i 0)]

/-- An access to a register of its own row. -/
def atRegister (i : Initiator) (v : Nat) (f : Fld) (write : Bool) (effect : Act) : Act :=
  look fun s => routed i (viewAddr f v) write effect (s.route i (viewAddr f v) write)

/-- An access to the SHU or PAT page: while the lockstep pair restores itself it waits (R341). `w` is the
word of a write. -/
def atPair (i : Initiator) (v : Nat) (f : Fld) (w : Option Nat) (effect : Act) : Act :=
  atRegister i v f w.isSome (look fun s =>
    if s.shu.pair.stage != 0 then onBus fun b => { b with waiting := b.waiting ++ [{ ini := i, view := v, key := f.key, word := w }] } else effect)

/-- A read of a register by an initiator. -/
def readBack (i : Initiator) (f : Fld) : Act := look fun s => answer i (s.get f)

end Sys2Proof.Machine
end

