-- ==== Sys2Proof/Machine/Fields.lean ====
section
/-! DEFINITION. A register write judged field by field (R14, R22 to R26, R626). -/

namespace Sys2Proof.Machine

/-- The description of the register at a key. -/
def descOf (k : Nat) : Option RegDesc :=
  (Page.ofCode (addrPage (keyAddr k))).bind fun p => findReg p.table (keyAddr k % 0x1000)

/-- Whether the page of a key is locked (R21). -/
def State.locked (s : State) (k : Nat) : Bool := s.is ((headerOf (keyAddr k) 0x1C 32).bit 0)

/-- RSVD of the page of a key, by an access through view `v` (R18, R23). -/
def setRsvd (k v : Nat) : Act := stickV ((headerOf (keyAddr k) 0x10 32).bit 31) v

/-- LOCKV of the page of a key (R18, R24). -/
def setLockv (k v : Nat) : Act := stickV ((headerOf (keyAddr k) 0x10 32).bit 30) v

/-- The written value of a field. -/
def FieldDesc.of (d : FieldDesc) (w : Nat) : Nat := w / 2 ^ d.lo % 2 ^ d.width

/-- One field of a written word (R14, R22 to R25). `bad` names values that are reserved in the present state beside those
of the table; `k` is the register's key, `v` the view of the access. -/
def judgeField (k v w : Nat) (bad : FieldDesc → Nat → Bool) (d : FieldDesc) : Act := look fun s =>
  let f : Fld := ⟨k, d.lo, d.width, 0⟩
  let x := d.of w
  let store := if !d.lim.allows d.width x || bad d x then setRsvd k v else put f x
  match d.acc with
  | .rw => store
  | .rwl => if s.locked k then setLockv k v else store
  | .w1c => put f (s.get f - (s.get f &&& x))
  | .w1s => put f (s.get f ||| x)
  | .ro => skip
  | .wo => skip

/-- A write of a whole register with further reserved values (R25). -/
def judgedWrite (k v w : Nat) (bad : FieldDesc → Nat → Bool) : Act :=
  match descOf k with
  | some d => eachA d.fields (judgeField k v w bad)
  | none => skip

/-- A write of a register whose rules are those of its table alone (R25). -/
def plainWrite (k v w : Nat) : Act := judgedWrite k v w fun _ _ => false

/-- Whether a write gives a one-word field a value other than the one it holds (R626). -/
def State.changes (s : State) (f : Fld) (w : Nat) : Bool := fieldOf (BitVec.ofNat 32 w) f.lo f.width != s.get f

end Sys2Proof.Machine
end

