-- ==== Sys2Proof/Machine/Duty.lean ====
section
/-! DEFINITION. The region lock, the air-time buckets and the check of a transmission (R257 to R272). -/

namespace Sys2Proof.Machine

/-! The lock (R257 to R260). -/

/-- The OTP EIRP limit of a sub-band in 0.5 dB: the least of its descriptor and the records that name it (R260). -/
def State.otpEirp (s : State) (sb : Nat) : Int :=
  (s.otp.records.filter fun r => r.sb == sb).foldl (fun m r => min m r.eirp) (s.otp.band sb).eirp

/-- The OTP duty limit of a sub-band; a record with DIS gives FORBID (R259, R260). -/
def State.otpDuty (s : State) (sb : Nat) : Nat :=
  (s.otp.records.filter fun r => r.sb == sb).foldl (fun m r => min m (if r.dis then 0 else r.duty)) (s.otp.band sb).duty

/-- The read-only registers of a sub-band take the lock's values (R257). -/
def loadBand (sb : Nat) : Act := look fun s =>
  chain [put (DUT.SBOTP0.EN.i sb) (if (s.otp.band sb).en then 1 else 0),
    put (DUT.SBOTP0.DWELL.i sb) (if (s.otp.band sb).dwell then 1 else 0),
    put (DUT.SBOTP0.FLO.i sb) (s.otp.band sb).flo, put (DUT.SBOTP1.FHI.i sb) (s.otp.band sb).fhi,
    putS (DUT.SBOTP2.EIRP.i sb) (s.otpEirp sb), put (DUT.SBOTP2.DUTY.i sb) (s.otpDuty sb)]

/-- The DUT page takes the lock's values, and the software limits start at them (R257, R261). -/
def loadLock : Act := look fun s =>
  chain [put DUT.PROFILE.REGION s.otp.region, put DUT.PROFILE.NSB s.otp.held.length,
    put DUT.PROFILE.TREC s.otp.records.length,
    eachA (List.range s.otp.held.length) fun sb =>
      chain [loadBand sb, putS (DUT.SBSW.EIRP.i sb) (s.otpEirp sb), put (DUT.SBSW.DUTY.i sb) (s.otpDuty sb),
        put (DUT.SBSW.SWEN.i sb) (if (s.otp.band sb).en then 1 else 0)]]

/-- Whether a duty code is one of R259. -/
def dutyCode (d : Nat) : Bool := d ≤ 10000 || d == 0xFFFF

/-- REGTIGHT on its 48 argument octets: the status, and the record where it is burnt (R260). -/
def tightening (s : State) (arg : List Nat) : Nat × Option Tighten :=
  let o (i : Nat) := arg.getD i 0
  let sb := o 0 % 8
  let eirp := toS 8 (o 1)
  let duty := o 2 + 256 * o 3
  let dis := o 4 == 1
  if o 0 ≥ 8 || o 4 ≥ 2 || (arg.drop 5).any (· != 0) || sb ≥ s.otp.held.length || !dutyCode duty then
    (Status.rsvdOp, none)
  else if eirp ≥ s.otpEirp sb && duty ≥ s.otpDuty sb && (!dis || s.otpDuty sb == 0) then (Status.rsvdOp, none)
  else if s.otp.records.length ≥ 8 then (Status.prot, none)
  else (Status.ok, some ⟨sb, eirp, duty, dis⟩)

/-- A burnt record takes effect: the lock's registers, and every software limit above the new limit is lowered (R260). -/
def burnRecord (r : Tighten) : Act :=
  chain [onOtp fun o => { o with records := o.records ++ [r] },
    look fun s => chain [loadBand r.sb, put DUT.PROFILE.TREC s.otp.records.length,
      whenA (s.getS (DUT.SBSW.EIRP.i r.sb) > s.otpEirp r.sb) (putS (DUT.SBSW.EIRP.i r.sb) (s.otpEirp r.sb)),
      whenA (s.get (DUT.SBSW.DUTY.i r.sb) > s.otpDuty r.sb) (put (DUT.SBSW.DUTY.i r.sb) (s.otpDuty r.sb))]]

/-! Writes of the page. -/

/-- A write of SBsSW: limits above the OTP limit are reserved, and so is SWEN 1 of a sub-band that the lock does not enable
(R259, R261). -/
def writeSbsw (sb v w : Nat) : Act := look fun s =>
  judgedWrite (DUT.SBSW.i sb).key v w fun d x =>
    if d.lo == 24 then toS 8 x > s.otpEirp sb
    else if d.lo == 16 then x == 1 && !(s.otp.band sb).en
    else !dutyCode x || x > s.otpDuty sb

/-- A write of DWMAX: a value above the present one is reserved (R270). -/
def writeDwmax (v w : Nat) : Act := look fun s =>
  judgedWrite DUT.DWMAX.key v w fun _ x => x > s.get DUT.DWMAX.MS

/-- A write of SHAREv: values above 1000 are reserved (R262). -/
def writeShare (n v w : Nat) : Act := judgedWrite (DUT.SHARE.i n).key v w fun _ x => x > 1000

/-! The buckets (R268 to R271). -/

/-- U_v of a sub-band in twelfths of a µs: the buckets of its window and the carry (R268, R269). -/
def State.usedBy (s : State) (sb vi : Nat) : Nat :=
  ((s.dut.air.filter fun c => c.sb == sb && c.vi == vi).map (·.dur)).sum
    + ((s.dut.carry.filter fun c => c.sb == sb && c.vi == vi).map (·.dur)).sum

/-- The holder of air time whose VI has closed: it counts in U and in no U_v (R293). -/
def noVi : Nat := 16

/-- U of a sub-band in twelfths of a µs. -/
def State.used (s : State) (sb : Nat) : Nat := ((List.range 17).map (s.usedBy sb)).sum

/-- The dwell sum of a frequency over its last `n` buckets, with the kept total where it still counts (R270, R271). -/
def State.dwell (s : State) (fc n : Nat) : Nat :=
  ((s.dut.dwellAir.filter fun c => c.fc == fc && s.dut.dwellNo < c.bucket + n).map (·.dur)).sum
    + (if s.tb ≤ s.dut.dwellKeptTo then s.dut.dwellKept else 0)

/-- The frequencies that hold a dwell entry (R271). -/
def State.dwellEntries (s : State) : List Nat :=
  ((s.dut.dwellAir.filter fun c => c.dur != 0).map (·.fc)).eraseDups

/-- `n` hourly rolls: the buckets that have left the window go, and the carry whose time has come (R268, R269). -/
def rollBucketsBy (n : Nat) : Act := look fun s => onDut fun d => { d with
  rollNo := d.rollNo + n
  rollAt := d.rollAt + 240000000 * n
  air := d.air.filter fun c => d.rollNo + n < c.bucket + 60
  carry := if s.tb ≥ d.carryTo then [] else d.carry }

/-- An hourly roll. -/
def rollBuckets : Act := rollBucketsBy 1

/-- `n` dwell rolls: the buckets that have left the 20 s window go (R270). -/
def rollDwellBy (n : Nat) : Act := onDut fun d => { d with
  dwellNo := d.dwellNo + n
  dwellAt := d.dwellAt + 4000000 * n
  dwellAir := d.dwellAir.filter fun c => d.dwellNo + n < c.bucket + 20 }

/-- A dwell roll. -/
def rollDwell : Act := rollDwellBy 1

/-- Every roll that has fallen due by a TB value (R268, R270). -/
def rollsBy (now : Nat) : Act := look fun s =>
  let due (at_ step : Nat) : Nat := if at_ ≤ now then (now - at_) / step + 1 else 0
  chain [whenA (due s.dut.rollAt 240000000 != 0) (rollBucketsBy (due s.dut.rollAt 240000000)),
    whenA (due s.dut.dwellAt 4000000 != 0) (rollDwellBy (due s.dut.dwellAt 4000000))]

/-- The rolls that precede a duty check in its cycle: with the tick running those of the last tick, else those whose
multiple has come (R267, R268). -/
def rollsFirst : Act := look fun s => rollsBy (if s.is CLK.CTRL.TICKEN then s.clk.lastTick else s.tb)

/-- The hourly roll: at the first tick at or after its multiple, or at the multiple itself while TICKEN is 0 (R268). -/
def execBucketRoll (s : State) : Host.Outcome State Fault Refusal :=
  act (look fun s => whenA (s.domOn Dom.mac)
    (if s.is CLK.CTRL.TICKEN then whenA (s.dut.rollAt ≤ s.clk.lastTick) rollBuckets
     else chain [until_ s.dut.rollAt, rollBuckets])) s

/-- The dwell roll (R270). -/
def execDwellRoll (s : State) : Host.Outcome State Fault Refusal :=
  act (look fun s => whenA (s.domOn Dom.mac)
    (if s.is CLK.CTRL.TICKEN then whenA (s.dut.dwellAt ≤ s.clk.lastTick) rollDwell
     else chain [until_ s.dut.dwellAt, rollDwell])) s

/-- TICKEN clears: a roll whose multiple has passed and whose tick has not come is made (R268, R270). -/
def rollDue : Act := look fun s => rollsBy s.tb

/-- MAC powers down: AON keeps U_v of every sub-band and the dwell total (R269, R271). -/
def dutyCut : Act := look fun s => onDut fun d => { d with
  carry := ((List.range 8).flatMap fun sb => (List.range 17).map fun v => ({ sb, vi := v, bucket := 0, dur := s.usedBy sb v } :
    Air)).filter fun c => c.dur != 0
  carryTo := s.tb + 14400000000
  air := []
  dwellKept := (d.dwellAir.map (·.dur)).sum + (if s.tb ≤ d.dwellKeptTo then d.dwellKept else 0)
  dwellKeptTo := s.tb + 80000000
  dwellAir := [] }

/-- At a restore of MAC the lock is loaded, and each roll takes the first multiple of TB whose roll has not fallen due: with
the tick running the first one after the last tick, which the next tick may follow (R257, R268, R269). -/
def dutyRestore : Act := look fun s =>
  let from_ := if s.is CLK.CTRL.TICKEN then s.clk.lastTick else s.tb
  chain [loadLock, onDut fun d => { d with
    rollAt := from_ / 240000000 * 240000000 + 240000000
    dwellAt := from_ / 4000000 * 4000000 + 4000000 }]

/-- TB steps to a member's cascade time: a roll waits for no multiple above the first one at or after the new TB, and those
that a step forward has passed are due (R268, R270, R316). -/
def rollsStep (tb : Nat) : Act := onDut fun d => { d with
  rollAt := min d.rollAt (ceilDiv tb 240000000 * 240000000)
  dwellAt := min d.dwellAt (ceilDiv tb 4000000 * 4000000) }

/-- A closing VI's per-VI buckets become 0; the sub-band's air time stays charged (R293). -/
def dutyClose (v : Nat) : Act := onDut fun d => { d with
  air := d.air.map fun c => if c.vi == v then { c with vi := noVi } else c
  carry := d.carry.map fun c => if c.vi == v then { c with vi := noVi } else c }

/-! The check (R263 to R267). -/

/-- A transmission as the check sees it: VI, carrier and occupied width in Hz, air time in twelfths of a µs, acknowledgement or not. -/
structure Emission where
  vi  : Nat
  fc  : Nat
  bw  : Nat
  dur  : Nat
  ack : Bool
  deriving DecidableEq, Repr

/-- Whether a sub-band contains a whole occupied band and is enabled by both the lock and SWEN (R263). -/
def State.bandHolds (s : State) (sb fc bw : Nat) : Bool :=
  s.is (DUT.SBOTP0.EN.i sb) && s.is (DUT.SBSW.SWEN.i sb)
    && 2 * s.get (DUT.SBOTP0.FLO.i sb) * 1000 + bw ≤ 2 * fc && 2 * fc + bw ≤ 2 * s.get (DUT.SBOTP1.FHI.i sb) * 1000

/-- The sub-band of an occupied band: the lowest-numbered that holds it (R263). -/
def State.subBand (s : State) (fc bw : Nat) : Option Nat :=
  (List.range s.otp.held.length).find? fun sb => s.bandHolds sb fc bw

/-- The budget B of a sub-band with a LIMIT, in twelfths of a µs (R259). -/
def State.budget (s : State) (sb : Nat) : Nat := s.get (DUT.SBSW.DUTY.i sb) * 4320000

/-- The acknowledgement reserve R (R265). -/
def State.reserve (s : State) (sb : Nat) : Nat := s.budget sb * 5 / 100

/-! The reason codes of DENYLOG (R272). -/

namespace Deny
def noBand : Nat := 1
def forbid : Nat := 2
def band : Nat := 3
def share : Nat := 4
def dwell : Nat := 5
def dwFull : Nat := 6
end Deny

/-- The dwell test of a sub-band with the dwell bit (R270, R271); 0 passes. -/
def State.dwellTest (s : State) (e : Emission) : Nat :=
  if !s.dwellEntries.contains e.fc && s.dwellEntries.length ≥ 128 then Deny.dwFull
  else if s.dwell e.fc (if e.bw < 250000 then 20 else 10) + e.dur > 12000 * s.get DUT.DWMAX.MS then Deny.dwell
  else 0

/-- The check of a transmission: the sub-band, or the reason of the first test that fails with the sub-band it is logged
with (R263, R265). -/
def State.dutyCheck (s : State) (e : Emission) : Except (Nat × Nat) Nat :=
  match s.subBand e.fc e.bw with
  | none => .error (Deny.noBand, 0)
  | some sb =>
    let duty := s.get (DUT.SBSW.DUTY.i sb)
    let b := s.budget sb
    let free := b - s.reserve sb
    if duty == 0 then .error (Deny.forbid, sb)
    else if duty != 0xFFFF && s.used sb + e.dur > (if e.ack then b else free) then .error (Deny.band, sb)
    else if duty != 0xFFFF && !e.ack
        && 1000 * (s.usedBy sb e.vi + e.dur) > s.get (DUT.SHARE.SH.i e.vi) * free then .error (Deny.share, sb)
    else if s.is (DUT.SBOTP0.DWELL.i sb) && s.dwellTest e != 0 then .error (s.dwellTest e, sb)
    else .ok sb

/-- Adds air time to the entry of a bucket. -/
def addAir (c : Air) : List Air → List Air
  | [] => [c]
  | x :: l => if x.sb == c.sb && x.vi == c.vi && x.bucket == c.bucket then { x with dur := x.dur + c.dur } :: l
    else x :: addAir c l

/-- Adds air time to the dwell entry of a bucket. -/
def addDwell (c : DwellAir) : List DwellAir → List DwellAir
  | [] => [c]
  | x :: l => if x.fc == c.fc && x.bucket == c.bucket then { x with dur := x.dur + c.dur } :: l else x :: addDwell c l

/-- The charge of an admitted transmission in sub-band `sb` (R266). -/
def State.chargeOf (s : State) (sb : Nat) (e : Emission) : Charge :=
  ⟨sb, e.vi, s.dut.rollNo, e.fc, s.dut.dwellNo, s.is (DUT.SBOTP0.DWELL.i sb)⟩

/-- Charges air time to its buckets (R266). -/
def chargeAir (c : Charge) (dur : Nat) : Act := onDut fun d => { d with
  air := addAir ⟨c.sb, c.vi, c.bucket, dur⟩ d.air
  dwellAir := if c.dwell then addDwell ⟨c.fc, c.dwBucket, dur⟩ d.dwellAir else d.dwellAir }

/-- Gives unsent air time back to the buckets it was charged to; to a bucket that has rolled out, it is lost (R266). -/
def refundAir (c : Charge) (dur : Nat) : Act := onDut fun d => { d with
  air := d.air.map fun x => if x.sb == c.sb && x.vi == c.vi && x.bucket == c.bucket then { x with dur := x.dur - dur } else x
  dwellAir := if c.dwell then
    d.dwellAir.map fun x => if x.fc == c.fc && x.bucket == c.dwBucket then { x with dur := x.dur - dur } else x
    else d.dwellAir }

/-- A refusal: DENYCNT of its VI, DENYLOG, DENY, and NOBAND or DWFULL where that was the reason (R263, R265, R271). -/
def denied (vi reason sb : Nat) : Act :=
  chain [count (DUT.DENYCNT.CNT.copy vi), put DUT.DENYLOG.REASON reason, put DUT.DENYLOG.VI vi, put DUT.DENYLOG.SB sb,
    put DUT.DENYLOG.V 1,
    whenA (reason == Deny.noBand) (stickV DUT.STICKY.NOBAND vi),
    whenA (reason == Deny.dwFull) (stickV DUT.STICKY.DWFULL vi),
    stickV DUT.STICKY.DENY vi]

end Sys2Proof.Machine
end

