-- ==== Sys2Proof/Machine/Wake.lean ====
section
/-! DEFINITION. Modes and the domains they need, the start of a restore, and wake sources (R467, R468, R475 to R478). -/

namespace Sys2Proof.Machine

/-- The power mode (R468). -/
def State.mode (s : State) : Nat := s.get PWR.STAT.MODE

/-- The optional domains of DOMEN as domain bits: TX, LAMP, MTR (R482). -/
def optDomains (o : Nat) : Nat := bitOf o 0 * 0x40 + bitOf o 1 * 0x80 + bitOf o 2 * 0x100

/-- The domains a mode has on, one bit each (R468). -/
def State.modeDomains (s : State) : Nat → Nat
  | 0 => 0x3F + optDomains (s.get PWR.DOMEN.RUNOPT)
  | 1 => 0x1F + optDomains (s.get PWR.DOMEN.NAROPT)
  | 4 => 0
  | _ => 1

/-- The domains of a set in the order of R476. -/
def domainList (m : Nat) : List Nat := (List.range 9).filter fun d => bitOf m d == 1

/-- Whether a power-down sequence or a restore is running (R482). -/
def State.pwrBusy (s : State) : Bool := s.is PWR.STAT.BUSY

/-- Starts the restore of the domains that a mode needs and that are off. From LISTEN and HIBERNATE it first starts the XO
and the PLL; otherwise AON stable is the moment of the request (R476). -/
def startRestore (mode : Nat) : Act := look fun s =>
  let need := (domainList (s.modeDomains mode)).filter fun d => d != 0 && !s.domOn d
  chain [onPwr fun p => { p with
      restoring := need
      upTo := mode
      starting := s.mode ≥ 2
      stepAt := s.tb },
    if need.isEmpty then put PWR.STAT.MODE mode else put PWR.STAT.BUSY 1]

/-- A wake toward a mode: during a power-down sequence it waits for the sequence's end, during a restore the target becomes
the higher one and the domains that it needs are looked up again, otherwise the restore starts (R478). -/
def wakeTo (mode : Nat) : Act := look fun s =>
  if s.pwr.closing != 0 then
    onPwr fun p => { p with wakeAfter := some (match p.wakeAfter with | some m => min m mode | none => mode) }
  else if !s.pwr.restoring.isEmpty then
    look fun s => if mode ≤ s.pwr.upTo then
      onPwr fun p => { p with
        upTo := mode
        restoring := (domainList (s.modeDomains mode)).filter fun d => d != 0 && !s.domOn d }
    else skip
  else startRestore mode

/-- A producer's pulse in AON, stamped with the crystal's count while CORE is off (R59, R531). -/
def pulseAon (p n : Nat) : Act := look fun s => onStm fun m => { m with pulses := m.pulses ++ [(p, s.stampNow n)] }

/-- Whether a wake source wakes: in LISTEN and HIBERNATE, and in a power-down sequence toward a mode below
NARROW (R475, R478). -/
def State.wakes (s : State) : Bool := s.mode == 2 || s.mode == 3 || (s.pwr.closing != 0 && 2 ≤ s.pwr.downTo)

/-- A wake source fires (R475): its WAKESRC bit, and where it wakes and its WAKEEN bit is 1 the stamp, STICKY.WAKE and the
wake. `k32` is the crystal's count since CORE went off. -/
def wakeSource (src mode k32 : Nat) : Act := look fun s =>
  chain [put (PWR.WAKESRC.SRC.bit src) 1, put PWR.WAKESRC.V 1, put PWR.WAKESRC.FROM s.mode,
    whenA (s.wakes && s.is (PWR.WAKEEN.SRC.bit src))
      (chain [put PWR.WAKETB.TB (s.stampNow k32), stickAt (s.stampNow k32) PWR.STICKY.WAKE 0 0, wakeTo mode])]

/-- The target of the sources that CTRL.WAKEMODE decides: NARROW or RUN (R475). -/
def State.wakeMode (s : State) : Nat := if s.is PWR.CTRL.WAKEMODE then 0 else 1

end Sys2Proof.Machine
end

