-- ==== Sys2Proof/Machine/Thimble.lean ====
section
/-! DEFINITION. The Thimble wake-up receiver (R273 to R283). -/

namespace Sys2Proof.Machine

/-! Calibration units that run (R93, R95). -/

/-- Unit `u` of the calibrations, in the order of grants. -/
def State.calUnit (s : State) (u : Nat) : CalUnit := s.rfe.cal.getD u {}

/-- The largest duration of a unit in µs (R93). -/
def calDuration (u : Nat) : Nat := [300, 300, 600, 600, 200, 400, 400, 400, 400, 1200, 1200, 50, 1100].getD u 0

/-- Whether a granted unit has started and not ended (R95). -/
def State.calRuns (s : State) (u : Nat) : Bool :=
  match (s.calUnit u).ends with
  | some t => t - 4 * calDuration u ≤ s.tb
  | none => false

/-! The receiver. -/

/-- THM.STAT.RUN follows EN, the crystal and the mode; while it is 0 no frame is in progress (R273, R284). -/
def thimbleRun : Act := look fun s =>
  if s.is THM.CTRL.EN && s.thm.k32ok && s.mode ≤ 2 then put THM.STAT.RUN 1
  else chain [put THM.STAT.RUN 0, put THM.STAT.INFR 0]

/-- A restart: a frame in progress is lost uncounted, and detection waits for 500 µs (R275). -/
def thimbleRestart : Act := look fun s =>
  chain [put THM.STAT.INFR 0, thimbleRun,
    onThm fun t => { t with detecting := false, detectAt := some (s.tb + 2000) }]

/-- A write of FREQ or of EN 1 that reaches the page and changes it (R275, R626); the frequency's reserved values leave it
(R284, R23). -/
def writeThimble (khz : Option Nat) : Act :=
  match khz with
  | some f =>
    if 150000 ≤ f ∧ f ≤ 1050000 then
      look fun s => whenA (s.get THM.FREQ.KHZ != f) (chain [put THM.FREQ.KHZ f, thimbleRestart])
    else stick THM.STICKY.RSVD
  | none => look fun s => whenA (!s.is THM.CTRL.EN) (chain [put THM.CTRL.EN 1, thimbleRestart])

/-- A write of FREQ, or of EN 1 where no frequency is given (R275). -/
def execThimbleRestart (i : Initiator) (khz : Option Nat) (s : State) : Host.Outcome State Fault Refusal :=
  act (atRegister i 0 (if khz.isSome then THM.FREQ else THM.CTRL) true (writeThimble khz)) s

/-- Detection begins 500 µs after the restart or the crystal's return (R275). -/
def execThimbleDetectStart (s : State) : Host.Outcome State Fault Refusal :=
  act (look fun s => match s.thm.detectAt with
    | none => skip
    | some t => chain [whenA s.clk.savedTb.isNone (until_ t),
        onThm fun h => { h with detectAt := none, detecting := true }, thimbleRun]) s

/-- Whether the Thimble takes its input: it runs, detects, its calibration unit is not running and port 0 does not
transmit (R273 to R276). -/
def State.thimbleHears (s : State) : Bool :=
  s.is THM.STAT.RUN && s.thm.detecting && !s.calRuns 4 && s.get RFE.STAT.P0STATE != 2

/-- The sync octet is found after at least 4 preamble bits; the next 32 bits are taken (R278). -/
def execThimbleSyncFound (s : State) : Host.Outcome State Fault Refusal :=
  act (look fun s => whenA s.thimbleHears (put THM.STAT.INFR 1)) s

/-- Whether a good frame is the device's own wake: individual or group (R279). -/
def State.wakeMatches (s : State) (code group : Nat) : Bool :=
  (code == s.get THM.CODE.VAL && group == 0)
    || (code == s.get THM.CODE.NETCODE && group &&& s.get THM.GMASK.G != 0)

/-- The effect of a trigger on the power mode (R281): none while a restore runs. WAKESRC.THM is set in LISTEN only (R475). A
wake during a power-down sequence waits for its end (R478). -/
def thimbleAction (k32 : Nat) : Act := look fun s =>
  let a := s.get THM.CTRL.ACTION
  if !s.pwr.restoring.isEmpty then skip
  else if s.mode == 2 || s.pwr.closing != 0 && s.pwr.downTo == 2 then
    chain [put (PWR.WAKESRC.SRC.bit 0) 1, put PWR.WAKESRC.V 1, put PWR.WAKESRC.FROM s.mode,
      whenA (a != 0 && s.is (PWR.WAKEEN.SRC.bit 0))
        (chain [put PWR.WAKETB.TB (s.stampNow k32), stickAt (s.stampNow k32) PWR.STICKY.WAKE 0 0,
          wakeTo (if a == 1 then 1 else 0)])]
  else whenA (a == 2 && s.mode == 1) (wakeTo 0)

/-- A trigger (R280). -/
def thimbleTrigger (code group k32 : Nat) : Act := look fun s =>
  chain [put THM.LAST.CODE code, put THM.LAST.GROUP group, put THM.LAST.V 1,
    put THM.LASTTB.TB (s.stampNow k32), count THM.CNT0.MATCH, stickAt (s.stampNow k32) THM.STICKY.MATCH 0 0,
    onThm fun h => { h with lastTrigger := some (s.stampNow k32) },
    onStm fun m => { m with pulses := m.pulses ++ [(88, s.stampNow k32)] },
    thimbleAction k32]

/-- The 32 bits after a sync: bad, ignored, suppressed by the holdoff, or a trigger (R278 to R280). `crc` is the CRC octet
received, none where a chip pair was no Manchester symbol. A frame that a restart or a transmission has lost is no longer in
progress and has no effect (R275, R276). -/
def execWakeFrameReceived (crc : Option Byte) (code : BitVec 16) (group : Byte) (k32 : Nat) (s : State) :
    Host.Outcome State Fault Refusal :=
  act (look fun s =>
    if !s.thimbleHears || !s.is THM.STAT.INFR then put THM.STAT.INFR 0
    else chain [put THM.STAT.INFR 0,
      if crc.map (·.toNat) != some (crc8 [code.toNat / 256, code.toNat % 256, group.toNat]) then
        chain [count THM.CNT1.BADFR, stickAt (s.stampNow k32) THM.STICKY.BADFR 0 0]
      else chain [count THM.CNT1.FRAMES,
        whenA (s.wakeMatches code.toNat group.toNat)
          (match s.thm.lastTrigger with
           | some t =>
             if s.stampNow k32 > t + s.get THM.CFG.HOLDOFF * 40000 then thimbleTrigger code.toNat group.toNat k32
             else count THM.CNT0.SUPPR
           | none => thimbleTrigger code.toNat group.toNat k32)]]) s

/-- A matched ACKED acknowledgement from the time source in a cell of the timing VI carries Frame Pending (R282). -/
def framePending (fp : Bool) : Act := look fun s =>
  whenA (s.get THM.CFG.PENDHOLD != 0)
    (if fp then chain [put THM.STAT.PHOLD (s.get THM.CFG.PENDHOLD), stick THM.STICKY.FPEND] else put THM.STAT.PHOLD 0)

/-- PHOLD counts down at the tick, which carries out a request that it does not hold (R282, R283, R471). -/
def pholdTick : Act := chain [
  look fun s => put THM.STAT.PHOLD (s.get THM.STAT.PHOLD - 1),
  look fun s => whenA (s.is PWR.MODEREQ.PEND && (s.get THM.STAT.PHOLD == 0 || !s.pwr.held))
    (onPwr fun p => { p with tickCame := true })]

end Sys2Proof.Machine
end

