-- ==== Sys2Proof/Machine/Timer.lean ====
section
/-! DEFINITION. Timers TIM0 to TIM7 (R521 to R529). -/

namespace Sys2Proof.Machine

/-- A list with item `n` replaced. -/
def setAt {α : Type} (l : List α) (n : Nat) (v : α) : List α := l.set n v

/-- The tenant that holds timer `n`, 0 for the supervisor (R288). -/
def State.timerVi (s : State) (n : Nat) : Nat :=
  ((List.range 16).find? fun v => v != 0 && s.viOpen v && bitOf (s.get (ten VIF.TEND0.TIMMASK v)) n == 1).getD 0

/-- Source edges from one TB to another for the sources that run by themselves; those of the crystal stop with it (R522). -/
def State.sourceEdges (s : State) (src lo hi : Nat) : Nat :=
  match src with
  | 0 => 10 * (hi - lo)
  | 1 => if s.thm.k32ok then hi * 128 / 15625 - lo * 128 / 15625 else 0
  | 2 => hi - lo
  | 4 => 80 * (hi - lo)
  | _ => 0

/-- The prescaler's divisor in 1/256 of an edge (R523). -/
def State.prescale (s : State) (n : Nat) : Nat := 256 * s.get (TIM.PRE.N.i n) + s.get (TIM.PRE.F.i n)

/-- The accumulator and the counter of timer `n` after `edges` source edges (R523). -/
def State.counted (s : State) (n edges : Nat) : Nat × Nat :=
  let total := s.tim.acc.getD n 0 + 256 * edges
  (total % max 1 (s.prescale n), (s.get (TIM.CNT.VAL.i n) + total / max 1 (s.prescale n)) % 2 ^ 32)

/-- Whether timer `n` is armed. -/
def State.armed (s : State) (n : Nat) : Bool := s.is (TIM.TCTRL.ARM.i n)

/-- Accumulator and counter of timer `n` at the present TB (R521, R522, R527). -/
def State.timerNow (s : State) (n : Nat) : Nat × Nat :=
  if s.get (TIM.TCTRL.SRC.i n) == 3 && !s.clk.gated then (s.tim.acc.getD n 0, s.tb % 2 ^ 32)
  else if s.armed n && !s.clk.gated then
    s.counted n (s.sourceEdges (s.get (TIM.TCTRL.SRC.i n)) (s.tim.since.getD n 0) s.tb)
  else (s.tim.acc.getD n 0, s.get (TIM.CNT.VAL.i n))

/-- Brings timer `n`'s register up to the present TB. -/
def syncTimer (n : Nat) : Act := look fun s =>
  chain [put (TIM.CNT.VAL.i n) (s.timerNow n).2,
    onTim fun t => { t with acc := setAt t.acc n (s.timerNow n).1, since := setAt t.since n s.tb }]

/-- A timer fires (R525): FIREn with the instance number, also in its tenant's copy (R529), FIRETB, its producer, and the
timer disarms with CNT held. -/
def fireTimer (n : Nat) : Act := look fun s =>
  chain [stickVI (TIM.STICKY.FIRE.bit n) (s.timerVi n) n 0, put (TIM.FIRETB.TB.i n) (s.tb % 2 ^ 32), pulse n,
    put (TIM.TCTRL.ARM.i n) 0]

/-- The WINDOW rule: CNT has reached CMP or passed it by less than 2^31 counts (R524). -/
def windowHolds (cnt cmp : Nat) : Bool := (cnt + 2 ^ 32 - cmp) % 2 ^ 32 < 2 ^ 31

/-- The WINDOW rule is evaluated at the arm and at a write of CMP (R524). -/
def checkWindow (n : Nat) : Act := look fun s =>
  whenA (s.armed n && s.is (TIM.TCTRL.MODE.i n) && windowHolds (s.get (TIM.CNT.VAL.i n)) (s.get (TIM.CMP.VAL.i n)))
    (fireTimer n)

/-- One event of an event-driven source: the prescaler counts it, and a count step is compared (R523, R524). -/
def countEvent (n : Nat) : Act := look fun s =>
  whenA (s.armed n && !s.clk.gated)
    (let c := s.counted n 1
     let stepped := c.2 != s.get (TIM.CNT.VAL.i n)
     chain [put (TIM.CNT.VAL.i n) c.2, onTim fun t => { t with acc := setAt t.acc n c.1 },
       whenA (stepped &&
           (if s.is (TIM.TCTRL.MODE.i n) then windowHolds c.2 (s.get (TIM.CMP.VAL.i n))
            else c.2 == s.get (TIM.CMP.VAL.i n)))
         (fireTimer n)])

/-- The armed timers that count the source `src` with selector `sel` count one event. -/
def countSource (src sel : Nat) : Act := look fun s =>
  eachA ((List.range 8).filter fun n =>
    s.get (TIM.TCTRL.SRC.i n) == src && (src == 5 || s.get (TIM.TCTRL.SEL.i n) == sel)) countEvent

/-- Arms timer `n`: ZERO clears CNT and the accumulator first, and a WINDOW timer is compared at once (R523, R524, R526). An
armed timer stays as it is. -/
def armTimer (n : Nat) : Act := look fun s =>
  if s.armed n then skip
  else chain [
    whenA (s.is (TIM.TCTRL.ZERO.i n))
      (chain [put (TIM.CNT.VAL.i n) 0, onTim fun t => { t with acc := setAt t.acc n 0 }]),
    put (TIM.TCTRL.ARM.i n) 1,
    onTim fun t => { t with since := setAt t.since n s.tb },
    syncTimer n, checkWindow n]

/-- Disarms timer `n` without firing; CNT holds its value (R521, R526). -/
def stopTimer (n : Nat) : Act := look fun s =>
  whenA (s.armed n) (chain [syncTimer n, put (TIM.TCTRL.ARM.i n) 0])

/-- A write of a timer's CTRL (R522, R523, R526): reserved encodings first, then the fields (ignored with BUSYWR while the
timer is armed), then STOP, which wins, or ARM. -/
def writeTimerCtrl (n w : Nat) : Act := look fun s =>
  let edgeBad := bits w 23 22 == 3
  let gpioBad := bits w 26 24 == 6 && bits w 20 16 ≥ 30
  let src := if gpioBad then s.get (TIM.TCTRL.SRC.i n) else bits w 26 24
  let sel := if gpioBad then s.get (TIM.TCTRL.SEL.i n) else bits w 20 16
  let edge := if edgeBad then s.get (TIM.TCTRL.EDGE.i n) else bits w 23 22
  let changed := src != s.get (TIM.TCTRL.SRC.i n) || sel != s.get (TIM.TCTRL.SEL.i n)
    || edge != s.get (TIM.TCTRL.EDGE.i n) || bits w 29 29 != s.get (TIM.TCTRL.ZERO.i n)
    || bits w 28 28 != s.get (TIM.TCTRL.MODE.i n)
  chain [whenA (edgeBad || gpioBad) (stickV TIM.STICKY.RSVD (s.timerVi n)),
    whenA changed (if s.armed n then stickVI TIM.STICKY.BUSYWR (s.timerVi n) n 0
      else chain [syncTimer n, put (TIM.TCTRL.SRC.i n) src, put (TIM.TCTRL.SEL.i n) sel, put (TIM.TCTRL.EDGE.i n) edge,
        put (TIM.TCTRL.ZERO.i n) (bits w 29 29), put (TIM.TCTRL.MODE.i n) (bits w 28 28)]),
    if bits w 30 30 == 1 then stopTimer n else whenA (bits w 31 31 == 1) (armTimer n)]

/-- A write of CMP; a WINDOW timer is compared at once (R524, R526). -/
def writeTimerCmp (n w : Nat) : Act := chain [syncTimer n, put (TIM.CMP.VAL.i n) w, checkWindow n]

/-- A write of CNT or PRE: ignored with BUSYWR while armed; a TBABS timer ignores CNT writes; writing CNT clears the
accumulator (R522, R523, R526). -/
def writeTimerCnt (n w : Nat) : Act := look fun s =>
  if s.get (TIM.TCTRL.SRC.i n) == 3 then skip
  else if s.armed n then whenA (w != (s.timerNow n).2) (stickVI TIM.STICKY.BUSYWR (s.timerVi n) n 0)
  else chain [put (TIM.CNT.VAL.i n) w, onTim fun t => { t with acc := setAt t.acc n 0 }]

/-- A write of PRE (R523, R526). -/
def writeTimerPre (n w : Nat) : Act := look fun s =>
  if bits w 31 16 == 0 then
    chain [stickV TIM.STICKY.RSVD (s.timerVi n),
      whenA (bits w 7 0 != s.get (TIM.PRE.F.i n))
        (if s.armed n then stickVI TIM.STICKY.BUSYWR (s.timerVi n) n 0 else put (TIM.PRE.F.i n) (bits w 7 0))]
  else if s.armed n then
    whenA (bits w 31 16 != s.get (TIM.PRE.N.i n) || bits w 7 0 != s.get (TIM.PRE.F.i n))
      (stickVI TIM.STICKY.BUSYWR (s.timerVi n) n 0)
  else chain [put (TIM.PRE.N.i n) (bits w 31 16), put (TIM.PRE.F.i n) (bits w 7 0)]

/-- TB units until `counts` more counts of timer `n` for a source that runs by itself (R522, R523). -/
def State.tbFor (s : State) (n counts : Nat) : Nat :=
  let edges := ceilDiv (counts * s.prescale n - (s.timerNow n).1) 256
  match s.get (TIM.TCTRL.SRC.i n) with
  | 0 => ceilDiv edges 10
  | 1 => ceilDiv ((s.tb * 128 / 15625 + edges) * 15625) 128 - s.tb
  | 2 => edges
  | 4 => ceilDiv edges 80
  | _ => 0

/-- A write of ARM (R526). -/
def execTimerArm (i : Initiator) (v : Fin 16) (n : Fin 8) (w : Word) (s : State) : Host.Outcome State Fault Refusal :=
  act (atRegister i v (TIM.TCTRL.i n) true (writeTimerCtrl n (w ||| 0x80000000#32).toNat)) s

/-- A write of STOP (R526). -/
def execTimerStop (i : Initiator) (v : Fin 16) (n : Fin 8) (w : Word) (s : State) : Host.Outcome State Fault Refusal :=
  act (atRegister i v (TIM.TCTRL.i n) true (writeTimerCtrl n (w ||| 0x40000000#32).toNat)) s

/-- A write of CMP (R524). -/
def execTimerCmpWrite (i : Initiator) (v : Fin 16) (n : Fin 8) (w : Word) (s : State) :
    Host.Outcome State Fault Refusal :=
  act (atRegister i v (TIM.CMP.i n) true (writeTimerCmp n w.toNat)) s

/-- An armed timer whose source runs by itself counts until its compare rule holds, and fires (R522, R524, R525). A LAP
timer that stands at CMP waits 2^32 counts, and a WINDOW timer that has passed CMP fires at once. A timer on SLOT, GPIO or
STITCH fires in the command of its event. -/
def execTimerFire (n : Fin 8) (s : State) : Host.Outcome State Fault Refusal :=
  act (look fun s =>
    let cmp := s.get (TIM.CMP.VAL.i n)
    let gap := (cmp + 2 ^ 32 - (s.timerNow n).2) % 2 ^ 32
    let counts := if gap == 0 then 2 ^ 32 else gap
    let src := s.get (TIM.TCTRL.SRC.i n)
    whenA (s.armed n && src < 5 && !s.clk.gated && (src != 1 || s.thm.k32ok))
      (if s.is (TIM.TCTRL.MODE.i n) && windowHolds (s.timerNow n).2 cmp then chain [syncTimer n, fireTimer n]
       else chain [until_ (s.tb + (if src == 3 then counts else s.tbFor n counts)), syncTimer n,
         put (TIM.CNT.VAL.i n) cmp, fireTimer n])) s

/-- The PLL loses lock: counters stop, and PLLGAP is set if a timer is armed (R527). -/
def timersPause : Act := look fun s =>
  chain [eachA ((List.range 8).filter fun n => s.armed n || s.get (TIM.TCTRL.SRC.i n) == 3) syncTimer,
    eachA ((List.range 8).filter s.armed) fun n => stickV TIM.STICKY.PLLGAP (s.timerVi n)]

/-- The lock returns: counting goes on from the present TB, and a TBABS timer rejoins TB, where the WINDOW rule is evaluated
(R524, R527). -/
def timersResume : Act := look fun s => chain [onTim fun t => { t with since := List.replicate 8 s.tb },
  eachA ((List.range 8).filter fun n => s.armed n && s.get (TIM.TCTRL.SRC.i n) == 3) fun n => chain [syncTimer n, checkWindow n]]

/-- The timers that count the 32.768 kHz crystal are brought up to the moment at which it stops or starts (R522). -/
def crystalTimers : Act := look fun s =>
  whenA (s.domOn Dom.core) (eachA ((List.range 8).filter fun n => s.get (TIM.TCTRL.SRC.i n) == 1) syncTimer)

end Sys2Proof.Machine
end

