-- ==== Sys2Proof/Machine/Stitch.lean ====
section
/-! DEFINITION. The Stitch matrix (R531 to R537) and the GPIO balls (R624, R625). -/

namespace Sys2Proof.Machine

/-- Whether producer `p` drives channel `c` (R531, R538). -/
def State.drives (s : State) (p c : Nat) : Bool := s.is ((STM.PEN.P.i (3 * c + p / 32)).bit (p % 32))

/-- Whether an event on channel `c` reaches consumer `u`: its CM bit, or in legacy mode the one consumer LCONS
(R531, R534). -/
def State.reaches (s : State) (c u : Nat) : Bool :=
  if s.is (STM.CHCFG.LEGACY.i c) then s.get (STM.CHCFG.LCONS.i c) == u
  else s.is ((STM.CM.C.i (2 * c + u / 32)).bit (u % 32))

/-- The edge selection of ball `p` (R624): 0 none, 1 rising, 2 falling, 3 both. -/
def State.edgeSel (s : State) (p : Nat) : Nat :=
  if p < 16 then s.get (GIO.EDGE0.E.sub (2 * p) 2) else s.get (GIO.EDGE1.E.sub (2 * (p - 16)) 2)

/-- Whether a change to `level` is an edge of a kind: bit 0 rising, bit 1 falling. -/
def edgeHit (kind : Nat) (level : Bool) : Bool := if level then bitOf kind 0 == 1 else bitOf kind 1 == 1

/-- The level of a GPIO ball changes: IN follows, a selected edge sets EDGEp and pulses its producer, and timers on the
ball count edges of their kind (R522, R625). -/
def gpioLevel (p : Nat) (level : Bool) : Act := look fun s =>
  whenA (s.is (GIO.IN.P.bit p) != level)
    (chain [put (GIO.IN.P.bit p) (if level then 1 else 0),
      whenA (edgeHit (s.edgeSel p) level) (chain [stickI (GIO.STICKY.EDGE.bit p) 0 0, pulse (35 + p)]),
      eachA ((List.range 8).filter fun n =>
          s.get (TIM.TCTRL.SRC.i n) == 6 && s.get (TIM.TCTRL.SEL.i n) == p
            && edgeHit (match s.get (TIM.TCTRL.EDGE.i n) with | 0 => 1 | 1 => 2 | _ => 3) level)
        countEvent])

/-- Whether the device drives a GPIO ball: OE is 1, and an open-drain ball is driven low only (R624). -/
def State.gpioDriven (s : State) (p : Nat) : Bool := s.is (GIO.OE.P.bit p) && (!s.is (GIO.OD.P.bit p) || !s.is (GIO.OUT.P.bit p))

/-- The balls that the device drives take the levels of OUT (R624, R625). -/
def gpioDrive : Act := look fun s => whenA (s.domOn Dom.core)
  (eachA ((List.range 30).filter s.gpioDriven) fun p => gpioLevel p (s.is (GIO.OUT.P.bit p)))

/-- GPIO task `k`: its ACTION on OUT of its BALL (R625). -/
def gpioTask (k : Nat) : Act := look fun s =>
  let b := GIO.OUT.P.bit (s.get (GIO.TASK.BALL.i k))
  match s.get (GIO.TASK.ACTION.i k) with
  | 1 => put b 1
  | 2 => put b 0
  | 3 => put b (1 - s.get b)
  | _ => skip

/-- An event for Mover channel `c`: a channel that waits under TRIG starts its descriptor, else one event is kept (R451). -/
def moverEvent (c : Nat) : Act := look fun s =>
  if s.get (MOV.CSTAT.STATE.i c) == 1 then put (MOV.CSTAT.STATE.i c) 2
  else onMov fun m => { m with events := if m.events.contains c then m.events else c :: m.events }

/-- The task of consumer `u` for an event that channel `c` carried at `t` (R533). Clearing EN comes after setting it, so that the
clear wins. -/
def consumerTask (c t u : Nat) : Act :=
  if u < 8 then armTimer u
  else if u < 16 then stopTimer (u - 8)
  else if u < 32 then moverEvent (u - 16)
  else if u < 40 then look fun s =>
    whenA (s.is REC.CTRL.EN && s.is (REC.TRG.EN.i (u - 32)) && !s.is (REC.TRG.SRC.i (u - 32)))
      (onRecd fun r => { r with fired := r.fired ++ [⟨u - 32, t, 0, 0x05, c⟩] })
  else if u < 48 then gpioTask (u - 40)
  else if u < 50 then put (CPU.DBSTAT.DB.bit (u - 48)) 1
  else if u == 60 then look fun s => put STM.RTCCAP.SEC (s.get PWR.RTCSEC.SEC)
  else if u == 61 then look fun s => whenA (!s.is THM.CTRL.EN) (chain [put THM.CTRL.EN 1, thimbleRestart])
  else if u == 62 then chain [put THM.CTRL.EN 0, thimbleRun]
  else skip

/-- FLAG bit `c` rises; with its FLAGEN bit 1, STICKY.FLAG is set (R535). -/
def raiseFlag (c : Nat) : Act := look fun s =>
  chain [whenA (!s.is (STM.FLAG.CH.bit c) && s.is (STM.FLAGEN.CH.bit c)) (stick STM.STICKY.FLAG),
    put (STM.FLAG.CH.bit c) 1]

/-- A producer's event at `t`: every channel it drives sets its flag, each consumer reached acts once, a timer that it both
arms and stops being stopped only (R526), and timers that count a channel count it. While CORE is off only channels 24 to 31 carry events, from producers 88 to 94 to consumers 60
to 62, and the flags' STICKY.FLAG waits for the restore (R531, R533, R535, R536). -/
def stitchEvent (p t : Nat) : Act := look fun s =>
  let on := s.domOn Dom.core
  let chans := (List.range 32).filter fun c => s.drives p c && (on || (24 ≤ c && 88 ≤ p && p ≤ 94))
  let hit (u : Nat) : Bool := chans.any (fun c => s.reaches c u) && (on || (60 ≤ u && u ≤ 62))
  let users := (List.range 64).filter fun u => hit u && !(u < 8 && hit (u + 8))
  chain [eachA chans fun c => if on then raiseFlag c else put (STM.FLAG.CH.bit c) 1,
    eachA users fun u => consumerTask ((chans.find? fun c => s.reaches c u).getD 0) t u,
    whenA (users.any fun u => 40 ≤ u && u < 48) gpioDrive,
    whenA on (eachA chans fun c => countSource 7 c)]

/-- The oldest producer pulse reaches its channels and consumers (R531). -/
def execStitchEvent (s : State) : Host.Outcome State Fault Refusal :=
  act (look fun s => match s.stm.pulses with
    | [] => skip
    | (p, t) :: l => chain [onStm fun m => { m with pulses := l }, stitchEvent p t]) s

/-- A write of SWTRIG pulses producers 72 to 79 (R532, R538). -/
def softTrigger (w : Nat) : Act := eachA ((List.range 8).filter fun k => bitOf w k == 1) fun k => pulse (72 + k)

/-- A write to STM.SWTRIG (R532). -/
def execSwtrig (i : Initiator) (w : Word) (s : State) : Host.Outcome State Fault Refusal :=
  act (atRegister i 0 STM.SWTRIG true (softTrigger w.toNat)) s

/-- An edge on a GPIO ball (R625); no edge is seen while CORE is off. -/
def execGpioEdge (p : Fin 30) (level : Bool) (s : State) : Host.Outcome State Fault Refusal :=
  act (look fun s => whenA (s.domOn Dom.core) (gpioLevel p level)) s

/-- At the CORE step of a restore a flag of channels 24 to 31 with its FLAGEN bit 1 sets STICKY.FLAG (R536). -/
def stitchRestore : Act := look fun s =>
  whenA ((List.range 32).any fun c => 24 ≤ c && s.is (STM.FLAG.CH.bit c) && s.is (STM.FLAGEN.CH.bit c))
    (stick STM.STICKY.FLAG)

end Sys2Proof.Machine
end

