-- ==== Sys2Proof/Machine/Lamp.lean ====
section
/-! DEFINITION. Lamp channels, their faults, dimming windows, override and relays (R483 to R500). -/

namespace Sys2Proof.Machine

/-- Lamp channel `n`. -/
def State.lamp (s : State) (n : Nat) : LampCh := s.lmp.ch.getD n {}

/-- Changes lamp channel `n`. -/
def onLamp (n : Nat) (f : LampCh → LampCh) : Act := onLmp fun l => { l with ch := l.ch.modify n f }

/-- The state of a channel (R486): 0 OFF, 1 START, 2 ON, 3 FAULT, 4 LOCKOUT. -/
def State.lampState (s : State) (n : Nat) : Nat := s.get (LMP.CHSTAT.STATE.i n)

/-- Whether the NTC is hot (R495). -/
def State.ntcHot (s : State) : Bool := s.is LMP.STAT.NTCHOT && s.is LMP.NTCCFG.NTCEN

/-- Whether a hold other than a hot NTC holds every channel (R487). -/
def State.lampHeldHard (s : State) : Bool :=
  s.get SYS.ROLE.VAL == 0 || (s.is LMP.CTRL.ENPIN && !s.lmp.enBall) || !s.lmp.vgdOk

/-- Whether the channels are held (R487). -/
def State.lampHeld (s : State) : Bool := s.lampHeldHard || s.ntcHot

/-- Whether channel `n` is to light: its override, or else its EN (R489, R500). -/
def State.lampWanted (s : State) (n : Nat) : Bool :=
  match (s.lamp n).ovr with
  | some o => o.level
  | none => s.is (LMP.CHCTRL.EN.i n)

/-- The window period in TB units for a DIMF code (R485). -/
def windowPeriod (dimf : Nat) : Nat := 16000 / 2 ^ dimf

/-- The first window start at or after `t` of the sequence with DIMF and PHASE (R485). -/
def firstWindow (origin dimf phase t : Nat) : Nat :=
  let p := windowPeriod dimf
  let o := origin + phase * p / 4
  if t ≤ o then o else o + ceilDiv (t - o) p * p

/-- A channel enters a state; DIAG is NONE in every state but ON (R486, R493). -/
def lampEnter (n st : Nat) : Act := look fun s =>
  chain [put (LMP.CHSTAT.STATE.i n) st, put (LMP.CHSTAT.DIAG.i n) 0,
    onLamp n fun c => { c with winEnd := if st == 1 then s.tb else c.winEnd, ssFrom := none, since := s.tb
                               conduct := 0, windows := 0, seen := false, waiting := false, probing := false }]

/-- The first and third rows of R489, and the fifth column of R487: channels that may start do, and channels that are
turned off or held go OFF by soft turn-off (R488). -/
def settleLamp (n : Nat) : Act := look fun s =>
  if s.lampState n == 0 then whenA (s.lampWanted n && !s.lampHeld) (lampEnter n 1)
  else if s.lampState n == 1 || s.lampState n == 2 then
    whenA (!s.lampWanted n || s.lampHeldHard) (lampEnter n 0)
  else skip

/-- Every channel is settled after a hold, a role or an enable changed. -/
def settleLamps : Act := look fun s => whenA (s.reachable Dom.lamp) (eachA (List.range 4) settleLamp)

/-- FAULT or LOCKOUT goes OFF with RC 0: EN written 0, or override OFF (R489). -/
def lampClear (n : Nat) : Act := look fun s =>
  whenA (s.lampState n ≥ 3) (chain [lampEnter n 0, put (LMP.CHSTAT.RETRIES.i n) 0])

/-- A write of CHCTRL.EN: stored; outside override it starts the channel, turns it off, or clears FAULT and LOCKOUT
(R489, R500); writing the value held is no write (R626). -/
def writeLampEn (n : Nat) (en : Bool) : Act := look fun s =>
  whenA (s.is (LMP.CHCTRL.EN.i n) != en) (chain [put (LMP.CHCTRL.EN.i n) (if en then 1 else 0),
    whenA (s.lamp n).ovr.isNone (chain [whenA (!en) (lampClear n), settleLamp n])])

/-- A write of CHCTRL (R489). -/
def execChannelEnWrite (i : Initiator) (n : Fin 4) (en : Bool) (s : State) : Host.Outcome State Fault Refusal :=
  act (atRegister i 0 (LMP.CHCTRL.i n) true (writeLampEn n en)) s

/-- The ON portion of a window in ns (R485). -/
def onPortion (cfg duty : Nat) : Nat := duty * (windowPeriod (bits cfg 15 13) * 250) / 10000

/-- A window starts: CHCFG and LEVEL, or the override's level, apply to it in one cycle; in START the first one begins the
soft start; in ON its conduction joins the accumulation, and a due probe stretches it to 8 µs (R485, R486, R493, R494).
`sense` is the largest sensed voltage of its gate pulses in µV, which shows current above OPENTH × 0.5 mV. -/
def windowStart (n sense : Nat) : Act := look fun s =>
  let c := s.lamp n
  let sensed := decide (s.get (LMP.PROT.OPENTH.i n) * 500 < sense)
  let cfg := (s.reg (LMP.CHCFG.i n).key).toNat
  let start := firstWindow s.lmp.origin (bits cfg 15 13) (bits cfg 12 11) c.winEnd
  let duty := match c.ovr with | some o => o.duty | none => s.get (LMP.LEVEL.DUTY.i n)
  let adim := match c.ovr with | some o => o.adim | none => s.get (LMP.LEVEL.ADIM.i n)
  let on := onPortion cfg duty
  let probe := c.probing && on < 8000 && duty != 0
  whenA (s.lampState n == 1 || s.lampState n == 2) (chain [until_ start,
    onLamp n fun c => { c with
      duty := duty, adim := adim, cfg := cfg, winEnd := start + windowPeriod (bits cfg 15 13), probing := false
      ssFrom := if s.lampState n == 1 && c.ssFrom.isNone then some start else c.ssFrom },
    whenA (s.lampState n == 2 && probe) (chain [count (LMP.FCNT.PROBES.i n),
      onLamp n fun c => { c with conduct := 8000, windows := 1, seen := sensed, waiting := false }]),
    whenA (s.lampState n == 2 && !probe && duty != 0 && (!(c.waiting && s.is (LMP.PROBE.CH.bit n)) || on ≥ 8000))
      (onLamp n fun c => { c with conduct := c.conduct + on, windows := c.windows + 1, seen := c.seen || sensed })])

/-- A dimming window of a channel starts (R485). -/
def execDimWindowStart (n : Fin 4) (sense : Nat) (s : State) : Host.Outcome State Fault Refusal :=
  act (windowStart n sense) s

/-- Soft start ends (SSTIME + 1) × 2 ms after the first window start in START: ON, open diagnosis and probes begin
(R486, R489, R494). -/
def execSoftStartEnd (n : Fin 4) (s : State) : Host.Outcome State Fault Refusal :=
  act (look fun s => match (s.lamp n).ssFrom with
    | some t =>
      whenA (s.lampState n == 1) (chain [until_ (t + (bits (s.lamp n).cfg 3 0 + 1) * 8000), lampEnter n 2,
        look fun s => onLamp n fun c => { c with onAt := s.tb, probeAt := s.tb + s.get LMP.PROBEINT.I * 400000 }])
    | none => skip) s

/-- A fault's sticky bit (R491, R501). -/
def lampSticky (kind : Nat) : Fld :=
  match kind with
  | 1 => LMP.STICKY.RAMPSHORT
  | 2 => LMP.STICKY.SHORT
  | 3 => LMP.STICKY.OPEN
  | 4 => LMP.STICKY.OVP
  | _ => LMP.STICKY.OVERTEMP

/-- A fault's counter (R492, R501). -/
def lampCounter (n kind : Nat) : Fld :=
  match kind with
  | 1 => LMP.FCNT.RAMPSHORT.i n
  | 2 => LMP.FCNT.SHORT.i n
  | 3 => LMP.FCNT.OPENOVP.i n
  | 4 => LMP.FCNT.OPENOVP.i n
  | _ => LMP.OTCNT.CNT

/-- Whether a channel is in START or ON, with its domain on. -/
def State.lampRuns (s : State) (n : Nat) : Bool := s.domOn Dom.lamp && (s.lampState n == 1 || s.lampState n == 2)

/-- Whether a channel has taken a fault in the present cycle, for which the model takes the TB unit
(notes/assumptions/49.md). -/
def State.justFaulted (s : State) (n : Nat) : Bool := 3 ≤ s.lampState n && (s.lamp n).faultAt == s.tb

/-- The state in which a further fault of the present cycle is judged: the channel as it stood before the first one (R491). -/
def State.beforeFault (s : State) (n : Nat) : State :=
  let l := s.lmp.left.getD n (0, {})
  if s.justFaulted n then (chain [put (LMP.CHSTAT.STATE.i n) l.1, onLamp n fun _ => l.2]).run s else s

/-- The fault of one channel: its counter, FLOG and producer, and the transition of R489 to FAULT or LOCKOUT. Several faults of
one cycle make one transition, and FLOG holds the lowest kind (R491, R492). -/
def lampFaultOf (n kind : Nat) : Act := look fun s =>
  let again := s.justFaulted n
  let lock := kind != 5 && s.get (LMP.CHSTAT.RETRIES.i n) ≥ s.get LMP.RETRYMAX.N
  chain [count (lampCounter n kind), put (LMP.FLOG.V.i n) 1,
    put (LMP.FLOG.KIND.i n) (if again then min (s.get (LMP.FLOG.KIND.i n)) kind else kind),
    put (LMP.FLOG.LOCK.i n) (if lock || (again && s.is (LMP.FLOG.LOCK.i n)) then 1 else 0),
    put (LMP.FLOGTB.TB.i n) (s.tb % 2 ^ 32),
    if again then whenA lock (put (LMP.CHSTAT.STATE.i n) 4)
    else chain [pulse (9 + n), onLmp fun l => { l with left := l.left.set n (s.lampState n, s.lamp n) },
      lampEnter n (if lock then 4 else 3)],
    whenA (lock && s.lampState n != 4) (stickI LMP.STICKY.LOCKOUT n 0),
    onLamp n fun c => { c with faultAt := s.tb, onlyHot := kind == 5 && (!again || c.onlyHot) }]

/-- Channels take a fault in one cycle: the sticky bit with INST the lowest of them and INFO their mask, then each
channel's own part (R491, R492). -/
def lampFault (chans : List Nat) (kind : Nat) : Act := look fun s =>
  let chans := chans.filter fun n => s.lampState n == 1 || s.lampState n == 2 || s.justFaulted n
  whenA (!chans.isEmpty) (chain [
    stickI (lampSticky kind) (chans.headD 0) (chans.foldl (fun m n => m + 2 ^ n) 0), eachA chans fun n => lampFaultOf n kind])

/-- Whether a channel drives its gate in the window in force: DUTY is not 0, and in START a window has begun (R485, R486). -/
def State.lampDrives (s : State) (n : Nat) : Bool :=
  s.lampRuns n && (s.lamp n).duty != 0 && (s.lampState n == 2 || (s.lamp n).ssFrom.isSome)

/-- The RAMPSHORT level of a channel in µV: twice the target limit of the window in force, at least 20 mV (R491). -/
def State.rampLevel (s : State) (n : Nat) : Nat := max (bits (s.lamp n).cfg 31 24 * (s.lamp n).adim * 10) 20000

/-- The sense voltage passes the RAMPSHORT level during a gate drive in START or ON (R491). -/
def execRampshortTrip (n : Fin 4) (microvolts : Nat) (s : State) : Host.Outcome State Fault Refusal :=
  act (look fun s =>
    let p := s.beforeFault n
    whenA (p.lampDrives n && microvolts ≥ p.rampLevel n) (lampFault [n.val] 1)) s

/-- VFBn stays below SHORTTH × 10 mV for SHORTT × 10 µs in ON (R491). -/
def execShortDetect (n : Fin 4) (millivolts : Nat) (s : State) : Host.Outcome State Fault Refusal :=
  act (look fun s => chain [whenA (s.domOn Dom.lamp) (put (LMP.CHSTAT.VFB.i n) millivolts),
    whenA ((s.beforeFault n).lampRuns n && (s.beforeFault n).lampState n == 2 && millivolts < s.get (LMP.PROT.SHORTTH.i n) * 10)
      (chain [until_ (((s.beforeFault n).lamp n).since + s.get (LMP.PROT.SHORTT.i n) * 40), lampFault [n.val] 2])]) s

/-- VFBn is above OVPTH × 10 mV in two consecutive samples in START or ON (R491). -/
def execOvpDetect (n : Fin 4) (millivolts : Nat) (s : State) : Host.Outcome State Fault Refusal :=
  act (look fun s => chain [whenA (s.domOn Dom.lamp) (put (LMP.CHSTAT.VFB.i n) millivolts),
    whenA ((s.beforeFault n).lampRuns n && millivolts > s.get (LMP.PROT.OVPTH.i n) * 10) (lampFault [n.val] 4)]) s

/-! The converter loop (R483). -/

/-- The peak limit P of a channel in µV: IPK × 0.5 mV × ADIM / 100 of the window in force, and in START the part of it that the
soft start has reached (R483, R486). -/
def State.peakLimit (s : State) (n : Nat) : Nat :=
  let c := s.lamp n
  let p := bits c.cfg 31 24 * c.adim * 5
  let full := (bits c.cfg 3 0 + 1) * 8000
  match s.lampState n with
  | 1 => match c.ssFrom with | some t => p * min (s.tb - t) full / full | none => 0
  | 2 => p
  | _ => 0

/-- Leading-edge blanking in ns (R501). -/
def blanking (cfg : Nat) : Nat := [100, 150, 200, 300, 400].getD (bits cfg 10 8) 400

/-- Whether GATEn is high `t` ns after the start of a switching cycle that began with `left` ns of the ON portion to go, as long as
it has not fallen in the cycle: until the sensed voltage in µV, less the slope compensation, reaches P after the blanking, or 95 %
of the cycle or the ON portion has passed; a cycle with less than 50 ns left is not started (R483). -/
def State.gateHigh (s : State) (n t left : Nat) (sense : Int) : Bool :=
  let cfg := (s.lamp n).cfg
  s.lampDrives n && 50 ≤ left && t < left && 100 * t * bits cfg 23 16 < 95 * 200000
    && !(blanking cfg ≤ t && s.peakLimit n ≤ sense - bits cfg 7 4 * 5 * t)

/-- A sample of the NTC below its threshold: hot, and every channel in START or ON takes OVERTEMP (R491, R495). -/
def execNtcHot (millivolts : Nat) (s : State) : Host.Outcome State Fault Refusal :=
  act (look fun s => whenA (s.domOn Dom.lamp) (chain [put LMP.NTCV.MV millivolts,
    whenA (s.is LMP.NTCCFG.NTCEN && !s.is LMP.STAT.NTCHOT && millivolts < s.get LMP.NTCCFG.NTCTH * 4)
      (chain [put LMP.STAT.NTCHOT 1, lampFault ((List.range 4).filter fun n => (s.beforeFault n).lampRuns n) 5])])) s

/-- A sample of the NTC above its threshold and hysteresis: the hold ends (R487, R495). -/
def execNtcCool (millivolts : Nat) (s : State) : Host.Outcome State Fault Refusal :=
  act (look fun s => whenA (s.domOn Dom.lamp) (chain [put LMP.NTCV.MV millivolts,
    whenA (s.is LMP.STAT.NTCHOT && millivolts > (s.get LMP.NTCCFG.NTCTH + s.get LMP.NTCCFG.NTCHYS) * 4)
      (chain [put LMP.STAT.NTCHOT 0, settleLamps])])) s

/-- The TB at which the accumulation of channel `n` reaches 6 µs, within the ON portion of its window in progress (R493). -/
def State.openReached (s : State) (n : Nat) : Nat :=
  let c := s.lamp n
  let on := if c.conduct == 8000 && c.windows == 1 then 8000 else onPortion c.cfg c.duty
  c.winEnd - windowPeriod (bits c.cfg 15 13) + ceilDiv (on - (c.conduct - 6000)) 250

/-- The accumulation reaches 6 µs and is decided, or 16 windows end without it (R493); then it starts again. -/
def openDecision (n : Nat) : Act := look fun s =>
  let p := s.beforeFault n
  let c := p.lamp n
  let fresh : Act := onLamp n fun c => { c with conduct := 0, windows := 0, seen := false }
  if p.lampState n != 2 then skip
  else if c.conduct ≥ 6000 then chain [until_ (p.openReached n),
    if !c.seen then lampFault [n] 3
    else whenA (s.lampState n == 2)
      (chain [put (LMP.CHSTAT.DIAG.i n) 1, fresh, onLamp n fun c => { c with waiting := false }])]
  else whenA (c.windows ≥ 16 && s.lampState n == 2) (chain [until_ c.winEnd,
    if s.is (LMP.PROBE.CH.bit n) then chain [fresh, onLamp n fun c => { c with waiting := true }]
    else chain [whenA (s.get (LMP.CHSTAT.DIAG.i n) != 3) (stickI LMP.STICKY.OPENUNV n 0),
      put (LMP.CHSTAT.DIAG.i n) 3, fresh]])

/-- DIAG is decided (R493). An OPEN decision is the OPEN fault, in whose state DIAG reads NONE. -/
def execOpenDiagDecision (n : Fin 4) (s : State) : Host.Outcome State Fault Refusal := act (openDecision n) s

/-- A due time of the probes: where the channel's PROBE bit is 1 the next window is stretched, and the next due time follows
(R494). -/
def execProbeDue (n : Fin 4) (s : State) : Host.Outcome State Fault Refusal :=
  act (look fun s => whenA (s.lampState n == 2)
    (chain [until_ (s.lamp n).probeAt,
      onLamp n fun c => { c with probing := c.probing || s.is (LMP.PROBE.CH.bit n), probeAt := c.probeAt + s.get LMP.PROBEINT.I * 400000 }])) s

/-- RETRYDLY has passed in FAULT: with the NTC not hot and no hold the channel starts, RC counting unless OVERTEMP was the
only fault (R489). -/
def execRetryDelayExpire (n : Fin 4) (s : State) : Host.Outcome State Fault Refusal :=
  act (look fun s => whenA (s.lampState n == 3) (chain [
    until_ ((s.lamp n).faultAt + s.get LMP.RETRYDLY.D * 40000),
    whenA (!s.lampHeld) (chain [whenA (!(s.lamp n).onlyHot) (count (LMP.CHSTAT.RETRIES.i n)), lampEnter n 1])])) s

/-- Ten seconds in ON without a fault: RC 0 (R489). -/
def execOnFaultFree10s (n : Fin 4) (s : State) : Host.Outcome State Fault Refusal :=
  act (look fun s => whenA (s.lampState n == 2) (chain [until_ ((s.lamp n).onAt + 40000000),
    put (LMP.CHSTAT.RETRIES.i n) 0, look fun s => onLamp n fun c => { c with onAt := s.tb }])) s

/-- The LMPEN ball changes level (R487). -/
def execLmpenChange (level : Bool) (s : State) : Host.Outcome State Fault Refusal :=
  act (chain [onLmp fun l => { l with enBall := level }, settleLamps]) s

/-- The VGD threshold in mV: 9.0 V falling, 9.5 V rising (R487, R611). -/
def State.vgdThreshold (s : State) : Nat := if s.lmp.vgdOk then 9000 else 9500

/-- VGD passes a level: below its threshold VGDUV is set when it falls; at 3.0 V and above it is present (R487, R604). -/
def execVgdChange (millivolts : Nat) (s : State) : Host.Outcome State Fault Refusal :=
  act (look fun s => chain [
    whenA (s.domOn Dom.lamp && s.lmp.vgdOk && millivolts < s.vgdThreshold) (stick LMP.STICKY.VGDUV),
    onLmp fun l => { l with vgdOk := decide (millivolts ≥ s.vgdThreshold), vgdHere := decide (millivolts ≥ 3000) }, settleLamps]) s

/-! Relays. -/

/-- Relay `r`. -/
def State.relay (s : State) (r : Nat) : Relay := s.lmp.relay.getD r {}

/-- Changes relay `r`. -/
def onRelay (r : Nat) (f : Relay → Relay) : Act := onLmp fun l => { l with relay := l.relay.modify r f }

/-- The RLYSTAT fields of relay `r`: pulsing, waiting, last (R501). -/
def relayFld (r : Nat) : Fld × Fld × Fld :=
  if r = 0 then (LMP.RLYSTAT.APULSE, LMP.RLYSTAT.AWAIT, LMP.RLYSTAT.ALAST)
  else (LMP.RLYSTAT.BPULSE, LMP.RLYSTAT.BWAIT, LMP.RLYSTAT.BLAST)

/-- A pulse starts (R496). -/
def relayStart (r dir : Nat) : Act := look fun s =>
  chain [onRelay r fun _ => { pulse := some (dir, s.tb), waits := none },
    put (relayFld r).1 1, put (relayFld r).2.1 0]

/-- A request for a pulse (1 SET, 2 RESET): ignored with RLYBUSY while the relay pulses or waits; it waits while the other
pulses, and behind a request for the other that waits already (R497). -/
def relayRequest (r dir : Nat) : Act := look fun s =>
  if (s.relay r).pulse.isSome || (s.relay r).waits.isSome then stick LMP.STICKY.RLYBUSY
  else if (s.relay (1 - r)).pulse.isSome || (s.relay (1 - r)).waits.isSome then
    chain [onRelay r fun _ => { waits := some dir, behind := (s.relay (1 - r)).waits.isSome },
      onRelay (1 - r) fun x => { x with behind := false }, put (relayFld r).2.1 1]
  else relayStart r dir

/-- A write of RLYCTRL: ignored while ROLE is NONE (R37); 0b11 is a reserved encoding of its field (R23). -/
def writeRelay (w : Nat) : Act := look fun s =>
  if s.get SYS.ROLE.VAL == 0 then skip
  else chain [whenA (bits w 1 0 == 3 || bits w 5 4 == 3) (stick LMP.STICKY.RSVD),
    whenA (bits w 1 0 == 1 || bits w 1 0 == 2) (relayRequest 0 (bits w 1 0)),
    whenA (bits w 5 4 == 1 || bits w 5 4 == 2) (relayRequest 1 (bits w 5 4))]

/-- An RLYCTRL write of SET for a relay (R497). -/
def execRelaySet (i : Initiator) (r : Fin 2) (s : State) : Host.Outcome State Fault Refusal :=
  act (atRegister i 0 LMP.RLYCTRL true (writeRelay (1 * 16 ^ r.val))) s

/-- An RLYCTRL write of RESET for a relay (R497). -/
def execRelayReset (i : Initiator) (r : Fin 2) (s : State) : Host.Outcome State Fault Refusal :=
  act (atRegister i 0 LMP.RLYCTRL true (writeRelay (2 * 16 ^ r.val))) s

/-- A pulse ends after PW ms, and RLYSTAT records its action (R496, R497). -/
def execRelayPulseEnd (r : Fin 2) (s : State) : Host.Outcome State Fault Refusal :=
  act (look fun s => match (s.relay r).pulse with
    | some (dir, t) => chain [until_ (t + s.get LMP.RLYCFG.PW * 4000), onRelay r fun x => { x with pulse := none },
        put (relayFld r).1 0, put (relayFld r).2.2 dir, look fun s => onLmp fun l => { l with pulseEnd := s.tb }]
    | none => skip) s

/-- A waiting request starts 1 ms after the other relay's pulse ended (R497), and not while ROLE is NONE (R37). -/
def execRelayWaitStart (r : Fin 2) (s : State) : Host.Outcome State Fault Refusal :=
  act (look fun s => match (s.relay r).waits with
    | some dir => whenA (s.reachable Dom.lamp && s.get SYS.ROLE.VAL != 0 && (s.relay (1 - r.val)).pulse.isNone
          && !((s.relay r).behind && (s.relay (1 - r.val)).waits.isSome))
        (chain [until_ (s.lmp.pulseEnd + 4000), relayStart r dir])
    | none => skip) s

/-- The fence ends a pulse in progress: UNKNOWN and RLYCUT (R498). -/
def relayCut : Act := look fun s => eachA ((List.range 2).filter fun r => (s.relay r).pulse.isSome) fun r =>
  chain [onRelay r fun _ => {}, put (relayFld r).1 0, put (relayFld r).2.2 3, stick LMP.STICKY.RLYCUT]

/-! Override. -/

/-- A write of NTCCFG: with NTCEN 0 the NTC is not hot (R495). -/
def writeNtccfg (w : Nat) : Act := chain [plainWrite LMP.NTCCFG.key 0 w,
  look fun s => whenA (!s.is LMP.NTCCFG.NTCEN) (put LMP.STAT.NTCHOT 0), settleLamps]

/-- An override of a channel ends: OVR clears, STICKY.OVR is set, and the stored EN and LEVEL apply; with stored EN 0 a
FAULT or LOCKOUT channel goes OFF (R500). -/
def overrideEnd (n : Nat) : Act := look fun s =>
  whenA (s.lamp n).ovr.isSome (chain [onLamp n fun c => { c with ovr := none }, put (LMP.CHSTAT.OVR.i n) 0,
    stickI LMP.STICKY.OVR n 0,
    whenA (!s.is (LMP.CHCTRL.EN.i n)) (lampClear n), settleLamp n])

/-- A channel enters override (R499). -/
def overrideStart (n : Nat) (o : LampOvr) : Act := look fun s =>
  chain [onLamp n fun c => { c with ovr := some o }, put (LMP.CHSTAT.OVR.i n) 1, stickI LMP.STICKY.OVR n 0,
    if o.level then whenA (s.lampState n == 4) (lampClear n) else lampClear n,
    settleLamp n]

/-- TB passes the end of a channel's override (R500). -/
def execOverrideExpire (n : Fin 4) (s : State) : Host.Outcome State Fault Refusal :=
  act (look fun s => match (s.lamp n).ovr with
    | some o => match o.ends with
      | some t => chain [until_ (t + 1), overrideEnd n]
      | none => skip
    | none => skip) s

/-- LAMP closes: overrides end and every channel turns off softly (R488, R500). -/
def lampClose : Act := chain [eachA (List.range 4) overrideEnd,
  look fun s => eachA ((List.range 4).filter fun n => s.lampState n == 1 || s.lampState n == 2) fun n => lampEnter n 0]

/-- LAMP becomes reachable: the windows' common origin (R485). -/
def lampRestore : Act := look fun s => onLmp fun l => { ({} : LmpSt) with origin := s.tb, vgdOk := l.vgdOk, vgdHere := l.vgdHere, enBall := l.enBall }

end Sys2Proof.Machine
end

