-- ==== Sys2Proof/Machine/Meter.lean ====
section
/-! DEFINITION. Metering, the references and the backup gauge (R502 to R520). -/

namespace Sys2Proof.Machine

/-! Metering. -/

/-- The square root of a number, rounded down, found bit by bit from bit `b`. -/
def isqrtFrom (n : Nat) : Nat → Nat → Nat
  | 0, r => r
  | b + 1, r => isqrtFrom n b (if (r + 2 ^ b) * (r + 2 ^ b) ≤ n then r + 2 ^ b else r)

/-- The square root of a number, rounded down. -/
def isqrt (n : Nat) : Nat := isqrtFrom n 40 0

/-- A sample corrected by its offset and gain (R502). -/
def corrected (code ofs : Int) (gain : Nat) : Int := (code - ofs) * gain / 1048576

/-- TB units of one sample period, 125 µs. -/
def samplePeriod : Nat := 500

/-- The energy unit of the accumulators in one Wh: 0.01 W over one sample period. -/
def whUnit : Nat := 2880000000

/-- Adds the energy of an interval to an accumulator; a whole count past 0xFF_FFFF saturates (R505). -/
def addEnergy (f : Fld) (frac energy : Nat) (keep : Nat → MtrSt → MtrSt) : Act := look fun s =>
  let wh := s.get f + (frac + energy) / whUnit
  chain [put f (min wh 0xFFFFFF), onMtr (keep ((frac + energy) % whUnit)),
    whenA (wh > 0xFFFFFF) (stick MTR.STICKY.EOVF)]

/-- The end of an interval: its figures, marks and energy (R502, R503, R505). `freq` is FREQ in mHz. A PHCAL other than 0
delays the current by a fraction of a sample; the spec does not say how, so IRMS and P are then free values
(notes/assumptions/5.md). -/
def intervalEnd (samples : List (Int × Int)) (noZc : Bool) (freq : Nat) : Act := look fun s =>
  let v := samples.map fun p => corrected p.1 (s.getS MTR.OFFS.VOFS) (s.get MTR.VGAIN.G)
  let i := samples.map fun p => corrected p.2 (s.getS MTR.OFFS.IOFS) (s.get MTR.IGAIN.G)
  let n := max 1 samples.length
  let mean (l : List Int) : Int := l.foldl (· + ·) 0 / n
  let finish (irms : Nat) (p : Int) : Act := look fun s =>
    chain [put MTR.VRMS.MV (isqrt (mean (v.map fun x => x * x)).toNat), put MTR.IRMS.MA irms, putS MTR.P.W p,
      put MTR.FREQ.MHZ freq, put MTR.RSTAT.CNT (s.get MTR.RSTAT.CNT + 1),
      put MTR.RSTAT.NOZC (if noZc then 1 else 0),
      put MTR.RSTAT.SAT (if s.mtr.sat then 1 else 0),
      put MTR.RSTAT.REFSW (if s.mtr.refsw then 1 else 0), put MTR.RSTAT.V 1,
      stick MTR.STICKY.RDY, whenA noZc (stick MTR.STICKY.NOZC), whenA s.mtr.refsw (stick MTR.STICKY.REFSW),
      whenA (p.natAbs ≥ s.get MTR.CFG.NOLOAD)
        (if p > 0 then addEnergy MTR.EACC.WH s.mtr.forward (p.natAbs * samples.length) fun x m => { m with forward := x }
         else addEnergy MTR.EREV.WH s.mtr.reverse (p.natAbs * samples.length) fun x m => { m with reverse := x }),
      look fun s => onMtr fun m =>
        let t := m.start + samplePeriod * samples.length
        { m with refsw := s.ref.swTo > t, start := t, sat := false }]
  if s.get MTR.PHCAL.D == 0 then
    finish (isqrt (mean (i.map fun x => x * x)).toNat) (mean (v.zipWith (fun a b => a * b) i) / 100000)
  else draw fun irms => draw fun p => finish (irms % 0x1000000) (toS 32 p)

/-- An interval over the given converter codes ends, `full` saying that one of them was at an end of its range: at the
NCYC-th rising crossing, or after 200 ms without one (R502, R503). -/
def runInterval (samples : List (Int × Int)) (full noZc : Bool) : Act := look fun s =>
  whenA (s.is MTR.CTRL.EN && s.domOn Dom.mtr)
    (chain [until_ (s.mtr.start + samplePeriod * samples.length),
      whenA full (chain [onMtr fun m => { m with sat := true }, stick MTR.STICKY.SAT]),
      intervalEnd samples noZc (if noZc then 0 else s.get MTR.CFG.NCYC * 8000000 / max 1 samples.length)])

/-- The NCYC-th rising crossing ends the interval (R503). -/
def execMeterIntervalEnd (samples : List (Int × Int)) (full : Bool) (s : State) : Host.Outcome State Fault Refusal :=
  act (runInterval samples full false) s

/-- 200 ms without a crossing end the interval (R503). -/
def execMeterNozcTimeout (samples : List (Int × Int)) (full : Bool) (s : State) : Host.Outcome State Fault Refusal :=
  act (runInterval samples full true) s

/-- A write of MTR.CTRL: as EN is set the first interval begins (R502, R503). -/
def writeMtrCtrl (w : Nat) : Act := look fun s => chain [plainWrite MTR.CTRL.key 0 w,
  whenA (!s.is MTR.CTRL.EN && bitOf w 0 == 1) (onMtr fun m => { m with start := s.tb, refsw := s.ref.swTo > s.tb, sat := false })]

/-- A read of RSTAT clears V and latches the interval's figures for the reading initiator (R504). -/
def readRstat (i : Initiator) : Act := look fun s =>
  chain [answer i (s.reg MTR.RSTAT.V.key).toNat, put MTR.RSTAT.V 0,
    put (MTR.VRMS.MV.copy (iniCopy i)) (s.get MTR.VRMS.MV), put (MTR.IRMS.MA.copy (iniCopy i)) (s.get MTR.IRMS.MA),
    put (MTR.P.W.copy (iniCopy i)) (s.get MTR.P.W), put (MTR.FREQ.MHZ.copy (iniCopy i)) (s.get MTR.FREQ.MHZ)]

/-- A read of RSTAT (R504). -/
def execRstatRead (i : Initiator) (s : State) : Host.Outcome State Fault Refusal :=
  act (atRegister i 0 MTR.RSTAT.V false (readRstat i)) s

/-- A read of EACC or EREV returns the whole Wh and subtracts them; the fraction stays (R505). -/
def readEnergy (i : Initiator) (f : Fld) : Act := look fun s => chain [answer i (s.get f), put f 0]

/-- A read of EACC, or of EREV (R505). -/
def execEnergyRead (i : Initiator) (rev : Bool) (s : State) : Host.Outcome State Fault Refusal :=
  let f := if rev then MTR.EREV.WH else MTR.EACC.WH
  act (atRegister i 0 f false (readEnergy i f)) s

/-! References. -/

/-- The next boundary of the references: the next tick, or while TICKEN is 0 the next 10 ms of TB (R507). -/
def State.refBoundary (s : State) : Nat :=
  if s.is CLK.CTRL.TICKEN then s.clk.nextTick else s.tb / 40000 * 40000 + 40000

/-- The selection is to move at the next boundary (R509). -/
def moveReference (sel cause : Nat) : Act := look fun s =>
  onRef fun r => { r with due := some ⟨sel, cause, s.refBoundary⟩ }

/-- DRIFTN in a row: the case of R508 is decided. `dA` and `dB` are the distances to C. -/
def decideDrift (dA dB : Nat) : Act := look fun s =>
  let cth := s.get REF.CFG.CTH * 10
  let farA := decide (dA > dB)
  let far := if farA then dA else dB
  let near := if farA then dB else dA
  let sel := s.get REF.STAT.SEL
  chain [stick REF.STICKY.DRIFT, put REF.STAT.DCNT 0,
    if s.is REF.STAT.CSUSPECT then stick REF.STICKY.UNRESOLVED
    else if far > cth && near ≤ cth then
      chain [put (if farA then REF.STAT.BADA else REF.STAT.BADB) 1,
        whenA ((sel == (if farA then 0 else 1)) && !s.is REF.STAT.HOLD) (moveReference (if farA then 1 else 0) 1)]
    else whenA (far > cth) (stick REF.STICKY.UNRESOLVED)]

/-- One comparison with its results in 10 µV units (R507, R508, R510). -/
def compareReferences (dab dac dbc : Int) : Act := look fun s =>
  let n := s.get REF.CFG.DRIFTN
  let cth := s.get REF.CFG.CTH * 10
  let apart := decide (dab.natAbs > s.get REF.CFG.DRIFTTH)
  let aOff := decide (dac.natAbs > cth)
  let bOff := decide (dbc.natAbs > cth)
  let bad := s.is REF.STAT.BADA || s.is REF.STAT.BADB
  chain [putS REF.DAB.D dab, putS REF.DAC.D dac, putS REF.DBC.D dbc,
    whenA (!bad) (onRef fun r => { r with selOff := 0 }),
    if bad then
      let off := if (if s.is REF.STAT.SEL then bOff else aOff) then s.ref.selOff + 1 else 0
      chain [onRef fun r => { r with selOff := if off ≥ n then 0 else off },
        whenA (off ≥ n) (stick REF.STICKY.UNRESOLVED)]
    else if !apart then put REF.STAT.DCNT 0
    else if s.get REF.STAT.DCNT + 1 ≥ n then decideDrift dac.natAbs dbc.natAbs
    else put REF.STAT.DCNT (s.get REF.STAT.DCNT + 1),
    if !apart && aOff && bOff then
      if s.get REF.STAT.CCNT + 1 ≥ n then
        chain [put REF.STAT.CSUSPECT 1, stick REF.STICKY.CSUSP, put REF.STAT.CCNT 0]
      else put REF.STAT.CCNT (s.get REF.STAT.CCNT + 1)
    else put REF.STAT.CCNT 0,
    look fun s =>
      let ok := if aOff || bOff then 0 else s.ref.cAgree + 1
      chain [onRef fun r => { r with cAgree := if s.is REF.STAT.CSUSPECT && ok < n then ok else 0 },
        whenA (s.is REF.STAT.CSUSPECT && ok ≥ n) (put REF.STAT.CSUSPECT 0)]]

/-- When the comparison that falls due is done: 1.5 ms after the slot's tick, or where there are no ticks after a 10 ms boundary
of TB (R507). -/
def State.compareDue (s : State) : Nat :=
  if s.is CLK.CTRL.TICKEN then s.clk.lastTick + 6000
  else if s.tb / 40000 * 40000 + 6000 ≤ s.tb then s.tb / 40000 * 40000 + 46000
  else s.tb / 40000 * 40000 + 6000

/-- The comparison of a slot, once in it, on the reference voltages in 10 µV. While MTR is off it is skipped (R507). -/
def execRefCompare (a b c : Int) (s : State) : Host.Outcome State Fault Refusal :=
  act (look fun s => whenA (s.domOn Dom.mtr && s.ref.done != some s.compareDue)
    (chain [until_ s.compareDue, onRef fun r => { r with done := some s.compareDue },
      compareReferences (a - b) (a - c - s.getS REF.CTRIM.T) (b - c - s.getS REF.CTRIM.T)])) s

/-- A switchover takes effect at its boundary: SEL, the slot's REFSW, SWLOG, SWASN, the sticky bit and producer 30
(R509, R532). -/
def execRefSwitchover (s : State) : Host.Outcome State Fault Refusal :=
  act (look fun s => match s.ref.due with
    | none => skip
    | some d => whenA (s.domOn Dom.mtr) (chain [until_ d.at_, look fun s =>
        let ticked := d.at_ ≤ s.clk.lastTick
        let asn := if ticked || !s.is CLK.CTRL.TICKEN then s.clk.asn else s.clk.asnCommit.getD (s.clk.asn + 1)
        let slotEnd := if !s.is CLK.CTRL.TICKEN then d.at_ + 40000
          else if ticked then s.clk.nextTick else d.at_ + s.get CLK.SLOTLEN.LEN
        chain [put REF.STAT.SEL d.sel,
          onRef fun r => { r with due := none, swFrom := d.at_, swTo := slotEnd },
          onMtr fun m => { m with refsw := true },
          put REF.SWLOG.SEL d.sel, put REF.SWLOG.CAUSE d.cause, put REF.SWLOG.V 1, put REF.SWASN.ASN asn,
          stick REF.STICKY.REFSW, pulse 30]])) s

/-- SELECT of the critical command REFOVR (R512). -/
def refSelect (sel : Nat) : Act :=
  chain [moveReference sel 2, put (if sel == 1 then REF.STAT.BADB else REF.STAT.BADA) 0, put REF.STAT.HOLD 1]

/-- AUTO of REFOVR (R512): the selection is kept, so a move that is due does not take place. -/
def refAuto : Act :=
  chain [put REF.STAT.HOLD 0, put REF.STAT.BADA 0, put REF.STAT.BADB 0, put REF.STAT.CSUSPECT 0, put REF.STAT.DCNT 0,
    put REF.STAT.CCNT 0, put REF.STICKY.UNRESOLVED 0, onRef fun r => { r with due := none, selOff := 0, cAgree := 0 }]

/-! Backup gauge. -/

/-- SOC follows CHG: LOWSOC where it falls through LOWTH while ANCH is 1. A quotient that the field cannot hold has no
stated value (R513, R517, notes/assumptions/5.md). -/
def settleSoc : Act := look fun s =>
  let soc := s.get GAU.CHG.UAH / max 1 (s.get GAU.CFG.CAP)
  let low := s.get GAU.LOWTH.SOC
  chain [if soc < 1024 then put GAU.SOC.VAL soc else draw fun v => put GAU.SOC.VAL v,
    whenA (s.is GAU.STAT.ANCH && s.get GAU.SOC.VAL ≥ low && soc < low) (stick GAU.STICKY.LOWSOC)]

/-- CHG changes by a charge in 1/36000 µAh, which is 0.1 mA for 1 ms; a discharge below 0 leaves 0 and is not counted
(R513, R515). -/
def moveCharge (q : Int) : Act := look fun s =>
  let total : Int := (s.get GAU.CHG.UAH * 36000 + s.gau.frac : Nat) + q
  chain [
    if total < 0 then chain [put GAU.CHG.UAH 0, onGau fun g => { g with frac := 0 }, put GAU.STAT.HOLD0 1,
      stick GAU.STICKY.DISAGREE]
    else chain [put GAU.CHG.UAH (total.toNat / 36000), onGau fun g => { g with frac := total.toNat % 36000 },
      whenA (q > 0) (put GAU.STAT.HOLD0 0)],
    settleSoc]

/-- The unbroken rest grows, or ends (R516). -/
def moveRest (rest : Bool) (ms : Nat) : Act := look fun s =>
  let t := if rest then s.gau.rest + ms else 0
  chain [onGau fun g => { g with rest := t }, put GAU.STAT.REST (if rest then 1 else 0),
    put GAU.RESTT.MIN (min (t / 60000) 0xFFFF)]

/-- One current sample in 0.1 mA, 1 ms after the one before (R513, R516). -/
def gaugeSample (i : Int) : Act := look fun s =>
  chain [until_ (s.gau.at_ + 4000), onGau fun g => { g with at_ := g.at_ + 4000 }, putS GAU.I.MA i, whenA (s.is GAU.CTRL.EN) (moveCharge i),
    moveRest (i.natAbs * 50 < s.get GAU.CFG.CAP * 10) 1]

/-- Current samples at 1 kHz (R513). -/
def execGaugeChargeCount (currents : List Int) (s : State) : Host.Outcome State Fault Refusal :=
  act (look fun s => whenA (s.domOn Dom.mtr) (eachA currents gaugeSample)) s

/-- A write of CHG sets CHG and ANCH; a value above CAP × 1000 is a reserved encoding (R513), and writing the charge held is
no write (R626). -/
def writeChg (w : Nat) : Act := look fun s =>
  if w > s.get GAU.CFG.CAP * 1000 then stick GAU.STICKY.RSVD
  else whenA (s.get GAU.CHG.UAH != w)
    (chain [put GAU.CHG.UAH w, onGau fun g => { g with frac := 0 }, settleSoc, put GAU.STAT.ANCH 1])

/-- A write of CHG (R513). -/
def execChgWrite (i : Initiator) (w : Word) (s : State) : Host.Outcome State Fault Refusal :=
  act (atRegister i 0 GAU.CHG.UAH true (writeChg w.toNat)) s

/-- Point `k` of the OCV table in mV (R516). -/
def State.ocv (s : State) (k : Nat) : Nat :=
  fieldOf (s.reg (GAU.OCV0.LO.key + 4 * (k / 2))) (16 * (k % 2)) 16

/-- A write of an OCV register: one that would make the points decrease is a reserved encoding of its fields (R520). -/
def writeOcv (k w : Nat) : Act := look fun s =>
  let point (j : Nat) : Nat := if j / 2 = k then w / 65536 ^ (j % 2) % 65536 else s.ocv j
  let falls := (List.range 10).any fun j => point (j + 1) < point j
  judgedWrite (GAU.OCV0.LO.key + 4 * k) 0 w fun _ _ => falls

/-- SOC in 0.1 % for a voltage: linear between the points, rounded down (R516). -/
def State.socOf (s : State) (mv : Nat) : Nat :=
  if mv < s.ocv 0 then 0
  else if mv ≥ s.ocv 10 then 1000
  else match ((List.range 10).find? fun k => s.ocv k ≤ mv && mv < s.ocv (k + 1)) with
    | some k => 100 * k + 100 * (mv - s.ocv k) / (s.ocv (k + 1) - s.ocv k)
    | none => 1000

/-- A voltage measurement; the first at or after RESTMIN minutes of rest re-anchors the gauge (R516). -/
def gaugeVoltage (mv : Nat) : Act := look fun s =>
  chain [put GAU.V.MV mv,
    whenA (s.get GAU.RESTT.MIN ≥ s.get GAU.REST.RESTMIN)
      (chain [put GAU.CHG.UAH (s.socOf mv * s.get GAU.CFG.CAP), onGau fun g => { g with frac := 0, rest := 0 }, settleSoc,
        put GAU.STAT.ANCH 1, put GAU.STAT.HOLD0 0, stick GAU.STICKY.ANCHOR, put GAU.RESTT.MIN 0])]

/-- A voltage measurement of the gauge (R516). -/
def execGaugeReanchor (millivolts : Nat) (s : State) : Host.Outcome State Fault Refusal :=
  act (look fun s => whenA (s.domOn Dom.mtr) (gaugeVoltage millivolts)) s

/-- At a restore of MTR the gauge takes the charge and the rest of the seconds that AON counted (R513, R516). The debit is
SLPI × seconds / 3600 µAh. -/
def gaugeRestore : Act := look fun s =>
  chain [onGau fun g => { g with at_ := s.tb }, moveCharge (-((s.get GAU.REST.SLPI * s.gau.offSec * 10 : Nat) : Int)),
    moveRest (s.get GAU.REST.SLPI < s.get GAU.CFG.CAP * 20) (1000 * s.gau.offSec),
    onGau fun g => { g with offSec := 0 }]

end Sys2Proof.Machine
end

