-- ==== Sys2Proof/Machine/Clock.lean ====
section
/-! DEFINITION. The time base, the ASN, the tick's start and stop, the PLL and the 32.768 kHz crystal (R49 to R61). -/

namespace Sys2Proof.Machine

/-- A read of TBLO returns TB[31:0] and copies TB[63:32] to the reader's shadow (R52). -/
def readTblo (i : Initiator) : Act := look fun s =>
  chain [answer i (s.tb % 2 ^ 32), put (CLK.TBHI.copy (iniCopy i)) (s.tb / 2 ^ 32 % 2 ^ 32)]

/-- A read of CLK.TBLO (R52). -/
def execTbloRead (i : Initiator) (s : State) : Host.Outcome State Fault Refusal :=
  act (atRegister i 0 CLK.TBLO false (readTblo i)) s

/-- A contribution to the pending adjustment, limited to ±1000 units with ADJSAT beyond (R55). -/
def addAdjust (d : Int) : Act := look fun s =>
  let x := s.getS CLK.ADJPEND.ADJ + d
  chain [putS CLK.ADJPEND.ADJ (clampS (-1000) 1000 x), whenA (x < -1000 || 1000 < x) (stick CLK.STICKY.ADJSAT)]

/-- A TICKADJ contribution, with what it adds to ADJPEND after saturation counted in ADJACC (R55, R237). -/
def adjustTick (d : Int) : Act := look fun s =>
  let was := s.getS CLK.ADJPEND.ADJ
  chain [addAdjust d, look fun s =>
    whenA (s.domOn Dom.mac) (put BOB.ADJACC.ACC (ofS 32 (toS 32 (s.get BOB.ADJACC.ACC) + (s.getS CLK.ADJPEND.ADJ - was))))]

/-- Whether the cascade fixes this device's tick: it is synchronised and is not M0 (R317). -/
def State.slaved (s : State) : Bool := s.is CLK.STAT.CASSYNC && s.get CAS.STAT.MEMBER != 0

/-- A write of the clock that a synchronised member ignores with CLKREF (R317). -/
def unlessSlaved (a : Act) : Act := look fun s => if s.slaved then stick CAS.STICKY.CLKREF else a

/-- A write of TICKADJ by firmware, which also clears TBEST (R55, R58). -/
def writeTickadj (w : Nat) : Act := 
  unlessSlaved (chain [adjustTick (toS 16 w), put CLK.STAT.TBEST 0])

/-- A write of CLK.TICKADJ (R55). -/
def execTickadjWrite (i : Initiator) (w : Word) (s : State) : Host.Outcome State Fault Refusal :=
  act (atRegister i 0 CLK.TICKADJ true (writeTickadj w.toNat)) s

/-- A write of ASNHI stages ASN[39:32] (R56). -/
def writeAsnhi (w : Nat) : Act := unlessSlaved <| onClk fun c => { c with asnStaged := w % 256 }

/-- A write of CLK.ASNHI (R56). -/
def execAsnhiWrite (i : Initiator) (w : Word) (s : State) : Host.Outcome State Fault Refusal :=
  act (atRegister i 0 CLK.ASNHI true (writeAsnhi w.toNat)) s

/-- A write of ASNLO commits the staged bits with its own as the ASN of the slot that begins at the next tick; a prefetch
that has started is void (R56, R198). -/
def writeAsnlo (w : Nat) : Act := unlessSlaved <| chain [
  onClk fun c => { c with asnCommit := some (c.asnStaged * 2 ^ 32 + w % 2 ^ 32) },
  look fun s => whenA s.shu.next.isSome (onShu fun u => { u with void := true })]

/-- A write of CLK.ASNLO (R56). -/
def execAsnloWrite (i : Initiator) (w : Word) (s : State) : Host.Outcome State Fault Refusal :=
  act (atRegister i 0 CLK.ASNLO true (writeAsnlo w.toNat)) s

/-- A read of ASNLO returns ASN[31:0] and latches ASN[39:32] for the reader (R56). -/
def readAsnlo (i : Initiator) : Act := look fun s =>
  chain [answer i (s.clk.asn % 2 ^ 32), put (CLK.ASNHI.copy (iniCopy i)) (s.clk.asn / 2 ^ 32 % 256)]

/-- A read of CLK.ASNLO (R56). -/
def execAsnloRead (i : Initiator) (s : State) : Host.Outcome State Fault Refusal :=
  act (atRegister i 0 CLK.ASNLO false (readAsnlo i)) s

/-- A write of CTRL: setting TICKEN starts the tick one SLOTLEN later, clearing it stops the tick and makes the rolls that
are due; a prefetch for the tick that does not come is dropped (R57, R198, R268, R270). -/
def writeClkCtrl (w : Nat) : Act := look fun s =>
  let was := s.is CLK.CTRL.TICKEN
  let refused := s.slaved && (bitOf w CLK.CTRL.TICKEN.lo == 1) != was
  let w := if refused then withBit w CLK.CTRL.TICKEN.lo was else w
  chain [whenA refused (stick CAS.STICKY.CLKREF), plainWrite CLK.CTRL.key 0 w, look fun s =>
    if !was && s.is CLK.CTRL.TICKEN then
      onClk fun c => { c with nextTick := (c.tb + s.get CLK.SLOTLEN.LEN) % 2 ^ 64 }
    else whenA (was && !s.is CLK.CTRL.TICKEN) (chain [
      onShu fun u => { u with next := none, void := false }, whenA (s.domOn Dom.mac) rollDue])]

/-- A write of CLK.CTRL (R57). -/
def execTickenWrite (i : Initiator) (w : Word) (s : State) : Host.Outcome State Fault Refusal :=
  act (atRegister i 0 CLK.CTRL true (writeClkCtrl w.toNat)) s

/-- The PLL loses lock: its clocks are gated, timers pause, TB and the tick go on (R61, R527). -/
def execPllUnlock (s : State) : Host.Outcome State Fault Refusal :=
  act (look fun s => whenA (s.domOn Dom.core && s.is CLK.STAT.PLLLOCK)
    (chain [put CLK.STAT.PLLLOCK 0, stick CLK.STICKY.PLLUNLOCK, timersPause,
      onClk fun c => { c with gated := true }])) s

/-- The PLL locks again: gated clocks resume and TBABS timers rejoin TB (R527). -/
def execPllRelock (s : State) : Host.Outcome State Fault Refusal :=
  act (look fun s => whenA (s.domOn Dom.core && !s.is CLK.STAT.PLLLOCK)
    (chain [put CLK.STAT.PLLLOCK 1, onClk fun c => { c with gated := false }, timersResume])) s

/-- The 32.768 kHz crystal stops: the RTC loses its count, the Thimble stops, and CLK shows it while CORE is on
(R275, R469). -/
def execK32Fail (k32 : Nat) (s : State) : Host.Outcome State Fault Refusal :=
  act (look fun s =>
    chain [crystalTimers, whenA (s.domOn Dom.core) (chain [put CLK.STAT.K32OK 0, stick CLK.STICKY.K32FAIL]),
      put PWR.STAT.RTCLOST 1, stickAt (s.stampNow k32) PWR.STICKY.RTCLOST 0 0, put PWR.RTCSEC.SEC 0,
      whenA (s.is THM.STAT.RUN) (stickAt (s.stampNow k32) THM.STICKY.NOK32 0 0),
      onThm fun t => { t with k32ok := false, detecting := false, detectAt := none },
      put THM.STAT.INFR 0, thimbleRun]) s

/-- The 32.768 kHz crystal oscillates again: K32OK is set, and an enabled Thimble detects 500 µs later (R275). -/
def execK32Restart (s : State) : Host.Outcome State Fault Refusal :=
  act (look fun s =>
    chain [crystalTimers, whenA (s.domOn Dom.core) (put CLK.STAT.K32OK 1),
      onThm fun t => { t with
        k32ok := true
        detectAt := if s.is THM.CTRL.EN && !t.k32ok then some (s.tb + 2000) else t.detectAt }]) s

end Sys2Proof.Machine
end

