-- ==== Sys2Proof/Machine/Gain.lean ====
section
/-! DEFINITION. Gain, AGC, freeze, clipping, converters and calibration units of the front end (R69 to R97). -/

namespace Sys2Proof.Machine

/-- Port `n` of the front end. -/
def State.rfPort (s : State) (n : Nat) : RfPort := s.rfe.ports.getD n {}

/-- Changes port `n`. -/
def onPort (n : Nat) (f : RfPort → RfPort) : Act := onRfe fun r => { r with ports := r.ports.modify n f }

/-- The state field of port `n` (R69): 0 OFF, 1 RX, 2 TX. While a unit holds the port, it reads as CAL (`State.portState`). -/
def portFld (n : Nat) : Fld := if n = 0 then RFE.STAT.P0STATE else RFE.STAT.P1STATE

/-- Whether port `n`'s parts are powered (R70). -/
def State.portPowered (s : State) (n : Nat) : Bool := s.domOn Dom.rxn && (n == 0 || s.domOn Dom.rxw)

/-- The port of a unit that needs a port in RX. -/
def calPort (u : Nat) : Option Nat :=
  match u with
  | 0 => some 0 | 1 => some 1 | 5 => some 0 | 6 => some 1 | _ => none

/-- The chain of a unit that needs a chain. -/
def calChain (u : Nat) : Option Nat :=
  match u with
  | 2 => some 0 | 3 => some 1 | 7 => some 0 | 8 => some 1 | 9 => some 0 | 10 => some 1 | _ => none

/-- The port that a chain drives (R71). -/
def State.chainPort (s : State) (c : Nat) : Nat := if s.get RFE.CTRL.TXMAP == 0 then c else 1 - c

/-- The chain that drives a port (R71). -/
def State.portChain (s : State) (p : Nat) : Nat := if s.chainPort 0 == p then 0 else 1

/-- The port that a unit holds while it runs: its own, or its chain's (R95). -/
def State.calHolds (s : State) (u : Nat) : Option Nat :=
  match calPort u with
  | some p => some p
  | none => (calChain u).map s.chainPort

/-- The state of port `n` (R69): TX until the transmission's end, OFF without power, CAL while a unit that holds it runs,
else RX or OFF by EN. EN written 0 in TX or CAL acts at its end (notes/assumptions/58.md, DESIGN CHOICE). -/
def State.portState (s : State) (n : Nat) : Nat :=
  if s.get (portFld n) == 2 then 2
  else if !s.portPowered n then 0
  else if (List.range 13).any fun u => s.calHolds u == some n && s.calRuns u then 3
  else s.get (portFld n)

/-- Frames in progress: from the qualifier pass to the frame end (R79). -/
def State.inProgress (s : State) : List RxFrame := s.frm.frames.filter (·.stage ≤ 1)

/-- Whether a frame is in progress on port `n`, which freezes its gain (R79). -/
def State.frozen (s : State) (n : Nat) : Bool := s.inProgress.any (·.port == n)

/-- The LNA step code of a gain: the lowest of 0, 10, 20 and 30 dB that is not below it (R74). -/
def lnaStep (g : Int) : Nat := if g ≤ 0 then 0 else (g.toNat + 9) / 10

/-- Applies a gain to port `n`, with the pairing of R74; it settles 300 ns after the decision (R78). -/
def setGain (n : Nat) (g : Int) : Act := look fun s =>
  let g := clampS (-31) 30 g
  whenA (g != s.getS (RFE.PGSTAT.GAIN.i n))
    (chain [putS (RFE.PGSTAT.GAIN.i n) g, put (RFE.PGSTAT.LNA.i n) (lnaStep g),
      put (RFE.PGSTAT.ATT.i n) (10 * (lnaStep g : Int) - g).toNat, put (RFE.PGSTAT.SETTLING.i n) 1,
      onPort n fun p => { p with settleAt := s.tb + 2 }])

/-- The dwell counts of port `n` start again (R76, R77, R80). -/
def restartDwell (n : Nat) : Act := look fun s => onPort n fun p => { p with dwellFrom := s.tb }

/-- The gain that the mode in force starts from: SCHGAIN in AUTO and SCHED, MANGAIN in MANUAL (R75). -/
def startGain (n : Nat) : Act := look fun s =>
  setGain n (if (s.rfPort n).mode == 2 then s.getS (RFE.PGAIN.MANGAIN.i n) else s.getS (RFE.PGAIN.SCHGAIN.i n))

/-- A change of SCHGAIN, MANGAIN or GMODE: applied, or held by the freeze (R75, R80). `starts` says that the write was one
of SCHGAIN or GMODE. -/
def gainChanged (n : Nat) (starts : Bool) : Act := look fun s =>
  if s.frozen n then
    chain [put (RFE.PGSTAT.HELD.i n) 1, whenA starts (onPort n fun p => { p with heldGain := true })]
  else chain [onPort n fun p => { p with mode := s.get (RFE.PCFG.GMODE.i n) },
    look fun s => whenA (starts || (s.rfPort n).mode == 2) (startGain n)]

/-- The freeze of port `n` lifts once no frame is in progress on it: the held tuner move, then mode and gain (R80). -/
def liftFreeze (n : Nat) : Act := look fun s =>
  whenA (s.is (RFE.PGSTAT.FROZEN.i n) && !s.frozen n)
    (let p := s.rfPort n
     let mode := s.get (RFE.PCFG.GMODE.i n)
     chain [put (RFE.PGSTAT.FROZEN.i n) 0,
       (match p.heldTune with | some t => put (RFE.PTUNE.TUNE.i n) t | none => skip),
       onPort n fun p => { p with mode, heldTune := none, heldGain := false },
       whenA (mode != 0 || p.heldGain) (startGain n),
       put (RFE.PGSTAT.HELD.i n) 0, restartDwell n])

/-- A gain step of the AGC, limited to SCHGAIN ± AGCSPAN and to the range of G (R77). -/
def agcStep (n : Nat) (d : Int) : Act := look fun s =>
  let sch := s.getS (RFE.PGAIN.SCHGAIN.i n)
  let span : Int := s.get (RFE.PCFG.AGCSPAN.i n)
  chain [setGain n (clampS (sch - span) (sch + span) (s.getS (RFE.PGSTAT.GAIN.i n) + d)), restartDwell n]

/-- Whether the AGC of port `n` acts: the converter samples, or in NARROW the narrow path of port 0 does (R70, R75, R80). -/
def State.agcActs (s : State) (n : Nat) : Bool :=
  (s.rfPort n).mode == 0 && s.portState n == 1 && !s.frozen n
    && (s.is (RXS.STAT.RUN0.bit n) || (n == 0 && !s.domOn Dom.rxw))

/-- A sample magnitude is kept where it is the largest since the last read of PnPEAK (R99). -/
def peakSeen (n m : Nat) : Act := look fun s =>
  put (RXS.PPEAK.PK.i n) (max (s.get (RXS.PPEAK.PK.i n)) (min m 2048))

/-- The samples of a running converter over the last intervals: the level of the last one, and the largest magnitude
(R77, R99). -/
def sampled (n : Nat) (level : Int) (peak : Nat) : Act := look fun s =>
  whenA (s.is (RXS.STAT.RUN0.bit n)) (chain [putS (RXS.PLEVEL.L.i n) level, peakSeen n peak])

/-- DWELLDN intervals of 1 µs at a level in dBFS, with the largest sample magnitude: above AGCHI the AGC lowers G (R77). -/
def execAgcStepDown (n : Fin 2) (level : Int × BitVec 12) (s : State) : Host.Outcome State Fault Refusal :=
  act (look fun s =>
    chain [until_ ((s.rfPort n).dwellFrom + 4 * s.get (RFE.PAGC.DWELLDN.i n)), sampled n level.1 level.2.toNat,
      whenA (s.agcActs n && level.1 > s.getS (RFE.PAGC.AGCHI.i n))
        (agcStep n (-(s.get (RFE.PAGC.AGCSTEP.i n) : Int)))]) s

/-- DWELLUP intervals of 1 µs at a level, with the largest sample magnitude: below AGCLO the AGC raises G (R77). -/
def execAgcStepUp (n : Fin 2) (level : Int × BitVec 12) (s : State) : Host.Outcome State Fault Refusal :=
  act (look fun s =>
    chain [until_ ((s.rfPort n).dwellFrom + 4 * s.get (RFE.PAGC.DWELLUP.i n)), sampled n level.1 level.2.toNat,
      whenA (s.agcActs n && level.1 < s.getS (RFE.PAGC.AGCLO.i n)) (agcStep n (s.get (RFE.PAGC.AGCSTEP.i n)))]) s

/-- A lane's frame is marked CLIP, once (R81). -/
def markClip (f : RxFrame) : Act := whenA (!f.clip)
  (chain [onFrm fun r => { r with frames := r.frames.map fun x =>
      if x.lane == f.lane && x.buf == f.buf then { x with clip := true } else x },
    put (DMD.LSTAT.CLIPM.i f.lane) 1, stickVI DMD.STICKY.CLIP f.vi f.lane 0])

/-- A clip event of port `n`'s converter: CLIPN consecutive samples at full scale, `low` saying which end (R81). -/
def execClipEvent (n : Fin 2) (low : Bool) (s : State) : Host.Outcome State Fault Refusal :=
  act (look fun s => whenA (s.is (RXS.STAT.RUN0.bit n) && s.portState n != 2)
    (chain [count (RXS.PCLIPS.CNT.i n), peakSeen n (if low then 2048 else 2047), stick (RXS.STICKY.CLIPEV0.bit n),
      if s.frozen n then
        chain [eachA (s.inProgress.filter (·.port == n.val)) markClip, stick (RFE.STICKY.CLIP0.bit n)]
      else whenA ((s.rfPort n).mode == 0) (agcStep n (-(s.get (RFE.PCFG.CLIPSTEP.i n) : Int)))])) s

/-- The conditions under which the converter of port `n` samples (R83). -/
def State.converterMay (s : State) (n : Nat) : Bool :=
  s.domOn Dom.rxw && s.is (RXS.CTRL.EN0.bit n) && s.is (RFE.PCFG.EN.i n)

/-- The conditions of port `n`'s converter have changed: it stops, or starts its 2 µs (R83). -/
def converterChanged (n : Nat) : Act := look fun s =>
  if !s.converterMay n then
    chain [whenA (s.domOn Dom.rxw) (chain [put (RXS.STAT.RUN0.bit n) 0, put (RXS.PLEVEL.L.i n) 0x80]),
      onPort n fun p => { p with runAt := none }]
  else whenA (!s.is (RXS.STAT.RUN0.bit n) && (s.rfPort n).runAt.isNone)
    (onPort n fun p => { p with runAt := some (s.tb + 8) })

/-- The converter samples 2 µs after its last condition became true (R83). -/
def execConverterRun (n : Fin 2) (s : State) : Host.Outcome State Fault Refusal :=
  act (look fun s => match (s.rfPort n).runAt with
    | none => skip
    | some t => chain [until_ t, onPort n fun p => { p with runAt := none },
        look fun s => whenA (s.converterMay n) (put (RXS.STAT.RUN0.bit n) 1)]) s

/-! Tuner and mismatch (R89 to R92). -/

/-- The search direction after a measurement: it reverses where that is lower than the one before (R91). -/
def searchTurns (n loss : Nat) : Act := onPort n fun p => { p with
  up := match p.lastLoss with | some l => if loss < l then !p.up else p.up | none => p.up }

/-- The tuner search asks for the state one step on in its direction, which reverses at either end (R91). -/
def tunerMove (n : Nat) : Act := look fun s =>
  let t := s.get (RFE.PTUNE.TUNE.i n)
  let up := if t == 63 then false else if t == 0 then true else (s.rfPort n).up
  onPort n fun p => { p with up, nextTune := some (if up then t + 1 else t - 1, true) }

/-- A measurement of the return loss in 0.25 dB over a transmission at the integrated PA (R90 to R92). -/
def returnLoss (n loss : Nat) : Act := look fun s =>
  let r := min loss 0xFE
  let mmth := s.get (RFE.PTUNE.MMTH.i n)
  let auto := s.is (RFE.PCFG.TUNEAUTO.i n)
  chain [put (RFE.PTUNE.RLOSS.i n) r, whenA (r < mmth) (stick (RFE.STICKY.MISMATCH0.bit n)),
    whenA auto (searchTurns n r),
    whenA (auto && r < s.get (RFE.PTUNE.TUNETH.i n)) (tunerMove n),
    whenA (r < 12) (stick RFE.STICKY.SEVERE),
    onPort n fun p => { p with lastLoss := some r
                               severe := if r < 12 then true else if r ≥ mmth then false else p.severe }]

/-- The tick's part of the tuner: a waiting state is applied, or a search move is held by the freeze (R80, R89). -/
def tunerTick (n : Nat) : Act := look fun s =>
  match (s.rfPort n).nextTune with
  | none => skip
  | some (t, search) =>
    if !s.frozen n then chain [put (RFE.PTUNE.TUNE.i n) t, onPort n fun p => { p with nextTune := none }]
    else whenA search (chain [put (RFE.PGSTAT.HELD.i n) 1,
      onPort n fun p => { p with heldTune := some t, nextTune := none }])

/-! Calibration units (R93 to R97). -/

/-- Changes unit `u`. -/
def onCal (u : Nat) (f : CalUnit → CalUnit) : Act := onRfe fun r => { r with cal := r.cal.modify u f }

/-- The calibration a unit belongs to: 0 DC, 1 FILT, 2 IQ, 3 XO, 4 RC. -/
def calOf (u : Nat) : Nat := if u < 5 then 0 else if u < 9 then 1 else if u < 11 then 2 else if u == 11 then 3 else 4

/-- CALREQ follows the units (R94, R98); CALSTAT.RUN shows those that run (`liveRfe`). -/
def showCal : Act := look fun s =>
  eachA (List.range 5) fun c =>
    put (RFE.CALREQ.REQ.bit c) (if (List.range 13).any fun u => calOf u == c && (s.calUnit u).pending then 1 else 0)

/-- A unit becomes pending; a pending one stays pending once (R94). -/
def calPending (u : Nat) : Act := chain [onCal u fun c => { c with pending := true }, showCal]

/-- A write of CALREQ makes every unit of the named calibrations pending (R94). -/
def writeCalreq (w : Nat) : Act :=
  eachA ((List.range 13).filter fun u => bitOf w (calOf u) == 1) calPending

/-- A write of CALREQ (R94). -/
def execCalreqWrite (i : Initiator) (w : Word) (s : State) : Host.Outcome State Fault Refusal :=
  act (atRegister i 0 RFE.CALREQ true (writeCalreq w.toNat)) s

/-- PERIOD minutes have passed since a unit last completed (R94). -/
def execCalPeriodExpire (u : Fin 13) (s : State) : Host.Outcome State Fault Refusal :=
  act (look fun s => whenA (s.domOn Dom.rxn && s.get RFE.CALCFG.PERIOD != 0)
    (chain [until_ ((s.calUnit u).doneAt + s.get RFE.CALCFG.PERIOD * 240000000), calPending u])) s

/-- The XO trim's target: factory trim, temperature curve and XOADJ (R96). -/
def State.xoSum (s : State) : Int :=
  s.otp.xoTrim + s.otp.xoCurve.getD (s.getS RFE.TEMP.T + 128).toNat 0 + s.getS RFE.XOTRIM.XOADJ

/-- Whether a target lies in its field's range. -/
def xoFits (t : Int) : Bool := -128 ≤ t && t ≤ 127

/-- TARGET shows the sum, whichever of its terms has changed; one outside the field leaves the previous (R96). When TARGET
is worked out again, and that a completed unit moves TRIM until it has reached TARGET, are notes/assumptions/58.md, DESIGN
CHOICE. -/
def xoTarget : Act := look fun s => whenA (xoFits s.xoSum) (putS RFE.XOTRIM.TARGET s.xoSum)

/-- The applied XO trim moves one step toward its target at a tick, once an XO unit has completed (R96). -/
def xoTick : Act := look fun s =>
  let t := s.getS RFE.XOTRIM.TRIM
  let g := s.getS RFE.XOTRIM.TARGET
  whenA s.rfe.xoMoves (chain [
    putS RFE.XOTRIM.TRIM (if t < g then t + 1 else if t > g then t - 1 else t),
    look fun s => whenA (s.getS RFE.XOTRIM.TRIM == g) (onRfe fun r => { r with xoMoves := false })])

/-- The die temperature of a slot makes the units pending that it has moved away from (R94). -/
def temperature (t : Int) : Act := look fun s =>
  chain [putS RFE.TEMP.T t, xoTarget,
    whenA (s.get RFE.CALCFG.CALDT != 0)
      (eachA ((List.range 13).filter fun u => (t - (s.calUnit u).doneT).natAbs ≥ s.get RFE.CALCFG.CALDT) calPending)]

/-- The result fields of a unit with the range of each (R93, R96, R98). -/
def calFields (u : Nat) : List (Fld × Int × Int) :=
  match u with
  | 0 => [(RFE.DCRES.P0, -32, 31)]
  | 1 => [(RFE.DCRES.P1, -32, 31)]
  | 2 => [(RFE.LKRES.TXAI, -32, 31), (RFE.LKRES.TXAQ, -32, 31)]
  | 3 => [(RFE.LKRES.TXBI, -32, 31), (RFE.LKRES.TXBQ, -32, 31)]
  | 4 => [(RFE.DCRES.THMOFS, -32, 31), (THM.OFS.VAL, -32, 31)]
  | 5 => [(RFE.FILTRES.P0, 0, 63)]
  | 6 => [(RFE.FILTRES.P1, 0, 63)]
  | 7 => [(RFE.FILTRES.TXA, 0, 63)]
  | 8 => [(RFE.FILTRES.TXB, 0, 63)]
  | 9 => [(RFE.IQRES.TXAG, -128, 127), (RFE.IQRES.TXAPH, -128, 127), (RFE.IMGREJ.TXA, 0, 255)]
  | 10 => [(RFE.IQRES.TXBG, -128, 127), (RFE.IQRES.TXBPH, -128, 127), (RFE.IMGREJ.TXB, 0, 255)]
  | 11 => []   -- the target, which `xoFits` judges
  | _ => [(RFE.RCRES.ERR, -32768, 32767), (RFE.RCRES.TRIM, 0, 1023)]

/-- A granted unit ends with its results: written, or, if one is outside its field's range, refused with CALFAIL and not
retried (R96). A Thimble result written to both of its registers is given once. -/
def calComplete (u : Nat) (r : List Int) : Act := look fun s =>
  match (s.calUnit u).ends with
  | none => skip
  | some t =>
    let r := if u == 4 then [r.getD 0 0, r.getD 0 0] else r
    let fs := (calFields u).zipIdx
    let good := if u == 11 then xoFits s.xoSum
      else fs.all fun f => f.1.2.1 ≤ r.getD f.2 0 && r.getD f.2 0 ≤ f.1.2.2
    chain [until_ t,
      if good then chain [eachA fs fun f => putS f.1.1 (r.getD f.2 0),
        whenA (u == 11) (chain [xoTarget, onRfe fun x => { x with xoMoves := true }]),
        put (RFE.CALSTAT.FAILED.bit (calOf u)) 0]
      else chain [stick RFE.STICKY.CALFAIL, put (RFE.CALSTAT.FAILED.bit (calOf u)) 1],
      onCal u fun c => { c with pending := false, age := 0, doneAt := t, doneT := s.getS RFE.TEMP.T, ends := none },
      showCal]

/-- The slots for which each unit has been pending (R97). -/
def calAge : Act := onRfe fun r => { r with cal := r.cal.map fun c => { c with
  age := if c.pending && c.ends.isNone then min (c.age + 1) 1001 else c.age } }

/-- A write of XOTRIM: XOADJ, and with it the target (R96). -/
def writeXotrim (w : Nat) : Act := chain [plainWrite RFE.XOTRIM.key 0 w, xoTarget]

/-- A unit has been pending for 1000 consecutive slots (R97). -/
def execCalStarve (u : Fin 13) (s : State) : Host.Outcome State Fault Refusal :=
  act (look fun s => whenA ((s.calUnit u).age == 1000)
    (chain [onCal u fun c => { c with age := 1001 }, stick RFE.STICKY.CALSTARVE])) s

/-- The registers of the front end that the OTP fills (R87, R96, R131, R519). CEIL starts from OTPINT, whatever PAPATH holds
(notes/assumptions/58.md, DESIGN CHOICE). -/
def loadRfOtp : Act := look fun s =>
  chain [eachA [0, 1] fun n =>
      let l := s.otp.plim.getD n (0, 0)
      chain [putS (RFE.PPLIM.OTPINT.i n) l.1, putS (RFE.PPLIM.OTPEXT.i n) l.2, putS (RFE.PPLIM.CEIL.i n) l.1],
    putS DMD.RSSICAL.P0 (s.otp.rssiCal.getD 0 0), putS DMD.RSSICAL.P1 (s.otp.rssiCal.getD 1 0),
    putS RFE.XOTRIM.TRIM s.otp.xoTrim, xoTarget]

end Sys2Proof.Machine
end

