-- ==== Sys2Proof/Machine/Lane.lean ====
section
/-! DEFINITION. Windows, channel plans and demodulation lanes up to the frame's bytes (R100 to R133), and the writes of the
front end that move a port's state (R69, R80). -/

namespace Sys2Proof.Machine

/-! Modes and channels. -/

/-- Fine units that `n` symbol periods of a mode last, rounded to the nearest (R196). -/
def symbolsFine (mode n : Nat) : Nat := roundDiv (n * 256000000) (symbolRate mode)

/-- TB units that cover `n` symbol periods of a mode. -/
def symbolsTb (mode n : Nat) : Nat := ceilDiv (n * 4000000) (symbolRate mode)

/-- The words that the registers of a plan hold. -/
def State.planWords (s : State) (plan : Nat) : PlanWords :=
  ⟨s.get (CHZ.PLANF0.F0.i plan), s.get (CHZ.PLANSP.SP.i plan), s.get (CHZ.PLANSP.NCH.i plan)⟩

/-- The centre frequency of a channel of a plan in Hz (R103). -/
def planHz (p : PlanWords) (chan : Nat) : Nat := p.f0 * 1000 + chan * p.sp * 100

/-- Whether a channel exists in its plan and lies in the tuned band (R104, R150). -/
def planOk (p : PlanWords) (chan : Nat) : Bool :=
  chan < p.nch && 150000000 ≤ planHz p chan && planHz p chan ≤ 1050000000

/-- The centre frequency of a channel by the plan registers. -/
def State.channelHz (s : State) (plan chan : Nat) : Nat := planHz (s.planWords plan) chan

/-- Whether a channel exists in its plan and lies in the tuned band, by the plan registers. -/
def State.channelOk (s : State) (plan chan : Nat) : Bool := planOk (s.planWords plan) chan

/-! Windows (R100 to R102). -/

/-- The word of a window in force: the register, or the one that a waiting write will replace (R102). -/
def State.window (s : State) (w : Nat) : Nat :=
  match s.chz.force.getD w none with
  | some f => f.1
  | none => (s.reg (CHZ.WCFG.i w).key).toNat

/-- The width of a window in Hz. -/
def windowHz (word : Nat) : Nat := [2500000, 5000000, 10000000, 20000000, 40000000].getD (bits word 30 28) 0

/-- Whether a window is enabled. -/
def State.windowOn (s : State) (w : Nat) : Bool := bitOf (s.window w) 31 == 1

/-- Whether a lane with the given plan words, channel and mode would fit a window (R104). -/
def State.fitsWindow (s : State) (w : Nat) (p : PlanWords) (chan mode : Nat) : Bool :=
  s.windowOn w && planOk p chan &&
    2 * ((planHz p chan : Int) - bits (s.window w) 20 0 * 1000).natAbs + modeBandwidth mode
      ≤ windowHz (s.window w)

/-! Lanes. -/

/-- Lane `n`. -/
def State.lane (s : State) (n : Nat) : LaneSt := s.dmd.lanes.getD n {}

/-- Changes lane `n`. -/
def onLane (n : Nat) (f : LaneSt → LaneSt) : Act := onDmd fun d => { d with lanes := d.lanes.modify n f }

/-- The state of lane `n` (R114): 0 OFF, 1 IDLE, 2 OUTSIDE, 3 HOLD, 4 ENERGY, 5 QUALIFY, 6 SFD, 7 RECEIVE. -/
def State.laneState (s : State) (n : Nat) : Nat := s.get (DMD.LSTAT.STATE.i n)

/-- The virtual interface of lane `n`. -/
def State.laneVi (s : State) (n : Nat) : Nat := s.get (DMD.LCFG.VI.i n)

/-- Whether a lane takes the narrow path of port 0 (R108). -/
def State.narrow (s : State) (n : Nat) : Bool := n == 0 && (s.is DMD.CTRL.L0NARROW || !s.domOn Dom.rxw)

/-- The port of lane `n`. -/
def State.lanePort (s : State) (n : Nat) : Nat := if s.narrow n then 0 else s.get (DMD.LCFG.WIN.i n) / 2

/-- Whether lane `n` would fit its window with plan words, a channel and a mode (R104, R108). -/
def State.laneFitsBy (s : State) (n : Nat) (p : PlanWords) (chan mode : Nat) : Bool :=
  if s.narrow n then planOk p chan else s.fitsWindow (s.get (DMD.LCFG.WIN.i n)) p chan mode

/-- Whether lane `n` would fit its window with a plan, channel and mode by the plan registers. -/
def State.laneWouldFit (s : State) (n plan chan mode : Nat) : Bool := s.laneFitsBy n (s.planWords plan) chan mode

/-- The plan words that govern lane `n`: from ENERGY on, those that its plan held when it entered ENERGY (R103). -/
def State.lanePlan (s : State) (n : Nat) : PlanWords :=
  let now := s.planWords (s.get (DMD.LCFG.PLAN.i n))
  if s.laneState n ≥ 4 then (s.lane n).tuned.getD now else now

/-- Whether lane `n` fits as it is configured, by the plan that governs it. -/
def State.laneFits (s : State) (n : Nat) : Bool :=
  s.laneFitsBy n (s.lanePlan n) (s.get (DMD.LCFG.CHAN.i n)) (s.get (DMD.LCFG.MODE.i n))

/-- Whether lane `n` would fit if it entered ENERGY now. -/
def State.laneWillFit (s : State) (n : Nat) : Bool :=
  s.laneWouldFit n (s.get (DMD.LCFG.PLAN.i n)) (s.get (DMD.LCFG.CHAN.i n)) (s.get (DMD.LCFG.MODE.i n))

/-- The frequency in Hz at which lane `n` listens (R103). -/
def State.laneHz (s : State) (n : Nat) : Nat := planHz (s.lanePlan n) (s.get (DMD.LCFG.CHAN.i n))

/-- The frame in progress on lane `n`. -/
def State.laneFrame (s : State) (n : Nat) : Option RxFrame := s.inProgress.find? (·.lane == n)

/-- The port that lane `n` works on: that of its frame in progress, which a written WIN does not move (R107), else its own. -/
def State.laneSite (s : State) (n : Nat) : Nat :=
  match s.laneFrame n with
  | some f => f.port
  | none => s.lanePort n

/-- Whether lane `n` is enabled with its domain and its port on, and no fence closing it (R114, R115, R472). -/
def State.laneLive (s : State) (n : Nat) : Bool :=
  s.is (DMD.LCFG.EN.i n) && s.reachable (if n = 0 then Dom.rxn else Dom.rxw) && s.portState (s.laneSite n) != 0

/-- Whether lane `n` has an input: the narrow path of a powered port 0, or a window whose converter samples (R83, R100,
R108). -/
def State.laneInput (s : State) (n : Nat) : Bool :=
  if s.narrow n then s.portPowered 0 else s.is (RXS.STAT.RUN0.bit (s.laneSite n))

/-- Whether the Shuttle assigns lane `n`: by SCHED, which for a frame in progress is that of its find (R105, R107). -/
def State.laneSched (s : State) (n : Nat) : Bool :=
  match s.laneFrame n with
  | some f => f.sched
  | none => s.is (DMD.LCFG.SCHED.i n)

/-- Whether a lane may leave or enter ENERGY or enter QUALIFY: its port's gain is not settling (R78). -/
def State.laneMoves (s : State) (n : Nat) : Bool := !s.is (RFE.PGSTAT.SETTLING.i (s.lanePort n))

/-- A frame in a buffer of a lane. -/
def State.frameAt (s : State) (lane buf : Nat) : Option RxFrame :=
  s.frm.frames.find? fun f => f.lane == lane && f.buf == buf

/-- Changes a frame. -/
def onFrame (lane buf : Nat) (g : RxFrame → RxFrame) : Act := onFrm fun r => { r with
  frames := r.frames.map fun x => if x.lane == lane && x.buf == buf then g x else x }

/-- A free buffer of lane `n` (R128, R129). -/
def State.freeBuffer (s : State) (n : Nat) : Option Nat := [0, 1].find? fun b => (s.frameAt n b).isNone

/-- Counts one on counter `k` of lane `n`, saturating (R133). -/
def countLane (n k : Nat) : Act := onLane n fun l => { l with
  counts := l.counts.modify k fun c => min (c + 1) 0xFFFF }

/-- Lane `n` enters a state; in ENERGY it takes its plan as it now stands (R103). -/
def laneEnter (n st : Nat) : Act := look fun s =>
  chain [put (DMD.LSTAT.STATE.i n) st, onLane n fun l => { l with
    since := s.tb, tuned := if st == 4 then some (s.planWords (s.get (DMD.LCFG.PLAN.i n))) else l.tuned }]

/-- The buffer flags of lane `n` follow the frames that the frame engine holds (R129). -/
def showBuffers (n : Nat) : Act := look fun s =>
  let full (b : Nat) : Nat := match s.frameAt n b with | some f => if f.stage ≥ 2 then 1 else 0 | none => 0
  chain [put (DMD.LSTAT.BUFA.i n) (full 0), put (DMD.LSTAT.BUFB.i n) (full 1)]

/-- A lane without a frame in progress takes the state that its buffers, configuration, window and cell give it, with no
transition into or out of ENERGY while its port's gain settles (R78, R114, R115). A lane with both buffers full that would
work is in HOLD, however it came there, and one that the schedule leaves idle is in IDLE when it leaves HOLD or a frame
(notes/assumptions/59.md, DESIGN CHOICE). -/
def settleLane (n : Nat) : Act := look fun s =>
  let st := s.laneState n
  let active := !s.is (DMD.LCFG.SCHED.i n) || ((s.lane n).cell.isSome && (s.lane n).isOpen)
  let free := st != 4 || s.laneMoves n
  if !s.laneLive n then whenA (st != 0) (laneEnter n 0)
  else if (s.laneFrame n).isSome then skip
  else if (s.freeBuffer n).isNone && (st == 3 || st ≥ 6 || active) then whenA (st != 3) (laneEnter n 3)
  else if !active then whenA (st != 1 && st != 5 && free) (laneEnter n 1)
  else if (if st == 4 || st == 5 then s.laneFits n else s.laneWillFit n) then
    whenA (st != 4 && st != 5 && s.laneMoves n) (laneEnter n 4)
  else whenA (st != 2 && free) (chain [laneEnter n 2, stickVI CHZ.STICKY.OUTWIN (s.laneVi n) n 0])

/-- Every lane that a test names is settled. -/
def settleLanes (p : State → Nat → Bool) : Act := look fun s =>
  eachA ((List.range 128).filter (p s)) settleLane

/-! Cells (R193). -/

/-- The type of a cell (R194): 0 TX, 1 RX, 2 SHARED, 3 UPD. -/
def RunCell.kind (c : RunCell) : Nat := bits c.w0 30 28

/-- The port of a cell. -/
def RunCell.port (c : RunCell) : Nat := bitOf c.w0 2

/-- TK of a cell. -/
def RunCell.tk (c : RunCell) : Bool := bitOf c.w0 1 == 1

/-- ADV of a cell. -/
def RunCell.adv (c : RunCell) : Bool := bitOf c.w0 0 == 1

/-- The neighbour of a cell. -/
def RunCell.nbr (c : RunCell) : Nat := bits c.w1 31 20

/-- BCAST of a cell. -/
def RunCell.bcast (c : RunCell) : Bool := bitOf c.w1 19 == 1

/-- The mode of a cell. -/
def RunCell.mode (c : RunCell) : Nat := bits c.w1 18 15

/-- The plan of a cell. -/
def RunCell.plan (c : RunCell) : Nat := bits c.w1 8 7

/-- E − t0 of a template for a mode, in fine units (R196). -/
def Template.offsetFine (t : Template) (mode : Nat) : Nat :=
  t.txoff * 256 + symbolsFine mode ((8 * t.prelen + (if isGlr mode then 32 else 16)) / modeBits mode)

/-- The expected SFD stamp E of a cell in the present slot, in fine units (R196). -/
def State.expectStamp (s : State) (c : RunCell) : Nat :=
  s.shu.tick * 64 + c.t.offsetFine c.mode

/-- Changes cell `k` of the slot. -/
def onCell (k : Nat) (f : RunCell → RunCell) : Act := onShu fun u => { u with cells := u.cells.modify k f }

/-- Whether lane `n` meets the conditions of R110 for a cell. -/
def State.laneMeets (s : State) (n : Nat) (c : RunCell) : Bool :=
  s.is (DMD.LCFG.EN.i n) && s.is (DMD.LCFG.SCHED.i n) && s.laneVi n == c.vi && s.lanePort n == c.port
    && s.laneWouldFit n c.plan c.chan c.mode && (s.lane n).cell.isNone && (s.laneFrame n).isNone && s.laneState n != 3

/-- Gives lane `n` to cell `k`: the Shuttle writes the lane's configuration and coding bits from the cell (R105, R148). -/
def assignLane (n k : Nat) : Act := look fun s =>
  match s.shu.cells[k]? with
  | none => skip
  | some c =>
    chain [put (DMD.LCFG.PLAN.i n) c.plan, put (DMD.LCFG.CHAN.i n) c.chan, put (DMD.LCFG.MODE.i n) c.mode,
      put (DMD.LCFG.MIDX.i n) (bits c.w1 14 13), put (DMD.LCFG.FECEN.i n) (bitOf c.w1 12),
      put (DMD.LCFG.SFDSEL.i n) (bitOf c.w1 9),
      whenA (s.domOn Dom.rxw) (chain [put (FEC.RSCMAP.L.mapBit n) (bitOf c.w1 11),
        put (FEC.ILVMAP.L.mapBit n) (bitOf c.w1 10)]),
      whenA (n == 0) (onDmd fun d => { d with rsc0 := bitOf c.w1 11 == 1, ilv0 := bitOf c.w1 10 == 1 }),
      onLane n fun l => { l with cell := some k, isOpen := false },
      onCell k fun c => { c with lane := some n, waits := false }]

/-- A lane has freed: it goes to the first waiting cell that it meets (R111). -/
def laneFreed (n : Nat) : Act := look fun s =>
  match (List.range s.shu.cells.length).find? fun k =>
      match s.shu.cells[k]? with | some c => c.waits && s.laneMeets n c | none => false with
  | some k => assignLane n k
  | none => skip

/-- The frame in progress on a lane ends without being handed over: its reservations go, its buffer is freed, its taps are
kept, the lane takes up its work again, and the freeze may lift (R79, R115, R133, R187). `k` is the counter that counts
it. -/
def dropFrame (n : Nat) (k : Option Nat) : Act := look fun s =>
  match s.laneFrame n with
  | none => skip
  | some f =>
    chain [(match k with | some c => countLane n c | none => skip),
      onFrm fun r => { r with frames := r.frames.filter fun x => !(x.lane == n && x.buf == f.buf) },
      onLane n fun l => { l with taps := f.rx.taps },
      put (DMD.LSTAT.CLIPM.i n) 0, settleLane n, laneFreed n, showBuffers n, liftFreeze f.port]

/-- A lane's frame in progress is abandoned (R107, R108, R115). -/
def abandonLane (n : Nat) : Act := dropFrame n (some 8)

/-- Lane `n` after a change of EN, of its port's state or of its domain: a frame in progress on a lane that is no longer
live is abandoned (R107, R109, R115). -/
def checkLane (n : Nat) : Act := look fun s => chain [whenA (!s.laneLive n) (abandonLane n), settleLane n]

/-- Every lane of a port. -/
def checkPort (p : Nat) : Act := look fun s => eachA ((List.range 128).filter fun n => s.laneSite n == p) checkLane

/-- Every frame in progress on a transmitting port ends and is counted BLANKED (R88). -/
def blankPort (p : Nat) : Act := look fun s =>
  eachA (s.inProgress.filter (·.port == p)) fun f => dropFrame f.lane (some 6)

/-- A unit ends with its results (R96); a port that it held takes the state that EN gives it (R69). -/
def execCalUnitComplete (u : Fin 13) (results : List Int) (s : State) : Host.Outcome State Fault Refusal :=
  act (chain [calComplete u results, match s.calHolds u with | some p => checkPort p | none => skip]) s

/-! Writes of CHZ and DMD. -/

/-- A write of a window (R101, R102). -/
def writeWindow (w word : Nat) : Act := look fun s =>
  let old := s.window w
  let held := (s.chz.force.getD w none).isSome
  let width := if bits word 30 28 ≤ 4 then bits word 30 28 else (s.get (CHZ.WCFG.WIDTH.i w))
  let hz := windowHz (width * 2 ^ 28)
  let centre := bits word 20 0 * 1000
  let inBand := 300000000 + hz ≤ 2 * centre && 2 * centre + hz ≤ 2100000000
  chain [
    if inBand then chain [whenA (bits word 30 28 > 4) (stick CHZ.STICKY.RSVD), put (CHZ.WCFG.WIDTH.i w) width,
      put (CHZ.WCFG.CENTRE.i w) (bits word 20 0)]
    else stick CHZ.STICKY.RSVD,
    put (CHZ.WCFG.EN.i w) (bitOf word 31),
    look fun s =>
      let new := (s.reg (CHZ.WCFG.i w).key).toNat
      let waits := bitOf old 31 == 1 && (held || new != old)
      chain [onChz fun c => { c with force := c.force.set w (if waits then some (old, false) else none) },
        put (CHZ.STAT.WHELD.bit w) (if waits then 1 else 0)],
    settleLanes fun s n => !s.narrow n && s.get (DMD.LCFG.WIN.i n) == w]

/-- A write of WnCFG (R102). -/
def execWindowWrite (i : Initiator) (n : Fin 4) (w : Word) (s : State) : Host.Outcome State Fault Refusal :=
  act (atRegister i 0 (CHZ.WCFG.i n) true (writeWindow n w.toNat)) s

/-- Whether a lane on window `w` has a frame in progress. -/
def State.windowBusy (s : State) (w : Nat) : Bool := s.inProgress.any fun f => !s.narrow f.lane && f.win == w

/-- The tick's part of the windows: a waiting write falls due where no lane on its window has a frame in progress (R102). -/
def windowTick : Act := look fun s => onChz fun c => { c with
  force := c.force.zipIdx.map fun f => f.1.map fun x => (x.1, x.2 || !s.windowBusy f.2) }

/-- A waiting window write is applied: at the tick at which it falls due, or while TICKEN is 0 once no lane on the window has
a frame in progress (R102). -/
def execWindowApply (n : Fin 4) (s : State) : Host.Outcome State Fault Refusal :=
  act (look fun s => match s.chz.force.getD n none with
    | none => skip
    | some (_, due) =>
      whenA (due || !s.is CLK.CTRL.TICKEN && !s.windowBusy n)
        (chain [onChz fun c => { c with force := c.force.set n none }, put (CHZ.STAT.WHELD.bit n) 0,
          settleLanes fun s k => !s.narrow k && s.get (DMD.LCFG.WIN.i k) == n.val])) s

/-- A write of a plan register; a lane outside its window may now fit (R103, R115). -/
def writePlan (k w : Nat) : Act := chain [plainWrite k 0 w, settleLanes fun s n => s.laneState n == 2]

/-- A written PLAN of a lane that has no frame in progress and is past its entry into ENERGY takes the words that the plan now
holds (R103, R107). -/
def retune (n plan : Nat) : Act := look fun s =>
  whenA (s.get (DMD.LCFG.PLAN.i n) != plan && (s.laneFrame n).isNone)
    (onLane n fun l => { l with tuned := some (s.planWords (s.get (DMD.LCFG.PLAN.i n))) })

/-- A write of LnCFG, LnFIND or LnDFE (0, 1, 2) through view `v`. A frame in progress keeps what it was found with; EN 0
abandons it (R105, R107). A tenant's view does not reach the VI field (R297), and a VI at LANEQ, or a VI that is not OPEN,
takes no lane (R285, R290). -/
def writeLane (reg n v w : Nat) : Act := look fun s =>
  match reg with
  | 0 =>
    let kept := s.laneVi n
    let new := bits w 29 26
    let past := v == 0 && new != kept
      && (!s.viOpen new || ((List.range 128).filter fun k => s.laneVi k == new).length ≥ s.get (ten VIF.TENA0.LANEQ new))
    let word := if v = 0 && !past then w else w - new * 2 ^ 26 + kept * 2 ^ 26
    chain [whenA (v != 0 && new != 0) (stickV VIF.STICKY.VIEWREF v), whenA past (stick VIF.STICKY.QUOTA),
      plainWrite (DMD.LCFG.i n).key v word, retune n (s.get (DMD.LCFG.PLAN.i n)), checkLane n]
  | 1 => plainWrite (DMD.LFIND.i n).key v w
  | _ => plainWrite (DMD.LDFE.i n).key v w

/-- The register of a lane by its number: LnCFG, LnFIND, LnDFE. -/
def laneReg (reg n : Nat) : Fld := if reg = 0 then DMD.LCFG.i n else if reg = 1 then DMD.LFIND.i n else DMD.LDFE.i n

/-- A write of a lane's configuration (R105, R107). -/
def execLaneCfgWrite (i : Initiator) (v : Fin 16) (reg : Fin 3) (n : Fin 128) (w : Word) (s : State) :
    Host.Outcome State Fault Refusal :=
  act (atRegister i v (laneReg reg n) true (writeLane reg n v w.toNat)) s

/-- A write of CNTCLR: one lane's counters, or all with ALL; a tenant clears those of its own lanes (R133, R297). -/
def writeCntclr (v w : Nat) : Act := look fun s =>
  let lanes := if bitOf w 31 == 1 then List.range 128 else [w % 128]
  let clear (n : Nat) : Act := onLane n fun l => { l with counts := [0, 0, 0, 0, 0, 0, 0, 0, 0, 0] }
  chain [eachA (lanes.filter fun n => v == 0 || s.laneVi n == v) clear,
    whenA (v != 0 && lanes.any fun n => s.laneVi n != v) (stickV VIF.STICKY.VIEWREF v)]

/-- A write of DMD.CNTCLR (R133). -/
def execCntclrWrite (i : Initiator) (v : Fin 16) (w : Word) (s : State) : Host.Outcome State Fault Refusal :=
  act (atRegister i v DMD.CNTCLR true (writeCntclr v w.toNat)) s

/-- A write of DMD.CTRL: lane 0 changes its input, and a frame that it has in progress is abandoned (R108). -/
def writeDmdCtrl (w : Nat) : Act := look fun s =>
  let was := s.narrow 0
  chain [plainWrite DMD.CTRL.key 0 w,
    look fun s => whenA (s.narrow 0 != was) (chain [abandonLane 0, settleLane 0])]

/-- A write of RSCMAP0 or ILVMAP0 also writes lane 0's copy (R148). -/
def writeFecMap (k w : Nat) : Act :=
  chain [plainWrite k 0 w,
    whenA (k == FEC.RSCMAP.key) (onDmd fun d => { d with rsc0 := bitOf w 0 == 1 }),
    whenA (k == FEC.ILVMAP.key) (onDmd fun d => { d with ilv0 := bitOf w 0 == 1 })]

/-- Whether a lane's frames are decoded as RSC, and as interleaved (R142, R148). -/
def State.laneRsc (s : State) (n : Nat) : Bool :=
  if n == 0 && !s.domOn Dom.rxw then s.dmd.rsc0 else s.is (FEC.RSCMAP.L.mapBit n)

/-- Whether a lane's frames are interleaved. -/
def State.laneIlv (s : State) (n : Nat) : Bool :=
  if n == 0 && !s.domOn Dom.rxw then s.dmd.ilv0 else s.is (FEC.ILVMAP.L.mapBit n)

/-! Writes of the front end. -/

/-- A port's stored state follows its EN and its power, outside TX (R69, R70); `State.portState` lays CAL over it. -/
def settlePort (n : Nat) : Act := look fun s =>
  let want := if s.is (RFE.PCFG.EN.i n) && s.portPowered n then 1 else 0
  whenA (s.get (portFld n) < 2 && s.get (portFld n) != want)
    (chain [put (portFld n) want, whenA (want == 1) (chain [restartDwell n, startGain n]), checkPort n])

/-- A write of PnCFG (R69, R80, R83). -/
def writePcfg (n w : Nat) : Act := look fun s =>
  let old := s.get (RFE.PCFG.GMODE.i n)
  chain [plainWrite (RFE.PCFG.i n).key 0 w,
    look fun s => whenA (s.get (RFE.PCFG.GMODE.i n) != old) (gainChanged n true),
    settlePort n, converterChanged n]

/-- A write of PnGAIN; SCHGAIN and MANGAIN count only where they change (R80, R626). -/
def writePgain (n w : Nat) : Act := look fun s =>
  let sch := s.get (RFE.PGAIN.SCHGAIN.i n)
  let man := s.get (RFE.PGAIN.MANGAIN.i n)
  chain [plainWrite (RFE.PGAIN.i n).key 0 w,
    look fun s =>
      let a := s.get (RFE.PGAIN.SCHGAIN.i n) != sch
      let b := s.get (RFE.PGAIN.MANGAIN.i n) != man
      whenA (a || b) (gainChanged n (a && (s.rfPort n).mode != 2))]

/-- A write of PnAGC; AGCLO at or above AGCHI is reserved for both (R98). -/
def writePagc (n w : Nat) : Act :=
  judgedWrite (RFE.PAGC.i n).key 0 w fun d _ => d.lo < 16 && toS 8 (bits w 15 8) ≥ toS 8 (bits w 7 0)

/-- A write of PnTUNE: TUNE waits for a tick and shows the state in use until then (R89, R91). -/
def writePtune (n w : Nat) : Act := look fun s =>
  let t := s.get (RFE.PTUNE.TUNE.i n)
  chain [plainWrite (RFE.PTUNE.i n).key 0 w, put (RFE.PTUNE.TUNE.i n) t,
    whenA (w % 64 != t) (onPort n fun p => { p with nextTune := some (w % 64, false) })]

/-- A write of RXS.CTRL (R83). -/
def writeRxsCtrl (w : Nat) : Act := chain [plainWrite RXS.CTRL.key 0 w, converterChanged 0, converterChanged 1]

/-- A write of PnCFG (`cfg`) or PnGAIN (R80). -/
def execGainWrite (i : Initiator) (n : Fin 2) (cfg : Bool) (w : Word) (s : State) : Host.Outcome State Fault Refusal :=
  act (atRegister i 0 (if cfg then RFE.PCFG.i n else RFE.PGAIN.i n) true
    (if cfg then writePcfg n w.toNat else writePgain n w.toNat)) s

/-! Finding a packet (R115 to R119). -/

/-- A gain change has settled: lanes of the port that waited for it move (R78, R111, R115). -/
def execGainSettled (n : Fin 2) (s : State) : Host.Outcome State Fault Refusal :=
  act (look fun s => whenA (s.is (RFE.PGSTAT.SETTLING.i n))
    (chain [until_ (s.rfPort n).settleAt, put (RFE.PGSTAT.SETTLING.i n) 0,
      eachA ((List.range 128).filter fun k => s.lanePort k == n.val) fun k => chain [
        look fun s => whenA (s.laneState k == 5 && s.get (portFld n) == 2) (laneEnter k 4),
        settleLane k, laneFreed k]])) s

/-- The mean power of lane `n` over EDLEN symbols, at TB `t` or once they have passed: above RSSITH the lane qualifies
(R115, R129). -/
def execEnergyDetect (n : Fin 128) (dbm : Int) (t : Nat) (s : State) : Host.Outcome State Fault Refusal :=
  act (chain [look fun s => until_ (max t ((s.lane n).since
      + symbolsTb (s.get (DMD.LCFG.MODE.i n)) ([4, 6, 8, 16].getD (s.get (DMD.LFIND.EDLEN.i n)) 4))), look fun s =>
    whenA (s.laneState n == 4 && s.laneMoves n && s.laneInput n && s.portState (s.lanePort n) != 2
        && dbm > s.getS (DMD.LFIND.RSSITH.i n) && (s.freeBuffer n).isSome)
      (chain [countLane n 0, laneEnter n 5])]) s

/-- SOFTK of a lane: while RXW is off, lane 0's decoder uses its reset value (R148). -/
def State.softK (s : State) (n : Nat) : Nat := if n == 0 && !s.domOn Dom.rxw then 4 else s.get FEC.DCFG.SOFTK

/-- The settings of lane `n`'s receive path, for a mode, modulation index, SFD pair and FECEN. -/
def State.rxSet (s : State) (n mode midx sfdsel : Nat) (fecen : Bool) : RxSet :=
  { mode, midx, dfe := s.get (DMD.LDFE.DFEMODE.i n), muft := s.get (DMD.LDFE.MUFT.i n), mubt := s.get (DMD.LDFE.MUBT.i n)
    mufd := s.get (DMD.LDFE.MUFD.i n), mubd := s.get (DMD.LDFE.MUBD.i n), divth := s.get (DMD.LDFE.DIVTH.i n)
    fotk := s.get DMD.TRACK.FOTK, tmtk := s.get DMD.TRACK.TMTK, sfds := sfdWords mode sfdsel fecen
    sfderr := s.get DMD.SFDCFG.SFDERR, softk := s.softK n }

/-- The settings of a frame's receive path (R107). -/
def State.rxOf (s : State) (f : RxFrame) : RxSet := s.rxSet f.lane f.mode f.midx f.sfdsel f.fecen

/-- The settings of a lane's receive path as it is configured. -/
def State.laneRx (s : State) (n : Nat) : RxSet :=
  s.rxSet n (s.get (DMD.LCFG.MODE.i n)) (s.get (DMD.LCFG.MIDX.i n)) (s.get (DMD.LCFG.SFDSEL.i n)) (s.is (DMD.LCFG.FECEN.i n))

/-- A frame found on lane `n`, in buffer `b`, with the configuration that it keeps (R107) and the coding bits of its lane,
which it takes now (notes/assumptions/59.md, DESIGN CHOICE). -/
def State.newFrame (s : State) (n b : Nat) (rx : RxDsp) : RxFrame :=
  let cell := (s.lane n).cell.bind fun k => s.shu.cells[k]?
  { lane := n, buf := b, port := s.lanePort n, vi := s.laneVi n, mode := s.get (DMD.LCFG.MODE.i n)
    midx := s.get (DMD.LCFG.MIDX.i n), plan := s.get (DMD.LCFG.PLAN.i n), chan := s.get (DMD.LCFG.CHAN.i n)
    sfdsel := s.get (DMD.LCFG.SFDSEL.i n), win := s.get (DMD.LCFG.WIN.i n), fecen := s.is (DMD.LCFG.FECEN.i n)
    sfdto := s.get (DMD.LFIND.SFDTO.i n), rsc := s.laneRsc n, ilv := s.laneIlv n, rx
    sched := s.is (DMD.LCFG.SCHED.i n), cell := if s.is (DMD.LCFG.SCHED.i n) then cell else none
    expect := match cell with | some c => s.expectStamp c | none => 0
    awaits := match cell with | some c => c.tx | none => false }

/-- The samples of a lane from its entry into QUALIFY on, the last of them not before TB `t`: at the first symbol at which the metric reaches QUALTH a frame is in
progress and the port's gain is frozen; the samples after it train the equaliser (R79, R115, R116, R122). -/
def execQualifierPass (n : Fin 128) (xs : List (Int × Int)) (t : Nat) (s : State) : Host.Outcome State Fault Refusal :=
  act (look fun s =>
    let p := s.laneRx n
    let qualn := s.get (DMD.LFIND.QUALN.i n) + 1
    match qualifiesAt p qualn (s.get (DMD.LFIND.QUALTH.i n)) xs with
    | none => skip
    | some m => chain [until_ (max t ((s.lane n).since + symbolsTb p.mode m)), look fun s =>
        whenA (s.laneState n == 5 && s.laneInput n && s.portState (s.lanePort n) != 2)
          (match s.freeBuffer n with
           | none => skip
           | some b => chain [laneEnter n 6,
               onFrm fun r => { r with frames := r.frames ++
                 [s.newFrame n b ((RxDsp.start p qualn (xs.take m)).fed p (xs.drop m))] },
               put (RFE.PGSTAT.FROZEN.i (s.lanePort n)) 1])]) s

/-- 2 × QUALN symbols without a pass: back to ENERGY (R115). -/
def execQualifierTimeout (n : Fin 128) (s : State) : Host.Outcome State Fault Refusal :=
  act (look fun s => whenA (s.laneState n == 5)
    (chain [until_ (max (if s.laneMoves n then 0 else (s.rfPort (s.lanePort n)).settleAt) ((s.lane n).since
        + symbolsTb (s.get (DMD.LCFG.MODE.i n)) (2 * (s.get (DMD.LFIND.QUALN.i n) + 1)))),
      countLane n 1, laneEnter n 4, settleLane n])) s

/-- Symbol periods and µs of the decision latency L of an uncoded decision, in fine units (R119). -/
def latencyFine (mode : Nat) : Nat := 256 + symbolsFine mode 1

/-- More samples of a lane with a frame in progress; a block of 16 decision-directed symbols whose mean error is above DIVTH
has restored the taps (R121, R125). -/
def feed (n : Nat) (xs : List (Int × Int)) : Act := look fun s =>
  match s.laneFrame n with
  | none => skip
  | some f =>
    let r := f.rx.fed (s.rxOf f) xs
    chain [onFrame n f.buf fun x => { x with rx := r, restored := x.restored || f.rx.restores < r.restores },
      eachA (List.range (r.restores - f.rx.restores)) fun _ => countLane n 9,
      whenA (!f.restored && f.rx.restores < r.restores) (stickVI DMD.STICKY.DFERST f.vi n 0)]

/-- The SFD is matched at TB `t`, or once the samples have arrived: its stamp is the decision less L, with the fraction of the
timing interpolator, and the lane power over its last 8 symbols is `power` / (`parts` + 1) dBFS (R117, R119, R131). Without
a match the lane goes on searching. -/
def execSfdMatch (n : Fin 128) (t : Nat) (fine : Fin 64) (xs : List (Int × Int)) (power : Int) (parts : Nat) (_ : Unit)
    (s : State) : Host.Outcome State Fault Refusal :=
  act (look fun s => whenA (s.laneState n == 6 && s.laneInput n) (chain [feed n xs, look fun s =>
    match s.laneFrame n with
    | none => skip
    | some f =>
      match f.rx.found with
      | none => skip
      | some coded => chain [until_ (max t ((s.lane n).since + symbolsTb f.mode xs.length)), laneEnter n 7, look fun s =>
          let stamp := s.tb * 64 + fine - latencyFine f.mode
          let rssi := nearest power (parts + 1) - s.getS (RFE.PGSTAT.GAIN.i f.port)
            + s.getS (if f.port = 0 then DMD.RSSICAL.P0 else DMD.RSSICAL.P1)
          let asn := if stamp / 64 < s.clk.asnSince then s.clk.asnBefore else s.clk.asn
          onFrame n f.buf fun x => { x with stage := 1, tb := stamp / 64, fine := stamp % 64, coded, asn, rssi }]])) s

/-- SFDTO symbols without an SFD: the frame ends (R115). -/
def execSfdTimeout (n : Fin 128) (s : State) : Host.Outcome State Fault Refusal :=
  act (look fun s => match s.laneFrame n with
    | none => skip
    | some f => whenA (s.laneState n == 6)
        (chain [until_ ((s.lane n).since + symbolsTb f.mode f.sfdto), dropFrame n (some 2)])) s

/-! Decoding (R118, R139, R142 to R147). -/

/-- The code of a coded frame. -/
def RxFrame.code (f : RxFrame) : Code := if isGlr f.mode then .glr else if f.rsc then .rsc else .nrnsc

/-- The side of the interleaver's blocks, 0 without interleaving (R142, R143). -/
def RxFrame.side (f : RxFrame) : Nat := if isGlr f.mode then 8 else if f.ilv then 4 else 0

/-- The information bits of a frame with a known length, and those with its tail. -/
def RxFrame.infoLen (f : RxFrame) : Nat := 16 + 8 * f.len
def RxFrame.tailed (f : RxFrame) : Nat := f.infoLen + f.code.mem

/-- The code bits of a frame from the PHR to the pad bits (R140). -/
def RxFrame.codeLen (f : RxFrame) : Nat :=
  if isGlr f.mode then ceilDiv (16 * f.len + 44) 64 * 64 else 16 * f.len + 48

/-- The code bits received, in the order of the code. -/
def RxFrame.codeBits (f : RxFrame) : List SoftBit :=
  if f.side = 0 then f.rx.soft
  else interleaved f.side (f.rx.soft.take (f.rx.soft.length / (f.side * f.side) * (f.side * f.side)))

/-- The code bits of the frame and its tail, once all of it is received. -/
def RxFrame.wholeCode (f : RxFrame) : Option (List SoftBit) :=
  if f.len != 0 && f.codeLen ≤ f.rx.soft.length then some (f.codeBits.take (2 * f.tailed)) else none

/-- The bits of PHR and PSDU that have left the decoder, as they were sent (R136, R146). -/
def RxFrame.infoBits (f : RxFrame) : List Bool :=
  if !f.coded then f.rx.bits.reverse
  else match f.wholeCode with
    | some q => (decodedWhole f.code q).take f.infoLen
    | none => decodedSoFar f.code (if f.len = 0 then f.codeBits else f.codeBits.take (2 * f.tailed))

/-- The octet at a place of the PSDU, with its whitening undone (R144). -/
def RxFrame.octetAt (f : RxFrame) (k : Nat) : Nat :=
  let b := (f.infoBits.drop (16 + 8 * k)).take 8
  ofLsb (if f.white then b.zipWith xor ((pn9 (8 * k + 8) (List.replicate 9 true)).drop (8 * k)) else b)

/-- The code bit periods from the SFD to the end of the later of the two code bits of information bit `k` (R142, R146). -/
def RxFrame.sentBy (f : RxFrame) (k : Nat) : Nat :=
  let m := f.side
  let at_ (c : Nat) : Nat := if m = 0 then c else c - c % (m * m) + (m * (c % m) + c % (m * m) / m)
  max (at_ (2 * k)) (at_ (2 * k + 1)) + 1

/-- Fine units from the SFD stamp to the end of `n` code bits, or uncoded bits, on air. -/
def RxFrame.bitsFine (f : RxFrame) (n : Nat) : Nat := roundDiv (n * 256000000) (symbolRate f.mode * modeBits f.mode)

/-- The fine units from the SFD stamp at which the last bit of the frame has left the decoder (R119, R146). -/
def RxFrame.endsFine (f : RxFrame) : Nat :=
  latencyFine f.mode + (if f.coded then f.bitsFine f.codeLen + 128 else f.bitsFine f.infoLen)

/-- The fine units from the SFD stamp at which information bit `k` leaves the decoder: L after it is on air, and in a coded
frame D after that, at the latest when the decoder traces back at the frame's end (R119, R146). -/
def RxFrame.leavesFine (f : RxFrame) (k : Nat) : Nat :=
  if !f.coded then latencyFine f.mode + f.bitsFine (k + 1)
  else
    let t := latencyFine f.mode + f.bitsFine (f.sentBy k + 96 + f.side * f.side) + 128
    if f.len = 0 then t else min t f.endsFine

/-- TB at which information bit `k` leaves the decoder. -/
def RxFrame.leavesTb (f : RxFrame) (k : Nat) : Nat := ceilDiv (f.tb * 64 + f.fine + f.leavesFine k) 64

/-- The PHR has left the decoder, bit 15 first; in SUN FSK bit 15 is the mode-switch bit. An invalid one ends the frame as
PHRERR (R118, R139). -/
def execPhrReceived (n : Fin 128) (xs : List (Int × Int)) (s : State) : Host.Outcome State Fault Refusal :=
  act (chain [feed n xs, look fun s => match s.laneFrame n with
    | none => skip
    | some f =>
      let w := ofMsb (f.infoBits.take 16)
      let len := bits w 10 0
      let fcs2 := bitOf w 12 == 1
      let bad := (if isGlr f.mode then !evenParity w else bitOf w 15 == 1)
        || len > s.get DMD.SFDCFG.MAXLEN || len < (if fcs2 then 3 else 5)
      whenA (f.stage == 1 && f.len == 0 && 16 ≤ f.infoBits.length)
        (chain [until_ (f.leavesTb 15),
          if bad then chain [stickVI DMD.STICKY.PHRERR f.vi n 0, dropFrame n (some 3)]
          else onFrame n f.buf fun x => { x with len, fcs2, white := bitOf w 11 == 1 }])]) s

/-- Samples up to the end of a block of 16 decision-directed symbols (R125). -/
def execDfeBlockCheck (n : Fin 128) (xs : List (Int × Int)) (s : State) : Host.Outcome State Fault Refusal := act (feed n xs) s

/-- Energy crosses RSSITH upward at a lane in HOLD (R115, R129). -/
def execEnergyInHold (n : Fin 128) (dbm : Int) (t : Nat) (s : State) : Host.Outcome State Fault Refusal :=
  act (chain [until_ t, look fun s =>
    whenA (s.laneState n == 3 && s.laneInput n && s.portState (s.lanePort n) != 2 && dbm > s.getS (DMD.LFIND.RSSITH.i n))
      (chain [countLane n 7, stickVI DMD.STICKY.BUFBUSY (s.laneVi n) n 0])]) s

end Sys2Proof.Machine
end

