-- ==== Sys2Proof/Machine/Crypto.lean ====
section
/-! DEFINITION. The standard functions that the spec names: CRCs (R136, R160, R244), AES and its modes (R357), SHA-256 and
ECDSA P-256 (R372). Their constants come from the standards (notes/assumptions/6.md). Octet lists are in transmission
order. -/

namespace Sys2Proof.Machine

/-- Exclusive-or of two octet lists, as long as the shorter. -/
def xorOctets (a b : List Nat) : List Nat := a.zipWith (fun x y => x ^^^ y) b

/-- The big-endian number of a list of octets. -/
def beNat (l : List Nat) : Nat := l.foldl (fun a b => 256 * a + b) 0

/-- The little-endian number of a list of octets. -/
def leNat (l : List Nat) : Nat := l.foldr (fun b a => 256 * a + b) 0

/-- A number as `n` big-endian octets. -/
def beOctets (n v : Nat) : List Nat := (List.range n).map fun i => v / 256 ^ (n - 1 - i) % 256

/-- A number as `n` little-endian octets. -/
def leOctets (n v : Nat) : List Nat := (List.range n).map fun i => v / 256 ^ i % 256

/-- A list cut into pieces of `k`, at most `n` of them. -/
def chunks (k : Nat) : Nat → List Nat → List (List Nat)
  | 0, _ => []
  | n + 1, l => if l.isEmpty then [] else l.take k :: chunks k n (l.drop k)

/-- A list in blocks of 16 octets, the last filled with zeros. -/
def blocks16 (l : List Nat) : List (List Nat) :=
  (chunks 16 (l.length / 16 + 1) l).map fun b => b ++ List.replicate (16 - b.length) 0

/-! Cyclic redundancy checks. -/

/-- One bit of a reflected CRC. -/
def crcBit (poly r : Nat) : Nat := if r % 2 == 1 then (r / 2) ^^^ poly else r / 2

/-- One octet of a reflected CRC. -/
def crcOctet (poly r b : Nat) : Nat := (List.range 8).foldl (fun r _ => crcBit poly r) (r ^^^ b)

/-- The CRC-32 of IEEE 802.3 and IEEE 802.15.4-2020. -/
def crc32 (l : List Nat) : Nat := (l.foldl (crcOctet 0xEDB88320) 0xFFFFFFFF) ^^^ 0xFFFFFFFF

/-- The CRC-16 of IEEE 802.15.4-2020: x¹⁶ + x¹² + x⁵ + 1, initial value 0. -/
def crc16 (l : List Nat) : Nat := l.foldl (crcOctet 0x8408) 0

/-! AES (FIPS 197). -/

/-- Doubling of an octet in GF(2^8). -/
def gfDouble (x : Nat) : Nat := 2 * x ^^^ x / 128 * 0x11B

/-- The product of a coefficient below 16 and an octet in GF(2^8). -/
def gfMul (c x : Nat) : Nat :=
  c % 2 * x ^^^ c / 2 % 2 * gfDouble x ^^^ c / 4 % 2 * gfDouble (gfDouble x) ^^^ c / 8 * gfDouble (gfDouble (gfDouble x))

/-- The S-box of FIPS 197: a number for each row of its table, the first column most significant. -/
def sBox : List Nat :=
  [0x637c777bf26b6fc53001672bfed7ab76, 0xca82c97dfa5947f0add4a2af9ca472c0, 0xb7fd9326363ff7cc34a5e5f171d83115,
   0x04c723c31896059a071280e2eb27b275, 0x09832c1a1b6e5aa0523bd6b329e32f84, 0x53d100ed20fcb15b6acbbe394a4c58cf,
   0xd0efaafb434d338545f9027f503c9fa8, 0x51a3408f929d38f5bcb6da2110fff3d2, 0xcd0c13ec5f974417c4a77e3d645d1973,
   0x60814fdc222a908846eeb814de5e0bdb, 0xe0323a0a4906245cc2d3ac629195e479, 0xe7c8376d8dd54ea96c56f4ea657aae08,
   0xba78252e1ca6b4c6e8dd741f4bbd8b8a, 0x703eb5664803f60e613557b986c11d9e, 0xe1f8981169d98e949b1e87e9ce5528df,
   0x8ca1890dbfe6426841992d0fb054bb16]

/-- The inverse S-box. -/
def invSBox : List Nat :=
  [0x52096ad53036a538bf40a39e81f3d7fb, 0x7ce339829b2fff87348e4344c4dee9cb, 0x547b9432a6c2233dee4c950b42fac34e,
   0x082ea16628d924b2765ba2496d8bd125, 0x72f8f66486689816d4a45ccc5d65b692, 0x6c704850fdedb9da5e154657a78d9d84,
   0x90d8ab008cbcd30af7e45805b8b34506, 0xd02c1e8fca3f0f02c1afbd0301138a6b, 0x3a9111414f67dcea97f2cfcef0b4e673,
   0x96ac7422e7ad3585e2f937e81c75df6e, 0x47f11a711d29c5896fb7620eaa18be1b, 0xfc563e4bc6d279209adbc0fe78cd5af4,
   0x1fdda8338807c731b11210592780ec5f, 0x60517fa919b54a0d2de57a9f93c99cef, 0xa0e03b4dae2af5b0c8ebbb3c83539961,
   0x172b047eba77d626e169146355210c7d]

/-- An octet of such a table, taken as one number. -/
def boxed (t : List Nat) (x : Nat) : Nat := t.foldl (fun a r => a * 2 ^ 128 + r) 0 / 256 ^ (255 - x) % 256

/-- The substitution of an octet. -/
def subByte (x : Nat) : Nat := boxed sBox x

/-- The inverse substitution. -/
def invSubByte (y : Nat) : Nat := boxed invSBox y

/-- The round constant of the `i`th key step, from 1. -/
def rcon (i : Nat) : Nat := (List.range (i - 1)).foldl (fun x _ => gfDouble x) 1

/-- Key words after the first `nk`, each from the one before and the one `nk` before, newest first. -/
def expandKey (nk : Nat) : Nat → List (List Nat) → List (List Nat)
  | 0, ws => ws
  | n + 1, ws =>
    let i := ws.length
    let t := ws.headD []
    let t :=
      if i % nk == 0 then xorOctets ((t.drop 1 ++ t.take 1).map subByte) [rcon (i / nk), 0, 0, 0]
      else if nk > 6 && i % nk == 4 then t.map subByte else t
    expandKey nk n (xorOctets (ws.getD (nk - 1) []) t :: ws)

/-- The round keys of a 16 or 32 octet key. -/
def roundKeys (key : List Nat) : List (List Nat) :=
  let nk := key.length / 4
  let ws := (expandKey nk (4 * (nk + 7) - nk) (chunks 4 nk key).reverse).reverse
  (chunks 16 (nk + 7) ws.flatten)

/-- Row shifting by `d` columns per row, 1 forward and 3 backward, of a state in column order. -/
def shiftRows (d : Nat) (s : List Nat) : List Nat :=
  (List.range 16).map fun i => s.getD ((i / 4 + d * (i % 4)) % 4 * 4 + i % 4) 0

/-- Mixing of one column with the coefficients of the first row. -/
def mixColumn (m c : List Nat) : List Nat :=
  (List.range 4).map fun i => ((m.drop (4 - i) ++ m.take (4 - i)).zipWith gfMul c).foldl (· ^^^ ·) 0

/-- Column mixing. -/
def mixColumns (m : List Nat) (s : List Nat) : List Nat := (chunks 4 4 s).flatMap (mixColumn m)

/-- AES of one block. -/
def aes (key blk : List Nat) : List Nat :=
  let ks := roundKeys key
  let n := ks.length - 1
  let s := (List.range (n - 1)).foldl (fun s r =>
    xorOctets (mixColumns [2, 3, 1, 1] (shiftRows 1 (s.map subByte))) (ks.getD (r + 1) []))
    (xorOctets blk (ks.headD []))
  xorOctets (shiftRows 1 (s.map subByte)) (ks.getD n [])

/-- The inverse cipher of one block. -/
def aesInv (key blk : List Nat) : List Nat :=
  let ks := roundKeys key
  let n := ks.length - 1
  let s := (List.range (n - 1)).foldl (fun s r =>
    mixColumns [14, 11, 13, 9] (xorOctets ((shiftRows 3 s).map invSubByte) (ks.getD (n - 1 - r) [])))
    (xorOctets blk (ks.getD n []))
  xorOctets ((shiftRows 3 s).map invSubByte) (ks.headD [])

/-- The CBC-MAC of a list of blocks. -/
def cbcMac (key : List Nat) (bs : List (List Nat)) : List Nat :=
  bs.foldl (fun x b => aes key (xorOctets x b)) (List.replicate 16 0)

/-- CTR from a counter block, with a 128-bit big-endian increment (R357). -/
def ctrMode (key iv data : List Nat) : List Nat :=
  (((blocks16 data).zipIdx.map fun b =>
    xorOctets b.1 (aes key (beOctets 16 ((beNat iv + b.2) % 2 ^ 128)))).flatten).take data.length

/-- The counter block of CCM* with a 13-octet nonce. -/
def ccmCounter (nonce : List Nat) (i : Nat) : List Nat := [1] ++ nonce ++ beOctets 2 i

/-- The tag of CCM* before truncation and encryption (SP 800-38C with L = 2). -/
def ccmMac (key nonce a m : List Nat) (mic : Nat) : List Nat :=
  let flags := (if a.isEmpty then 0 else 0x40) + (if mic == 0 then 0 else (mic - 2) / 2 * 8) + 1
  let b0 := [flags] ++ nonce ++ beOctets 2 m.length
  let aPart := if a.isEmpty then [] else blocks16 (beOctets 2 a.length ++ a)
  cbcMac key ([b0] ++ aPart ++ blocks16 m)

/-- The MIC of CCM*. -/
def ccmTag (key nonce a m : List Nat) (mic : Nat) : List Nat :=
  (xorOctets (ccmMac key nonce a m mic) (aes key (ccmCounter nonce 0))).take mic

/-- CCM* encryption or decryption of the message octets. -/
def ccmCrypt (key nonce m : List Nat) : List Nat := ctrMode key (ccmCounter nonce 1) m

/-- Doubling of a block in the CMAC subkey derivation. -/
def cmacDouble (b : List Nat) : List Nat :=
  let x := beNat b
  beOctets 16 ((2 * x % 2 ^ 128) ^^^ (if x ≥ 2 ^ 127 then 0x87 else 0))

/-- AES-CMAC (SP 800-38B). -/
def cmac (key m : List Nat) : List Nat :=
  let k1 := cmacDouble (aes key (List.replicate 16 0))
  let full := m.length % 16 == 0 && !m.isEmpty
  let n := if m.isEmpty then 1 else ceilDiv m.length 16
  let last := m.drop (16 * (n - 1))
  let tail := if full then xorOctets last k1
    else xorOctets (last ++ [0x80] ++ List.replicate (15 - last.length) 0) (cmacDouble k1)
  cbcMac key (chunks 16 (n - 1) (m.take (16 * (n - 1))) ++ [tail])

/-- One step of KW wrapping: the integrity value and the semiblocks. -/
def wrapStep (kek : List Nat) (n : Nat) (st : List Nat × List (List Nat)) (t : Nat) : List Nat × List (List Nat) :=
  let i := (t - 1) % n
  let b := aes kek (st.1 ++ st.2.getD i [])
  (xorOctets (b.take 8) (beOctets 8 t), st.2.set i (b.drop 8))

/-- KW wrap (SP 800-38F). -/
def kwWrap (kek p : List Nat) : List Nat :=
  let n := p.length / 8
  let st := ((List.range (6 * n)).map (· + 1)).foldl (wrapStep kek n) (List.replicate 8 0xA6, chunks 8 n p)
  st.1 ++ st.2.flatten

/-- One step of KW unwrapping. -/
def unwrapStep (kek : List Nat) (n : Nat) (st : List Nat × List (List Nat)) (t : Nat) : List Nat × List (List Nat) :=
  let i := (t - 1) % n
  let b := aesInv kek (xorOctets st.1 (beOctets 8 t) ++ st.2.getD i [])
  (b.take 8, st.2.set i (b.drop 8))

/-- KW unwrap; `none` where the integrity value fails (SP 800-38F). -/
def kwUnwrap (kek c : List Nat) : Option (List Nat) :=
  let n := c.length / 8 - 1
  let st := ((List.range (6 * n)).map (fun i => 6 * n - i)).foldl (unwrapStep kek n) (c.take 8, chunks 8 n (c.drop 8))
  if st.1 == List.replicate 8 0xA6 then some st.2.flatten else none

/-! SHA-256 (FIPS 180-4). -/

/-- The largest `r` below 2^40 with `r ^ k ≤ x`. -/
def rootBelow (k x : Nat) : Nat :=
  (List.range 40).foldl (fun r i => if (r + 2 ^ (39 - i)) ^ k ≤ x then r + 2 ^ (39 - i) else r) 0

/-- The first 32 bits of the fractional part of the `k`th root of `p`. -/
def rootFraction (k p : Nat) : Nat := rootBelow k (p * 2 ^ (32 * k)) % 2 ^ 32

/-- The primes below `n`. -/
def primesBelow (n : Nat) : List Nat :=
  (List.range n).filter fun p => 2 ≤ p && (List.range p).all fun d => d < 2 || p % d != 0

/-- The initial hash value: the square roots of the first eight primes. -/
def shaInit : List Nat := (primesBelow 20).map (rootFraction 2)

/-- The constants of the rounds: the cube roots of the first sixty-four primes. -/
def shaConstants : List Nat := (primesBelow 312).map (rootFraction 3)

/-- A word rotated right. -/
def rotr32 (x n : Nat) : Nat := x / 2 ^ n + x % 2 ^ n * 2 ^ (32 - n)

/-- The message schedule, newest word first. -/
def shaSchedule : Nat → List Nat → List Nat
  | 0, w => w
  | n + 1, w =>
    let a := w.getD 1 0
    let b := w.getD 14 0
    let s1 := rotr32 a 17 ^^^ rotr32 a 19 ^^^ (a / 2 ^ 10)
    let s0 := rotr32 b 7 ^^^ rotr32 b 18 ^^^ (b / 2 ^ 3)
    shaSchedule n ((s1 + w.getD 6 0 + s0 + w.getD 15 0) % 2 ^ 32 :: w)

/-- One round of the compression function on the eight working words. -/
def shaRound (h : List Nat) (kw : Nat) : List Nat :=
  let a := h.getD 0 0
  let e := h.getD 4 0
  let s1 := rotr32 e 6 ^^^ rotr32 e 11 ^^^ rotr32 e 25
  let ch := (e &&& h.getD 5 0) ^^^ ((0xFFFFFFFF - e) &&& h.getD 6 0)
  let t1 := h.getD 7 0 + s1 + ch + kw
  let s0 := rotr32 a 2 ^^^ rotr32 a 13 ^^^ rotr32 a 22
  let mj := (a &&& h.getD 1 0) ^^^ (a &&& h.getD 2 0) ^^^ (h.getD 1 0 &&& h.getD 2 0)
  [(t1 + s0 + mj) % 2 ^ 32, a, h.getD 1 0, h.getD 2 0, (h.getD 3 0 + t1) % 2 ^ 32, e, h.getD 5 0, h.getD 6 0]

/-- The compression of one 64-octet block. -/
def shaBlock (ks h : List Nat) (blk : List Nat) : List Nat :=
  let w := (shaSchedule 48 ((chunks 4 16 blk).map beNat).reverse).reverse
  (h.zipWith (· + ·) ((ks.zipWith (· + ·) w).foldl shaRound h)).map (· % 2 ^ 32)

/-- The 32 octets of the digest of a list of octets. -/
def sha256 (m : List Nat) : List Nat :=
  let pad := List.replicate ((119 - m.length % 64) % 64) 0
  let full := m ++ [0x80] ++ pad ++ beOctets 8 (8 * m.length)
  ((chunks 64 (full.length / 64) full).foldl (shaBlock shaConstants) shaInit).flatMap (beOctets 4)

/-! ECDSA P-256 (FIPS 186). -/

namespace P256
/-- The field prime. -/
def p : Nat := 2 ^ 256 - 2 ^ 224 + 2 ^ 192 + 2 ^ 96 - 1
/-- The order of the base point. -/
def n : Nat := 0xFFFFFFFF00000000FFFFFFFFFFFFFFFFBCE6FAADA7179E84F3B9CAC2FC632551
/-- The coefficient b. -/
def b : Nat := 0x5AC635D8AA3A93E7B3EBBD55769886BC651D06B0CC53B0F63BCE3C3E27D2604B
/-- The base point. -/
def g : Nat × Nat × Nat := (0x6B17D1F2E12C4247F8BCE6E563A440F277037D812DEB33A0F4A13945D898C296,
  0x4FE342E2FE1A7F9B8EE7EB4A7C0F9E162BCE33576B315ECECBB6406837BF51F5, 1)
end P256

/-- A power modulo `m`, over the bits of the exponent below bit `k`. -/
def powMod (m x e : Nat) : Nat → Nat
  | 0 => 1 % m
  | k + 1 =>
    let r := powMod m x e k
    -- the bits are taken from the top: bit k counts down from 255
    let r2 := r * r % m
    if bitOf e (255 - k) == 1 then r2 * x % m else r2

/-- The inverse modulo a prime. -/
def invMod (m x : Nat) : Nat := powMod m x (m - 2) 256

/-- Subtraction modulo `m`. -/
def subMod (m a b : Nat) : Nat := (a + m - b % m) % m

/-- Doubling of a point in Jacobian coordinates; Z 0 is the point at infinity. -/
def pointDouble (q : Nat × Nat × Nat) : Nat × Nat × Nat :=
  let (x, y, z) := q
  let m := P256.p
  let zz := z * z % m
  let a := 3 * (subMod m x zz) * (x + zz) % m
  let yy := y * y % m
  let s := 4 * x * yy % m
  let x' := subMod m (a * a % m) (2 * s % m)
  (x', subMod m (a * subMod m s x' % m) (8 * yy * yy % m), 2 * y * z % m)

/-- Addition of two points in Jacobian coordinates. -/
def pointAdd (q r : Nat × Nat × Nat) : Nat × Nat × Nat :=
  let m := P256.p
  if q.2.2 == 0 then r
  else if r.2.2 == 0 then q
  else
    let (x1, y1, z1) := q
    let (x2, y2, z2) := r
    let zz1 := z1 * z1 % m
    let zz2 := z2 * z2 % m
    let u1 := x1 * zz2 % m
    let u2 := x2 * zz1 % m
    let s1 := y1 * zz2 * z2 % m
    let s2 := y2 * zz1 * z1 % m
    if u1 == u2 then (if s1 == s2 then pointDouble q else (1, 1, 0))
    else
      let h := subMod m u2 u1
      let w := subMod m s2 s1
      let hh := h * h % m
      let hhh := h * hh % m
      let v := u1 * hh % m
      let x' := subMod m (subMod m (w * w % m) hhh) (2 * v % m)
      (x', subMod m (w * subMod m v x' % m) (s1 * hhh % m), h * z1 * z2 % m)

/-- A multiple of a point, over the `k` top bits of a 256-bit scalar. -/
def pointMul (e : Nat) (q : Nat × Nat × Nat) : Nat → Nat × Nat × Nat
  | 0 => (1, 1, 0)
  | k + 1 =>
    let r := pointDouble (pointMul e q k)
    if bitOf e (255 - k) == 1 then pointAdd r q else r

/-- Whether a public key is a point of the curve. -/
def onCurve (x y : Nat) : Bool :=
  x < P256.p && y < P256.p && y * y % P256.p == (subMod P256.p (x * x % P256.p * x) (3 * x) + P256.b) % P256.p

/-- Verification of a signature r‖s over a digest with a public key X‖Y, 64 octets each (R372). -/
def ecdsaVerify (digest : Nat) (sig key : List Nat) : Bool :=
  let r := beNat (sig.take 32)
  let s := beNat ((sig.drop 32).take 32)
  let x := beNat (key.take 32)
  let y := beNat ((key.drop 32).take 32)
  let n := P256.n
  if r == 0 || s == 0 || r ≥ n || s ≥ n || !onCurve x y then false
  else
    let w := invMod n s
    let q := pointAdd (pointMul (digest * w % n) P256.g 256) (pointMul (r * w % n) (x, y, 1) 256)
    if q.2.2 == 0 then false
    else
      let zi := invMod P256.p q.2.2
      q.1 * zi % P256.p * zi % P256.p % n == r

end Sys2Proof.Machine
end

