-- ==== Sys2Proof/Machine/Bobbin.lean ====
section
/-! DEFINITION. Neighbour contexts, their keys and states, frame counters, drift, the time source, the lease record, and the
completion of transmit descriptors, which a context's state decides (R206, R219 to R256). -/

namespace Sys2Proof.Machine

/-! Fields of a context (R220): word, high bit, low bit. -/

structure CtxFld where
  word : Nat
  hi   : Nat
  lo   : Nat
  deriving DecidableEq, Repr

namespace Cx
def euiLo : CtxFld := ⟨0, 31, 0⟩
def euiHi : CtxFld := ⟨1, 31, 0⟩
def pan : CtxFld := ⟨2, 31, 16⟩
def short : CtxFld := ⟨2, 15, 0⟩
def gen : CtxFld := ⟨3, 31, 16⟩
def vi : CtxFld := ⟨3, 15, 12⟩
def ownMem : CtxFld := ⟨3, 10, 8⟩
def learnt : CtxFld := ⟨3, 5, 5⟩
def collide : CtxFld := ⟨3, 4, 4⟩
def state : CtxFld := ⟨3, 2, 0⟩
def incarn : CtxFld := ⟨4, 31, 16⟩
def ksv : CtxFld := ⟨4, 15, 15⟩
def rxfcv : CtxFld := ⟨4, 14, 14⟩
def driftv : CtxFld := ⟨4, 13, 13⟩
def rxasnv : CtxFld := ⟨4, 12, 12⟩
def keySlot : CtxFld := ⟨4, 5, 0⟩
def rxfc : CtxFld := ⟨5, 31, 0⟩
def txfc : CtxFld := ⟨6, 31, 0⟩
def offset : CtxFld := ⟨7, 31, 0⟩
def rate : CtxFld := ⟨8, 31, 0⟩
def adjRef : CtxFld := ⟨9, 31, 0⟩
def lastTb : CtxFld := ⟨10, 31, 0⟩
def lastFine : CtxFld := ⟨11, 31, 26⟩
def lastTbHi : CtxFld := ⟨11, 25, 0⟩
def lastAsn : CtxFld := ⟨12, 31, 0⟩
def lastAsnH : CtxFld := ⟨13, 31, 24⟩
def lqi : CtxFld := ⟨13, 23, 16⟩
def rssi : CtxFld := ⟨13, 15, 8⟩
def noackRun : CtxFld := ⟨13, 7, 0⟩
def rxasn : CtxFld := ⟨14, 31, 0⟩
def rxasnH : CtxFld := ⟨15, 31, 24⟩
def qhead : CtxFld := ⟨16, 19, 3⟩
def qtail : CtxFld := ⟨17, 19, 3⟩
def pending : CtxFld := ⟨18, 15, 0⟩
def mfAsn : CtxFld := ⟨19, 31, 0⟩
def mfAsnH : CtxFld := ⟨20, 31, 24⟩
def mfWin : CtxFld := ⟨20, 23, 12⟩
def mfCnt : CtxFld := ⟨20, 1, 0⟩
def migH : CtxFld := ⟨21, 31, 0⟩
def migHh : CtxFld := ⟨22, 31, 24⟩
def migDst : CtxFld := ⟨22, 2, 0⟩
def rxFrames : CtxFld := ⟨23, 31, 0⟩
def micFails : CtxFld := ⟨24, 31, 16⟩
def stales : CtxFld := ⟨24, 15, 0⟩
def txOk : CtxFld := ⟨25, 31, 16⟩
def txNoack : CtxFld := ⟨25, 15, 0⟩
end Cx

/-! Context states (R227). -/

namespace CtxState
def free : Nat := 0
def learning : Nat := 1
def active : Nat := 2
def suspect : Nat := 3
def dead : Nat := 4
def superseded : Nat := 5
def migrating : Nat := 6
end CtxState

/-- The address of context `n` (R219). -/
def ctxAddr (n : Nat) : Nat := Base.bobbin + 0x80 * n

/-- A field of context `n`. -/
def State.cx (s : State) (n : Nat) (f : CtxFld) : Nat := s.wordBits (ctxAddr n + 4 * f.word) f.hi f.lo

/-- Gives a field of context `n` a value. -/
def setCx (n : Nat) (f : CtxFld) (v : Nat) : Act := setWordBits (ctxAddr n + 4 * f.word) f.hi f.lo v

/-- Adds one to a saturating field of context `n`. -/
def countCx (n : Nat) (f : CtxFld) : Act := look fun s =>
  setCx n f (min (s.cx n f + 1) (2 ^ (f.hi - f.lo + 1) - 1))

/-- The state of context `n`. -/
def State.ctxState (s : State) (n : Nat) : Nat := s.cx n Cx.state

/-- The contexts with a byte that is not 0; every other context is FREE (R219). -/
def State.ctxUsed (s : State) : List Nat :=
  ((s.mem.filter fun c => Base.bobbin ≤ c.1 && c.1 < Base.bobbin + 0x80000).map
    fun c => (c.1 - Base.bobbin) / 0x80).eraseDups

/-- The contexts that are not FREE. -/
def State.ctxHeld (s : State) : List Nat := s.ctxUsed.filter fun n => s.ctxState n != CtxState.free

/-- The lowest-numbered FREE context that is not kept for a context record (R224, R323). -/
def State.ctxFree (s : State) : Option Nat :=
  let held := s.ctxHeld
  firstBelow 4096 fun n => !held.contains n && !s.bob.incoming.any (·.1 == n)

/-- The EUI-64 of context `n`. -/
def State.ctxEui (s : State) (n : Nat) : Nat := s.cx n Cx.euiHi * 2 ^ 32 + s.cx n Cx.euiLo

/-- The context of a VI with an extended key (R221). -/
def State.findExt (s : State) (v eui : Nat) : Option Nat :=
  if eui = 0 then none else s.ctxHeld.find? fun n => s.cx n Cx.vi == v && s.ctxEui n == eui

/-- Whether a state holds a short key (R221). -/
def keepsShort (st : Nat) : Bool := st != CtxState.free && st != CtxState.superseded

/-- The context of a VI with a short key (R221). -/
def State.findShort (s : State) (v pan short : Nat) : Option Nat :=
  if short ≥ 0xFFFE then none
  else s.ctxHeld.find? fun n =>
    keepsShort (s.ctxState n) && s.cx n Cx.vi == v && s.cx n Cx.pan == pan && s.cx n Cx.short == short

/-- Whether a state is one in which frames are sent and a time source counts: LEARNING, ACTIVE, SUSPECT (R231, R239). -/
def ctxLive (st : Nat) : Bool := st == CtxState.learning || st == CtxState.active || st == CtxState.suspect

/-- A field of a context record's words. -/
def wordField (l : List Nat) (f : CtxFld) : Nat := bits (l.getD f.word 0) f.hi f.lo

/-- Whether a VI's extended key is a context's, or is kept for a context record that has been accepted (R221, R323). -/
def State.extTaken (s : State) (v eui : Nat) : Bool :=
  (s.findExt v eui).isSome || (eui != 0 && s.bob.incoming.any fun x =>
    wordField x.2.2 Cx.vi == v && wordField x.2.2 Cx.euiHi * 2 ^ 32 + wordField x.2.2 Cx.euiLo == eui)

/-- Whether a VI's short key is that of a context other than `n`, or is kept for a context record that has been accepted. -/
def State.shortTaken (s : State) (n : Option Nat) (v pan short : Nat) : Bool :=
  (match s.findShort v pan short with | some m => n != some m | none => false)
    || (short < 0xFFFE && s.bob.incoming.any fun x =>
      wordField x.2.2 Cx.vi == v && wordField x.2.2 Cx.pan == pan && wordField x.2.2 Cx.short == short)

/-! Key placement (R223). -/

/-- The bucket for a key, 2048 for the stash: the emptier of its two buckets of 8, or the stash of 32 if both are full. -/
def placeKey (hashKey key : Nat) (l : List (Nat × Nat)) : Option Nat :=
  let a := Config.bobbinHash hashKey key 0 % 2048
  let b := Config.bobbinHash hashKey key 1 % 2048
  let n (x : Nat) := (l.filter (·.2 == x)).length
  if n a < 8 || n b < 8 then some (if n a ≤ n b then a else b)
  else if n 2048 < 32 then some 2048 else none

/-- The number that an extended key is hashed as. -/
def extKey (v eui : Nat) : Nat := v * 2 ^ 64 + eui

/-- The number that a short key is hashed as. -/
def shortKey (v pan short : Nat) : Nat := v * 2 ^ 32 + pan * 2 ^ 16 + short

/-- Takes a context's extended key, or its short key, out of its table. -/
def dropKeys (n : Nat) (ext : Bool) : Act := onBob fun b =>
  if ext then { b with extKeys := b.extKeys.filter (·.1 != n), shortKeys := b.shortKeys.filter (·.1 != n) }
  else { b with shortKeys := b.shortKeys.filter (·.1 != n) }

/-- Places a key for context `n`, and goes on with whether it found a place (R223). -/
def place (n : Nat) (ext : Bool) (key : Nat) (k : Bool → Act) : Act := look fun s =>
  match placeKey s.bob.hashKey key (if ext then s.bob.extKeys else s.bob.shortKeys) with
  | some p => chain [onBob fun b => if ext then { b with extKeys := b.extKeys ++ [(n, p)] }
      else { b with shortKeys := b.shortKeys ++ [(n, p)] }, k true]
  | none => chain [stick BOB.STICKY.HASHOVF, k false]

/-! Transmit queues and completions (R203 to R206). -/

/-- The address of a transmit descriptor. -/
def descAddr (off : Nat) : Nat := Base.fram + off

/-- Whether a range of frame memory lies in a VI's partition (R288). -/
def State.inQuota (s : State) (v off len : Nat) : Bool :=
  let lo := s.get (ten VIF.TENC0.FMBASE v) * 0x2000
  lo ≤ off && off + len ≤ lo + s.get (ten VIF.TENC0.FMSIZE v) * 0x2000 && off + len ≤ 0x100000

/-- Bits [hi:lo] of word `k` of a descriptor. -/
def State.desc (s : State) (off k hi lo : Nat) : Nat := s.wordBits (descAddr off + 4 * k) hi lo

/-- The queue of a kind (0 context, 1 AQ, 2 BQ) of a VI. -/
def State.queue (s : State) (v kind ctx : Nat) : TxQueue :=
  (s.shu.queues.find? fun q => q.vi == v && q.kind == kind && (kind != 0 || q.ctx == ctx)).getD
    { vi := v, kind, ctx := if kind = 0 then ctx else 0 }

/-- Changes a queue. -/
def onQueue (v kind ctx : Nat) (f : TxQueue → TxQueue) : Act := look fun s =>
  let q := s.queue v kind ctx
  onShu fun u => { u with queues :=
    (u.queues.filter fun x => !(x.vi == v && x.kind == kind && x.ctx == q.ctx)) ++ [f q] }

/-- The index in the Pattern RAM of a context's backoff entry (R191, R208). -/
def backoffAt (ctx : Nat) : Nat := 0x5000 + ctx

/-- BE and BC of a queue (R208). -/
def State.backoff (s : State) (q : TxQueue) : Nat × Nat :=
  if q.kind = 0 then
    let w := Sparse.get (fun _ => 0) s.pat (backoffAt q.ctx)
    (bits w 10 8, bits w 6 0)
  else (q.be, q.bc)

/-- Gives a queue its BE and BC. -/
def setBackoff (v kind ctx be bc : Nat) : Act :=
  if kind = 0 then fun _ => [.pat (backoffAt ctx) (be * 256 + bc)]
  else chain [journal, onQueue v kind ctx fun q => { q with be, bc }]

/-- A queue's backoff starts again at MINBE and 0 (R208). -/
def resetBackoff (v kind ctx : Nat) : Act := look fun s => setBackoff v kind ctx (s.get (SHU.BOFF.MINBE.copy v)) 0

/-- QHEAD and QTAIL of a context follow its queue (R220). -/
def showQueue (v ctx : Nat) : Act := look fun s =>
  let q := (s.queue v 0 ctx).descs
  chain [setCx ctx Cx.qhead ((q.head?.map (·.off)).getD 0 / 8), setCx ctx Cx.qtail ((q.getLast?.map (·.off)).getD 0 / 8)]

/-- Pushes an entry into a VI's completion FIFO of 32, or counts it lost (R206). -/
def pushDone (v status off : Nat) : Act := look fun s =>
  chain [journal, stickV SHU.STICKY.TXDONE v,
    if (s.shu.done.filter (·.1 == v)).length < 32 then onShu fun u => { u with done := u.done ++ [(v, status, off)] }
    else chain [count (SHU.QCNT.DONELOST.copy v), stickV SHU.STICKY.DONEOVF v]]

/-- A descriptor completes: words 0 and 4 to 7 are written where it lies in the VI's quota, and its entry is pushed. With
no attempt made, words 4 to 7 are 0 (R204, R206). -/
def writeDone (v status : Nat) (e : TxEntry) : Act := look fun s =>
  let a := descAddr e.off
  chain [
    whenA (s.inQuota v e.off 32)
      (chain [setWordBits a 31 24 status, setWordBits a 23 23 1, setWordBits a 22 19 e.tries,
        if e.tries == 0 then setBytes (a + 16) 16 0
        else chain [setWord (a + 16) (e.tb % 2 ^ 32), setWord (a + 20) (e.fine * 2 ^ 26 + e.tb / 2 ^ 32 % 2 ^ 26),
          setWord (a + 24) (e.asn % 2 ^ 32), setWord (a + 28) (e.asn / 2 ^ 32 * 2 ^ 24)]]),
    pushDone v status e.off]

/-- The entry of a queue leaves it and completes. PENDING of its context falls for queues 0 and 1, the context's counters
count OK and NOACK, and a queue that becomes empty starts its backoff again (R204, R206, R208, R229). -/
def completeTx (v kind ctx : Nat) (e : TxEntry) (status : Nat) : Act := look fun s =>
  let c := if kind = 0 then ctx else s.desc e.off 2 11 0
  chain [journal, onQueue v kind ctx fun q => { q with descs := q.descs.filter (·.off != e.off) },
    writeDone v status e,
    whenA (kind != 2 && s.ctxState c != 0) (chain [journal, setCx c Cx.pending (s.cx c Cx.pending - 1),
      whenA (status == Status.ok) (countCx c Cx.txOk),
      whenA (status == Status.noack) (chain [countCx c Cx.txNoack, countCx c Cx.noackRun])]),
    whenA (kind = 0 && s.ctxState c != 0) (showQueue v ctx),
    look fun s => whenA (s.queue v kind ctx).descs.isEmpty (resetBackoff v kind ctx)]

/-- The descriptors still queued for a context complete with NOCTX: its own queue, then the AQ entries that name it (R231). -/
def flushCtx (n : Nat) : Act := look fun s =>
  let v := s.cx n Cx.vi
  chain [eachA (s.queue v 0 n).descs fun e => completeTx v 0 n e Status.noCtx,
    eachA ((s.queue v 1 0).descs.filter fun e => s.desc e.off 2 11 0 == n) fun e => completeTx v 1 0 e Status.noCtx,
    setCx n Cx.pending 0]

/-! States of a context (R228). -/

/-- Whether the lockstep pair runs: RUN is 1, no restore is in progress and no fence closes MAC (R335, R339, R472). -/
def State.pairRuns (s : State) : Bool :=
  s.is SHU.CTRL.RUN && s.shu.pair.stage == 0 && s.reachable Dom.mac && !s.clk.gated

/-- The timing VI (R210). -/
def State.tvi (s : State) : Nat := s.get SHU.CTRL.TVI

/-- The time source leaves its live states: TSV clears and TSLOST is set (R239). -/
def loseTimeSource (n : Nat) : Act := look fun s =>
  whenA (s.is (SHU.VISTAT.TSV.copy s.tvi) && s.get (SHU.VISTAT.TSCTX.copy s.tvi) == n)
    (chain [journal, put (SHU.VISTAT.TSV.copy s.tvi) 0, stickV BOB.STICKY.TSLOST s.tvi])

/-- Context `n` enters a state, with the effects of R228, R231 and R239. FREE takes its keys and sets every word to 0. -/
def ctxEnter (n st : Nat) : Act := look fun s =>
  let v := s.cx n Cx.vi
  chain [whenA (ctxLive (s.ctxState n) && !ctxLive st) (loseTimeSource n),
    whenA (st == CtxState.suspect) (stickV BOB.STICKY.SUSPECT v),
    whenA (st == CtxState.dead) (stickV BOB.STICKY.DEAD v),
    whenA (st == CtxState.dead || st == CtxState.superseded || st == CtxState.free) (flushCtx n),
    if st == CtxState.free then
      chain [dropKeys n true, wipe (ctxAddr n) (ctxAddr (n + 1)), fun _ => [.pat (backoffAt n) 0],
        onShu fun u => { u with queues := u.queues.filter fun q => !(q.kind == 0 && q.ctx == n) },
        onBob fun b => { b with
          restart := b.restart.filter (· != n)
          seen := b.seen.filter (·.ctx != n)
          handovers := b.handovers.filter (·.1 != n) }]
    else setCx n Cx.state st]

/-- LASTASN and LASTASNH of a context (R229). -/
def setLastAsn (n asn : Nat) : Act :=
  chain [setCx n Cx.lastAsn (asn % 2 ^ 32), setCx n Cx.lastAsnH (asn / 2 ^ 32 % 256),
    onBob fun b => { b with restart := b.restart.filter (· != n) }]

/-- A context is heard in a slot (R228, R229). -/
def ctxHeard (n asn : Nat) (rssi : Int) (lqi : Nat) : Act := look fun s =>
  chain [setLastAsn n asn, setCx n Cx.rssi (ofS 8 rssi), setCx n Cx.lqi lqi, countCx n Cx.rxFrames,
    setCx n Cx.noackRun 0, whenA (s.ctxState n == CtxState.suspect) (ctxEnter n CtxState.active)]

/-- The cascade member number of this device, 0 outside a cascade (R220). -/
def State.member (s : State) : Nat := s.get CAS.STAT.MEMBER

/-- The contexts that a VI holds against CTXQ (R288). -/
def State.ctxUse (s : State) (v : Nat) : Nat := (s.ctxHeld.filter fun n => s.cx n Cx.vi == v).length

/-- No context can be given: CTXFULLN of the VI counts and CTXFULL is set (R225). -/
def ctxFull (v : Nat) : Act := chain [count (BOB.CTXFULLN.CNT.copy v), stickV BOB.STICKY.CTXFULL v]

/-- A new context of a VI in a FREE place: its fields as R224 step 2 or ALLOC gives them and every other field 0, its keys
placed, its backoff entry started. Goes on with whether its keys found a place; where they did not, nothing is left of it. -/
def ctxCreate (n v eui pan short st learnt asn : Nat) (k : Bool → Act) : Act :=
  let fill : Act := look fun s => chain [wipe (ctxAddr n) (ctxAddr (n + 1)), setCx n Cx.euiLo (eui % 2 ^ 32), setCx n Cx.euiHi (eui / 2 ^ 32), setCx n Cx.pan pan,
    setCx n Cx.short short, setCx n Cx.vi v, setCx n Cx.ownMem s.member, setCx n Cx.learnt learnt, setCx n Cx.state st,
    setLastAsn n asn, resetBackoff v 0 n]
  let undo : Act := chain [dropKeys n true, k false]
  let placeShort : Act := if short < 0xFFFE then place n false (shortKey v pan short) fun ok =>
      if ok then chain [fill, k true] else undo
    else chain [fill, k true]
  if eui = 0 then placeShort
  else place n true (extKey v eui) fun ok => if ok then placeShort else undo

/-- The creation rule for a frame with an extended source address (R224), going on with the context given. A key that is kept for
a context record gives none (notes/assumptions/62.md, DESIGN CHOICE). -/
def ctxLearn (v eui pan asn : Nat) (k : Option Nat → Act) : Act := look fun s =>
  match s.findExt v eui with
  | some n =>
    if s.ctxState n == CtxState.dead then
      chain [ctxEnter n CtxState.learning, setCx n Cx.driftv 0, setCx n Cx.noackRun 0, setCx n Cx.mfCnt 0,
        setCx n Cx.collide 0, setLastAsn n asn, stickV BOB.STICKY.REVIVE v, k (some n)]
    else k (some n)
  | none =>
    match s.ctxFree with
    | some n =>
      if s.ctxUse v < s.get (ten VIF.TENB0.CTXQ v) && !s.extTaken v eui then
        ctxCreate n v eui pan 0xFFFE CtxState.learning 1 asn fun ok =>
          if ok then k (some n) else chain [ctxFull v, k none]
      else chain [ctxFull v, k none]
    | none => chain [ctxFull v, k none]

/-! Frame counters (R232 to R234). -/

/-- Whether a received counter is accepted by a context (R232). -/
def State.counterFresh (s : State) (n c : Nat) : Bool :=
  c != 0xFFFFFFFF && !(s.cx n Cx.rxfcv == 1 && c ≤ s.cx n Cx.rxfc)

/-- Whether the ASN of a frame with a suppressed counter is accepted (R233). -/
def State.asnFresh (s : State) (n asn : Nat) : Bool :=
  !(s.cx n Cx.rxasnv == 1 && asn ≤ s.cx n Cx.rxasnH * 2 ^ 32 + s.cx n Cx.rxasn)

/-- A counter, or the ASN, is accepted and stored (R232, R233). -/
def acceptCounter (n : Nat) (c : Option Nat) (asn : Nat) : Act :=
  match c with
  | some c => chain [setCx n Cx.rxfc c, setCx n Cx.rxfcv 1]
  | none => chain [setCx n Cx.rxasn (asn % 2 ^ 32), setCx n Cx.rxasnH (asn / 2 ^ 32), setCx n Cx.rxasnv 1]

/-- Takes a context's TX frame counter, or finds it exhausted with FCEXH (R234). -/
def takeCounter (n : Nat) (k : Option Nat → Act) : Act := look fun s =>
  let c := s.cx n Cx.txfc
  if c == 0xFFFFFFFF then chain [stickV BOB.STICKY.FCEXH (s.cx n Cx.vi), k none]
  else chain [setCx n Cx.txfc (c + 1), k (some c)]

/-! Drift and the time source (R235 to R239). -/

/-- Integer division rounded to the nearest, halves away from zero, by a positive divisor. -/
def roundAway (a : Int) (b : Nat) : Int :=
  let q : Int := (2 * a.natAbs + b) / (2 * b)
  if a < 0 then -q else q

/-- Limits a value to a signed 32-bit field. -/
def sat32 (i : Int) : Int := clampS (-2147483648) 2147483647 i

/-- The drift update of a context for a measurement δ in fine units, with its stamp in fine units (R236). -/
def driftUpdate (n : Nat) (delta : Int) (stamp : Nat) : Act := look fun s =>
  let d : Int := 65536000000
  let last : Nat := (s.cx n Cx.lastTbHi * 2 ^ 32 + s.cx n Cx.lastTb) * 64 + s.cx n Cx.lastFine
  let dt : Int := (stamp : Int) - (last : Int)
  let offset := toS 32 (s.cx n Cx.offset)
  let rate := toS 32 (s.cx n Cx.rate)
  let moved := toS 32 ((s.get BOB.ADJACC.ACC + 2 ^ 32 - s.cx n Cx.adjRef) % 2 ^ 32)
  let pred := offset * d + rate * dt - 64 * moved * d
  let e := delta * d - pred
  let ka : Nat := 2 ^ s.get BOB.DRIFT.KA
  let kb : Nat := 2 ^ s.get BOB.DRIFT.KB
  chain [
    if s.cx n Cx.driftv == 0 then setCx n Cx.offset (ofS 32 (sat32 delta))
    else chain [setCx n Cx.offset (ofS 32 (sat32 (roundAway (pred * ka + e) (65536000000 * ka)))),
      whenA (dt ≥ 256000000)
        (setCx n Cx.rate (ofS 32 (sat32 (roundAway (rate * dt * kb + e) (dt.toNat * kb)))))],
    setCx n Cx.adjRef (s.get BOB.ADJACC.ACC),
    setCx n Cx.lastTb (stamp / 64 % 2 ^ 32), setCx n Cx.lastTbHi (stamp / 64 / 2 ^ 32 % 2 ^ 26), setCx n Cx.lastFine (stamp % 64),
    setCx n Cx.driftv 1]

/-- The Shuttle follows its time source: δ from a context, `counts` saying that it came from a beacon or from a cell with TK
of the timing VI. The first δ clears TBEST, whatever its size (R58, R238). -/
def followTime (n : Nat) (delta : Int) (counts : Bool) : Act := look fun s =>
  let t := s.tvi
  whenA (s.pairRuns && s.is (SHU.VISTAT.TSV.copy t) && s.get (SHU.VISTAT.TSCTX.copy t) == n)
    (chain [put CLK.STAT.TBEST 0,
      whenA (!s.slaved && s.get (SHU.VISTAT.STATE.copy t) == 4 && ctxLive (s.ctxState n) && counts
          && delta.natAbs ≥ s.get BOB.DRIFT.TSDEAD) (adjustTick (roundAway delta 64))])

/-! Collisions (R248). -/

/-- A MIC failure of a frame with result HIT: `win` is the LEN of its cell's slotframe, or COLCFG.WIN (R248). -/
def micFailed (n asn win : Nat) : Act := look fun s =>
  let cnt := s.cx n Cx.mfCnt
  let since := (asn + 2 ^ 40 - (s.cx n Cx.mfAsnH * 2 ^ 32 + s.cx n Cx.mfAsn)) % 2 ^ 40
  chain [countCx n Cx.micFails,
    if cnt == 0 || since ≥ s.cx n Cx.mfWin then
      chain [setCx n Cx.mfAsn (asn % 2 ^ 32), setCx n Cx.mfAsnH (asn / 2 ^ 32), setCx n Cx.mfCnt 1, setCx n Cx.mfWin win]
    else if cnt == 2 then chain [setCx n Cx.collide 1, stickV BOB.STICKY.COLLIDE (s.cx n Cx.vi), setCx n Cx.mfCnt 0]
    else setCx n Cx.mfCnt (cnt + 1)]

/-! The lease record (R244, R245). -/

/-- The lease copies in MRAM. -/
def leaseCopies : List Nat := [0x2803FFC0, 0x2803FFE0]

/-- Whether a 32-byte record ends in the CRC-32 of the bytes before it. -/
def State.crcGood (s : State) (a : Nat) : Bool := crc32 (s.octets a 28) == s.word (a + 28)

/-- Whether a lease copy is valid. -/
def State.leaseValid (s : State) (a : Nat) : Bool := s.word a == 0x4C454153 && s.crcGood a

/-- The governing one of two copies: the valid one with the larger SEQ, which stands at offset `seq`. -/
def State.governing (s : State) (valid : Nat → Bool) (seq a b : Nat) : Option Nat :=
  match valid a, valid b with
  | true, true => some (if s.word (b + seq) > s.word (a + seq) then b else a)
  | true, false => some a
  | false, true => some b
  | false, false => none

/-- The governing lease copy. -/
def State.lease (s : State) : Option Nat := s.governing s.leaseValid 12 0x2803FFC0 0x2803FFE0

/-- Writes a lease copy over the one that does not govern (R244). -/
def writeLease (len heard incarn : Nat) : Act := look fun s =>
  let a := if s.lease == some 0x2803FFC0 then 0x2803FFE0 else 0x2803FFC0
  let seq := match s.lease with | some g => s.word (g + 12) + 1 | none => 1
  let body := leOctets 4 0x4C454153 ++ leOctets 4 len ++ leOctets 4 heard ++ leOctets 4 seq ++ leOctets 2 incarn
    ++ List.replicate 10 0
  setOctets a (body ++ leOctets 4 (crc32 body))

/-- A confirmation: a secured, verified and fresh frame or acknowledgement from the timing VI's time source (R244, R247). -/
def confirmation (n : Nat) : Act := look fun s =>
  whenA (s.is (SHU.VISTAT.TSV.copy s.tvi) && s.get (SHU.VISTAT.TSCTX.copy s.tvi) == n)
    (chain [
      whenA (s.is BOB.CTRL.RJONLY) (put BOB.STAT.RJCONF 1),
      whenA (s.bob.leaseNow || (s.get BOB.LEASELEN.SEC != 0
          && (match s.bob.leaseAt with | some t => s.tb ≥ t + 256000000 | none => true)))
        (chain [writeLease (s.get BOB.LEASELEN.SEC) (s.get PWR.RTCSEC.SEC) (s.get BOB.OWNINC.INC),
          onBob fun b => { b with leaseAt := some s.tb, leaseNow := false }])])

/-! The sweep (R230). -/

/-- A change of the ASN restarts the silence of every context (R230). -/
def restartSilence (asn : Nat) : Act := look fun s => onBob fun b => { b with restart := s.ctxHeld, from_ := asn }

/-- The sweep of one context. -/
def sweepCtx (n : Nat) : Act := chain [
  look fun s => whenA (s.bob.restart.contains n) (setLastAsn n s.bob.from_),
  look fun s =>
    let st := s.ctxState n
    let silence := (s.clk.asn + 2 ^ 40 - (s.cx n Cx.lastAsnH * 2 ^ 32 + s.cx n Cx.lastAsn)) % 2 ^ 40
    if silence ≥ s.get BOB.DEAD.DEADN then
      if st == CtxState.learning then ctxEnter n CtxState.free
      else whenA (st == CtxState.active || st == CtxState.suspect) (ctxEnter n CtxState.dead)
    else whenA (st == CtxState.active && silence ≥ s.get BOB.SUSP.SUSPN) (ctxEnter n CtxState.suspect)]

/-- The liveness sweep of a slot: the 256 contexts of ASN mod 16 (R230). While SWEEP is 0 no silence transition occurs. -/
def execLivenessSweep (s : State) : Host.Outcome State Fault Refusal :=
  act (look fun s => whenA (s.domOn Dom.mac && s.is SHU.CTRL.RUN && s.is BOB.CTRL.SWEEP)
    (eachA (s.ctxHeld.filter fun n => n / 256 == s.clk.asn % 16) sweepCtx)) s

/-- NOACKRUN of an ACTIVE context has reached NOACKMAX (R228). -/
def execNoackmaxReached (n : Fin 4096) (s : State) : Host.Outcome State Fault Refusal :=
  act (look fun s => whenA (s.domOn Dom.mac && s.ctxState n == CtxState.active
      && s.cx n Cx.noackRun ≥ s.get BOB.SUSP.NOACKMAX)
    (ctxEnter n CtxState.suspect)) s

/-! Rejoin-only (R246, R247). -/

/-- A write of BOB.CTRL: SWEEP; RJONLY, which also makes the first confirmation's lease write due; RJCLR, which needs
RJCONF (R244, R246, R247). -/
def writeBobCtrl (w : Nat) : Act := look fun s =>
  chain [put BOB.CTRL.SWEEP (bitOf w 0),
    whenA (bitOf w 1 == 1 && !s.is BOB.CTRL.RJONLY)
      (chain [put BOB.CTRL.RJONLY 1, put BOB.STAT.RJCONF 0, onBob fun b => { b with leaseNow := true }]),
    whenA (bitOf w 2 == 1)
      (if s.is BOB.STAT.RJCONF then
        chain [put BOB.CTRL.RJONLY 0, put BOB.STAT.RJCONF 0, onBob fun b => { b with leaseNow := false }]
      else stick BOB.STICKY.CMDREF)]

/-- A write of 1 to RJONLY, with the register's other bits (R246). -/
def execRjonlySet (i : Initiator) (w : Word) (s : State) : Host.Outcome State Fault Refusal :=
  act (atRegister i 0 BOB.CTRL true (writeBobCtrl (w ||| 2#32).toNat)) s

/-- A write of 1 to RJCLR, with the register's other bits (R247). -/
def execRjclr (i : Initiator) (w : Word) (s : State) : Host.Outcome State Fault Refusal :=
  act (atRegister i 0 BOB.CTRL true (writeBobCtrl (w ||| 4#32).toNat)) s

/-! Commands (R254, R255). -/

/-- A command of view `v` ends with a status; a refusal for state, arguments or a duplicate key sets CMDREF (R254). -/
def cmdEnd (v ctx status : Nat) : Act :=
  chain [put (BOB.CMDSTAT.STATUS.copy v) status, put (BOB.CMDSTAT.CTX.copy v) ctx,
    whenA (status == Status.rsvdOp) (stickV BOB.STICKY.CMDREF v)]

/-- A command on a context: PROTECTED where the viewing VI does not own it, RSVD_OP where its state does not take the
command, else its effect (R254). -/
def onCtx (v n : Nat) (ok : State → Bool) (effect : Act) : Act := look fun s =>
  if s.ctxState n == CtxState.free || s.cx n Cx.vi != v then cmdEnd v n Status.prot
  else if !ok s then cmdEnd v n Status.rsvdOp
  else chain [effect, cmdEnd v n Status.ok]

/-- Argument `k` of view `v`. -/
def State.ctxArg (s : State) (v k : Nat) : Nat := s.get ((BOB.ARG.A.i k).copy v)

/-- ALLOC: of a store or quota that is full and a duplicate key, CTXFULL is the lower code (R30, R255). -/
def allocCtx (v : Nat) : Act := look fun s =>
  let eui := s.ctxArg v 1 * 2 ^ 32 + s.ctxArg v 0
  let pan := bits (s.ctxArg v 2) 31 16
  let short := bits (s.ctxArg v 2) 15 0
  let a := s.ctxArg v 3
  match s.ctxFree with
    | some n =>
      if s.ctxUse v < s.get (ten VIF.TENB0.CTXQ v) then
        if s.extTaken v eui || s.shortTaken none v pan short then cmdEnd v 0 Status.rsvdOp
        else ctxCreate n v eui pan short (if bitOf a 31 == 1 then CtxState.active else CtxState.learning) 0 s.clk.asn fun ok =>
          if ok then chain [setCx n Cx.ksv (bitOf a 30), setCx n Cx.keySlot (bits a 5 0), cmdEnd v n Status.ok]
          else chain [ctxFull v, cmdEnd v 0 Status.ctxFull]
      else chain [ctxFull v, cmdEnd v 0 Status.ctxFull]
    | none => chain [ctxFull v, cmdEnd v 0 Status.ctxFull]

/-- ACTIVATE (R255). -/
def activateCtx (v n : Nat) : Act :=
  onCtx v n (fun s => s.ctxState n == CtxState.learning || s.ctxState n == CtxState.dead)
    (look fun s => chain [whenA (s.ctxState n == CtxState.dead) (setLastAsn n s.clk.asn), ctxEnter n CtxState.active])

/-- SETSHORT: the short key moves, or the command is refused where the new one finds no place, which counts under R225 (R223,
R255). -/
def setShortCtx (v n : Nat) : Act := look fun s =>
  let pan := bits (s.ctxArg v 2) 31 16
  let short := bits (s.ctxArg v 2) 15 0
  let taken := s.shortTaken (some n) v pan short
  let write : Act := chain [setCx n Cx.pan pan, setCx n Cx.short short, cmdEnd v n Status.ok]
  let dropOld : Act := whenA (s.cx n Cx.short < 0xFFFE)
    (onBob fun b => { b with shortKeys := b.shortKeys.eraseP (·.1 == n) })
  if s.ctxState n == CtxState.free || s.cx n Cx.vi != v then cmdEnd v n Status.prot
  else if !keepsShort (s.ctxState n) || s.ctxState n == CtxState.migrating || taken then cmdEnd v n Status.rsvdOp
  else if short < 0xFFFE then place n false (shortKey v pan short) fun ok =>
    if ok then chain [dropOld, write] else chain [ctxFull v, cmdEnd v n Status.rsvdOp]
  else chain [dropOld, write]

/-- SETKEY: a new key slot takes the counters to 0 (R234, R255). -/
def setKeyCtx (v n : Nat) : Act := look fun s =>
  let a := s.ctxArg v 3
  onCtx v n (fun _ => true) (look fun s =>
    chain [whenA (s.cx n Cx.keySlot != bits a 5 0)
        (chain [setCx n Cx.rxfc 0, setCx n Cx.txfc 0, setCx n Cx.rxasn 0, setCx n Cx.rxasnH 0, setCx n Cx.rxfcv 0,
          setCx n Cx.rxasnv 0]),
      setCx n Cx.ksv (bitOf a 30), setCx n Cx.keySlot (bits a 5 0)])

/-- DECLDEAD (R255). -/
def declDeadCtx (v n : Nat) : Act := onCtx v n (fun s => ctxLive (s.ctxState n)) (ctxEnter n CtxState.dead)

/-- Whether a context may be the spare of a SUPERSEDE (R240). -/
def State.spareOk (s : State) (v m : Nat) : Bool :=
  s.cx m Cx.vi == v && (s.ctxState m == CtxState.learning || s.ctxState m == CtxState.active)
    && s.cx m Cx.short == 0xFFFE

/-- SUPERSEDE: the context becomes a tombstone, and a named spare takes its SHORT and PAN (R240). -/
def supersedeCtx (v n : Nat) : Act := look fun s =>
  let a := s.ctxArg v 0
  let m := bits a 11 0
  let named := bitOf a 31 == 1
  onCtx v n (fun s => (ctxLive (s.ctxState n) || s.ctxState n == CtxState.dead)
      && (!named || (m != n && s.spareOk v m)))
    (look fun s =>
      let short := s.cx n Cx.short
      let pan := s.cx n Cx.pan
      chain [ctxEnter n CtxState.superseded, dropKeys n false, setCx n Cx.short 0xFFFE,
        whenA named (chain [setCx m Cx.short short, setCx m Cx.pan pan,
          whenA (short < 0xFFFE) (place m false (shortKey v pan short) fun _ => skip)])])

/-- FREE (R255). -/
def freeCtx (v n : Nat) : Act := onCtx v n (fun s => s.ctxState n != CtxState.migrating) (ctxEnter n CtxState.free)

/-- CLRCOL (R255). -/
def clearCollision (v n : Nat) : Act := onCtx v n (fun _ => true) (chain [setCx n Cx.collide 0, setCx n Cx.mfCnt 0])

/-- SETTS (R255). -/
def setTimeSource (v n : Nat) : Act :=
  onCtx v n (fun s => v == s.tvi && ctxLive (s.ctxState n))
    (chain [journal, put (SHU.VISTAT.TSCTX.copy v) n, put (SHU.VISTAT.TSV.copy v) 1])

/-- HANDOVER: the destination and the slot H are noted; the state changes at the tick of H (R249, R250). -/
def handoverCtx (v n : Nat) : Act := look fun s =>
  let h := bits (s.ctxArg v 2) 7 0 * 2 ^ 32 + s.ctxArg v 1
  onCtx v n (fun s => s.is CLK.STAT.CASSYNC && ctxLive (s.ctxState n) && s.cx n Cx.pending == 0 && h ≥ s.clk.asn + 2)
    (chain [setCx n Cx.migH (h % 2 ^ 32), setCx n Cx.migHh (h / 2 ^ 32), setCx n Cx.migDst (bits (s.ctxArg v 0) 2 0),
      onBob fun b => { b with handovers := b.handovers.filter (·.1 != n) ++ [(n, 0)] }])

/-- READ (R255). -/
def readCtx (v n : Nat) : Act :=
  onCtx v n (fun _ => true) (look fun s =>
    eachA (List.range 32) fun k => put ((BOB.CTXBUF.W.i k).copy v) (s.word (ctxAddr n + 4 * k)))

/-- The command of an operation code (R255); codes 0x0 and 0xC to 0xF are reserved (R23). -/
def bobCommand (v op n : Nat) : Act :=
  match op with
  | 1 => allocCtx v
  | 2 => activateCtx v n
  | 3 => setShortCtx v n
  | 4 => setKeyCtx v n
  | 5 => declDeadCtx v n
  | 6 => supersedeCtx v n
  | 7 => freeCtx v n
  | 8 => clearCollision v n
  | 9 => setTimeSource v n
  | 10 => handoverCtx v n
  | 11 => readCtx v n
  | _ => stickV BOB.STICKY.RSVD v

/-- Whether a command of view `v` waits for the lockstep pair or for a repair: CMDSTAT.BUSY (R254, R341, R345). -/
def State.bobBusy (s : State) (v : Nat) : Bool :=
  s.bus.waiting.any fun x => x.view == v && x.key == BOB.CMD.key && x.word.isSome

/-- A command of view `v`: ignored with CMDREF while one of the view waits, else it waits for the lockstep pair or for a repair
of its context, or runs (R254, R341, R345). -/
def takeBobCmd (i : Initiator) (v op n : Nat) : Act := look fun s =>
  if s.bobBusy v then stickV BOB.STICKY.CMDREF v
  else if s.shu.pair.stage != 0 || s.bob.repairs.any fun r => r.what == 2 || r.ctx == n then
    onBus fun b => { b with waiting := b.waiting ++ [{ ini := i, view := v, key := BOB.CMD.key, word := some (op * 2 ^ 28 + n) }] }
  else bobCommand v op n

/-- A write of BOB.CMD through view `v` with an operation and a context. -/
def atBobCmd (i : Initiator) (v op n : Nat) : Act := atRegister i v BOB.CMD true (takeBobCmd i v op n)

/-- ALLOC (R255). -/
def execAlloc (i : Initiator) (v : Fin 16) (s : State) : Host.Outcome State Fault Refusal :=
  act (atBobCmd i v 1 0) s

/-- ACTIVATE of a context (R255). -/
def execContextActivate (i : Initiator) (v : Fin 16) (n : Fin 4096) (s : State) : Host.Outcome State Fault Refusal :=
  act (atBobCmd i v 2 n) s

/-- SETSHORT (R255). -/
def execSetshort (i : Initiator) (v : Fin 16) (n : Fin 4096) (s : State) : Host.Outcome State Fault Refusal :=
  act (atBobCmd i v 3 n) s

/-- SETKEY (R255). -/
def execSetkey (i : Initiator) (v : Fin 16) (n : Fin 4096) (s : State) : Host.Outcome State Fault Refusal :=
  act (atBobCmd i v 4 n) s

/-- DECLDEAD (R255). -/
def execDecldead (i : Initiator) (v : Fin 16) (n : Fin 4096) (s : State) : Host.Outcome State Fault Refusal :=
  act (atBobCmd i v 5 n) s

/-- SUPERSEDE (R255). -/
def execSupersede (i : Initiator) (v : Fin 16) (n : Fin 4096) (s : State) : Host.Outcome State Fault Refusal :=
  act (atBobCmd i v 6 n) s

/-- FREE (R255). -/
def execFree (i : Initiator) (v : Fin 16) (n : Fin 4096) (s : State) : Host.Outcome State Fault Refusal :=
  act (atBobCmd i v 7 n) s

/-- CLRCOL (R255). -/
def execClrcol (i : Initiator) (v : Fin 16) (n : Fin 4096) (s : State) : Host.Outcome State Fault Refusal :=
  act (atBobCmd i v 8 n) s

/-- SETTS (R255). -/
def execSetts (i : Initiator) (v : Fin 16) (n : Fin 4096) (s : State) : Host.Outcome State Fault Refusal :=
  act (atBobCmd i v 9 n) s

/-- HANDOVER (R255). -/
def execHandover (i : Initiator) (v : Fin 16) (n : Fin 4096) (s : State) : Host.Outcome State Fault Refusal :=
  act (atBobCmd i v 10 n) s

/-- READ (R255). -/
def execRead (i : Initiator) (v : Fin 16) (n : Fin 4096) (s : State) : Host.Outcome State Fault Refusal :=
  act (atBobCmd i v 11 n) s

/-! Writes of the page with values reserved in the present state. -/

/-- A write of SUSP or DEAD: a DEADN below SUSPN is reserved (R256). -/
def writeDead (w : Nat) : Act := look fun s =>
  judgedWrite BOB.DEAD.key 0 w fun _ x => x < s.get BOB.SUSP.SUSPN

end Sys2Proof.Machine
end

