-- ==== Sys2Proof/Machine/Keys.lean ====
section
/-! DEFINITION. The key slots and their changes (R365 to R369), the entropy source and its pool (R370, R371). -/

namespace Sys2Proof.Machine

/-! Slots (R366, R367). -/

/-- A slot's key. -/
def State.keyOf (s : State) (n : Nat) : List Nat := s.key.keys.getD n []

/-- Whether a slot is LOADED. -/
def State.loaded (s : State) (n : Nat) : Bool := s.get (KEY.KS.STATE.i n) == 1

/-- Whether a slot carries a usage flag. -/
def State.keyFlag (s : State) (n flag : Nat) : Bool := bitOf (s.get (KEY.KS.FLAGS.i n)) flag == 1

/-- Whether a slot is LOADED and owned by a VI. -/
def State.ownsKey (s : State) (v n : Nat) : Bool := s.loaded n && s.get (KEY.KS.VI.i n) == v

/-- The slots that a VI holds against KEYQ (R288). -/
def State.keyUse (s : State) (v : Nat) : Nat := ((List.range 64).filter (s.ownsKey v)).length

/-- The attributes of a LOADED slot. -/
def keyAttrs (v size origin perm auth flags : Nat) : Nat :=
  2 ^ 30 + v * 2 ^ 26 + size * 2 ^ 25 + origin * 2 ^ 24 + perm * 2 ^ 16 + auth * 2 ^ 12 + flags

/-- A slot's change takes effect; a KCMD erase then completes (R369). -/
def keySet (c : KeyChange) : Act := look fun s => chain [
  put { (KEY.KS.i c.slot) with lo := 0, width := 32 } c.attrs, onKey fun k => { k with keys := k.keys.set c.slot c.key },
  whenA c.kcmd (chain [put KEY.KSTAT.BUSY 0, put KEY.KSTAT.STATUS Status.ok,
    stickV KEY.STICKY.ERASED (s.get (KEY.KS.VI.i c.slot))])]

/-- A slot changes: at once, or when the running job that uses it ends (R368). An erased slot is ZEROING until then. -/
def keyChange (inUse : Nat → Bool) (c : KeyChange) : Act :=
  if inUse c.slot then chain [onSec fun e => { e with changes := e.changes ++ [c] },
    whenA c.key.isEmpty (put (KEY.KS.STATE.i c.slot) 2), whenA c.kcmd (put KEY.KSTAT.BUSY 1)]
  else keySet c

/-- The changes whose slots no running job uses any more take effect. -/
def keysSettle (inUse : Nat → Bool) : Act := look fun s =>
  chain [onSec fun e => { e with changes := e.changes.filter fun c => inUse c.slot },
    eachA (s.sec.changes.filter fun c => !inUse c.slot) keySet]

/-- Whether the software job that runs uses a slot: its own, or the target of a wrap or unwrap. -/
def State.softUses (s : State) (n : Nat) : Bool :=
  match s.sec.jobs.head? with
  | some j => bits j.cfg 21 16 == n || (6 ≤ bits j.cfg 31 28 && bits j.key 21 16 == n)
  | none => false

/-! Entropy (R360, R370, R371). -/

/-- ENTSTAT.AVAIL follows the pool. -/
def showPool : Act := look fun s => put SEC.ENTSTAT.AVAIL s.sec.pool.length

/-- The mask generator takes 256 bits from the pool `n` times, unless the source has failed (R360, R371). -/
def reseeds (n : Nat) : Act := look fun s => whenA (s.get SEC.ENTSTAT.STATE != 2)
  (chain [onSec fun e => { e with pool := e.pool.drop (8 * n) }, showPool])

/-- The reseeding at a job's start (R360). -/
def reseed : Act := reseeds 1

/-- The reseedings of a job after its start, one after every 64 blocks, taken when it ends (R360). -/
def reseedsOf (blocks : Nat) : Act := whenA (64 ≤ blocks) (reseeds (blocks / 64))

/-- The AES blocks of a CCM* job over `a` octets of associated data and `m` of message (R174). -/
def ccmBlocks (a m : Nat) : Nat := 3 + ceilDiv (a + 2) 16 + 2 * ceilDiv m 16

/-- The source starts up (R370). -/
def entropyStart : Act := chain [
  put SEC.ENTSTAT.STATE 0, put SEC.STAT.MASKDEG 0, onSec fun e => { e with raw := 0, fails := [] }]

/-- A write of ENTCTRL (R370). -/
def writeEntctrl (w : Nat) : Act := whenA (bitOf w 0 == 1) entropyStart

/-- A write of 1 to ENTCTRL.RESTART. -/
def execEntropyRestart (i : Initiator) (s : State) : Host.Outcome State Fault Refusal :=
  act (atRegister i 0 SEC.ENTCTRL true (writeEntctrl 1)) s

/-- The start-up test over 1024 bits ends (R370). -/
def execEntropyStartupDone (s : State) : Host.Outcome State Fault Refusal :=
  act (look fun s => whenA (s.domOn Dom.core && s.get SEC.ENTSTAT.STATE == 0)
    (chain [put SEC.ENTSTAT.STATE 1, onSec fun e => { e with raw := 1024 }])) s

/-- Conditioned words, whose values are free, join the pool of 32. -/
def poolFill : Nat → Act
  | 0 => showPool
  | n + 1 => draw fun x => chain [onSec fun e => { e with pool := if e.pool.length < 32 then e.pool ++ [x] else e.pool }, poolFill n]

/-- A conditioning block of 512 raw bits passes, or a health test fails at one of its bits (R370). -/
def execEntropyBlock (fail : Option (Fin 512)) (s : State) : Host.Outcome State Fault Refusal :=
  act (look fun s => whenA (s.domOn Dom.core && s.get SEC.ENTSTAT.STATE == 1)
    (match fail with
     | none => chain [onSec fun e => { e with raw := e.raw + 512 }, poolFill 4]
     | some b =>
       let at_ := s.sec.raw + b.val + 1
       let recent := s.sec.fails.filter fun f => at_ < f + 65536
       chain [onSec fun e => { e with raw := at_, fails := recent ++ [at_] }, count SEC.ENTSTAT.FAILCNT,
         whenA (2 ≤ recent.length) (chain [put SEC.ENTSTAT.STATE 2, put SEC.STAT.MASKDEG 1, stick SEC.STICKY.ENTFAIL])])) s

/-- A draw of the Bobbin's hash key or of a backoff: the next conditioned word, or, with the source FAILED, one of the mask
generator's. With the pool empty the word that comes next is taken, whose value is as free (R208, R223, R371). -/
def drawWord (k : Nat → Act) : Act := look fun s =>
  match s.sec.pool with
  | x :: l => if s.get SEC.ENTSTAT.STATE == 2 then draw k else chain [onSec fun e => { e with pool := l }, showPool, k x]
  | [] => draw k

/-- A read of RNG takes a word from the pool (R371). -/
def readRng (i : Initiator) (v : Nat) : Act := look fun s =>
  match s.sec.pool with
  | [] => chain [answer i 0, stickV SEC.STICKY.RNGEMPTY v]
  | x :: l => chain [answer i x, onSec fun e => { e with pool := l }, showPool]

/-- A read of SEC.RNG (R371). -/
def execRngRead (i : Initiator) (v : Fin 16) (s : State) : Host.Outcome State Fault Refusal :=
  act (atRegister i v SEC.RNG false (readRng i v)) s

end Sys2Proof.Machine
end

