-- ==== Sys2Proof/Machine/Link.lean ====
section
/-! DEFINITION. What this device puts on the cascade link, in its order of priority (R322). -/

namespace Sys2Proof.Machine

/-- The class of a piece of link traffic (R322): load records, context transfers, relayed frames, remote accesses. -/
def LinkSend.rank : LinkSend → Nat
  | .load .. => 0
  | .record .. => 1
  | .answer .. => 1
  | .close .. => 1
  | .relay .. => 2
  | .remote .. => 3

/-- Whether it goes downstream from a member: a load record always, anything else where its destination lies there (R308). -/
def LinkSend.goesDown (member : Nat) : LinkSend → Bool
  | .load .. => true
  | .record d .. => member < d
  | .answer d _ => member < d
  | .close d .. => member < d
  | .relay d .. => member < d
  | .remote d .. => member < d

/-- Traffic joins the link behind everything of its own class and of higher ones, and before the lower ones (R322). -/
def sendLink (x : LinkSend) : Act := onCas fun c => { c with
  out := c.out.filter (fun y => y.rank ≤ x.rank) ++ [x] ++ c.out.filter fun y => x.rank < y.rank }

/-- What is sent next on the hop of a direction (R322). -/
def State.nextSend (s : State) (down : Bool) : Option LinkSend := s.cas.out.find? (·.goesDown s.member == down)

/-- What was put on the link has been sent by the end of the slot (notes/assumptions/63.md, DESIGN CHOICE). -/
def linkDrain : Act := onCas fun c => { c with out := [] }

end Sys2Proof.Machine
end

