-- ==== Sys2Proof/Machine/Mac.lean ====
section
/-! DEFINITION. The MAC header of IEEE 802.15.4-2020 as the frame engine parses it (R163 to R165), frame check sequences,
air time (R140) and the frame nonce (R172). Field places that the spec takes from the standard are in
notes/assumptions/6.md. -/

namespace Sys2Proof.Machine

/-- A parsed header. Options are absent fields; `badFc` is a frame control that alone makes the frame malformed, `cut` a PSDU
that ends before its addressing fields, `bad` any case of R164. -/
structure Mac where
  kind     : Nat := 0
  sec      : Bool := false
  pend     : Bool := false
  ackReq   : Bool := false
  comp     : Bool := false
  seqSup   : Bool := false
  iePres   : Bool := false
  dm       : Nat := 0
  ver      : Nat := 0
  sm       : Nat := 0
  seq      : Option Nat := none
  dpan     : Option Nat := none
  dst      : Option Nat := none
  span     : Option Nat := none
  src      : Option Nat := none
  badFc    : Bool := false
  cut      : Bool := false
  bad      : Bool := false
  addrEnd  : Nat := 0
  level    : Nat := 0
  kim      : Nat := 0
  fcSup    : Bool := false
  asnNonce : Bool := false
  counter  : Option Nat := none
  keyIdx   : Nat := 0
  auxEnd   : Nat := 0
  hdrEnd   : Nat := 0
  /-- Header IEs: element ID and content. -/
  ies      : List (Nat × List Nat) := []
  /-- Whether payload IEs follow. -/
  payIes   : Bool := false
  deriving DecidableEq, Repr

/-- The octets of an address by addressing mode. -/
def addrLen (m : Nat) : Nat := if m = 2 then 2 else if m = 3 then 8 else 0

/-- Whether the destination and source PAN identifiers are present (R164). -/
def panPresence (ver dm sm : Nat) (comp : Bool) : Bool × Bool :=
  if ver < 2 then
    (dm != 0, sm != 0 && !(comp && dm != 0))
  else if dm == 0 && sm == 0 then (comp, false)
  else if sm == 0 then (!comp, false)
  else if dm == 0 then (false, !comp)
  else if dm == 3 && sm == 3 then (!comp, false)
  else (true, !comp)

/-- An optional little-endian field of a list, and where the next one begins. -/
def optField (l : List Nat) (at_ n : Nat) (present : Bool) : Option Nat × Nat :=
  if present then (some (leNat ((l.drop at_).take n)), at_ + n) else (none, at_)

/-- Frame control and addressing fields; `total` is the length of the PSDU less its FCS. -/
def parseAddr (l : List Nat) (total : Nat) : Mac :=
  let fc := leNat (l.take 2)
  let ver := bits fc 13 12
  let dm := bits fc 11 10
  let sm := bits fc 15 14
  let kind := bits fc 2 0
  let comp := bitOf fc 6 == 1
  let seqSup := ver == 2 && bitOf fc 8 == 1
  let pans := panPresence ver dm sm comp
  let a := optField l 2 1 (!seqSup)
  let b := optField l a.2 2 pans.1
  let c := optField l b.2 (addrLen dm) (dm != 0)
  let d := optField l c.2 2 pans.2
  let e := optField l d.2 (addrLen sm) (sm != 0)
  let badFc := total < 2 || ver == 3 || kind > 3 || dm == 1 || sm == 1
  { kind, sec := bitOf fc 3 == 1, pend := bitOf fc 4 == 1, ackReq := bitOf fc 5 == 1, comp, seqSup
    iePres := ver == 2 && bitOf fc 9 == 1, dm, ver, sm, seq := a.1, dpan := b.1, dst := c.1, span := d.1, src := e.1
    badFc, cut := !badFc && total < e.2, addrEnd := e.2, bad := badFc || total < e.2, auxEnd := e.2, hdrEnd := e.2 }

/-- The octets of a MIC by security level. -/
def micLen (level : Nat) : Nat :=
  match level % 4 with
  | 1 => 4 | 2 => 8 | 3 => 16 | _ => 0

/-- Header IEs from an offset of a PSDU of `psdu` octets, `l` being those received, whose body ends before `end_`: their
list, the offset after them, whether payload IEs follow, and whether an error was met: an IE that runs past the PSDU, or
header IEs that go on past 127 octets (R164). They end at a termination IE, or with the body. -/
def headerIes (l : List Nat) (end_ psdu : Nat) :
    Nat → Nat → List (Nat × List Nat) → List (Nat × List Nat) × Nat × Bool × Bool
  | 0, a, acc => (acc, a, false, true)
  | n + 1, a, acc =>
    if 127 < a then (acc, a, false, true)
    else if end_ ≤ a || a + 2 > l.length then (acc, a, false, false)
    else
      let w := leNat ((l.drop a).take 2)
      let len := bits w 6 0
      let id := bits w 14 7
      if a + 2 + len > psdu then (acc, a, false, true)
      else if id == 0x7E || id == 0x7F then (acc, a + 2 + len, id == 0x7E, 127 < a + 2 + len)
      else headerIes l end_ psdu n (a + 2 + len) (acc ++ [(id, (l.drop (a + 2)).take len)])

/-- Sub-IEs of an MLME IE: whether long, identifier, content, and the offset of the content. -/
def subIes (l : List Nat) : Nat → Nat → List (Bool × Nat × List Nat × Nat) → List (Bool × Nat × List Nat × Nat)
  | 0, _, acc => acc
  | n + 1, a, acc =>
    if a + 2 > l.length then acc
    else
      let w := leNat ((l.drop a).take 2)
      let long := bitOf w 15 == 1
      let len := if long then bits w 10 0 else bits w 7 0
      let id := if long then bits w 14 11 else bits w 14 8
      subIes l n (a + 2 + len) (acc ++ [(long, id, (l.drop (a + 2)).take len, a + 2)])

/-- Whether a payload IE, or a sub-IE of an MLME IE, has a length that runs past a PSDU of `psdu` octets, as far as `l` has
been received; payload IEs end at a termination IE, or with the body, before `end_` (R164, R165). -/
def payloadBad (l : List Nat) (end_ psdu : Nat) : Nat → Nat → Bool
  | 0, _ => false
  | n + 1, a =>
    if end_ ≤ a || a + 2 > l.length then false
    else
      let w := leNat ((l.drop a).take 2)
      let len := bits w 10 0
      let sub := (subIes ((l.drop (a + 2)).take len) 64 0 []).any fun x =>
        a + 2 + x.2.2.2 + (leNat ((l.drop (a + x.2.2.2)).take 2) % (if x.1 then 2048 else 256)) > psdu
      if a + 2 + len > psdu || (bits w 14 11 == 1 && sub) then true
      else if bits w 14 11 == 0xF then false
      else payloadBad l end_ psdu n (a + 2 + len)

/-- The auxiliary security header of a parsed version 2 frame, as far as it has been received. -/
def parseAux (l : List Nat) (total : Nat) (m : Mac) : Mac :=
  if !m.sec || m.ver != 2 then m
  else if m.addrEnd + 1 > total then { m with bad := true }
  else if m.addrEnd + 1 > l.length then m
  else
    let sc := l.getD m.addrEnd 0
    let fcSup := bitOf sc 5 == 1
    let kim := bits sc 4 3
    let c := optField l (m.addrEnd + 1) 4 (!fcSup)
    let k := if kim = 0 then 0 else if kim = 1 then 1 else if kim = 2 then 5 else 9
    { m with level := bits sc 2 0, kim, fcSup, asnNonce := bitOf sc 6 == 1, counter := c.1
             keyIdx := if kim = 0 then 0 else l.getD (c.2 + k - 1) 0, auxEnd := c.2 + k, hdrEnd := c.2 + k
             bad := m.bad || c.2 + k > total || bits sc 2 0 == 0 }

/-- Where the payload of a parsed frame ends: before its FCS and its MIC. -/
def Mac.bodyEnd (m : Mac) (total : Nat) : Nat := total - (if m.sec then micLen m.level else 0)

/-- The header of a PSDU of `psdu` octets, `total` of them before its FCS, of which the octets `l` have been received (R163,
R164). A legacy frame is taken to hold no IEs. -/
def parseMac (l : List Nat) (total psdu : Nat) : Mac :=
  let m := parseAux l total (parseAddr l total)
  if m.bad || !m.iePres || l.length < m.auxEnd then m
  else
    let r := headerIes l (m.bodyEnd total) psdu 64 m.auxEnd []
    { m with ies := r.1, hdrEnd := r.2.1, payIes := r.2.2.1, bad := r.2.2.2 }

/-- The header of a frame to be sent: its octets without FCS and, where it is to be secured, without the MIC. -/
def txMac (l : List Nat) : Mac := parseMac l (l.length + 16) (l.length + 20)

/-- Whether a beacon whose payload IEs may be read has one that makes it malformed (R164, R165). -/
def Mac.badBeacon (m : Mac) (l : List Nat) (total psdu : Nat) : Bool :=
  m.kind == 0 && m.ver == 2 && m.payIes && payloadBad l (m.bodyEnd total) psdu 512 m.hdrEnd

/-- The source PAN of a frame (R167). -/
def Mac.sourcePan (m : Mac) : Option Nat := match m.span with | some p => some p | none => m.dpan

/-- The FCS of a list of octets: 2 or 4, least significant octet first. A list below 4 octets is padded for the CRC-32. -/
def fcsOf (fcs2 : Bool) (l : List Nat) : List Nat :=
  if fcs2 then leOctets 2 (crc16 l) else leOctets 4 (crc32 (l ++ List.replicate (4 - l.length) 0))

/-- The octets of an FCS. -/
def fcsLen (fcs2 : Bool) : Nat := if fcs2 then 2 else 4

/-- The bits of a frame's body on air (R140). -/
def bodyBits (mode len : Nat) (coded : Bool) : Nat :=
  if isGlr mode then ceilDiv (16 * len + 44) 64 * 64 else if coded then 16 * len + 48 else 16 + 8 * len

/-- Symbol periods of a frame's body. -/
def bodySymbols (mode len : Nat) (coded : Bool) : Nat := ceilDiv (bodyBits mode len coded) (modeBits mode)

/-- Symbol periods of a whole frame (R140). -/
def frameSymbols (mode len prelen : Nat) (coded : Bool) : Nat :=
  ceilDiv (8 * prelen + (if isGlr mode then 32 else 16) + bodyBits mode len coded) (modeBits mode)

/-- The nonce of a frame (R172); the octets of each part go most significant first. -/
def frameNonce (eui : Nat) (m : Mac) (asn : Nat) : List Nat :=
  beOctets 8 eui ++ (if m.asnNonce then beOctets 5 asn else beOctets 4 (m.counter.getD 0) ++ [m.level])

/-- The payload IE content of a TSCH Synchronization sub-IE of a beacon: ASN and join metric, and where it stands in the
octets (R165). -/
def syncIe (l : List Nat) (m : Mac) : Option (Nat × Nat × Nat) :=
  if !m.payIes then none
  else
    let rec find : Nat → Nat → Option (Nat × Nat × Nat)
      | 0, _ => none
      | n + 1, a =>
        if a + 2 > l.length then none
        else
          let w := leNat ((l.drop a).take 2)
          let len := bits w 10 0
          if bits w 14 11 == 1 then
            match (subIes ((l.drop (a + 2)).take len) 64 0 []).find? fun x => !x.1 && x.2.1 == 0x1A with
            | some x => some (leNat (x.2.2.1.take 5), x.2.2.1.getD 5 0, a + 2 + x.2.2.2)
            | none => find n (a + 2 + len)
          else if bits w 14 11 == 0xF then none else find n (a + 2 + len)
    find 16 m.hdrEnd

end Sys2Proof.Machine
end

