-- ==== Sys2Proof/Machine/Frame.lean ====
section
/-! DEFINITION. The frame engine: the address verdict, security of received frames, acknowledgements built and received, and
the delivery rings (R128 to R130, R163 to R190). -/

namespace Sys2Proof.Machine

/-! Frames and buffers. -/

/-- The octets of a frame's PSDU that precede its FCS. -/
def RxFrame.total (f : RxFrame) : Nat := f.len - fcsLen f.fcs2

/-- The octets received so far that precede the FCS. -/
def RxFrame.body (f : RxFrame) : List Nat := f.octets.take f.total

/-- The header of a frame, as far as it has been received. -/
def RxFrame.mac (f : RxFrame) : Mac := parseMac f.octets f.total f.len

/-- Whether a frame is malformed by its header, or as a beacon that is not secured by its payload IEs (R164, R165). -/
def RxFrame.malformed (f : RxFrame) : Bool :=
  let m := f.mac
  m.bad || (!m.sec && m.badBeacon f.octets f.total f.len)

/-- The SFD stamp in fine units (R50). -/
def RxFrame.stamp (f : RxFrame) : Nat := f.tb * 64 + f.fine

/-- Goes on with the frame in a buffer, if there is one. -/
def withFrame (lane buf : Nat) (k : RxFrame → Act) : Act := look fun s =>
  match s.frameAt lane buf with
  | some f => k f
  | none => skip

/-- A buffer is released once its frame is processed, its copies are written or dropped, and nothing waits on it (R129,
R188, R189); a lane in HOLD then takes up its work again, and a lane that has freed goes to a waiting cell (R111, R115). -/
def releaseIfDone (lane buf : Nat) : Act := withFrame lane buf fun f =>
  whenA (f.stage == 3 && f.copies.isEmpty && !f.awaits && (!f.ackRequired || f.ackResolved))
    (chain [onFrm fun r => { r with frames := r.frames.filter fun x => !(x.lane == lane && x.buf == buf) },
      whenA (lane < 128) (chain [showBuffers lane,
        look fun s => whenA (s.laneState lane == 3) (chain [settleLane lane, laneFreed lane])])])

/-! Filters (R167). -/

/-- Whether a frame is sent to a VI's own short or extended address. -/
def State.unicastTo (s : State) (v : Nat) (m : Mac) : Bool :=
  match m.dst with
  | none => false
  | some d =>
    if m.dm = 2 then d == s.get (FRM.SHORT.ADDR.copy v) && d < 0xFFFE
    else d != 0 && d == s.get (FRM.EXTHI.A.copy v) * 2 ^ 32 + s.get (FRM.EXTLO.A.copy v)

/-- The filter of a VI without its promiscuous mode. -/
def State.filterPasses (s : State) (v : Nat) (m : Mac) : Bool :=
  let pan := s.get (FRM.PANID.PAN.copy v)
  let panOk := match m.dpan with | none => true | some p => p == pan || p == 0xFFFF
  let dstOk := s.unicastTo v m || (m.dm == 2 && m.dst == some 0xFFFF)
    || (m.dst.isNone && (s.is (FRM.FILT.COORD.copy v) || m.kind == 0))
  let beaconOk := m.kind != 0 || m.sourcePan == some pan || pan == 0xFFFF || s.is (FRM.FILT.BCNACC.copy v)
  panOk && dstOk && beaconOk

/-- Whether a VI accepts a frame; no filter accepts an acknowledgement or a malformed frame (R164, R167, R287). -/
def State.viAccepts (s : State) (v : Nat) (m : Mac) (malformed : Bool) : Bool :=
  s.viOpen v && (s.is (FRM.FILT.PROMISC.copy v) || (!malformed && m.kind != 2 && s.filterPasses v m))

/-! Ring space (R183, R187). -/

/-- The bytes of a ring's data cell. -/
def State.cellBytes (s : State) (v : Nat) : Nat := 256 * 2 ^ s.get (FRM.RINGCFG.CELLSZ.copy v)

/-- The entries of a ring. -/
def State.ringSize (s : State) (v : Nat) : Nat := 2 ^ s.get (FRM.RINGCFG.LOG2N.copy v)

/-- The entries that a copy of `len` bytes uses (R183). -/
def State.entriesFor (s : State) (v len : Nat) : Nat := max 1 (ceilDiv len (s.cellBytes v))

/-- The entries reserved in a ring. -/
def State.reservedIn (s : State) (v : Nat) : Nat :=
  ((s.frm.frames.flatMap (·.resv)).filter (·.1 == v)).foldl (fun n r => n + r.2) 0

/-- Whether a ring is enabled and takes `k` more entries (R187). -/
def State.ringTakes (s : State) (v k : Nat) : Bool :=
  let n := s.ringSize v
  s.is (FRM.RINGCFG.EN.copy v)
    && (s.get (FRM.WRIDX.IDX.copy v) + n - s.get (FRM.RDIDX.IDX.copy v)) % n + s.reservedIn v + k ≤ n - 1

/-- A copy of a VI is dropped for a full or disabled ring (R187). -/
def dropCopy (v : Nat) : Act := chain [count (FRM.RXDROP.CNT.copy v), stickV FRM.STICKY.RXDROP v]

/-- Takes the reservations and copies of the VIs that a test names away from a frame. -/
def cancelCopies (lane buf : Nat) (p : Nat → Bool) : Act :=
  onFrame lane buf fun x => { x with resv := x.resv.filter (fun r => !p r.1), copies := x.copies.filter fun v => !p v }

/-- Reserves ring space for a VI's copy, or drops it; a lost primary copy makes the acknowledgement carry NACK (R179,
R187). -/
def reserveCopy (lane buf v : Nat) : Act := withFrame lane buf fun f => look fun s =>
  let k := s.entriesFor v f.len
  if s.ringTakes v k then onFrame lane buf fun x => { x with resv := x.resv ++ [(v, k)], copies := x.copies ++ [v] }
  else chain [dropCopy v, onFrame lane buf fun x => { x with nacked := x.nacked || v == f.vi }]

/-! The verdict (R166 to R169). -/

/-- The context result and context of a frame that the primary VI accepts (R169, R222, R224). -/
def lookupSender (v : Nat) (m : Mac) (asn : Nat) (k : Nat → Nat → Act) : Act := look fun s =>
  let pan := match m.sourcePan with | some p => p | none => s.get (FRM.PANID.PAN.copy v)
  let found (n : Nat) : Act := k (if s.ctxState n == CtxState.superseded then 2 else 1) n
  match m.src with
  | none => k 0 0
  | some a =>
    if m.sm == 3 then
      match s.findExt v a with
      | some n => if s.ctxState n != CtxState.dead then found n
        else if s.is (BOB.LRN.LEARN.copy v) then ctxLearn v a pan asn fun r => match r with | some n => k 1 n | none => k 3 0
        else k 3 0
      | none => if s.is (BOB.LRN.LEARN.copy v) then
          ctxLearn v a pan asn fun r => match r with | some n => k 1 n | none => k 3 0
        else k 3 0
    else
      match s.findShort v pan a with
      | some n => if s.ctxState n != CtxState.dead then found n else k 3 0
      | none => k 3 0

/-- The ASN of a context's handover slot. -/
def State.migSlot (s : State) (n : Nat) : Nat := s.cx n Cx.migHh * 2 ^ 32 + s.cx n Cx.migH

/-- Whether an acknowledgement is due for a frame with result HIT, as far as its header decides (R175, R246). -/
def State.ackWanted (s : State) (f : RxFrame) (m : Mac) : Bool :=
  f.cell.isSome && m.ackReq && s.filterPasses f.vi m && s.unicastTo f.vi m && s.is (FRM.ACKCFG.ACKEN.copy f.vi) && !s.is BOB.CTRL.RJONLY
    && m.ver == 2 && !f.relayed

/-- The verdict of a frame at its verdict point. -/
def giveVerdict (lane buf : Nat) : Act := withFrame lane buf fun f => look fun s =>
  let m := f.mac
  let malformed := m.badFc || m.cut
  let vis := (List.range 16).filter fun v => s.viAccepts v m malformed
  let finish (res ctx : Nat) : Act := look fun s =>
    let relay := res == 1 && s.ctxState ctx == CtxState.migrating && s.migSlot ctx ≤ f.asn && f.asn ≤ s.migSlot ctx + 1
    let ackDue := res == 1 && !relay && s.ackWanted f m
    chain [onFrame lane buf fun x => { x with
        verdict := some ⟨(vis.map (2 ^ ·)).sum, ackDue, res, ctx⟩, hdrBad := malformed, toRelay := relay },
      whenA (!relay) (eachA vis fun v => reserveCopy lane buf v)]
  if vis.contains f.vi && !malformed && m.kind != 2 then lookupSender f.vi m f.asn finish else finish 0 0

/-- A frame that has passed its verdict point and is found malformed: the copies of VIs that are not promiscuous go, and
no acknowledgement is built (R164, R166, R187). -/
def findMalformed (lane buf : Nat) : Act := withFrame lane buf fun f => look fun s =>
  whenA (f.verdict.isSome && !f.hdrBad && f.malformed)
    (chain [onFrame lane buf fun x => { x with hdrBad := true, verdict := x.verdict.map fun w => { w with ackDue := false } },
      cancelCopies lane buf fun v => !s.is (FRM.FILT.PROMISC.copy v)])

/-- The next byte of the PSDU leaves the decoder (R120, R144, R146). -/
def nextByte (n : Nat) : Act := look fun s =>
  match s.laneFrame n with
  | none => skip
  | some f =>
    let k := f.octets.length
    whenA (f.stage == 1 && k < f.len && 24 + 8 * k ≤ f.infoBits.length)
      (chain [until_ (f.leavesTb (23 + 8 * k)), onFrame n f.buf fun x => { x with octets := x.octets ++ [f.octetAt k] },
        findMalformed n f.buf])

/-- Samples of a lane, with which a byte of the PSDU leaves the decoder (R120). -/
def execPsduByte (n : Fin 128) (xs : List (Int × Int)) (s : State) : Host.Outcome State Fault Refusal :=
  act (chain [feed n xs, nextByte n]) s

/-- Whether a frame has reached its verdict point (R166). -/
def RxFrame.atVerdict (f : RxFrame) : Bool :=
  let m := f.mac
  f.stage == 1 && f.len != 0 &&
    (if f.total < 2 || (!m.badFc && m.cut) then f.octets.length == f.len
     else if m.badFc then 2 ≤ f.octets.length
     else m.addrEnd ≤ f.octets.length)

/-- A frame whose lookup or update meets an uncorrectable error, or falls into a rebuild of the key tables, is delivered
nowhere (R345). -/
def unseen (f : RxFrame) : Act := chain [
  cancelCopies f.lane f.buf fun _ => true,
  onFrame f.lane f.buf fun x => { x with verdict := some ⟨0, false, 0, 0⟩ }]

/-- The verdict point of the frame in progress on a lane (R166). A lookup that falls into a rebuild of the key tables loses
its frame (R345). -/
def execAddressVerdict (n : Fin 128) (s : State) : Host.Outcome State Fault Refusal :=
  act (look fun s => match s.laneFrame n with
    | none => skip
    | some f => whenA (f.atVerdict && f.verdict.isNone)
      (if s.bob.repairs.any (·.what == 2) then unseen f else chain [giveVerdict n f.buf, findMalformed n f.buf])) s

/-! Security of received frames (R171 to R174). -/

/-- The key slot of a frame of VI `v` (R172): owned by the VI and with the frame-decrypt flag, or none. -/
def State.frameSlot (s : State) (v ctx : Nat) (m : Mac) : Option Nat :=
  let slot := if m.kim = 0 then (if s.cx ctx Cx.ksv == 1 then some (s.cx ctx Cx.keySlot) else none)
    else ((List.range 8).find? fun k => s.is ((FRM.KMAP.V.i k).copy v) && s.get ((FRM.KMAP.KIDX.i k).copy v) == m.keyIdx).map
      fun k => s.get ((FRM.KMAP.SLOT.i k).copy v)
  match slot with
  | some n => if s.get (KEY.KS.STATE.i n) == 1 && s.get (KEY.KS.VI.i n) == v && bitOf (s.get (KEY.KS.FLAGS.i n)) 0 == 1
      then some n else none
  | none => none

/-- The end of the last bit of a frame on air, in fine units (R180). -/
def RxFrame.airEnd (f : RxFrame) : Nat := f.stamp + symbolsFine f.mode (bodySymbols f.mode f.len f.coded)

/-- T_ack of a frame received in a cell, in fine units (R180). -/
def State.ackTime (_s : State) (f : RxFrame) : Nat :=
  match f.cell with
  | some c => f.airEnd + c.t.txackd * 256
  | none => f.airEnd

/-- Whether a frame's job is of class P: an acknowledgement waits on it (R174). -/
def RxFrame.classP (f : RxFrame) : Bool := match f.verdict with | some w => w.ackDue && !f.hdrBad | none => false

/-- Whether a context is still held by a VI; a context freed since a frame's verdict is not touched any more. -/
def State.stillHeld (s : State) (ctx v : Nat) : Bool := s.ctxState ctx != CtxState.free && s.cx ctx Cx.vi == v

/-- A context is heard in a frame that passed (R229), with the drift measurement of a frame received in a cell (R235). A beacon
counts for the time source as an enhanced one (R238). -/
def frameHeard (f : RxFrame) (ctx : Nat) (secured : Bool) : Act := look fun s =>
  let delta : Int := (f.stamp : Int) - f.expect
  whenA (s.stillHeld ctx f.vi) (chain [
    whenA (secured && s.ctxState ctx == CtxState.learning && s.is (BOB.LRN.AUTOACT.copy f.vi)) (ctxEnter ctx CtxState.active),
    ctxHeard ctx f.asn f.rssi f.lqi,
    match f.cell with
    | none => skip
    | some c => whenA (!f.relayed) (chain [driftUpdate ctx delta f.stamp,
        followTime ctx delta ((f.mac.kind == 0 && f.mac.ver == 2) || (c.tk && c.vi == s.tvi))]),
    whenA secured (confirmation ctx)])

/-- Whether a header's first IE is the rejoin IE with an OUI, and its incarnation number (R243). -/
def Mac.rejoin (m : Mac) (oui : Nat) : Option Nat :=
  match m.ies with
  | (0, l) :: _ => if l.length == 6 && leNat (l.take 3) == oui && l.getD 3 0 == 0x10 then some (leNat (l.drop 4)) else none
  | _ => none

/-- A SUPERS copy with a status, which CLIP replaces where the frame was clipped (R82): REJSUP for a rejoin IE under OK, else
SUPERSRX (R242). -/
def supersSeen (f : RxFrame) (ctx status : Nat) : Act := look fun s =>
  match f.mac.rejoin (s.get (SHU.FORMOUI.OUI.copy f.vi)) with
  | some inc =>
    if status == Status.ok && !f.clip then
      chain [stickV BOB.STICKY.REJSUP f.vi, put (BOB.REJLOG.V.copy f.vi) 1, put (BOB.REJLOG.CTX.copy f.vi) ctx,
        whenA (s.stillHeld ctx f.vi) (setCx ctx Cx.incarn inc)]
    else stickV BOB.STICKY.SUPERSRX f.vi
  | none => stickV BOB.STICKY.SUPERSRX f.vi

/-- A beacon that the timing VI has taken goes to the Shuttle while it scans, forms or coordinates (R165, R211, R214). -/
def beaconTaken (f : RxFrame) (ctx : Nat) (plain : List Nat) : Act := look fun s =>
  let st := s.get (SHU.VISTAT.STATE.copy s.tvi)
  whenA (f.vi == s.tvi && f.mac.kind == 0 && 1 ≤ st && st ≤ 3 && f.mac.ver == 2 && s.is SHU.CTRL.RUN)
    (onShu fun u => { u with heard := u.heard ++ [⟨plain, f.stamp, f.mode, ctx⟩] })

/-- The primary copy of a frame is processed: its status and bytes are fixed, and an acknowledgement is required where one
is due and `ack` says that nothing has failed (R175); of a secured frame, it has to be secured (R174, R176). -/
def frameDone (f : RxFrame) (status : Nat) (secraw ack : Bool) (plain : List Nat) : Act :=
  onFrame f.lane f.buf fun x => { x with
    stage := 3, status, secraw, plain, ackRequired := ack && x.classP
    job := if ack && x.classP && f.mac.sec then 4 else x.job }

/-- A primary copy is cut to its header, and its reservation is shrunk (R173, R187). -/
def cutCopy (f : RxFrame) (status : Nat) : Act := look fun s =>
  let hdr := f.octets.take f.mac.hdrEnd
  let k := s.entriesFor f.vi hdr.length
  chain [frameDone f status false false hdr,
    onFrame f.lane f.buf fun x => { x with resv := x.resv.map fun r => if r.1 == f.vi then (r.1, min r.2 k) else r }]

/-- The processing of a frame with a good FCS, up to the start of a security job (R164, R168 to R172). -/
def startProcessing (f : RxFrame) : Act := look fun s =>
  let m := f.mac
  match f.verdict with
  | none => skip
  | some w =>
    let raw (status : Nat) : Act := frameDone f status m.sec false f.octets
    if f.hdrBad || bitOf w.vis f.vi == 0 then
      chain [raw (if w.res == 3 then Status.noCtx else Status.ok),
        whenA (w.res == 2 && f.copies.contains f.vi) (supersSeen f w.ctx Status.ok)]
    else if w.res == 0 then chain [whenA (!m.sec) (beaconTaken f 4096 f.body), raw Status.ok]
    else if w.res == 3 then chain [whenA (!m.sec) (beaconTaken f 4096 f.body), raw Status.noCtx]
    else if !m.sec then
      chain [frameDone f Status.ok false true f.octets,
        if w.res == 1 then chain [frameHeard f w.ctx false, beaconTaken f w.ctx f.body] else supersSeen f w.ctx Status.ok]
    else
      match (if m.ver == 2 && 5 ≤ m.level && !(m.fcSup && !m.asnNonce) then s.frameSlot f.vi w.ctx m else none) with
      | some n => onFrame f.lane f.buf fun x => { x with job := 1, slot := n }
      | none => chain [raw Status.ok, whenA (w.res == 2) (supersSeen f w.ctx Status.ok)]

/-- Whether an acknowledgement frame may match a wait, without its MIC (R181). -/
def AckWait.meets (w : AckWait) (f : RxFrame) : Bool :=
  let m := f.mac
  let sent := txMac w.frame
  let dstOk := match m.dst with
    | none => true
    | some d => m.dm == sent.sm && some d == sent.src
  f.lane == w.lane && dstOk && m.seq == sent.seq

/-- An acknowledgement frame that matches no wait is counted (R182, R298). -/
def ackStray (lane buf : Nat) : Act := withFrame lane buf fun f =>
  chain [count FRM.CNT1.ACKSTRAY, stickV FRM.STICKY.ACKSTRAY f.vi, onFrame lane buf fun x => { x with awaits := false },
    releaseIfDone lane buf]

/-- Whether the MIC of a secured acknowledgement can be verified: its frame has one, a nonce, and the sent frame's key slot
still belongs to the VI of the transmission (R171, R172, R181, R305). The verification is a job of class F (R174). -/
def State.ackOpens (s : State) (w : AckWait) (f : RxFrame) : Bool :=
  let m := f.mac
  m.sec && m.ver == 2 && micLen m.level != 0 && !(m.fcSup && !m.asnNonce) && s.ownsKey w.cell.vi (s.desc w.desc 2 19 14)

/-- A frame of a handed-over context is put on the link to its destination with the tag GEN + 1, or is lost (R250, R324,
R329). -/
def relayFrame (f : RxFrame) : Act := look fun s =>
  let ctx := (f.verdict.map (·.ctx)).getD 0
  if s.get CAS.STAT.STATE == 3 && s.cas.lostAt.isNone then chain [count CAS.RELAYCNT.RELAYED,
    sendLink (.relay (s.cx ctx Cx.migDst) f.lane f.port f.tb f.fine f.asn ((s.cx ctx Cx.gen + 1) % 65536) f.octets)]
  else chain [count CAS.RELAYCNT.RELAYLOST, stickV CAS.STICKY.RELAYLOST f.vi]

/-- The frame engine takes over a frame with a good FCS. -/
def takeFrame (lane buf : Nat) : Act := chain [
  withFrame lane buf fun f => look fun s =>
    whenA (f.hdrBad && s.domOn Dom.mac) (chain [count FRM.CNT1.HDRBAD, stickV FRM.STICKY.HDRBAD f.vi]),
  withFrame lane buf fun f => look fun s =>
    if f.toRelay then chain [relayFrame f, frameDone f Status.ok false false f.octets]
    else if !f.hdrBad && f.mac.kind == 2 then
      chain [frameDone f Status.ok f.mac.sec false f.octets,
        match s.shu.waits.find? (·.meets f) with
        | some w => onFrame lane buf fun x => { x with
            awaits := true, slot := s.desc w.desc 2 19 14
            job := if s.ackOpens w f then 1 else 0 }
        | none => ackStray lane buf]
    else chain [onFrame lane buf fun x => { x with awaits := false }, startProcessing f],
  releaseIfDone lane buf]

/-- A coded frame has ended while RXW is on: its code bits encoded again are compared, and its trellis is looked at (R147,
R148). -/
def codeCheck (f : RxFrame) : Act := look fun s =>
  match f.wholeCode with
  | some q => whenA (f.coded && s.domOn Dom.rxw) (chain [
      onLane f.lane fun l => { l with
        coded := min (l.coded + 1) 0xFFFF, diffs := min (l.diffs + codeDiffs f.code q) 0xFFFFFFFF },
      whenA (!endsWell f.code q) (stickI FEC.STICKY.TAILERR f.lane 0)])
  | none => skip

/-- A frame with a good FCS is handed over with what the lane has measured of it (R126, R128, R129, R132). -/
def handOver (n : Nat) (f : RxFrame) : Act := look fun s =>
  let lqi := f.rx.lqi (s.rxOf f)
  chain [countLane n 4, onLane n fun l => { l with taps := f.rx.taps },
    onFrame n f.buf fun x => { x with stage := 2, lqi, fo := f.rx.offset, rx := {} },
    putS (DMD.LSTAT.RSSI.i n) (clampS (-128) 127 f.rssi), put (DMD.LSTAT.LQI.i n) lqi,
    putS (DMD.LSTAT.FO.i n) (clampS (-128) 127 f.rx.offset), put (DMD.LSTAT.CLIPM.i n) 0, showBuffers n,
    settleLane n, laneFreed n, liftFreeze f.port, takeFrame n f.buf]

/-- The last bit of the PSDU leaves the decoder (R128 to R133, R146, R147). -/
def frameEnd (n : Nat) : Act := look fun s =>
  match s.laneFrame n with
  | none => skip
  | some f =>
    whenA (f.stage == 1 && f.len != 0 && f.octets.length == f.len)
      (chain [until_ (ceilDiv (f.stamp + f.endsFine) 64),
        whenA f.verdict.isNone (chain [giveVerdict n f.buf, findMalformed n f.buf]),
        codeCheck f,
        if fcsOf f.fcs2 f.body != f.octets.drop f.total then
          chain [stickVI DMD.STICKY.FCSERR f.vi n 0, dropFrame n (some 5)]
        else handOver n f])

/-- The end of a frame on a lane, with its last samples (R128). -/
def execFrameEnd (n : Fin 128) (xs : List (Int × Int)) (_ _ _ _ : Unit) (s : State) : Host.Outcome State Fault Refusal :=
  act (chain [feed n xs, frameEnd n]) s

/-! The verification (R173). -/

/-- The smaller of two frames by a key, the first where they are equal. -/
def leastBy {α : Type} (key : α → Nat) : List α → Option α
  | [] => none
  | x :: l =>
    match leastBy key l with
    | some y => some (if key y < key x then y else x)
    | none => some x

/-- The first frame whose job waits in class P, a verification or the securing of its acknowledgement, by deadline; or in
class F, by SFD stamp (R174). -/
def State.nextVerify (s : State) (p : Bool) : Option RxFrame :=
  leastBy (fun f => if p then s.ackTime f else f.stamp)
    (s.frm.frames.filter fun f => (f.job == 1 && f.classP == p) || (p && f.job == 4))

/-- What the counter check of a verified frame says (R232, R233, R252). -/
inductive Fresh
  | accepted
  | stale
  | duplicate
  deriving DecidableEq, Repr

/-- What the destination keeps of a handed-over context's slots H and H + 1, where a frame falls under them (R252). -/
def State.relaySet (s : State) (ctx asn : Nat) : Option RelaySet :=
  (s.bob.seen.find? (·.ctx == ctx)).filter fun _ => s.migSlot ctx ≤ asn && asn ≤ s.migSlot ctx + 1

/-- RXFC of a handed-over context is raised to the largest of RXFC at H, the counters accepted in H and H + 1, and `more`
(R252). -/
def raiseRxfc (p : RelaySet) (more : List Nat) : Act := look fun s =>
  let all := (if s.cx p.ctx Cx.rxfcv == 1 then [s.cx p.ctx Cx.rxfc] else []) ++ p.base.toList ++ p.got ++ more
  whenA (!all.isEmpty) (chain [setCx p.ctx Cx.rxfc (all.foldl max 0), setCx p.ctx Cx.rxfcv 1])

/-- The check of a verified frame's counter or ASN against its context; a frame with neither has no check (R172, R232, R233,
R252). -/
def State.checkCounter (s : State) (ctx asn : Nat) (m : Mac) : Fresh :=
  match m.counter with
  | none => if !m.asnNonce || s.asnFresh ctx asn then .accepted else .stale
  | some c =>
    match s.relaySet ctx asn with
    | none => if s.counterFresh ctx c then .accepted else .stale
    | some p =>
      if c == 0xFFFFFFFF || p.base.any (c ≤ ·) then .stale
      else if p.got.contains c then .duplicate
      else if p.got.length < 16 || p.got.all (· < c) then .accepted else .duplicate

/-- An accepted counter is stored: in the context, or for a handover's two slots in its set, from which RXFC follows once
they have ended (R232, R233, R252). -/
def storeCounter (ctx asn : Nat) (m : Mac) : Act := look fun s =>
  match m.counter, s.relaySet ctx asn with
  | some c, some p =>
    let q := { p with got := if p.got.length < 16 then p.got ++ [c] else p.got.map fun x => if p.got.all (· ≤ x) then c else x }
    chain [onBob fun b => { b with seen := b.seen.map fun x => if x.ctx == ctx then q else x },
      whenA (s.migSlot ctx + 2 ≤ s.clk.asn) (raiseRxfc q [])]
  | some c, none => acceptCounter ctx (some c) asn
  | none, _ => whenA m.asnNonce (acceptCounter ctx none asn)

/-- The CCM* result of a secured frame with a key: whether the MIC verifies, and the octets with the plaintext payload. -/
def openFrame (key : List Nat) (eui asn : Nat) (m : Mac) (body : List Nat) : Bool × List Nat :=
  let mic := micLen m.level
  let hdr := body.take m.hdrEnd
  let cut := body.length - mic
  let secret := (body.take cut).drop m.hdrEnd
  let nonce := frameNonce eui m asn
  let plain := if m.level < 4 then secret else ccmCrypt key nonce secret
  let tag := ccmTag key nonce (if m.level < 4 then hdr ++ secret else hdr) (if m.level < 4 then [] else plain) mic
  (m.hdrEnd + mic ≤ body.length && tag == body.drop cut, hdr ++ plain)

/-- A frame is dropped with nothing written or acknowledged (R252, R359). -/
def discardFrame (f : RxFrame) : Act :=
  chain [cancelCopies f.lane f.buf fun _ => true, frameDone f Status.ok false false [],
    onFrame f.lane f.buf fun x => { x with awaits := false }, releaseIfDone f.lane f.buf]

/-- A secured beacon whose payload IEs, read once its MIC has verified, are found malformed: it is counted, and goes as received
to the promiscuous VIs alone (R164, R165). Nothing of its context changes (notes/assumptions/62.md, DESIGN CHOICE). -/
def foundLate (f : RxFrame) (supers : Act) : Act := look fun s => chain [
  count FRM.CNT1.HDRBAD, stickV FRM.STICKY.HDRBAD f.vi,
  onFrame f.lane f.buf fun x => { x with hdrBad := true, verdict := x.verdict.map fun w => { w with ackDue := false } },
  cancelCopies f.lane f.buf fun v => !s.is (FRM.FILT.PROMISC.copy v),
  frameDone f Status.ok true false f.octets, whenA (s.is (FRM.FILT.PROMISC.copy f.vi)) supers]

/-- The result of a verification (R165, R173, R229, R232 to R238, R241, R242, R248). -/
def verified (f : RxFrame) : Act := look fun s =>
  match f.verdict with
  | none => skip
  | some w =>
    let m := f.mac
    let r := openFrame f.secret (s.ctxEui w.ctx) f.asn m f.body
    let win := match f.cell with
      | some c => s.get (PAT.SFCFG.LEN.i c.sf)
      | none => s.get BOB.COLCFG.WIN
    let held := whenA (s.stillHeld w.ctx f.vi)
    let supers (status : Nat) : Act := whenA (w.res == 2) (supersSeen f w.ctx status)
    if !r.1 then
      chain [held (if w.res == 1 then micFailed w.ctx f.asn win else countCx w.ctx Cx.micFails), cutCopy f Status.micFail,
        supers Status.micFail]
    else if m.badBeacon r.2 f.total f.len then foundLate f (supers Status.ok)
    else match s.checkCounter w.ctx f.asn m with
      | .duplicate => discardFrame f
      | .stale => chain [held (countCx w.ctx Cx.stales), cutCopy f Status.counterStale, supers Status.counterStale]
      | .accepted => chain [held (storeCounter w.ctx f.asn m), frameDone f Status.ok false true r.2,
          if w.res == 1 then chain [frameHeard f w.ctx true, beaconTaken f w.ctx r.2] else supers Status.ok]

/-! The descriptor and delivery (R183, R186, R188). -/

/-- Whether the copies of a frame are ready to be written: the MIC verdict and the acknowledgement's build have come (R48,
R180). -/
def RxFrame.ready (f : RxFrame) : Bool := f.stage == 3 && (!f.ackRequired || f.ackResolved)

/-- Whether a copy of a handed-over context waits for the source's close record (R325). -/
def State.heldByMigration (s : State) (f : RxFrame) : Bool :=
  match f.verdict with
  | some w => w.res == 1 && (s.relaySet w.ctx f.asn).isSome
  | none => false

/-- The place of a frame in the one order: its stamp, the member that took it, its lane (R63, R67). Stamps of several members
are ordered while this one is synchronised; a relayed frame comes over a live link. -/
def State.orderKey (s : State) (f : RxFrame) : Nat :=
  (f.stamp * 8 + (if f.relayed then f.member else s.member)) * 128 + f.lane % 128

/-- The frame whose copy comes first in the ring of VI `v`: the first in the one order among the frames before their verdict
point and those accepted for the VI and not written (R63, R67, R188). -/
def State.firstFor (s : State) (v : Nat) : Option RxFrame :=
  leastBy s.orderKey
    (s.frm.frames.filter fun f => 1 ≤ f.stage && (f.verdict.isNone || f.copies.contains v))

/-- The words of the descriptor of a copy for VI `v` of `len` bytes (R186, R304). -/
def descriptorOf (f : RxFrame) (v len : Nat) : List Nat :=
  let m := f.mac
  let prim := v == f.vi
  let w := f.verdict.getD ⟨0, false, 0, 0⟩
  let flag (b : Nat) (c : Bool) : Nat := if c then 2 ^ b else 0
  let base := if prim then f.status else Status.ok
  let status := if base == Status.ok && f.clip then Status.clip else base
  let ctxv := prim && (w.res == 1 || w.res == 2)
  [status * 2 ^ 24 + flag 23 f.ackSent + flag 22 m.ackReq + flag 21 (f.nacked && f.ackSent)
      + flag 20 (if prim then f.secraw else m.sec) + flag 19 (prim && w.res == 2) + flag 18 (f.cell.isNone && !f.relayed)
      + flag 17 (m.ver < 2) + flag 16 f.hdrBad + len,
    f.tb % 2 ^ 32,
    f.fine * 2 ^ 26 + f.tb / 2 ^ 32 % 2 ^ 26,
    f.asn % 2 ^ 32,
    f.asn / 2 ^ 32 % 256 * 2 ^ 24 + (if ctxv then w.ctx * 2 ^ 12 else 0) + flag 11 ctxv + ofS 8 (clampS (-128) 127 f.rssi),
    f.lqi * 2 ^ 24 + ofS 8 (clampS (-128) 127 f.fo) * 2 ^ 16 + f.chan * 2 ^ 5 + f.plan * 8 + f.port * 4
      + flag 1 f.coded + flag 0 f.fcs2,
    f.lane % 128 * 2 ^ 24 + m.hdrEnd % 256 * 2 ^ 16 + (if v == 0 then w.vis else 2 ^ v),
    0]

/-- A copy is written into the ring of VI `v`, and WRIDX advances past it (R183, R188). -/
def writeCopy (f : RxFrame) (v : Nat) : Act := look fun s =>
  let data := if v == f.vi then f.plain else f.octets
  let n := s.ringSize v
  let cell := s.cellBytes v
  let at_ := s.get (FRM.WRIDX.IDX.copy v)
  let k := s.entriesFor v data.length
  let descAt (i : Nat) : Nat := Base.fram + s.get (FRM.RINGBASE.OFF.copy v) * 32 + 32 * ((at_ + i) % n)
  let dataAt (i : Nat) : Nat := Base.fram + s.get (FRM.DATABASE.OFF.copy v) * 256 + cell * ((at_ + i) % n)
  chain [
    eachA (List.range k) fun i => setOctets (dataAt i) ((data.drop (cell * i)).take cell),
    setOctets (descAt 0) ((descriptorOf f v data.length).flatMap (leOctets 4)),
    eachA ((List.range k).drop 1) fun i => setOctets (descAt i) (leOctets 4 0x8000 ++ List.replicate 28 0),
    put (FRM.WRIDX.IDX.copy v) ((at_ + k) % n),
    whenA (!s.is FRM.STICKY.RXAVAIL) (pulse 31), stickV FRM.STICKY.RXAVAIL v,
    cancelCopies f.lane f.buf (· == v), releaseIfDone f.lane f.buf]

/-- The next copy of VI `v` is written once no frame with a lower stamp and lane remains (R188). -/
def execDeliveryWrite (v : Fin 16) (s : State) : Host.Outcome State Fault Refusal :=
  act (look fun s => match s.firstFor v with
    | none => skip
    | some f => whenA (s.domOn Dom.mac && f.copies.contains v.val && f.ready && !s.heldByMigration f) (writeCopy f v)) s

/-! Ring registers (R184, R185). -/

/-- Whether a ring's areas lie inside frame memory and the VI's quota and do not overlap (R184). -/
def State.ringFits (s : State) (v : Nat) : Bool :=
  let n := s.ringSize v
  let d := s.get (FRM.RINGBASE.OFF.copy v) * 32
  let a := s.get (FRM.DATABASE.OFF.copy v) * 256
  s.inQuota v d (32 * n) && s.inQuota v a (s.cellBytes v * n) && (d + 32 * n ≤ a || a + s.cellBytes v * n ≤ d)

/-- Every reservation of a VI is cancelled and counts as a drop (R184). -/
def cancelRing (v : Nat) : Act := look fun s =>
  eachA (s.frm.frames.filter fun f => f.copies.contains v) fun f =>
    chain [dropCopy v, cancelCopies f.lane f.buf (· == v), releaseIfDone f.lane f.buf]

/-- A write of RINGCFG through view `v` (R184, R626). -/
def writeRingcfg (v w : Nat) : Act := look fun s =>
  let on := s.is (FRM.RINGCFG.EN.copy v)
  let field (f : Fld) (ok : Bool) : Act := look fun s =>
    let x := fieldOf (BitVec.ofNat 32 w) f.lo f.width
    if x == s.get (f.copy v) then skip
    else if on then stickV FRM.STICKY.RINGERR v
    else if ok then put (f.copy v) x else setRsvd FRM.RINGCFG.key v
  chain [field FRM.RINGCFG.CELLSZ true, field FRM.RINGCFG.LOG2N (4 ≤ w % 16 && w % 16 ≤ 10),
    look fun s =>
      if bitOf w 31 == 1 && !on then
        if s.ringFits v then
          chain [put (FRM.RINGCFG.EN.copy v) 1, put (FRM.WRIDX.IDX.copy v) 0, put (FRM.RDIDX.IDX.copy v) 0]
        else stickV FRM.STICKY.RINGERR v
      else whenA (bitOf w 31 == 0 && on) (chain [put (FRM.RINGCFG.EN.copy v) 0, cancelRing v])]

/-- A write of RINGBASE or DATABASE through view `v`: ignored with RINGERR while the ring is enabled (R184). -/
def writeRingArea (f : Fld) (v w : Nat) : Act := look fun s =>
  let x := fieldOf (BitVec.ofNat 32 w) f.lo f.width
  if x == s.get (f.copy v) then skip
  else if s.is (FRM.RINGCFG.EN.copy v) then stickV FRM.STICKY.RINGERR v
  else put (f.copy v) x

/-- A write of RDIDX through view `v` (R185). -/
def writeRdidx (v w : Nat) : Act := look fun s =>
  let n := s.ringSize v
  let rd := s.get (FRM.RDIDX.IDX.copy v)
  let x := w % 1024
  if x < n && (x + n - rd) % n ≤ (s.get (FRM.WRIDX.IDX.copy v) + n - rd) % n then put (FRM.RDIDX.IDX.copy v) x
  else stickV FRM.STICKY.RINGERR v

/-- A write of FRM.RINGCFG (R184). -/
def execRingCfgWrite (i : Initiator) (v : Fin 16) (w : Word) (s : State) : Host.Outcome State Fault Refusal :=
  act (atRegister i v FRM.RINGCFG true (writeRingcfg v w.toNat)) s

/-- A write of FRM.RDIDX (R185). -/
def execRdidxWrite (i : Initiator) (v : Fin 16) (w : Word) (s : State) : Host.Outcome State Fault Refusal :=
  act (atRegister i v FRM.RDIDX true (writeRdidx v w.toNat)) s

/-! The end of a frame job (R174, R359, R368). -/

/-- Whether a running job other than the one that ends uses a key slot (R368). -/
def State.usesSlot (s : State) (frameToo : Bool) (n : Nat) : Bool :=
  (match s.sec.frame with
    | some (.verify l b) | some (.answer l b) => frameToo && (match s.frameAt l b with | some f => f.slot == n | none => false)
    | some (.secure k) => frameToo && s.shu.jobs.any fun j => j.cell == k && j.slot == n
    | none => false)
  || s.softUses n

/-- The engine's frame job ends; SEC.STAT.CLASS shows a software job that goes on (R174). -/
def endFrameJob : Act := look fun s =>
  chain [onSec fun e => { e with frame := none }, put SEC.STAT.CLASS (if s.sec.jobs.isEmpty then 0 else 3), keysSettle (s.usesSlot false)]

/-- Stickies of the two runs of a block: `dual` is 0 where they agree, 1 where the repeat agrees, 2 where it also disagrees
(R359). -/
def dualSticky (v : Nat) (dual : Nat) : Act := whenA (dual != 0) (chain [stickV SEC.STICKY.DUALMIS v,
  whenA (dual == 2) (stickV SEC.STICKY.DUALFAIL v)])

/-! Acknowledgements sent (R176 to R180). -/

/-- The device's own EUI-64 (R47). -/
def State.ownEui (s : State) : Nat := s.get SYS.UIDHI.UID * 2 ^ 32 + s.get SYS.UIDLO.UID

/-- TC in µs of a frame's stamp against its expected stamp, rounded and limited (R177). -/
def timeCorrection (f : RxFrame) : Int := clampS (-2047) 2047 (roundAway (f.expect - (f.stamp : Int)) 256)

/-- The octets of an acknowledgement without its FCS (R176), with the counter that it carries. -/
def State.ackOctets (s : State) (f : RxFrame) (ctx : Nat) (counter : Option Nat) : List Nat :=
  let m := f.mac
  let fp := s.cx ctx Cx.pending > 0
  let flag (b : Nat) (c : Bool) : Nat := if c then 2 ^ b else 0
  let fc := 2 + flag 3 m.sec + flag 4 fp + flag 6 true + flag 8 m.seqSup + flag 9 true + m.sm * 2 ^ 10 + 2 * 2 ^ 12
  let addr := match m.src with | some a => leOctets (addrLen m.sm) a | none => []
  let seq := match m.seq with | some n => [n] | none => []
  let sc := f.body.getD m.addrEnd 0
  let keyId := (f.body.take m.auxEnd).drop (m.addrEnd + 1 + (if m.fcSup then 0 else 4))
  let aux := if !m.sec then [] else [sc] ++ (match counter with | some c => leOctets 4 c | none => []) ++ keyId
  let tc := ofS 12 (timeCorrection f) + flag 15 f.nacked
  let ie := leOctets 2 (0x1E * 2 ^ 7 + 2) ++ leOctets 2 tc
  let hdr := leOctets 2 fc ++ seq ++ addr ++ aux ++ ie
  if !m.sec then hdr
  else hdr ++ ccmTag f.secret (frameNonce s.ownEui { m with counter := counter } f.asn) hdr [] (micLen m.level)

/-- A required acknowledgement of VI `v` is not sent (R180, R298). -/
def ackMissed (v : Nat) : Act := chain [count FRM.CNT0.ACKMISS, stickV FRM.STICKY.ACKMISS v]

/-- A chain. -/
def State.txChain (s : State) (c : Nat) : ChainSt := s.txp.chains.getD c {}

/-- Changes a chain. -/
def onChain (c : Nat) (f : ChainSt → ChainSt) : Act := onTxp fun t => { t with chains := t.chains.modify c f }

/-- Whether a run holds a staging buffer: every one but a wake burst, which loads none (R154, R155). -/
def TxRun.holdsBuffer (r : TxRun) : Bool := r.what != .wake

/-- The first staging buffer of a chain that no run holds (R154). -/
def ChainSt.freeBuffer (c : ChainSt) : Option Nat :=
  [0, 1].find? fun b => !(c.runs.any fun r => r.holdsBuffer && r.buf == b)

/-- RAMP of a port plus 1 µs, in TB units (R86, R202). -/
def State.rampTb (s : State) (port : Nat) : Nat := 4 * (s.get (RFE.PPWR.RAMP.i port) + 1)

/-- TB units that cover a frame's air time (R140). -/
def airTb (mode len prelen : Nat) (coded : Bool) : Nat := ceilDiv (symbolsFine mode (frameSymbols mode len prelen coded)) 64

/-- The transmission of an acknowledgement (R176). -/
def State.ackRun (s : State) (f : RxFrame) (octets : List Nat) : TxRun :=
  let v := f.vi
  let flag (b : Nat) (c : Bool) : Nat := if c then 2 ^ b else 0
  { what := .ack f.lane f.buf, vi := v
    w0 := s.get (FRM.ACKCFG.ACKPWR.copy v) * 2 ^ 24 + f.plan * 2 ^ 22 + f.chan * 2 ^ 11 + (octets.length + fcsLen f.fcs2)
    w1 := s.get (FRM.ACKCFG.PRELEN.copy v) * 2 ^ 22 + s.get (FRM.ACKCFG.ACKSHAPE.copy v) * 2 ^ 21 + flag 20 f.fcs2
      + flag 19 f.white + flag 18 f.ilv + flag 17 f.rsc + flag 16 f.coded + f.sfdsel * 2 ^ 15 + f.midx * 2 ^ 13
      + f.mode * 2 ^ 9
    octets, start := s.ackTime f / 64, port := f.port, asn := f.asn }

/-- A required acknowledgement is settled: handed to its chain, or not sent (R180). -/
def ackSettled (f : RxFrame) (sent : Bool) : Act := chain [
  whenA (!sent) (ackMissed f.vi),
  onFrame f.lane f.buf fun x => { x with ackResolved := true, ackSent := sent }, releaseIfDone f.lane f.buf]

/-- The acknowledgement of a frame is built at TB `t`, once it is secured where it has to be: handed to its chain, or found
too late, in a direct slot, with a ramp-down after the next tick, or without a buffer (R154, R174, R176 to R180, R340). -/
def buildAck (lane buf t : Nat) : Act := withFrame lane buf fun f =>
  whenA (f.stage == 3 && f.ackRequired && !f.ackResolved) (chain [until_ t, look fun s =>
    let ctx := (f.verdict.map (·.ctx)).getD 0
    let c := s.chainPort f.port
    let octets := s.ackOctets f ctx f.ackCounter
    let run := s.ackRun f octets
    let late := s.tb * 64 > s.ackTime f - (s.rampTb f.port + 80) * 64
    let after := s.ackTime f + (airTb f.mode (octets.length + fcsLen f.fcs2) (s.get (FRM.ACKCFG.PRELEN.copy f.vi)) f.coded
      + s.rampTb f.port) * 64 > s.clk.nextTick * 64
    if late || s.shu.disturbed || !s.pairRuns then
      chain [whenA (s.sec.frame == some (.answer lane buf)) endFrameJob, onFrame lane buf fun x => { x with job := 6 },
        ackSettled f false]
    else whenA (f.job != 4 && f.job != 5)
      (if after || (s.txChain c).direct then
        chain [whenA (s.txChain c).direct (stickV TXP.STICKY.ACKSKIP f.vi), ackSettled f false]
      else match (s.txChain c).freeBuffer with
        | none => chain [stickV TXP.STICKY.NOBUF f.vi, ackSettled f false]
        | some b => chain [onChain c fun x => { x with runs := x.runs ++ [{ run with buf := b }] }, ackSettled f true])])

/-- The acknowledgement of the frame in a lane's buffer is complete at TB `t` (R180). -/
def execAckBuilt (lane : Fin 128) (buf : Fin 2) (t : Nat) (s : State) : Host.Outcome State Fault Refusal :=
  act (buildAck lane buf t) s

/-! Acknowledgements received (R181, R206, R208). -/

/-- The queue that holds a descriptor of a VI: its kind and context. -/
def State.queueOf (s : State) (v off : Nat) : Option (TxQueue × TxEntry) :=
  (s.shu.queues.filter (·.vi == v)).findSome? fun q => (q.descs.find? (·.off == off)).map fun e => (q, e)

/-- Whether a cell is a shared one (R208). -/
def RunCell.shared (c : RunCell) : Bool := 2 ≤ c.kind

/-- After a NOACK in a shared cell: BE rises and BC is drawn; after a success both start again (R208). -/
def backoffResult (c : RunCell) (q : TxQueue) (good : Bool) : Act := look fun s =>
  if !c.shared then skip
  else if good then resetBackoff q.vi q.kind q.ctx
  else
    let be := min ((s.backoff q).1 + 1) (s.get (SHU.BOFF.MAXBE.copy q.vi))
    drawWord fun x => setBackoff q.vi q.kind q.ctx be (x % 2 ^ be)

/-- An attempt that requested an acknowledgement ends as ACKED or not (R206). -/
def attemptEnds (c : RunCell) (off : Nat) (acked : Bool) : Act := look fun s =>
  match s.queueOf c.vi off with
  | none => skip
  | some (q, e) =>
    chain [backoffResult c q acked,
      if acked then completeTx q.vi q.kind q.ctx e Status.ok
      else whenA (s.desc off 0 18 15 ≤ e.tries) (completeTx q.vi q.kind q.ctx e Status.noack)]

/-- Takes a wait out of the list. -/
def dropWait (w : AckWait) : Act := onShu fun u => { u with waits := u.waits.filter fun x => !(x.lane == w.lane && x.desc == w.desc) }

/-- The context that a transmission went to: the cell's neighbour, or the one its descriptor names. -/
def State.waitCtx (s : State) (w : AckWait) : Nat := s.desc w.desc 2 11 0

/-- Whether an acknowledgement that is secured has verified with the key its job took, and the EUI-64 of the context (R181). -/
def State.ackVerifies (s : State) (w : AckWait) (f : RxFrame) : Bool :=
  !f.mac.sec || (f.job == 3 && (openFrame f.secret (s.ctxEui (s.waitCtx w)) f.asn f.mac f.body).1)

/-- An acknowledgement whose counter passes, or which has none, is heard, its TC gives a drift measurement, and a secured one
is a confirmation; one whose counter is stale only counts as such (R229, R232, R233, R235, R238, R244). -/
def ackHeard (w : AckWait) (f : RxFrame) (tc : Option Nat) : Act := look fun s =>
  let m := f.mac
  let ctx := s.waitCtx w
  let heard : Act := chain [
    ctxHeard ctx f.asn f.rssi f.lqi,
    match tc with
    | some x =>
      let delta : Int := 256 * toS 12 x
      chain [driftUpdate ctx delta f.stamp, followTime ctx delta (w.cell.tk && w.cell.vi == s.tvi)]
    | none => skip]
  if !m.sec then heard
  else match s.checkCounter ctx f.asn m with
    | .accepted => chain [storeCounter ctx f.asn m, heard, confirmation ctx]
    | .stale => countCx ctx Cx.stales
    | .duplicate => skip

/-- A matching acknowledgement ends the wait: its context is heard, its frame-pending bit goes to the Thimble, and the attempt
ends (R181, R206, R282). -/
def ackMatched (w : AckWait) (f : RxFrame) : Act := look fun s =>
  let m := f.mac
  let ctx := s.waitCtx w
  let tc := (m.ies.find? fun e => e.1 == 0x1E && e.2.length == 2).map fun e => leNat e.2
  let nack := match tc with | some x => bitOf x 15 == 1 | none => false
  chain [dropWait w, whenA (s.stillHeld ctx w.cell.vi) (ackHeard w f tc),
    whenA (!nack && w.cell.vi == s.tvi && s.is (SHU.VISTAT.TSV.copy s.tvi) && s.get (SHU.VISTAT.TSCTX.copy s.tvi) == ctx)
      (framePending m.pend),
    attemptEnds w.cell w.desc (!nack)]

/-- The acknowledgement frame in a lane's buffer is compared with the waits of its lane: the first match ends one, and a
frame that matches none is counted stray (R181, R182). -/
def execAckMatch (lane : Fin 128) (buf : Fin 2) (s : State) : Host.Outcome State Fault Refusal :=
  act (withFrame lane buf fun f => look fun s => whenA (f.stage == 3 && f.awaits && f.job != 1 && f.job != 2 && s.pairRuns)
    (match s.shu.waits.find? fun w => w.meets f && s.ackVerifies w f with
    | some w => chain [ackMatched w f, onFrame lane buf fun x => { x with awaits := false }, releaseIfDone lane buf]
    | none => ackStray lane buf)) s

/-- The wait of a lane ends with no match: its window is over, the lane is not in QUALIFY, and no acknowledgement is in progress
or waits to be compared there (R181, R201, R206). -/
def execAckTimeout (lane : Fin 128) (s : State) : Host.Outcome State Fault Refusal :=
  act (look fun s => match s.shu.waits.find? (·.lane == lane.val) with
    | none => skip
    | some w =>
      whenA (s.pairRuns && (s.laneFrame lane).isNone && s.laneState lane != 5
          && !s.frm.frames.any fun f => f.lane == lane.val && f.awaits)
        (chain [until_ (w.ends + 4 * (w.cell.t.rxackd + w.cell.t.ackwait)),
          dropWait w, attemptEnds w.cell w.desc false])) s

/-! Frame jobs (R174, R207). -/

/-- The slot of a securing job is one that the VI owns with the frame-encrypt flag (R207). -/
def State.encSlot (s : State) (v n : Nat) : Bool :=
  s.get (KEY.KS.STATE.i n) == 1 && s.get (KEY.KS.VI.i n) == v && bitOf (s.get (KEY.KS.FLAGS.i n)) 1 == 1

/-- Changes a securing job. -/
def onJob (cell : Nat) (f : TxJob → TxJob) : Act := onShu fun u => { u with
  jobs := u.jobs.map fun j => if j.cell == cell then f j else j }

/-- Takes a securing job away, and its cell no longer transmits. -/
def dropJob (cell : Nat) : Act := chain [
  onShu fun u => { u with jobs := u.jobs.filter (·.cell != cell) }, onCell cell fun c => { c with granted := false }]

/-- A cell's frame completes with a status before an attempt is made; a beacon has no descriptor (R206, R209). -/
def cellFails (cell status : Nat) : Act := look fun s =>
  match s.shu.cells[cell]? with
  | none => skip
  | some c => chain [onCell cell fun c => { c with granted := false },
      match c.desc with
      | some off => (match s.queueOf c.vi off with
        | some (q, e) => completeTx q.vi q.kind q.ctx e status
        | none => skip)
      | none => skip]

/-- The counter of a frame is placed in its auxiliary security header (R207). -/
def withCounter (octets : List Nat) (m : Mac) (c : Nat) : List Nat :=
  octets.take (m.addrEnd + 1) ++ leOctets 4 c ++ octets.drop (m.addrEnd + 5)

/-- A securing job starts: it takes the key and the context's counter, which a frame whose counter is suppressed takes and does
not carry, or ends the frame (R207, R234). A beacon goes to no context, and no rule states the counter that it carries: a free
value. -/
def startSecuring (j : TxJob) : Act := look fun s =>
  let m := txMac j.octets
  let running : Act := chain [onJob j.cell fun x => { x with stage := 1, secret := s.key.keys.getD j.slot [] },
    onSec fun e => { e with frame := some (.secure j.cell) }, whenA j.secret.isEmpty reseed, put SEC.STAT.CLASS 2]
  if j.secret != [] then running
  else if m.fcSup && !m.asnNonce then chain [dropJob j.cell, cellFails j.cell Status.rsvdOp]
  else if !s.encSlot j.vi j.slot then chain [dropJob j.cell, cellFails j.cell Status.prot]
  else if m.sec && m.ver == 2 && 4096 ≤ j.ctx then
    draw fun x => chain [whenA (!m.fcSup)
      (onJob j.cell fun y => { y with counter := some x, octets := withCounter y.octets m x }), running]
  else if m.sec && m.ver == 2 then
    takeCounter j.ctx fun r => match r with
      | some c => chain [whenA (!m.fcSup)
          (onJob j.cell fun x => { x with counter := some c, octets := withCounter x.octets m c }), running]
      | none => chain [dropJob j.cell, cellFails j.cell Status.counterStale]
  else running

/-- A verification starts and takes its key (R368). -/
def startVerify (f : RxFrame) : Act := look fun s =>
  chain [onFrame f.lane f.buf fun x => { x with
      job := 2, secret := if x.secret.isEmpty then s.key.keys.getD f.slot [] else x.secret },
    onSec fun e => { e with frame := some (.verify f.lane f.buf) }, whenA f.secret.isEmpty reseed, put SEC.STAT.CLASS (if f.classP then 1 else 2)]

/-- The securing of an acknowledgement starts: it takes the context's TX frame counter once, or there is no acknowledgement
(R174, R176, R234, R368). -/
def startAnswer (f : RxFrame) : Act :=
  let ctx := (f.verdict.map (·.ctx)).getD 0
  let running : Act := chain [onFrame f.lane f.buf fun x => { x with job := 5 },
    onSec fun e => { e with frame := some (.answer f.lane f.buf) }, reseed, put SEC.STAT.CLASS 1]
  if f.mac.fcSup || f.ackCounter.isSome then running
  else takeCounter ctx fun r => match r with
    | some n => chain [onFrame f.lane f.buf fun x => { x with ackCounter := some n }, running]
    | none => chain [onFrame f.lane f.buf fun x => { x with job := 6 }, ackSettled f false]

/-- The frame job that runs goes back to wait, to resume later with the same result (R174). -/
def preempt : Act := look fun s =>
  match s.sec.frame with
  | some (.verify l b) => onFrame l b fun x => { x with job := 1 }
  | some (.answer l b) => onFrame l b fun x => { x with job := 4 }
  | some (.secure k) => onJob k fun j => { j with stage := 0 }
  | none => skip

/-- Whether the frame job that runs is of class P. -/
def State.runsP (s : State) : Bool :=
  match s.sec.frame with
  | some (.verify l b) => (match s.frameAt l b with | some f => f.classP | none => false)
  | some (.answer _ _) => true
  | _ => false

/-- The next frame job starts: class P, an acknowledgement's verification or securing, by deadline, before class F by stamp,
where a securing job has the tick of its slot. A class P job takes the engine from a class F job (R174). -/
def startFrameJob : Act := look fun s =>
  match s.nextVerify true with
  | some f => whenA (!s.runsP) (chain [preempt, if f.job == 4 then startAnswer f else startVerify f])
  | none =>
    whenA s.sec.frame.isNone
      (match s.nextVerify false, s.shu.jobs.find? (·.stage == 0) with
       | some f, some j => if s.shu.tick * 64 < f.stamp then startSecuring j else startVerify f
       | some f, none => startVerify f
       | none, some j => startSecuring j
       | none, none => skip)

/-- A frame job starts on the cipher engine (R174). -/
def execFrameJobStart (s : State) : Host.Outcome State Fault Refusal :=
  act (look fun s => whenA (s.domOn Dom.mac) startFrameJob) s

/-- The running verification ends: of a frame with its effects, of an acknowledgement so that it can be compared (R173, R181,
R359). -/
def verifyEnds (l b dual : Nat) : Act := chain [endFrameJob, withFrame l b fun f => chain [
  reseedsOf (ccmBlocks f.mac.hdrEnd (f.body.length - f.mac.hdrEnd - micLen f.mac.level)),
  onFrame l b fun x => { x with job := 3 }, dualSticky f.vi dual,
  if dual = 2 then discardFrame f else whenA (!f.awaits) (verified f), releaseIfDone l b]]

/-- The verification that runs on the engine ends (R173). -/
def execFrameVerifyDone (dual : Fin 3) (s : State) : Host.Outcome State Fault Refusal :=
  act (look fun s => match s.sec.frame with
    | some (.verify l b) => verifyEnds l b dual
    | _ => skip) s

/-- The octets of a secured transmission (R207): the header, the encrypted payload and the MIC. -/
def secureOctets (eui asn : Nat) (j : TxJob) : List Nat :=
  let m := txMac j.octets
  let m := { m with counter := j.counter }
  let hdr := j.octets.take m.hdrEnd
  let pay := j.octets.drop m.hdrEnd
  let nonce := frameNonce eui m asn
  let tag := ccmTag j.secret nonce (if m.level < 4 then hdr ++ pay else hdr) (if m.level < 4 then [] else pay)
    (micLen m.level)
  if !m.sec || m.ver != 2 then j.octets
  else hdr ++ (if m.level < 4 then pay else ccmCrypt j.secret nonce pay) ++ tag

/-- The securing of a cell's frame ends: its octets are ready for the staging buffer, or after two disagreements the frame
completes with ECC_UNCORR (R207, R359). -/
def securingEnds (k dual : Nat) : Act := look fun s => chain [endFrameJob,
  match s.shu.jobs.find? (·.cell == k) with
  | none => skip
  | some j => chain [dualSticky j.vi dual, reseedsOf (ccmBlocks (txMac j.octets).hdrEnd (j.octets.length - (txMac j.octets).hdrEnd)),
      if dual = 2 then chain [dropJob k, cellFails k Status.eccUncorr]
      else onJob k fun x => { x with stage := 2, octets := secureOctets s.ownEui s.shu.asn j }]]

/-- The securing of an acknowledgement ends; after two disagreements it is not sent (R174, R359). -/
def answerEnds (l b dual : Nat) : Act := chain [endFrameJob, withFrame l b fun f => chain [
  onFrame l b fun x => { x with job := 6 }, dualSticky f.vi dual, whenA (dual = 2) (ackSettled f false)]]

/-- The securing job that runs on the engine ends (R174, R207). -/
def execTxSecureDone (dual : Fin 3) (s : State) : Host.Outcome State Fault Refusal :=
  act (look fun s => match s.sec.frame with
    | some (.secure k) => securingEnds k dual
    | some (.answer l b) => answerEnds l b dual
    | _ => skip) s

end Sys2Proof.Machine
end

