-- ==== Sys2Proof/Machine/Memory.lean ====
section
/-! DEFINITION. Loads and stores of memory: the areas of MRAM (R430 to R432), words with errors (R455 to R462), the Bobbin
store (R219), and what a reopen hides (R600). -/

namespace Sys2Proof.Machine

/-! Errors (R455 to R462). -/

/-- The memory number and the code word's offset of an address (R455). -/
def memWord (a : Nat) : Option (Nat × Nat) :=
  if Base.sram ≤ a ∧ a < 0x20200000 then some (0, (a - Base.sram) / 8 * 8)
  else if Base.fram ≤ a ∧ a < 0x30100000 then some (1, (a - Base.fram) / 8 * 8)
  else if Base.bobbin ≤ a ∧ a < 0x24080000 then some (2, (a - Base.bobbin) / 8 * 8)
  else if Base.mram ≤ a ∧ a < 0x28040000 then some (4, (a - Base.mram) / 8 * 8)
  else if Base.flashA ≤ a ∧ a < Base.flashB then some (5, (a - Base.flashA) / 16 * 16)
  else if Base.flashB ≤ a ∧ a < 0x08800000 then some (6, (a - Base.flashB) / 16 * 16)
  else none

/-- The code words of a range. -/
def memWords (a n : Nat) : List (Nat × Nat) :=
  ((List.range n).filterMap fun k => memWord (a + k)).eraseDups

/-- The base of a memory. -/
def memBase (m : Nat) : Nat :=
  [Base.sram, Base.fram, Base.bobbin, Base.bobbin, Base.mram, Base.flashA, Base.flashB].getD m 0

/-- Whether a range holds a word with an uncorrectable error. -/
def State.ue (s : State) (a n : Nat) : Bool :=
  s.ecc.bad.any fun w => match memWord a, memWord (a + n - 1) with
    | some x, some y => n != 0 && w.1 == x.1 && x.2 ≤ w.2 && w.2 ≤ y.2
    | _, _ => false

/-- The sector of a flash bank that holds an offset (R433). -/
def sectorOf (off : Nat) : Nat := if off < 0x10000 then off / 0x2000 else 7 + off / 0x10000

/-- Adds one to a counter of a memory, saturating at 16 bits. -/
def bump (m : Nat) (l : List Nat) : List Nat := l.modify m fun c => min (c + 1) 0xFFFF

/-- The INFO word of a report of the MEM page (R466). -/
def eccInfo (w : Nat × Nat) : Nat := w.1 * 2 ^ 28 + w.2

/-- A read finds a correctable error (R456 to R458). -/
def ceFound (w : Nat × Nat) : Act := look fun s =>
  let log := s.ecc.log.getD w.1 []
  chain [onEcc fun e => { e with ce := bump w.1 e.ce },
    stickI MEM.STICKY.CE 0 (eccInfo w),
    if 5 ≤ w.1 then
      let k := sectorOf w.2
      let n := match s.ecc.sectors.find? fun x => x.1 == w.1 - 5 && x.2.1 == k with | some x => x.2.2 | none => 0
      onEcc fun e => { e with sectors :=
        (e.sectors.filter fun x => !(x.1 == w.1 - 5 && x.2.1 == k)) ++ [(w.1 - 5, k, min (n + 1) 0xFFFF)] }
    else if log.any fun x => x.1 == w.2 && x.2 != 0 then
      onEcc fun e => { e with log := e.log.modify w.1 fun l => l.map fun x =>
        if x.1 == w.2 && x.2 != 0 then (x.1, min (x.2 + 1) 15) else x }
    else match (List.range 16).find? fun k => (log.getD k (0, 0)).2 == 0 with
      | some k => onEcc fun e => { e with log := e.log.modify w.1 fun l => l.set k (w.2, 1) }
      | none => chain [onEcc fun e => { e with lost := bump w.1 e.lost }, stickI MEM.STICKY.LOGOVF 0 (eccInfo w)]]

/-- A read finds an uncorrectable error (R460). -/
def ueFound (w : Nat × Nat) : Act := chain [
  onEcc fun e => { e with ue := bump w.1 e.ue, last := e.last.set w.1 (w.2, true) },
  stickI MEM.STICKY.UE 0 (eccInfo w)]

/-- A read of a range meets the errors that its words hold. -/
def touch (a n : Nat) : Act := look fun s =>
  whenA (!s.ecc.bad.isEmpty || !s.ecc.fresh.isEmpty)
    (eachA (memWords a n) fun w => chain [whenA (s.ecc.bad.contains w) (ueFound w),
      whenA (s.ecc.fresh.contains w) (ceFound w)])

/-- Whole code words are written: their errors end, and write-backs are cancelled (R457, R460). -/
def heal (a n : Nat) : Act := look fun s =>
  let whole (w : Nat × Nat) : Bool := a ≤ memBase w.1 + w.2 && memBase w.1 + w.2 + (if w.1 < 5 then 8 else 16) ≤ a + n
  whenA (!s.ecc.bad.isEmpty || !s.ecc.fresh.isEmpty) (onEcc fun e => { e with
    bad := e.bad.filter fun w => !whole w
    fresh := e.fresh.filter fun w => !(n != 0 && match memWord a, memWord (a + n - 1) with
      | some x, some y => w.1 == x.1 && x.2 ≤ w.2 && w.2 ≤ y.2
      | _, _ => false) })

/-! Hidden memory (R600). -/

/-- Whether a flash sector is marked secret (R598). -/
def State.secretSector (s : State) (bank k : Nat) : Bool :=
  s.is ((if bank = 0 then DBG.SECMAPA.S else DBG.SECMAPB.S).mapBit k)

/-- Whether the erasure of a reopen hides an address, and what it reads as (R600). -/
def State.hidden (s : State) (a : Nat) : Option Nat :=
  if !s.is DBG.STAT.ERASING then none
  else if Base.mram ≤ a ∧ a < 0x28004000 then some 0
  else if Base.flashA ≤ a ∧ a < 0x08800000 then
    let b := if a < Base.flashB then 0 else 1
    if s.secretSector b (sectorOf (a % 0x400000)) then some 0xFF else none
  else none

/-! Reads that stall (R433, R435). -/

/-- The base of a flash bank. -/
def bankBase (b : Nat) : Nat := if b = 0 then Base.flashA else Base.flashB

/-- The bank that holds an address. -/
def bankAt (a : Nat) : Option Nat :=
  if Base.flashA ≤ a ∧ a < Base.flashB then some 0 else if Base.flashB ≤ a ∧ a < 0x08800000 then some 1 else none

/-- A bank. -/
def State.bank (s : State) (b : Nat) : FlashBank := s.flc.banks.getD b {}

/-- What a read that stalls returns once the program of its unit has ended: a read of a busy bank stalls where the operation may
not be suspended or reads do not suspend it (R435). -/
def State.stalled (s : State) (a : Nat) : Option Nat :=
  match (bankAt a).bind fun b => (s.bank b).op with
  | some o => if o.kind == 1 && !o.paused && (o.noSusp || !s.is FLC.CTRL.AUTOSUSP) && o.addr ≤ a then o.data[a - o.addr]? else none
  | none => none

/-- The byte that an initiator reads at an address. -/
def State.load1 (s : State) (a : Nat) : Nat := ((s.hidden a).orElse fun _ => s.stalled a).getD (s.byte a)

/-- The little-endian number that an initiator reads at an address. -/
def State.load (s : State) (a : Nat) : Nat → Nat
  | 0 => 0
  | n + 1 => s.load1 a + 256 * s.load (a + 1) n

/-! Stores. -/

/-- What a store to an MRAM address meets (R430, R432): a sticky bit, or nothing where it takes place. -/
def State.mramRefusal (s : State) (a : Nat) : Option Act :=
  let off := a - Base.mram
  if 0x36800 ≤ off ∧ off < 0x3F800 then some (stick NVS.STICKY.SYSWR)
  else if 0x3F800 ≤ off ∧ off < 0x3FC00 then some (stick VIF.STICKY.TENWR)
  else if 0x3FC00 ≤ off ∧ off < 0x3FC80 then some (stick CMD.STICKY.CTRWR)
  else if 0x3FC80 ≤ off ∧ off < 0x3FFC0 then some (stick NVS.STICKY.SYSWR)
  else if !s.is NVS.CTRL.WEN then some (stick NVS.STICKY.WDIS)
  else none

/-- A store of `n` bytes, not across a code word, that no rule refuses: a narrow one to a word with an uncorrectable error is
not performed (R459, R460, R462). -/
def storeWord (a n v : Nat) : Act := look fun s =>
  match memWord a with
  | none => setBytes a n v
  | some w =>
    if s.ecc.bad.contains w && n < 8 then chain [stickI MEM.STICKY.UEWR 0 (eccInfo w), ueFound w]
    else chain [whenA (s.ecc.fresh.contains w && n < 8) (ceFound w), heal a n, setBytes a n v]

/-- A word enters the MRAM write buffer of 4 (R431). -/
def postMram : Act := look fun s => put NVS.STAT.WBUF (min 4 (s.get NVS.STAT.WBUF + 1))

/-- A store by an initiator to a physical memory address inside one 64-bit word. -/
def storeMem (a n v : Nat) : Act := look fun s =>
  if Base.bobbin ≤ a ∧ a < 0x24080000 then stick BOB.STICKY.WINWR
  else if (s.hidden a).isSome then skip
  else if Base.mram ≤ a ∧ a < 0x28040000 then
    match s.mramRefusal a with
    | some r => r
    | none => chain [storeWord a n v, postMram]
  else storeWord a n v

/-- A store of a list of octets, in pieces that do not cross a 64-bit word. -/
def storeOctets : Nat → Nat → List Nat → Act
  | 0, _, _ => skip
  | _, _, [] => skip
  | k + 1, a, l =>
    let n := 8 - a % 8
    chain [storeMem a (min n l.length) (leNat (l.take n)), storeOctets k (a + n) (l.drop n)]

/-- A store to memory through the map (R42, R44, R46). -/
def storeAt (i : Initiator) (a n v : Nat) : Act := look fun s =>
  match s.route i a true with
  | .mem p => storeMem p n v
  | r => refusal i a r

/-- A store to an area of MRAM (R430, R432). -/
def execMramProtectedStore (i : Initiator) (off : Fin 0x40000) (w : Word) (s : State) : Host.Outcome State Fault Refusal :=
  act (storeAt i ((Base.mram + off) / 4 * 4) 4 w.toNat) s

/-- A word of the write buffer is written (R431). -/
def execMramWriteCommit (s : State) : Host.Outcome State Fault Refusal :=
  act (look fun s => whenA (s.domOn Dom.core) (put NVS.STAT.WBUF (s.get NVS.STAT.WBUF - 1))) s

/-! The error commands (R457, R463 to R465). -/

/-- The bytes of a memory. -/
def memSize (m : Nat) : Nat := [0x200000, 0x100000, 0x80000, 0x80000, 0x40000, 0x400000, 0x400000].getD m 0

/-- The domain of a memory. -/
def memDomain (m : Nat) : Nat := [Dom.core, Dom.mac, Dom.mac, Dom.mac, Dom.core, Dom.nvm, Dom.nvm].getD m 0

/-- The lap ends once no engine is left in it, and its time is taken (R464). -/
def lapEnds : Act := look fun s =>
  whenA (s.get MEM.STAT.SCRUN == 0 && s.is MEM.STAT.LAPRUN) (match s.ecc.lapFrom with
    | some t =>
      let ms := min ((s.tb - t) / 4000) 0xFFFFFFFF
      chain [put MEM.STAT.LAPRUN 0, put MEM.LASTLAP.MS ms, put MEM.MAXLAP.MS (max (s.get MEM.MAXLAP.MS) ms),
        onEcc fun e => { e with lapFrom := none }]
    | none => skip)

/-- An engine has read its last word; the lap ends with the last of them (R464). -/
def engineDone (m : Nat) : Act := look fun s =>
  chain [put MEM.STAT.SCRUN (withBit (s.get MEM.STAT.SCRUN) m false), lapEnds]

/-- The code word of a memory at an offset (R455). -/
def scrubWord (m off : Nat) : Nat × Nat := (m, if m < 5 then off / 8 * 8 else off / 16 * 16)

/-- Whether the code word that holds a word of a context has a copy in the lining: that of words 0 to 6 and 14 to 25 (R344). -/
def linedWord (word : Nat) : Bool := word < 8 || (14 ≤ word && word < 26)

/-- Whether the scrub engine of a memory reads at an offset (R463); the lining holds no other offsets than those it copies (R455). -/
def State.scrubs (s : State) (m off : Nat) : Bool :=
  off < memSize m && (m != 3 || linedWord (off % 128 / 4)) && s.domOn (memDomain m) && s.domOn Dom.core
    && bitOf (s.get MEM.CTRL.SCREN) m == 1

/-- The offset behind the last code word that an engine reads; the lining's last one copies words 24 and 25 (R344, R464). -/
def scrubEnd (m : Nat) : Nat := if m = 3 then 0x7FFE8 else memSize m

/-- The engine has finished the running lap where the word was its last (R464). -/
def scrubPast (m off : Nat) : Act := look fun s =>
  whenA (bitOf (s.get MEM.STAT.SCRUN) m == 1 && scrubEnd m ≤ (scrubWord m off).2 + (if m < 5 then 8 else 16)) (engineDone m)

/-- A scrub engine reads the word at an offset and finds it good (0), with a correctable error (1), or with an
uncorrectable one (2) (R463). Where the model starts to hold an error, it is because of this command. -/
def scrubRead (m off found : Nat) : Act := look fun s =>
  let w := scrubWord m off
  if s.ecc.bad.contains w || found == 2 then
    chain [onEcc fun e => { e with bad := if e.bad.contains w then e.bad else e.bad ++ [w] }, ueFound w]
  else whenA (found == 1 || s.ecc.fresh.contains w)
    (chain [onEcc fun e => { e with fresh := if e.fresh.contains w then e.fresh else e.fresh ++ [w] }, ceFound w])

/-- A corrected word of memories 0 to 4 is written back in an idle cycle (R457). -/
def execEccWriteBack (m : Fin 5) (off : Nat) (s : State) : Host.Outcome State Fault Refusal :=
  act (onEcc fun e => { e with fresh := e.fresh.filter (· != (m.val, off / 8 * 8)) }) s

/-- TB units in a period of LAPPER (R464). -/
def State.lapPeriod (s : State) : Nat := s.get MEM.LAPPER.SEC * 4000000

/-- A lap starts: every enabled engine whose domain is on starts at offset 0; with none, the lap ends at once. A lap that still
runs delays it (R464; the first lap and a disabled engine: notes/assumptions/64.md). -/
def execScrubLapStart (s : State) : Host.Outcome State Fault Refusal :=
  act (look fun s => whenA (s.domOn Dom.core && !s.is MEM.STAT.LAPRUN) (chain [until_ s.ecc.lapDue,
    look fun s => onEcc fun e => { e with
      lapFrom := some s.tb
      slow := false
      lapDue := e.lapDue + ((s.tb - e.lapDue) / s.lapPeriod + 1) * s.lapPeriod },
    put MEM.STAT.LAPRUN 1,
    put MEM.STAT.SCRUN (((List.range 7).filter fun m => bitOf (s.get MEM.CTRL.SCREN) m == 1 && s.domOn (memDomain m)).map
      (2 ^ ·)).sum, lapEnds])) s

/-- The running lap reaches LAPMAX ms (R465). -/
def execLapSlow (s : State) : Host.Outcome State Fault Refusal :=
  act (look fun s => match s.ecc.lapFrom with
    | some t => whenA (!s.ecc.slow && s.is MEM.STAT.LAPRUN) (chain [until_ (t + s.get MEM.LAPMAX.MS * 4000),
        onEcc fun e => { e with slow := true }, stick MEM.STICKY.LAPSLOW])
    | none => skip) s

/-- A write of LOGCLR by an initiator (R458, R466). -/
def writeLogclr (i : Initiator) (w : Nat) : Act := look fun s =>
  let m := s.get (MEM.LOGSEL.NUM.copy (iniCopy i))
  whenA (bitOf w 0 == 1)
    (if m < 5 then onEcc fun e => { e with log := e.log.set m (List.replicate 16 (0, 0)) }
     else onEcc fun e => { e with sectors := e.sectors.filter (·.1 != m - 5) })

/-- A write of MEM.LOGCLR (R458). -/
def execLogclr (i : Initiator) (s : State) : Host.Outcome State Fault Refusal :=
  act (atRegister i 0 MEM.LOGCLR true (writeLogclr i 1)) s

end Sys2Proof.Machine
end

