-- ==== Sys2Proof/Machine/Chain.lean ====
section
/-! DEFINITION. The transmit chains: what every transmission does from its staging buffer to its ramp-down (R86 to R88, R149
to R160), direct transmissions (R155 to R157), the mask monitor (R158, R159) and acknowledgements on air (R180, R302). -/

namespace Sys2Proof.Machine

/-! Transmit parameter words (R149). -/

namespace TxRun
def power0 (r : TxRun) : Int := toS 8 (bits r.w0 31 24)
def plan (r : TxRun) : Nat := bits r.w0 23 22
def chan (r : TxRun) : Nat := bits r.w0 21 11
def len (r : TxRun) : Nat := bits r.w0 10 0
def prelen (r : TxRun) : Nat := bits r.w1 31 22
def shape (r : TxRun) : Nat := bitOf r.w1 21
def fcs2 (r : TxRun) : Bool := bitOf r.w1 20 == 1
def fec (r : TxRun) : Bool := bitOf r.w1 16 == 1
def midx (r : TxRun) : Nat := bits r.w1 14 13
def mode (r : TxRun) : Nat := bits r.w1 12 9
end TxRun

/-- Whether a run is a direct transmission or a wake burst. -/
def TxRun.isDirect (r : TxRun) : Bool := r.what == .direct || r.what == .wake

/-- Whether a run is an acknowledgement. -/
def TxRun.isAck (r : TxRun) : Bool := match r.what with | .ack _ _ => true | _ => false

/-- The run that ramps or is on air on a chain. -/
def ChainSt.busy (c : ChainSt) : Option TxRun := c.runs.find? fun r => r.phase != 0

/-- TB at which the last bit has left, from the start stamp and the air time (R50, R86, R140). -/
def TxRun.lastTb (r : TxRun) : Nat := r.tb + ceilDiv (64 * r.air + 3 * r.fine) 192

/-- Replaces the run that ramps or is on air. -/
def onBusy (c : Nat) (f : TxRun → TxRun) : Act := onChain c fun x => { x with
  runs := x.runs.map fun r => if r.phase != 0 then f r else r }

/-- The air time of a run in twelfths of a µs: R140, or 12 ms for each frame of a wake burst (R160, R263). -/
def State.airOf (s : State) (c : Nat) (r : TxRun) : Nat :=
  if r.what == .wake then 144000 * s.get (TXP.CWAKE.WREP.i c)
  else frameSymbols r.mode r.len r.prelen r.fec * 12000000 / symbolRate r.mode

/-- The tap words of a shaping set of a chain (R162). -/
def State.tapWords (s : State) (c set : Nat) : List Nat :=
  (List.range 16).map fun i => (s.reg (TXP.C0S0LO.key + 0x80 * c + 0x40 * set + 4 * i)).toNat

/-- The sum of a shaping set's taps (R153). -/
def State.firSum (s : State) (c set : Nat) : Int :=
  (s.tapWords c set).foldl (fun a w => a + toS 16 (w / 65536) + toS 16 w) 0

/-- The checks of R150 on a transmission of chain `c`. Of a wake burst, which has no PSDU and no CcDW1, those that are left
are the channel, the carrier and the port (notes/assumptions/61.md, DESIGN CHOICE). -/
def State.wordsOk (s : State) (c : Nat) (r : TxRun) : Bool :=
  s.channelOk r.plan r.chan && s.is (RFE.PCFG.EN.i (s.chainPort c))
    && (r.what == .wake || (r.mode ≤ 12 && r.midx ≤ 2 && 4 ≤ r.prelen && r.prelen ≤ 1000 && fcsLen r.fcs2 + 1 ≤ r.len))

/-- Whether a frame is a rejoin frame: an extended source address and the rejoin IE first (R246). -/
def State.isRejoin (s : State) (v : Nat) (octets : List Nat) : Bool :=
  let m := txMac octets
  m.sm == 3 && (m.rejoin (s.get (SHU.FORMOUI.OUI.copy v))).isSome

/-- The transmission as the duty check sees it (R263, R264). -/
def State.emissionOf (s : State) (c : Nat) (r : TxRun) : Emission :=
  ⟨r.vi, s.channelHz r.plan r.chan, if r.what == .wake then 25000 else modeBandwidth r.mode, s.airOf c r, r.isAck⟩

/-- CEIL of a port for a transmission in sub-band `sb` (R87, R92). -/
def State.ceiling (s : State) (port sb : Nat) : Int :=
  let ext := s.is (RFE.PCFG.PAPATH.i port)
  let a := if ext then s.getS (RFE.PPLIM.OTPEXT.i port) else s.getS (RFE.PPLIM.OTPINT.i port)
  let b := min (s.getS (RFE.PPWR.PMAX.i port)) (s.getS (DUT.SBSW.EIRP.i sb) - s.get (RFE.PPWR.AGAIN.i port))
  let x := min a (if ext then min b (8 + (s.get (RFE.PPWR.EPAGAIN.i port) : Int)) else b)
  if (s.rfPort port).severe then x - 12 else x

/-! Endings. -/

/-- Takes a run off its chain. -/
def dropRun (c : Nat) (r : TxRun) : Act := onChain c fun x => { x with runs := x.runs.filter (· != r) }

/-- TB at which the ramp-up of a waiting run is due to start; a direct one waits for a slot of its own (R86, R156). -/
def State.rampTbAt (s : State) (c : Nat) (r : TxRun) : Nat :=
  let t := r.start - s.rampTb (s.chainPort c)
  if r.isDirect && !(s.txChain c).direct then max t s.clk.nextTick else t

/-- EPAn and EPBn of a port fall (R72). -/
def paOff (port : Nat) : Act := onPort port fun p => { p with epa := false }

/-- After waiting runs have gone, EPAn of the chain's port falls unless a transmission is on air or due within 2 µs (R72). -/
def paSettle (c : Nat) : Act := look fun s =>
  whenA ((s.txChain c).busy.isNone && !((s.txChain c).runs.any fun r => s.rampTbAt c r ≤ s.tb + 8)) (paOff (s.chainPort c))

/-- A direct transmission ends: DONE and STATUS are written, GO falls (R155, R157). -/
def directDone (c status : Nat) : Act :=
  chain [put (TXP.CDSTAT.ARMED.i c) 0, put (TXP.CDSTAT.RUN.i c) 0, put (TXP.CDSTAT.DONE.i c) 1,
    put (TXP.CDSTAT.STATUS.i c) status, put (TXP.CDCTRL.GO.i c) 0]

/-- A queued frame completes with a status. -/
def queuedDone (v desc status : Nat) : Act := look fun s =>
  match s.queueOf v desc with
  | some (q, e) => completeTx q.vi q.kind q.ctx e status
  | none => skip

/-- A run is refused at its ramp-up: nothing is sent, and no attempt is counted (R72, R150, R180, R206, R246, R265). -/
def refuseRun (c : Nat) (r : TxRun) (status : Nat) : Act := look fun s =>
  chain [dropRun c r, paOff (s.chainPort c),
    match r.what with
    | .queued d _ => queuedDone r.vi d status
    | .ack _ _ => ackMissed r.vi
    | .direct => directDone c status
    | .wake => directDone c status
    | _ => skip]

/-! The ramp-up (R86 to R88, R150, R153, R157, R246, R265, R266). -/

/-- The packet finders of a port that starts or ends its transmission: averaging starts again, and a lane in QUALIFY goes
back to ENERGY, but not while the gain settles (R78, R115). -/
def restartFinders (p : Nat) : Act := look fun s =>
  eachA ((List.range 128).filter fun n => s.lanePort n == p
    && (s.laneState n == 4 || s.laneState n == 5 && s.laneMoves n)) fun n =>
      if s.laneState n == 5 then laneEnter n 4 else onLane n fun l => { l with since := s.tb }

/-- The attempt of a queued frame is counted (R206). -/
def countTry (v desc : Nat) : Act := look fun s =>
  match s.queueOf v desc with
  | some (q, e) => onQueue q.vi q.kind q.ctx fun x => { x with
      descs := x.descs.map fun d => if d.off == e.off then { d with tries := d.tries + 1 } else d }
  | none => skip

/-- The power of a transmission in 0.5 dB: the lower of the requested one and the ceiling, and not below what the integrated PA
or PAOn can send: -10 dBm, or -20 dBm before an external PA (R72, R86, R87; notes/assumptions/61.md, DESIGN CHOICE where the
ceiling lies below). -/
def State.sentPower (s : State) (port : Nat) (power ceil : Int) : Int :=
  max (if s.is (RFE.PCFG.PAPATH.i port) then (s.get (RFE.PPWR.EPAGAIN.i port) : Int) - 40 else -20) (min power ceil)

/-- An admitted transmission starts its ramp-up at the present TB, and keeps from then on what later writes do not reach
(R86, R153, R159, R160). -/
def rampStart (c : Nat) (r : TxRun) (sb : Nat) : Act := look fun s =>
  let port := s.chainPort c
  let e := s.emissionOf c r
  let ceil := s.ceiling port sb
  chain [
    putS (RFE.PPLIM.CEIL.i port) (clampS (-128) 127 ceil),
    whenA (ceil < r.power0) (stick RFE.STICKY.PCLAMP),
    chargeAir (s.chargeOf sb e) e.dur,
    onChain c fun x => { x with runs := x.runs.map fun y => if y == r then { r with
      phase := 1, port, fc := e.fc, power := s.sentPower port r.power0 ceil, air := e.dur, rampAt := s.tb
      charge := some (s.chargeOf sb e), ramp := s.rampTb port, coefs := s.tapWords c r.shape
      masks := [TXP.CMASK1.i c, TXP.CMASK2.i c, TXP.CMCFG.i c].map fun f => (s.reg f.key).toNat
      wake := (s.reg (TXP.CWAKE.i c).key).toNat } else y },
    put (if c = 0 then TXP.STAT.BUSY0 else TXP.STAT.BUSY1) 1,
    onPort port fun p => { p with exitAt := none }, put (portFld port) 2,
    blankPort port, restartFinders port, whenA (port == 0) (put THM.STAT.INFR 0),
    match r.what with
    | .queued d _ => countTry r.vi d
    | .ack _ _ => count FRM.CNT0.ACKSENT
    | .direct => chain [put (TXP.CDSTAT.ARMED.i c) 0, put (TXP.CDSTAT.RUN.i c) 1]
    | .wake => chain [put (TXP.CDSTAT.ARMED.i c) 0, put (TXP.CDSTAT.RUN.i c) 1]
    | .beacon => onShu fun u => { u with beacons := u.beacons.filter (·.1 != r.vi) ++ [(r.vi, r.asn)] }
    | .formation => skip]

/-- The ramp-up of a run: the checks of R150, the shaping set's sum (R153), rejoin-only for a direct frame, and the duty
check. -/
def rampUp (c : Nat) (r : TxRun) : Act := look fun s =>
  let sum := s.firSum c r.shape
  let bad := r.what != .wake && (sum < 16220 || 16548 < sum)
  if bad || !s.wordsOk c r then
    chain [whenA bad (stickV TXP.STICKY.SHAPEBAD r.vi), refuseRun c r Status.rsvdOp]
  else if r.what == .direct && s.is BOB.CTRL.RJONLY && !s.isRejoin 0 r.octets then
    chain [stick BOB.STICKY.RJBLOCK, refuseRun c r Status.prot]
  else match s.dutyCheck (s.emissionOf c r) with
    | .error (reason, sb) => chain [denied r.vi reason sb, refuseRun c r Status.dutyDenied]
    | .ok sb => rampStart c r sb

/-- The run that starts next on a chain: the earliest that is no acknowledgement, and a direct one only in a direct slot
(R156). -/
def State.nextRun (s : State) (c : Nat) : Option TxRun :=
  let x := s.txChain c
  leastBy (·.start) (x.runs.filter fun r => r.phase == 0 && !r.isAck && r.isDirect == x.direct)

/-- The acknowledgement that starts next on a chain. -/
def State.nextAck (s : State) (c : Nat) : Option TxRun :=
  leastBy (·.start) ((s.txChain c).runs.filter fun r => r.phase == 0 && r.isAck)

/-- EPAn is driven high 2 µs before a ramp-up is due on an external PA (R72). -/
def execExternalPaEnable (c : Fin 2) (s : State) : Host.Outcome State Fault Refusal :=
  act (look fun s =>
    let port := s.chainPort c
    match leastBy (s.rampTbAt c) ((s.txChain c).runs.filter fun r => r.phase == 0 && (r.isAck || r.isDirect || !(s.txChain c).direct)) with
    | none => skip
    | some r => whenA (s.is (RFE.PCFG.PAPATH.i port))
        (chain [until_ (s.rampTbAt c r - 8), onPort port fun p => { p with epa := true }])) s

/-- The acknowledgement of a chain, once it is due: its ramp-up starts, or it finds the chain busy and is not sent (R180,
R302). -/
def ackTurn (c : Nat) : Act := look fun s =>
  match s.nextAck c with
  | none => skip
  | some r => whenA (s.rampTbAt c r ≤ s.tb)
      (if (s.txChain c).busy.isSome || !s.domOn Dom.tx then chain [dropRun c r, paSettle c, ackMissed r.vi] else rampUp c r)

/-- The cell or direct transmission of a chain, once it is due: its ramp-up starts; a cell transmission that finds its chain
busy is not started and stays queued (R86, R154, R202). -/
def rampTurn (c : Nat) : Act := look fun s =>
  match s.nextRun c with
  | none => skip
  | some r => whenA (s.domOn Dom.tx && s.rampTbAt c r ≤ s.tb)
      (if (s.txChain c).busy.isSome then whenA (!r.isDirect) (chain [dropRun c r, paSettle c]) else rampUp c r)

/-- What precedes a ramp-up in its cycle: the bucket rolls, then the acknowledgements, TXA's first (R267). -/
def turnsFirst : Act := chain [rollsFirst, ackTurn 0, ackTurn 1]

/-- A cell or direct transmission starts its ramp-up, on TXB after TXA's of the same cycle (R86, R154, R202, R267). -/
def execTxRampUp (c : Fin 2) (s : State) : Host.Outcome State Fault Refusal :=
  act (look fun s => match s.nextRun c with
    | none => skip
    | some r => whenA (s.domOn Dom.tx) (chain [until_ (s.rampTbAt c r), turnsFirst, whenA (c.val = 1) (rampTurn 0), rampTurn c])) s

/-- The earliest acknowledgement of a chain starts its ramp-up, after the rolls of its cycle and on TXB after TXA's (R180,
R267, R302). -/
def execAckDue (c : Fin 2) (s : State) : Host.Outcome State Fault Refusal :=
  act (look fun s => match s.nextAck c with
    | none => skip
    | some r => chain [until_ (s.rampTbAt c r), rollsFirst, whenA (c.val = 1) (ackTurn 0), ackTurn c]) s

/-- The first preamble bit at the PA output: the stamp, with the chain's fine fraction, and producer TXSTART (R50, R62,
R86, R532). -/
def execTxPreambleStart (c : Fin 2) (fine : Fin 64) (s : State) : Host.Outcome State Fault Refusal :=
  act (look fun s => match (s.txChain c).busy with
    | none => skip
    | some r =>
      let t := r.rampAt + r.ramp
      whenA (r.phase == 1) (chain [until_ t, onBusy c fun x => { x with phase := 2, tb := t, fine := fine },
        pulse (32 + c),
        match r.what with
        | .queued d _ => (match s.queueOf r.vi d with
          | some (q, e) => onQueue q.vi q.kind q.ctx fun x => { x with
              descs := x.descs.map fun y => if y.off == e.off then { y with tb := t, fine := fine, asn := r.asn } else y }
          | none => skip)
        | _ => skip])) s

/-- The last bit leaves the PA; a transmission that requests an acknowledgement begins its wait (R86, R181, R201). -/
def execTxLastBit (c : Fin 2) (s : State) : Host.Outcome State Fault Refusal :=
  act (look fun s => match (s.txChain c).busy with
    | none => skip
    | some r => whenA (r.phase == 2) (chain [until_ r.lastTb,
        onBusy c fun x => { x with phase := 3 },
        match r.what with
        | .queued d k => (match k.lane with
          | some n => whenA r.ackReq (look fun s =>
              if s.shu.disturbed && s.shu.pair.stage == 0 then attemptEnds k d false else onShu fun u => { u with waits := u.waits ++ [⟨n, k, d, r.octets, s.tb⟩] })
          | none => skip)
        | _ => skip])) s

/-- The ramp-down ends: the buffer is freed, the port leaves TX 20 µs later, and the transmission ends with its status
(R69, R72, R154, R157, R206). -/
def rampDownEnd (c : Nat) (r : TxRun) : Act := look fun s =>
  chain [
    onChain c fun x => { x with runs := x.runs.filter fun y => y.phase == 0 },
    put (if c = 0 then TXP.STAT.BUSY0 else TXP.STAT.BUSY1) 0, paOff r.port,
    onPort r.port fun p => { p with exitAt := some (s.tb + 80) },
    match r.what with
    | .queued d k =>
      if r.status != Status.ok then queuedDone r.vi d r.status
      else whenA (!r.ackReq) (attemptEnds k d true)
    | .direct => chain [directDone c r.status, put (TXP.CDSTAMP.TB.i c) r.tb, put (TXP.CDSTAMP.FINE.i c) r.fine]
    | .wake => chain [directDone c r.status, put (TXP.CDSTAMP.TB.i c) r.tb, put (TXP.CDSTAMP.FINE.i c) r.fine]
    | _ => skip]

/-- The ramp-down of a chain ends (R86, R154). -/
def execTxRampDownEnd (c : Fin 2) (s : State) : Host.Outcome State Fault Refusal :=
  act (look fun s => match (s.txChain c).busy with
    | none => skip
    | some r => whenA (r.phase == 3)
      (chain [until_ (r.lastTb + r.ramp), rampDownEnd c r])) s

/-- A port leaves TX 20 µs after the ramp-down's end, and its lanes take up their work (R69, R115). -/
def execPortTxExit (n : Fin 2) (s : State) : Host.Outcome State Fault Refusal :=
  act (look fun s => match (s.rfPort n).exitAt with
    | none => skip
    | some t => chain [until_ t, onPort n fun p => { p with exitAt := none },
        put (portFld n) (if s.is (RFE.PCFG.EN.i n) && s.portPowered n then 1 else 0), checkPort n, restartFinders n]) s

/-- The return loss of a port in 0.25 dB, measured over the 64 µs after the ramp-up or the whole transmission, once for each
transmission at the integrated PA (R90). -/
def execReturnLossMeasure (n : Fin 2) (loss : Nat) (s : State) : Host.Outcome State Fault Refusal :=
  act (look fun s =>
    let c := s.portChain n
    match (s.txChain c).busy with
    | none => skip
    | some r => whenA (r.port == n.val && 2 ≤ r.phase && !r.lossSeen && !s.is (RFE.PCFG.PAPATH.i n))
        (chain [until_ (min (r.tb + 256) r.lastTb), onBusy c fun x => { x with lossSeen := true }, returnLoss n loss])) s

/-! The mask monitor (R158, R159). -/

/-- A transmission is cut short: the unsent air time is given back, all of it while the PA still ramps up, and the PA ramps
down at once (R159, R266). -/
def abortRun (c status : Nat) : Act := look fun s =>
  match (s.txChain c).busy with
  | none => skip
  | some r =>
    let tb := if r.phase == 1 then s.tb else r.tb
    let sent := min r.air (3 * (s.tb - tb))
    chain [(match r.charge with | some x => refundAir x (r.air - sent) | none => skip),
      onBusy c fun x => { x with phase := 3, status, tb, air := sent }]

/-- Evaluation `k` of a transmission, with the stronger side of each band pair in dBc. In the cycle of the normal end the
status stays OK (R30, R158, R159). -/
def execMaskEvaluate (c : Fin 2) (k : Nat) (p1 p2 : Int) (s : State) : Host.Outcome State Fault Refusal :=
  act (look fun s => match (s.txChain c).busy with
    | none => skip
    | some r =>
      let cfg := r.masks.getD 2 0
      let limit (i : Nat) : Int := toS 8 (r.masks.getD i 0 / 2 ^ 24)
      let action := cfg % 4
      let t := r.tb + 40 * (bits cfg 15 8 + k)
      let worse (old new : Int) : Int := clampS (-128) 127 (if r.measured then max old new else new)
      whenA (action != 0 && r.phase == 2 && t ≤ r.tb + ceilDiv r.air 3) (chain [until_ t,
        putS (TXP.CMEAS.PAIR1.i c) (worse (s.getS (TXP.CMEAS.PAIR1.i c)) p1),
        putS (TXP.CMEAS.PAIR2.i c) (worse (s.getS (TXP.CMEAS.PAIR2.i c)) p2),
        onBusy c fun x => { x with measured := true },
        whenA (limit 0 < p1 || limit 1 < p2)
          (if action == 1 then stickVI TXP.STICKY.MASKVIO r.vi c 0
           else whenA (t < r.tb + ceilDiv r.air 3)
             (chain [stickVI TXP.STICKY.MASKAB r.vi c 0, abortRun c Status.maskAbort]))])) s

/-! Direct transmissions (R155, R156, R160). -/

/-- The octets at an offset of frame memory. -/
def State.frameOctets (s : State) (off n : Nat) : List Nat := s.octets (Base.fram + off) n

/-- GO on a chain with a kind (R155). A frame whose octets hold an uncorrectable error ends with ECC_UNCORR (R461). -/
def armDirect (c kind : Nat) (now : Bool) : Act := look fun s =>
  let x := s.txChain c
  match (if x.runs.any TxRun.isDirect || 1 < kind then none else x.freeBuffer) with
  | none => stick TXP.STICKY.DBUSY
  | some buf =>
    let w0 := (s.reg (TXP.CDW0.i c).key).toNat
    let w1 := (s.reg (TXP.CDW1.i c).key).toNat
    let len := bits w0 10 0 - fcsLen (bitOf w1 20 == 1)
    let ahead := (s.get (TXP.CDSTART.TB.i c) + 2 ^ 32 - s.tb % 2 ^ 32) % 2 ^ 32
    chain [put (TXP.CDCTRL.KIND.i c) kind, put (TXP.CDCTRL.NOW.i c) (if now then 1 else 0), put (TXP.CDCTRL.GO.i c) 1,
      put (TXP.CDSTAT.DONE.i c) 0, put (TXP.CDSTAT.ARMED.i c) 1,
      if kind == 0 && s.ue (Base.fram + s.get (TXP.CDADDR.ADDR.i c) * 8) len then
        chain [touch (Base.fram + s.get (TXP.CDADDR.ADDR.i c) * 8) len, directDone c Status.eccUncorr]
      else onChain c fun y => { y with runs := y.runs ++ [{
        what := if kind = 1 then .wake else .direct, vi := 0, w0, w1, buf
        octets := if kind = 1 then [] else s.frameOctets (s.get (TXP.CDADDR.ADDR.i c) * 8) len
        start := if !now && ahead ≤ 2 ^ 31 then s.tb + ahead else s.tb, asn := s.clk.asn }] }]

/-- A write of CcDCTRL (R155). -/
def writeDctrl (c w : Nat) : Act :=
  if bitOf w 0 == 1 then
    chain [whenA (1 < bits w 3 2) (setRsvd TXP.CDCTRL.key 0), armDirect c (bits w 3 2) (bitOf w 1 == 1)]
  else plainWrite (TXP.CDCTRL.i c).key 0 w

/-- GO of a direct frame (R155). -/
def execDirectFrameGo (i : Initiator) (c : Fin 2) (now : Bool) (s : State) : Host.Outcome State Fault Refusal :=
  act (atRegister i 0 (TXP.CDCTRL.i c) true (writeDctrl c (if now then 3 else 1))) s

/-- GO of a wake burst (R155, R160). -/
def execDirectWakeGo (i : Initiator) (c : Fin 2) (now : Bool) (s : State) : Host.Outcome State Fault Refusal :=
  act (atRegister i 0 (TXP.CDCTRL.i c) true (writeDctrl c (if now then 7 else 5))) s

/-- Changes the direct run that waits on a chain. -/
def onArmed (c : Nat) (f : TxRun → TxRun) : Act := onChain c fun x => { x with
  runs := x.runs.map fun r => if r.isDirect && r.phase == 0 then f r else r }

/-- An armed transmission falls due: in a scheduled slot it waits, and ramps up at the next tick (R156). -/
def execDirectDue (c : Fin 2) (s : State) : Host.Outcome State Fault Refusal :=
  act (look fun s => match (s.txChain c).runs.find? fun r => r.isDirect && r.phase == 0 with
    | none => skip
    | some r => whenA (!(s.txChain c).direct) (chain [until_ r.start,
        onArmed c fun x => { x with start := max x.start (s.clk.nextTick + s.rampTb (s.chainPort c)) }])) s

/-- A chain's class for the slot that begins (R156): direct while a direct transmission runs, or is armed and falls due
before the next tick, its ramp-up no earlier than the tick. -/
def classChain (c : Nat) : Act := look fun s =>
  let ramp := s.rampTb (s.chainPort c)
  let direct := (s.txChain c).runs.any fun r => r.isDirect && (r.phase != 0 || r.start < s.clk.nextTick)
  chain [onChain c fun x => { x with direct },
    whenA direct (onArmed c fun r => { r with start := max r.start (s.tb + ramp) })]

end Sys2Proof.Machine
end

