-- ==== Sys2Proof/Machine/Pattern.lean ====
section
/-! DEFINITION. The Pattern RAM, slotframes, the minimal preset and the prefetch of a slot's cells (R191 to R198, R216). -/

namespace Sys2Proof.Machine

/-! The Pattern RAM (R191). -/

/-- A word of the Pattern RAM. -/
def State.patWord (s : State) (i : Nat) : Nat := Sparse.get (fun _ => 0) s.pat i

/-- Stores a word of the Pattern RAM. -/
def setPat (i w : Nat) : Act := fun _ => [.pat i w]

/-- Word 0 or 1 of a cell. -/
def State.cellWord (s : State) (n k : Nat) : Nat := s.patWord (2 * n + k)

/-- Where a hop entry stands. -/
def hopAt (n : Nat) : Nat := 16384 + n

/-- Whether a slotframe's range holds a cell. -/
def State.sfHas (s : State) (h n : Nat) : Bool :=
  let lo := s.get (PAT.SFRANGE.FIRST.i h)
  lo ≤ n && n < lo + s.get (PAT.SFRANGE.COUNT.i h)

/-- Whether a slotframe is enabled. -/
def State.sfOn (s : State) (h : Nat) : Bool := s.is (PAT.SFCFG.EN.i h)

/-- Whether a view reaches an entry of the Pattern RAM: a tenant reaches the cells of its slotframes, the hop area to read,
and its contexts' backoff entries (R297). -/
def State.patOwned (s : State) (v area n : Nat) (write : Bool) : Bool :=
  v == 0 || (match area with
    | 0 => (List.range 32).any fun h => s.get (PAT.SFCFG.VI.i h) == v && s.sfHas h n
    | 1 => !write
    | _ => s.ctxState n != CtxState.free && s.cx n Cx.vi == v)

/-- Whether the index lies in its area (R191). -/
def patInside (area n : Nat) : Bool := if area = 0 then true else if area = 1 then n < 1024 else n < 4096

/-- INDEX of an initiator advances where AINC is 1. -/
def advance (i : Initiator) : Act := look fun s =>
  let c := iniCopy i
  whenA (s.is (PAT.TADDR.AINC.copy c)) (put (PAT.TADDR.INDEX.copy c) (s.get (PAT.TADDR.INDEX.copy c) + 1))

/-! The check of a slotframe (R192, R290). -/

/-- Whether the cells of a range are valid in table order for a slotframe, each read by `w`. -/
def cellsOk (w : Nat → Nat) (h len : Nat) : Nat → Nat → Nat → Bool
  | _, 0, _ => true
  | n, k + 1, last =>
    let x := w n
    let off := bits x 27 16
    bitOf x 31 == 1 && off < len && last ≤ off && bits x 7 3 == h && cellsOk w h len (n + 1) k off

/-- The check of slotframe `h` with a range, a LEN and the cells read by `w`. -/
def State.sfCheck (s : State) (w : Nat → Nat) (h first cnt len : Nat) : Bool :=
  first + cnt ≤ 8192
    && !((List.range 32).any fun g => g != h && s.sfOn g
      && max first (s.get (PAT.SFRANGE.FIRST.i g))
        < min (first + cnt) (s.get (PAT.SFRANGE.FIRST.i g) + s.get (PAT.SFRANGE.COUNT.i g)))
    && cellsOk w h len first cnt 0

/-- Whether slotframe `h` of `v` with `cnt` cells keeps its VI within SFQ and CELLQ. -/
def State.sfQuota (s : State) (h v cnt : Nat) : Bool :=
  let others := (List.range 32).filter fun g => g != h && s.sfOn g && s.get (PAT.SFCFG.VI.i g) == v
  others.length + 1 ≤ s.get (ten VIF.TENA0.SFQ v)
    && (others.map fun g => s.get (PAT.SFRANGE.COUNT.i g)).sum + cnt ≤ s.get (ten VIF.TENB0.CELLQ v)

/-- Word 0 of a cell, with one cell replaced. -/
def State.cellsWith (s : State) (n w : Nat) : Nat → Nat := fun m => if m == n then w else s.cellWord m 0

/-- A slotframe's EN. -/
def setSfEn (h : Nat) (on : Bool) : Act :=
  chain [put (PAT.SFCFG.EN.i h) (if on then 1 else 0), put (PAT.STAT.EN.bit h) (if on then 1 else 0)]

/-! Writes of the Pattern RAM. -/

/-- A write of TDATA0: staged in the cell area, committed in the hop area, ignored in the backoff area (R191). -/
def writeTdata0 (i : Initiator) (v w : Nat) : Act := look fun s =>
  let c := iniCopy i
  let area := s.get (PAT.TADDR.AREA.copy c)
  let n := s.get (PAT.TADDR.INDEX.copy c)
  if !patInside area n || area == 2 then skip
  else if !s.patOwned v area n true then stickV VIF.STICKY.VIEWREF v
  else if area == 0 then put (PAT.TDATA0.D.copy c) w
  else chain [setPat (hopAt n) (w % 65536), advance i]

/-- A write of TDATA1: commits the staged word and this one as a cell, unless a field is reserved or the cell would break an
enabled slotframe (R191, R193, R195). -/
def writeTdata1 (i : Initiator) (v w : Nat) : Act := look fun s =>
  let c := iniCopy i
  let n := s.get (PAT.TADDR.INDEX.copy c)
  let w0 := s.get (PAT.TDATA0.D.copy c)
  if s.get (PAT.TADDR.AREA.copy c) != 0 then skip
  else if !s.patOwned v 0 n true then stickV VIF.STICKY.VIEWREF v
  else if 3 < bits w0 30 28 || 12 < bits w 18 15 || 2 < bits w 14 13 then stickV PAT.STICKY.RSVD v
  else
    match (List.range 32).find? fun h => s.sfOn h && s.sfHas h n with
    | some h =>
      if cellsOk (s.cellsWith n w0) h (s.get (PAT.SFCFG.LEN.i h)) (s.get (PAT.SFRANGE.FIRST.i h))
          (s.get (PAT.SFRANGE.COUNT.i h)) 0 then
        chain [setPat (2 * n) w0, setPat (2 * n + 1) (w / 32 * 32), advance i]
      else stickV PAT.STICKY.ORDERR (s.get (PAT.SFCFG.VI.i h))
    | none => chain [setPat (2 * n) w0, setPat (2 * n + 1) (w / 32 * 32), advance i]

/-- A read of TDATA0 or TDATA1 (`hi`). What TDATA1 returns outside the cell area is not stated: a free value (R191). -/
def readTdata (i : Initiator) (v : Nat) (hi : Bool) : Act := look fun s =>
  let c := iniCopy i
  let area := s.get (PAT.TADDR.AREA.copy c)
  let n := s.get (PAT.TADDR.INDEX.copy c)
  if !patInside area n then answer i 0
  else if !s.patOwned v area n false then chain [answer i 0, stickV VIF.STICKY.VIEWREF v]
  else if area == 0 then chain [answer i (s.cellWord n (if hi then 1 else 0)), whenA hi (advance i)]
  else if hi then draw fun x => answer i x
  else chain [answer i (s.patWord (if area = 1 then hopAt n else backoffAt n)), advance i]

/-- A write of PAT.TDATA0 (R191). -/
def execPatternTdata0Write (i : Initiator) (v : Fin 16) (w : Word) (s : State) : Host.Outcome State Fault Refusal :=
  act (atPair i v PAT.TDATA0 (some w.toNat) (writeTdata0 i v w.toNat)) s

/-- A write of PAT.TDATA1 (R191, R193). -/
def execPatternCellCommit (i : Initiator) (v : Fin 16) (w : Word) (s : State) : Host.Outcome State Fault Refusal :=
  act (atPair i v PAT.TDATA1 (some w.toNat) (writeTdata1 i v w.toNat)) s

/-- A read of PAT.TDATA0 or PAT.TDATA1 (R191). -/
def execPatternDataRead (i : Initiator) (v : Fin 16) (hi : Bool) (s : State) : Host.Outcome State Fault Refusal :=
  act (atPair i v (if hi then PAT.TDATA1 else PAT.TDATA0) none (readTdata i v hi)) s

/-! Slotframes (R192, R195, R290). -/

/-- A slotframe is enabled if it passes the check and its VI's caps (R192, R290). -/
def enableSf (h : Nat) : Act := look fun s =>
  let first := s.get (PAT.SFRANGE.FIRST.i h)
  let cnt := s.get (PAT.SFRANGE.COUNT.i h)
  let v := s.get (PAT.SFCFG.VI.i h)
  let quota := s.sfQuota h v cnt
  if s.sfCheck (s.cellWord · 0) h first cnt (s.get (PAT.SFCFG.LEN.i h)) && quota then setSfEn h true
  else chain [stickV PAT.STICKY.SFERR v, whenA (!quota) (stickV VIF.STICKY.QUOTA v)]

/-- A write of SFhCFG through view `v` (R192, R195, R297). -/
def writeSfcfg (h v w : Nat) : Act := look fun s =>
  let vi := bits w 27 24
  let owner := s.get (PAT.SFCFG.VI.i h)
  let on := s.sfOn h
  let len := bits w 11 0
  let isVi := if v = 0 then vi != owner else vi != 0
  let keeps := on && bitOf w 31 == 1
  chain [
    whenA isVi (if v == 0 && !on then put (PAT.SFCFG.VI.i h) vi
      else chain [whenA (v != 0) (stickV VIF.STICKY.VIEWREF v), stickV PAT.STICKY.SFERR owner]),
    put (PAT.SFCFG.TPL.i h) (bits w 21 20), put (PAT.SFCFG.HOPSEQ.i h) (bits w 17 16),
    if len == 0 then stickV PAT.STICKY.RSVD v
    else if keeps && len != s.get (PAT.SFCFG.LEN.i h)
        && !cellsOk (s.cellWord · 0) h len (s.get (PAT.SFRANGE.FIRST.i h)) (s.get (PAT.SFRANGE.COUNT.i h)) 0 then
      stickV PAT.STICKY.ORDERR owner
    else put (PAT.SFCFG.LEN.i h) len,
    if on then whenA (bitOf w 31 == 0) (setSfEn h false) else whenA (bitOf w 31 == 1) (enableSf h)]

/-- Whether a range of cells meets that of a slotframe of another VI. -/
def State.meetsOthers (s : State) (v first cnt : Nat) : Bool :=
  (List.range 32).any fun h => s.get (PAT.SFCFG.VI.i h) != v && first < s.get (PAT.SFRANGE.FIRST.i h) + s.get (PAT.SFRANGE.COUNT.i h)
    && s.get (PAT.SFRANGE.FIRST.i h) < first + cnt

/-- A write of SFhRANGE through view `v` (R195, R290). A tenant's range that meets another VI's cells is refused as something its
view does not see, for through it TADDR would reach them (R297, R305; notes/assumptions/62.md, DESIGN CHOICE). -/
def writeSfrange (h v w : Nat) : Act := look fun s =>
  let first := bits w 28 16
  let cnt := if bits w 13 0 ≤ 8192 then bits w 13 0 else s.get (PAT.SFRANGE.COUNT.i h)
  let owner := s.get (PAT.SFCFG.VI.i h)
  let quota := s.sfQuota h owner cnt
  if v != 0 && s.meetsOthers v first cnt then stickV VIF.STICKY.VIEWREF v
  else chain [
    whenA (8192 < bits w 13 0) (stickV PAT.STICKY.RSVD v),
    if s.sfOn h && !(s.sfCheck (s.cellWord · 0) h first cnt (s.get (PAT.SFCFG.LEN.i h)) && quota) then
      chain [stickV PAT.STICKY.ORDERR owner, whenA (!quota) (stickV VIF.STICKY.QUOTA owner)]
    else chain [put (PAT.SFRANGE.FIRST.i h) first, put (PAT.SFRANGE.COUNT.i h) cnt]]

/-- A write of PAT.SFhCFG that enables the slotframe, with the register's other fields (R192). -/
def execSlotframeEnable (i : Initiator) (v : Fin 16) (h : Fin 32) (w : Word) (s : State) :
    Host.Outcome State Fault Refusal :=
  let w := w.toNat ||| 0x80000000
  act (atPair i v (PAT.SFCFG.i h) (some w) (writeSfcfg h v w)) s

/-- A write of PAT.SFhCFG or PAT.SFhRANGE (`range`) (R195). -/
def execSlotframeCfgWrite (i : Initiator) (v : Fin 16) (h : Fin 32) (range : Bool) (w : Word) (s : State) :
    Host.Outcome State Fault Refusal :=
  act (atPair i v (if range then PAT.SFRANGE.i h else PAT.SFCFG.i h) (some w.toNat)
    (if range then writeSfrange h v w.toNat else writeSfcfg h v w.toNat)) s

/-! The minimal preset (R216). -/

/-- Template 0 takes its reset values. -/
def resetTemplate0 : Act :=
  chain [put SHU.TPLA.TXOFF 2120, put SHU.TPLA.RXOFF 1020, put SHU.TPLB.RXWAIT 2200, put SHU.TPLB.TXACKD 1000,
    put SHU.TPLC.RXACKD 800, put SHU.TPLC.ACKWAIT 400, put SHU.TPLD.PRELEN 8]

/-- A write of PRESET through view `v` (R23, R216, R297). -/
def writePreset (v w : Nat) : Act := look fun s =>
  let h := bits w 30 26
  let n := bits w 25 13
  let w0 := 2 ^ 31 + 2 * 2 ^ 28 + h * 8 + 3
  let w1 := 2 ^ 19 + bits w 10 7 * 2 ^ 15 + bits w 6 5 * 2 ^ 13 + bits w 12 11 * 2 ^ 7
  let quota := s.sfQuota h v 1
  if bitOf w 31 == 0 then skip
  else if v != 0 && s.get (PAT.SFCFG.VI.i h) != v then stickV VIF.STICKY.VIEWREF v
  else if 12 < bits w 10 7 || 2 < bits w 6 5 then stickV PAT.STICKY.RSVD v
  else if s.sfOn h || !s.sfCheck (s.cellsWith n w0) h n 1 (s.get (PAT.SFCFG.LEN.i h)) || !quota then
    chain [stickV PAT.STICKY.SFERR v, whenA (!quota) (stickV VIF.STICKY.QUOTA v)]
  else chain [put (PAT.SFCFG.HOPSEQ.i h) 0, put (PAT.SFCFG.TPL.i h) 0, put (PAT.SFCFG.VI.i h) v,
    put (PAT.SFRANGE.FIRST.i h) n, put (PAT.SFRANGE.COUNT.i h) 1, setPat (2 * n) w0, setPat (2 * n + 1) w1,
    resetTemplate0, setSfEn h true]

/-- A write of PAT.PRESET (R216). -/
def execPresetGo (i : Initiator) (v : Fin 16) (w : Word) (s : State) : Host.Outcome State Fault Refusal :=
  act (atPair i v PAT.PRESET (some w.toNat) (writePreset v w.toNat)) s

/-! The prefetch (R195 to R198). -/

/-- A template as it stands (R196). -/
def State.template (s : State) (n : Nat) : Template :=
  { txoff := s.get (SHU.TPLA.TXOFF.i n), rxoff := s.get (SHU.TPLA.RXOFF.i n), rxwait := s.get (SHU.TPLB.RXWAIT.i n)
    txackd := s.get (SHU.TPLB.TXACKD.i n), rxackd := s.get (SHU.TPLC.RXACKD.i n), ackwait := s.get (SHU.TPLC.ACKWAIT.i n)
    prelen := s.get (SHU.TPLD.PRELEN.i n) }

/-- The channel of a cell in a slot (R197). -/
def State.hopChannel (s : State) (seq choff asn : Nat) : Nat :=
  s.patWord (hopAt (256 * seq + (asn + choff) % s.get (PAT.HOPLEN.N.i seq))) % 2048

/-- Whether a VI's slotframes run: its state is OFF, COORD or SYNCED (R198). -/
def State.viRuns (s : State) (v : Nat) : Bool :=
  s.get (SHU.VISTAT.STATE.copy v) != 1 && s.get (SHU.VISTAT.STATE.copy v) != 2

/-- The cells of a slotframe that run in a slot, in table order (R197, R198). -/
def State.cellsOf (s : State) (h asn : Nat) : List RunCell :=
  let v := s.get (PAT.SFCFG.VI.i h)
  if !s.sfOn h || !s.viRuns v then []
  else ((List.range (s.get (PAT.SFRANGE.COUNT.i h))).filterMap fun k =>
    let n := s.get (PAT.SFRANGE.FIRST.i h) + k
    let w0 := s.cellWord n 0
    if asn % s.get (PAT.SFCFG.LEN.i h) == bits w0 27 16 then
      some { sf := h, idx := n, vi := v, w0, w1 := s.cellWord n 1, t := s.template (s.get (PAT.SFCFG.TPL.i h))
             prio := s.get (ten VIF.TENA0.PRIO v)
             chan := s.hopChannel (s.get (PAT.SFCFG.HOPSEQ.i h)) (bits w0 15 8) asn }
    else none)

/-- The ASN that the coming tick will carry (R56). -/
def State.comingAsn (s : State) : Nat := s.clk.asnCommit.getD ((s.clk.asn + 1) % 2 ^ 40)

/-- The prefetch of the coming slot. -/
def prefetch : Act := look fun s =>
  let asn := s.comingAsn
  let cells := (List.range 32).flatMap fun h => s.cellsOf h asn
  chain [whenA (256 < cells.length) (stick PAT.STICKY.CELLOVF),
    onShu fun u => { u with next := some (asn, cells.take 256), void := false }]

/-- The moment at which the prefetch of the coming slot is due: 500 µs before its tick, or where the tick was set anew after
that, then (R198, R210, R316). -/
def State.prefetchDue (s : State) : Nat := max (s.clk.nextTick - 2000) s.clk.asnSince

/-- The prefetch is made where RUN has been 1 since it was due, and the Shuttle's clock runs (R61, R198). -/
def execCellPrefetch (s : State) : Host.Outcome State Fault Refusal :=
  act (look fun s => whenA (s.domOn Dom.mac && s.is CLK.CTRL.TICKEN) (chain [until_ s.prefetchDue,
    look fun s => whenA (s.is SHU.CTRL.RUN && s.shu.runFrom ≤ s.prefetchDue && !s.clk.gated && s.shu.next.isNone) prefetch])) s

end Sys2Proof.Machine
end

