-- ==== Sys2Proof/Machine/Slot.lean ====
section
/-! DEFINITION. The Shuttle from tick to tick: arbitration, lanes, gain, calibration, windows, queues, beacons and formation
(R53, R60, R95, R110 to R112, R154, R199 to R214, R301, R591). -/

namespace Sys2Proof.Machine

/-! Frames to send (R203, R205, R591). -/

/-- The octets of a queued descriptor's frame that software has built: LEN less the FCS and, where it is to be secured, less
the MIC (R151, R203, R207). -/
def State.descOctets (s : State) (off : Nat) : List Nat :=
  let n := s.desc off 0 10 0 - fcsLen (s.desc off 2 22 22 == 1)
  let l := s.frameOctets (s.desc off 1 19 3 * 8) n
  let m := parseMac l n (n + 4)
  if s.desc off 0 13 13 == 1 && m.sec then l.take (n - micLen m.level) else l

/-- IMGVER, block and fragment of a seam frame (R591). -/
def seamOf (oui : Nat) (m : Mac) : Option (Nat × Nat × Nat) :=
  match m.ies with
  | (0, l) :: _ =>
    if l.length == 11 && leNat (l.take 3) == oui && l.getD 3 0 == 0x20 then
      some (leNat ((l.drop 4).take 4), leNat ((l.drop 8).take 2), l.getD 10 0)
    else none
  | _ => none

/-- The seam that a queued descriptor of VI `v` carries. -/
def State.seamAt (s : State) (v off : Nat) : Option (Nat × Nat × Nat) :=
  let l := s.descOctets off
  seamOf (s.get (SHU.FORMOUI.OUI.copy v)) (txMac l)

/-- The address of a block's fragment in the SRV bank. -/
def State.fragmentAt (s : State) (block frag : Nat) : Nat :=
  (if s.get UPD.SRV.BANK == 0 then Base.flashA else Base.flashB) + 1024 * block + 128 * frag

/-- Whether the SRV image is the one a seam names, with the block checked in place (R588, R591). -/
def State.seamServed (s : State) (img block : Nat) : Bool :=
  img == s.get UPD.IMGID.VER && block < 4096 && s.is (UPD.BMAP.B.mapBit block)

/-- The octets of a frame with a seam's fragment in place of its last 128 (R591). -/
def State.withSeam (s : State) (v : Nat) (l : List Nat) : List Nat :=
  match seamOf (s.get (SHU.FORMOUI.OUI.copy v)) (txMac l) with
  | some (_, b, f) => l.take (l.length - 128) ++ s.octets (s.fragmentAt b f) 128
  | none => l

/-- The queue that a cell takes its head from (R205, R591). A queue whose head is a seam is passed over outside an UPD
cell. -/
def State.cellQueue (s : State) (c : RunCell) : TxQueue :=
  let bq := s.queue c.vi 2 0
  let seam (q : TxQueue) : Bool := match q.descs.head? with | some e => (s.seamAt c.vi e.off).isSome | none => false
  if !c.bcast then s.queue c.vi 0 c.nbr
  else if c.kind == 3 then s.queue c.vi 1 0
  else if c.kind == 2 && (bq.descs.isEmpty || seam bq) then s.queue c.vi 1 0
  else bq

/-- The context of a queued frame: that of its queue, or the one that its descriptor names (R206). -/
def State.frameCtx (s : State) (q : TxQueue) (off : Nat) : Nat := if q.kind = 0 then q.ctx else s.desc off 2 11 0

/-- The head that is eligible in a cell (R205, R231, R591). -/
def State.eligible (s : State) (c : RunCell) : Option (TxQueue × TxEntry) :=
  let q := s.cellQueue c
  match q.descs.head? with
  | none => none
  | some e =>
    if (q.kind == 2 || ctxLive (s.ctxState (s.frameCtx q e.off)))
        && (s.seamAt c.vi e.off).isSome == (c.kind == 3)
        && !(s.shu.cells.any fun x => x.granted && x.vi == c.vi && x.desc == some e.off) then some (q, e)
    else none

/-! Beacons (R209, R213). -/

/-- The octets of a VI's beacon template, LEN less the FCS and, where it is secured, the MIC. -/
def State.beaconTemplate (s : State) (v : Nat) (fcs2 : Bool) : List Nat :=
  let n := s.get (SHU.BCNLOC.LEN.copy v) - fcsLen fcs2
  let l := s.frameOctets (s.get (SHU.BCNLOC.ADDR.copy v) * 8) n
  let m := parseMac l n (n + 4)
  if m.sec then l.take (n - micLen m.level) else l

/-- Replaces octets of a list from a place on. -/
def patch (l : List Nat) (at_ : Nat) (p : List Nat) : List Nat := l.take at_ ++ p ++ l.drop (at_ + p.length)

/-- Where the content of a formation IE stands among header IEs that begin at `a` (R213). -/
def formationAt (l : List Nat) (oui : Nat) : Nat → Nat → Option Nat
  | 0, _ => none
  | n + 1, a =>
    if a + 2 > l.length then none
    else
      let w := leNat ((l.drop a).take 2)
      let len := bits w 6 0
      if bitOf w 15 == 1 || bits w 14 7 == 0x7E || bits w 14 7 == 0x7F then none
      else if bits w 14 7 == 0 && len == 5 && leNat ((l.drop (a + 2)).take 3) == oui then some (a + 2)
      else formationAt l oui n (a + 2 + len)

/-- The beacon of VI `v` for a slot: ASN, JM and the formation IE's PRIO written into the template; `none` without a TSCH
Synchronization sub-IE (R209). -/
def State.beaconOctets (s : State) (v asn : Nat) (fcs2 : Bool) : Option (List Nat) :=
  let l := s.beaconTemplate v fcs2
  let m := txMac l
  (syncIe l m).map fun x =>
    let l := patch l x.2.2 (leOctets 5 asn ++ [s.get (SHU.BCNCFG.JM.copy v)])
    match formationAt l (s.get (SHU.FORMOUI.OUI.copy v)) 64 m.auxEnd with
    | some a => patch l (a + 3) [s.get (SHU.FORMCFG.PRIO.copy v)]
    | none => l

/-- Whether a VI's beacon is due in the present slot (R209). EN reads 0 while the device may only rejoin (R246), and a timing VI
that has lost a comparison sends no more (R214). -/
def State.beaconDue (s : State) (v : Nat) : Bool :=
  s.is (SHU.BCNCFG.EN.copy v) && !s.is BOB.CTRL.RJONLY && !(v == s.tvi && s.shu.lost)
    && (match s.shu.beacons.find? (·.1 == v) with
      | some b => s.get (SHU.BCNCFG.EBINT.copy v) ≤ (s.shu.asn + 2 ^ 40 - b.2) % 2 ^ 40
      | none => true)
    && !(s.shu.cells.any fun c => c.vi == v && c.beacon && c.granted)

/-- The next number of the formation sequence (R213). -/
def formNext (x : Nat) : Nat := (x * 25173 + 13849) % 65536

/-- The offset s_k of a device's formation beacon (R213). -/
def formOffset (eui lf k : Nat) : Nat :=
  Nat.repeat formNext k (bits eui 63 48 ^^^ bits eui 47 32 ^^^ bits eui 31 16 ^^^ bits eui 15 0) % lf

/-- The formation beacon of the present slot, as a transmitting cell of the timing VI on FPORT and FORMCH (R213, R246). -/
def State.formationCell (s : State) : Option RunCell :=
  let v := s.tvi
  let lf := s.get (SHU.FORMCFG.LF.copy v)
  if s.get (SHU.VISTAT.STATE.copy v) == 2 && !s.shu.lost && !s.is BOB.CTRL.RJONLY
      && s.shu.asn % lf == formOffset s.ownEui lf (s.shu.asn / lf) then
    some { sf := 32, idx := 8192, vi := v, w0 := 2 ^ 31 + s.get (SHU.FORMCFG.FPORT.copy v) * 4
           w1 := s.get (SHU.FORMCH.MODE.copy v) * 2 ^ 15 + s.get (SHU.FORMCH.MIDX.copy v) * 2 ^ 13
             + s.get (SHU.FORMCH.PLAN.copy v) * 2 ^ 7
           chan := s.get (SHU.FORMCH.CHAN.copy v), t := s.template (s.get (SHU.FORMCH.TPL.copy v))
           beacon := true, forming := true, prio := s.get (ten VIF.TENA0.PRIO v) }
  else none

/-! The words of a cell's transmission (R149, R202, R209). -/

/-- Word 0 of a cell's transmission. -/
def State.cellW0 (s : State) (c : RunCell) : Nat :=
  let pl := match c.desc with
    | some off => s.desc off 2 31 24 * 2 ^ 24 + s.desc off 0 10 0
    | none => bits c.free 31 24 * 2 ^ 24 + s.get (SHU.BCNLOC.LEN.copy c.vi)
  pl + c.plan * 2 ^ 22 + c.chan * 2 ^ 11

/-- Word 1 of a cell's transmission: SHAPE, FCS2 and WHITEN from the descriptor, and for a beacon, whose values no rule
states, free. -/
def State.cellW1 (s : State) (c : RunCell) : Nat :=
  let d := match c.desc with | some off => s.desc off 2 23 21 | none => bits c.free 2 0
  c.t.prelen * 2 ^ 22 + bitOf d 2 * 2 ^ 21 + bitOf d 1 * 2 ^ 20 + bitOf d 0 * 2 ^ 19 + bitOf c.w1 10 * 2 ^ 18
    + bitOf c.w1 11 * 2 ^ 17 + bitOf c.w1 12 * 2 ^ 16 + bitOf c.w1 9 * 2 ^ 15 + bits c.w1 14 13 * 2 ^ 13 + c.mode * 2 ^ 9

/-- The transmission of a cell with its octets, in the present slot. -/
def State.cellRun (s : State) (c : RunCell) (octets : List Nat) : TxRun :=
  { what := match c.desc with | some off => .queued off c | none => if c.forming then .formation else .beacon
    vi := c.vi, w0 := s.cellW0 c, w1 := s.cellW1 c, octets, start := s.shu.tick + 4 * c.t.txoff, port := c.port
    ackReq := c.ackReq, asn := s.shu.asn }

/-- Whether a template is one that lets its cells pass the checks of R202 (R196). -/
def State.templateOk (s : State) (t : Template) : Bool :=
  100 ≤ t.rxoff && 4 * (t.txoff + t.txackd + t.ackwait) ≤ s.get CLK.SLOTLEN.LEN

/-- Whether a transmission passes the slot-boundary test: its template is one that may, and it ends within the slot (R60, R196,
R202; notes/assumptions/62.md, DEDUCED). -/
def State.fitsSlot (s : State) (c : RunCell) : Bool :=
  let r := s.cellRun c []
  let last := r.start + airTb r.mode r.len r.prelen r.fec
  s.templateOk c.t && last + s.rampTb c.port ≤ s.clk.nextTick
    && (!c.ackReq || last + 4 * (c.t.rxackd + c.t.ackwait) ≤ s.clk.nextTick)

/-! Arbitration (R199, R205, R208, R301). -/

/-- A cell's place in the execution order, by the priority that its VI had at the prefetch (R292, R301). -/
def RunCell.key (c : RunCell) : Nat :=
  ((c.prio * 4 + c.kind) * 64 + c.sf) * 16384 + c.idx

/-- The cells in execution order. -/
def inOrder (l : List RunCell) : List RunCell :=
  l.foldr (fun c acc => acc.takeWhile (fun d => d.key < c.key) ++ [c]
    ++ acc.dropWhile (fun d => d.key < c.key)) []

/-- Whether an earlier granted cell transmits, or receives, on a port. -/
def State.portTaken (s : State) (p : Nat) (tx : Bool) : Bool :=
  s.shu.cells.any fun c => c.granted && c.port == p && c.tx == tx

/-- Cell `k` transmits: it is granted its chain and port, loses to an earlier cell, or does not run in a direct slot
(R156, R199, R206). -/
def grantTx (k : Nat) (desc : Option Nat) (ackReq : Bool) : Act := look fun s =>
  match s.shu.cells[k]? with
  | none => skip
  | some c => chain [
      onCell k fun c => { c with tx := true, desc, ackReq, beacon := desc.isNone },
      if (s.txChain (s.portChain c.port)).direct then skip
      else if s.portTaken c.port true || s.portTaken c.port false then cellFails k Status.cellPreempted
      else onCell k fun c => { c with granted := true }]

/-- Cell `k` receives, or loses to an earlier transmitting cell (R199). -/
def grantRx (k : Nat) : Act := look fun s =>
  match s.shu.cells[k]? with
  | none => skip
  | some c =>
    if s.portTaken c.port true then chain [count (SHU.PREEMPT.CNT.copy c.vi), stickV SHU.STICKY.PREEMPT c.vi]
    else onCell k fun c => { c with granted := true }

/-- A beacon's unstated parameters are drawn, and it is sent in cell `k` if its template can be (R209). -/
def grantBeacon (k v : Nat) : Act := draw fun x => look fun s =>
  if (s.beaconOctets v s.shu.asn (bitOf x 1 == 1)).isSome then
    chain [onCell k fun c => { c with free := x }, grantTx k none false]
  else stickV SHU.STICKY.BCNBAD v

/-- Cell `k` of the execution order decides what it does, and is granted or refused (R194, R199, R208). An ADV cell that would
transmit a frame sends a due beacon in its place (R209). -/
def decideCell (k : Nat) : Act := look fun s =>
  match s.shu.cells[k]? with
  | none => skip
  | some c =>
    if c.forming then grantBeacon k c.vi
    else if c.kind == 1 then grantRx k
    else
      match s.eligible c with
      | none => whenA c.shared (grantRx k)
      | some (q, e) =>
        let b := s.backoff q
        if c.shared && 0 < b.2 then chain [setBackoff q.vi q.kind q.ctx b.1 (b.2 - 1), grantRx k]
        else if c.adv && c.kind != 3 && s.beaconDue c.vi then grantBeacon k c.vi
        else grantTx k (some e.off) (q.kind != 2 && s.desc e.off 0 14 14 == 1)

/-- Lanes for the granted cells, in execution order (R110 to R112). -/
def laneFor (k : Nat) : Act := look fun s =>
  match s.shu.cells[k]? with
  | none => skip
  | some c =>
    whenA (c.granted && (!c.tx || c.ackReq))
      (match (List.range 128).find? fun n => s.laneMeets n c with
       | some n => assignLane n k
       | none =>
         if c.tx then chain [onCell k fun c => { c with granted := false }, count DMD.NOLANE.CNT, stickVI DMD.STICKY.NOLANE c.vi 0 0]
         else onCell k fun c => { c with waits := true })

/-- The checks of a granted transmission at the tick: rejoin-only, the parameter words, the slot boundary (R60, R202,
R246). -/
def checkTx (k : Nat) : Act := look fun s =>
  match s.shu.cells[k]? with
  | none => skip
  | some c =>
    let blocked := match c.desc with
      | some off => s.is BOB.CTRL.RJONLY && !s.isRejoin c.vi (s.descOctets off)
      | none => false
    whenA (c.granted && c.tx)
      (if blocked then chain [stickV BOB.STICKY.RJBLOCK c.vi, cellFails k Status.prot]
       else if !s.wordsOk (s.portChain c.port) (s.cellRun c []) then cellFails k Status.rsvdOp
       else whenA (!s.fitsSlot c) (onCell k fun c => { c with granted := false }))

/-- A frame to be secured, or a beacon whose template is, becomes a securing job of its slot (R207, R209). A seam's fragment
is taken first, or the frame is refused (R591). -/
def queueJob (k : Nat) : Act := look fun s =>
  match s.shu.cells[k]? with
  | none => skip
  | some c =>
    let job (ctx slot : Nat) (l : List Nat) : Act := onShu fun u => { u with
      jobs := u.jobs ++ [{ cell := k, vi := c.vi, ctx, slot, octets := l }] }
    whenA (c.granted && c.tx)
      (match c.desc with
       | some off =>
         whenA (s.desc off 0 13 13 == 1)
           (match s.seamAt c.vi off with
            | some (img, b, _) =>
              if s.seamServed img b then
                job (match s.queueOf c.vi off with | some (q, _) => s.frameCtx q off | none => 4096) (s.desc off 2 19 14)
                  (s.withSeam c.vi (s.descOctets off))
              else chain [stickV UPD.STICKY.SEAMREF c.vi, cellFails k Status.prot]
            | none =>
              job (match s.queueOf c.vi off with | some (q, _) => s.frameCtx q off | none => 4096) (s.desc off 2 19 14)
                (s.descOctets off))
       | none =>
         match s.beaconOctets c.vi s.shu.asn (bitOf c.free 1 == 1) with
         | some l => whenA (txMac l).sec (job 4096 (s.get (SHU.BCNCFG.KEYSLOT.copy c.vi)) l)
         | none => skip)

/-! Gain and calibration at the tick. -/

/-- The gain class table of a port: signed dB of a class (R200). -/
def State.gainClass (s : State) (port cls : Nat) : Int :=
  s.getS ((if cls = 0 then SHU.GTAB.C0 else if cls = 1 then SHU.GTAB.C1 else if cls = 2 then SHU.GTAB.C2 else SHU.GTAB.C3).i port)

/-- SCHGAIN of a port for the slot (R200). -/
def State.slotGain (s : State) (port : Nat) : Int :=
  match s.shu.cells.filter fun c => c.granted && c.port == port && (!c.tx || c.ackReq) with
  | [] => s.getS (if port = 0 then SHU.GDEF.P0 else SHU.GDEF.P1)
  | l => l.foldl (fun m c => min m (s.gainClass port (bits c.w1 6 5))) 127

/-- The Shuttle writes SCHGAIN of an enabled port (R76, R80). -/
def tickGain (port : Nat) : Act := look fun s =>
  whenA (s.is (RFE.PCFG.EN.i port))
    (chain [putS (RFE.PGAIN.SCHGAIN.i port) (s.slotGain port), gainChanged port true, restartDwell port])

/-- Whether a unit's needs are met for the whole slot (R93): a port in RX with no cell on it that would transmit or receive and
no direct transmission from its chain; a chain and its port free of cells and transmissions; CORE for the Thimble. -/
def State.calNeeds (s : State) (u : Nat) : Bool :=
  let cellOn (p : Nat) : Bool := s.shu.cells.any fun c => c.granted && c.port == p
  let chainFree (c : Nat) : Bool := (s.txChain c).busy.isNone && !(s.txChain c).direct
  match calPort u, calChain u with
  | some p, _ => s.portState p == 1 && !s.frozen p && !cellOn p && chainFree (s.portChain p)
  | none, some c => s.domOn Dom.tx && !cellOn (s.chainPort c) && chainFree c && s.get (portFld (s.chainPort c)) != 2
  | none, none => u != 4 || s.domOn Dom.core

/-- Grants the pending units that fit, in order, each after the one before it (R95, R97). -/
def calGrant : Act := look fun s =>
  let step (acc : List Nat × Nat) (u : Nat) : List Nat × Nat :=
    let d := calDuration u
    let start := s.shu.tick + 400 + 4 * acc.2
    if (s.calUnit u).pending && (s.calUnit u).ends.isNone && s.calNeeds u && start + 4 * d ≤ s.clk.nextTick - 400
        && acc.2 + d ≤ s.get RFE.CALCFG.BUDGET then (acc.1 ++ [u], acc.2 + d)
    else acc
  let granted := ((List.range 13).foldl step ([], 0)).1
  let ends (u : Nat) : Nat := s.shu.tick + 400 + 4 * ((granted.takeWhile (· != u) ++ [u]).map calDuration).sum
  eachA granted fun u => onCal u fun c => { c with ends := some (ends u) }

/-! The slot boundary (R60). -/

/-- A scheduled lane at the boundary: a packet finder without an SFD is dropped, a frame with one carries over (R60,
R110). -/
def laneBoundary (n : Nat) : Act := look fun s =>
  let st := s.laneState n
  chain [onLane n fun l => { l with cell := none, isOpen := false },
    if st == 6 then dropFrame n none
    else whenA (st == 2 || st == 5 || st == 4 && s.laneMoves n) (laneEnter n 1)]

/-- What the boundary does to the slot that ends: cells not started are dropped and their frames stay queued (R60). -/
def endSlot : Act := look fun s =>
  chain [onShu fun u => { u with cells := [], jobs := [] },
    (match s.sec.frame with | some (.secure _) => endFrameJob | _ => skip),
    eachA [0, 1] fun c => onChain c fun x => { x with
      runs := x.runs.filter fun r => r.phase != 0 || r.isAck || r.isDirect },
    eachA [0, 1] paSettle,
    eachA ((List.range 128).filter fun n => s.laneSched n && (s.laneState n != 0 || (s.lane n).cell.isSome))
      laneBoundary]

/-! The tick (R53). -/

/-- TB reaches NEXTTICK: the ASN, NEXTTICK and the pending adjustment; a synchronised member applies M0's load record (R53, R56,
R318). -/
def tickClock : Act := look fun s =>
  let c := s.clk
  let len := match c.record with | some r => r.1 | none => s.get CLK.SLOTLEN.LEN
  let adj : Int := match c.record with | some r => r.2.1 | none => s.getS CLK.ADJPEND.ADJ
  let commit := match c.record with | some r => r.2.2 | none => c.asnCommit
  let asn := commit.getD ((c.asn + 1) % 2 ^ 40)
  chain [
    onClk fun c => { c with
      lastTick := c.nextTick, asn, asnSince := c.nextTick, asnBefore := c.asn, record := none
      nextTick := ((c.nextTick : Int) + len + adj).toNat % 2 ^ 64
      asnCommit := if commit == c.asnCommit then none else c.asnCommit },
    (match c.record with | some r => whenA s.slaved (put CLK.SLOTLEN.LEN r.1) | none => skip),
    putS CLK.ADJPEND.ADJ (if s.slaved then 0 else s.getS CLK.ADJPEND.ADJ - adj),
    whenA (commit.isSome && s.domOn Dom.mac) (restartSilence asn)]

/-- The checkpoint of the tick (R336, R337). -/
def checkpoint : Act := look fun s =>
  onShu fun u => { u with pair := { u.pair with
    writing := some (s.tb + 103), older := u.pair.older || u.pair.writing.isNone, journal := 0 } }

/-- The Shuttle's work of a tick that it is running at. The cells of a VI that is closing do not run (R293). -/
def slotWork : Act := look fun s =>
  let cells := match s.shu.next with
    | some (_, l) => if s.shu.void then [] else l.filter fun c => s.viRuns c.vi && s.viOpen c.vi
    | none => []
  chain [
    checkpoint,
    put FLT.CKPT.JOURNAL (min s.shu.pair.entries 0xFFFF), onShu fun u => { u with pair := { u.pair with entries := 0 } },
    onShu fun u => { u with cells := inOrder cells },
    put SHU.STAT.NCELL cells.length,
    look fun s => (match s.formationCell with
      | some f => onShu fun u => { u with cells := inOrder (f :: u.cells) }
      | none => skip),
    look fun s => eachA (List.range s.shu.cells.length) decideCell,
    look fun s => eachA (List.range s.shu.cells.length) laneFor,
    look fun s => eachA (List.range s.shu.cells.length) checkTx,
    look fun s => eachA (List.range s.shu.cells.length) queueJob,
    whenA (s.domOn Dom.rxn) (chain [eachA [0, 1] tickGain, calGrant])]

/-- The part of a tick that lies in MAC: the boundary of R60, RXFC of the handed-over contexts whose slot H + 1 has ended, and the
Shuttle's work where it runs (R76, R156, R198, R252, R336, R340). -/
def macTick : Act := look fun s =>
  chain [
    endSlot,
    onVif fun x => { x with due := (List.range 16).filter fun v => s.get (ten VIF.TENA0.STATE v) == 2 },
    linkDrain, eachA (s.bob.seen.filter fun p => s.migSlot p.ctx + 2 ≤ s.clk.asn) fun p => raiseRxfc p [],
    onShu fun u => { u with tick := s.clk.lastTick, asn := s.clk.asn, disturbed := u.pair.stage != 0 },
    put SHU.STAT.NCELL 0,
    whenA (s.reachable Dom.tx) (eachA [0, 1] classChain),
    whenA s.shu.void (stickV SHU.STICKY.SLOTSKIP 0),
    whenA s.pairRuns slotWork,
    onShu fun u => { u with next := none, void := false }]

/-- The slot tick, with the die temperature that the slot measures (R53, R60, R94, R279, R522). -/
def slotTick (temp : Int) : Act := look fun s => chain [
  until_ s.clk.nextTick, tickClock, pulse 8, countSource 5 0, pholdTick,
  whenA (s.domOn Dom.rxn) (chain [temperature temp, eachA [0, 1] tunerTick, xoTick]),
  whenA (s.domOn Dom.rxw) windowTick,
  whenA (s.domOn Dom.mac) macTick, whenA (s.domOn Dom.rxn) calAge]

/-- The slot tick (R53). -/
def execSlotTick (temp : Int) (s : State) : Host.Outcome State Fault Refusal :=
  act (look fun s => whenA (s.domOn Dom.core && s.is CLK.CTRL.TICKEN) (slotTick temp)) s

/-! Receive windows (R111, R201). -/

/-- TB at which the receive window of a cell opens: t0 + RXOFF, or RXACKD after the end of the frame whose acknowledgement
it awaits. -/
def State.windowOpensAt (s : State) (c : RunCell) : Nat :=
  if c.tx then match s.shu.waits.find? fun w => some w.lane == c.lane with
    | some w => w.ends + 4 * c.t.rxackd
    | none => s.tb
  else s.shu.tick + 4 * c.t.rxoff

/-- The receive window of cell `k` of the slot opens. -/
def execRxWindowOpen (k : Nat) (s : State) : Host.Outcome State Fault Refusal :=
  act (look fun s => match s.shu.cells[k]? with
    | none => skip
    | some c =>
      whenA (c.granted && !c.closed && (!c.tx || s.shu.waits.any fun w => some w.lane == c.lane))
        (chain [until_ (s.windowOpensAt c),
        match c.lane with
        | some n => chain [onLane n fun l => { l with isOpen := true }, settleLane n]
        | none => whenA c.waits (chain [onCell k fun c => { c with waits := false }, count DMD.NOLANE.CNT,
            stickVI DMD.STICKY.NOLANE c.vi 0 0])])) s

/-- The receive window of cell `k` closes: a lane still in ENERGY returns to IDLE for the rest of the slot. -/
def execRxWindowClose (k : Nat) (s : State) : Host.Outcome State Fault Refusal :=
  act (look fun s => match s.shu.cells[k]? with
    | none => skip
    | some c =>
      match c.lane with
      | none => skip
      | some n => whenA ((s.lane n).isOpen && (s.lane n).cell == some k)
          (chain [until_ (s.windowOpensAt c + 4 * (if c.tx then c.t.ackwait else c.t.rxwait)),
            onCell k fun c => { c with closed := true }, onLane n fun l => { l with isOpen := false }, settleLane n])) s

/-! The staging buffers (R154, R205, R207, R209, R591). -/

/-- The frame of cell `k` is not started; it stays queued. -/
def cellSkipped (k : Nat) : Act := onCell k fun c => { c with granted := false }

/-- The frame of cell `k` with its octets takes a staging buffer. -/
def loadRun (k : Nat) (c : RunCell) (octets : List Nat) : Act := look fun s =>
  match (s.txChain (s.portChain c.port)).freeBuffer with
  | none => chain [whenA (s.domOn Dom.tx) (stickV TXP.STICKY.NOBUF c.vi), cellSkipped k]
  | some buf => chain [
      onChain (s.portChain c.port) fun x => { x with runs := x.runs ++ [{ s.cellRun c octets with buf }] },
      onCell k fun c => { c with loaded := true }]

/-- The ranges of frame memory that the load of a cell reads: its descriptor and its octets, or its beacon's template. -/
def State.loadRanges (s : State) (c : RunCell) : List (Nat × Nat) :=
  match c.desc with
  | some off => [(descAddr off, 32), (Base.fram + s.desc off 1 19 3 * 8, (s.descOctets off).length)]
  | none => [(Base.fram + s.get (SHU.BCNLOC.ADDR.copy c.vi) * 8, s.get (SHU.BCNLOC.LEN.copy c.vi))]

/-- Cell `k` meets an uncorrectable error as it is loaded: its transmission ends, and a beacon is not sent (R461). -/
def loadBroken (k : Nat) (c : RunCell) : Act := look fun s => chain [
  eachA (s.loadRanges c) fun r => touch r.1 r.2,
  onShu fun u => { u with jobs := u.jobs.filter (·.cell != k) },
  if c.desc.isSome then cellFails k Status.eccUncorr else cellSkipped k]

/-- The load of cell `k`: no free buffer, securing not finished, a seam refused, or the octets loaded. -/
def loadCell (k : Nat) (c : RunCell) : Act := look fun s =>
  let full := (s.txChain (s.portChain c.port)).freeBuffer.isNone
  let noBuf : Act := chain [whenA (s.domOn Dom.tx) (stickV TXP.STICKY.NOBUF c.vi), cellSkipped k]
  match s.shu.jobs.find? (·.cell == k) with
  | some j =>
    let drop : Act := onShu fun u => { u with jobs := u.jobs.filter (·.cell != k) }
    if j.stage != 2 then chain [stickV SHU.STICKY.TXSECLATE c.vi, drop,
        (match s.sec.frame with | some (.secure n) => whenA (n == k) endFrameJob | _ => skip), cellSkipped k]
    else if full then chain [drop, noBuf]
    else chain [drop, loadRun k c j.octets]
  | none =>
    if full then noBuf
    else match c.desc with
      | some off =>
        (match s.seamAt c.vi off with
         | some (img, b, _) =>
           if s.seamServed img b then loadRun k c (s.withSeam c.vi (s.descOctets off))
           else chain [stickV UPD.STICKY.SEAMREF c.vi, cellFails k Status.prot]
         | none => loadRun k c (s.descOctets off))
      | none =>
        (match s.beaconOctets c.vi s.shu.asn (bitOf c.free 1 == 1) with
         | some l => loadRun k c l
         | none => chain [stickV SHU.STICKY.BCNBAD c.vi, cellSkipped k])

/-- The frame of transmitting cell `k` of the slot is loaded into a staging buffer (R154). -/
def execStagingBufferLoad (k : Nat) (s : State) : Host.Outcome State Fault Refusal :=
  act (look fun s => match s.shu.cells[k]? with
    | none => skip
    | some c => whenA (c.granted && c.tx && !c.loaded && s.pairRuns)
        (if (s.loadRanges c).any fun r => s.ue r.1 r.2 then loadBroken k c else loadCell k c)) s

/-! Transmit queues (R203, R204, R206). -/

/-- A write of TXSUB through view `v` (R204). -/
def writeTxsub (v w : Nat) : Act := look fun s =>
  let kind := bits w 31 30
  let off := bits w 19 3 * 8
  let ctx := s.desc off 2 11 0
  let inside := s.inQuota v off 32
  let size := s.desc off 0 10 0 - fcsLen (s.desc off 2 22 22 == 1)
  let q := s.queue v kind ctx
  if kind == 3 then stickV SHU.STICKY.RSVD v
  else if !inside then writeDone v Status.rsvdOp { off }
  else if kind != 2 && (s.cx ctx Cx.vi != v || s.ctxState ctx == CtxState.free || s.ctxState ctx == CtxState.dead) then
    writeDone v Status.noCtx { off }
  else if s.desc off 0 18 15 == 0 || !s.inQuota v (s.desc off 1 19 3 * 8) size then writeDone v Status.rsvdOp { off }
  else chain [journal,
    (match q.descs.getLast? with | some e => setWordBits (descAddr e.off + 12) 19 3 (off / 8) | none => skip),
    onQueue v kind ctx fun q => { q with descs := q.descs ++ [{ off }] },
    whenA (kind != 2) (chain [journal, setCx ctx Cx.pending (s.cx ctx Cx.pending + 1)]),
    whenA (kind == 0) (showQueue v ctx)]

/-- A write of SHU.TXSUB (R204). -/
def execTxSubmit (i : Initiator) (v : Fin 16) (w : Word) (s : State) : Host.Outcome State Fault Refusal :=
  act (atPair i v (SHU.TXSUB.copy v) (some w.toNat) (writeTxsub v w.toNat)) s

/-- A read of TXDONE through view `v` pops the oldest entry (R206). -/
def readTxdone (i : Initiator) (v : Nat) : Act := look fun s =>
  match s.shu.done.find? (·.1 == v) with
  | none => answer i 0
  | some e => chain [answer i (2 ^ 31 + e.2.1 * 2 ^ 20 + e.2.2), journal, onShu fun u => { u with done := u.done.erase e }]

/-- A read of SHU.TXDONE (R206). -/
def execTxdonePop (i : Initiator) (v : Fin 16) (s : State) : Host.Outcome State Fault Refusal :=
  act (atPair i v (SHU.TXDONE.copy v) none (readTxdone i v)) s

/-! Joining and forming (R210 to R214). -/

/-- The timing VI enters a state (R210, R218). -/
def tviState (st : Nat) : Act := look fun s => chain [journal, put (SHU.VISTAT.STATE.copy s.tvi) st]

/-- The time source of the timing VI. -/
def setSource (ctx : Nat) : Act := look fun s => chain [journal, put (SHU.VISTAT.TSCTX.copy s.tvi) ctx,
  put (SHU.VISTAT.TSV.copy s.tvi) (if ctx < 4096 then 1 else 0)]

/-- A prefetch that has started is void (R198). -/
def voidPrefetch : Act := look fun s => whenA s.shu.next.isSome (onShu fun u => { u with void := true })

/-- Whether the timing VI has an enabled static lane on the formation channel at a port (R212). -/
def State.formLane (s : State) (p : Nat) : Bool :=
  let v := s.tvi
  (List.range 128).any fun n => s.laneLive n && !s.is (DMD.LCFG.SCHED.i n) && s.laneVi n == v && s.lanePort n == p
    && s.get (DMD.LCFG.PLAN.i n) == s.get (SHU.FORMCH.PLAN.copy v) && s.get (DMD.LCFG.CHAN.i n) == s.get (SHU.FORMCH.CHAN.copy v)
    && s.get (DMD.LCFG.MODE.i n) == s.get (SHU.FORMCH.MODE.copy v) && s.laneFits n

/-- The command of a code in VICMD through view `v` (R210 to R212, R317). -/
def viCommand (v code : Nat) : Act := look fun s =>
  if code == 1 then
    if v != s.tvi || s.slaved then stickV SHU.STICKY.FORMREF v
    else chain [onShu fun u => { u with lost := false, heard := [] }, tviState 1]
  else if code == 2 then
    if v != s.tvi || s.slaved || !(s.formLane 0 && s.formLane 1) then stickV SHU.STICKY.FORMREF v
    else chain [
      onClk fun c => { c with nextTick := (c.tb + s.get CLK.SLOTLEN.LEN) % 2 ^ 64, asnCommit := some 0 },
      put CLK.CTRL.TICKEN 1, onShu fun u => { u with next := none, void := false, lost := false, heard := [] }, tviState 2]
  else whenA (code == 3 && v == s.tvi) (chain [onShu fun u => { u with lost := false, heard := [] }, tviState 0])

/-- A write of SHU.VICMD with JOIN (R211). -/
def execJoin (i : Initiator) (v : Fin 16) (s : State) : Host.Outcome State Fault Refusal :=
  act (atPair i v (SHU.VICMD.copy v) (some 1) (viCommand v 1)) s

/-- A write of SHU.VICMD with FORM (R212). -/
def execForm (i : Initiator) (v : Fin 16) (s : State) : Host.Outcome State Fault Refusal :=
  act (atPair i v (SHU.VICMD.copy v) (some 2) (viCommand v 2)) s

/-- A write of SHU.VICMD with STOP (R212). -/
def execStop (i : Initiator) (v : Fin 16) (s : State) : Host.Outcome State Fault Refusal :=
  act (atPair i v (SHU.VICMD.copy v) (some 3) (viCommand v 3)) s

/-- The tick is set anew: NEXTTICK, the ASN of the slot that begins there, and the effect on the slot in progress (R210). -/
def reload (next asn : Nat) : Act :=
  chain [
    onClk fun c => { c with
      nextTick := next % 2 ^ 64, asn := asn % 2 ^ 40, asnSince := c.tb, asnBefore := c.asn
      asnCommit := some (asn % 2 ^ 40), record := none },
    look fun s => whenA (s.domOn Dom.mac) (chain [voidPrefetch, endSlot])]

/-- Re-anchors the tick to a beacon with SFD stamp `stamp` in fine units and an ASN (R210, R237). -/
def reAnchor (stamp mode asn : Nat) : Act := look fun s =>
  let t := s.template (s.get (SHU.FORMCH.TPL.copy s.tvi))
  let start := roundDiv (stamp - t.offsetFine mode) 64
  let len := s.get CLK.SLOTLEN.LEN
  let k := ceilDiv (s.tb + 400 - start) len
  chain [
    put CLK.CTRL.TICKEN 0,
    put BOB.ADJACC.ACC (ofS 32 (toS 32 (s.get BOB.ADJACC.ACC) - s.getS CLK.ADJPEND.ADJ)), put CLK.ADJPEND.ADJ 0,
    reload (start + k * len) (asn + k),
    put CLK.CTRL.TICKEN 1]

/-- Takes the next beacon that waits for the Shuttle. -/
def nextBeacon (k : Heard → Act) : Act := look fun s =>
  match s.shu.heard with
  | [] => skip
  | h :: rest => chain [onShu fun u => { u with heard := rest }, k h]

/-- A beacon accepted in SCAN (R211). -/
def joinBeacon (h : Heard) : Act := look fun s =>
  let v := s.tvi
  let m := txMac h.octets
  match syncIe h.octets m with
  | none => skip
  | some (asn, jm, _) =>
    whenA (h.ctx < 4096)
      (chain [
        whenA (s.get (FRM.PANID.PAN.copy v) == 0xFFFF) (match m.sourcePan with
          | some p => put (FRM.PANID.PAN.copy v) p
          | none => skip),
        reAnchor h.stamp h.mode asn, setSource h.ctx, put (SHU.BCNCFG.JM.copy v) (min 255 (jm + 1)), tviState 4])

/-- An enhanced beacon that the timing VI has accepted in SCAN (R211). -/
def execBeaconJoin (s : State) : Host.Outcome State Fault Refusal :=
  act (look fun s => whenA (s.get (SHU.VISTAT.STATE.copy s.tvi) == 1 && s.pairRuns) (nextBeacon joinBeacon)) s

/-- LF × FNUM slots in FORMING without losing (R213). -/
def execFormationComplete (s : State) : Host.Outcome State Fault Refusal :=
  act (look fun s =>
    let v := s.tvi
    whenA (s.get (SHU.VISTAT.STATE.copy v) == 2 && s.pairRuns && s.clk.asnCommit.isNone
        && s.clk.asn ≥ s.get (SHU.FORMCFG.LF.copy v) * s.get (SHU.FORMCFG.FNUM.copy v)) (tviState 3)) s

/-- The priority that a beacon's formation IE carries, 0 without one (R214). -/
def formationPrio (oui : Nat) (h : Heard) : Nat :=
  match formationAt h.octets oui 64 (txMac h.octets).auxEnd with
  | some a => h.octets.getD (a + 3) 0
  | none => 0

/-- The loser of a comparison sends no further beacon, until it is told to join, form or stop (R214; notes/assumptions/62.md,
DESIGN CHOICE). -/
def silence : Act := look fun s =>
  let v := s.tvi
  chain [onShu fun u => { u with lost := true, cells := u.cells.map fun c =>
      if c.vi == v && c.beacon then { c with granted := false } else c },
    eachA [0, 1] fun c => onChain c fun x => { x with
      runs := x.runs.filter fun r => r.phase != 0 || r.vi != v || !(r.what == .beacon || r.what == .formation) },
    eachA [0, 1] paSettle]

/-- A beacon of the own PAN in FORMING or COORD: the higher (PRIO, EUI-64) wins (R214). One without a TSCH Synchronization sub-IE,
which gives no ASN, re-anchors nothing (notes/assumptions/62.md, DESIGN CHOICE). -/
def competeBeacon (h : Heard) : Act := look fun s =>
  let v := s.tvi
  let m := txMac h.octets
  let eui := if m.sm == 3 then m.src else if h.ctx < 4096 then some (s.ctxEui h.ctx) else none
  match eui with
  | some e =>
    whenA (m.sourcePan == some (s.get (FRM.PANID.PAN.copy v)))
      (let mine := s.get (SHU.FORMCFG.PRIO.copy v) * 2 ^ 64 + s.ownEui
       let theirs := formationPrio (s.get (SHU.FORMOUI.OUI.copy v)) h * 2 ^ 64 + e
       if theirs == mine then stickV SHU.STICKY.DUPEUI v
       else if theirs < mine then stickV SHU.STICKY.COMPETE v
       else chain [silence,
         (match syncIe h.octets m with | some (asn, _, _) => reAnchor h.stamp h.mode asn | none => skip),
         setSource h.ctx, tviState 4, stickV SHU.STICKY.COMPETE v])
  | none => skip

/-- An enhanced beacon of the own PAN from another device in FORMING or COORD (R214). -/
def execCompetingBeacon (s : State) : Host.Outcome State Fault Refusal :=
  act (look fun s =>
    let st := s.get (SHU.VISTAT.STATE.copy s.tvi)
    whenA ((st == 2 || st == 3) && s.pairRuns) (nextBeacon competeBeacon)) s

/-! The Bobbin store window. -/

/-- A write to the Bobbin store changes nothing and sets WINWR (R219). -/
def execBobbinWindowWrite (i : Initiator) (off : Fin 0x80000) (s : State) : Host.Outcome State Fault Refusal :=
  act (look fun s => match s.route i (Base.bobbin + off) true with
    | .mem _ => stick BOB.STICKY.WINWR
    | r => refusal i (Base.bobbin + off) r) s

end Sys2Proof.Machine
end

