-- ==== Sys2Proof/Machine/Cascade.lean ====
section
/-! DEFINITION. The cascade link: its states and training, the common tick, handovers, relayed frames, remote accesses and
interrupt levels (R308 to R331), and the role that permits it (R37, R38). -/

namespace Sys2Proof.Machine

/-! Link states (R311 to R315). -/

/-- The link states (R313). -/
def linkOff : Nat := 0
def linkAlign : Nat := 1
def linkTrain : Nat := 2
def linkUp : Nat := 3

/-- The link state. -/
def State.link (s : State) : Nat := s.get CAS.STAT.STATE

/-- Whether this device is M0 (R311). -/
def State.m0 (s : State) : Bool := s.is SYS.STAT.CASM

/-- Whether the link is trained and not lost. -/
def State.linkLive (s : State) : Bool := s.link == linkUp && s.cas.lostAt.isNone

/-- The link follows CTRL.EN and ROLE: OFF while either keeps it down, ALIGN once both permit it (R37, R313). -/
def settleLink : Act := look fun s =>
  if s.is CAS.CTRL.EN && s.get SYS.ROLE.VAL == 2 then
    whenA (s.link == linkOff) (chain [put CAS.STAT.STATE linkAlign, put CAS.STAT.MASTER (if s.m0 then 1 else 0),
      put CAS.STAT.NMEM (if s.m0 then 1 else 0)])
  else chain [put CAS.STAT.STATE linkOff, put CAS.STAT.MEMBER 0, put CAS.STAT.MASTER 0, put CAS.STAT.NMEM 0,
    put CLK.STAT.CASSYNC 0, onCas fun c => { c with lostAt := none, out := [] }]

/-- A handover is refused or cancelled with a reason: 1 REFUSED, 2 LATE, 3 LINK (R323, R329, R331). -/
def handoverFails (n reason : Nat) : Act := look fun s => chain [
  onBob fun b => { b with handovers := b.handovers.filter (·.1 != n) }, stickV CAS.STICKY.HOREFUSED (s.cx n Cx.vi),
  put CAS.HOLOG.V 1, put CAS.HOLOG.REASON reason, put CAS.HOLOG.DEST (s.cx n Cx.migDst), put CAS.HOLOG.CTX n]

/-- Link loss on the upstream side (R328, R329): handovers whose slot H has not come are cancelled, and frames that can no
longer be relayed are dropped. -/
def linkLost (reason : Nat) : Act := look fun s => chain [
  put CLK.STAT.CASSYNC 0, stick CAS.STICKY.LOSS, put CAS.LOSSLOG.V 1, put CAS.LOSSLOG.REASON reason,
  onCas fun c => { c with lostAt := some s.tb },
  eachA (s.bob.handovers.filter (·.2 < 3)) fun h => handoverFails h.1 3]

/-- A write of ROLE (R37, R38). A relay pulse in progress runs to its end when ROLE becomes NONE, and a request that waits keeps
waiting (DESIGN CHOICE, notes/assumptions/57.md). -/
def writeRole (w : Nat) : Act := look fun s =>
  let was := s.get SYS.ROLE.VAL
  chain [plainWrite SYS.ROLE.key 0 w, look fun t => whenA (t.get SYS.ROLE.VAL != was) (chain [
    whenA (s.domOn Dom.lamp) settleLamps,
    whenA (s.domOn Dom.mac) (chain [
      whenA (s.linkLive && t.get SYS.ROLE.VAL != 2) (linkLost 6), settleLink])])]

/-- A write of SYS.ROLE. -/
def execRoleWrite (i : Initiator) (w : Word) (s : State) : Host.Outcome State Fault Refusal :=
  act (atRegister i 0 SYS.ROLE true (writeRole w.toNat)) s

/-- A write of CAS.CTRL (R311). -/
def writeCasCtrl (w : Nat) : Act := chain [plainWrite CAS.CTRL.key 0 w, settleLink]

/-- A write of CAS.CTRL. -/
def execLinkEnable (i : Initiator) (w : Word) (s : State) : Host.Outcome State Fault Refusal :=
  act (atRegister i 0 CAS.CTRL true (writeCasCtrl w.toNat)) s

/-- Symbol and comma lock are gained, from the upstream neighbour with member number `up`, or at M0 from its downstream
neighbour. M7 trains no one (R311, R313, R314). -/
def execLinkAlignLock (up : Fin 8) (s : State) : Host.Outcome State Fault Refusal :=
  act (look fun s => whenA (s.domOn Dom.mac && s.link == linkAlign && (s.m0 || up.val < 7)) (chain [
    put CAS.STAT.STATE linkTrain, whenA (!s.m0) (put CAS.STAT.MEMBER (up.val + 1)),
    onCas fun c => { c with trainAt := s.tb }])) s

/-- A training marker arrives: from downstream it is returned; from upstream at a device with CASM 1 it is ignored with
TWOMAST (R312, R314). -/
def execTrainingMarker (fromUp : Bool) (s : State) : Host.Outcome State Fault Refusal :=
  act (look fun s => whenA (s.domOn Dom.mac && s.link != linkOff)
    (if fromUp then whenA s.m0 (stick CAS.STICKY.TWOMAST) else onCas fun c => { c with echoes := c.echoes + 1 })) s

/-- Rounds a quotient to the nearest integer, halves up. -/
def roundInt (a : Int) (b : Nat) : Int := (2 * a + b) / (2 * b)

/-- The training of a member: 16 round trips and the cumulative delay of its upstream neighbour, in ps (R314). One fine unit
is 3906.25 ps, so 16 round trips in ps over 125 000 give fine units of half a round trip. -/
def trained (rt : List Nat) (up : Int) : Act := look fun s =>
  let sum : Int := (rt.sum : Nat)
  let hop := sum - 3840000
  let cum := hop + 32 * up + (if s.get CAS.STAT.MEMBER ≥ 2 then 800000 else 0)
  if rt.foldl max 0 - rt.foldl min (rt.headD 0) > 4000 then
    chain [put CAS.STAT.STATE linkAlign, stick CAS.STICKY.TRAINFAIL]
  else chain [putS CAS.HOPDLY.D (roundInt hop 125000), put CAS.CUMDLY.C (roundInt cum 125000).toNat, put CAS.STAT.STATE linkUp]

/-- Training ends: at a member with its measurements; at M0, which counts `nmem` trained members (R314, R315). -/
def execTrainingDone (rt : List Nat) (up : Int) (nmem : Fin 9) (s : State) : Host.Outcome State Fault Refusal :=
  act (look fun s =>
    if s.m0 then whenA (s.domOn Dom.mac && s.link ≥ linkTrain && 2 ≤ nmem.val)
      (chain [put CAS.STAT.STATE linkUp, put CAS.STAT.NMEM nmem])
    else whenA (s.domOn Dom.mac && s.link == linkTrain && rt.length == 16) (trained rt up)) s

/-- TRAINTO ms pass in TRAIN (R314). -/
def execTrainingTimeout (s : State) : Host.Outcome State Fault Refusal :=
  act (look fun s => whenA (s.domOn Dom.mac && s.link == linkTrain) (chain [
    until_ (s.cas.trainAt + s.get CAS.CFG.TRAINTO * 4000), put CAS.STAT.STATE linkAlign, stick CAS.STICKY.TRAINFAIL])) s

/-! The common tick (R316 to R319). -/

/-- M0 sends the load record 100 µs before its tick; what it holds is what the tick then applies at M0 too (R316, R318). -/
def execLoadRecordSend (s : State) : Host.Outcome State Fault Refusal :=
  act (look fun s => whenA (s.domOn Dom.mac && s.m0 && s.linkLive && s.is CLK.CTRL.TICKEN) (chain [
    until_ (s.clk.nextTick - 400),
    look fun s => chain [
      onClk fun c => { c with record := some (s.get CLK.SLOTLEN.LEN, s.getS CLK.ADJPEND.ADJ, c.asnCommit) },
      sendLink (.load (s.get CLK.SLOTLEN.LEN) (s.getS CLK.ADJPEND.ADJ) s.clk.asnCommit)],
    put CLK.STAT.CASSYNC 1])) s

/-- The load of a member that is not yet synchronised, at the tick: TB, tick and ASN are M0's, and the step goes to STEP. The
slot in progress ends as by a re-anchor, and the first slot after the load runs no cells (R210, R316). -/
def loadTime (tb next asn len : Nat) (adj : Int) (on : Bool) (phase : Nat) : Act := look fun s =>
  let step : Int := ((tb : Int) - s.tb) * 64 + phase
  chain [
    onClk fun c => { c with tb := tb % 2 ^ 64, lastTick := tb % 2 ^ 64, nextTick := next % 2 ^ 64, asn,
                            asnSince := tb % 2 ^ 64, asnBefore := c.asn, asnCommit := none, record := none },
    put CLK.SLOTLEN.LEN len, putS CLK.ADJPEND.ADJ adj, put CLK.CTRL.TICKEN (if on then 1 else 0),
    putS CAS.STEP.VAL (clampS (-2147483648) 2147483647 step), stick CAS.STICKY.TBSTEP, put CLK.STAT.CASSYNC 1,
    rollsStep (tb % 2 ^ 64), endSlot, restartSilence asn,
    onShu fun u => { u with next := none, void := false, tick := tb % 2 ^ 64, asn }, stickV SHU.STICKY.SLOTSKIP 0]

/-- A load record arrives and takes effect at the tick: TB at the tick, NEXTTICK after it, the ASN of the slot that begins and
whether M0 committed it, SLOTLEN, the pending adjustment, TICKEN; `phase` is the part of the step below one TB unit, in fine
units. A synchronised member has its own tick apply it, or meets another ASN than its own (R316, R318, R319). -/
def applyRecord (tb next asn : Nat) (commit : Bool) (len : Nat) (adj : Int) (on : Bool) (phase : Nat) : Act := look fun s =>
  if !s.is CLK.STAT.CASSYNC then loadTime tb next asn len adj on phase
  else if !commit && asn != (s.clk.asn + 1) % 2 ^ 40 then linkLost 4
  else chain [put CLK.CTRL.TICKEN (if on then 1 else 0),
    onClk fun c => { c with record := some (len, adj, if commit then some asn else none) }]

/-- A load record at a trained member other than M0. -/
def execLoadRecordApply (tb next : BitVec 64) (asn : BitVec 40) (commit : Bool) (len : BitVec 16) (adj : Int) (on : Bool)
    (phase : Fin 64) (s : State) : Host.Outcome State Fault Refusal :=
  act (look fun s => whenA (s.domOn Dom.mac && !s.m0 && s.linkLive)
    (applyRecord tb.toNat next.toNat asn.toNat commit len.toNat (clampS (-1000) 1000 adj) on phase)) s

/-- A stretched tick marker is checked against the member's tick: its displacement in ns, or `none` where it is missing
(R319). -/
def execTickMarkerCheck (ns : Option Int) (s : State) : Host.Outcome State Fault Refusal :=
  act (look fun s => whenA (s.domOn Dom.mac && s.slaved && s.linkLive)
    (match ns with
     | some d => whenA (d < -16 || 16 < d) (linkLost 3)
     | none => linkLost 3)) s

/-! Loss (R328 to R330). -/

/-- Upstream link loss by lost lock or clock (0), by LOSSN consecutive CRC failures (1), or reported by the upstream
neighbour (2), with the code and CRC errors that the link has counted. -/
def execLinkLoss (reason : Fin 3) (codes crcs : Nat) (s : State) : Host.Outcome State Fault Refusal :=
  act (look fun s => whenA (s.domOn Dom.mac && s.link != linkOff) (chain [
    addSat CAS.LINKERR.CODE codes, addSat CAS.LINKERR.CRC crcs,
    whenA (s.linkLive && !s.m0 && (reason.val != 1 || s.get CAS.CFG.LOSSN ≤ crcs)) (linkLost ([1, 2, 5].getD reason 1))])) s

/-- Loss on the downstream side clears nothing; M0 counts the members that are still UP (R328). -/
def execDownstreamLinkLoss (nmem : Fin 9) (s : State) : Host.Outcome State Fault Refusal :=
  act (look fun s => whenA (s.domOn Dom.mac && s.m0 && s.link == linkUp && nmem.val < s.get CAS.STAT.NMEM)
    (put CAS.STAT.NMEM (max 1 nmem.val))) s

/-- 1 ms after a loss, with AUTORT 1, the member returns to ALIGN (R330). -/
def execRetrain (s : State) : Host.Outcome State Fault Refusal :=
  act (look fun s => match s.cas.lostAt with
    | some t => whenA (s.domOn Dom.mac && s.is CAS.CTRL.AUTORT && s.link == linkUp) (chain [
        until_ (t + 4000), put CAS.STAT.STATE linkAlign, onCas fun c => { c with lostAt := none }])
    | none => skip) s

/-! Handovers (R249 to R253, R323 to R325, R329). `BobSt.handovers` holds, for each context, 0 noted, 1 record sent, 2 accepted,
3 past slot H. -/

/-- The stage of a handover. -/
def State.handoverStage (s : State) (n : Nat) : Option Nat := (s.bob.handovers.find? (·.1 == n)).map (·.2)

/-- A handover enters a stage. -/
def setHandover (n st : Nat) : Act :=
  onBob fun b => { b with handovers := b.handovers.map fun h => if h.1 == n then (n, st) else h }

/-- At the tick of H − 1 the context record is sent (R323). -/
def execHandoverRecordSend (n : Fin 4096) (s : State) : Host.Outcome State Fault Refusal :=
  act (look fun s => whenA (s.domOn Dom.mac && s.handoverStage n == some 0 && s.linkLive && s.clk.asn + 1 == s.migSlot n)
    (look fun s => chain [setHandover n 1,
      sendLink (.record (s.cx n Cx.migDst) n ((List.range 32).map fun k => s.word (ctxAddr n + 4 * k)))])) s

/-- A context record arrives, with its 32 words: the destination accepts it and keeps a place and its keys for it, or refuses; a
placement that fails counts under R225 (R323). -/
def receiveRecord (l : List Nat) : Act := look fun s =>
  let v := wordField l Cx.vi
  let eui := wordField l Cx.euiHi * 2 ^ 32 + wordField l Cx.euiLo
  let pan := wordField l Cx.pan
  let short := wordField l Cx.short
  let h := wordField l Cx.migHh * 2 ^ 32 + wordField l Cx.migH
  let reply (good : Bool) : Act := chain [onCas fun c => { c with reply := some good },
    sendLink (.answer (wordField l Cx.ownMem) good)]
  let refuse : Act := reply false
  let full : Act := chain [ctxFull v, refuse]
  let dup := s.extTaken v eui || s.shortTaken none v pan short
  let keyOk := wordField l Cx.ksv == 0 || s.ownsKey v (wordField l Cx.keySlot)
  match s.ctxFree with
  | none => refuse
  | some n =>
    if !s.viOpen v || s.get (ten VIF.TENB0.CTXQ v) ≤ s.ctxUse v || dup || !keyOk then refuse
    else
      let accept : Act := chain [onBob fun b => { b with incoming := b.incoming ++ [(n, h, l)] }, reply true]
      let short_ : Act := if short < 0xFFFE then place n false (shortKey v pan short) fun ok =>
          if ok then accept else chain [dropKeys n true, full]
        else accept
      if eui = 0 then short_ else place n true (extKey v eui) fun ok => if ok then short_ else full

/-- A context record arrives. -/
def execHandoverRecordReceive (words : List Word) (s : State) : Host.Outcome State Fault Refusal :=
  act (look fun s => whenA (s.domOn Dom.mac && s.linkLive && words.length == 32) (receiveRecord (words.map (·.toNat)))) s

/-- The destination's answer reaches the source (R323). -/
def execHandoverAcceptReceive (n : Fin 4096) (accepted : Bool) (s : State) : Host.Outcome State Fault Refusal :=
  act (look fun s => whenA (s.domOn Dom.mac && s.linkLive && s.handoverStage n == some 1)
    (if accepted then setHandover n 2 else handoverFails n 1)) s

/-- The destination's context starts (R252). -/
def startIncoming (n : Nat) (l : List Nat) : Act := look fun s => chain [
  eachA (List.range 32) fun k => setWord (ctxAddr n + 4 * k) (l.getD k 0),
  setCx n Cx.gen ((wordField l Cx.gen + 1) % 65536), setCx n Cx.ownMem s.member, setCx n Cx.learnt 0,
  setCx n Cx.txfc (min (wordField l Cx.txfc + 16) 0xFFFFFFFF), setCx n Cx.adjRef (s.get BOB.ADJACC.ACC),
  setCx n Cx.qhead 0, setCx n Cx.qtail 0, setCx n Cx.pending 0, resetBackoff (wordField l Cx.vi) 0 n,
  onBob fun b => { b with
    incoming := b.incoming.filter (·.1 != n)
    seen := b.seen.filter (·.ctx != n) ++ [{ ctx := n, base := if wordField l Cx.rxfcv == 1 then some (wordField l Cx.rxfc) else none }] }]

/-- The tick of slot H for a context: at the source it becomes MIGRATING, or keeps as it is with the handover late; at the
destination the context kept for a record starts (R250, R252, R323). -/
def execHandoverSlotH (n : Fin 4096) (s : State) : Host.Outcome State Fault Refusal :=
  act (look fun s => whenA (s.domOn Dom.mac) (chain [
    match s.bob.incoming.find? (·.1 == n.val) with
    | some x => whenA (x.2.1 ≤ s.clk.asn) (startIncoming n x.2.2)
    | none => skip,
    match s.handoverStage n with
    | some st => whenA (st < 3 && s.migSlot n ≤ s.clk.asn)
        (if st = 2 && ctxLive (s.ctxState n) then chain [setHandover n 3, ctxEnter n CtxState.migrating] else handoverFails n 2)
    | none => skip])) s

/-- The old context becomes FREE: at the tick of H + 2, or at the end of the last frame it must relay; the close record is sent
(R251, R325). A frame that the lost link cannot relay counts as lost (R329). -/
def execMigrationEnd (n : Fin 4096) (s : State) : Host.Outcome State Fault Refusal :=
  act (look fun s => whenA (s.domOn Dom.mac && s.ctxState n == CtxState.migrating && s.migSlot n + 2 ≤ s.clk.asn
      && !(s.frm.frames.any fun f => f.toRelay && (match f.verdict with | some w => w.ctx == n.val | none => false)))
    (look fun s => chain [
      whenA s.linkLive (sendLink (.close (s.cx n Cx.migDst) n (s.cx n Cx.rxfc))),
      onBob fun b => { b with handovers := b.handovers.filter (·.1 != n.val) }, ctxEnter n CtxState.free])) s

/-- A frame relayed by the source (R324). -/
structure RelayFrame where
  octets : List Nat
  tb     : Nat
  fine   : Nat
  asn    : Nat
  lane   : Nat
  port   : Nat
  vi     : Nat
  mode   : Nat
  chan   : Nat
  plan   : Nat
  fcs2   : Bool
  rssi   : Int
  lqi    : Nat
  fo     : Int
  member : Nat

/-- The lane under which a relayed frame of the source's lane `lane` is held: the source's lane in the first of 64 further rows
of lanes where no frame of that lane is held (R324). -/
def State.relayLane (s : State) (lane : Nat) : Nat :=
  let key := ((List.range 64).find? fun j => !s.frm.frames.any fun f => f.lane == 128 * (j + 1) + lane).getD 63
  128 * (key + 1) + lane

/-- A relayed frame as it stands at its end under a lane, without a verdict (R324). -/
def RelayFrame.arrived (r : RelayFrame) (lane : Nat) : RxFrame :=
  { lane, buf := 0, port := r.port, vi := r.vi, mode := r.mode, midx := 0, plan := r.plan, chan := r.chan
    sfdsel := 0, rsc := false, ilv := false, stage := 2, tb := r.tb, fine := r.fine, asn := r.asn, len := r.octets.length
    fcs2 := r.fcs2, octets := r.octets, rssi := r.rssi, lqi := r.lqi, fo := r.fo, relayed := true, member := r.member }

/-- A relayed frame stands at its end with its verdict (R253, R324). -/
def admitRelayed (r : RelayFrame) (lane : Nat) : Act := chain [
  onFrm fun q => { q with frames := q.frames ++ [r.arrived lane] }, giveVerdict lane 0, findMalformed lane 0]

/-- A relayed frame is taken as if it had been received in a cell, under the source's lane; a frame with another generation
tag than its context's is dropped (R253, R324). -/
def relayedFrame (r : RelayFrame) (gen : Nat) : Act := look fun s =>
  let lane := s.relayLane r.lane
  chain [admitRelayed r lane,
    withFrame lane 0 fun f => look fun s => match f.verdict with
      | some w =>
        if w.res == 1 && s.cx w.ctx Cx.gen != gen then chain [stickV BOB.STICKY.STALEGEN f.vi, discardFrame f]
        else takeFrame lane 0
      | none => takeFrame lane 0]

/-- A relayed frame arrives, with the tag GEN + 1 and the member number of the source. -/
def execRelayedFrame (octets : List Byte) (tb : BitVec 64) (fine : Fin 64) (asn : BitVec 40) (lane : Fin 8 × Fin 128) (port : Fin 2)
    (vi : Fin 16) (mode : Fin 16) (chan : Fin 2048) (plan : Fin 4) (fcs2 : Bool) (rssi : Int) (lqi : Byte) (fo : Int)
    (gen : BitVec 16) (s : State) : Host.Outcome State Fault Refusal :=
  act (look fun s => whenA (s.domOn Dom.mac && s.linkLive) (relayedFrame ⟨octets.map (·.toNat), tb.toNat, fine, asn.toNat, lane.2, port, vi, mode,
    chan, plan, fcs2, rssi, lqi.toNat, fo, lane.1⟩ gen.toNat)) s

/-- The close record arrives with the source's final RXFC (R325). -/
def execCloseRecord (n : Fin 4096) (rxfc : Word) (s : State) : Host.Outcome State Fault Refusal :=
  act (look fun s => whenA (s.domOn Dom.mac && s.linkLive && s.bob.seen.any (·.ctx == n.val))
    (onBob fun b => { b with closes := b.closes.filter (·.1 != n.val) ++ [(n.val, rxfc.toNat)] })) s

/-- The source's final RXFC raises the destination's, and held copies are released. Without a close record they wait, unless
the link is lost (R252, R325, R329). -/
def execRxfcReconcile (n : Fin 4096) (s : State) : Host.Outcome State Fault Refusal :=
  act (look fun s => match s.bob.seen.find? (·.ctx == n.val) with
    | none => skip
    | some p =>
      let close := (s.bob.closes.find? (·.1 == n.val)).map (·.2)
      whenA (s.domOn Dom.mac && s.migSlot n + 2 ≤ s.clk.asn && (close.isSome || !s.linkLive)) (chain [
        raiseRxfc p close.toList,
        onBob fun b => { b with
          seen := b.seen.filter (·.ctx != n.val)
          closes := b.closes.filter (·.1 != n.val) }])) s

/-! Remote accesses and interrupt levels (R326, R327). -/

/-- A write of RCTRL: GO is ignored while BUSY is 1. An access that names this member, or finds the link down, completes at
once. -/
def writeRctrl (w : Nat) : Act := look fun s =>
  chain [plainWrite CAS.RCTRL.key 0 (w % 2 ^ 31),
    whenA (bitOf w 31 == 1 && !s.is CAS.RSTAT.BUSY) (look fun s =>
      let fail (r : Nat) : Act := put CAS.RSTAT.RESULT r
      if !s.linkLive then fail 1
      else if s.get CAS.RCTRL.MEMBER == s.member then fail 2
      else chain [put CAS.RCTRL.GO 1, put CAS.RSTAT.BUSY 1,
        sendLink (.remote (s.get CAS.RCTRL.MEMBER) (s.get CAS.RADDR) (s.get CAS.RCTRL.WORDS + 1) (s.is CAS.RCTRL.WR))])]

/-- A remote access is set up and started. -/
def remoteGo (i : Initiator) (member addr words wr : Nat) : Act := chain [
  atRegister i 0 CAS.RADDR true (plainWrite CAS.RADDR.key 0 addr),
  atRegister i 0 CAS.RCTRL true (writeRctrl (2 ^ 31 + wr * 2 ^ 30 + member * 2 ^ 24 + words))]

/-- A GO of a read of `words` + 1 words. -/
def execRemoteRead (i : Initiator) (member : Fin 8) (addr : Word) (words : Fin 16) (s : State) : Host.Outcome State Fault Refusal :=
  act (remoteGo i member addr.toNat words 0) s

/-- A GO of a write of `words` + 1 words from RBUF. -/
def execRemoteWrite (i : Initiator) (member : Fin 8) (addr : Word) (words : Fin 16) (s : State) : Host.Outcome State Fault Refusal :=
  act (remoteGo i member addr.toNat words 1) s

/-- A remote access completes with a result, and a read with its words (R326). -/
def execRemoteAccessDone (result : Fin 4) (words : List Word) (s : State) : Host.Outcome State Fault Refusal :=
  act (look fun s => whenA (s.domOn Dom.mac && s.is CAS.RSTAT.BUSY) (chain [
    whenA (result.val == 0 && !s.is CAS.RCTRL.WR) (eachA (List.range (s.get CAS.RCTRL.WORDS + 1)) fun k =>
      put (CAS.RBUF.W.i k) (words.getD k 0).toNat),
    put CAS.RCTRL.GO 0, put CAS.RSTAT.BUSY 0, put CAS.RSTAT.RESULT result])) s

/-- A member's forwarded HIRQ level reaches M0 (R327). -/
def execMemberIrqLevel (k : Fin 8) (level : Bool) (s : State) : Host.Outcome State Fault Refusal :=
  act (look fun s => whenA (s.domOn Dom.mac && s.m0 && s.linkLive && k.val != 0) (chain [
    whenA (level && !s.is (CAS.MIRQ.M.bit (k - 1))) (stick CAS.STICKY.MIRQ),
    put (CAS.MIRQ.M.bit (k - 1)) (if level then 1 else 0)])) s

end Sys2Proof.Machine
end

