-- ==== Sys2Proof/Machine/Collector.lean ====
section
/-! DEFINITION. The fault collector: staging, the ordered queue, the overflow marker, the pop (R349 to R356), and the
recorder-free half of a recovery entry (R353). -/

namespace Sys2Proof.Machine

/-- Whether a report ranks before another: stamp, then page code, then instance (R63). -/
def Report.before (a b : Report) : Bool :=
  a.tb < b.tb || (a.tb == b.tb && (a.page < b.page || (a.page == b.page && a.inst < b.inst)))

/-- The first report of a list that no other ranks before; equal ranks keep their order of capture (R63). -/
def lowestReport : List Report → Option Report
  | [] => none
  | r :: l =>
    match lowestReport l with
    | some m => if m.before r then some m else some r
    | none => some r

/-- The list without its first copy of a report. -/
def dropReport (r : Report) : List Report → List Report
  | [] => []
  | x :: l => if x = r then l else x :: dropReport r l

/-- The counter of a page's lost reports in LOST0 to LOST9 (R351). -/
def lostFld (page : Nat) : Fld := (FLT.LOST.i (page / 4)).sub (8 * (page % 4)) 8

/-- A report is lost: its page's counter counts, and it opens an overflow or lowers the rank of the open one (R351). -/
def loseReport (r : Report) : Act := chain [count (lostFld r.page),
  onFlt fun f => { f with lost := match f.lost with
    | none => some r
    | some m => if r.before m then some r else some m }]

/-- A report reaches the staging area, or is lost because the area is full or an overflow is open (R349, R351). -/
def stageReport (r : Report) : Act := look fun s =>
  if s.flt.staged.length ≥ 256 || s.flt.lost.isSome then loseReport r
  else onFlt fun f => { f with staged := f.staged ++ [r] }

/-- An entry is appended to the queue: QAVAIL is set and producer FLTQ pulses (R352, R532). -/
def appendEntry (r : Report) : Act := chain [onFlt fun f => { f with queue := f.queue ++ [r] },
  stick FLT.STICKY.QAVAIL, pulse 34]

/-- A recovery entry is staged (R353): the page of its case, the stamp of the present TB and the INFO word of R350. -/
def stageRecovery (case_ ctx time : Nat) : Act := look fun s =>
  stageReport ⟨s.tb, if case_ ≤ 2 then 0x17 else 0x19, 0, 0, 3,
    case_ % 16 * 0x10000000 + ctx % 0x1000 * 0x10000 + min time 0xFFFF⟩

/-- The oldest report on its way to the collector arrives (R349). -/
def execFaultReportArrive (s : State) : Host.Outcome State Fault Refusal :=
  act (look fun s => match s.flt.sent with
    | [] => skip
    | r :: l => chain [onFlt fun f => { f with sent := l }, stageReport r]) s

/-- The lowest-ranked staged report is appended once TB has passed its stamp by two units, by when each report of a lower rank
has arrived; while the marker stands in the queue, or the report does not rank before the lowest lost one, it stays; with 63
entries in use it is lost (R349, R351). -/
def execFaultQueueAppend (s : State) : Host.Outcome State Fault Refusal :=
  act (look fun s => match lowestReport s.flt.staged with
    | none => skip
    | some r =>
      if s.flt.marked || s.flt.sent.any (·.before r) then skip
      else if (match s.flt.lost with | some m => !r.before m | none => false) then skip
      else chain [until_ (r.tb + 2), onFlt fun f => { f with staged := dropReport r f.staged },
        if s.flt.queue.length ≥ 63 then loseReport r else appendEntry r]) s

/-- The overflow marker is appended with the stamp, PAGE and INST of the lowest-ranked lost report, once no staged report
ranks before it (R351). -/
def execOverflowMarkerAppend (s : State) : Host.Outcome State Fault Refusal :=
  act (look fun s => match s.flt.lost with
    | none => skip
    | some m =>
      if s.flt.marked || (s.flt.staged ++ s.flt.sent).any (fun r => r.before m) then skip
      else chain [until_ (m.tb + 2), onFlt fun f => { f with marked := true },
        appendEntry ⟨m.tb, m.page, m.inst, 0, 2, 0⟩, stick FLT.STICKY.OVF]) s

/-- A pop removes the oldest entry; popping the marker ends the overflow (R351, R352). -/
def popFault (w : Nat) : Act := look fun s =>
  match s.flt.queue with
  | [] => skip
  | r :: l =>
    whenA (bitOf w 0 == 1) (onFlt fun f => { f with
      queue := l
      lost := if r.kind == 2 then none else f.lost
      marked := if r.kind == 2 then false else f.marked })

/-- A write of POP (R352). -/
def execFaultPop (i : Initiator) (w : Word) (s : State) : Host.Outcome State Fault Refusal :=
  act (atRegister i 0 FLT.POP true (popFault w.toNat)) s

/-- At a restore of CORE the collector takes its reset values, the reports AON held are staged, and the ones AON could not
hold are lost (R354). -/
def collectorRestore : Act := look fun s =>
  chain [onFlt fun _ => {}, eachA s.flt.aon stageReport, eachA s.flt.aonLost loseReport]

end Sys2Proof.Machine
end

