-- ==== Sys2Proof/Machine/Lockstep.lean ====
section
/-! DEFINITION. The lockstep pair: RUN, checkpoints, a mismatch and its restore, injected faults, and errors of the Bobbin
store (R332 to R345, R356). -/

namespace Sys2Proof.Machine

/-! RUN (R335, R343). -/

/-- Cells that have not started do not run, and what waits for them ends (R60, R335, R340). -/
def cellsStop : Act := look fun s => chain [
  onShu fun u => { u with
    cells := u.cells.map fun c => { c with
      waits := false
      granted := c.granted && (if c.tx then c.loaded else match c.lane with | some n => (s.lane n).isOpen | none => false) }
    jobs := [] },
  (match s.sec.frame with | some (.secure _) => endFrameJob | _ => skip)]

/-- RUN is set: a checkpoint is taken, and PAIRDOWN clears (R335, R336, R343). -/
def startPair : Act := chain [
  put SHU.CTRL.RUN 1, put FLT.STAT.PAIRDOWN 0,
  look fun s => onShu fun u => { u with waits := [], pair := {}, runFrom := s.tb }, checkpoint,
  onShu fun u => { u with pair := { u.pair with older := false } }]

/-- RUN is cleared: both copies stop, and the checkpoints and journals go (R335). A prefetch made stays, for the tick at which
RUN may be 1 again (R198). -/
def stopPair : Act := chain [put SHU.CTRL.RUN 0, cellsStop, onShu fun u => { u with pair := {}, heard := [] }]

/-- A write of SHU.CTRL: TVI and RUN; a 1 to RUN while the pair runs takes a checkpoint (R218, R335, R336). -/
def writeShuCtrl (w : Nat) : Act := look fun s =>
  chain [judgedWrite SHU.CTRL.key 0 (withBit w 0 (s.is SHU.CTRL.RUN)) fun _ _ => false,
    if bitOf w 0 == 1 then (if s.is SHU.CTRL.RUN then whenA (s.shu.pair.stage == 0) checkpoint else startPair)
    else whenA (s.is SHU.CTRL.RUN) stopPair]

/-- A write of SHU.CTRL (R335). -/
def execShuttleRunWrite (i : Initiator) (v : Fin 16) (w : Word) (s : State) : Host.Outcome State Fault Refusal :=
  act (atPair i v SHU.CTRL (some w.toNat) (writeShuCtrl w.toNat)) s

/-! A mismatch (R334, R339 to R343). -/

/-- RESTORING shows whether a restore or a repair runs (R356). -/
def showRestoring : Act := look fun s =>
  put FLT.STAT.RESTORING (if s.shu.pair.stage != 0 || !s.bob.repairs.isEmpty then 1 else 0)

/-- The pair does not resume (R343). -/
def pairDown : Act := chain [
  put SHU.CTRL.RUN 0, put FLT.STAT.PAIRDOWN 1, stick FLT.STICKY.LSFAIL, cellsStop,
  onShu fun u => { u with pair := {}, next := none, heard := [] }, showRestoring]

/-- The transmissions that the pair has armed and whose ramp-up has not started are cancelled; each acknowledgement among
them counts as missed (R339, R340). -/
def cancelArmed (c : Nat) : Act := look fun s =>
  let gone := (s.txChain c).runs.filter fun r => r.phase == 0 && !r.isDirect
  chain [onChain c fun x => { x with runs := x.runs.filter fun r => r.phase != 0 || r.isDirect },
    eachA (gone.filter TxRun.isAck) fun r => ackMissed r.vi, paSettle c]

/-- The restore begins, with the case of R350; a mismatch during a restore brings the pair down. -/
def mismatch (kind : Nat) : Act := look fun s =>
  if s.shu.pair.stage != 0 then pairDown
  else whenA (s.is SHU.CTRL.RUN) (chain [
    put FLT.STAT.RESTORING 1,
    onShu fun u => { u with disturbed := true, pair := { u.pair with stage := 1, since := s.tb, kind, inject := false } },
    eachA [0, 1] cancelArmed, cellsStop])

/-- The comparator finds a difference (R334). -/
def execLockstepMismatch (s : State) : Host.Outcome State Fault Refusal :=
  act (look fun s => whenA (s.domOn Dom.mac) (mismatch 1)) s

/-- The write of a checkpoint ends, and the signatures of the two copies agree or differ (R334, R336). -/
def execCheckpointWriteDone (agree : Bool) (s : State) : Host.Outcome State Fault Refusal :=
  act (look fun s => match s.shu.pair.writing with
    | none => skip
    | some t => chain [until_ t, onShu fun u => { u with pair := { u.pair with writing := none, older := true } },
        whenA (!agree) (mismatch 2)]) s

/-- The journal of the present checkpoint has 8192 entries: an intermediate checkpoint (R337). -/
def execIntermediateCheckpoint (s : State) : Host.Outcome State Fault Refusal :=
  act (look fun s => whenA (s.pairRuns && 8192 ≤ s.shu.pair.journal)
    (chain [checkpoint, count FLT.CKPT.CKPTX, stick FLT.STICKY.CKPTX])) s

/-- Every external operation issued before the detection has ended (R339). -/
def execQuiesceComplete (s : State) : Host.Outcome State Fault Refusal :=
  act (look fun s => whenA (s.shu.pair.stage == 1)
    (onShu fun u => { u with pair := { u.pair with stage := 2 } })) s

/-- An interruption in units of 0.1 µs. -/
def State.interruption (s : State) (since : Nat) : Nat := (s.tb - since) * 5 / 2

/-- LASTREC and a recovery entry (R342, R345, R353). -/
def recovered (case_ ctx since : Nat) : Act := look fun s => chain [
  put FLT.LASTREC.CASE case_, put FLT.LASTREC.CTX ctx, put FLT.LASTREC.TIME (min (s.interruption since) 0xFFFF),
  stageRecovery case_ ctx (s.interruption since)]

/-- The restore ends: the pair resumes with the state it held, and attempts without a match end as NOACK; or it does not
resume (R338, R340, R342, R343). -/
def restoreEnds (good : Bool) : Act := look fun s =>
  let p := s.shu.pair
  if !good then pairDown
  else chain [
    onShu fun u => { u with pair := { u.pair with stage := 0 } }, showRestoring,
    eachA s.shu.waits fun w => chain [dropWait w, attemptEnds w.cell w.desc false],
    stick FLT.STICKY.LSMISM, count FLT.RECCNT.SHU, recovered p.kind 0 p.since]

/-! Errors of the Bobbin (R344, R345). -/

/-- The offset of the code word that holds a word of a context (R455). -/
def bobbinWord (n word : Nat) : Nat := n * 128 + word / 2 * 8

/-- The code words of memories 2 and 3 that an error of the Bobbin is in: `what` 0 a store word, 1 a lining word. -/
def bobbinWords (what n word : Nat) (both : Bool) : List (Nat × Nat) :=
  if what == 0 || what == 1 then
    (2 + what, bobbinWord n word) :: (if both then [(3 - what, bobbinWord n word)] else [])
  else []

/-- Whether a word and its copy are both in error: the other one is found so too, or has an error already (R345). -/
def State.bothBad (s : State) (what n word : Nat) (both : Bool) : Bool :=
  what < 2 && linedWord word && (both || s.ecc.bad.contains (3 - what, bobbinWord n word))

/-- An uncorrectable error of the Bobbin, counted where it is a word's (R460): `what` 0 a store word, 1 a lining word, 2 a key
table; `both` says that the word and its copy are in error; `frame` is the frame whose lookup or update met it. -/
def bobbinError (what n word : Nat) (both : Bool) (frame : Option (Nat × Nat)) : Act := look fun s =>
  let both := s.bothBad what n word both
  chain [
  onBob fun b => { b with
    repairs := b.repairs ++ [⟨what, n, word, both, s.tb⟩]
    inject := if b.inject == some n && word == 7 then none else b.inject },
  onEcc fun e => { e with bad := e.bad ++ bobbinWords what n word both },
  put FLT.STAT.RESTORING 1,
  match frame with
  | none => skip
  | some (l, b) => withFrame l b fun f =>
    if f.stage ≤ 1 then unseen f
    else chain [(match s.sec.frame with
        | some (.verify x y) | some (.answer x y) => whenA (x == l && y == b) endFrameJob
        | _ => skip),
      discardFrame f],
  whenA (what == 0 || what == 1) (chain [ueFound (2 + what, bobbinWord n word), whenA both (ueFound (3 - what, bobbinWord n word))])]

/-- A scrub engine reads a word (R463); what it finds in the Bobbin store or its lining is repaired (R345, R461). -/
def execScrubRead (m : Fin 7) (off : Nat) (found : Fin 3) (s : State) : Host.Outcome State Fault Refusal :=
  act (look fun s => whenA (s.scrubs m off) (chain [
    if (m.val == 2 || m.val == 3) && found.val == 2 then bobbinError (m - 2) (off / 128) (off % 128 / 4) false none
    else scrubRead m off found,
    scrubPast m off])) s

/-- The Bobbin meets an uncorrectable error (R345). The lining has no copy of some words (R344). -/
def execBobbinUeDetect (what : Fin 3) (n : Fin 4096) (word : Fin 32) (both : Bool) (frame : Option (Fin 128 × Fin 2))
    (s : State) : Host.Outcome State Fault Refusal :=
  act (look fun s => whenA (s.domOn Dom.mac && (what.val != 1 || linedWord word))
    (bobbinError what n word both (frame.map fun f => (f.1.val, f.2.val)))) s

/-- What a repair writes to a word of the store; a word with a copy in the lining gets that copy, which it held. -/
def repairWord (n word : Nat) : Act := look fun s =>
  if 7 ≤ word && word ≤ 13 then
    chain [setCx n Cx.offset 0, setCx n Cx.rate 0, setCx n Cx.adjRef 0, setCx n Cx.lastTb 0, setCx n Cx.lastFine 0,
      setCx n Cx.lastTbHi 0, setCx n Cx.driftv 0, setLastAsn n s.clk.asn, setCx n Cx.lqi 0, setCx n Cx.rssi 0,
      setCx n Cx.noackRun 0]
  else whenA (26 ≤ word) (setWord (ctxAddr n + 4 * word) 0)

/-- A repair ends, and with it the error of the two words of its code word (R345, R353, R455, R460). -/
def repairEnds (r : Repair) : Act := chain [
  onBob fun b => { b with repairs := b.repairs.erase r }, showRestoring,
  onEcc fun e => { e with bad := e.bad.filter fun w => !(bobbinWords r.what r.ctx r.word r.both).contains w },
  if r.both then chain [ctxEnter r.ctx CtxState.free, stick FLT.STICKY.LSFAIL]
  else chain [whenA (r.what == 0) (eachA [r.word / 2 * 2, r.word / 2 * 2 + 1] (repairWord r.ctx)), stick FLT.STICKY.BOBREC, count FLT.RECCNT.BOB,
    recovered (if r.what = 0 then 3 else if r.what = 1 then 5 else 4) (if r.what = 2 then 0 else r.ctx) r.since]]

/-! Injected faults (R356). -/

/-- A write of FLT.INJECT. -/
def writeInject (w : Nat) : Act := look fun s =>
  let kind := bits w 1 0
  if kind == 0 || kind == 3 then setRsvd FLT.INJECT.key 0
  else if s.is FLT.STAT.RESTORING then skip
  else if kind == 1 then whenA (s.is SHU.CTRL.RUN) (onShu fun u => { u with pair := { u.pair with inject := true } })
  else onBob fun b => { b with inject := some (bits w 27 16) }

/-- A write of FLT.INJECT with SHUOUT: one bit of copy B's next output is inverted, and LOCKSTEP_MISMATCH follows. -/
def execInjectShuout (i : Initiator) (s : State) : Host.Outcome State Fault Refusal :=
  act (atRegister i 0 FLT.INJECT true (writeInject 1)) s

/-- A write of FLT.INJECT with BOBCTX: the next read of word 7 of a context reports an uncorrectable error, and
BOBBIN_UE_DETECT follows. -/
def execInjectBobctx (i : Initiator) (n : Fin 4096) (s : State) : Host.Outcome State Fault Refusal :=
  act (atRegister i 0 FLT.INJECT true (writeInject (n * 65536 + 2))) s

end Sys2Proof.Machine
end

