-- ==== Sys2Proof/Machine/Cipher.lean ====
section
/-! DEFINITION. Software jobs of the cipher engine, erases of key slots, and the hash unit (R361 to R365, R369, R372). -/

namespace Sys2Proof.Machine

/-! Software jobs (R362 to R365). -/

/-- The operations of JCFG.OP. -/
def opCcmEnc : Nat := 1
def opCcmDec : Nat := 2
def opCtr : Nat := 3
def opCmacGen : Nat := 4
def opCmacVer : Nat := 5
def opUnwrap : Nat := 6
def opWrap : Nat := 7

namespace SoftJob
def op (j : SoftJob) : Nat := bits j.cfg 31 28
def slot (j : SoftJob) : Nat := bits j.cfg 21 16
def mic (j : SoftJob) : Nat := [0, 4, 8, 16].getD (bits j.cfg 15 14) 0
def alen (j : SoftJob) : Nat := bits j.len 31 16
def mlen (j : SoftJob) : Nat := bits j.len 15 0
def target (j : SoftJob) : Nat := bits j.key 21 16
def flags (j : SoftJob) : Nat := bits j.key 8 0
end SoftJob

/-- The octets a job reads at SRC (R364, R365). -/
def SoftJob.srcLen (j : SoftJob) : Nat :=
  if j.op = opCcmEnc then j.alen + j.mlen
  else if j.op = opCcmDec then j.alen + j.mlen + j.mic
  else if j.op = opWrap then 0 else j.mlen

/-- The octets a job writes at DST, for a target key of a length. -/
def SoftJob.dstLen (j : SoftJob) (key : Nat) : Nat :=
  if j.op = opCcmEnc then j.mlen + j.mic
  else if j.op = opCcmDec ∨ j.op = opCtr then j.mlen
  else if j.op = opWrap then key + 8 else 0

/-- Whether a range lies wholly inside one of SRAM and frame memory. -/
def oneMemory (a n : Nat) : Bool :=
  n == 0 || (Base.sram ≤ a && a + n ≤ 0x20200000) || (Base.fram ≤ a && a + n ≤ 0x30100000)

/-- Whether a tenant reaches a range: its partition, or banks of its SRAMMASK (R300, R363). -/
def State.tenantReaches (s : State) (v a n : Nat) : Bool :=
  v == 0 || n == 0 || (s.inPartition v a && s.inPartition v (a + n - 1))
    || (Base.sram ≤ a && (List.range ((a + n - 1 - Base.sram) / 0x20000 + 1)).all fun b =>
      b < (a - Base.sram) / 0x20000 || bitOf (s.get (ten VIF.TEND0.SRAMMASK v)) b == 1)

/-- The AES blocks of a job (R174, R357). -/
def SoftJob.blocks (j : SoftJob) : Nat :=
  if j.op ≤ opCcmDec then ccmBlocks j.alen j.mlen
  else if j.op = opCtr then ceilDiv j.mlen 16
  else if j.op ≤ opCmacVer then 1 + max 1 (ceilDiv j.mlen 16)
  else 6 * (j.mlen / 8 - 1)

/-- The usage flag that an operation needs (R367). -/
def opFlag (op : Nat) : Nat := if op = opCtr then 2 else if op ≤ opCcmDec then 4 else if op ≤ opCmacVer then 3 else if op = opUnwrap then 5 else 6

/-- Whether the target of a WRAP or UNWRAP job is none that its VI may read, or write (R305, R365). -/
def State.targetGone (s : State) (j : SoftJob) : Bool :=
  let t := j.target
  (j.op == opWrap && !(s.ownsKey j.vi t && s.keyFlag t 7))
    || (j.op == opUnwrap && !(s.get (KEY.KS.STATE.i t) == 0 || (s.ownsKey j.vi t && !s.keyFlag t 8)))

/-- The check of a job at GO; `none` passes; where both statuses apply, PROTECTED is the lower (R30, R290, R363, R365). -/
def State.jobRefused (s : State) (j : SoftJob) : Option Nat :=
  let d := j.dstLen (s.keyOf j.target).length
  let overlaps := j.srcLen != 0 && d != 0 && j.src != j.dst && j.src < j.dst + d && j.dst < j.src + j.srcLen
  let t := j.target
  let known := j.op != 0 && j.op ≤ 7
  if s.is DBG.STAT.ERASING || !s.tenantReaches j.vi j.src j.srcLen || !s.tenantReaches j.vi j.dst d
      || !s.ownsKey j.vi j.slot || (known && !s.keyFlag j.slot (opFlag j.op)) then some Status.prot
  else if s.targetGone j then some Status.prot
  else if j.op == opUnwrap && !s.loaded t && s.get (ten VIF.TENA0.KEYQ j.vi) ≤ s.keyUse j.vi then
    some Status.prot
  else if !known || !oneMemory j.src j.srcLen || !oneMemory j.dst d || overlaps
      || (j.op ≤ opCtr && j.mlen == 0) || (j.op == opCcmDec && 2048 < j.mlen && j.mic != 0)
      || (j.op == opUnwrap && (j.mlen != 24 && j.mlen != 40))
      || (j.op == opUnwrap && 31 < j.flags) then some Status.rsvdOp
  else none

/-- The job that the registers of VI `v` describe. -/
def State.jobOf (s : State) (v : Nat) : SoftJob :=
  let r (f : Fld) : Nat := (s.reg (f.copy v).key).toNat
  { vi := v, cfg := r SEC.JCFG, src := r SEC.JSRC, dst := r SEC.JDST, len := r SEC.JLEN, key := r SEC.JKEY
    iv := (List.range 4).flatMap fun k => leOctets 4 (r (SEC.JIV.i k))
    tag := (List.range 4).flatMap fun k => leOctets 4 (r (SEC.JTAG.i k)) }

/-- A job ends with a status (R362). -/
def jobEnds (v status : Nat) : Act := chain [
  put (SEC.JSTAT.BUSY.copy v) 0, put (SEC.JSTAT.DONE.copy v) 1, put (SEC.JSTAT.STATUS.copy v) status,
  put (SEC.JCTRL.GO.copy v) 0, stickV SEC.STICKY.JDONE v]

/-- The job at the head of the queue starts: it takes its key, or sees that its slot or its target has gone (R362, R368). -/
def jobStarts : Act := look fun s =>
  match s.sec.jobs with
  | [] => skip
  | j :: rest =>
    let good := s.ownsKey j.vi j.slot && s.keyFlag j.slot (opFlag j.op) && !s.targetGone j
    chain [reseed, onSec fun e => { e with jobs := { j with
        secret := s.keyOf j.slot, status := if good then none else some Status.prot } :: rest },
      whenA s.sec.frame.isNone (put SEC.STAT.CLASS 3)]

/-- GO of VI `v` (R362, R363). -/
def jobGo (v : Nat) : Act := look fun s =>
  let j := s.jobOf v
  if s.is (SEC.JSTAT.BUSY.copy v) then stickV SEC.STICKY.JBUSY v
  else match s.jobRefused j with
    | some st => chain [put (SEC.JSTAT.DONE.copy v) 0,
        whenA (j.op == opUnwrap && st == Status.prot && !s.loaded j.target
            && s.get (ten VIF.TENA0.KEYQ v) ≤ s.keyUse v) (stickV VIF.STICKY.QUOTA v),
        jobEnds v st]
    | none => chain [put (SEC.JSTAT.BUSY.copy v) 1, put (SEC.JSTAT.DONE.copy v) 0, put (SEC.JCTRL.GO.copy v) 1,
        onSec fun e => { e with jobs := e.jobs ++ [j] }, whenA s.sec.jobs.isEmpty jobStarts]

/-- A write of JCTRL through view `v`. -/
def writeJctrl (v w : Nat) : Act := whenA (bitOf w 0 == 1) (jobGo v)

/-- JCFG with an operation is written, and then GO (R362). -/
def softCommand (i : Initiator) (v op w : Nat) : Act := chain [
  atRegister i v (SEC.JCFG.copy v) true (plainWrite (SEC.JCFG.copy v).key v (op * 2 ^ 28 + w % 2 ^ 28)),
  atRegister i v (SEC.JCTRL.copy v) true (writeJctrl v 1)]

/-- A CCM_ENC job (R364). -/
def execCcmEnc (i : Initiator) (v : Fin 16) (w : Word) (s : State) : Host.Outcome State Fault Refusal :=
  act (softCommand i v opCcmEnc w.toNat) s

/-- A CCM_DEC job (R364). -/
def execCcmDec (i : Initiator) (v : Fin 16) (w : Word) (s : State) : Host.Outcome State Fault Refusal :=
  act (softCommand i v opCcmDec w.toNat) s

/-- A CTR job (R364). -/
def execCtr (i : Initiator) (v : Fin 16) (w : Word) (s : State) : Host.Outcome State Fault Refusal :=
  act (softCommand i v opCtr w.toNat) s

/-- A CMAC_GEN job (R364). -/
def execCmacGen (i : Initiator) (v : Fin 16) (w : Word) (s : State) : Host.Outcome State Fault Refusal :=
  act (softCommand i v opCmacGen w.toNat) s

/-- A CMAC_VER job (R364). -/
def execCmacVer (i : Initiator) (v : Fin 16) (w : Word) (s : State) : Host.Outcome State Fault Refusal :=
  act (softCommand i v opCmacVer w.toNat) s

/-- An UNWRAP job (R365). -/
def execUnwrap (i : Initiator) (v : Fin 16) (w : Word) (s : State) : Host.Outcome State Fault Refusal :=
  act (softCommand i v opUnwrap w.toNat) s

/-- A WRAP job (R365). -/
def execWrap (i : Initiator) (v : Fin 16) (w : Word) (s : State) : Host.Outcome State Fault Refusal :=
  act (softCommand i v opWrap w.toNat) s

/-- What a job does at its end, and its status (R364, R365). An unwrap whose target another request has taken meanwhile ends in
PROTECTED (R305). -/
def jobResult (j : SoftJob) (k : Nat → Act) : Act := look fun s =>
  let a := s.octets j.src j.alen
  let body := s.octets (j.src + j.alen) j.mlen
  let plain := s.octets j.src j.mlen
  let nonce := j.iv.take 13
  if j.op = opCcmEnc then
    chain [setOctets j.dst (ccmCrypt j.secret nonce body ++ ccmTag j.secret nonce a body j.mic), k Status.ok]
  else if j.op = opCcmDec then
    let clear := ccmCrypt j.secret nonce body
    if ccmTag j.secret nonce a clear j.mic == s.octets (j.src + j.alen + j.mlen) j.mic then
      chain [setOctets j.dst clear, k Status.ok]
    else k Status.micFail
  else if j.op = opCtr then chain [setOctets j.dst (ctrMode j.secret j.iv plain), k Status.ok]
  else if j.op = opCmacGen then
    let t := cmac j.secret plain
    chain [eachA (List.range 4) fun n => put ((SEC.JTAG.TAG.i n).copy j.vi) (leNat ((t.drop (4 * n)).take 4)), k Status.ok]
  else if j.op = opCmacVer then k (if cmac j.secret plain == j.tag then Status.ok else Status.micFail)
  else if j.op = opUnwrap then
    if s.targetGone j || s.sec.changes.any (·.slot == j.target) then k Status.prot
    else match kwUnwrap j.secret plain with
    | some key => chain [keyChange (s.usesSlot true)
        ⟨j.target, keyAttrs j.vi (if j.mlen = 24 then 0 else 1) 1 0 0 j.flags, key, false⟩, k Status.ok]
    | none => k Status.micFail
  else chain [setOctets j.dst (kwWrap j.secret (s.keyOf j.target)), k Status.ok]

/-- The software job that runs ends, while no frame job holds the engine (R174). `fault` is 0 for none, 1 where the two runs of a block disagreed once, 2 where the repeat
disagreed too (R359), 3 where its memory had an uncorrectable error (R461). -/
def softDone (fault : Nat) : Act := look fun s =>
  match s.sec.jobs with
  | [] => skip
  | j :: rest => whenA s.sec.frame.isNone (
    let finish (st : Nat) : Act := chain [
      reseedsOf (if j.status.isSome then 0 else j.blocks), onSec fun e => { e with jobs := rest }, jobEnds j.vi st,
      look fun s => chain [keysSettle (s.usesSlot true), whenA s.sec.frame.isNone (put SEC.STAT.CLASS 0), jobStarts]]
    chain [dualSticky j.vi (if fault < 3 then fault else 0),
      match j.status with
      | some st => finish st
      | none => if 2 ≤ fault then finish Status.eccUncorr else jobResult j finish])

/-- The software job that runs ends (R362). -/
def execSoftwareJobDone (fault : Fin 4) (s : State) : Host.Outcome State Fault Refusal :=
  act (look fun s => whenA (s.domOn Dom.core) (softDone fault)) s

/-! Erases (R369, R600). -/

/-- An erase is refused. -/
def kcmdRefused (v : Nat) : Act := chain [stickV KEY.STICKY.KREFUSED v, put KEY.KSTAT.STATUS Status.prot]

/-- A write of KCMD through view `v`. -/
def writeKcmd (v w : Nat) : Act := look fun s =>
  let n := bits w 5 0
  if bits w 31 28 != 1 then stickV KEY.STICKY.RSVD v
  else if s.is KEY.KSTAT.BUSY || s.is DBG.STAT.ERASING || s.keyFlag n 8 || (v != 0 && s.get (KEY.KS.VI.i n) != v) then
    kcmdRefused v
  else keyChange (s.usesSlot true) ⟨n, 0, [], true⟩

/-- A write of KCMD with ERASE (R369). -/
def execErase (i : Initiator) (v : Fin 16) (n : Fin 64) (s : State) : Host.Outcome State Fault Refusal :=
  act (atRegister i v KEY.KCMD true (writeKcmd v (2 ^ 28 + n))) s

/-! The hash unit (R372). -/

/-- GO of the hash unit, ignored while it is busy; its time in TB units. -/
def hashGo : Act := look fun s =>
  let verify := s.get SEC.HCTRL.OP == 2
  let len := s.get SEC.HLEN.LEN
  whenA (!s.is SEC.HSTAT.BUSY && s.get SEC.HCTRL.OP != 0) (chain [put SEC.HSTAT.BUSY 1, put SEC.HCTRL.GO 1,
    onSec fun e => { e with hash := some ⟨verify, s.get SEC.HSRC.ADDR, len, s.get SEC.HKEY.ADDR, s.get SEC.HSIG.ADDR,
      s.tb + (if verify then 36000 else (len + 9 + 63) / 64)⟩ }])

/-- A write of HCTRL: OP, and GO. -/
def writeHctrl (w : Nat) : Act := chain [plainWrite SEC.HCTRL.key 0 (w % 2 ^ 31), whenA (bitOf w 31 == 1) hashGo]

/-- A write of HCTRL with GO and HASH (R372). -/
def execHash (i : Initiator) (s : State) : Host.Outcome State Fault Refusal :=
  act (atRegister i 0 SEC.HCTRL true (writeHctrl (2 ^ 31 + 1))) s

/-- A write of HCTRL with GO and VERIFY (R372). -/
def execVerify (i : Initiator) (s : State) : Host.Outcome State Fault Refusal :=
  act (atRegister i 0 SEC.HCTRL true (writeHctrl (2 ^ 31 + 2))) s

/-- The octets of HASH0 to HASH7. -/
def State.digest (s : State) : List Nat := (List.range 8).flatMap fun k => leOctets 4 (s.get (SEC.HASH.H.i k))

/-- The digest in HASH0 to HASH7. -/
def setDigest (l : List Nat) : Act := eachA (List.range 8) fun k => put (SEC.HASH.H.i k) (leNat ((l.drop (4 * k)).take 4))

/-- The hash unit ends; `differ` says that the two computations of a verification did not both accept where they should,
`bad` that the memory it read had an uncorrectable error (R372, R461). -/
def hashEnds (differ bad : Bool) : Act := look fun s =>
  match s.sec.hash with
  | none => skip
  | some h =>
    let good := ecdsaVerify (beNat s.digest) (s.octets h.sig 64) (s.octets h.key 64) && !differ
    chain [until_ h.ends, onSec fun e => { e with hash := none }, put SEC.HSTAT.BUSY 0, put SEC.HCTRL.GO 0,
      if bad then put SEC.HSTAT.STATUS Status.eccUncorr
      else if h.verify then put SEC.HSTAT.STATUS (if good then Status.ok else Status.authFail)
      else chain [setDigest (sha256 (s.octets h.src h.len)), put SEC.HSTAT.STATUS Status.ok],
      stick SEC.STICKY.HDONE]

/-- A hash or a verification ends (R372). -/
def execHashUnitDone (differ bad : Bool) (s : State) : Host.Outcome State Fault Refusal :=
  act (hashEnds differ bad) s

end Sys2Proof.Machine
end

