-- ==== Sys2Proof/Machine/Flash.lean ====
section
/-! DEFINITION. The flash controller: descriptor queues, the privileged path, suspension, and the repeat of interrupted
operations (R433 to R447). -/

namespace Sys2Proof.Machine

/-! Geometry (R433). -/

/-- The bank offset at which a sector starts. -/
def sectorLo (k : Nat) : Nat := if k < 8 then 0x2000 * k else 0x10000 * (k - 7)

/-- The bytes of a sector. -/
def sectorSize (k : Nat) : Nat := if k < 8 then 0x2000 else 0x10000

/-- Whether a sector of a bank is protected (R436). -/
def State.protectedSector (s : State) (b k : Nat) : Bool :=
  if k < 64 then s.is ((if b = 0 then FLC.WPA.S else FLC.WPB.S).mapBit k)
  else s.is ((if b = 0 then FLC.WPA2.S else FLC.WPB2.S).bit (k - 64))

/-- Whether a unit is erased (R434). -/
def State.erased (s : State) (a : Nat) : Bool := (s.octets a 16).all (· == 0xFF)

/-- Changes a bank. -/
def onBank (b : Nat) (f : FlashBank → FlashBank) : Act := onFlc fun c => { c with banks := c.banks.modify b f }

/-- Changes the operation of a bank. -/
def onFlashOp (b : Nat) (f : FlashOp → FlashOp) : Act := onBank b fun k => { k with op := k.op.map f }

/-- BSTATE of a bank follows its operation (R452). -/
def showBank (b : Nat) : Act := look fun s =>
  put (if b = 0 then FLC.STAT.BSTATEA else FLC.STAT.BSTATEB) (match (s.bank b).op with
    | none => 0
    | some o => if o.paused then 3 else if o.kind = 1 then 1 else 2)

/-! Ranges (R45). -/

/-- The regions of R42. -/
def regions : List (Nat × Nat) :=
  [(0, 0x10000), (Base.flashA, Base.flashB), (Base.flashB, 0x08800000), (Base.sram, 0x20200000), (Base.bobbin, 0x24080000),
    (Base.mram, 0x28040000), (Base.fram, 0x30100000), (pageBase, 0x40026000), (Base.window, 0x51000000)]

/-- Whether a range lies wholly inside one region. -/
def inOneRegion (a n : Nat) : Bool := regions.any fun r => r.1 ≤ a && a + n ≤ r.2

/-- Whether a range lies wholly inside SRAM or frame memory. -/
def inDataMemory (a n : Nat) : Bool :=
  (Base.sram ≤ a && a + n ≤ 0x20200000) || (Base.fram ≤ a && a + n ≤ 0x30100000)

/-! Queues (R437 to R440). -/

/-- The entries of a queue's ring. -/
def State.flashRing (s : State) (n : Nat) : Nat := 2 ^ s.get (FLC.QCFG.LOG2N.i n)

/-- The address of a queue's head descriptor. -/
def State.flashHead (s : State) (n : Nat) : Nat := s.get (FLC.QBASE.ADDR.i n) * 16 + 16 * s.get (FLC.QHEAD.IDX.i n)

/-- Whether a queue has a submitted descriptor and is enabled. -/
def State.flashWaits (s : State) (n : Nat) : Bool :=
  s.is (FLC.QCFG.EN.i n) && s.get (FLC.QHEAD.IDX.i n) != s.get (FLC.QTAIL.IDX.i n)

/-- A write of QnCFG: the ring is checked as it is enabled, and LOG2N stays while it is (R437). -/
def writeQcfg (n w : Nat) : Act := look fun s =>
  let on := s.is (FLC.QCFG.EN.i n)
  let log := bits w 3 0
  let k := FLC.QCFG.LOG2N.i n
  chain [
    if log == 0 || 8 < log then stick FLC.STICKY.RSVD
    else if on then whenA (log != s.get k) (stick FLC.STICKY.QERR)
    else put k log,
    if bitOf w 31 == 0 then put (FLC.QCFG.EN.i n) 0
    else whenA (!on) (look fun s =>
      if inDataMemory (s.get (FLC.QBASE.ADDR.i n) * 16) (16 * s.flashRing n) then put (FLC.QCFG.EN.i n) 1
      else stick FLC.STICKY.QERR)]

/-- A write of QnBASE: ignored with QERR while the queue is enabled (R437). -/
def writeQbase (n w : Nat) : Act := look fun s =>
  if s.is (FLC.QCFG.EN.i n) then whenA (s.get (FLC.QBASE.ADDR.i n) != w / 16) (stick FLC.STICKY.QERR)
  else put (FLC.QBASE.ADDR.i n) (w / 16)

/-- A write of QnTAIL: a value on the way from TAIL to HEAD − 1, or refused with QERR (R437). -/
def writeQtail (n w : Nat) : Act := look fun s =>
  let size := s.flashRing n
  let tail := s.get (FLC.QTAIL.IDX.i n)
  let new := w % 256
  let room := (s.get (FLC.QHEAD.IDX.i n) + 2 * size - 1 - tail) % size
  if new < size && (new + size - tail) % size ≤ room then put (FLC.QTAIL.IDX.i n) new else stick FLC.STICKY.QERR

/-- A queue descriptor completes: its words, HEAD and QDONE (R437, R438, R440). -/
def flashComplete (n status result : Nat) : Act := look fun s =>
  let a := s.flashHead n
  chain [setWord (a + 12) result, setWordBits a 31 24 status, setWordBits a 23 23 1,
    put (FLC.QHEAD.IDX.i n) ((s.get (FLC.QHEAD.IDX.i n) + 1) % s.flashRing n), stick FLC.STICKY.QDONE]

/-- A privileged command completes (R442). -/
def privComplete (status : Nat) : Act := chain [
  put FLC.PSTAT.BUSY 0, put FLC.PSTAT.DONE 1, put FLC.PSTAT.STATUS status, put FLC.STAT.PBUSY 0, stick FLC.STICKY.PDONE]

/-- The operation of a bank ends with a status and a RESULT. -/
def opEnds (b status result : Nat) : Act := look fun s =>
  match (s.bank b).op with
  | none => skip
  | some o => chain [onBank b fun k => { k with op := none }, showBank b,
      put (if b = 0 then FLC.OPSUSP.A else FLC.OPSUSP.B) 0,
      match o.queue with
      | some n => flashComplete n status result
      | none => privComplete status]

/-! Operations (R434, R440, R446, R578, R590). -/

/-- Words whose layout no rule states: free values. -/
def freeWords (a : Nat) : Nat → Act
  | 0 => skip
  | n + 1 => draw fun x => chain [setWord a x, freeWords (a + 4) n]

/-- The address of an operation record slot (R446). -/
def recordAt (b slot : Nat) : Nat := 0x28036800 + 0x800 * b + 32 * slot

/-- An operation record is written, OPEN (R446). The rule names what it holds, and no layout. -/
def openRecord (b kind a : Nat) (data : List Nat) : Act := look fun s =>
  chain [freeWords (recordAt b (s.bank b).slot) 8,
    onBank b fun k => { k with rec_ := some (kind, a, data), slot := (k.slot + 1) % 64 }]

/-- The operation record is rewritten as CLOSED. -/
def closeRecord (b : Nat) : Act := look fun s =>
  chain [freeWords (recordAt b (((s.bank b).slot + 63) % 64)) 1, onBank b fun k => { k with rec_ := none }]

/-- The start of a program or erase in the SRV bank clears the bits of the blocks it touches (R590). -/
def unserve (off n : Nat) : Act := look fun s =>
  let lo := off / 1024
  let hi := (off + n - 1) / 1024
  let hl := s.wordBits (bankBase (s.get UPD.SRV.BANK) + 16) 15 0
  let touched (k : Nat) : Bool := lo ≤ k && k ≤ hi && s.is (UPD.BMAP.B.mapBit k)
  let st := s.get UPD.SSTAT.STATE
  let cleared := (List.range 4096).filter touched
  whenA (!cleared.isEmpty) (chain [
    eachA cleared fun k => put (UPD.BMAP.B.mapBit k) 0,
    put UPD.SSTAT.CHECKED (s.get UPD.SSTAT.CHECKED - cleared.length),
    put UPD.SSTAT.STATE (if cleared.contains 0 then 0
      else if cleared.any fun k => k ≤ hl then min st 1 else min st 2)])

/-- Whether a bank is the active one (R575). -/
def State.activeBank (s : State) : Nat := s.wordBits 0x2803FC80 0 0

/-- What the start of a program or an erase of `n` bytes at a bank offset does outside the flash (R578, R590). -/
def flashTouched (b off n : Nat) : Act := look fun s => chain [
  whenA (s.activeBank == b) (put UPD.BOOTSTAT.WARM 0),
  whenA (s.get UPD.SRV.BANK == b) (unserve off n)]

/-- The next unit or sector of the operation of a bank starts, or the operation ends (R434, R439, R440). -/
def opStep (b : Nat) : Act := look fun s =>
  match (s.bank b).op with
  | none => skip
  | some o =>
    let off := o.addr - bankBase b
    let k := sectorOf off
    if o.kind = 3 then skip
    else if o.done == o.count then opEnds b Status.ok o.done
    else if o.done != 0 && !o.free && s.protectedSector b k && (o.kind == 2 || off == sectorLo k) then
      chain [stick FLC.STICKY.PROTV, opEnds b Status.prot o.done]
    else if o.kind == 1 && !s.erased o.addr then chain [touch o.addr 16, stick FLC.STICKY.NOTERASED, opEnds b Status.rsvdOp o.done]
    else if o.kind == 1 && o.queue.isSome && s.ue (o.daddr + 16 * o.done) 16 then
      chain [touch (o.daddr + 16 * o.done) 16, opEnds b Status.eccUncorr o.done]
    else
      let data := if o.kind == 1 then (if o.queue.isSome then s.octets (o.daddr + 16 * o.done) 16 else o.data) else []
      chain [whenA (o.kind == 1) (touch o.addr 16), whenA (o.kind == 1 && o.queue.isSome) (touch (o.daddr + 16 * o.done) 16),
        flashTouched b off (if o.kind = 1 then 16 else sectorSize k), openRecord b o.kind o.addr data,
        onFlashOp b fun x => { x with data, since := s.tb, starved := false, asked := false },
        put (if b = 0 then FLC.OPSUSP.A else FLC.OPSUSP.B) 0,
        whenA (o.kind == 2) (chain [wipe o.addr (o.addr + sectorSize k), heal o.addr (sectorSize k)])]

/-- Whether every reserved part of a descriptor is 0 and its fields are in range (R438, R439). -/
def State.flashDescOk (s : State) (a : Nat) : Bool :=
  let w0 := s.word a
  let op := bits w0 19 16
  let n := bits w0 11 0
  let fa := s.word (a + 4)
  let off := fa % 0x400000
  let k := sectorOf off
  1 ≤ op && op ≤ 3 && bits w0 22 20 == 0 && bits w0 15 12 == 0 && n != 0 && (bankAt fa).isSome &&
    (if op = 1 then fa % 16 == 0 && off + 16 * n ≤ 0x400000 && s.word (a + 8) % 4 == 0 && inDataMemory (s.word (a + 8)) (16 * n)
     else off == sectorLo k && n ≤ 71 && k + n ≤ 71 && s.word (a + 8) == 0)

/-- Whether the first to last sector of an operation meets a protected one (R439). -/
def State.meetsProtected (s : State) (b off op n : Nat) : Bool :=
  let lo := sectorOf off
  let hi := if op = 1 then sectorOf (off + 16 * n - 1) else lo + n - 1
  (List.range 71).any fun k => lo ≤ k && k ≤ hi && s.protectedSector b k

/-- An operation starts on an idle bank. -/
def opStart (b : Nat) (o : FlashOp) : Act := look fun s =>
  chain [onBank b fun k => { k with op := some { o with since := s.tb }, served := o.queue.getD k.served }, showBank b, opStep b]

/-- The head descriptor of a queue starts on a bank, or ends with the status of its check; where both statuses apply,
PROTECTED is the lower (R30, R438, R439). -/
def queueStart (b n : Nat) : Act := look fun s =>
  let a := s.flashHead n
  let op := bits (s.word a) 19 16
  let cnt := bits (s.word a) 11 0
  let fa := s.word (a + 4)
  if (op == 1 || op == 2) && cnt != 0 && bankAt fa == some b && s.meetsProtected b (fa - bankBase b) op cnt then
    chain [stick FLC.STICKY.PROTV, flashComplete n Status.prot 0]
  else if !s.flashDescOk a then flashComplete n Status.rsvdOp 0
  else opStart b { queue := some n, kind := op, addr := fa, first := fa, done := 0, count := cnt, daddr := s.word (a + 8)
                   data := [], noSusp := false, free := false }

/-- The privileged command that waits starts on its bank, or ends with the status of its check (R442, R443). -/
def privStart (b : Nat) : Act := look fun s =>
  match s.flc.waits with
  | none => skip
  | some (op, a, data, noSusp, free) =>
    let off := a % 0x400000
    let good := if op = 1 then a % 16 == 0 else off == sectorLo (sectorOf off)
    chain [onFlc fun c => { c with waits := none },
      if !free && bankAt a == some b && s.meetsProtected b off op 1 then chain [stick FLC.STICKY.PROTV, privComplete Status.prot]
      else if !good || (bankAt a).isNone then privComplete Status.rsvdOp
      else opStart b { queue := none, kind := op, addr := a, first := a, done := 0, count := 1, daddr := 0, data, noSusp, free }]

/-- The queue that a bank serves next: round-robin after the one it served last, the first whose head targets it. A head
whose address lies in no bank is taken by either (R441). -/
def State.nextQueue (s : State) (b : Nat) : Option Nat :=
  ((List.range 8).map fun k => ((s.bank b).served + 1 + k) % 8).find? fun n =>
    s.flashWaits n && !(s.flc.banks.any fun x => x.op.any fun o => o.queue == some n)
      && (match bankAt (s.word (s.flashHead n + 4)) with | some x => x == b | none => true)

/-- An idle bank takes a privileged command that waits for it, or the next head descriptor (R441). -/
def flashServe (b : Nat) : Act := look fun s =>
  whenA (s.reachable Dom.nvm && (s.bank b).op.isNone)
    (match s.flc.waits with
     | some w =>
       if (bankAt w.2.1).getD b == b then privStart b
       else (match s.nextQueue b with | some n => queueStart b n | none => skip)
     | none => (match s.nextQueue b with | some n => queueStart b n | none => skip))

/-- The unit or sector in progress has completed, and the operation goes on. -/
def opNext (b : Nat) : Act := look fun s =>
  match (s.bank b).op with
  | none => skip
  | some o =>
    let size := if o.kind = 1 then 16 else sectorSize (sectorOf (o.addr - bankBase b))
    chain [closeRecord b, onFlashOp b fun x => { x with done := x.done + 1, addr := x.addr + size }, opStep b]

/-- The first unit of a range that is not erased (R438). -/
def State.firstWritten (s : State) (a n : Nat) : Nat :=
  match (List.range (n / 16)).find? fun k => !s.erased (a + 16 * k) with
  | some k => a + 16 * k
  | none => 0xFFFFFFFF

/-- A blank check ends (R438, R439). -/
def execFlashBlankDone (b : Fin 2) (s : State) : Host.Outcome State Fault Refusal :=
  act (look fun s => match (s.bank b).op with
    | some o =>
      let k := sectorOf (o.addr - bankBase b)
      let n := ((List.range o.count).map fun j => sectorSize (k + j)).sum
      whenA (o.kind == 3 && !o.paused) (chain [touch o.addr n, opEnds b Status.ok (s.firstWritten o.addr n)])
    | none => skip) s

/-! Suspension (R435, R444, R445). -/

/-- STARVE, once for the operation (R445). -/
def starve (b : Nat) : Act := look fun s =>
  match (s.bank b).op with
  | some o => whenA (!o.starved) (chain [onFlashOp b fun x => { x with starved := true }, stick FLC.STICKY.STARVE])
  | none => skip

/-- Whether SUSPA or SUSPB holds a bank. -/
def State.suspHeld (s : State) (b : Nat) : Bool := s.is (if b = 0 then FLC.CTRL.SUSPA else FLC.CTRL.SUSPB)

/-- A read of a bank that runs an operation: it asks for a suspension, or stalls (R435). -/
def busyRead (b : Nat) : Act := look fun s => chain [
  onBank b fun k => { k with readAt := s.tb },
  whenA (s.is FLC.CTRL.AUTOSUSP) (onFlashOp b fun o => { o with asked := !o.noSusp && !o.paused })]

/-- A read by an initiator of a busy bank (R435). -/
def execFlashReadBusyBank (i : Initiator) (a : Word) (s : State) : Host.Outcome State Fault Refusal :=
  act (look fun s =>
    let a := a.toNat / 4 * 4
    match s.route i a false with
    | .mem p => chain [(match bankAt p with | some b => busyRead b | none => skip), touch p 4, answer i (s.load p 4)]
    | r => chain [refusal i a r, answer i 0]) s

/-- An operation suspends (R444, R445). -/
def execFlashSuspended (b : Fin 2) (s : State) : Host.Outcome State Fault Refusal :=
  act (look fun s => match (s.bank b).op with
    | none => skip
    | some o =>
      let own := if b = 0 then FLC.OPSUSP.A else FLC.OPSUSP.B
      whenA (!o.noSusp && !o.paused && (o.asked || s.suspHeld b)) (chain [
        onBank b fun k => { k with readAt := if o.asked then s.tb else k.readAt }, onFlashOp b fun x => { x with paused := true, asked := false }, showBank b,
        count (if b = 0 then FLC.SUSPCNT.A else FLC.SUSPCNT.B), count own,
        look fun s => whenA (s.get FLC.STARV.SUSPMAX ≤ s.get own) (starve b)])) s

/-- An operation resumes once its bank has had no read for RESUMEDLY µs and its SUSP bit is 0, and re-ramps (R433, R444). -/
def execFlashResume (b : Fin 2) (s : State) : Host.Outcome State Fault Refusal :=
  act (look fun s => match (s.bank b).op with
    | none => skip
    | some o => whenA (o.paused && !s.suspHeld b) (chain [until_ ((s.bank b).readAt + 4 * s.get FLC.CFG.RESUMEDLY),
        look fun s => onBank b fun k => { k with rampTo := s.tb + (if o.kind = 1 then 20 else 200) },
        onFlashOp b fun x => { x with paused := false }, showBank b])) s

/-- An operation has run for TMAX ms (R445). -/
def execFlashStarveTimeout (b : Fin 2) (s : State) : Host.Outcome State Fault Refusal :=
  act (look fun s => match (s.bank b).op with
    | none => skip
    | some o => whenA (!o.starved) (chain [until_ (o.since + s.get FLC.STARV.TMAX * 4000), starve b])) s

/-! The privileged path (R442, R443). -/

/-- The path relocks with UNLKREF. -/
def relock : Act := chain [onFlc fun c => { c with step := 0 }, stick FLC.STICKY.UNLKREF]

/-- A write of any register of the page that is no step of the sequence relocks an open path. -/
def unlockBroken : Act := look fun s => whenA (s.flc.step != 0) relock

/-- The path takes a step. -/
def unlockStep (n : Nat) : Act := look fun s => onFlc fun c => { c with step := n, stepAt := s.tb }

/-- A write of UNLK; `own` says that DN0 in machine mode makes it. -/
def writeUnlk (own : Bool) (w : Nat) : Act := look fun s =>
  let key := w % 65536
  if !own then relock
  else if s.flc.step == 0 && key == 0x7F3A then unlockStep 1
  else if s.flc.step == 1 && key == 0x2C91 then unlockStep 2
  else relock

/-- A privileged command starts to wait for its bank; the path relocks. `rom` says that the code was fetched from boot ROM
(R442, R443). -/
def privIssue (rom : Bool) : Act := look fun s =>
  let data := (List.range 4).flatMap fun k => leOctets 4 (s.get (FLC.DATA.VAL.i k))
  if s.is FLC.PSTAT.BUSY then relock
  else chain [
    onFlc fun c => { c with step := 0, waits := some (s.get FLC.CMD.OP, s.get FLC.ADDR.VAL, data, rom && s.is FLC.CMD.NOSUSP, rom) },
    put FLC.PSTAT.BUSY 1, put FLC.PSTAT.DONE 0, put FLC.STAT.PBUSY 1]

/-- A write of CMD. -/
def writeFlcCmd (own rom : Bool) (w : Nat) : Act := look fun s => chain [
  if own && s.flc.step == 2 then unlockStep 3 else unlockBroken,
  plainWrite FLC.CMD.key 0 (if rom then w else withBit w 8 false)]

/-- A write of ADDR, which starts an ERASE. -/
def writeFlcAddr (own rom : Bool) (w : Nat) : Act := look fun s =>
  chain [put FLC.ADDR.VAL w,
    if own && s.flc.step == 3 then
      if s.get FLC.CMD.OP == 2 then privIssue rom else if s.get FLC.CMD.OP == 1 then unlockStep 4 else relock
    else unlockBroken]

/-- A write of DATAk; that of DATA3 starts a PROGRAM. -/
def writeFlcData (own rom : Bool) (k w : Nat) : Act := look fun s =>
  chain [put (FLC.DATA.VAL.i k) w,
    if own && s.flc.step == 4 + k then (if k == 3 then privIssue rom else unlockStep (5 + k)) else unlockBroken]

/-- More than 10 µs pass between two steps (R442). -/
def execUnlockPauseRelock (s : State) : Host.Outcome State Fault Refusal :=
  act (look fun s => whenA (s.flc.step != 0) (chain [until_ (s.flc.stepAt + 41), relock])) s

/-! Interrupted operations (R447). -/

/-- The operation of an open record of a bank is repeated and its record closed; a record that the scan cannot read is skipped
(R461). -/
def repairBank (b : Nat) : Act := look fun s =>
  match (s.bank b).rec_ with
  | none => skip
  | some (kind, a, data) =>
    let k := sectorOf (a - bankBase b)
    let at_ := recordAt b (((s.bank b).slot + 63) % 64)
    if s.ue at_ 32 then touch at_ 32
    else chain [
      touch at_ 32,
      if kind == 1 then setOctets a data else wipe a (a + sectorSize k),
      whenA (kind != 1) (heal a (sectorSize k)), closeRecord b,
      put FLC.REPLOG.V 1, put FLC.REPLOG.BANK b, put FLC.REPLOG.OP kind, put FLC.REPLOG.OFF (a - bankBase b),
      stick FLC.STICKY.REPAIRED]

/-- At a device reset and a restore of NVM: nothing runs or waits, and interrupted operations are repeated. -/
def flashRestore : Act := chain [
  onFlc fun c => { c with step := 0, waits := none, banks := c.banks.map fun k => { k with op := none } },
  eachA [0, 1] repairBank]

/-! The queue commands. -/

/-- A write of FLC.CTRL with its suspend bits (R444). -/
def execFlashSuspWrite (i : Initiator) (w : Word) (s : State) : Host.Outcome State Fault Refusal :=
  act (atRegister i 0 FLC.CTRL true (chain [unlockBroken, plainWrite FLC.CTRL.key 0 w.toNat])) s

/-- A write of QnCFG (R437). -/
def execQueueEnable (i : Initiator) (n : Fin 8) (w : Word) (s : State) : Host.Outcome State Fault Refusal :=
  act (atRegister i 0 (FLC.QCFG.i n) true (chain [unlockBroken, writeQcfg n w.toNat])) s

/-- A write of QnTAIL (R437). -/
def execQueueSubmit (i : Initiator) (n : Fin 8) (w : Word) (s : State) : Host.Outcome State Fault Refusal :=
  act (atRegister i 0 (FLC.QTAIL.i n) true (chain [unlockBroken, writeQtail n w.toNat])) s

end Sys2Proof.Machine
end

