-- ==== Sys2Proof/Machine/Tenancy.lean ====
section
/-! DEFINITION. The tenancy table, its copies in MRAM, and the closing of a virtual interface (R285 to R294). -/

namespace Sys2Proof.Machine

/-! Use (R288). -/

/-- The lanes that a VI holds: those that name it, and for VI0, which every lane names at reset where LANEUSE is 0, those that
are enabled (R307; notes/assumptions/32.md, DEDUCED). -/
def State.laneUse (s : State) (v : Nat) : Nat :=
  ((List.range 128).filter fun n => s.laneVi n == v && (v != 0 || s.is (DMD.LCFG.EN.i n))).length

/-- The enabled slotframes of a VI. -/
def State.sfsOf (s : State) (v : Nat) : List Nat :=
  (List.range 32).filter fun h => s.sfOn h && s.get (PAT.SFCFG.VI.i h) == v

/-- The cells in a VI's enabled slotframes. -/
def State.cellUse (s : State) (v : Nat) : Nat := ((s.sfsOf v).map fun h => s.get (PAT.SFRANGE.COUNT.i h)).sum

/-! Entries and their copies (R291, R294). -/

/-- The argument octets 1 to 13 that give an entry. -/
def State.entryOctets (s : State) (v : Nat) : List Nat :=
  let g (f : Fld) := s.get (ten f v)
  [g VIF.TENA0.PRIO, g VIF.TENA0.LANEQ, g VIF.TENA0.SFQ] ++ leOctets 2 (g VIF.TENB0.CTXQ) ++ leOctets 2 (g VIF.TENB0.CELLQ)
    ++ [g VIF.TENA0.KEYQ, g VIF.TENC0.FMBASE, g VIF.TENC0.FMSIZE, g VIF.TEND0.TIMMASK] ++ leOctets 2 (g VIF.TEND0.SRAMMASK)

/-- The entry of a VI takes the values of argument octets 1 to 13. -/
def setEntry (v : Nat) (l : List Nat) : Act :=
  let o (k : Nat) := l.getD k 0
  let w (k : Nat) := o k + 256 * o (k + 1)
  let p (f : Fld) (x : Nat) := put (ten f v) x
  chain [p VIF.TENA0.PRIO (o 0), p VIF.TENA0.LANEQ (o 1), p VIF.TENA0.SFQ (o 2), p VIF.TENB0.CTXQ (w 3), p VIF.TENB0.CELLQ (w 5),
    p VIF.TENA0.KEYQ (o 7), p VIF.TENC0.FMBASE (o 8), p VIF.TENC0.FMSIZE (o 9), p VIF.TEND0.TIMMASK (o 10),
    p VIF.TEND0.SRAMMASK (w 11)]

/-- The state of a VI, in its entry and in VIF.STAT (R285). -/
def setViState (v st : Nat) : Act :=
  chain [put (ten VIF.TENA0.STATE v) st, put (VIF.STAT.OPENV.bit v) (if st = 1 then 1 else 0),
    put (VIF.STAT.CLOSINGV.bit v) (if st = 2 then 1 else 0)]

/-- The first copy of a VI's entry in the tenancy area. -/
def tenancyAt (v : Nat) : Nat := 0x2803F800 + 64 * v

/-- The governing copy of a VI's entry (R294). -/
def State.tenancyCopy (s : State) (v : Nat) : Option Nat :=
  s.governing (fun a => s.crcGood a && !s.ue a 32) 16 (tenancyAt v) (tenancyAt v + 32)

/-- The entry and the state of a VI are written over the copy that does not govern. -/
def saveEntry (v : Nat) : Act := look fun s =>
  let g := s.tenancyCopy v
  let a := if g == some (tenancyAt v) then tenancyAt v + 32 else tenancyAt v
  let seq := match g with | some c => s.word (c + 16) + 1 | none => 1
  let body := [s.get (ten VIF.TENA0.STATE v)] ++ s.entryOctets v ++ [0, 0] ++ leOctets 4 seq ++ List.replicate 8 0
  chain [heal a 32, setOctets a (body ++ leOctets 4 (crc32 body))]

/-- The table loads from its governing copies: at device reset and at every restore of MAC (R294). -/
def loadTenancy : Act := chain [
  onVif fun x => { x with ticked := [] },
  eachA (List.range 16) fun v => look fun s =>
    match s.tenancyCopy v with
    | some a => chain [setEntry v (s.octets (a + 1) 13), setViState v (s.byte a % 4)]
    | none =>
      if v = 0 then chain [setEntry 0 [0, 0x80, 0x20, 0, 0x10, 0, 0x20, 0x40, 0, 0x80, 0xFF, 0xFF, 0xFF], setViState 0 1]
      else chain [setEntry v [], setViState v 0, stick VIF.STICKY.TENBAD]]

/-! The tenancy change (R290 to R293). -/

/-- Whether two ranges [a, a + n) and [b, b + m) meet. -/
def overlap (a n b m : Nat) : Bool := n != 0 && m != 0 && a < b + m && b < a + n

/-- Whether an entry meets the partition, the timers or the SRAM banks of another tenant that is not CLOSED (R289). -/
def State.tenantMeets (s : State) (v : Nat) (l : List Nat) : Bool :=
  let o (k : Nat) := l.getD k 0
  (List.range 16).any fun x => x != 0 && x != v && s.get (ten VIF.TENA0.STATE x) != 0 &&
    (overlap (o 8) (o 9) (s.get (ten VIF.TENC0.FMBASE x)) (s.get (ten VIF.TENC0.FMSIZE x))
      || (o 10 &&& s.get (ten VIF.TEND0.TIMMASK x)) != 0
      || ((o 11 + 256 * o 12) &&& s.get (ten VIF.TEND0.SRAMMASK x)) != 0)

/-- Whether an entry's caps lie below the VI's present use (R291). -/
def State.capsBelow (s : State) (v : Nat) (l : List Nat) : Bool :=
  let o (k : Nat) := l.getD k 0
  o 1 < s.laneUse v || o 2 < (s.sfsOf v).length || o 3 + 256 * o 4 < s.ctxUse v || o 5 + 256 * o 6 < s.cellUse v
    || o 7 < s.keyUse v

/-- Whether the fields of an entry are in range (R288). -/
def entryOk (l : List Nat) : Bool :=
  let o (k : Nat) := l.getD k 0
  o 0 < 16 && o 1 ≤ 128 && o 2 ≤ 32 && o 3 + 256 * o 4 ≤ 4096 && o 5 + 256 * o 6 ≤ 8192 && o 7 ≤ 64 && o 8 ≤ 127 && o 9 ≤ 128

/-- A VI opens: every copy of its registers is at its reset value (R292). -/
def openVi (v : Nat) (l : List Nat) : Act := chain [
  setEntry v l, fun _ => [.resetKeys (v * 0x100000000) ((v + 1) * 0x100000000)], setViState v 1, saveEntry v]

/-- A VI enters CLOSING (R293). -/
def closeVi (v : Nat) : Act := chain [setViState v 2, saveEntry v]

/-- A tenancy change on its argument octets: its status, and what it does where that is OK (R291). -/
def State.tenancyChange (s : State) (v : Nat) (arg : List Nat) : Nat × Act :=
  let op := arg.getD 0 0
  let l := (arg.drop 1).take 13
  let st := s.get (ten VIF.TENA0.STATE v)
  if v ≥ 16 || op = 0 || op > 3 || (arg.drop 14).any (· != 0)
      || (op != 3 && !(if op = 2 && v = 0 then l.getD 0 0 < 16 else entryOk l)) then (Status.rsvdOp, skip)
  else if op = 1 && (st != 0 || v = 0) || op != 1 && st != 1 || op = 3 && v = 0 then (Status.prot, skip)
  else if op = 3 then if s.tvi == v then (Status.prot, skip) else (Status.ok, closeVi v)
  else if op = 2 && v = 0 then (Status.ok, chain [put (ten VIF.TENA0.PRIO 0) (l.getD 0 0), saveEntry 0])
  else if l.getD 8 0 + l.getD 9 0 > 128 || s.tenantMeets v l then (Status.prot, skip)
  else if op = 2 && s.capsBelow v l then (Status.prot, skip)
  else if op = 1 then (Status.ok, openVi v l)
  else (Status.ok, chain [setEntry v l, saveEntry v])

/-! Closing (R293). -/

/-- Step 2: the slotframes stop, with their cells of the slot, the queued descriptors complete with PROTECTED, and the
completion FIFO is emptied. -/
def closeTick (v : Nat) : Act := look fun s => chain [
  eachA ((List.range 32).filter fun h => s.get (PAT.SFCFG.VI.i h) == v && s.is (PAT.SFCFG.EN.i h)) fun h => setSfEn h false,
  onShu fun u => { u with next := u.next.map fun x => (x.1, x.2.filter (·.vi != v)) },
  eachA (s.shu.queues.filter (·.vi == v)) fun q => eachA q.descs fun e => completeTx v q.kind q.ctx e Status.prot,
  (match s.sec.frame with
   | some (.secure n) => whenA ((s.shu.cells[n]?.map (·.vi)) == some v) endFrameJob
   | _ => skip),
  eachA [0, 1] fun c => look fun s => chain [
    eachA ((s.txChain c).runs.filter fun r => r.phase == 0 && r.vi == v && r.isAck) fun _ => ackMissed v,
    onChain c fun x => { x with runs := x.runs.filter fun r => r.phase != 0 || r.vi != v || r.isDirect }, paSettle c],
  onShu fun u => { u with
    cells := u.cells.map fun c => if c.vi == v then { c with granted := false } else c
    jobs := u.jobs.filter (·.vi != v)
    queues := u.queues.filter (·.vi != v)
    done := u.done.filter (·.1 != v) },
  onVif fun x => { x with ticked := v :: x.ticked }]

/-- Step 7 for a timer: it stops and takes its reset values. -/
def closeTimer (n : Nat) : Act := chain [
  stopTimer n,
  fun _ => [.resetKeys (pageBase + 0x6000 + 0x100 * (n + 1)) (pageBase + 0x6000 + 0x100 * (n + 2))],
  onTim fun t => { t with acc := setAt t.acc n 0 }]

/-- Steps 3 to 8. -/
def closeRest (v : Nat) : Act := look fun s =>
  let lo := Base.fram + s.get (ten VIF.TENC0.FMBASE v) * 0x2000
  chain [
    eachA ((List.range 128).filter fun n => s.laneVi n == v) fun n => chain [
      put (DMD.LCFG.EN.i n) 0, checkLane n, put (DMD.LCFG.SCHED.i n) 0, put (DMD.LCFG.VI.i n) 0],
    put (FRM.RINGCFG.EN.copy v) 0, cancelRing v,
    eachA (s.ctxHeld.filter fun n => s.cx n Cx.vi == v) fun n => ctxEnter n CtxState.free,
    eachA ((List.range 64).filter (s.ownsKey v)) fun n => look fun s =>
      keyChange (s.usesSlot true) { slot := n, attrs := 0, key := [], kcmd := false },
    eachA ((List.range 8).filter fun t => bitOf (s.get (ten VIF.TEND0.TIMMASK v)) t == 1) closeTimer,
    fun _ => [.resetKeys (v * 0x100000000) ((v + 1) * 0x100000000)], dutyClose v,
    wipe lo (lo + s.get (ten VIF.TENC0.FMSIZE v) * 0x2000), heal lo (s.get (ten VIF.TENC0.FMSIZE v) * 0x2000),
    eachA ((List.range 16).filter fun b => bitOf (s.get (ten VIF.TEND0.SRAMMASK v)) b == 1) fun b => chain [
      wipe (Base.sram + b * 0x20000) (Base.sram + (b + 1) * 0x20000), heal (Base.sram + b * 0x20000) 0x20000],
    setViState v 0, saveEntry v, onVif fun x => { x with ticked := x.ticked.filter (· != v), due := x.due.filter (· != v) },
    stickV VIF.STICKY.CLOSED v]

/-- Step 2 of the closing of a VI, at a slot tick after CLOSE: the one that has come, or the next one while the tick runs. -/
def execViCloseTick (v : Fin 16) (s : State) : Host.Outcome State Fault Refusal :=
  act (look fun s => whenA (s.domOn Dom.mac && s.get (ten VIF.TENA0.STATE v) == 2 && !s.vif.ticked.contains v.val)
    (if s.vif.due.contains v.val then closeTick v
     else whenA (s.is CLK.CTRL.TICKEN) (chain [until_ s.clk.nextTick, closeTick v]))) s

/-- Steps 3 to 8 of the closing of a VI, after its step 2. -/
def execViCloseComplete (v : Fin 16) (s : State) : Host.Outcome State Fault Refusal :=
  act (look fun s => whenA (s.domOn Dom.mac && s.get (ten VIF.TENA0.STATE v) == 2 && s.vif.ticked.contains v.val) (closeRest v)) s

end Sys2Proof.Machine
end

