-- ==== Sys2Proof/Machine/Reopen.lean ====
section
/-! DEFINITION. The 64-bit records of MRAM (R374, R575, R596), the lock state and its marks (R596, R598), the end of a critical
command (R376, R380), and the erasure of a reopen with the flash events that carry it on (R433, R441, R599 to R601). -/

namespace Sys2Proof.Machine

/-! Records. -/

/-- The low word of a record whose high word complements it and that has no uncorrectable error. -/
def State.record (s : State) (a : Nat) : Option Nat :=
  if s.word a + s.word (a + 4) == 0xFFFFFFFF && !s.ue a 8 then some (s.word a) else none

/-- A record is written as one word with its complement. -/
def setRecord (a w : Nat) : Act := chain [heal a 8, setWord a w, setWord (a + 4) (0xFFFFFFFF - w % 2 ^ 32)]

/-! The end of a critical command (R376, R380). -/

/-- The octets of the command block. -/
def State.cmdBlock (s : State) : List Nat := (List.range 16).flatMap fun k => leOctets 4 (s.get (CMD.BLK.W.i k))

/-- A command ends with a status. -/
def commandEnds (status : Nat) : Act := look fun s => chain [
  put CMD.RESULT.V 1, put CMD.RESULT.AUTH (s.cmdBlock.getD 3 0 / 16), put CMD.RESULT.STATUS status,
  put CMD.RESULT.ID (leNat (s.cmdBlock.take 2)),
  eachA (List.range 16) fun k => put (CMD.BLK.W.i k) 0,
  if status == Status.authFail then chain [count CMD.FAILRUN.CNT, stick CMD.STICKY.AUTHFAIL] else put CMD.FAILRUN.CNT 0,
  whenA (status == Status.counterStale) (stick CMD.STICKY.STALE),
  look fun s => put CMD.STAT.SLOW (if s.get CMD.FAILRUN.CNT ≥ 16 then 1 else 0),
  put CMD.STAT.BUSY 0, stick CMD.STICKY.DONE]

/-! The lock (R596, R598). -/

/-- The lock states. -/
def lockOpen : Nat := 0
def lockSealed : Nat := 1
def lockReturn : Nat := 2

/-- The lock state (R596). -/
def State.lockState (s : State) : Nat := s.get DBG.STATE.VAL

/-- The lock record is written. -/
def setLock (st : Nat) : Act := chain [setRecord 0x2803FCA0 st, put DBG.STATE.VAL st]

/-- The port goes to Test-Logic-Reset: halted cores resume and breakpoints are cleared (R594, R595). -/
def portReset : Act := chain [
  onDbg fun d => { d with ir := 1, breaks := [] },
  onDn fun d => { d with cores := d.cores.map fun c => { c with held := false } },
  put DBG.STAT.DBGCONN 0]

/-- The field of mark record `r`, in the order A0, A1, A2, B0, B1, B2. -/
def markFld (r : Nat) : Fld := if r < 3 then DBG.SECMAPA.S.i r else DBG.SECMAPB.S.i (r - 3)

/-- The registers of the page load from the records: at device reset and at a restore of CORE (R596, R598, R602). -/
def loadDebug : Act := look fun s => chain [
  match s.record 0x2803FCA0 with
  | some w => put DBG.STATE.VAL (w % 4)
  | none => chain [put DBG.STATE.VAL lockSealed, stick DBG.STICKY.RECBAD],
  eachA (List.range 6) fun r => match s.record (0x2803FCB0 + 8 * r) with
    | some w => put (markFld r) w
    | none => chain [put (markFld r) (if r % 3 = 2 then 0x7F else 0xFFFFFFFF), stick DBG.STICKY.RECBAD],
  match s.record 0x2803FCA8 with
  | some w => chain [put DBG.PROG.PHASE (w % 16), put DBG.PROG.INDEX (w / 16)]
  | none => chain [put DBG.PROG.PHASE 0, put DBG.PROG.INDEX 0]]

/-! The erasure (R599). -/

/-- The progress record is written. -/
def setProgress (phase ix : Nat) : Act :=
  chain [setRecord 0x2803FCA8 (ix * 16 + phase), put DBG.PROG.PHASE phase, put DBG.PROG.INDEX ix]

/-- The first marked sector from an index on: bank × 128 + sector. -/
def State.nextMarked (s : State) (ix : Nat) : Option Nat :=
  (List.range 256).find? fun k => ix ≤ k && k % 128 < 71 && s.secretSector (k / 128) (k % 128)

/-- The flash address of a sector index. -/
def sectorIx (k : Nat) : Nat := bankBase (k / 128) + sectorLo (k % 128)

/-- Phase KEYS: every slot is zeroised (R366). -/
def eraseKeys : Act := eachA (List.range 64) fun n => look fun s =>
  keyChange (s.usesSlot true) { slot := n, attrs := 0, key := [], kcmd := false }

/-- Phase MRAM: the secret partition from a word on is 0. -/
def eraseMram (ix : Nat) : Act := chain [wipe (Base.mram + 8 * ix) 0x28004000, heal Base.mram 0x4000]

/-- The erasure has ended: the lock record, PHASE NONE, and REOPEN. A resumed erasure whose record was invalid leaves the
lock as it reads (R599, R601). -/
def reopenEnds (unlock : Bool) : Act := look fun s => chain [
  whenA unlock (chain [setLock lockReturn, stick DBG.STICKY.REOPEN]), setProgress 0 0, put DBG.STAT.ERASING 0,
  whenA s.dbg.byCmd (chain [onDbg fun d => { d with byCmd := false }, commandEnds Status.ok])]

/-- The engine asks for the erasure of the sector at INDEX, unless a privileged command is waiting or running (R441). -/
def eraseIssue : Act := look fun s =>
  whenA (s.is DBG.STAT.ERASING && s.dbg.byCmd && s.get DBG.PROG.PHASE == 3 && !s.is FLC.PSTAT.BUSY) (chain [
    onFlc fun c => { c with waits := some (2, sectorIx (s.get DBG.PROG.INDEX), [], true, true) },
    put FLC.PSTAT.BUSY 1, put FLC.PSTAT.DONE 0, put FLC.STAT.PBUSY 1])

/-- Phase FLASH from an index on. -/
def eraseFlash (ix : Nat) : Act := look fun s =>
  match s.nextMarked ix with
  | some k => chain [setProgress 3 k, eraseIssue]
  | none => reopenEnds true

/-- The erasure of a reopen starts (R595, R599, R600). -/
def reopenStart : Act := chain [
  setProgress 1 0, put DBG.STAT.ERASING 1, onDbg fun d => { d with byCmd := true }, portReset, eraseKeys,
  setProgress 2 0, eraseMram 0, eraseFlash 0]

/-- The boot ROM carries an unfinished erasure to its end (R601). -/
def reopenResume : Act := look fun s =>
  let go (phase ix : Nat) (unlock : Bool) : Act := chain [
    put DBG.STAT.ERASING 1, onDbg fun d => { d with byCmd := false }, portReset,
    whenA (phase ≤ 1) eraseKeys, whenA (phase ≤ 2) (eraseMram (if phase = 2 then ix else 0)),
    eachA ((List.range 256).filter fun k => (phase < 3 || ix ≤ k) && k % 128 < 71 && s.secretSector (k / 128) (k % 128)) fun k =>
      chain [flashTouched (k / 128) (sectorLo (k % 128)) (sectorSize (k % 128)),
        wipe (sectorIx k) (sectorIx k + sectorSize (k % 128)), heal (sectorIx k) (sectorSize (k % 128))],
    reopenEnds unlock]
  match s.record 0x2803FCA8 with
  | some w => whenA (1 ≤ w % 16 && w % 16 ≤ 3) (chain [go (w % 16) (w / 16) true, stick DBG.STICKY.RESUMED])
  | none => chain [stick DBG.STICKY.RECBAD, go 1 0 false]

/-! The flash events. -/

/-- An idle bank takes its next work (R441). -/
def execFlashDescriptorStart (b : Fin 2) (s : State) : Host.Outcome State Fault Refusal :=
  act (chain [flashServe b, eraseIssue]) s

/-- A program of one unit ends: the unit holds its data (R434, R435). -/
def execFlashProgramDone (b : Fin 2) (s : State) : Host.Outcome State Fault Refusal :=
  act (look fun s => match (s.bank b).op with
    | some o => whenA (o.kind == 1 && !o.paused) (chain [until_ (s.bank b).rampTo, setOctets o.addr o.data, opNext b, eraseIssue])
    | none => skip) s

/-- An erase of one sector ends (R433); one of a reopen leads to the next marked sector (R599). -/
def execFlashEraseDone (b : Fin 2) (s : State) : Host.Outcome State Fault Refusal :=
  act (look fun s => match (s.bank b).op with
    | some o =>
      let k := sectorOf (o.addr - bankBase b)
      whenA (o.kind == 2 && !o.paused) (chain [until_ (s.bank b).rampTo, wipe o.addr (o.addr + sectorSize k), heal o.addr (sectorSize k), opNext b,
        if s.is DBG.STAT.ERASING && s.dbg.byCmd && o.queue.isNone && o.free && o.addr == sectorIx (s.get DBG.PROG.INDEX)
        then eraseFlash (s.get DBG.PROG.INDEX + 1) else eraseIssue])
    | none => skip) s

end Sys2Proof.Machine
end

