-- ==== Sys2Proof/Machine/CoreState.lean ====
section
/-! DEFINITION. The Denat cores as the other blocks see them (R384, R390), and the writes that only DN0 in machine mode may
make: the privileged flash path (R442, R443) and the debug lock (R597, R598). -/

namespace Sys2Proof.Machine

/-- A core. -/
def State.core (s : State) (c : Nat) : DnCore := s.dn.cores.getD c {}

/-- Changes a core. -/
def onCore (c : Nat) (f : DnCore → DnCore) : Act := onDn fun d => { d with cores := d.cores.modify c f }

/-- STATUS.M of a core (R390). -/
def DnCore.machine (k : DnCore) : Bool := bitOf k.status 31 == 1

/-- Whether an initiator is DN0 in machine mode. -/
def State.dn0Machine (s : State) (i : Initiator) : Bool := i == .core 0 && (s.core 0).machine

/-- Whether an initiator is DN0 running code fetched from boot ROM (R443). -/
def State.fromRom (s : State) (i : Initiator) : Bool := i == .core 0 && (s.core 0).pc < 0x10000

/-! The privileged flash path (R442). -/

/-- A write of UNLK. -/
def execFlashUnlock (i : Initiator) (w : Word) (s : State) : Host.Outcome State Fault Refusal :=
  act (look fun s => atRegister i 0 FLC.UNLK true (writeUnlk (s.dn0Machine i) w.toNat)) s

/-- The write of DATA3 that starts a PROGRAM on an unlocked path. -/
def execPrivilegedProgram (i : Initiator) (w : Word) (s : State) : Host.Outcome State Fault Refusal :=
  act (look fun s => atRegister i 0 (FLC.DATA.i 3) true (writeFlcData (s.dn0Machine i) (s.fromRom i) 3 w.toNat)) s

/-- The write of ADDR that starts an ERASE on an unlocked path. -/
def execPrivilegedErase (i : Initiator) (w : Word) (s : State) : Host.Outcome State Fault Refusal :=
  act (look fun s => atRegister i 0 FLC.ADDR true (writeFlcAddr (s.dn0Machine i) (s.fromRom i) w.toNat)) s

/-! The debug lock. -/

/-- A write of SEAL (R597, R600). -/
def writeSeal (i : Initiator) (w : Nat) : Act := look fun s =>
  if s.dn0Machine i && w % 65536 == 0x5E1D && s.lockState == lockOpen && !s.is DBG.STAT.ERASING then
    chain [setLock lockSealed, portReset]
  else stick DBG.STICKY.DREF

/-- A write of mark register `r`: the marks are written through (R598, R600). -/
def writeSecmap (i : Initiator) (r w : Nat) : Act := look fun s =>
  if s.dn0Machine i && (s.lockState == lockOpen || s.lockState == lockSealed) && !s.is DBG.STAT.ERASING then
    let new := s.get (markFld r) ||| (w % (if r % 3 = 2 then 0x80 else 2 ^ 32))
    chain [put (markFld r) new, setRecord (0x2803FCB0 + 8 * r) new]
  else stick DBG.STICKY.DREF

/-- A write of DBG.SEAL. -/
def execSealWrite (i : Initiator) (w : Word) (s : State) : Host.Outcome State Fault Refusal :=
  act (atRegister i 0 DBG.SEAL true (writeSeal i w.toNat)) s

/-- A write of SECMAPA0–A2 or SECMAPB0–B2. -/
def execSecmapWrite (i : Initiator) (r : Fin 6) (w : Word) (s : State) : Host.Outcome State Fault Refusal :=
  act (atRegister i 0 (markFld r) true (writeSecmap i r w.toNat)) s

end Sys2Proof.Machine
end

