-- ==== Sys2Proof/Machine/Update.lean ====
section
/-! DEFINITION. Images, boot records, the boot sequence, settings migration, and the checks of an image (R571 to R590). -/

namespace Sys2Proof.Machine

/-! Manifests (R571 to R574, R576). -/

/-- The manifest's N and H. -/
def State.imgBlocks (s : State) (a : Nat) : Nat := s.bytes (a + 14) 2
def State.imgHashes (s : State) (a : Nat) : Nat := s.bytes (a + 16) 2

/-- The security version and the settings schema of a manifest. -/
def State.imgSecver (s : State) (a : Nat) : Nat := s.bytes (a + 12) 2
def State.imgSchema (s : State) (a : Nat) : Nat := s.bytes (a + 6) 2

/-- A part of an image: its offset and length. -/
def State.imgPart (s : State) (a type : Nat) : Option (Nat × Nat) :=
  ((List.range (s.byte (a + 18))).find? fun k => s.byte (a + 64 + 16 * k) == type).map fun k =>
    (s.word (a + 68 + 16 * k), s.word (a + 72 + 16 * k))

/-- The types of the parts. -/
def partFw : Nat := 1
def partShucode : Nat := 2
def partChztab : Nat := 3
def partDmdtab : Nat := 4
def partMigrator : Nat := 5

/-- Whether every octet of a range is 0. -/
def State.zeros (s : State) (a n : Nat) : Bool := (s.octets a n).all (· == 0)

/-- Whether the parts meet R572 and R573. -/
def State.partsOk (s : State) (a : Nat) : Bool :=
  let np := s.byte (a + 18)
  let lo := 1024 * (s.imgHashes a + 1)
  let hi := 1024 * s.imgBlocks a
  let types := (List.range np).map fun k => s.byte (a + 64 + 16 * k)
  let times (t : Nat) := (types.filter (· == t)).length
  1 ≤ np && np ≤ 16
    && ((List.range np).all fun k =>
      let e := a + 64 + 16 * k
      1 ≤ s.byte e && s.byte e ≤ 6 && s.zeros (e + 1) 3 && s.word (e + 4) % 1024 == 0 && s.zeros (e + 12) 4
        && lo ≤ s.word (e + 4) && s.word (e + 4) + s.word (e + 8) ≤ hi)
    && s.zeros (a + 64 + 16 * np) (256 - 16 * np)
    && times partFw == 1 && times partShucode == 1 && times partChztab ≤ 1 && times partDmdtab ≤ 1 && times partMigrator ≤ 1
    && (match s.imgPart a partFw with
      | some (o, n) => o ≤ s.word (a + 20) && s.word (a + 20) < o + n
      | none => false)

/-- Whether the fields of a manifest are in range and its reserved octets 0 (R572). -/
def State.headerOk (s : State) (a : Nat) : Bool :=
  let n := s.imgBlocks a
  let h := s.imgHashes a
  s.word a == 0x4D465447 && s.bytes (a + 4) 2 == 1 && 2 ≤ n && n ≤ 4096 && 1 ≤ h && h ≤ 128 && (n - h - 1) ≤ 32 * h
    && s.byte (a + 19) == 0
    && s.word (a + 24) % 16 == 0 && 0x4000 ≤ s.word (a + 24) && s.word (a + 24) + s.word (a + 28) ≤ 0x36800
    && s.word (a + 28) % 16 == 0 && s.zeros (a + 384) 512 && s.zeros (a + 960) 64 && s.partsOk a

/-- The activation record, where it is valid (R575). -/
def State.actRecord (s : State) : Option Nat := s.record 0x2803FC80

/-- The floor for the image of a bank, or of no bank, with its own security version (R576). -/
def State.floorFor (s : State) (bank : Option Nat) (secver : Nat) : Nat :=
  match s.record 0x2803FC88 with
  | some f => f % 65536
  | none => match s.actRecord, bank with
    | some r, some b => if r % 2 = b then secver else 0xFFFF
    | _, _ => 0xFFFF

/-- Whether the manifest at an address, of the image in a bank or of none, is valid (R574). -/
def State.manifestOk (s : State) (a : Nat) (bank : Option Nat) : Bool :=
  s.headerOk a && sha256 (s.octets (a + 320) 64) == s.otp.image
    && ecdsaVerify (beNat (sha256 (s.octets a 896))) (s.octets (a + 896) 64) (s.octets (a + 320) 64)
    && s.floorFor bank (s.imgSecver a) ≤ s.imgSecver a

/-- Whether the hash list of the image at an address has the digest HLROOT. -/
def State.listOk (s : State) (a : Nat) : Bool :=
  sha256 (s.octets (a + 1024) (1024 * s.imgHashes a)) == s.octets (a + 32) 32

/-- Whether the 1 KiB at an address is block `k` of the image at `a`, by its hash list. -/
def State.blockOk (s : State) (a k at_ : Nat) : Bool :=
  sha256 (s.octets at_ 1024) == s.octets (a + 1024 + 32 * (k - s.imgHashes a - 1)) 32

/-- Whether a part passes block by block and without an uncorrectable error (R577 step 5). -/
def State.partOk (s : State) (a : Nat) (p : Nat × Nat) : Bool :=
  !s.ue (a + p.1) p.2 &&
    (List.range (ceilDiv p.2 1024)).all fun j => s.blockOk a (p.1 / 1024 + j) (a + p.1 + 1024 * j)

/-- Whether the image in a bank is whole (R574). -/
def State.imageWhole (s : State) (b : Nat) : Bool :=
  let a := bankBase b
  let n := s.imgBlocks a
  let h := s.imgHashes a
  s.manifestOk a (some b) && s.listOk a && !s.ue a (1024 * n)
    && (List.range n).all fun k => k ≤ h || s.blockOk a k (a + 1024 * k)

/-! Records (R575, R576, R582). -/

/-- RECBAD, where a record is invalid. -/
def noteBad (a : Nat) : Act := look fun s => whenA (s.record a).isNone (stick UPD.STICKY.RECBAD)

/-- Health boots of a record: 0 is read as 3. -/
def healthBoots (r : Nat) : Nat := if bits r 11 8 = 0 then 3 else bits r 11 8

/-- The activation record is written with SEQ + 1. -/
def writeActRecord (bank trial rolled boots hb : Nat) : Act := look fun s =>
  let seq := match s.actRecord with | some r => (bits r 31 16 + 1) % 65536 | none => 1
  let r := seq * 2 ^ 16 + hb * 2 ^ 8 + boots * 2 ^ 4 + rolled * 4 + trial * 2 + bank
  chain [setRecord 0x2803FC80 r, put UPD.HEALTHBOOTS.HB (healthBoots r)]

/-- The journal record: JSTATE 0 IDLE, 1 OPEN, 2 COMMITTED, and JCOUNT. An invalid one reads as IDLE. -/
def State.jrec (s : State) : Nat := (s.record 0x2803FC98).getD 0
def State.jstate (s : State) : Nat := s.jrec % 4
def State.jcount (s : State) : Nat := bits s.jrec 17 2
def setJournal (st cnt : Nat) : Act := setRecord 0x2803FC98 (cnt * 4 + st)

/-- The stored schema; an invalid record reads as 0. -/
def State.storedSchema (s : State) : Nat := (s.record 0x2803FC90).getD 0 % 65536

/-! The journal (R585 to R587). -/

/-- A journalled write of a 64-bit word at an MRAM offset: the entry, the record, the value. -/
def journalWrite (jbase off v : Nat) : Act := look fun s =>
  let e := Base.mram + jbase + 16 * s.jcount
  chain [heal e 16, setBytes e 8 off, setBytes (e + 8) 8 (s.bytes (Base.mram + off) 8), setJournal 1 (s.jcount + 1),
    heal (Base.mram + off) 8, setBytes (Base.mram + off) 8 v]

/-- The manifest address of the image that runs. -/
def State.runningImage (s : State) : Nat := bankBase s.activeBank

/-- JCTRL.GO (R585): a full journal, or a target outside the general-use area, writes nothing and sets JFULL. -/
def journalGo : Act := look fun s =>
  let a := s.runningImage
  let off := s.get UPD.JADDR.OFF * 8
  if s.jcount == s.word (a + 28) / 16 || off < 0x4000 || 0x36800 ≤ off then
    chain [stick UPD.STICKY.JFULL, onUpd fun u => { u with full := true }]
  else journalWrite (s.word (a + 24)) off (s.get UPD.JDLO.D + s.get UPD.JDHI.D * 2 ^ 32)

/-- A write of JADDR, JDLO, JDHI or JCTRL by an initiator (R587). -/
def writeJournalReg (i : Initiator) (effect : Act) : Act := look fun s =>
  if s.jstate == 1 && i == .core 0 then effect else stick UPD.STICKY.HREF

/-- The writes of JADDR, JDLO, JDHI and JCTRL.GO that journal one word. -/
def execJournalWrite (i : Initiator) (off : Fin 0x8000) (v : BitVec 64) (s : State) : Host.Outcome State Fault Refusal :=
  act (chain [
    atRegister i 0 UPD.JADDR true (writeJournalReg i (put UPD.JADDR.OFF off)),
    atRegister i 0 UPD.JDLO true (writeJournalReg i (put UPD.JDLO.D (v.toNat % 2 ^ 32))),
    atRegister i 0 UPD.JDHI true (writeJournalReg i (put UPD.JDHI.D (v.toNat / 2 ^ 32))),
    atRegister i 0 UPD.JCTRL true (writeJournalReg i journalGo)]) s

/-- The entries of the journal are restored in descending order, and the journal is IDLE (R586). -/
def reverseJournal (jbase : Nat) : Act := look fun s => chain [
  eachA ((List.range s.jcount).reverse) fun k => look fun s =>
    let e := Base.mram + jbase + 16 * k
    let off := s.bytes e 8 % 0x40000
    chain [heal (Base.mram + off) 8, setBytes (Base.mram + off) 8 (s.bytes (e + 8) 8)],
  setJournal 0 0]

/-- A COMMITTED journal is reversed; it lies where the manifest of bank `b` places it. -/
def reverseCommitted (b : Nat) : Act := look fun s =>
  whenA (s.jstate == 2) (reverseJournal (s.word (bankBase b + 24)))

/-! Starting (R577 to R583). -/

/-- The image of a bank is served whole (R588). -/
def serveWhole (b : Nat) : Act := look fun s =>
  let n := s.imgBlocks (bankBase b)
  chain [put UPD.SRV.BANK b, eachA (List.range 128) fun k =>
      put (UPD.BMAP.B.i k) (2 ^ min 32 (n - 32 * k) - 1),
    put UPD.SSTAT.STATE 3, put UPD.SSTAT.CHECKED n, put UPD.IMGID.VER (s.word (bankBase b + 8)), put UPD.NBLK.N n]

/-- The parts named by a mask (0 SHUCODE, 1 CHZTAB, 2 DMDTAB) of an image. -/
def State.partsOf (s : State) (b mask : Nat) : List (Nat × (Nat × Nat)) :=
  ((List.range 3).filter fun k => bitOf mask k == 1).filterMap fun k =>
    (s.imgPart (bankBase b) (partShucode + k)).map fun p => (k, p)

/-- The named parts are loaded into their RAMs (R577 step 5). -/
def loadParts (b mask : Nat) : Act := look fun s =>
  eachA (s.partsOf b mask) fun x => onUpd fun u =>
    { u with code := u.code.set x.1 (s.octets (bankBase b + x.2.1) x.2.2) }

/-- The parts of the domains that are on: SHUCODE of MAC, CHZTAB and DMDTAB of RXW. -/
def State.partMask (s : State) : Nat := (if s.domOn Dom.mac then 1 else 0) + (if s.domOn Dom.rxw then 6 else 0)

/-- The device waits in RECOVERY (R580). -/
def recovery : Act := chain [
  put UPD.BOOTSTAT.PATH 2, onUpd fun u => { u with due := none, migrating := none },
  eachA [CPU.IPRIO0.L, CPU.IPRIO1.L, CPU.IPRIO2.L, CPU.IPRIO3.L] fun f => put (f.i 0) 0,
  onCore 0 fun k => { k with asleep := true }, put CPU.STAT.SLEEP0 1]

/-- The lease check (R245). An expired lease gives a copy with INCARN + 1 and the rest of the governing copy. -/
def leaseCheck : Act := look fun s =>
  match s.lease with
  | none => skip
  | some g =>
    let inc := s.bytes (g + 16) 2
    let len := s.word (g + 4)
    if s.is PWR.STAT.RTCLOST || (len != 0 && s.get PWR.RTCSEC.SEC > s.word (g + 8) + len) then
      chain [writeLease len (s.word (g + 8)) ((inc + 1) % 65536),
        whenA (s.domOn Dom.mac) (chain [put BOB.OWNINC.INC ((inc + 1) % 65536), put BOB.CTRL.RJONLY 1,
          onBob fun b => { b with leaseNow := true }])]
    else whenA (s.domOn Dom.mac) (put BOB.OWNINC.INC inc)

/-- Steps 7 and 8: the lease check, and the entry of FW with ( base path — ) (R577). -/
def enterFirmware (b : Nat) (cold : Bool) : Act := look fun s => chain [
  leaseCheck, put UPD.BOOTSTAT.PATH (if cold then 0 else 1),
  put UPD.IMGVER.VER (s.word (bankBase b + 8)),
  onUpd fun u => { u with due := none, migrating := none },
  onCore 0 fun _ => { DnCore.reset 0 with
    pc := bankBase b + s.word (bankBase b + 20), ds := [if cold then 0 else 1, bankBase b] }]

/-- The new SCHEMA record is written through the journal, and the journal is COMMITTED (R585). An image with no migrator and no
journal has the record written alone. -/
def commitSchema (b : Nat) : Act := look fun s =>
  let a := bankBase b
  let v := s.imgSchema a
  chain [
    if s.word (a + 28) == 0 then setRecord 0x2803FC90 v
    else journalWrite (s.word (a + 24)) 0x3FC90 (v + (0xFFFFFFFF - v) * 2 ^ 32),
    look fun s => setJournal 2 s.jcount, put UPD.BOOTSTAT.MIGRATED 1]

/-- Step 6 of a cold start, and the steps after it; a migrator is called and the start goes on when it returns (R585, R586). -/
def settle (b : Nat) (trial : Bool) : Act := look fun s =>
  let a := bankBase b
  chain [
    noteBad 0x2803FC98, noteBad 0x2803FC90,
    whenA (s.jstate == 1) (reverseJournal (s.word (a + 24))),
    whenA (s.jstate == 2 && !trial) (setJournal 0 s.jcount),
    look fun s =>
      if s.jstate == 0 && s.imgSchema a > s.storedSchema then chain [
        setJournal 1 0, put NVS.CTRL.WEN 1,
        match s.imgPart a partMigrator with
        | some (o, _) => chain [
            onUpd fun u => { u with due := none, migrating := some b, full := false },
            onCore 0 fun _ => { DnCore.reset 0 with pc := a + o, ds := [s.storedSchema] }]
        | none => chain [commitSchema b, enterFirmware b true]]
      else chain [whenA (s.imgSchema a < s.storedSchema) (put UPD.BOOTSTAT.SCHOLD 1), enterFirmware b true]]

/-- Steps 4 (from the proof of the image on) to 8 on a bank whose image is known to be whole. -/
def runImage (b : Nat) (cold : Bool) : Act := look fun s => chain [
  put UPD.BOOTSTAT.WARM 1, serveWhole b, loadParts b s.partMask,
  if cold then look fun s => settle b (match s.actRecord with | some r => bitOf r 1 == 1 | none => false)
  else enterFirmware b false]

/-- Whether the parts that step 5 loads pass in a bank. -/
def State.partsPass (s : State) (b : Nat) : Bool := (s.partsOf b s.partMask).all fun x => s.partOk (bankBase b) x.2

/-- The image of the chosen bank runs, else that of the other bank, else RECOVERY (R583). -/
def chooseImage (b : Nat) (cold : Bool) (then_ : Act) : Act := look fun s =>
  if s.imageWhole b && s.partsPass b then chain [then_, runImage b cold]
  else if s.imageWhole (1 - b) && s.partsPass (1 - b) then chain [
    reverseCommitted b,
    look fun s => writeActRecord (1 - b) 0 1 0 (match s.actRecord with | some r => bits r 11 8 | none => 0),
    stick UPD.STICKY.FALLBACK, runImage (1 - b) true]
  else recovery

/-- The trial image of a bank is abandoned for the other bank (R582). -/
def rollBack (b : Nat) : Act := look fun s => chain [
  reverseCommitted b,
  writeActRecord (1 - b) 0 1 0 (match s.actRecord with | some r => bits r 11 8 | none => 0),
  stick UPD.STICKY.ROLLBACK, chooseImage (1 - b) true skip]

/-- Step 4 (R582, R583). -/
def chooseBank (cold : Bool) : Act := look fun s => chain [
  noteBad 0x2803FC80, noteBad 0x2803FC88,
  match s.actRecord with
  | none => look fun s =>
      if s.imageWhole 1 && s.partsPass 1 then chain [
        reverseCommitted 0, writeActRecord 1 0 1 0 0, stick UPD.STICKY.FALLBACK, runImage 1 true]
      else recovery
  | some r =>
    let b := r % 2
    let trial := bitOf r 1 == 1
    chain [put UPD.HEALTHBOOTS.HB (healthBoots r),
      if cold && trial then
        if bits r 7 4 < healthBoots r then chain [writeActRecord b 1 (bitOf r 2) (bits r 7 4 + 1) (bits r 11 8),
          chooseImage b true skip]
        else rollBack b
      else chooseImage b cold (whenA (cold && (match s.record 0x2803FC88 with
          | some f => f % 65536 < s.imgSecver (bankBase b)
          | none => true))
        (setRecord 0x2803FC88 (s.imgSecver (bankBase b))))]]

/-- The boot ROM's steps, on a cold start or a wake (R577). -/
def bootSequence (cold : Bool) : Act := chain [
  reopenResume, loadLock,
  eachA [0, 1] fun k => chain [put (FLC.WPA.S.i k) 0xFFFFFFFF, put (FLC.WPB.S.i k) 0xFFFFFFFF],
  put FLC.WPA2.S 0x7F, put FLC.WPB2.S 0x7F,
  look fun s =>
    if cold && s.is SYS.STAT.BOOT0 then recovery
    else if cold || !s.is UPD.BOOTSTAT.WARM then chooseBank cold
    else if s.partsPass s.activeBank then chain [loadParts s.activeBank s.partMask, enterFirmware s.activeBank false]
    else chooseImage s.activeBank true skip]

/-- The migrator has returned with a status, or raised an exception (R585, R586). -/
def migratorReturns (b : Nat) (status : Option Nat) : Act := look fun s =>
  if status == some 0 && !s.upd.full then chain [commitSchema b, enterFirmware b true]
  else chain [reverseJournal (s.word (bankBase b + 24)), onUpd fun u => { u with migrating := none }, rollBack b]

/-- The boot ROM runs: the boot that is due after a device reset or a restore of CORE, or its continuation after the
migrator has returned. It waits while MAC or RXW is being restored (R577). -/
def execBootSequence (migrator : Option Nat) (s : State) : Host.Outcome State Fault Refusal :=
  act (look fun s =>
    whenA (s.domOn Dom.core && !s.pwr.restoring.contains Dom.mac && !s.pwr.restoring.contains Dom.rxw)
      (match s.upd.migrating, s.upd.due with
       | some b, _ => migratorReturns b migrator
       | none, some cold => bootSequence cold
       | none, none => skip)) s

/-! Confirmation (R584). -/

/-- A write of HCONF by an initiator (R584). -/
def writeHconf (i : Initiator) (w : Nat) : Act := look fun s =>
  match s.actRecord with
  | none => stick UPD.STICKY.HREF
  | some r =>
    if s.dn0Machine i && w % 65536 == 0x4846 && bitOf r 1 == 1 then
      let b := r % 2
      let sv := s.imgSecver (bankBase b)
      chain [writeActRecord b 0 (bitOf r 2) 0 (bits r 11 8), setJournal 0 s.jcount,
        whenA (match s.record 0x2803FC88 with | some f => f % 65536 < sv | none => true) (setRecord 0x2803FC88 sv),
        stick UPD.STICKY.CONFIRMED]
    else stick UPD.STICKY.HREF

/-- A write of HCONF. -/
def execHconfWrite (i : Initiator) (w : Word) (s : State) : Host.Outcome State Fault Refusal :=
  act (atRegister i 0 UPD.HCONF true (writeHconf i w.toNat)) s

/-! The served image and its checks (R588, R589). -/

/-- A write of SRV (R588); naming the bank held is no write (R626). -/
def writeSrv (w : Nat) : Act := look fun s => whenA (s.get UPD.SRV.BANK != w % 2) (chain [
  put UPD.SRV.BANK (w % 2), eachA (List.range 128) fun k => put (UPD.BMAP.B.i k) 0,
  put UPD.SSTAT.CHECKED 0, put UPD.SSTAT.STATE 0])

/-- A write of SRV. -/
def execSrvWrite (i : Initiator) (w : Word) (s : State) : Host.Outcome State Fault Refusal :=
  act (atRegister i 0 UPD.SRV true (writeSrv w.toNat)) s

/-- A write of CHKCTRL: with GO a check starts, unless one runs (R589). -/
def writeChkctrl (v w : Nat) : Act := look fun s =>
  whenA (!s.is UPD.CHKSTAT.BUSY) (chain [
    plainWrite UPD.CHKCTRL.key v (w % 2 ^ 31),
    whenA (bitOf w 31 == 1 && bits w 29 28 != 0) (chain [put UPD.CHKCTRL.GO 1, put UPD.CHKSTAT.BUSY 1])])

/-- A check is set up and started. -/
def startCheck (i : Initiator) (op : Nat) (src : Option Nat) (blk : Nat) : Act := chain [
  match src with
  | some a => atRegister i 0 UPD.CHKSRC true (plainWrite UPD.CHKSRC.key 0 a)
  | none => skip,
  atRegister i 0 UPD.CHKCTRL true (writeChkctrl 0 (2 ^ 31 + op * 2 ^ 28 + blk))]

/-- A MANIFEST check starts. -/
def execManifest (i : Initiator) (src : Word) (s : State) : Host.Outcome State Fault Refusal :=
  act (startCheck i 1 (some src.toNat) 0) s

/-- An HLIST check starts. -/
def execHlist (i : Initiator) (s : State) : Host.Outcome State Fault Refusal := act (startCheck i 2 none 0) s

/-- A BLOCK check starts. -/
def execBlock (i : Initiator) (src : Word) (k : Fin 4096) (s : State) : Host.Outcome State Fault Refusal :=
  act (startCheck i 3 (some src.toNat) k) s

/-- Blocks of the SRV image are checked, from `lo` to below `hi`. -/
def markBlocks (lo hi : Nat) : Act := look fun s =>
  let new := (List.range 4096).filter fun k => lo ≤ k && k < hi && !s.is (UPD.BMAP.B.mapBit k)
  chain [eachA new fun k => put (UPD.BMAP.B.mapBit k) 1, put UPD.SSTAT.CHECKED (s.get UPD.SSTAT.CHECKED + new.length)]

/-- A check ends: its status, and what a pass in place sets (R589). -/
def checkEnds : Act := look fun s =>
  let bank := s.get UPD.SRV.BANK
  let base := bankBase bank
  let src := s.get UPD.CHKSRC.ADDR * 1024
  let k := s.get UPD.CHKCTRL.CBLK
  let st := s.get UPD.SSTAT.STATE
  let fin (status : Nat) (pass : Act) : Act := chain [
    whenA (status == Status.ok) pass, put UPD.CHKCTRL.GO 0, put UPD.CHKSTAT.BUSY 0, put UPD.CHKSTAT.STATUS status]
  let judge (a n : Nat) (good : Bool) (pass : Act) : Act :=
    if s.ue a n then chain [touch a n, fin Status.eccUncorr skip]
    else fin (if good then Status.ok else Status.authFail) pass
  match s.get UPD.CHKCTRL.OP with
  | 1 => chain [noteBad 0x2803FC88,
      judge src 1024 (s.manifestOk src (if src = base then some bank else none)) (whenA (src == base) (chain [
        markBlocks 0 1, put UPD.IMGID.VER (s.word (src + 8)), put UPD.NBLK.N (s.imgBlocks src), put UPD.SSTAT.STATE 1]))]
  | 2 =>
    if st != 1 then fin Status.rsvdOp skip
    else judge (base + 1024) (1024 * s.imgHashes base) (s.listOk base) (chain [
      markBlocks 1 (s.imgHashes base + 1), put UPD.SSTAT.STATE 2])
  | _ =>
    if st != 2 then fin Status.rsvdOp skip
    else judge src 1024 (s.imgHashes base < k && k < s.get UPD.NBLK.N && s.blockOk base k src) (whenA (src == base + 1024 * k)
      (chain [markBlocks k (k + 1),
        look fun s => whenA (s.get UPD.SSTAT.CHECKED == s.get UPD.NBLK.N) (put UPD.SSTAT.STATE 3)]))

/-- A check of the SRV image ends. -/
def execImageCheckDone (s : State) : Host.Outcome State Fault Refusal :=
  act (look fun s => whenA (s.is UPD.CHKSTAT.BUSY && s.domOn Dom.core) checkEnds) s

/-! Activation (R592). -/

/-- ACTIVATE on its argument octets at step 6: its status, and what it does where that is OK. -/
def State.activation (s : State) (arg : List Nat) : Nat × Act :=
  let o (k : Nat) := arg.getD k 0
  let trial := match s.actRecord with | some r => bitOf r 1 == 1 | none => false
  if o 0 ≥ 2 || o 1 ≥ 16 || o 2 ≥ 2 || (arg.drop 7).any (· != 0) || o 0 == s.activeBank then (Status.rsvdOp, skip)
  else if s.get UPD.SRV.BANK != o 0 || s.get UPD.SSTAT.STATE != 3 || s.get UPD.IMGID.VER != leNat ((arg.drop 3).take 4)
      || s.jstate != 0 || trial then (Status.prot, skip)
  else (Status.ok, chain [writeActRecord (o 0) 1 0 0 (o 1),
    whenA (o 2 == 1) (look fun s => onUpd fun u => { u with resetAt := some (s.tb + 4000) })])

end Sys2Proof.Machine
end

