-- ==== Sys2Proof/Machine/Command.lean ====
section
/-! DEFINITION. The critical commands and their authorities (R373 to R380), with the actions of R260, R291, R378, R379, R499,
R512, R592 and R599. -/

namespace Sys2Proof.Machine

/-! Authorities (R373, R374). -/

/-- The LOADED slot that holds an authority's key. -/
def State.authSlot (s : State) (a : Nat) : Option Nat :=
  (List.range 64).find? fun n => s.loaded n && s.keyFlag n 8 && s.get (KEY.KS.AUTHNUM.i n) == a

/-- An authority's key; that of authority 0 is in OTP. -/
def State.authKey (s : State) (a : Nat) : Option (List Nat) :=
  if a = 0 then some s.otp.auth0 else (s.authSlot a).map s.keyOf

/-- The commands that an authority may issue, bit c − 1 for command c. -/
def State.authPerm (s : State) (a : Nat) : Nat :=
  if a = 0 then 0xFF else match s.authSlot a with | some n => s.get (KEY.KS.PERM.i n) | none => 0

/-- The address of an authority's counter record. -/
def counterAt (a : Nat) : Nat := 0x2803FC00 + 8 * a

/-- An authority's counter, where its record is valid. -/
def State.authCounter (s : State) (a : Nat) : Option Nat := s.record (counterAt a)

/-! The block (R375). -/

/-- The fields of a command block. -/
def blkId (b : List Nat) : Nat := leNat (b.take 2)
def blkVi (b : List Nat) : Nat := b.getD 2 0
def blkAuth (b : List Nat) : Nat := b.getD 3 0 / 16
def blkCtr (b : List Nat) : Nat := leNat ((b.drop 4).take 4)
def blkArg (b : List Nat) : List Nat := (b.drop 8).take 48
def blkTag (b : List Nat) : List Nat := (b.drop 56).take 8

/-- The identifiers of R377. -/
def idKeyload : Nat := 1
def idTenancy : Nat := 2
def idDbgreopen : Nat := 3
def idActivate : Nat := 4
def idLampovr : Nat := 5
def idRefovr : Nat := 6
def idRegtight : Nat := 7
def idCtrreset : Nat := 8

/-- Step 1 (R376): whether the identifier, the flags and the target VI are permitted. -/
def blkOk (b : List Nat) : Bool :=
  1 ≤ blkId b && blkId b ≤ 8 && b.getD 3 0 % 16 == 0
    && (if blkId b = idKeyload || blkId b = idTenancy then blkVi b < 16 else blkVi b == 0)

/-! The actions of step 6. -/

/-- KEYLOAD (R378): its status, and the change of the slot where that is OK. `dual` is 2 where the repeated unwrap disagrees
(R359). -/
def State.keyLoading (s : State) (vi auth dual : Nat) (arg : List Nat) : Nat × Act :=
  let o (k : Nat) := arg.getD k 0
  let slot := o 0
  let size := o 1
  let flags := o 2 + 256 * o 3
  let kek := o 4
  let num := o 5
  let perm := o 6
  let isAuth := bitOf flags 8 == 1
  let wrapped := (arg.drop 8).take (if size = 0 then 24 else 40)
  if slot > 63 || kek > 0x40 || size > 1 || flags ≥ 512 || num ≥ 16 || o 7 != 0 || (size == 0 && (arg.drop 32).any (· != 0))
      || (isAuth && flags != 256) || (!isAuth && (num != 0 || perm != 0)) then (Status.rsvdOp, skip)
  else if !s.viOpen vi || (isAuth && vi != 0) then (Status.prot, skip)
  else if isAuth && (num ≤ auth || (perm &&& (0xFF - s.authPerm auth)) != 0
      || (match s.authSlot num with | some n => n != slot | none => false)) then (Status.prot, skip)
  else if kek != 0 && (!s.loaded (kek - 1) || !s.keyFlag (kek - 1) 5
      || (s.get (KEY.KS.VI.i (kek - 1)) != 0 && s.get (KEY.KS.VI.i (kek - 1)) != vi)) then (Status.prot, skip)
  else if s.loaded slot && (s.get (KEY.KS.VI.i slot) != vi || s.get (KEY.KS.AUTHNUM.i slot) != num) then (Status.prot, skip)
  else if !s.loaded slot && s.get (ten VIF.TENA0.KEYQ vi) ≤ s.keyUse vi then
    (Status.prot, stickV VIF.STICKY.QUOTA vi)
  else if dual = 2 then (Status.eccUncorr, skip)
  else match kwUnwrap (if kek = 0 then s.otp.root else s.keyOf (kek - 1)) wrapped with
    | none => (Status.authFail, skip)
    | some key => (Status.ok,
        keyChange (s.usesSlot true) ⟨slot, keyAttrs vi size 0 perm num flags, key, false⟩)

/-- CTRRESET (R379). -/
def counterReset (auth : Nat) (arg : List Nat) : Nat × Act :=
  let b := arg.getD 0 0
  if b ≥ 16 || (arg.drop 5).any (· != 0) then (Status.rsvdOp, skip)
  else if b ≤ auth then (Status.prot, skip)
  else (Status.ok, setRecord (counterAt b) (leNat ((arg.drop 1).take 4)))

/-- LAMPOVR (R499); where both refusals hold, PROTECTED is the lower code (R30). -/
def State.lampOverride (s : State) (arg : List Nat) : Nat × Act :=
  let o (k : Nat) := arg.getD k 0
  let duty := o 2 + 256 * o 3
  let time := leNat ((arg.drop 5).take 4)
  let rly (r : Nat) := o 9 / 16 ^ r % 4
  let level := o 1 == 2
  if s.get SYS.ROLE.VAL == 0 || !s.reachable Dom.lamp then (Status.prot, skip)
  else if o 0 ≥ 16 || o 1 > 2 || (if level then !(duty == 0 || (5 ≤ duty && duty ≤ 10000)) else duty != 0)
      || (if level then !(10 ≤ o 4 && o 4 ≤ 100) else o 4 != 0)
      || (o 9 &&& 0xCC) != 0 || rly 0 == 3 || rly 1 == 3 || (arg.drop 10).any (· != 0) then (Status.rsvdOp, skip)
  else (Status.ok, chain [
    eachA ((List.range 4).filter fun n => bitOf (o 0) n == 1) fun n =>
      if o 1 = 0 then overrideEnd n
      else overrideStart n ⟨level, duty, o 4, if time = 0 then none else some (s.tb + time * 4000000)⟩,
    eachA ((List.range 2).filter fun r => rly r != 0) fun r => relayRequest r (rly r),
    stick LMP.STICKY.OVR])

/-- REFOVR (R512); where both refusals hold, PROTECTED is the lower code (R30). -/
def State.refOverride (s : State) (arg : List Nat) : Nat × Act :=
  let op := arg.getD 0 0
  let ref := arg.getD 1 0
  if !s.domOn Dom.mtr then (Status.prot, skip)
  else if op = 0 || op > 2 || (op = 1 && ref > 1) || (arg.drop 2).any (· != 0) then (Status.rsvdOp, skip)
  else (Status.ok, if op = 1 then refSelect ref else refAuto)

/-- REGTIGHT (R260). -/
def State.regionTighten (s : State) (arg : List Nat) : Nat × Act :=
  match tightening s arg with
  | (st, some r) => (st, burnRecord r)
  | (st, none) => (st, skip)

/-- DBGREOPEN (R599), PROTECTED before RSVD_OP (R30): `none` where the erasure starts and the command stays BUSY. -/
def State.reopenCheck (s : State) (arg : List Nat) : Option Nat :=
  if leNat (arg.take 8) != s.get SYS.UIDLO.UID + s.get SYS.UIDHI.UID * 2 ^ 32 || s.lockState != lockSealed then some Status.prot
  else if (arg.drop 8).any (· != 0) then some Status.rsvdOp
  else none

/-- Step 6 of a block. -/
def stepSix (b : List Nat) (dual : Nat) : Act := look fun s =>
  let fin (r : Nat × Act) : Act := chain [r.2, commandEnds r.1]
  let arg := blkArg b
  match blkId b with
  | 1 => chain [dualSticky 0 dual, fin (s.keyLoading (blkVi b) (blkAuth b) dual arg)]
  | 2 => fin (s.tenancyChange (blkVi b) arg)
  | 3 => (match s.reopenCheck arg with
    | some st => commandEnds st
    | none => reopenStart)
  | 4 => fin (s.activation arg)
  | 5 => fin (s.lampOverride arg)
  | 6 => fin (s.refOverride arg)
  | 7 => fin (s.regionTighten arg)
  | _ => fin (counterReset (blkAuth b) arg)

/-- Steps 2 to 6 (R376). `dual` tells of the two runs of the tag's blocks (1 and 2 as R359), and of KEYLOAD's unwrap (3, 4). -/
def stepTwo (dual : Nat) : Act := look fun s =>
  let b := s.cmdBlock
  let a := blkAuth b
  chain [dualSticky 0 (if dual < 3 then dual else 0),
    if dual = 2 then commandEnds Status.eccUncorr
    else match s.authKey a with
      | none => commandEnds Status.authFail
      | some k =>
        if (cmac k (b.take 56)).take 8 != blkTag b then commandEnds Status.authFail
        else if bitOf (s.authPerm a) (blkId b - 1) == 0 then commandEnds Status.prot
        else match s.authCounter a with
          | none => chain [stick CMD.STICKY.CTRBAD, commandEnds Status.counterStale]
          | some c =>
            if blkCtr b ≤ c then commandEnds Status.counterStale
            else chain [setRecord (counterAt a) (blkCtr b), stepSix b (if dual < 3 then 0 else dual - 2)]]

/-- A write of BLKk (R380). -/
def writeBlk (k w : Nat) : Act := look fun s =>
  if s.is CMD.STAT.BUSY then stick CMD.STICKY.CMDBUSY else put (CMD.BLK.W.i k) w

/-- A write of GO (R375, R376, R380). -/
def writeGo (dual w : Nat) : Act := look fun s =>
  whenA (bitOf w 0 == 1)
    (if s.is CMD.STAT.BUSY then stick CMD.STICKY.CMDBUSY
     else chain [put CMD.STAT.BUSY 1,
      if !blkOk s.cmdBlock then commandEnds Status.rsvdOp
      else if s.is CMD.STAT.SLOW then onCmd fun c => { c with slowTo := s.tb + 400000 }
      else stepTwo dual])

/-- A slowed command starts its step 2 (R380). -/
def execCommandSlowStart (dual : Fin 5) (s : State) : Host.Outcome State Fault Refusal :=
  act (look fun s => whenA (s.is CMD.STAT.BUSY && s.cmd.slowTo != 0)
    (chain [until_ s.cmd.slowTo, onCmd fun c => { c with slowTo := 0 }, stepTwo dual])) s

/-! The command rows: the block is written and then GO. The identifier is the row's, and the octets after it the sender's. -/

/-- A block of an identifier, with the octets from octet 2 on. -/
def blockOf (id : Nat) (l : List Byte) : List Nat := leOctets 2 id ++ (List.range 62).map fun k => (l.getD k 0).toNat

/-- An initiator writes a block and GO. -/
def issue (i : Initiator) (b : List Nat) (dual : Nat) : Act := chain [
  eachA (List.range 16) fun k => atRegister i 0 (CMD.BLK.i k) true (writeBlk k (leNat ((b.drop (4 * k)).take 4))),
  atRegister i 0 CMD.GO true (writeGo dual 1)]

/-- KEYLOAD (R378). -/
def execKeyload (i : Initiator) (blk : List Byte) (dual : Fin 5) (s : State) : Host.Outcome State Fault Refusal :=
  act (issue i (blockOf idKeyload blk) dual) s

/-- TENANCY with OP OPEN (R291, R292). -/
def execTenancyOpen (i : Initiator) (blk : List Byte) (dual : Fin 3) (s : State) : Host.Outcome State Fault Refusal :=
  act (issue i ((blockOf idTenancy blk).set 8 1) dual) s

/-- TENANCY with OP MODIFY (R291). -/
def execTenancyModify (i : Initiator) (blk : List Byte) (dual : Fin 3) (s : State) : Host.Outcome State Fault Refusal :=
  act (issue i ((blockOf idTenancy blk).set 8 2) dual) s

/-- TENANCY with OP CLOSE (R291, R293). -/
def execTenancyClose (i : Initiator) (blk : List Byte) (dual : Fin 3) (s : State) : Host.Outcome State Fault Refusal :=
  act (issue i ((blockOf idTenancy blk).set 8 3) dual) s

/-- DBGREOPEN (R599). -/
def execDbgreopen (i : Initiator) (blk : List Byte) (dual : Fin 3) (s : State) : Host.Outcome State Fault Refusal :=
  act (issue i (blockOf idDbgreopen blk) dual) s

/-- ACTIVATE (R592). -/
def execActivate (i : Initiator) (blk : List Byte) (dual : Fin 3) (s : State) : Host.Outcome State Fault Refusal :=
  act (issue i (blockOf idActivate blk) dual) s

/-- LAMPOVR with MODE RELEASE (R499). -/
def execLampovrRelease (i : Initiator) (blk : List Byte) (dual : Fin 3) (s : State) : Host.Outcome State Fault Refusal :=
  act (issue i ((blockOf idLampovr blk).set 9 0) dual) s

/-- LAMPOVR with MODE OFF (R499). -/
def execLampovrOff (i : Initiator) (blk : List Byte) (dual : Fin 3) (s : State) : Host.Outcome State Fault Refusal :=
  act (issue i ((blockOf idLampovr blk).set 9 1) dual) s

/-- LAMPOVR with MODE LEVEL (R499). -/
def execLampovrLevel (i : Initiator) (blk : List Byte) (dual : Fin 3) (s : State) : Host.Outcome State Fault Refusal :=
  act (issue i ((blockOf idLampovr blk).set 9 2) dual) s

/-- REFOVR with OP SELECT (R512). -/
def execRefovrSelect (i : Initiator) (blk : List Byte) (dual : Fin 3) (s : State) : Host.Outcome State Fault Refusal :=
  act (issue i ((blockOf idRefovr blk).set 8 1) dual) s

/-- REFOVR with OP AUTO (R512). -/
def execRefovrAuto (i : Initiator) (blk : List Byte) (dual : Fin 3) (s : State) : Host.Outcome State Fault Refusal :=
  act (issue i ((blockOf idRefovr blk).set 8 2) dual) s

/-- REGTIGHT (R260). -/
def execRegtight (i : Initiator) (blk : List Byte) (dual : Fin 3) (s : State) : Host.Outcome State Fault Refusal :=
  act (issue i (blockOf idRegtight blk) dual) s

/-- CTRRESET (R379). -/
def execCtrreset (i : Initiator) (blk : List Byte) (dual : Fin 3) (s : State) : Host.Outcome State Fault Refusal :=
  act (issue i (blockOf idCtrreset blk) dual) s

/-- A block with any other identifier (R376, R377). -/
def execCommandReservedId (i : Initiator) (id : BitVec 16) (blk : List Byte) (s : State) : Host.Outcome State Fault Refusal :=
  act (issue i (blockOf (if 1 ≤ id.toNat ∧ id.toNat ≤ 8 then 0 else id.toNat) blk) 0) s

end Sys2Proof.Machine
end

