-- ==== Sys2Proof/Machine/Live.lean ====
section
/-! DEFINITION. What a register reads as: the stored word, the live status of its block, and what the view of a virtual
interface shows (R11, R14, R295 to R299, R540). -/

namespace Sys2Proof.Machine

/-! Requests (R19, R299, R398). -/

/-- Whether the page with a code raises its request (R19). -/
def State.pageRequest (s : State) (code : Nat) : Bool :=
  let b := pageBase + code * 0x1000
  s.domOn (match Page.ofCode code with | some p => p.domain | none => 0)
    && (s.reg (b + 0x10)).toNat &&& (s.reg (b + 0x14)).toNat != 0

/-- Whether the request of tenant VI `v` is raised: the OR over its views (R299). -/
def State.tenantRequest (s : State) (v : Nat) : Bool :=
  s.domOn Dom.mac && [Page.VIF, .TIM, .SEC, .KEY, .DMD, .TXP, .FRM, .SHU, .PAT, .BOB, .DUT].any fun p =>
    let b := pageBase + p.code * 0x1000 + v * 0x100000000
    s.domOn p.domain && (s.reg (b + 0x10)).toNat &&& (s.reg (b + 0x14)).toNat != 0

/-- Where the request of VI `v` goes: 0 DN0, 1 DN1, 2 HIRQ (R307). -/
def State.tenantTo (s : State) (v : Nat) : Nat := bits (s.reg VIF.IRQMAP.key).toNat (2 * v + 1) (2 * v)

/-- The interrupt sources pending at a core, as a number with one bit for each of the 64 (R398). -/
def State.pendingAt (s : State) (c : Nat) : Nat :=
  (((List.range 38).filter s.pageRequest).map (2 ^ ·)).sum
    + (if s.is (CPU.DBSTAT.DB.bit c) then 2 ^ 38 else 0)
    + (((List.range 16).filter fun v => v != 0 && s.tenantRequest v && s.tenantTo v == c).map fun v => 2 ^ (48 + v)).sum

/-- The kinds of request that hold HIRQ: page, tenant, doorbell (R568, R570). -/
def State.hirq (s : State) : Nat :=
  (if (List.range 38).any fun k => s.pageRequest k && bitOf (if k < 32 then s.get HIF.HMASK0.M else s.get HIF.HMASK1.M) (k % 32) == 1
   then 1 else 0)
    + (if (List.range 16).any fun v => v != 0 && s.tenantRequest v && s.tenantTo v == 2 then 2 else 0)
    + (if s.is HIF.HDB.VAL then 4 else 0)

/-! The live registers, page by page. Each takes the offset and the stored word. `who` is the reading initiator, none for a
sample of the event recorder, which reads as an initiator that has written nothing (R540); `v` is the view. -/

/-- A selector of the reading initiator (R52). -/
def State.sel (s : State) (who : Option Initiator) (f : Fld) : Nat :=
  match who with | some i => s.get (f.copy (iniCopy i)) | none => 0

/-- Two 16-bit numbers as one word. -/
def pair16 (hi lo : Nat) : Nat := hi % 65536 * 65536 + lo % 65536

def liveClk (s : State) (off raw : Nat) : Nat :=
  match off with
  | 0x40 => s.tb % 2 ^ 32
  | 0x54 => s.clk.nextTick % 2 ^ 32
  | 0x58 => s.clk.nextTick / 2 ^ 32 % 2 ^ 32
  | 0x5C => s.clk.asn % 2 ^ 32
  | _ => raw

/-- The words of a queue entry (R350). -/
def Report.words (r : Report) : List Nat :=
  [r.tb % 2 ^ 32, r.tb / 2 ^ 32 % 2 ^ 26, r.page * 2 ^ 24 + r.inst * 2 ^ 16 + (if r.kind = 1 then r.bit * 256 else 0) + r.kind, r.info]

def liveFlt (s : State) (off raw : Nat) : Nat :=
  if off = 0x40 then (if s.flt.marked then 256 else 0) + s.flt.queue.length
  else if 0x44 ≤ off ∧ off < 0x54 then
    match s.flt.queue with
    | r :: _ => r.words.getD ((off - 0x44) / 4) 0
    | [] => 0
  else if off = 0x18 then 0
  else raw

def liveRec (s : State) (off raw : Nat) : Nat :=
  match off with
  | 0x0C => (if s.tb < s.recd.scanTo then 2 else 0) + (if s.recd.held.isEmpty then 0 else 1)
  | 0x48 => s.recd.opsec
  | 0x4C => s.recd.pcyc
  | _ => raw

def liveTim (s : State) (off v raw : Nat) : Nat :=
  if off = 0x0C then (((List.range 8).filter fun n => s.armed n && (v == 0 || bitOf (s.get (ten VIF.TEND0.TIMMASK v)) n == 1)).map
    (2 ^ ·)).sum
  else if off = 0x04 ∧ v ≠ 0 then ((List.range 8).filter fun n => bitOf (s.get (ten VIF.TEND0.TIMMASK v)) n == 1).length
  else if 0x100 ≤ off ∧ off % 0x100 = 0x0C then (s.timerNow (off / 0x100 - 1)).2
  else raw

def liveI2c (s : State) (off raw : Nat) : Nat :=
  if off = 0x0C then 4 * s.get I2C.TSTAT.INTX + 2 * s.get (I2C.CRES.BUSY.i 1) + s.get (I2C.CRES.BUSY.i 0) else raw

/-- The maximum frequency of HSCK in MHz in a VIO range, 1.8 V where `low` (R617). -/
def hostClockMax (low : Bool) : Nat := if low then 50 else 80

/-- HIF: CAPS reports the maximum of the 3.3 V range, whatever VIO is (R570, R617). -/
def liveHif (s : State) (off raw : Nat) : Nat :=
  match off with
  | 0x04 => hostClockMax false
  | 0x0C => raw / 32 * 32 + s.hif.fifo.length
  | 0x48 => (if s.hirq != 0 then 128 else 0) + 64 * s.get HIF.ERRLOG.V + (if s.hif.fifo.length ≥ 16 then 32 else 0)
      + (if s.hif.fifo.isEmpty then 0 else 16)
  | 0x5C => s.hirq
  | _ => raw

def liveMem (s : State) (who : Option Initiator) (off raw : Nat) : Nat :=
  let m := s.sel who MEM.LOGSEL.NUM
  if off = 0x54 then pair16 (s.ecc.ce.getD m 0) (s.ecc.ue.getD m 0)
  else if off = 0x58 then (if (s.ecc.last.getD m (0, false)).2 then 2 ^ 31 else 0) + (s.ecc.last.getD m (0, false)).1
  else if off = 0x5C then s.ecc.lost.getD m 0
  else if off = 0x68 then
    match s.ecc.sectors.find? fun x => x.1 == s.get MEM.FSEL.BANK && x.2.1 == s.get MEM.FSEL.SECTOR with
    | some x => x.2.2
    | none => 0
  else if 0x80 ≤ off ∧ off < 0xC0 then
    if m < 5 then
      let e := (s.ecc.log.getD m []).getD ((off - 0x80) / 4) (0, 0)
      if e.2 = 0 then 0 else e.2 * 2 ^ 28 + e.1
    else 0
  else raw

def liveKey (s : State) (off v raw : Nat) : Nat :=
  if off = 0x48 then (if v = 0 then ((List.range 64).filter s.loaded).length else s.keyUse v)
  else if off = 0x04 ∧ v ≠ 0 then s.get (ten VIF.TENA0.KEYQ v)
  else raw

def liveCmd (s : State) (off raw : Nat) : Nat :=
  if 0xC0 ≤ off ∧ off < 0x100 then (s.record (0x2803FC00 + 8 * ((off - 0xC0) / 4))).getD 0xFFFFFFFF else raw

def liveRfe (s : State) (off raw : Nat) : Nat :=
  match off with
  | 0x0C => 4 * s.portState 0 + 16 * s.portState 1
  | 0xC8 => raw / 32 * 32
      + (((List.range 5).filter fun c => (List.range 13).any fun u => calOf u == c && s.calRuns u).map (2 ^ ·)).sum
  | _ => raw

def liveChz (s : State) (off raw : Nat) : Nat :=
  if off = 0x0C then raw % 16 + 16 * (((List.range 4).filter fun w => s.windowOn w && s.is (RXS.STAT.RUN0.bit (w / 2))).map (2 ^ ·)).sum
  else raw

def liveDmd (s : State) (who : Option Initiator) (off v raw : Nat) : Nat :=
  if off = 0x0C then 256 * min 255 ((List.range 128).filter fun n => s.laneState n == 3).length + min 255 s.inProgress.length
  else if off = 0x04 ∧ v ≠ 0 then s.get (ten VIF.TENA0.LANEQ v)
  else if 0x58 ≤ off ∧ off < 0x6C then
    let n := s.sel who DMD.CNTSEL.LANE
    let l := if v ≠ 0 ∧ s.laneVi n ≠ v then [] else (s.lane n).counts
    let k := (off - 0x58) / 4
    pair16 (l.getD (2 * k) 0) (l.getD (2 * k + 1) 0)
  else if 0x74 ≤ off ∧ off < 0x88 then
    let n := s.sel who DMD.TAPSEL.LANE
    let l := if v ≠ 0 ∧ s.laneVi n ≠ v then [] else (s.lane n).taps
    let k := (off - 0x74) / 4
    pair16 (ofS 16 (l.getD (2 * k) 0)) (ofS 16 (l.getD (2 * k + 1) 0))
  else if 0x200 ≤ off ∧ off < 0x400 ∧ v ≠ 0 then (setField (BitVec.ofNat 32 raw) 26 4 0).toNat
  else raw

def liveFec (s : State) (who : Option Initiator) (off raw : Nat) : Nat :=
  let l := s.lane (s.sel who FEC.LANESEL.LANE)
  match off with
  | 0x68 => l.coded
  | 0x6C => l.diffs
  | _ => raw

/-- The buffers that a chain holds, one bit each. -/
def State.chainBuffers (s : State) (c : Nat) : Nat :=
  (([0, 1].filter fun b => (s.txChain c).runs.any fun r => r.holdsBuffer && r.buf == b).map (2 ^ ·)).sum

def liveTxp (s : State) (off raw : Nat) : Nat :=
  let busy (c : Nat) : Nat := if (s.txChain c).runs.any fun r => r.phase != 0 then 1 else 0
  if off = 0x0C then s.chainBuffers 1 % 4 * 16 + s.chainBuffers 0 % 4 * 4 + busy 1 * 2 + busy 0
  else if off = 0x70 ∨ off = 0xB0 then
    let c := if off = 0x70 then 0 else 1
    pair16 (ofS 16 (s.firSum c 1)) (ofS 16 (s.firSum c 0))
  else raw

def liveFrm (s : State) (off v raw : Nat) : Nat :=
  if off = 0x0C then
    let shows (x : Nat) : Bool := v == 0 || x == v
    min 255 ((s.frm.frames.filter (·.stage == 3)).map fun f => (f.copies.filter shows).length).sum * 65536
      + (((List.range 16).filter fun x => shows x && s.get (FRM.WRIDX.IDX.copy x) != s.get (FRM.RDIDX.IDX.copy x)).map (2 ^ ·)).sum
  else if off = 0x04 ∧ v ≠ 0 then 0x0801
  else if off = 0x54 ∧ s.is BOB.CTRL.RJONLY then raw / 2 * 2
  else raw

def liveShu (s : State) (off v raw : Nat) : Nat :=
  if off = 0x94 then
    match s.shu.done.find? (·.1 == v) with
    | some e => 2 ^ 31 + e.2.1 * 2 ^ 20 + e.2.2
    | none => 0
  else if off = 0x98 then raw / 65536 * 65536 + ((s.shu.queues.filter (·.vi == v)).map (·.descs.length)).sum
  else if off = 0xA0 ∧ s.is BOB.CTRL.RJONLY then raw % 2 ^ 31
  else raw

def livePat (s : State) (who : Option Initiator) (off v raw : Nat) : Nat :=
  if off = 0x44 ∧ who.isNone then s.cellWord 0 0
  else if off = 0x48 ∧ who.isNone then s.cellWord 0 1
  else if off = 0x04 ∧ v ≠ 0 then s.get (ten VIF.TENB0.CELLQ v) * 65536 + s.get (ten VIF.TENA0.SFQ v)
  else if 0x100 ≤ off ∧ off % 8 = 0 ∧ v ≠ 0 then (setField (BitVec.ofNat 32 raw) 24 4 0).toNat
  else raw

def liveBob (s : State) (off v raw : Nat) : Nat :=
  if off = 0x0C then raw / 8192 * 8192 + (4096 - s.ctxHeld.length)
  else if off = 0x04 ∧ v ≠ 0 then s.get (ten VIF.TENB0.CTXQ v)
  else if off = BOB.CMDSTAT.key % 0x1000 then raw % 2 ^ 31 + (if s.bobBusy v then 2 ^ 31 else 0)
  else raw

def liveDut (s : State) (who : Option Initiator) (off v raw : Nat) : Nat :=
  let b := s.sel who DUT.SBSEL.SB
  match off with
  | 0x0C => (((List.range 8).filter fun sb => sb < s.get DUT.PROFILE.NSB && 1 ≤ s.get (DUT.SBSW.DUTY.i sb)
      && s.get (DUT.SBSW.DUTY.i sb) ≤ 10000 && s.budget sb - s.reserve sb ≤ s.used sb).map (2 ^ ·)).sum
  | 0x48 => min (s.used b / 12) 0xFFFFFFFF
  | 0x4C => if s.get (DUT.SBSW.DUTY.i b) = 0xFFFF then 0xFFFFFFFF else s.budget b / 12
  | 0x50 => min (s.usedBy b v / 12) 0xFFFFFFFF
  | 0x54 => s.get (DUT.SHARE.SH.i v)
  | 0x58 => if v ≠ 0 ∧ s.get DUT.DENYLOG.VI ≠ v then 0 else raw
  | 0x64 => min 255 s.dwellEntries.length
  | _ => raw

def liveVif (s : State) (off v raw : Nat) : Nat :=
  if off = 0x0C ∧ v ≠ 0 then raw &&& (2 ^ v + 2 ^ (v + 16))
  else if off = 0x04 ∧ v ≠ 0 then 1
  else if off = 0x44 then (((List.range 16).filter fun x => x != 0 && s.tenantRequest x).map (2 ^ ·)).sum
  else if 0x100 ≤ off ∧ off < 0x300 then
    let x := if v ≠ 0 then v else (off - 0x100) / 0x20
    let raw := if v ≠ 0 then (s.reg (VIF.TENA0.key + off - 0x100 + 0x20 * v)).toNat else raw
    match off % 0x20 with
    | 0x10 => pair16 (s.ctxUse x) (s.laneUse x)
    | 0x14 => (s.sfsOf x).length * 2 ^ 24 + s.keyUse x * 2 ^ 16 + s.cellUse x
    | _ => raw
  else raw

def liveLmp (s : State) (off raw : Nat) : Nat :=
  if off = 0x0C then
    (if s.lmp.vgdOk then 2 ^ 31 else 0) + s.get LMP.STAT.NTCHOT * 2 ^ 30 + (if s.lmp.enBall then 2 ^ 29 else 0)
      + ((List.range 4).map fun n => s.lampState n * 8 ^ n).sum
  else if off = 0x64 then (((List.range 4).filter fun n => (s.lamp n).ovr.isSome).map (2 ^ ·)).sum
  else if off = 0x68 then
    ((List.range 4).foldl (fun m n => max m (((s.lamp n).ovr.bind (·.ends)).getD 0)) 0) % 2 ^ 32
  else if 0x100 ≤ off ∧ off < 0x500 ∧ off % 0x100 = 0x10 then (setField (BitVec.ofNat 32 raw) 28 1 (if s.lampHeld then 1 else 0)).toNat
  else raw

def liveUpd (s : State) (off raw : Nat) : Nat :=
  match off with
  | 0x44 => s.word 0x2803FC80
  | 0x54 => ((s.record 0x2803FC88).getD 0xFFFF) % 65536
  | 0x58 => s.storedSchema
  | _ => raw

def liveGio (s : State) (off raw : Nat) : Nat := if off = 0x44 ∨ off = 0x48 then s.get GIO.OUT.P else raw

def liveCpu (s : State) (off raw : Nat) : Nat :=
  match off with
  | 0xA0 => s.pendingAt 0 % 2 ^ 32
  | 0xA4 => s.pendingAt 0 / 2 ^ 32
  | 0xE0 => s.pendingAt 1 % 2 ^ 32
  | 0xE4 => s.pendingAt 1 / 2 ^ 32
  | _ => raw

/-- Whether a Mover channel is active: WAIT, RUN or PAUSED (R454). -/
def State.moverActive (s : State) (c : Nat) : Bool := 1 ≤ s.get (MOV.CSTAT.STATE.i c) && s.get (MOV.CSTAT.STATE.i c) ≤ 3

def liveMov (s : State) (off raw : Nat) : Nat :=
  if off = 0x0C then (((List.range 16).filter s.moverActive).map (2 ^ ·)).sum
  else if 0x100 ≤ off ∧ off % 0x10 = 0 then raw % 2 ^ 31 + (if s.moverActive ((off - 0x100) / 0x10) then 2 ^ 31 else 0)
  else raw

/-- The word that a register shows, from the stored one. -/
def State.liveWord (s : State) (who : Option Initiator) (p : Page) (off v raw : Nat) : Nat :=
  match p with
  | .CLK => liveClk s off raw
  | .FLT => liveFlt s off raw
  | .REC => liveRec s off raw
  | .TIM => liveTim s off v raw
  | .I2C => liveI2c s off raw
  | .HIF => liveHif s off raw
  | .MEM => liveMem s who off raw
  | .KEY => liveKey s off v raw
  | .CMD => liveCmd s off raw
  | .RFE => liveRfe s off raw
  | .CHZ => liveChz s off raw
  | .DMD => liveDmd s who off v raw
  | .FEC => liveFec s who off raw
  | .TXP => liveTxp s off raw
  | .FRM => liveFrm s off v raw
  | .SHU => liveShu s off v raw
  | .PAT => livePat s who off v raw
  | .BOB => liveBob s off v raw
  | .DUT => liveDut s who off v raw
  | .VIF => liveVif s off v raw
  | .LMP => liveLmp s off raw
  | .UPD => liveUpd s off raw
  | .GIO => liveGio s off raw
  | .CPU => liveCpu s off raw
  | .MOV => liveMov s off raw
  | _ => raw

/-- The copy of a register that an access sees: the view's for a register with one copy for each virtual interface and for a
tenant's STICKY and IRQEN, the initiator's for one with a copy for each initiator (R14, R52, R297). -/
def copyOf (d : RegDesc) (who : Option Initiator) (v : Nat) : Nat :=
  if d.off = 0x10 ∨ d.off = 0x14 then v
  else match d.copy with
    | .shared => 0
    | .perVi => v
    | .perIni => match who with | some i => iniCopy i | none => 0

/-- The key of the register at an offset of a page, for an access. -/
def regKey (p : Page) (off : Nat) (d : RegDesc) (who : Option Initiator) (v : Nat) : Nat :=
  pageBase + p.code * 0x1000 + off + copyOf d who v * 0x100000000

/-- The bits of a register that write-only fields take up: they read 0 (R14). -/
def RegDesc.hiddenBits (d : RegDesc) : Nat := ((d.fields.filter (·.acc == .wo)).map fun f => (2 ^ f.width - 1) * 2 ^ f.lo).sum

/-- What a register reads as, without the effects of a read (R12, R14, R297, R540). -/
def State.peek (s : State) (who : Option Initiator) (p : Page) (off v : Nat) : Nat :=
  match findReg p.table off with
  | none => 0
  | some d =>
    if v ≠ 0 ∧ off = 0x18 then 0
    else
      let raw := match who, d.copy with
        | none, .perIni => d.reset
        | _, _ => (s.reg (regKey p off d who v)).toNat
      let w := s.liveWord who p off v raw
      w - (w &&& d.hiddenBits)

end Sys2Proof.Machine
end

