-- ==== Sys2Proof/Machine/Mover.lean ====
section
/-! DEFINITION. The Mover's channels: descriptors, their checks, their records and what a power-down does to a chain (R45,
R448 to R451, R473). -/

namespace Sys2Proof.Machine

/-- A Mover channel. -/
def State.movCh (s : State) (c : Nat) : MovCh := s.mov.chans.getD c {}

/-- Changes a Mover channel. -/
def onMovCh (c : Nat) (f : MovCh → MovCh) : Act := onMov fun m => { m with chans := m.chans.modify c f }

/-- The states of a channel (R454). -/
def setMovState (c st : Nat) : Act := put (MOV.CSTAT.STATE.i c) st

/-- The initiator of a channel's accesses. -/
def moverOf (c : Nat) : Initiator := .mover (Fin.ofNat 16 c)

/-! Descriptors (R449). -/

/-- A word of a descriptor. -/
def dWord (d : List Nat) (k : Nat) : Nat := d.getD k 0

/-- OP: 0 COPY, 1 FILL, 2 COPY2D, 3 reserved. -/
def dOp (d : List Nat) : Nat := bits (dWord d 0) 20 19

/-- Bytes of a row, and the rows. -/
def dLen (d : List Nat) : Nat := dWord d 4 % 2 ^ 24
def dRows (d : List Nat) : Nat := if dOp d = 2 then dWord d 5 % 65536 + 1 else 1

/-- The address of a row of the source and of the destination. -/
def dSrc (d : List Nat) (r : Nat) : Int := dWord d 1 + (if dOp d = 2 then r * toS 16 (dWord d 6 / 65536) else 0)
def dDst (d : List Nat) (r : Nat) : Int := dWord d 2 + (if dOp d = 2 then r * toS 16 (dWord d 6 % 65536) else 0)

/-- The bytes that a descriptor moves. -/
def dTotal (d : List Nat) : Nat := dLen d * dRows d

/-! The checks (R45, R450). -/

/-- The regions of R42, each by its start and its end. -/
def mapRegions : List (Nat × Nat) :=
  [(0, 0x10000), (Base.flashA, Base.flashB), (Base.flashB, 0x08800000), (Base.sram, 0x20200000), (Base.bobbin, 0x24080000),
   (Base.mram, 0x28040000), (Base.fram, 0x30100000), (pageBase, 0x40026000), (Base.window, 0x51000000)]

/-- The region that holds every row of one side. -/
def sideRegion (d : List Nat) (at_ : Nat → Int) : Option (Nat × Nat) :=
  mapRegions.find? fun g => (List.range (dRows d)).all fun r => (g.1 : Int) ≤ at_ r && at_ r + dLen d ≤ g.2

/-- Whether an address is one of a register: in a page, or in a window below its aperture (R295, R296). -/
def isRegister (a : Nat) : Bool :=
  (pageBase ≤ a && a < 0x40026000) || (Base.window ≤ a && a < 0x51000000 && a % 0x100000 < 0x80000)

/-- Whether a side that lies in register pages is aligned as R450 asks. -/
def sideAligned (d : List Nat) (at_ : Nat → Int) : Bool :=
  (List.range (dRows d)).all fun r =>
    !(isRegister (at_ r).toNat || isRegister (at_ r + dLen d - 1).toNat) || (at_ r % 4 == 0 && dLen d % 4 == 0)

/-- Whether the two footprints have a byte in common. -/
def sidesMeet (d : List Nat) : Bool :=
  (List.range (dRows d)).any fun r => (List.range (dRows d)).any fun q =>
    dSrc d r < dDst d q + dLen d && dDst d q < dSrc d r + dLen d

/-- Whether a reserved field is not 0; ROWS and the strides are reserved but for COPY2D. -/
def dReserved (d : List Nat) : Bool :=
  dWord d 0 % 2 ^ 19 != 0 || dWord d 3 % 32 != 0 || dWord d 4 / 2 ^ 24 != 0
    || (if dOp d = 2 then dWord d 5 / 65536 != 0 else dWord d 5 != 0 || dWord d 6 != 0)

/-- Whether a descriptor fails the checks of RSVD_OP (R45, R450). -/
def dRsvd (d : List Nat) : Bool :=
  let src := sideRegion d (dSrc d)
  let dst := sideRegion d (dDst d)
  dOp d == 3 || dLen d == 0 || dReserved d || dst.isNone || !sideAligned d (dDst d)
    || (match dst with | some g => g.1 < Base.sram || g.1 == Base.bobbin | none => true)
    || (dOp d != 1 && (src.isNone || !sideAligned d (dSrc d) || sidesMeet d))

/-- Some addresses of a range that lie at most 8 KiB apart, the least unit in which R300 permits or refuses, and its last. -/
def probes (a n : Nat) : List Nat := (List.range (n / 0x2000 + 2)).map fun k => min (a + k * 0x2000) (a + n - 1)

/-- The first address of one side that R300 refuses. -/
def State.refusedAt (s : State) (c : Nat) (d : List Nat) (at_ : Nat → Int) (write : Bool) : Option Nat :=
  let v := s.boundTo (moverOf c)
  if v = 0 then none
  else ((List.range (dRows d)).flatMap fun r => probes (at_ r).toNat (dLen d)).find? fun a =>
    !s.boundReaches (moverOf c) v a write

/-- The status of a descriptor that fails a check, with the refused address where R300 refuses it; a descriptor that names
its bytes and fails both checks ends with PROTECTED, the lower code (R30, R450). -/
def State.dCheck (s : State) (c : Nat) (d : List Nat) : Option (Nat × Option Nat) :=
  if dOp d == 3 || dLen d == 0 then some (Status.rsvdOp, none)
  else match (if dOp d = 1 then none else s.refusedAt c d (dSrc d) false), s.refusedAt c d (dDst d) true with
    | some a, _ => some (Status.prot, some a)
    | none, some a => some (Status.prot, some a)
    | none, none => if dRsvd d then some (Status.rsvdOp, none) else none

/-! Reaching a descriptor (R448, R451). -/

/-- Whether a descriptor may stand at an address. -/
def descPlace (a : Nat) : Bool :=
  a % 32 == 0 && ((Base.sram ≤ a && a < 0x20200000) || (Base.fram ≤ a && a < 0x30100000))

/-- Writes a descriptor's word 0 with STATUS and DONE (R449). -/
def writeStatus (a w0 status done : Nat) : Act :=
  storeMem a 4 (w0 % 2 ^ 23 + done * 2 ^ 23 + status * 2 ^ 24)

/-- A descriptor that the channel of a closing VI has not started ends with PROTECTED, and the chain with it (R293, R300,
R451). -/
def closedDescriptor (c a : Nat) : Act := look fun s =>
  chain [storeMem (a + 28) 4 (s.tb % 2 ^ 32), writeStatus a (s.word a) Status.prot 1, pulse (13 + c),
    whenA (bitOf (s.word a) 22 == 1) (stick (MOV.STICKY.DONE.bit c)), setMovState c 4, stick MOV.STICKY.ERR]

/-- The channel reaches the descriptor at an address: it is read, and waits under TRIG for an event that is not kept. One in a
region whose domain is off ends the chain as a power-down does (R46, R473). -/
def reachDescriptor (c a : Nat) : Act := look fun s =>
  let i := moverOf c
  let route := s.route i a false
  let bound := match route with | .bindViol _ => true | _ => false
  chain [put (MOV.CCUR.ADDR.i c) a,
    if descPlace a && bound && !s.viOpen (s.boundTo i) then chain [refusal i a route, closedDescriptor c a]
    else if !descPlace a || bound then
      chain [whenA (descPlace a) (refusal i a route), setMovState c 4, stick MOV.STICKY.DESCERR]
    else if route == .domOff then chain [refusal i a route, setMovState c 0, pulse (13 + c)]
    else
      let words := match route with | .mem _ => (List.range 8).map fun k => s.load (a + 4 * k) 4 | _ => List.replicate 8 0
      let trig := bitOf (dWord words 0) 21 == 1
      chain [refusal i a route, touch a 32, put (MOV.CSTAT.BYTES.i c) 0,
        onMovCh c fun m => { m with
          desc := some words
          moved := 0
          moving := false
          status := if s.ue a 32 then some Status.eccUncorr else none },
        if trig && !s.mov.events.contains c then setMovState c 1
        else chain [whenA trig (onMov fun m => { m with events := m.events.filter (· != c) }), setMovState c 2]]]

/-- GO starts a channel that is not active (R448). -/
def moverGo (c : Nat) : Act := look fun s => whenA (!s.moverActive c) (chain [
  onMovCh c fun m => { m with stop := false }, reachDescriptor c (s.get (MOV.CDESC.ADDR.i c) * 32)])

/-- STOP: a running descriptor completes first; a channel that waits under TRIG or is paused stands at a boundary
(R448, R473). -/
def moverStop (c : Nat) : Act := look fun s =>
  match s.get (MOV.CSTAT.STATE.i c) with
  | 1 => setMovState c 0
  | 2 => onMovCh c fun m => { m with stop := true }
  | 3 => setMovState c 0
  | _ => skip

/-- A write of CcCTRL (R454). -/
def writeMovCtrl (c w : Nat) : Act := chain [put (MOV.CCTRL.PRIO.i c) (bits w 29 28),
  whenA (bitOf w 31 == 1) (moverGo c), whenA (bitOf w 30 == 1) (moverStop c)]

/-- A write of CcDESC is ignored while the channel is active (R448). -/
def writeMovDesc (c w : Nat) : Act := look fun s =>
  whenA (!s.moverActive c) (plainWrite (MOV.CDESC.ADDR.i c).key 0 w)

/-- A write of CcCTRL with GO. -/
def execMoverGo (i : Initiator) (c : Fin 16) (prio : Fin 4) (s : State) : Host.Outcome State Fault Refusal :=
  act (atRegister i 0 (MOV.CCTRL.GO.i c) true (writeMovCtrl c (2 ^ 31 + prio * 2 ^ 28))) s

/-- A write of CcCTRL with STOP. -/
def execMoverStop (i : Initiator) (c : Fin 16) (prio : Fin 4) (s : State) : Host.Outcome State Fault Refusal :=
  act (atRegister i 0 (MOV.CCTRL.GO.i c) true (writeMovCtrl c (2 ^ 30 + prio * 2 ^ 28))) s

/-! Power-down (R472, R473). -/

/-- The domain of an address (R40, R42). -/
def domainOf (a : Nat) : Nat :=
  if Base.flashA ≤ a ∧ a < 0x08800000 then Dom.nvm
  else if (Base.bobbin ≤ a ∧ a < 0x24080000) ∨ (Base.fram ≤ a ∧ a < 0x30100000) ∨ Base.window ≤ a then Dom.mac
  else if pageBase ≤ a ∧ a < 0x40026000 then (match Page.ofCode (addrPage a) with | some p => p.domain | none => Dom.core)
  else Dom.core

/-- The domains that a descriptor at an address touches, with its source and its destination. -/
def dDomains (a : Nat) (d : List Nat) : List Nat :=
  [domainOf a, domainOf (dWord d 2)] ++ (if dOp d = 1 then [] else [domainOf (dWord d 1)])

/-- Whether a fence affects a descriptor. -/
def State.fenced (s : State) (a : Nat) (d : List Nat) : Bool :=
  s.pwr.closing != 0
    && (bitOf s.pwr.closing Dom.core == 1 || (dDomains a d).any fun x => bitOf s.pwr.closing x == 1)

/-- Whether memory at an address is kept through the running sequence. -/
def State.keeps (s : State) (a : Nat) (source : Bool) : Bool :=
  let stays (d : Nat) : Bool := s.domOn d && bitOf s.pwr.closing d == 0
  if Base.mram ≤ a ∧ a < 0x28040000 then true
  else if a < Base.sram then source
  else if a < 0x20200000 then stays Dom.core || bitOf (s.get PWR.RETAIN.BANKS) ((a - Base.sram) / 0x20000) == 1
  else stays (domainOf a)

/-- Whether every byte of a side is kept. -/
def State.keepsSide (s : State) (d : List Nat) (at_ : Nat → Int) (source : Bool) : Bool :=
  ((List.range (dRows d)).flatMap fun r => probes (at_ r).toNat (dLen d)).all fun a => s.keeps a source

/-- The next descriptor of an affected channel is left for the restore, or ends the chain (R473). -/
def pauseAt (c a : Nat) (d : List Nat) : Act := look fun s =>
  let kept := s.keeps a false && (dOp d == 1 || s.keepsSide d (dSrc d) true) && s.keepsSide d (dDst d) false
  chain [put (MOV.CCUR.ADDR.i c) a,
    if kept then chain [writeStatus a (dWord d 0) Status.pausedPd 0, setMovState c 3]
    else chain [writeStatus a (dWord d 0) Status.abortedPd 1, setMovState c 0],
    pulse (13 + c)]

/-- The channel goes on with the descriptor at an address, or stands there while a fence affects it. -/
def nextDescriptor (c a : Nat) (affected : Bool) : Act := look fun s =>
  let d := (List.range 8).map fun k => s.word (a + 4 * k)
  if descPlace a && (affected || s.fenced a d) then pauseAt c a d else reachDescriptor c a

/-- A channel's descriptor ends with a status: its record, and the chain (R449, R451, R473). -/
def endDescriptor (c status : Nat) : Act := look fun s =>
  let a := s.get (MOV.CCUR.ADDR.i c)
  let d := (s.movCh c).desc.getD []
  let next := dWord d 3 / 32 * 32
  chain [storeMem (a + 28) 4 (s.tb % 2 ^ 32), writeStatus a (dWord d 0) status 1, pulse (13 + c),
    whenA (bitOf (dWord d 0) 22 == 1) (stick (MOV.STICKY.DONE.bit c)),
    onMovCh c fun m => { m with
      desc := none
      moving := false
      status := none },
    if status == Status.abortedPd then setMovState c 0
    else if status != Status.ok then chain [setMovState c 4, stick MOV.STICKY.ERR]
    else if next == 0 then setMovState c 0
    else if (s.movCh c).stop then chain [put (MOV.CCUR.ADDR.i c) next, setMovState c 0]
    else nextDescriptor c next (s.fenced a d)]

/-- The channels that wait under TRIG when a fence starts (R473). -/
def moverFence : Act := eachA (List.range 16) fun c => look fun s =>
  let a := s.get (MOV.CCUR.ADDR.i c)
  let d := (s.movCh c).desc.getD []
  whenA (s.get (MOV.CSTAT.STATE.i c) == 1 && s.fenced a d) (pauseAt c a d)

/-- Paused channels resume once every domain that they touch is on (R473). -/
def moverResume : Act := eachA (List.range 16) fun c => look fun s =>
  let a := s.get (MOV.CCUR.ADDR.i c)
  let d := (List.range 8).map fun k => s.word (a + 4 * k)
  whenA (s.get (MOV.CSTAT.STATE.i c) == 3 && s.domOn Dom.core && (dDomains a d).all s.domOn) (reachDescriptor c a)

end Sys2Proof.Machine
end

