-- ==== Sys2Proof/Machine/Recorder.lean ====
section
/-! DEFINITION. The event recorder (R539 to R547). -/

namespace Sys2Proof.Machine

/-! Samples. -/

/-- The address of register `i` of definition `k`. -/
def State.sampled (s : State) (k i : Nat) : Nat := s.get (REC.REG.ADDR.i (16 * k + i))

/-- What a sample of a register address reads; `none` where the register's domain is off (R540). -/
def State.sampleOf (s : State) (a : Nat) : Option Nat :=
  match Page.ofCode (addrPage a) with
  | some p => if s.pageOn p (a % 0x1000) then some (s.peek none p (a % 0x1000) 0) else none
  | none => some 0

/-- The sample that a trigger takes. -/
def State.takeSample (s : State) (f : Fired) : Sample :=
  let read := (List.range (s.get (REC.TRG.NREG.i f.defn))).map fun i => s.sampleOf (s.sampled f.defn i)
  { fired := f
    vals := read.map fun v => v.getD 0
    off := (read.zipIdx.map fun x => if x.1.isNone then 2 ^ x.2 else 0).sum
    opsec := s.recd.opsec }

/-- A trigger or sample is lost (R541). -/
def recordLost (f : Fld) : Act := chain [count f, stick REC.STICKY.LOST]

/-- A trigger: frozen, lost to a scan or to four held samples, or sampled (R541, R543, R545). -/
def recorderTrigger (f : Fired) : Act := look fun s =>
  if s.is REC.CTRL.FREEZE then
    chain [whenA (s.get REC.FROZCNT.CNT == 0) (put REC.FROZTB.TB f.tb), count REC.FROZCNT.CNT,
      stick REC.STICKY.FROZTRG]
  else if s.tb < s.recd.scanTo || 4 ≤ s.recd.held.length then recordLost REC.LOSTCNT.QUEUE
  else onRecd fun r => { r with held := r.held ++ [s.takeSample f] }

/-- The first definition that has fired takes its sample (R539, R540). -/
def execRecorderTrigger (s : State) : Host.Outcome State Fault Refusal :=
  act (look fun s => match s.recd.fired with
    | [] => skip
    | f :: l => chain [onRecd fun r => { r with fired := l }, recorderTrigger f]) s

/-! The ring. -/

/-- The address of a slot of the ring (R542). -/
def ringSlot (n : Nat) : Nat := 0x28037800 + 128 * n

/-- The rank of a trigger's source (R541): the page code and 0, or Stitch's page code and the channel. -/
def Fired.rank (f : Fired) : Nat := if f.src = 1 then f.page * 64 else 0x05 * 64 + f.bit

/-- Whether a sample is written before another: by stamp, then source rank, then definition number (R541). -/
def Sample.before (a b : Sample) : Bool :=
  a.fired.tb < b.fired.tb || (a.fired.tb == b.fired.tb
    && (a.fired.rank < b.fired.rank || (a.fired.rank == b.fired.rank && a.fired.defn < b.fired.defn)))

/-- The sample of a list that is written first. -/
def firstSample : List Sample → Option Sample
  | [] => none
  | a :: l => match firstSample l with
    | some b => some (if b.before a then b else a)
    | none => some a

/-- The octets of a record (R542). -/
def Sample.octets (x : Sample) (seq pcyc : Nat) : List Nat :=
  let f := x.fired
  let key := f.defn * 2 ^ 29 + f.src * 2 ^ 28 + (if f.src = 1 then f.page * 2 ^ 16 + f.bit * 256 else 0) + x.vals.length
  leOctets 4 seq ++ leOctets 4 key ++ leOctets 4 f.tb ++ leOctets 4 (f.tb / 2 ^ 32 % 2 ^ 26) ++ leOctets 4 x.opsec
    ++ leOctets 4 (pcyc % 2 ^ 24) ++ leOctets 4 x.off ++ leOctets 4 0
    ++ ((x.vals ++ List.replicate (16 - x.vals.length) 0).map (leOctets 4)).flatten ++ List.replicate 32 0

/-- SEQ after a record: it wraps from 0xFFFF_FFFF to 1 (R543). -/
def nextSeq (q : Nat) : Nat := if q = 0xFFFFFFFF then 1 else q + 1

/-- A record is written at WRIDX (R543); `seq` is what its commit word carries. -/
def writeRecord (x : Sample) (seq : Nat) : Act := look fun s =>
  let a := ringSlot (s.get REC.WRIDX.IDX)
  chain [heal a 128, setOctets a (x.octets seq s.recd.pcyc)]

/-- Once TB has passed the stamp of the first held sample by two units it is written, unless it would be the seventeenth
record of its second (R541, R543). -/
def execRecordWrite (s : State) : Host.Outcome State Fault Refusal :=
  act (look fun s => match firstSample s.recd.held with
    | none => skip
    | some x => chain [until_ (x.fired.tb + 2), onRecd fun r => { r with held := r.held.erase x }, look fun s =>
        let second := s.tb / 4000000
        let n := if s.recd.second == second then s.recd.inSec else 0
        if 16 ≤ n then recordLost REC.LOSTCNT.RATE
        else chain [writeRecord x (s.get REC.SEQ.VAL),
          put REC.WRIDX.IDX ((s.get REC.WRIDX.IDX + 1) % 255), put REC.SEQ.VAL (nextSeq (s.get REC.SEQ.VAL)),
          onRecd fun r => { r with
            second := second
            inSec := n + 1 },
          stick REC.STICKY.WRITTEN]]) s

/-- The scan of the ring at device reset and at each restore of CORE: 10.2 µs (R543). -/
def scanRing : Act := look fun s =>
  let best := (List.range 255).foldl (fun b n => if s.word (ringSlot n) > s.word (ringSlot b) then n else b) 0
  let top := s.word (ringSlot best)
  chain [onRecd fun r => { r with scanTo := s.tb + 41 },
    if top = 0 then chain [put REC.WRIDX.IDX 0, put REC.SEQ.VAL 1]
    else chain [put REC.WRIDX.IDX ((best + 1) % 255), put REC.SEQ.VAL (nextSeq top)]]

/-! The life counters (R544). -/

/-- Whether a life counter copy is valid. -/
def State.lifeValid (s : State) (a : Nat) : Bool := s.word a == 0x52454344 && s.crcGood a

/-- The governing life counter copy. -/
def State.life (s : State) : Option Nat := s.governing s.lifeValid 12 0x2803F780 0x2803F7A0

/-- Writes the life counters over the copy that does not govern. -/
def writeLife : Act := look fun s =>
  let a := if s.life == some 0x2803F780 then 0x2803F7A0 else 0x2803F780
  let seq := match s.life with | some g => s.word (g + 12) + 1 | none => 1
  let body := leOctets 4 0x52454344 ++ leOctets 4 s.recd.opsec ++ leOctets 4 s.recd.pcyc ++ leOctets 4 seq
    ++ List.replicate 12 0
  chain [heal a 32, setOctets a (body ++ leOctets 4 (crc32 body)), onRecd fun r => { r with
    lifeAt := r.opsec
    owed := false }]

/-- A write of the life counters that is due waits for the end of a freeze (R545). -/
def lifeDue : Act := look fun s =>
  if s.is REC.CTRL.FREEZE then onRecd fun r => { r with owed := true } else writeLife

/-- 64 s of operation have passed since the last write (R544). -/
def execLifeCounterWrite (s : State) : Host.Outcome State Fault Refusal :=
  act (look fun s => whenA (s.domOn Dom.core && s.recd.lifeAt + 64 ≤ s.recd.opsec && !s.recd.owed) lifeDue) s

/-- The load of the life counters at a device reset; `cold` where it follows an AON power-on or a stay in OFF. -/
def loadLife (cold : Bool) : Act := look fun s =>
  chain [match s.life with
    | some g => onRecd fun r => { r with
        opsec := s.word (g + 4)
        pcyc := s.word (g + 8) % 2 ^ 24
        lifeAt := s.word (g + 4) }
    | none => chain [onRecd fun r => { r with
        opsec := 0
        pcyc := 0
        lifeAt := 0 }, stick REC.STICKY.NOLIFE],
    whenA cold (chain [onRecd fun r => { r with pcyc := min (r.pcyc + 1) 0xFFFFFF }, writeLife])]

/-! Register writes. -/

/-- A write of CTRL: clearing FREEZE makes a life counter write that fell due (R545). -/
def writeRecCtrl (w : Nat) : Act := chain [plainWrite REC.CTRL.key 0 w,
  look fun s => whenA (s.recd.owed && !s.is REC.CTRL.FREEZE) writeLife]

/-- A write of CTRL (R545). -/
def execRecorderFreeze (i : Initiator) (w : Word) (s : State) : Host.Outcome State Fault Refusal :=
  act (atRegister i 0 REC.CTRL.FREEZE true (writeRecCtrl w.toNat)) s

/-- A write of TRGk: PAGE 0x04 is reserved with SRC STICKY (R547). -/
def writeTrg (k w : Nat) : Act := judgedWrite (REC.TRG.EN.i k).key 0 w fun d x =>
  d.lo == 16 && x == 0x04 && bitOf w 30 == 1

/-- A write of a register address of a definition (R547). -/
def writeRecReg (k w : Nat) : Act := judgedWrite (REC.REG.ADDR.i k).key 0 w fun _ x =>
  x % 4 != 0 || x < 0x40000000 || 0x40025FFF < x

end Sys2Proof.Machine
end

