-- ==== Sys2Proof/Machine/Request.lean ====
section
/-! DEFINITION. Requests for a mode or for optional domains (R471, R482), and the RTC's registers (R469). -/

namespace Sys2Proof.Machine

/-- The mode that a request is compared with: the present one, or the one that a running sequence or restore leads to (R471,
R478). -/
def State.heading (s : State) : Nat :=
  if s.pwr.closing != 0 then s.pwr.wakeAfter.getD s.pwr.downTo
  else if !s.pwr.restoring.isEmpty then s.pwr.upTo else s.mode

/-- The domains that are on once a running sequence or restore has ended. -/
def State.headingDomains (s : State) : Nat :=
  ((s.get PWR.STAT.DOMON - (s.get PWR.STAT.DOMON &&& s.pwr.closing)) ||| (s.pwr.restoring.map (2 ^ ·)).sum)
    ||| (match s.pwr.wakeAfter with | some m => s.modeDomains m | none => 0)

/-- The domains of a set that are not in another one. -/
def domainsLess (a b : Nat) : Nat := a - (a &&& b)

/-- A request for a mode: domains that it needs are restored at once, and domains that it does not need are left pending for
the power-down sequence (R471). -/
def requestMode (m : Nat) : Act := look fun s =>
  let want := s.modeDomains m
  chain [whenA (domainsLess want s.headingDomains != 0) (wakeTo m),
    if domainsLess s.headingDomains want != 0 then
      chain [put PWR.MODEREQ.TARGET m, put PWR.MODEREQ.PEND 1,
        onPwr fun p => { p with askedAt := s.tb, held := s.get THM.STAT.PHOLD != 0, tickCame := false }]
    else put PWR.MODEREQ.PEND 0]

/-- A write of MODEREQ (R471). The values 5 to 7 of TARGET are reserved encodings (R468). -/
def writeModereq (w : Nat) : Act := look fun s =>
  let m := bits w 2 0
  if 4 < m then setRsvd PWR.MODEREQ.key 0
  else chain [put PWR.MODEREQ.TARGET m,
    if m == s.heading then put PWR.MODEREQ.PEND 0 else requestMode m]

/-- A write of DOMEN: a change of the optional domains of the present mode counts as a request (R471). A pending request for
another mode stands, since its sequence compares with the DOMEN of its start. -/
def writeDomen (w : Nat) : Act := look fun s =>
  let m := s.heading
  chain [plainWrite PWR.DOMEN.key 0 w, look fun t =>
    whenA (t.modeDomains m != s.modeDomains m)
      (if t.is PWR.MODEREQ.PEND && t.get PWR.MODEREQ.TARGET != m then
        whenA (domainsLess (t.modeDomains m) t.headingDomains != 0) (wakeTo m)
       else requestMode m)]

/-- A write of MODEREQ. -/
def execModereqWrite (i : Initiator) (w : Word) (s : State) : Host.Outcome State Fault Refusal :=
  act (atRegister i 0 PWR.MODEREQ.PEND true (writeModereq w.toNat)) s

/-- A write of DOMEN. -/
def execDomenWrite (i : Initiator) (w : Word) (s : State) : Host.Outcome State Fault Refusal :=
  act (atRegister i 0 PWR.DOMEN.RUNOPT true (writeDomen w.toNat)) s

/-! The RTC. -/

/-- RTCSEC has taken a value: where it equals RTCALM the alarm sets WAKESRC.RTC once (R469). `k32` is the crystal's count
since CORE went off. -/
def rtcAlarm (k32 : Nat) : Act := look fun s =>
  whenA (!s.pwr.alarmDone && s.get PWR.RTCSEC.SEC == s.get PWR.RTCALM.SEC)
    (chain [onPwr fun p => { p with alarmDone := true }, pulseAon 91 k32, wakeSource 3 s.wakeMode k32])

/-- A write of RTCSEC, which clears RTCLOST (R469); writing the count held is no write (R626). -/
def writeRtcsec (w : Nat) : Act := look fun s => whenA (s.get PWR.RTCSEC.SEC != w) (chain [
  put PWR.RTCSEC.SEC w, put PWR.STAT.RTCLOST 0, onPwr fun p => { p with alarmDone := false }, rtcAlarm 0])

/-- A write of RTCALM, which may equal RTCSEC (R469). -/
def writeRtcalm (w : Nat) : Act := chain [put PWR.RTCALM.SEC w, rtcAlarm 0]

/-- A write of RTCSEC. -/
def execRtcsecWrite (i : Initiator) (w : Word) (s : State) : Host.Outcome State Fault Refusal :=
  act (atRegister i 0 PWR.RTCSEC.SEC true (writeRtcsec w.toNat)) s

/-- A write of BAKCFG: RISE ≤ FALL is a reserved encoding of both (R482). -/
def writeBakcfg (w : Nat) : Act := judgedWrite PWR.BAKCFG.RISE.key 0 w fun d _ =>
  (d.lo == 0 || d.lo == 8) && bits w 15 8 ≤ bits w 7 0

end Sys2Proof.Machine
end

