-- ==== Sys2Proof/Machine/TwoWire.lean ====
section
/-! DEFINITION. The two-wire controllers A and B and the target T (R548 to R559). -/

namespace Sys2Proof.Machine

/-- The transaction of controller `n`. -/
def State.i2cTx (s : State) (n : Nat) : Option I2cTx := if n = 0 then s.i2c.a else s.i2c.b

/-- Replaces the transaction of controller `n`. -/
def setI2c (n : Nat) (t : Option I2cTx) : Act := onI2c fun c => if n = 0 then { c with a := t } else { c with b := t }

/-- A controller starts an operation: BUSY is set and DONE cleared (R549, R560). -/
def beginI2c (n : Nat) (t : I2cTx) : Act :=
  chain [setI2c n (some t), put (I2C.CRES.BUSY.i n) 1, put (I2C.CRES.DONE.i n) 0]

/-- A write of CnCMD (R549): reserved OP or ADDR sets RSVD; BUSY or EN 0 ignores the write. -/
def writeI2cCmd (n w : Nat) : Act := look fun s =>
  let op := bits w 25 24
  let addr := bits w 22 16
  if bits w 31 31 == 0 then skip
  else if (op != 1 && op != 2) || addr < 0x08 || addr > 0x77 then stick I2C.STICKY.RSVD
  else whenA (!s.is (I2C.CRES.BUSY.i n) && s.is (I2C.CCFG.EN.i n)) (beginI2c n ⟨op, addr, bits w 7 0, true⟩)

/-- A write of CnRECOV.GO (R553). -/
def writeI2cRecov (n w : Nat) : Act := look fun s =>
  whenA (bitOf w 0 == 1 && !s.is (I2C.CRES.BUSY.i n)) (beginI2c n ⟨3, 0, 0, false⟩)

/-- A controller's operation ends (R550): BUSY, DONE, RESULT, the DONE sticky bit and the producer. -/
def endI2c (n result : Nat) : Act :=
  chain [setI2c n none, put (I2C.CRES.BUSY.i n) 0, put (I2C.CRES.DONE.i n) 1, put (I2C.CRES.RESULT.i n) result,
    stickI (if n = 0 then I2C.STICKY.ADONE else I2C.STICKY.BDONE) n 0, pulse (65 + n)]

/-- A CnCMD write with GO and OP WRITE (R549). -/
def execI2cWrite (i : Initiator) (n : Fin 2) (addr : BitVec 7) (data : Byte) (s : State) :
    Host.Outcome State Fault Refusal :=
  act (atRegister i 0 (I2C.CCMD.i n) true
    (writeI2cCmd n (0x80000000 + 0x01000000 + addr.toNat * 0x10000 + data.toNat))) s

/-- A CnCMD write with GO and OP READ (R549). -/
def execI2cRead (i : Initiator) (n : Fin 2) (addr : BitVec 7) (s : State) : Host.Outcome State Fault Refusal :=
  act (atRegister i 0 (I2C.CCMD.i n) true (writeI2cCmd n (0x80000000 + 0x02000000 + addr.toNat * 0x10000))) s

/-- The bus is free and the waiting controller sends its START (R549). -/
def execI2cStartOnFreeBus (n : Fin 2) (s : State) : Host.Outcome State Fault Refusal :=
  act (look fun s => match s.i2cTx n with
    | some t => setI2c n (some { t with waiting := false })
    | none => skip) s

/-- A transaction ends by its STOP with the acknowledges that the target gave, or a recovery with SDA freed or stuck
(R550, R553). RXDATA takes the byte of a READ that ends OK. -/
def execI2cTransactionEnd (n : Fin 2) (addrAck dataAck : Bool) (rx : Byte) (freed : Bool) (s : State) :
    Host.Outcome State Fault Refusal :=
  act (look fun s => match s.i2cTx n with
    | none => skip
    | some t =>
      if t.waiting then skip
      else if t.op == 3 then endI2c n (if freed then 5 else 6)
      else if !addrAck then endI2c n 1
      else if t.op == 1 then endI2c n (if dataAck then 0 else 2)
      else chain [put (I2C.CRES.RXDATA.i n) rx.toNat, endI2c n 0]) s

/-- Arbitration is lost: ARBLOST and the ARB sticky bit (R551). -/
def execArbitrationLost (n : Fin 2) (s : State) : Host.Outcome State Fault Refusal :=
  act (look fun s => match s.i2cTx n with
    | some t => whenA (!t.waiting && t.op != 3)
        (chain [stickI (if n.val = 0 then I2C.STICKY.AARB else I2C.STICKY.BARB) n 0, endI2c n 3])
    | none => skip) s

/-- The target abandons its transaction (R557, R559). -/
def abandonTarget : Act := put I2C.TSTAT.INTX 0

/-- A low-time limit is reached on a port's line (R552, R557): the port's sticky bit, and a controller's transaction ends
with TIMEOUT; one that waits for a free bus ends so on the SDA limit only. The target watches SCL. -/
def execI2cLowTimeout (port : Fin 3) (sda : Bool) (s : State) : Host.Outcome State Fault Refusal :=
  act (look fun s => whenA (s.domOn Dom.core) (
    if port.val = 2 then
      whenA (!sda && s.is I2C.TCFG.EN && !s.is I2C.TSTAT.WAKEHOLD) (chain [abandonTarget, stickI I2C.STICKY.TSCLTO 2 0])
    else chain [
      stickI (match port.val, sda with
        | 0, false => I2C.STICKY.ASCLTO
        | 0, true => I2C.STICKY.ASDATO
        | _, false => I2C.STICKY.BSCLTO
        | _, true => I2C.STICKY.BSDATO) port 0,
      match s.i2cTx port with
      | some t => whenA (!t.waiting || sda) (endI2c port 4)
      | none => skip])) s

/-- A write of CnRECOV.GO (R553). -/
def execBusRecovery (i : Initiator) (n : Fin 2) (s : State) : Host.Outcome State Fault Refusal :=
  act (atRegister i 0 (I2C.CRECOV.i n) true (writeI2cRecov n 1)) s

/-- Whether port T answers an address while CORE is on (R555). -/
def State.targetHears (s : State) (addr : Nat) : Bool :=
  s.domOn Dom.core && s.is I2C.TCFG.EN && s.get I2C.TCFG.ADDR == addr

/-- An external controller writes a byte to port T: stored with RXV and TRX, or refused with TOVR (R555). -/
def execTargetWriteReceived (addr : BitVec 7) (data : Byte) (s : State) : Host.Outcome State Fault Refusal :=
  act (look fun s =>
    whenA (s.targetHears addr.toNat) (chain [put I2C.TSTAT.INTX 0,
      if s.is I2C.RXREG.RXV then stickI I2C.STICKY.TOVR 2 0
      else chain [put I2C.RXREG.BYTE data.toNat, put I2C.RXREG.RXV 1, stickI I2C.STICKY.TRX 2 0]])) s

/-- An external controller reads port T: the latched TXREG byte is served, TXV clears, and STALE tells a byte served with
TXV 0 (R555). -/
def execTargetRead (addr : BitVec 7) (s : State) : Host.Outcome State Fault Refusal :=
  act (look fun s =>
    whenA (s.targetHears addr.toNat) (chain [put I2C.TSTAT.INTX 0,
      put I2C.TSTAT.STALE (if s.is I2C.TXREG.TXV then 0 else 1), put I2C.TXREG.TXV 0,
      stickI I2C.STICKY.TTX 2 0])) s

/-- A read of RXREG returns it and clears RXV (R556). -/
def readRxreg (i : Initiator) : Act := look fun s =>
  chain [answer i (s.reg I2C.RXREG.key).toNat, put I2C.RXREG.RXV 0]

/-- A read of I2C.RXREG (R556). -/
def execRxregRead (i : Initiator) (s : State) : Host.Outcome State Fault Refusal :=
  act (atRegister i 0 I2C.RXREG false (readRxreg i)) s

/-- A write of TXREG stores the byte and sets TXV (R556, R560). -/
def writeTxreg (w : Nat) : Act := chain [put I2C.TXREG.BYTE w, put I2C.TXREG.TXV 1]

/-- A write of I2C.TXREG (R556). -/
def execTxregWrite (i : Initiator) (b : Byte) (s : State) : Host.Outcome State Fault Refusal :=
  act (atRegister i 0 I2C.TXREG true (writeTxreg b.toNat)) s

/-- SCL stays low for TOUT during a transaction of port T (R557); the wake stretch is exempt. -/
def execTargetSclTimeout (s : State) : Host.Outcome State Fault Refusal :=
  act (look fun s =>
    whenA (s.domOn Dom.core && s.is I2C.TCFG.EN && !s.is I2C.TSTAT.WAKEHOLD)
      (chain [abandonTarget, stickI I2C.STICKY.TSCLTO 2 0])) s

/-- The AON matcher hears its address while CORE is off in LISTEN or HIBERNATE: WAKESRC bit 1 and producer 89, and with
WAKEEN bit 1 the acknowledge, SCL held, and the wake (R475, R558). -/
def execTargetWakeMatch (addr : BitVec 7) (k32 : Nat) (s : State) : Host.Outcome State Fault Refusal :=
  act (look fun s =>
    whenA (!s.domOn Dom.core && (s.mode == 2 || s.mode == 3) && s.is I2C.TCFG.EN && s.get I2C.TCFG.ADDR == addr.toNat)
      (chain [onStm fun m => { m with pulses := m.pulses ++ [(89, s.stampNow k32)] },
        whenA (s.is (PWR.WAKEEN.SRC.bit 1)) (chain [put I2C.TSTAT.WAKEHOLD 1, put I2C.TSTAT.INTX 1]),
        wakeSource 1 s.wakeMode k32])) s

/-- The I2C page is restored: SCL is released and the held transaction goes on (R558). -/
def i2cRestore : Act := put I2C.TSTAT.WAKEHOLD 0

/-- CORE closes: transactions in progress are cut and their results lost (R554, R559). -/
def i2cCut : Act := chain [onI2c fun _ => {}, abandonTarget]

end Sys2Proof.Machine
end

