-- ==== Sys2Proof/Machine/Bus.lean ====
section
/-! DEFINITION. Accesses on the bus: reads with the effects their registers give them, writes, narrow and misaligned accesses,
and accesses that wait for the lockstep pair (R9 to R26, R41 to R46, R295 to R300, R341, R626). -/

namespace Sys2Proof.Machine

/-! Writes of registers whose rules go beyond their tables. -/

/-- The index of the register of an array that stands at an offset. -/
def arrayAt (off base stride count : Nat) : Option Nat :=
  if base ≤ off ∧ (off - base) % stride = 0 ∧ (off - base) / stride < count then some ((off - base) / stride) else none

/-- A write of CPU.CTRL (R407): DN0 and the host release DN1 at DN1PC or hold it in reset; a write by DN1 sets LOCKV, and
another initiator's is ignored. -/
def writeDn1run (i : Initiator) (w : Nat) : Act := look fun s =>
  let run := bitOf w 0 == 1
  match i with
  | .core 0 | .host _ =>
    whenA (s.is CPU.CTRL.DN1RUN != run) (chain [put CPU.CTRL.DN1RUN (bitOf w 0), put CPU.STAT.LOCK1 0,
      put CPU.STAT.SLEEP1 0, onCore 1 fun _ => { DnCore.reset 1 with
        pc := s.get CPU.DN1PC.PC * 2
        runs := run }])
  | .core _ => setLockv CPU.CTRL.key 0
  | _ => skip

/-- A write of CPU.DBSET rings the doorbells of its bits (R407). -/
def writeDbset (w : Nat) : Act := eachA ((List.range 2).filter fun c => bitOf w c == 1) fun c => put (CPU.DBSTAT.DB.bit c) 1

/-- A write of THM.CTRL: setting EN restarts reception, clearing it ends it (R275). -/
def writeThmCtrl (w : Nat) : Act := look fun s =>
  chain [plainWrite THM.CTRL.key 0 w, whenA (s.changes THM.CTRL.EN w) (if bitOf w 0 == 1 then thimbleRestart else thimbleRun)]

/-- A write of a register with an enable that RJONLY holds at 0: a write of 1 to it is ignored with RJBLOCK (R246). -/
def writeUnderRj (f : Fld) (v w : Nat) : Act := look fun s =>
  let k := (f.copy v).key
  if s.is BOB.CTRL.RJONLY && bitOf w f.lo == 1 then
    chain [stickV BOB.STICKY.RJBLOCK v, plainWrite k v (withBit w f.lo (s.is (f.copy v)))]
  else plainWrite k v w

/-- A write of BOFF: a MAXBE below the MINBE of the same write is a reserved encoding, and MINBE is taken (R23, R218). -/
def writeBoff (v w : Nat) : Act := judgedWrite (SHU.BOFF.key + v * 0x100000000) v w fun d x => d.lo == 4 && x < bits w 2 0

/-- A write of a lane selector through view `v`: a tenant selects its own lanes only (R297). -/
def writeLaneSel (i : Initiator) (f : Fld) (v w : Nat) : Act := look fun s =>
  if v != 0 && s.laneVi (w % 128) != v then stickV VIF.STICKY.VIEWREF v else put (f.copy (iniCopy i)) (w % 128)

/-- A write of the FLC page by an initiator; every write that is no step of the privileged path ends it (R442). -/
def writeFlc (i : Initiator) (off w : Nat) : Act := look fun s =>
  let own := s.dn0Machine i
  let rom := s.fromRom i
  let other (a : Act) : Act := chain [unlockBroken, a]
  match off with
  | 0x40 => writeUnlk own w
  | 0x44 => writeFlcCmd own rom w
  | 0x48 => writeFlcAddr own rom w
  | _ =>
    match arrayAt off 0x4C 4 4, arrayAt off 0x100 0x10 8, arrayAt off 0x104 0x10 8, arrayAt off 0x10C 0x10 8 with
    | some k, _, _, _ => writeFlcData own rom k w
    | _, some n, _, _ => other (writeQbase n w)
    | _, _, some n, _ => other (writeQcfg n w)
    | _, _, _, some n => other (writeQtail n w)
    | _, _, _, _ => other (plainWrite (FLC.UNLK.key - 0x40 + off) 0 w)

/-- A write of the TIM page (R522 to R526). -/
def writeTim (off w : Nat) : Option Act :=
  match arrayAt off 0x100 0x100 8, arrayAt off 0x104 0x100 8, arrayAt off 0x108 0x100 8, arrayAt off 0x10C 0x100 8 with
  | some n, _, _, _ => some (writeTimerCtrl n w)
  | _, some n, _, _ => some (writeTimerPre n w)
  | _, _, some n, _ => some (writeTimerCmp n w)
  | _, _, _, some n => some (writeTimerCnt n w)
  | _, _, _, _ => none

/-- A write of the TXP page: DCTRL (R155). A transmission keeps its masks and coefficients from its ramp-up on, so that a
write of them is stored at once (R11, R153, R159). -/
def writeTxp (off w : Nat) : Option Act :=
  if off < 0x40 ∨ 0xC0 ≤ off ∨ off % 0x40 ≠ 0x20 then none else some (writeDctrl ((off - 0x40) / 0x40) w)

/-- A write of the RFE page. -/
def writeRfe (off w : Nat) : Option Act :=
  if off = 0xC0 then some (writeCalreq w)
  else if off = 0xE0 then some (writeXotrim w)
  else if off < 0x40 ∨ 0xC0 ≤ off then none
  else
    let n := (off - 0x40) / 0x40
    match off % 0x40 with
    | 0x00 => some (writePcfg n w)
    | 0x04 => some (writePgain n w)
    | 0x0C => some (writePagc n w)
    | 0x18 => some (writePtune n w)
    | _ => none

/-- A write of the DMD page through view `v`. -/
def writeDmd (i : Initiator) (off v w : Nat) : Option Act :=
  match off with
  | 0x08 => some (writeDmdCtrl w)
  | 0x50 => some (writeLaneSel i DMD.CNTSEL.LANE v w)
  | 0x54 => some (writeCntclr v w)
  | 0x70 => some (writeLaneSel i DMD.TAPSEL.LANE v w)
  | _ =>
    match arrayAt off 0x200 4 128, arrayAt off 0x400 4 128, arrayAt off 0x600 4 128 with
    | some n, _, _ => some (writeLane 0 n v w)
    | _, some n, _ => some (writeLane 1 n v w)
    | _, _, some n => some (writeLane 2 n v w)
    | _, _, _ => none

/-- A write of the SHU page through view `v`. -/
def writeShu (off v w : Nat) : Option Act :=
  match off with
  | 0x08 => some (writeShuCtrl w)
  | 0x8C => some (writeBoff v w)
  | 0x90 => some (writeTxsub v w)
  | 0xA0 => some (writeUnderRj SHU.BCNCFG.EN v w)
  | 0xB4 => some (viCommand v (bits w 1 0))
  | _ => none

/-- A write of the PAT page through view `v`. -/
def writePat (i : Initiator) (off v w : Nat) : Option Act :=
  match off with
  | 0x44 => some (writeTdata0 i v w)
  | 0x48 => some (writeTdata1 i v w)
  | 0x60 => some (writePreset v w)
  | _ =>
    match arrayAt off 0x100 8 32, arrayAt off 0x104 8 32 with
    | some h, _ => some (writeSfcfg h v w)
    | _, some h => some (writeSfrange h v w)
    | _, _ => none

/-- A write of the UPD page by an initiator. -/
def writeUpd (i : Initiator) (off v w : Nat) : Option Act :=
  match off with
  | 0x4C => some (writeHconf i w)
  | 0x60 => some (writeSrv w)
  | 0x74 => some (writeChkctrl v w)
  | 0x7C => some (writeJournalReg i (plainWrite UPD.JADDR.key 0 w))
  | 0x80 => some (writeJournalReg i (plainWrite UPD.JDLO.key 0 w))
  | 0x84 => some (writeJournalReg i (plainWrite UPD.JDHI.key 0 w))
  | 0x88 => some (writeJournalReg i (whenA (bitOf w 0 == 1) journalGo))
  | _ => none

/-- A write of a register with rules of its own, by an initiator through view `v`; `none` for a register whose rules are those of
its table. -/
def specialWrite (i : Initiator) (p : Page) (off v w : Nat) : Option Act :=
  match p with
  | .SYS => if off = 0x44 then some (writeRole w) else none
  | .PWR =>
    match off with
    | 0x40 => some (writeModereq w)
    | 0x44 => some (writeDomen w)
    | 0x60 => some (writeRtcsec w)
    | 0x64 => some (writeRtcalm w)
    | 0x68 => some (writeBakcfg w)
    | _ => none
  | .CLK =>
    match off with
    | 0x08 => some (writeClkCtrl w)
    | 0x48 => some (unlessSlaved (plainWrite CLK.SLOTLEN.key 0 w))
    | 0x4C => some (writeTickadj w)
    | 0x5C => some (writeAsnlo w)
    | 0x60 => some (writeAsnhi w)
    | _ => none
  | .FLT =>
    match off with
    | 0x18 => some skip
    | 0x54 => some (popFault w)
    | 0x60 => some (writeInject w)
    | _ => none
  | .REC =>
    if off = 0x08 then some (writeRecCtrl w)
    else match arrayAt off 0x80 4 8, arrayAt off 0x100 4 128 with
      | some k, _ => some (writeTrg k w)
      | _, some k => some (writeRecReg k w)
      | _, _ => none
  | .STM => if off = 0x48 then some (softTrigger w) else none
  | .TIM => writeTim off w
  | .I2C =>
    match off with
    | 0x104 => some (writeI2cCmd 0 w)
    | 0x204 => some (writeI2cCmd 1 w)
    | 0x10C => some (writeI2cRecov 0 w)
    | 0x20C => some (writeI2cRecov 1 w)
    | 0x308 => some (writeTxreg w)
    | _ => none
  | .HIF => if off = 0x54 then some (whenA (bitOf w 0 == 1) (put HIF.HDB.VAL 1)) else none
  | .DBG =>
    match arrayAt off 0x50 4 3, arrayAt off 0x60 4 3 with
    | some r, _ => some (writeSecmap i r w)
    | _, some r => some (writeSecmap i (r + 3) w)
    | _, _ => if off = 0x44 then some (writeSeal i w) else none
  | .FLC => some (writeFlc i off w)
  | .MEM => if off = 0x60 then some (writeLogclr i w) else none
  | .SEC =>
    match off with
    | 0x74 => some (writeJctrl v w)
    | 0x88 => some (writeEntctrl w)
    | 0xD0 => some (writeHctrl w)
    | _ => none
  | .KEY => if off = 0x40 then some (writeKcmd v w) else none
  | .CMD => if off = 0x80 then some (writeGo 0 w) else (arrayAt off 0x40 4 16).map fun k => writeBlk k w
  | .RFE => writeRfe off w
  | .RXS => if off = 0x08 then some (writeRxsCtrl w) else none
  | .CHZ =>
    if 0x60 ≤ off ∧ off < 0x80 then some (writePlan (CHZ.WCFG.key - 0x40 + off) w)
    else (arrayAt off 0x40 4 4).map fun k => writeWindow k w
  | .DMD => writeDmd i off v w
  | .FEC => if 0x40 ≤ off ∧ off < 0x60 then some (writeFecMap (FEC.RSCMAP.key - 0x40 + off) w) else none
  | .TXP => writeTxp off w
  | .FRM =>
    match off with
    | 0x54 => some (writeUnderRj FRM.ACKCFG.ACKEN v w)
    | 0x80 => some (writeRingArea FRM.RINGBASE.OFF v w)
    | 0x84 => some (writeRingcfg v w)
    | 0x88 => some (writeRingArea FRM.DATABASE.OFF v w)
    | 0x90 => some (writeRdidx v w)
    | _ => none
  | .SHU => writeShu off v w
  | .PAT => writePat i off v w
  | .BOB =>
    match off with
    | 0x08 => some (writeBobCtrl w)
    | 0x48 => some (writeDead w)
    | 0x5C => some (takeBobCmd i v (bits w 31 28) (w % 4096))
    | _ => none
  | .DUT =>
    if off = 0x60 then some (writeDwmax v w)
    else match arrayAt off 0x8C 0x10 8, arrayAt off 0x100 4 16 with
      | some sb, _ => some (writeSbsw sb v w)
      | _, some n => some (writeShare n v w)
      | _, _ => none
  | .THM =>
    match off with
    | 0x08 => some (writeThmCtrl w)
    | 0x40 => some (writeThimble (some (w % 2 ^ 21)))
    | _ => none
  | .CAS =>
    match off with
    | 0x08 => some (writeCasCtrl w)
    | 0x68 => some (writeRctrl w)
    | _ => none
  | .LMP =>
    match off with
    | 0x08 => some (chain [plainWrite LMP.CTRL.key 0 w, settleLamps])
    | 0x50 => some (writeNtccfg w)
    | 0x58 => some (writeRelay w)
    | _ => (arrayAt off 0x100 0x100 4).map fun n => writeLampEn n (bitOf w 0 == 1)
  | .GAU =>
    if off = 0x58 then some (writeChg w)
    else if 0x60 ≤ off ∧ off < 0x78 then some (writeOcv ((off - 0x60) / 4) w) else none
  | .MTR => if off = 0x08 then some (writeMtrCtrl w) else none
  | .UPD => writeUpd i off v w
  | .GIO =>
    match off with
    | 0x44 => some (chain [look fun s => put GIO.OUT.P (s.get GIO.OUT.P ||| w % 2 ^ 30), gpioDrive])
    | 0x48 => some (chain [look fun s => put GIO.OUT.P (s.get GIO.OUT.P - (s.get GIO.OUT.P &&& w % 2 ^ 30)), gpioDrive])
    | 0x40 => some (chain [plainWrite GIO.OUT.key 0 w, gpioDrive])
    | 0x4C => some (chain [plainWrite GIO.OE.key 0 w, gpioDrive])
    | 0x54 => some (chain [plainWrite GIO.OD.key 0 w, gpioDrive])
    | _ => none
  | .CPU =>
    match off with
    | 0x08 => some (writeDn1run i w)
    | 0x44 => some (writeDbset w)
    | _ => none
  | .MOV =>
    match arrayAt off 0x100 0x10 16, arrayAt off 0x104 0x10 16 with
    | some c, _ => some (writeMovCtrl c w)
    | _, some c => some (writeMovDesc c w)
    | _, _ => none
  | .NVS | .REF | .VIF => none

/-- A write of a register that the route reaches (R12, R14, R25, R297). -/
def writeReg (i : Initiator) (p : Page) (off v w : Nat) : Act :=
  match specialWrite i p off v w, findReg p.table off with
  | some a, _ => a
  | none, none => skip
  | none, some d => whenA (!(v != 0 && (off == 0x18 || off == 0x1C))) (plainWrite (regKey p off d (some i) v) v w)

/-! Reads of registers with effects (R10). -/

/-- The field of a log that a read clears, and the counters that it clears. -/
def readClears (i : Initiator) (p : Page) (off v : Nat) : Act :=
  let all (f : Fld) : Act := put { f with lo := 0, width := 32 } 0
  match p, off with
  | .RXS, 0x48 | .RXS, 0x4C | .RXS, 0x58 | .RXS, 0x5C => all (RXS.PPEAK.PK.copy 0 |> fun f => { f with key := f.key - 0x48 + off })
  | .DMD, 0x4C => all DMD.NOLANE
  | .FEC, 0x68 => look fun s => onLane (s.sel (some i) FEC.LANESEL.LANE) fun l => { l with coded := 0 }
  | .FEC, 0x6C => look fun s => onLane (s.sel (some i) FEC.LANESEL.LANE) fun l => { l with diffs := 0 }
  | .FRM, 0x94 => put (FRM.RXDROP.CNT.copy v) 0
  | .FRM, 0xA0 => all FRM.CNT0
  | .FRM, 0xA4 => all FRM.CNT1
  | .SHU, 0x98 => put (SHU.QCNT.DONELOST.copy v) 0
  | .SHU, 0x9C => put (SHU.PREEMPT.CNT.copy v) 0
  | .BOB, 0x58 => put (BOB.CTXFULLN.CNT.copy v) 0
  | .BOB, 0x74 => put (BOB.REJLOG.V.copy v) 0
  | .DUT, 0x58 => look fun s => whenA (v == 0 || s.get DUT.DENYLOG.VI == v) (put DUT.DENYLOG.V 0)
  | .DUT, 0x5C => put (DUT.DENYCNT.CNT.copy v) 0
  | .THM, 0x50 => put THM.LAST.V 0
  | .THM, 0x58 => all THM.CNT0
  | .THM, 0x5C => all THM.CNT1
  | .VIF, 0x58 => put VIF.VIOLLOG.V 0
  | .CAS, 0x50 => put CAS.LOSSLOG.V 0
  | .CAS, 0x54 => all CAS.LINKERR
  | .CAS, 0x58 => all CAS.RELAYCNT
  | .CAS, 0x5C => put CAS.HOLOG.V 0
  | .FLT, 0x58 => all FLT.RECCNT
  | .FLT, 0x64 => put FLT.CKPT.CKPTX 0
  | .CMD, 0x84 => put CMD.RESULT.V 0
  | .CPU, 0x84 | .CPU, 0xC4 => put (CPU.XCAUSE.V.i ((off - 0x84) / 0x40)) 0
  | .CPU, 0xA8 | .CPU, 0xE8 => all (CPU.CACHEERR.i ((off - 0xA8) / 0x40))
  | .FLC, 0x60 => all FLC.SUSPCNT
  | .FLC, 0x70 => put FLC.REPLOG.V 0
  | .MEM, 0x4C => all MEM.MAXLAP
  | .MEM, 0x54 => look fun s => let m := s.sel (some i) MEM.LOGSEL.NUM
      onEcc fun e => { e with
        ce := setAt e.ce m 0
        ue := setAt e.ue m 0 }
  | .MEM, 0x58 => look fun s => onEcc fun e => { e with last := e.last.modify (s.sel (some i) MEM.LOGSEL.NUM) fun x => (x.1, false) }
  | .MEM, 0x5C => look fun s => onEcc fun e => { e with lost := setAt e.lost (s.sel (some i) MEM.LOGSEL.NUM) 0 }
  | .PWR, 0x50 => all PWR.WAKESRC
  | .PWR, 0x5C => put PWR.FENCELOG.V 0
  | .LMP, 0x6C => all LMP.OTCNT
  | .LMP, 0x114 | .LMP, 0x214 | .LMP, 0x314 | .LMP, 0x414 => put (LMP.FLOG.V.i ((off - 0x114) / 0x100)) 0
  | .LMP, 0x11C | .LMP, 0x21C | .LMP, 0x31C | .LMP, 0x41C => all (LMP.FCNT.i ((off - 0x11C) / 0x100))
  | .REF, 0x54 => put REF.SWLOG.V 0
  | .REC, 0x50 => all REC.FROZCNT
  | .REC, 0x58 => all REC.LOSTCNT
  | .HIF, 0x0C => put HIF.STAT.WROVF 0
  | .HIF, 0x60 => put HIF.ERRLOG.V 0
  | .CMD, o => look fun s => whenA (0xC0 ≤ o && o < 0x100 && (s.record (0x2803FC00 + 8 * ((o - 0xC0) / 4))).isNone)
      (stick CMD.STICKY.CTRBAD)
  | .FLT, o => whenA (0x80 ≤ o && o < 0xA8) (all ({ FLT.LOST with key := FLT.LOST.key - 0x80 + o }))
  | _, _ => skip

/-- The level of an I2C line, which the model does not hold: a free value (notes/assumptions/3.md). -/
def readCres (i : Initiator) (n : Nat) : Act := look fun s => draw fun x =>
  answer i ((setField (BitVec.ofNat 32 (s.peek (some i) .I2C (0x108 + 0x100 * n) 0)) 16 2 x).toNat)

/-- Whether a tenant's read of the lane counters or taps finds a lane selected that it does not own (R297). -/
def State.selRefused (s : State) (i : Initiator) (p : Page) (off v : Nat) : Bool :=
  p == .DMD && v != 0 &&
    ((0x58 ≤ off && off < 0x6C && s.laneVi (s.sel (some i) DMD.CNTSEL.LANE) != v)
      || (0x74 ≤ off && off < 0x88 && s.laneVi (s.sel (some i) DMD.TAPSEL.LANE) != v))

/-- A read of a register that the route reaches (R10, R12, R297). -/
def readReg (i : Initiator) (p : Page) (off v : Nat) : Act := look fun s =>
  if s.selRefused i p off v then chain [answer i 0, stickV VIF.STICKY.VIEWREF v] else
  match p, off with
  | .CLK, 0x40 => readTblo i
  | .CLK, 0x5C => readAsnlo i
  | .SEC, 0x80 => readRng i v
  | .SHU, 0x94 => readTxdone i v
  | .PAT, 0x44 => readTdata i v false
  | .PAT, 0x48 => readTdata i v true
  | .I2C, 0x108 => readCres i 0
  | .I2C, 0x208 => readCres i 1
  | .I2C, 0x304 => readRxreg i
  | .MTR, 0x64 => readRstat i
  | .MTR, 0x68 => readEnergy i MTR.EACC
  | .MTR, 0x6C => readEnergy i MTR.EREV
  | _, _ => chain [look fun s => answer i (s.peek (some i) p off v), readClears i p off v]

/-! Accesses. -/

/-- Whether an access to a register waits for the lockstep pair (R341). -/
def State.pairHolds (s : State) (p : Page) : Bool := s.shu.pair.stage != 0 && (p == .SHU || p == .PAT)

/-- Whether an access has to wait for the lockstep pair (R341). -/
def State.mustWait (s : State) (i : Initiator) (a : Nat) (w : Option Nat) : Bool :=
  match s.route i a w.isSome with
  | .reg p _ _ => s.pairHolds p
  | _ => false

/-- A register access through view `v`, of which a read asks for `n` bytes from byte `at_` on: it waits, or takes place. -/
def regAccess (i : Initiator) (p : Page) (off v at_ n : Nat) (w : Option Nat) : Act := look fun s =>
  if s.pairHolds p then
    onBus fun b => { b with waiting := b.waiting ++
      [{ ini := i, view := v, key := pageBase + p.code * 0x1000 + off, word := w, byte := at_, size := n }] }
  else match w with
    | some x => if p == .PWR && refusesPwr i then stick PWR.STICKY.WREF else writeReg i p off v x
    | none => chain [readReg i p off v, look fun t => whenA (n < 4) (answer i (t.answered i / 256 ^ at_ % 256 ^ n))]

/-- A read of memory by an initiator: a flash bank is asked to suspend (R435), and words with errors are met (R456, R460). -/
def meetMem (a n : Nat) : Act :=
  chain [match bankAt a with | some b => busyRead b | none => skip, touch a n]

/-- A write of `n` bytes that lies inside one 64-bit word (R9, R12, R42 to R46). A narrow or misaligned write inside a page
sets RSVD of the page even at an offset that holds no register, where R12 sets no bit: R9 names the page and not the register
(DESIGN CHOICE, notes/assumptions/57.md). -/
def busWrite (i : Initiator) (a n w : Nat) : Act := look fun s =>
  match s.route i (a / 4 * 4) true with
  | .reg p off v =>
    if n == 4 && a % 4 == 0 then regAccess i p off v 0 4 (some (w % 2 ^ 32)) else setRsvd (pageBase + p.code * 0x1000) v
  | .mem _ =>
    match s.route i a true with
    | .mem q => storeMem q n w
    | r => refusal i a r
  | r => refusal i a r

/-- A read of `n` bytes; memory words with errors are met (R9, R456, R460). A misaligned read inside a page sets RSVD as a
write does (notes/assumptions/57.md). -/
def busRead (i : Initiator) (a n : Nat) : Act := look fun s =>
  match s.route i (a / 4 * 4) false with
  | .reg p off v =>
    if (n == 4 && a % 4 != 0) || 4 < a % 4 + n then chain [answer i 0, setRsvd (pageBase + p.code * 0x1000) v]
    else regAccess i p off v (a % 4) n none
  | .mem _ =>
    match s.route i a false with
    | .mem q => chain [meetMem q n, answer i (s.load q n)]
    | r => chain [answer i 0, refusal i a r]
  | r => chain [answer i 0, refusal i a r]

/-- A read, or a write of a word. -/
def busAccess (i : Initiator) (a n : Nat) (w : Option Word) : Act :=
  match w with
  | some x => busWrite i a n x.toNat
  | none => busRead i a n

/-- The accesses that wait are made again; one whose reason to wait still stands waits again (R341). -/
def replay : Act := look fun s => chain [onBus fun b => { b with waiting := [] },
  eachA s.bus.waiting fun x =>
    match Page.ofCode (addrPage (keyAddr x.key)) with
    | some p => regAccess x.ini p (keyAddr x.key % 0x1000) x.view x.byte x.size x.word
    | none => skip]

/-- Where the register at an offset of a page lies for view `v`. -/
def viewPlace (p : Page) (off v : Nat) : Nat :=
  match pageView p with
  | some n => if v = 0 then pageBase + p.code * 0x1000 + off else Base.window + v * 0x100000 + n * 0x1000 + off
  | none => pageBase + p.code * 0x1000 + off

/-! The commands. -/

/-- A write of a register that has no row of its own (R25). -/
def execRegisterWrite (i : Initiator) (a w : Word) (s : State) : Host.Outcome State Fault Refusal :=
  act (busWrite i a.toNat 4 w.toNat) s

/-- The width of a narrow access: 1, 2 or 4 bytes. -/
def accessWidth (n : Fin 3) : Nat := 2 ^ n.val

/-- An access narrower than a word, or misaligned (R9). -/
def execNarrowOrMisalignedAccess (i : Initiator) (a : Word) (n : Fin 3) (w : Option Word) (s : State) :
    Host.Outcome State Fault Refusal :=
  act (busAccess i a.toNat (accessWidth n) w) s

/-- An access to an address in no region and no page (R13, R43). -/
def execUnmappedAccess (i : Initiator) (a : Word) (w : Option Word) (s : State) : Host.Outcome State Fault Refusal :=
  act (busAccess i (a.toNat / 4 * 4) 4 w) s

/-- An access to a page or region whose domain is off (R41, R46). -/
def execDomainOffAccess (i : Initiator) (a : Word) (w : Option Word) (s : State) : Host.Outcome State Fault Refusal :=
  act (look fun _ => busAccess i (a.toNat / 4 * 4) 4 w) s

/-- A store to boot ROM or flash (R44). -/
def execRomFlashStore (i : Initiator) (a : Word) (n : Fin 3) (w : Word) (s : State) : Host.Outcome State Fault Refusal :=
  act (busWrite i (a.toNat / accessWidth n * accessWidth n) (accessWidth n) w.toNat) s

/-- A write of STICKY of a page through view `v` (R15, R298). -/
def execStickyClear (i : Initiator) (p : Fin 38) (v : Fin 16) (w : Word) (s : State) : Host.Outcome State Fault Refusal :=
  act (match Page.ofCode p with
    | some q => busWrite i (viewPlace q 0x10 v) 4 w.toNat
    | none => skip) s

/-- A write of LOCK of a page (R21). -/
def execLockWrite (i : Initiator) (p : Fin 38) (v : Fin 16) (w : Word) (s : State) : Host.Outcome State Fault Refusal :=
  act (match Page.ofCode p with
    | some q => busWrite i (viewPlace q 0x1C v) 4 w.toNat
    | none => skip) s

/-- A read of a register that a read clears (R10). -/
def execReadToClear (i : Initiator) (a : Word) (s : State) : Host.Outcome State Fault Refusal :=
  act (busRead i (a.toNat / 4 * 4) 4) s

/-- An access through a tenant's window to what its view does not show (R297). -/
def execViewRefused (i : Initiator) (v : Fin 16) (off : Fin 0x100000) (w : Option Word) (s : State) :
    Host.Outcome State Fault Refusal :=
  act (busAccess i (Base.window + v * 0x100000 + off / 4 * 4) 4 w) s

/-- An access of a bound initiator outside its virtual interface (R300). -/
def execBindViolation (i : Initiator) (a : Word) (n : Fin 3) (w : Option Word) (s : State) : Host.Outcome State Fault Refusal :=
  act (busAccess i (a.toNat / accessWidth n * accessWidth n) (accessWidth n) w) s

/-- A target member performs a remote access of 1 to 16 words, or refuses it (R326). -/
def execRemoteAccessServe (a : Word) (n : Fin 16) (words : Option (List Word)) (s : State) :
    Host.Outcome State Fault Refusal :=
  act (look fun s => whenA (s.domOn Dom.mac && s.linkLive && s.is CAS.CTRL.REMEN) (chain [
    onCas fun c => { c with served := [] },
    eachA (List.range (n + 1)) fun k =>
      let at_ := a.toNat / 4 * 4 + 4 * k
      match words with
      | some l => busWrite .remote at_ 4 (l.getD k 0).toNat
      | none => chain [busRead .remote at_ 4,
          look fun t => onCas fun c => { c with served := c.served ++ [t.answered .remote] }]])) s

/-- A write of CPU.CTRL (R407). -/
def execDn1runWrite (i : Initiator) (run : Bool) (s : State) : Host.Outcome State Fault Refusal :=
  act (atRegister i 0 CPU.CTRL.DN1RUN true (writeDn1run i (if run then 1 else 0))) s

/-- A write of CPU.DBSET (R407). -/
def execDbsetWrite (i : Initiator) (w : Word) (s : State) : Host.Outcome State Fault Refusal :=
  act (atRegister i 0 CPU.DBSET true (writeDbset w.toNat)) s

/-- A write of HIF.HDBSET sets the host doorbell (R568). -/
def execHdbsetWrite (i : Initiator) (set : Bool) (s : State) : Host.Outcome State Fault Refusal :=
  act (atRegister i 0 HIF.HDBSET true (whenA set (put HIF.HDB.VAL 1))) s

end Sys2Proof.Machine
end

