-- ==== Sys2Proof/Machine/HostLink.lean ====
section
/-! DEFINITION. The host SPI link (R561 to R570). -/

namespace Sys2Proof.Machine

/-- An action of work that was in flight when a fence started: it goes on in the closing domains (R472). -/
def unfenced (early : Bool) (a : Act) : Act := look fun s =>
  if early && s.pwr.closing != 0 then
    chain [onPwr fun p => { p with closing := 0 }, a, onPwr fun p => { p with closing := s.pwr.closing }]
  else a

/-- ERRLOG keeps the first error until it is read, and the sticky bit of the error is set (R567). -/
def hostError (kind : Nat) (vi field : Nat) (sticky : Option Fld) : Act := look fun s =>
  chain [whenA (!s.is HIF.ERRLOG.V) (chain [put HIF.ERRLOG.KIND kind, put HIF.ERRLOG.VI vi, put HIF.ERRLOG.ADDR field,
      put HIF.ERRLOG.V 1]),
    match sticky with | some f => stick f | none => skip]

/-- The bus address of a word (R563). -/
def hostAddr (vi : Fin 16) (seg field : Nat) : Nat :=
  if vi = 0 then seg * 2 ^ 24 + field / 4 * 4 else Base.window + vi * 0x100000 + field / 4 * 4

/-- Whether a word's address lies past the end of the segment, or of the window (R567). -/
def hostPast (vi : Fin 16) (field : Nat) : Bool := if vi = 0 then 0xFFFFFC < field / 4 * 4 else 0x0FFFFC < field / 4 * 4

/-- Whether a transaction is refused whole, but for the address (R567). -/
def State.hostRefused (s : State) (vi : Fin 16) : Bool :=
  vi.val != 0 && (!s.is (VIF.HOSTEN.V.bit (vi - 1)) || !s.viOpen vi)

/-- A refusal of a bound host (R300, R567). -/
def hostVirefAt (vi : Fin 16) (field : Nat) : Act := look fun s =>
  chain [hostError 2 vi field (some HIF.STICKY.VIREF),
    whenA (s.domOn Dom.mac) (bindViolation (.host vi) vi (hostAddr vi 0 field))]

/-- The error of a word past the end of its burst's range (R567). -/
def hostPastAt (vi : Fin 16) (field : Nat) : Act :=
  if vi = 0 then hostError 7 0 (field % 2 ^ 24) (some HIF.STICKY.SEGEND) else hostVirefAt vi field

/-- An access of a burst: a word of an aperture is placed by the APOFS with which the burst started (R296). -/
def burstAccess (a ap : Nat) (early : Bool) (x : Act) : Act := look fun s =>
  let v := (a - Base.window) / 0x100000
  let f := VIF.APOFS.OFF.copy v
  if Base.window ≤ a && a < 0x51000000 && 0x80000 ≤ a % 0x100000 && s.get f != ap then
    chain [put f ap, unfenced early x, put f (s.get f)]
  else unfenced early x

/-- APOFS of every VI. -/
def State.apofs (s : State) : List Nat := (List.range 16).map fun v => s.get (VIF.APOFS.OFF.copy v)

/-- APOFS of the VI in whose window an address lies. -/
def apAt (aps : List Nat) (a : Nat) : Nat := aps.getD ((a - Base.window) / 0x100000) 0

/-! Writes (R566). -/

/-- The head of the write FIFO is performed, unless it has to wait. -/
def fifoHead : Act := look fun s =>
  match s.hif.fifo with
  | [] => skip
  | h :: l =>
    whenA (!s.mustWait (.host h.vi) h.addr (some h.word)) (chain [onHif fun x => { x with fifo := l },
      burstAccess h.addr h.ap h.early (busWrite (.host h.vi) h.addr 4 h.word)])

/-- The FIFO is drained as far as no word has to wait. -/
def drainFifo : Act := chain (List.replicate 16 fifoHead)

/-- The words of a write burst arrive. Before word `k` the device performs `drains k` words of the FIFO. -/
def writeBurst (vi : Fin 16) (fixed : Bool) (seg : Nat) (aps : List Nat) (early : Bool) : Nat → List Word → List Nat → Act
  | _, [], _ => skip
  | field, w :: ws, drains =>
    let a := hostAddr vi seg field
    if hostPast vi field then hostPastAt vi field
    else chain [chain (List.replicate (drains.headD 0) fifoHead), look fun s =>
      if 16 ≤ s.hif.fifo.length then
        chain [addSat HIF.STAT.WROVF 1, hostError 6 vi field (some HIF.STICKY.WROVF)]
      else onHif fun x => { x with fifo := x.fifo ++ [⟨vi, field, a, apAt aps a, early, w.toNat⟩] },
      writeBurst vi fixed seg aps early (if fixed then field else field + 4) ws drains.tail]

/-- A write transaction; `abort` says that HCSN rose within a further word. -/
def hostWrite (vi : Fin 16) (fixed : Bool) (field : Nat) (words : List Word) (drains : List Nat) (abort : Bool) : Act :=
  look fun s => whenA (s.domOn Dom.core) (chain [
    if s.hostRefused vi || hostPast vi field then hostVirefAt vi field
    else writeBurst vi fixed (s.get HIF.SEG.VAL) s.apofs (s.pwr.closing == 0) field words drains,
    whenA abort (stick HIF.STICKY.ABORT)])

/-- A WR transaction. -/
def execWr (vi : Fin 16) (a : BitVec 24) (words : List Word) (drains : List Nat) (abort : Bool) (s : State) :
    Host.Outcome State Fault Refusal :=
  act (hostWrite vi false (a.toNat / 4 * 4) words drains abort) s

/-- A WRF transaction. -/
def execWrf (vi : Fin 16) (a : BitVec 24) (words : List Word) (drains : List Nat) (abort : Bool) (s : State) :
    Host.Outcome State Fault Refusal :=
  act (hostWrite vi true (a.toNat / 4 * 4) words drains abort) s

/-- The device performs a word of the FIFO. -/
def execHostFifoWrite (s : State) : Host.Outcome State Fault Refusal :=
  act (look fun s => whenA (s.domOn Dom.core) fifoHead) s

/-! Reads (R564, R565). -/

/-- FAIL for the words left of a read burst. -/
def failRest : Act := onHif fun h => match h.read with
  | some r => { h with
      out := h.out ++ List.replicate r.left (0x5, 0)
      read := none }
  | none => h

/-- A word of a read burst has been read: GO and the word, and the burst advances. -/
def wordRead : Act := look fun s =>
  match s.hif.read with
  | some r => onHif fun h => { h with
      out := h.out ++ [(0xA, s.answered (.host r.vi))]
      read := some { r with
        field := if r.fixed then r.field else r.field + 4
        left := r.left - 1
        since := s.tb
        issued := false } }
  | none => skip

/-- A read burst goes on until its words are read, a word has to wait, or one fails (R567). -/
def readBurst : Nat → Act
  | 0 => skip
  | n + 1 => look fun s =>
    match s.hif.read with
    | none => skip
    | some r =>
      let i := Initiator.host r.vi
      let a := hostAddr r.vi r.seg r.field
      let bad := match s.route i a false with | .mem q => s.ue q 4 | _ => false
      if !s.hif.fifo.isEmpty || r.issued then skip
      else if r.left = 0 then onHif fun h => { h with read := none }
      else if hostPast r.vi r.field then chain [hostPastAt r.vi r.field, failRest]
      else if s.mustWait i a none then
        chain [onHif fun h => { h with read := some { r with issued := true } }, busRead i a 4]
      else if bad then chain [burstAccess a (apAt r.aps a) r.early (busRead i a 4),
        hostError 3 r.vi r.field (some HIF.STICKY.HECC), failRest]
      else chain [burstAccess a (apAt r.aps a) r.early (busRead i a 4), wordRead, readBurst n]

/-- Whatever a read burst can do now: the FIFO is emptied first (R566). -/
def readOn : Act := look fun s =>
  match s.hif.read with
  | some r => chain [drainFifo, readBurst (r.left + 1)]
  | none => skip

/-- A read transaction of `n` words. -/
def hostRead (vi : Fin 16) (fixed : Bool) (field n : Nat) : Act := look fun s =>
  let start : HostRead := { vi, fixed, field, seg := s.get HIF.SEG.VAL, aps := s.apofs, early := s.pwr.closing == 0
                            left := n, since := s.tb, issued := false }
  whenA (s.domOn Dom.core) (chain [
    onHif fun h => { h with
      out := []
      read := some start },
    if s.hostRefused vi || hostPast vi field then chain [hostVirefAt vi field, failRest] else readOn])

/-- A RD transaction. -/
def execRd (vi : Fin 16) (a : BitVec 24) (n : Nat) (s : State) : Host.Outcome State Fault Refusal :=
  act (hostRead vi false (a.toNat / 4 * 4) n) s

/-- A RDF transaction. -/
def execRdf (vi : Fin 16) (a : BitVec 24) (n : Nat) (s : State) : Host.Outcome State Fault Refusal :=
  act (hostRead vi true (a.toNat / 4 * 4) n) s

/-- A read word is not ready after WAITTO µs (R565). -/
def execHostWaitTimeout (s : State) : Host.Outcome State Fault Refusal :=
  act (look fun s => match s.hif.read with
    | none => skip
    | some r => whenA (s.domOn Dom.core) (chain [until_ (r.since + 4 * s.get HIF.CFG.WAITTO),
        hostError 4 r.vi r.field (some HIF.STICKY.WAITTO), failRest])) s

/-- The accesses that waited are made, and a read burst whose word waited goes on (R341, R565). -/
def resumeWaiting : Act := chain [replay, look fun s =>
  let stillWaits := s.bus.waiting.any fun x => (match x.ini with | .host _ => true | _ => false) && x.word.isNone
  match s.hif.read with
  | some r => whenA (!stillWaits) (chain [whenA r.issued wordRead, readOn])
  | none => skip]

/-! The other opcodes (R562). -/

/-- A RDSR transaction returns HSTAT. -/
def execRdsr (s : State) : Host.Outcome State Fault Refusal :=
  act (look fun s => whenA (s.domOn Dom.core) (onHif fun h => { h with
    out := [(0, s.peek (some (.host 0)) .HIF 0x48 0)] })) s

/-- A SEG transaction. -/
def execSeg (b : Byte) (s : State) : Host.Outcome State Fault Refusal :=
  act (look fun s => whenA (s.domOn Dom.core) (put HIF.SEG.VAL b.toNat)) s

/-- A transaction with another opcode. What ERRLOG holds in VI and address is not stated: a free value. -/
def execBadOpcode (op : Byte) (s : State) : Host.Outcome State Fault Refusal :=
  act (look fun s =>
    whenA (s.domOn Dom.core && !([0x0B, 0x0D, 0x32, 0x34, 0x05, 0x31].contains op.toNat))
      (chain [onHif fun h => { h with out := [] },
        draw fun x => hostError 1 (x / 2 ^ 24 % 16) (x % 2 ^ 24) (some HIF.STICKY.BADOP)])) s

/-! Ends of the waits of R341 and R345. -/

/-- The restore of the lockstep pair ends (R342, R343). Accesses still waiting when a further fault brought the pair down are
made as well. -/
def execRestoreComplete (good : Bool) (s : State) : Host.Outcome State Fault Refusal :=
  act (look fun s => whenA (s.domOn Dom.mac && s.shu.pair.stage != 1)
    (chain [whenA (s.shu.pair.stage == 2) (restoreEnds good), resumeWaiting])) s

/-- The oldest repair of the Bobbin ends (R345). -/
def execBobbinRepairDone (s : State) : Host.Outcome State Fault Refusal :=
  act (look fun s => match s.bob.repairs with
    | [] => skip
    | r :: _ => chain [repairEnds r, resumeWaiting]) s

end Sys2Proof.Machine
end

