-- ==== Sys2Proof/Machine/Copy.lean ====
section
/-! DEFINITION. What the Mover's channels move (R46, R449 to R451, R461). -/

namespace Sys2Proof.Machine

/-- The octets that FILL puts at an address: the byte at `x` takes pattern byte `x mod 4` (R449). -/
def fillOctets (pattern a n : Nat) : List Nat := (List.range n).map fun j => pattern / 256 ^ ((a + j) % 4) % 256

/-- The bytes of a beat: a whole word where a side lies in register pages, else what an aligned 8-byte beat of the destination
takes (R451). -/
def beatLen (d : List Nat) (src dst left : Nat) : Nat :=
  if isRegister dst || (dOp d != 1 && isRegister src) then 4 else min (8 - dst % 8) left

/-- The channel stores the octets of a beat. -/
def beatStore (c dst : Nat) (l : List Nat) : Act := look fun s =>
  let i := moverOf c
  match s.route i dst true with
  | .reg _ _ _ => busWrite i dst 4 (leNat l)
  | .mem q => storeOctets 2 q l
  | r => refusal i dst r

/-- Whether a beat is a narrow write of a word with an uncorrectable error (R462). -/
def State.beatFails (s : State) (c dst n : Nat) : Bool :=
  match s.route (moverOf c) dst true with
  | .mem q => n < 8 && s.ue q n && (s.hidden q).isNone &&
      !(Base.mram ≤ q && q < 0x28040000 && (s.mramRefusal q).isSome)
  | _ => false

/-- A beat has been moved. -/
def beatMoved (c n : Nat) : Act := chain [onMovCh c fun m => { m with moved := m.moved + n },
  look fun s => put (MOV.CSTAT.BYTES.i c) (s.movCh c).moved]

/-- The channel stores the octets of a beat and counts them; a narrow write that meets an uncorrectable error ends the
descriptor (R451, R462). -/
def beatWrite (c dst n : Nat) (l : List Nat) : Act := look fun s =>
  chain [beatStore c dst l,
    if s.beatFails c dst n then onMovCh c fun x => { x with status := some Status.eccUncorr } else beatMoved c n]

/-- Whether an access of a channel meets a memory region whose domain is off (R46). -/
def State.meetsOff (s : State) (i : Initiator) (a : Nat) (write : Bool) : Bool :=
  s.route i a write == .domOff && !isRegister a

/-- One beat of a channel's descriptor, if one is left and it need not wait (R341). A read that meets an uncorrectable error ends
the descriptor with ECC_UNCORR, a region whose domain is off with ABORTED_PD (R46, R473). -/
def moverBeat (c : Nat) : Act := look fun s =>
  let m := s.movCh c
  let d := m.desc.getD []
  let i := moverOf c
  let row := m.moved / dLen d
  let col := m.moved % dLen d
  let src := (dSrc d row).toNat + col
  let dst := (dDst d row).toNat + col
  let n := beatLen d src dst (dLen d - col)
  let off := (if s.meetsOff i dst true then [dst] else []) ++ (if dOp d != 1 && s.meetsOff i src false then [src] else [])
  if m.status.isSome || !m.moving || dTotal d ≤ m.moved then skip
  else if !off.isEmpty then
    chain [refusal i (off.headD 0) .domOff, onMovCh c fun x => { x with status := some Status.abortedPd }]
  else if dOp d == 1 then
    whenA (!s.mustWait i dst (some 0)) (beatWrite c dst n (fillOctets (dWord d 1) dst n))
  else if s.mustWait i src none || s.mustWait i dst (some 0) then skip
  else match s.route i src false with
    | .mem q =>
      if s.ue q n then chain [meetMem q n, onMovCh c fun x => { x with status := some Status.eccUncorr }]
      else chain [meetMem q n, beatWrite c dst n (leOctets n (s.load q n))]
    | .reg _ _ _ => chain [busRead i src 4, look fun t => beatWrite c dst n (leOctets 4 (t.answered i))]
    | r => chain [refusal i src r, beatWrite c dst n (leOctets n 0)]

/-- Some beats of a channel; work in flight goes on in closing domains (R472). -/
def moverBeats (c : Nat) : Nat → Act
  | 0 => skip
  | n + 1 => chain [unfenced true (moverBeat c), moverBeats c n]

/-- A running channel's descriptor with an operation is checked, unless it has been, and moves some beats (R450, R451). -/
def moverRun (c op beats : Nat) : Act := look fun s =>
  let m := s.movCh c
  match m.desc with
  | none => skip
  | some d =>
    whenA (s.domOn Dom.core && s.get (MOV.CSTAT.STATE.i c) == 2 && m.status.isNone && dOp d == op) (chain [
      whenA (!m.moving) (match s.dCheck c d with
        | some (st, a) => chain [
            match a with | some x => bindViolation (moverOf c) (s.boundTo (moverOf c)) x | none => skip,
            onMovCh c fun x => { x with status := some st }]
        | none => onMovCh c fun x => { x with moving := true }),
      moverBeats c beats])

/-- A descriptor with OP COPY is checked and started, or goes on; `beats` of its beats are moved. -/
def execMoverCopy (c : Fin 16) (beats : Nat) (s : State) : Host.Outcome State Fault Refusal := act (moverRun c 0 beats) s

/-- A descriptor with OP FILL. -/
def execMoverFill (c : Fin 16) (beats : Nat) (s : State) : Host.Outcome State Fault Refusal := act (moverRun c 1 beats) s

/-- A descriptor with OP COPY2D. -/
def execMoverCopy2d (c : Fin 16) (beats : Nat) (s : State) : Host.Outcome State Fault Refusal := act (moverRun c 2 beats) s

/-- A descriptor with the reserved OP ends with RSVD_OP, with nothing moved (R450). -/
def execMoverReservedOp (c : Fin 16) (s : State) : Host.Outcome State Fault Refusal :=
  act (chain [moverRun c 3 0, look fun s =>
    whenA ((s.movCh c).status == some Status.rsvdOp && dOp ((s.movCh c).desc.getD []) == 3) (endDescriptor c Status.rsvdOp)]) s

/-- The last beat of a descriptor has completed at its target, or the descriptor has failed: its record is written (R451). -/
def moverDone (c : Nat) : Act := look fun s =>
  whenA (s.domOn Dom.core && s.get (MOV.CSTAT.STATE.i c) == 2) (chain [
    moverBeats c (dTotal ((s.movCh c).desc.getD []) - (s.movCh c).moved),
    look fun t => match (t.movCh c).status with
      | some st => endDescriptor c st
      | none => whenA ((t.movCh c).moving && dTotal ((t.movCh c).desc.getD []) ≤ (t.movCh c).moved)
          (endDescriptor c Status.ok)])

/-- A descriptor ends. -/
def execMoverDescriptorDone (c : Fin 16) (s : State) : Host.Outcome State Fault Refusal := act (moverDone c) s

end Sys2Proof.Machine
end

