-- ==== Sys2Proof/Machine/Flags.lean ====
section
/-! DEFINITION. The results and flags of the Denat instructions: arithmetic (R412), logic and shifts (R413), decimal (R414,
R415), and the branch conditions (R420). Words are numbers below 2^32. -/

namespace Sys2Proof.Machine

/-- What an instruction leaves: its results in the order in which they are pushed, and the flags that it sets; a flag that
is `none` is unchanged (R410). -/
structure Alu where
  out : List Nat
  n   : Option Bool := none
  z   : Option Bool := none
  v   : Option Bool := none
  c   : Option Bool := none
  deriving DecidableEq, Repr

/-- A number modulo 2^32. -/
def wrap (n : Nat) : Nat := n % 2 ^ 32

/-- A signed number as a word. -/
def wrapS (i : Int) : Nat := ofS 32 i

/-- Whether a signed number fits in a word. -/
def fits (i : Int) : Bool := -(2 ^ 31) ≤ i && i < 2 ^ 31

/-- Bit 31 of a word. -/
def isNeg (r : Nat) : Bool := bitOf r 31 == 1

/-- One result with N and Z taken from it, and V and C as given. -/
def Alu.nz (r : Nat) (v c : Option Bool) : Alu := { out := [r], n := some (isNeg r), z := some (r == 0), v, c }

/-- STATUS with the flags of a result (R406, R410). -/
def Alu.status (a : Alu) (st : Nat) : Nat :=
  let set (x : Option Bool) (b st : Nat) : Nat := match x with | some f => withBit st b f | none => st
  set a.n 3 (set a.z 2 (set a.v 1 (set a.c 0 st)))

/-! Arithmetic (R412). -/

/-- a + b + c. -/
def addAlu (a b c : Nat) : Alu :=
  .nz (wrap (a + b + c)) (some !(fits (toS 32 a + toS 32 b + c))) (some (2 ^ 32 ≤ a + b + c))

/-- a − b − c; C is the borrow. -/
def subAlu (a b c : Nat) : Alu :=
  .nz (wrapS ((a : Int) - b - c)) (some !(fits (toS 32 a - toS 32 b - c))) (some (a < b + c))

/-- |a|. -/
def absAlu (a : Nat) : Alu := .nz (wrap (toS 32 a).natAbs) (some (a == 0x80000000)) none

/-- The low word of the product; V where the signed product does not fit. -/
def mulAlu (a b : Nat) : Alu := .nz (wrap (a * b)) (some !(fits (toS 32 a * toS 32 b))) none

/-- A 64-bit product as low and high word, with N and Z over 64 bits. -/
def longAlu (p : Int) : Alu :=
  let q := ofS 64 p
  { out := [q % 2 ^ 32, q / 2 ^ 32], n := some (bitOf q 63 == 1), z := some (q == 0), v := some false }

/-- The Q31 product, rounded down; it saturates where both operands are −1. -/
def mulqAlu (a b : Nat) : Alu :=
  if a = 0x80000000 ∧ b = 0x80000000 then .nz 0x7FFFFFFF (some true) none
  else .nz (wrapS ((toS 32 a * toS 32 b) / 2 ^ 31)) (some false) none

/-- The signed quotient, truncated toward 0, of a divisor that is not 0. -/
def divAlu (a b : Nat) : Alu :=
  if a = 0x80000000 ∧ b = 0xFFFFFFFF then .nz 0x80000000 (some true) none
  else .nz (wrapS ((toS 32 a).tdiv (toS 32 b))) (some false) none

/-- The signed remainder, with the sign of the dividend. -/
def modAlu (a b : Nat) : Alu := .nz (wrapS ((toS 32 a).tmod (toS 32 b))) (some false) none

/-- The unsigned quotient and remainder. -/
def divuAlu (a b : Nat) : Alu := .nz (a / b) (some false) none

def moduAlu (a b : Nat) : Alu := .nz (a % b) (some false) none

/-! Logic and shifts (R413). -/

/-- A result of logic: V is cleared and C unchanged. -/
def logicAlu (r : Nat) : Alu := .nz r (some false) none

/-- The count of SHL, SHR and SAR: n[7:0], and 32 for what lies above. -/
def shiftCount (n : Nat) : Nat := min (n % 256) 32

/-- A shift's result, with the last bit shifted out unless the count is 0. -/
def shiftAlu (r count last : Nat) : Alu := .nz r (some false) (if count = 0 then none else some (last == 1))

def shlAlu (a n : Nat) : Alu := let k := shiftCount n; shiftAlu (wrap (a * 2 ^ k)) k (bitOf a (32 - k))

def shrAlu (a n : Nat) : Alu := let k := shiftCount n; shiftAlu (a / 2 ^ k) k (bitOf a (k - 1))

def sarAlu (a n : Nat) : Alu := let k := shiftCount n; shiftAlu (wrapS (toS 32 a / 2 ^ k)) k (bitOf a (k - 1))

/-- A rotation to the right by n[4:0]; C is bit 31 of the result unless the count is 0. -/
def rorAlu (a n : Nat) : Alu :=
  let k := n % 32
  let r := wrap (a / 2 ^ k + a * 2 ^ (32 - k))
  shiftAlu r k (bitOf r 31)

/-- The leading zeros of a word. -/
def clz (a : Nat) : Nat := ((List.range 33).find? fun k => 2 ^ (32 - k) ≤ 2 * a).getD 32

/-- The bytes of a word in the other order. -/
def bswap (a : Nat) : Nat := ((List.range 4).map fun k => a / 256 ^ k % 256 * 256 ^ (3 - k)).sum

/-- The sign-extended low `w` bits. -/
def sext (w a : Nat) : Nat := wrapS (toS w a)

/-- Half the signed sum or difference of each halfword, computed in 17 bits. -/
def halves (f : Int → Int → Int) (a b : Nat) : Nat :=
  let h (k : Nat) : Nat := ofS 16 (f (toS 16 (a / 2 ^ k)) (toS 16 (b / 2 ^ k)) / 2)
  h 0 + h 16 * 2 ^ 16

/-! Decimal (R414, R415). -/

/-- Digit `i` of a packed word. -/
def digit (x i : Nat) : Nat := x / 16 ^ i % 16

/-- Whether a packed word has a digit above 9. -/
def badDigit (x : Nat) : Bool := (List.range 8).any fun i => 9 < digit x i

/-- A digit of a sum, with its carry (R415). -/
def digitOfSum (s : Nat) : Nat × Nat := if 10 ≤ s then ((s - 10) % 16, 1) else (s, 0)

/-- A digit of a difference, with its borrow (R415). -/
def digitOfDiff (s : Int) : Nat × Nat := if s < 0 then (ofS 4 (s + 10), 1) else (ofS 4 s, 0)

/-- The digits from `i` on with their carry, where `f i c` is digit `i` and its carry for an incoming carry. -/
def digits (f : Nat → Nat → Nat × Nat) : Nat → Nat → Nat → Nat × Nat
  | 0, _, c => (0, c)
  | n + 1, i, c =>
    let r := digits f n (i + 1) (f i c).2
    ((f i c).1 * 16 ^ i + r.1, r.2)

/-- A decimal result: N is cleared. -/
def decAlu (r : Nat) (v c : Option Bool) : Alu := { out := [r], n := some false, z := some (r == 0), v, c }

def dadcAlu (a b c : Nat) : Alu :=
  let r := digits (fun i c => digitOfSum (digit a i + digit b i + c)) 8 0 c
  decAlu r.1 (some (badDigit a || badDigit b)) (some (r.2 == 1))

def dsbcAlu (a b c : Nat) : Alu :=
  let r := digits (fun i c => digitOfDiff ((digit a i : Int) - digit b i - c)) 8 0 c
  decAlu r.1 (some (badDigit a || badDigit b)) (some (r.2 == 1))

def dajAlu (x : Nat) : Alu := let r := digits (fun i c => digitOfSum (digit x i + c)) 8 0 0; decAlu r.1 none (some (r.2 == 1))

/-- The packed decimal of a number modulo 10^8. -/
def packed (u : Nat) : Nat := ((List.range 8).map fun i => u / 10 ^ i % 10 * 16 ^ i).sum

def b2dAlu (u : Nat) : Alu := decAlu (packed u) (some (99999999 < u)) none

def d2bAlu (d : Nat) : Alu :=
  decAlu (wrap (((List.range 8).map fun i => digit d i * 10 ^ i).sum)) (some (badDigit d)) none

/-! Conditions (R420). -/

/-- Whether a BCC condition holds of STATUS. -/
def condition (cond st : Nat) : Bool :=
  let n := bitOf st 3 == 1
  let z := bitOf st 2 == 1
  let v := bitOf st 1 == 1
  let c := bitOf st 0 == 1
  match cond with
  | 0x0 => true
  | 0x1 => z
  | 0x2 => !z
  | 0x3 => n
  | 0x4 => !n
  | 0x5 => c
  | 0x6 => !c
  | 0x7 => v
  | 0x8 => !v
  | 0x9 => !c && !z
  | 0xA => c || z
  | 0xB => n != v
  | 0xC => n == v
  | 0xD => !z && n == v
  | 0xE => z || n != v
  | _ => false

end Sys2Proof.Machine
end

