-- ==== Sys2Proof/Machine/Operands.lean ====
section
/-! DEFINITION. How a Denat instruction reaches its operands: the two stacks (R386 to R388), memory (R390, R393, R416, R417), the
address registers (R389) and the control registers (R406, R422), and the exceptions that they raise (R392, R394). -/

namespace Sys2Proof.Machine

/-! Exceptions (R392). -/

/-- Why an instruction does not complete: an exception with its address, trap number or encoding, or an access that has to
wait for the lockstep pair (R341). -/
inductive Exc
  | undef (enc : Nat)
  | priv
  | fetch (a : Nat)
  | align (a : Nat)
  | access (a : Nat)
  | stack (a : Nat)
  | ecc (a : Nat)
  | divz
  | trap (t : Nat)
  | brk
  | wait
  deriving DecidableEq, Repr

/-- The vector number of an exception. -/
def Exc.vector : Exc → Nat
  | .undef _ => 1
  | .priv => 2
  | .fetch _ => 3
  | .align _ => 4
  | .access _ => 5
  | .stack _ => 6
  | .ecc _ => 7
  | .divz => 8
  | .trap _ => 9
  | .brk => 10
  | .wait => 0

/-- The address that XADDR takes (R395). -/
def Exc.addr : Exc → Nat
  | .fetch a | .align a | .access a | .stack a | .ecc a => a
  | _ => 0

/-! An instruction as it runs. -/

/-- An instruction in progress: its core and its address, the core as it would be left, the state and the effects so far, and
an uncorrectable word of data that it has met. Nothing of it is kept where an exception is raised (R393). -/
structure Run where
  who  : Fin 2
  at_  : Nat
  k    : DnCore
  s    : State
  out  : List Eff := []
  late : Option Nat := none

/-- A piece of an instruction. -/
abbrev Dn := StateT Run (Except Exc)

/-- An exception is raised. -/
def raise {α : Type} (e : Exc) : Dn α := fun _ => .error e

/-- The core changes. -/
def onK (f : DnCore → DnCore) : Dn Unit := fun r => .ok ((), { r with k := f r.k })

/-- Something of the core. -/
def askK {α : Type} (f : DnCore → α) : Dn α := fun r => .ok (f r.k, r)

/-- An action takes place. -/
def emit (a : Act) : Dn Unit := fun r => .ok ((), { r with out := r.out ++ a r.s, s := a.run r.s })

/-- The initiator of an instruction's accesses. -/
def Run.ini (r : Run) : Initiator := .core r.who

/-! Memory. -/

/-- Whether a task region permits an access of `n` bytes; `p` is its permission bit: 2 X, 1 W, 0 R (R390, R406). -/
def regionAllows (t a n p : Nat) : Bool :=
  let base := t / 4096 * 4096
  bitOf t 3 == 1 && bitOf t p == 1 && base ≤ a && a + n ≤ base + (bits t 11 4 + 1) * 4096

/-- Whether a core may access an address in its mode (R390). -/
def DnCore.mayAccess (k : DnCore) (a n p : Nat) : Bool := k.machine || k.trgn.any fun t => regionAllows t a n p

/-- ALIGN unless an address is a multiple of the access width (R416). -/
def checkAlign (a n : Nat) : Dn Unit := fun r =>
  if r.late.isNone && a % n != 0 then .error (.align a) else .ok ((), r)

/-- ACCESS unless the mode permits a data access (R390). -/
def checkAccess (a n : Nat) (write : Bool) : Dn Unit := fun r =>
  if r.late.isNone && !r.k.mayAccess a n (if write then 1 else 0) then .error (.access a) else .ok ((), r)

/-- The checks of a data access, before it is made. -/
def check (a n : Nat) (write : Bool) : Dn Unit := do
  checkAlign a n
  checkAccess a n write

/-- A load of `n` bytes that the checks have passed. A word with an uncorrectable error is met at the end (R394); one of the
Bobbin store raises nothing, and what it reads as until its repair ends is a free value (R345, R461;
notes/assumptions/14.md). -/
def loadData (a n : Nat) : Dn Nat := fun r =>
  if r.late.isSome then .ok (0, r)
  else if r.s.mustWait r.ini a none then .error .wait
  else
    match r.s.route r.ini a false with
    | .mem p =>
      if r.s.ue p n then
        if Base.bobbin ≤ p && p < Base.mram then (do emit (meetMem p n); emit fun _ => [.drawn]; pure (r.s.free % 256 ^ n)).run r
        else .ok (0, { r with late := some a })
      else .ok (r.s.load p n, { r with out := r.out ++ meetMem p n r.s, s := (meetMem p n).run r.s })
    | _ =>
      let b := busRead r.ini a n
      .ok ((b.run r.s).answered r.ini, { r with out := r.out ++ b r.s, s := b.run r.s })

/-- A store of the `n` low bytes of a value. -/
def storeData (a n v : Nat) : Dn Unit := fun r =>
  if r.late.isSome then .ok ((), r)
  else if r.s.mustWait r.ini a (some (v % 256 ^ n)) then .error .wait
  else emit (busWrite r.ini a n (v % 256 ^ n)) r

/-- A load and its checks. -/
def loadAt (a n : Nat) : Dn Nat := do
  check a n false
  loadData a n

/-- A store and its checks. -/
def storeTo (a n v : Nat) : Dn Unit := do
  check a n true
  storeData a n v

/-! The stacks (R386 to R388). -/

/-- The operand stack and the return stack. -/
inductive Stk
  | op | ret
  deriving DecidableEq, Repr

/-- The register-held entries, top first. -/
def DnCore.held_ (k : DnCore) : Stk → List Nat
  | .op => k.ds
  | .ret => k.rs

/-- The pointer, the base and the limit of a stack. -/
def DnCore.ptr (k : DnCore) : Stk → Nat
  | .op => k.dsp
  | .ret => k.rsp

def DnCore.base (k : DnCore) : Stk → Nat
  | .op => k.dsbase
  | .ret => k.rsbase

def DnCore.limit (k : DnCore) : Stk → Nat
  | .op => k.dslim
  | .ret => k.rslim

/-- The core with the entries and the pointer of a stack replaced. -/
def DnCore.setStk (k : DnCore) (t : Stk) (l : List Nat) (p : Nat) : DnCore :=
  match t with
  | .op => { k with ds := l, dsp := p }
  | .ret => { k with rs := l, rsp := p }

/-- Whether a spill or a fill may use an address (R388). -/
def State.stackPlace (s : State) (i : Initiator) (a : Nat) (write : Bool) : Bool :=
  Base.sram ≤ a && a + 4 ≤ 0x20200000 && (match s.route i a write with | .mem _ => true | _ => false)

/-- ACCESS unless the mode permits a spill or a fill, whose address no word of data decides (R390, R394). -/
def checkStackMode (a : Nat) (write : Bool) : Dn Unit := fun r =>
  if !r.k.mayAccess a 4 (if write then 1 else 0) then .error (.access a) else .ok ((), r)

/-- STACK where a spill or a fill may not use an address. -/
def checkStack (good : Bool) (a : Nat) (write : Bool) : Dn Unit := fun r =>
  if good && r.s.stackPlace r.ini a write then .ok ((), r) else .error (.stack a)

/-- The deepest register entry is spilled. -/
def spill (t : Stk) : Dn Unit := do
  let l ← askK (·.held_ t)
  let p ← askK (·.ptr t)
  let lim ← askK (·.limit t)
  let a := wrap (p + 2 ^ 32 - 4)
  checkStackMode a true
  checkStack (lim + 4 ≤ p) a true
  emit (storeMem a 4 (l.getLastD 0))
  onK fun k => k.setStk t l.dropLast a

/-- An entry is pushed; a ninth register entry spills the deepest. -/
def push (t : Stk) (v : Nat) : Dn Unit := do
  onK fun k => k.setStk t (v :: k.held_ t) (k.ptr t)
  let n ← askK fun k => (k.held_ t).length
  if 8 < n then spill t else pure ()

/-- The entry at the pointer is filled into registers. -/
def fill (t : Stk) : Dn Unit := do
  let p ← askK (·.ptr t)
  let b ← askK (·.base t)
  if b ≤ p then raise (.stack p) else pure ()
  checkStackMode p false
  checkStack true p false
  let v ← loadData p 4
  onK fun k => k.setStk t (k.held_ t ++ [v]) (wrap (p + 4))

/-- An entry is popped, from memory where no register holds one. -/
def pop (t : Stk) : Dn Nat := do
  let n ← askK fun k => (k.held_ t).length
  if n = 0 then fill t else pure ()
  let v ← askK fun k => (k.held_ t).headD 0
  onK fun k => k.setStk t (k.held_ t).tail (k.ptr t)
  pure v

/-- Every register entry of a stack is spilled, the deepest first (R422). -/
def spillAll (t : Stk) : Nat → Dn Unit
  | 0 => pure ()
  | n + 1 => do
    let l ← askK fun k => (k.held_ t).length
    if l = 0 then pure () else spill t
    spillAll t n

/-- Operands off, results on, flags set (R410). -/
def finish (a : Alu) : Dn Unit := do
  a.out.forM (push .op)
  onK fun k => { k with status := a.status k.status }

/-- An instruction on one operand. -/
def unary (f : Nat → Alu) : Dn Unit := do
  let a ← pop .op
  finish (f a)

/-- An instruction on two operands. -/
def binary (f : Nat → Nat → Alu) : Dn Unit := do
  let b ← pop .op
  let a ← pop .op
  finish (f a b)

/-- The carry flag. -/
def carry : Dn Nat := askK fun k => bitOf k.status 0

/-! Address registers (R389). -/

/-- The low `w` bits of a number in reverse order. -/
def revBits (w x : Nat) : Nat := ((List.range w).map fun b => bitOf x b * 2 ^ (w - 1 - b)).sum

/-- An after a step, by MODE, K and LEN of its AMODE and an access width of `e` bytes. In MODULO mode with LEN 0 the rule gives
no value. -/
def stepped (amode base a e : Nat) (step : Int) : Option Nat :=
  let len := bits amode 15 0
  let k := bits amode 19 16
  match bits amode 31 30 with
  | 1 => if len = 0 then none else some (wrapS (base + ((a : Int) - base + step) % len))
  | 2 => some (wrap (base + e * revBits k (wrapS (revBits k (wrap (a + 2 ^ 32 - base) / e) + step) % 2 ^ k)))
  | _ => some (wrapS (a + step))

/-- An takes a value. -/
def setA (n v : Nat) : Dn Unit := onK fun k => { k with a := k.a.set n v }

/-- An. -/
def getA (n : Nat) : Dn Nat := askK fun k => k.a.getD n 0

/-- An is stepped; a value that the rule does not give is a free value. -/
def stepA (n e : Nat) (step : Int) : Dn Unit := fun r =>
  match stepped (r.k.amode.getD n 0) (r.k.abase.getD n 0) (r.k.a.getD n 0) e step with
  | some v => setA n v r
  | none => (do setA n r.s.free; emit fun _ => [.drawn]).run r

/-! Control registers (R406, R422). -/

/-- Whether a control register is privileged. -/
def crPrivileged (c : Nat) : Bool := (1 ≤ c && c ≤ 6) || c == 8 || (0x16 ≤ c && c ≤ 0x19)

/-- The stack that a control register belongs to. -/
def crStack (c : Nat) : Option Stk := if 1 ≤ c ∧ c ≤ 3 then some .op else if 4 ≤ c ∧ c ≤ 6 then some .ret else none

/-- What a control register of a core reads. -/
def DnCore.cr (k : DnCore) (core : Nat) (c : Nat) : Nat :=
  match c with
  | 0x00 => k.status
  | 0x01 => k.dsp
  | 0x02 => k.dsbase
  | 0x03 => k.dslim
  | 0x04 => k.rsp
  | 0x05 => k.rsbase
  | 0x06 => k.rslim
  | 0x07 => k.rs.length * 256 + k.ds.length
  | 0x08 => k.vbar
  | 0x09 => core
  | _ =>
    if c < 0x0E then k.a.getD (c - 0x0A) 0
    else if c < 0x12 then k.abase.getD (c - 0x0E) 0
    else if c < 0x16 then k.amode.getD (c - 0x12) 0
    else k.trgn.getD (c - 0x16) 0

/-- STATUS without its reserved bits. -/
def statusBits (x : Nat) : Nat := bits x 31 28 * 2 ^ 28 + x % 16

/-- What a write of AMODE leaves, and whether a field of it was reserved: MODE 0b11, K 0 in BITREV, LEN 0 in MODULO. -/
def amodeWrite (old x : Nat) : Nat × Bool :=
  let badMode := bits x 31 30 == 3
  let mode := if badMode then bits old 31 30 else bits x 31 30
  let badK := mode == 2 && bits x 19 16 == 0
  let badLen := mode == 1 && bits x 15 0 == 0
  (mode * 2 ^ 30 + (if badK then bits old 19 16 else bits x 19 16) * 2 ^ 16 + (if badLen then bits old 15 0 else bits x 15 0),
    badMode || badK || badLen)

/-- A control register takes a value. -/
def setCr (c x : Nat) : Dn Unit :=
  let ptr := x / 4 * 4
  match c with
  | 0x00 => onK fun k => { k with status := statusBits x }
  | 0x01 => onK fun k => { k with dsp := ptr }
  | 0x02 => onK fun k => { k with dsbase := ptr }
  | 0x03 => onK fun k => { k with dslim := ptr }
  | 0x04 => onK fun k => { k with rsp := ptr }
  | 0x05 => onK fun k => { k with rsbase := ptr }
  | 0x06 => onK fun k => { k with rslim := ptr }
  | 0x07 => pure ()
  | 0x08 => onK fun k => { k with vbar := x / 512 * 512 }
  | 0x09 => pure ()
  | _ =>
    if c < 0x0E then setA (c - 0x0A) x
    else if c < 0x12 then onK fun k => { k with abase := k.abase.set (c - 0x0E) x }
    else if c < 0x16 then do
      let old ← askK fun k => k.amode.getD (c - 0x12) 0
      let (v, bad) := amodeWrite old x
      onK fun k => { k with amode := k.amode.set (c - 0x12) v }
      if bad then emit (setRsvd CPU.CTRL.key 0) else pure ()
    else onK fun k => { k with trgn := k.trgn.set (c - 0x16) x }

/-- PRIV in task mode (R391). -/
def machineOnly : Dn Unit := fun r => if r.k.machine then .ok ((), r) else .error .priv

/-- RDC (R422). -/
def readCr (c : Nat) : Dn Unit := do
  if 0x19 < c then raise (.undef (0xF5000000 + c)) else pure ()
  match crStack c with
  | some t => spillAll t 8
  | none => pure ()
  fun r => push .op (r.k.cr r.who c) r

/-- Whether task mode may write STATUS with a value: M, IE and LVL stay (R391). -/
def taskStatus (old x : Nat) : Bool := bits old 31 28 == bits x 31 28

/-- WRC (R391, R422). -/
def writeCr (c : Nat) : Dn Unit := do
  if 0x19 < c then raise (.undef (0xF6000000 + c)) else pure ()
  if crPrivileged c then machineOnly else pure ()
  let x ← pop .op
  let k ← askK id
  if c = 0 && !k.machine && !taskStatus k.status x then raise .priv else pure ()
  match crStack c with
  | some t => spillAll t 8
  | none => pure ()
  setCr c x

end Sys2Proof.Machine
end

