-- ==== Sys2Proof/Machine/Reset.lean ====
section
/-! DEFINITION. What is lost and what is kept where a domain goes off (R28, R474), and a device reset (R27, R620, R621). -/

namespace Sys2Proof.Machine

/-! Registers. -/

/-- The pages whose registers lie in a domain (R40). -/
def pagesOf (d : Nat) : List Nat :=
  (List.range 0x26).filter fun c => match Page.ofCode c with | some p => p.domain == d | none => false

/-- Every register of a page takes its reset value. -/
def resetPage (c : Nat) : Act := fun _ => [.resetPages (pageBase + c * 0x1000) (pageBase + (c + 1) * 0x1000)]

/-- An action that leaves some fields at their values. -/
def keeping (fs : List Fld) (a : Act) : Act := look fun s => chain [a, eachA fs fun f => put f (s.get f)]

/-- Registers of a domain that are retained while it is off (R58, R256, R366, R473, R511, R513, R514, R516, R536, R558,
R578). Of the gauge, the configuration that AON works with and the charge are retained (notes/assumptions/7.md). -/
def retained (d : Nat) : List Fld :=
  if d = Dom.core then
    [CLK.CTRL.XOSRC, CLK.CTRL.CKOUTSEL, CLK.CTRL.TICKEN, CLK.SLOTLEN.LEN, STM.FLAG.CH.sub 24 8, STM.FLAGEN.CH.sub 24 8,
      STM.RTCCAP.SEC, I2C.TCFG, I2C.TSTAT.WAKEHOLD, I2C.TSTAT.INTX, UPD.BOOTSTAT.WARM]
      ++ ((List.range 8).flatMap fun c => [STM.CHCFG.LEGACY.i (24 + c), STM.CHCFG.LCONS.i (24 + c)])
      ++ ((List.range 24).map fun k => STM.PEN.P.i (72 + k)) ++ ((List.range 16).map fun k => STM.CM.C.i (48 + k))
      ++ ((List.range 64).map fun n => KEY.KS.i n)
  else if d = Dom.mac then [BOB.CTRL.RJONLY, BOB.LEASELEN.SEC, BOB.OWNINC.INC]
  else if d = Dom.mtr then
    [REF.STAT.SEL, REF.STAT.BADA, REF.STAT.BADB, REF.STAT.CSUSPECT, REF.STAT.HOLD, GAU.STAT, GAU.CFG, GAU.CUT, GAU.REST,
      GAU.CHG, GAU.SOC, GAU.RESTT]
  else []

/-- The registers of a domain go off (R28). -/
def registersOff (d : Nat) : Act := keeping (retained d) (eachA (pagesOf d) resetPage)

/-! Memory. -/

/-- A range of memory loses its contents, and its errors with them (R428). -/
def wipeMemory (lo hi : Nat) : Act := chain [wipe lo hi, onEcc fun e => { e with
  bad := e.bad.filter fun w => !(lo ≤ memBase w.1 + w.2 && memBase w.1 + w.2 < hi)
  fresh := e.fresh.filter fun w => !(lo ≤ memBase w.1 + w.2 && memBase w.1 + w.2 < hi) }]

/-- The SRAM banks of a mask lose their contents. -/
def wipeBanks (m : Nat) : Act := eachA ((List.range 16).filter fun b => bitOf m b == 1) fun b =>
  wipeMemory (Base.sram + b * 0x20000) (Base.sram + (b + 1) * 0x20000)

/-- The memories' errors are kept and everything else of the error state is not (R456, R458). -/
def eccOff : Act := onEcc fun e => { ({} : EccSt) with bad := e.bad, fresh := e.fresh }

/-! The blocks of a domain. -/

/-- NVM goes off: an interrupted operation stays OPEN (R447, R472). -/
def nvmOff : Act := chain [
  onFlc fun c => { ({} : FlcSt) with banks := c.banks.map fun b => { ({} : FlashBank) with rec_ := b.rec_, slot := b.slot } },
  registersOff Dom.nvm]

/-- CORE goes off: AON stores the clock (R58) and holds its own reports (R354), Stitch events (R536), counts (R544), keys
(R366) and paused channels (R473). -/
def coreOff : Act := look fun s => chain [
  i2cCut,
  keeping (((List.range 16).filter fun c => s.get (MOV.CSTAT.STATE.i c) == 3).flatMap fun c =>
    [MOV.CCTRL.PRIO.i c, MOV.CCUR.ADDR.i c, MOV.CSTAT.STATE.i c]) (registersOff Dom.core),
  onClk fun c => { c with savedTb := some c.tb, savedTick := s.is CLK.CTRL.TICKEN, asnStaged := 0, asnCommit := none
                          gated := false, record := none },
  onFlt fun f => { ({} : FltSt) with aon := f.aon, aonLost := f.aonLost },
  onStm fun m => { m with pulses := m.pulses.filter fun p => 88 ≤ p.1 && p.1 ≤ 94 },
  onRecd fun r => { ({} : RecSt) with opsec := r.opsec, pcyc := r.pcyc, lifeAt := r.lifeAt },
  onBus fun _ => {}, onTim fun _ => {}, onI2c fun _ => {}, onMov fun _ => {}, onSec fun _ => {}, onCmd fun _ => {},
  eccOff, onDn fun _ => { cores := [{ runs := false }, DnCore.reset 1] }, onDbg fun _ => {}, onHif fun _ => {},
  onUpd fun u => { u with
    due := none
    migrating := none
    full := false
    resetAt := none },
  wipeBanks (0xFFFF - s.get PWR.RETAIN.BANKS)]

/-- The Bobbin's hash key is drawn (R223). -/
def drawHashKey : Act := drawWord fun x => onBob fun b => { b with
  hashKey := x
  hashDue := false }

/-- MAC goes off: AON keeps the duty carry (R269, R271), and the lease writes keep their 64 s and the one that a retained RJONLY
has due (R244); the store is kept where RETAIN.BOB is 1, and
is restored with a new hash key where it is not. -/
def macOff : Act := look fun s => chain [
  dutyCut, registersOff Dom.mac,
  onFrm fun _ => {}, onShu fun _ => {}, onVif fun _ => {}, onCas fun _ => {},
  onUpd fun u => { u with code := u.code.set 0 [] },
  fun _ => [.wipePat], wipeMemory Base.fram 0x30100000,
  if s.is PWR.RETAIN.BOB then
    onBob fun b => { ({} : BobSt) with
      leaseAt := b.leaseAt, leaseNow := b.leaseNow, hashKey := b.hashKey, extKeys := b.extKeys, shortKeys := b.shortKeys }
  else chain [onBob fun b => { ({} : BobSt) with leaseAt := b.leaseAt, leaseNow := b.leaseNow, hashDue := true },
    wipeMemory Base.bobbin 0x24080000]]

/-- RXN goes off, and with it lane 0 and port 0 (R70, R148). -/
def rxnOff : Act := chain [registersOff Dom.rxn, onRfe fun _ => {}, onDmd fun _ => {}]

/-- The registers of the lanes above 0 (R109, R135). -/
def lanesOff : Act := fun _ => (List.range 4).map fun k =>
  .resetPages (pageBase + 0x13204 + 0x200 * k) (pageBase + 0x13400 + 0x200 * k)

/-- RXW goes off: the converters, the channelizer, the lanes above 0 and the decoders with lane 0's counters of the FEC page;
port 1 is no longer powered (R28, R70, R83, R109, R148, R161). -/
def rxwOff : Act := chain [
  registersOff Dom.rxw, lanesOff, onChz fun _ => {},
  onDmd fun d => { d with lanes := (d.lanes.take 1).map (fun l => { l with coded := 0, diffs := 0 }) ++ List.replicate 127 {} },
  onRfe fun r => { r with ports := (r.ports.take 1).map (fun p => { p with runAt := none }) ++ [{}] },
  put RFE.STAT.P1STATE 0,
  onUpd fun u => { u with code := u.code.take 1 ++ [[], []] }]

/-- TX goes off: the chains, and the balls of their power amplifiers (R72). -/
def txOff : Act := chain [registersOff Dom.tx, onTxp fun _ => {},
  onRfe fun r => { r with ports := r.ports.map fun p => { p with epa := false } }]

/-- LAMP goes off; levels from outside stay. -/
def lampOff : Act := chain [registersOff Dom.lamp,
  onLmp fun l => { ({} : LmpSt) with vgdOk := l.vgdOk, vgdHere := l.vgdHere, enBall := l.enBall }]

/-- MTR goes off: the accumulators are lost (R506), the selection (R511) and the gauge's charge (R513) are not. -/
def mtrOff : Act := chain [registersOff Dom.mtr, onMtr fun _ => {}, onRef fun _ => {},
  onGau fun g => { g with offSec := 0 }]

/-- A domain goes off. -/
def domainOff (d : Nat) : Act :=
  match d with
  | 1 => nvmOff
  | 2 => coreOff
  | 3 => macOff
  | 4 => rxnOff
  | 5 => rxwOff
  | 6 => txOff
  | 7 => lampOff
  | 8 => mtrOff
  | _ => skip

/-! Everything. -/

/-- Everything but MRAM, flash, OTP and levels from outside is lost, apart from some fields (R27, R474). -/
def loseAll (fs : List Fld) : Act := keeping fs (chain [
  eachA (List.range 0x26) resetPage, eccOff,
  wipeMemory Base.sram 0x20200000, wipeMemory Base.bobbin 0x24080000, wipeMemory Base.fram 0x30100000,
  fun _ => [.wipePat], nvmOff,
  onClk fun c => { ({} : ClkSt) with external := c.external }, onFlt fun _ => {}, onStm fun _ => {},
  onRecd fun r => { ({} : RecSt) with opsec := r.opsec, pcyc := r.pcyc, lifeAt := r.lifeAt },
  onBus fun _ => {}, onThm fun t => { ({} : ThmSt) with k32ok := t.k32ok }, onTim fun _ => {}, onI2c fun _ => {},
  onMov fun _ => {}, onLmp fun l => { ({} : LmpSt) with vgdOk := l.vgdOk, vgdHere := l.vgdHere, enBall := l.enBall }, onMtr fun _ => {},
  onRef fun _ => {}, onGau fun _ => {}, onDut fun _ => {}, onRfe fun _ => {}, onChz fun _ => {}, onDmd fun _ => {},
  onFrm fun _ => {}, onTxp fun _ => {}, onShu fun _ => {}, onBob fun _ => {}, onKey fun _ => {}, onSec fun _ => {},
  onCmd fun _ => {}, onDn fun _ => { cores := [{ runs := false }, DnCore.reset 1] }, onDbg fun _ => {}, onVif fun _ => {},
  onUpd fun _ => { due := none }, onCas fun _ => {}, onHif fun _ => {},
  onPwr fun p => { ({} : PwrSt) with alarmDone := p.alarmDone, pgood := p.pgood, lowVio := p.lowVio }])

/-- What OFF keeps (R474); the RTC's loss of count and the supply selector stay with them. -/
def keptInOff : List Fld := [PWR.RTCSEC.SEC, PWR.RTCALM.SEC, PWR.WAKEEN.SRC, PWR.STAT.RTCLOST, PWR.STAT.ONBAK]

/-- The device enters OFF. -/
def enterOff : Act := chain [loseAll keptInOff, put PWR.STAT.DOMON 1, put PWR.STAT.MODE 4]

/-- A device reset starts: everything takes its reset value, and only AON is on until the sequence of R620 ends. The RTC
counts on (R469). -/
def deviceReset : Act := look fun s => chain [
  onClk fun c => { c with external := s.is CLK.CTRL.XOSRC },
  loseAll (if s.mode = 4 then keptInOff else [PWR.RTCSEC.SEC, PWR.STAT.RTCLOST, PWR.STAT.ONBAK]),
  put PWR.STAT.DOMON 1,
  onPwr fun p => { p with
    inReset := true
    cold := s.mode = 4 || (s.pwr.inReset && s.pwr.cold) }]

/-- RESETN is low for its time (R619, R621); from OFF it leaves OFF (R470). -/
def execResetnLow (s : State) : Host.Outcome State Fault Refusal := act deviceReset s

/-- VCORE or VA18 browns out (R609). -/
def execBrownOut (s : State) : Host.Outcome State Fault Refusal :=
  act (chain [deviceReset, onPwr fun p => { p with pgood := false }]) s

/-- The AON supply falls below its power-on threshold (R469, R609). Words in the MRAM write buffer are completed (R431). -/
def execPowerOnResetEngage (s : State) : Host.Outcome State Fault Refusal :=
  act (chain [loseAll [], onClk fun _ => {}, onThm fun _ => {}, put PWR.STAT.DOMON 1,
    onPwr fun p => { ({} : PwrSt) with inReset := true, cold := true, pgood := false, lowVio := p.lowVio }]) s

/-- The AON power-on reset releases: the supply selector takes VIN or VBAK, and the VIO range is detected (R605, R620). -/
def execAonPowerOn (onBackup lowVio : Bool) (s : State) : Host.Outcome State Fault Refusal :=
  act (look fun s => whenA s.pwr.inReset (chain [put PWR.STAT.ONBAK (if onBackup then 1 else 0),
    onPwr fun p => { p with lowVio }])) s

/-- VIN rises above RISE in OFF (R470). -/
def execVinRiseInOff (s : State) : Host.Outcome State Fault Refusal :=
  act (look fun s => whenA (s.mode == 4) (chain [deviceReset, put PWR.STAT.ONBAK 0])) s

/-- The reset that ACTIVATE asked for, 1 ms after its completion (R592). -/
def execActivateReset (s : State) : Host.Outcome State Fault Refusal :=
  act (look fun s => match s.upd.resetAt with
    | some t => chain [until_ t, deviceReset]
    | none => skip) s

/-! The start. -/

/-- DN0 starts at the address in boot ROM word 0, with DN1 held in reset (R385, R476). -/
def startCores (cold : Bool) : Act := look fun s => chain [
  onDn fun _ => { cores := [{ DnCore.reset 0 with pc := s.word 0 }, DnCore.reset 1] },
  onUpd fun u => { u with due := some cold }]

/-- The PLL locks and the device reset ends: the straps are sampled, and every domain is on (R620). -/
def deviceResetEnd (boot0 boot1 casm : Bool) : Act := look fun s => chain [
  onPwr fun p => { p with
    inReset := false
    cold := false
    pgood := true },
  put PWR.STAT.DOMON 0x1FF, put CLK.STAT.PLLLOCK 1, put CLK.STAT.K32OK (if s.thm.k32ok then 1 else 0),
  put SYS.STAT.BOOT0 (if boot0 then 1 else 0), put SYS.STAT.BOOT1 (if boot1 then 1 else 0),
  put SYS.STAT.CASM (if casm then 1 else 0),
  put SYS.UIDLO.UID (s.otp.uid % 2 ^ 32), put SYS.UIDHI.UID (s.otp.uid / 2 ^ 32),
  flashRestore, entropyStart, scanRing, loadDebug, loadLife s.pwr.cold, loadTenancy, loadLock, loadRfOtp, drawHashKey,
  putS REF.CTRIM.T s.otp.ctrim, startCores true]

/-- The device reset ends (R620, R621). -/
def execDeviceResetEnd (boot0 boot1 casm : Bool) (s : State) : Host.Outcome State Fault Refusal :=
  act (look fun s => whenA s.pwr.inReset (deviceResetEnd boot0 boot1 casm)) s

end Sys2Proof.Machine
end

