-- ==== Sys2Proof/Machine/Entry.lean ====
section
/-! DEFINITION. How a Denat core runs an instruction: the fetch (R390, R392), exception and interrupt entry (R393 to R400),
lockup (R397), SLEEP's end (R401), and undefined encodings (R425). -/

namespace Sys2Proof.Machine

/-! Whether a core runs. -/

/-- Whether a core may run an instruction: it is released, not locked up, awake, not held by a debugger unless it is stepped,
and CORE is neither off nor closing, with its clocks running (R61, R397, R401, R407, R472, R595). -/
def State.coreRuns (s : State) (c : Nat) : Bool :=
  let k := s.core c
  k.runs && !k.asleep && (!k.held || k.step) && s.reachable Dom.core && !s.clk.gated

/-! The fetch. -/

/-- Whether a core may fetch the halfword at an address (R43, R300, R390, R392). -/
def State.mayFetch (s : State) (c : Fin 2) (a : Nat) : Bool :=
  (a < 0x10000 || (Base.flashA ≤ a && a < 0x08800000) || (Base.sram ≤ a && a < 0x20200000))
    && (match s.route (.core c) a false with | .mem _ => true | _ => false)
    && (s.core c).mayAccess a 2 2

/-- The exception that the fetch of an instruction at an address meets (R392, R394). -/
def State.fetchFault (s : State) (c : Fin 2) (a : Nat) (long : Bool) : Option Exc :=
  let b := wrap (a + 2)
  if !s.mayFetch c a then some (.fetch a)
  else if long && !s.mayFetch c b then some (.fetch b)
  else if s.ue a 2 then some (.ecc a)
  else if long && s.ue b 2 then some (.ecc b)
  else none

/-- Whether a debugger's breakpoint stands at the address that a core has come to (R595). -/
def breakpoint (c : Fin 2) : Act := look fun s =>
  whenA (s.dbg.breaks.contains (c.val, (s.core c).pc)) (chain [onCore c fun k => { k with held := true },
    put DBG.STAT.DBGCONN 1])

/-! Entry (R395, R396, R399). -/

/-- A core locks up: DN0's is a device reset, DN1 stops (R397). -/
def lockup (c : Nat) : Act :=
  if c = 0 then deviceReset
  else chain [stick CPU.STICKY.LOCKUP1, put CPU.STAT.LOCK1 1, onCore c fun k => { k with runs := false }]

/-- The entries of the return stack in registers after two pushes, the pointer, and the words that are spilled, with their
addresses. -/
def entryStack (k : DnCore) (pc status : Nat) : List Nat × Nat × List (Nat × Nat) :=
  let l := status :: pc :: k.rs
  let older := (l.drop 8).reverse
  (l.take 8, wrap (k.rsp + 2 ^ 32 - 4 * older.length),
    older.zipIdx.map fun x => (wrap (k.rsp + 2 ^ 32 - 4 * (x.2 + 1)), x.1))

/-- Whether the return stack takes an entry: each spill in SRAM, none more than 32 bytes below RSLIM (R388). -/
def State.entryFits (s : State) (c : Fin 2) (l : List (Nat × Nat)) : Bool :=
  l.all fun x => (s.core c).rslim ≤ x.1 + 32 && s.stackPlace (.core c) x.1 true

/-- Pushes PC and STATUS, changes STATUS and goes on at a vector; an entry that cannot be made locks the core up (R388, R395,
R396). -/
def enterAt (c : Fin 2) (vector : Nat) (status : Nat → Nat) : Act := look fun s =>
  let k := s.core c
  let (rs, rsp, spills) := entryStack k k.pc k.status
  let v := wrap (k.vbar + 4 * vector)
  let bad := match s.route (.core c) v false with | .mem p => s.ue p 4 | _ => false
  if !s.entryFits c spills || bad then lockup c
  else chain [
    eachA spills fun x => storeMem x.1 4 x.2,
    busRead (.core c) v 4,
    look fun t => onCore c fun _ => { k with
      rs := rs
      rsp := rsp
      status := status k.status
      pc := t.answered (.core c) / 2 * 2
      step := false },
    breakpoint c]

/-- An uncorrectable error that an instruction has met is counted (R460). -/
def countUe (e : Exc) : Act :=
  match e with
  | .ecc a => (match memWord a with | some w => ueFound w | none => skip)
  | _ => skip

/-- A core takes an exception (R395). `long` says that the instruction has a 32-bit encoding. -/
def takeException (c : Fin 2) (long : Bool) (e : Exc) : Act := look fun s =>
  let k := s.core c
  chain [countUe e,
    put (CPU.XPC.PC.i c) k.pc,
    put (CPU.XCAUSE.V.i c) 1, put (CPU.XCAUSE.LONG.i c) (if long then 1 else 0),
    put (CPU.XCAUSE.MODE.i c) (bitOf k.status 31),
    put (CPU.XCAUSE.ARG.i c) (match e with | .trap t => t | _ => 0), put (CPU.XCAUSE.CAUSE.i c) e.vector,
    put (CPU.XADDR.A.i c) e.addr, put (CPU.XFAULT.E.i c) (match e with | .undef x => x | _ => 0),
    enterAt c e.vector fun st => withBit (withBit st 31 true) 30 false]

/-! Running an instruction. -/

/-- What an instruction at the PC does, whose fetch met nothing: all of its effect or an exception (R393, R394). An access that
has to wait leaves the instruction to be run again (R341). -/
def runAt (c : Fin 2) (long : Bool) (m : Dn Unit) : Act := look fun s =>
  let k := s.core c
  let start : Run := { who := c, at_ := k.pc, s, k := { k with pc := wrap (k.pc + (if long then 4 else 2)), step := false } }
  match (do emit (touch k.pc (if long then 4 else 2)); m).run start with
  | .error .wait => skip
  | .error e => takeException c long e
  | .ok (_, r) => match r.late with
    | some a => takeException c long (.ecc a)
    | none => chain [fun _ => r.out, onCore c fun _ => r.k, breakpoint c]

/-- A core runs an instruction. An exception of the fetch of a second halfword is one of a 32-bit encoding. -/
def dnRun (c : Fin 2) (long : Bool) (m : Dn Unit) : Act := look fun s =>
  let pc := (s.core c).pc
  whenA (s.coreRuns c) (match s.fetchFault c pc long with
    | some e => takeException c (long && e.addr != pc) e
    | none => runAt c long m)

/-- A fetch that raises FETCH or ECC (R392); where the fetch meets nothing there is no event. -/
def execFetchFault (c : Fin 2) (long : Bool) (s : State) : Host.Outcome State Fault Refusal :=
  act (look fun s => whenA (s.fetchFault c (s.core c).pc long).isSome (dnRun c long (pure ()))) s

/-! Undefined encodings (R408, R424, R425). -/

/-- Whether a 16-bit encoding is undefined. -/
def undefinedHalf (e : Nat) : Bool :=
  let f := e % 256
  let columns : List Nat := [13, 16, 14, 8, 10, 12]
  match e / 0x1000 with
  | 0x0 => bits e 11 8 != 0 || columns.getD (f / 16) 0 ≤ f % 16
  | 0x3 => bits e 9 8 == 3
  | 0xC => bits e 11 8 == 15
  | 0xD => true
  | 0xE => bits e 9 8 == 3 || (bits e 9 8 < 2 && f != 0)
  | _ => false

/-- Whether a 32-bit encoding is undefined. -/
def undefinedLong (e : Nat) : Bool :=
  match bits e 27 24 with
  | 0x1 | 0x2 => bits e 23 16 != 0
  | 0x5 | 0x6 | 0x7 => bits e 23 8 != 0
  | 0x8 => bits e 21 16 != 0
  | 0x9 => bits e 23 22 == 3 || bits e 21 16 != 0
  | 0xA => bits e 19 16 != 0
  | l => 0xB ≤ l

/-- An undefined encoding, as XFAULT holds it: a halfword, or where its bits [31:28] are 0xF a 32-bit encoding (R395). -/
def execUndefinedInstruction (c : Fin 2) (enc : Word) (s : State) : Host.Outcome State Fault Refusal :=
  let e := enc.toNat
  act (if e / 2 ^ 28 = 15 then whenA (undefinedLong e) (dnRun c true (raise (.undef e)))
    else whenA (e < 0xF000 && undefinedHalf e) (dnRun c false (raise (.undef e)))) s

/-! Interrupts (R398 to R401). -/

/-- The level at which a source is routed to a core. -/
def State.sourceLevel (s : State) (c i : Nat) : Nat :=
  let f := [CPU.IPRIO0.L, CPU.IPRIO1.L, CPU.IPRIO2.L, CPU.IPRIO3.L].getD (i / 16) CPU.IPRIO0.L
  bits (s.get (f.i c)) (2 * (i % 16) + 1) (2 * (i % 16))

/-- The source that a core takes above a level: the highest level, and of those the lowest number (R399). -/
def State.nextSource (s : State) (c lvl : Nat) : Option (Nat × Nat) :=
  let p := s.pendingAt c
  let at_ (l : Nat) : Option (Nat × Nat) :=
    ((List.range 64).find? fun i => bitOf p i == 1 && s.sourceLevel c i == l).map fun i => (i, l)
  ([3, 2, 1].filter (lvl < ·)).findSome? at_

/-- An interrupt is taken at an instruction boundary (R399). -/
def execInterruptEntry (c : Fin 2) (s : State) : Host.Outcome State Fault Refusal :=
  act (look fun s =>
    let k := s.core c
    whenA (s.coreRuns c && bitOf k.status 30 == 1) (match s.nextSource c (bits k.status 29 28) with
      | some (i, l) => enterAt c (16 + i) fun st => withBit (setField (BitVec.ofNat 32 st) 28 2 l).toNat 31 true
      | none => skip)) s

/-- STAT.SLEEP of a core. -/
def sleepFld (c : Nat) : Fld := if c = 0 then CPU.STAT.SLEEP0 else CPU.STAT.SLEEP1

/-- A source pending at any level above 0 ends SLEEP (R401). -/
def execSleepWake (c : Fin 2) (s : State) : Host.Outcome State Fault Refusal :=
  act (look fun s => whenA ((s.core c).asleep && s.reachable Dom.core && (s.nextSource c 0).isSome)
    (chain [onCore c fun k => { k with asleep := false }, put (sleepFld c) 0])) s

end Sys2Proof.Machine
end

