-- ==== Sys2Proof/Machine/Denat.lean ====
section
/-! DEFINITION. The Denat instructions (R411 to R422). -/

namespace Sys2Proof.Machine

/-! The stack (R411). -/

/-- A 16-bit instruction of a core. -/
def short (c : Fin 2) (m : Dn Unit) (s : State) : Host.Outcome State Fault Refusal := act (dnRun c false m) s

/-- A 32-bit instruction of a core. -/
def long (c : Fin 2) (m : Dn Unit) (s : State) : Host.Outcome State Fault Refusal := act (dnRun c true m) s

/-- Entries are pushed in order. -/
def pushes (l : List Nat) : Dn Unit := l.forM (push .op)

/-- NOP. -/
def execNop (c : Fin 2) (s : State) : Host.Outcome State Fault Refusal := short c (pure ()) s

/-- DUP ( a — a a ). -/
def execDup (c : Fin 2) (s : State) : Host.Outcome State Fault Refusal := short c (do
  let a ← pop .op
  pushes [a, a]) s

/-- DROP ( a — ). -/
def execDrop (c : Fin 2) (s : State) : Host.Outcome State Fault Refusal := short c (do
  let _ ← pop .op) s

/-- SWAP ( a b — b a ). -/
def execSwap (c : Fin 2) (s : State) : Host.Outcome State Fault Refusal := short c (do
  let b ← pop .op
  let a ← pop .op
  pushes [b, a]) s

/-- OVER ( a b — a b a ). -/
def execOverTop (c : Fin 2) (s : State) : Host.Outcome State Fault Refusal := short c (do
  let b ← pop .op
  let a ← pop .op
  pushes [a, b, a]) s

/-- ROT ( a b c — b c a ). -/
def execRot (c : Fin 2) (s : State) : Host.Outcome State Fault Refusal := short c (do
  let z ← pop .op
  let b ← pop .op
  let a ← pop .op
  pushes [b, z, a]) s

/-- NIP ( a b — b ). -/
def execNip (c : Fin 2) (s : State) : Host.Outcome State Fault Refusal := short c (do
  let b ← pop .op
  let _ ← pop .op
  push .op b) s

/-- TUCK ( a b — b a b ). -/
def execTuck (c : Fin 2) (s : State) : Host.Outcome State Fault Refusal := short c (do
  let b ← pop .op
  let a ← pop .op
  pushes [b, a, b]) s

/-- The entry `k` places under the top; one in memory is read there (R411). -/
def pick (k : Nat) : Dn Nat := do
  let l ← askK (·.ds)
  let p ← askK (·.dsp)
  let b ← askK (·.dsbase)
  if h : k < l.length then pure l[k]
  else
    let a := p + 4 * (k - l.length)
    if b ≤ a then raise (.stack a) else loadAt (wrap a) 4

/-- PICK ( xk … x0 n — xk … x0 xk ). -/
def execPick (c : Fin 2) (s : State) : Host.Outcome State Fault Refusal := short c (do
  let n ← pop .op
  let x ← pick (n % 64)
  push .op x) s

/-- >R ( a — ) R:( — a ). -/
def execToR (c : Fin 2) (s : State) : Host.Outcome State Fault Refusal := short c (do
  let a ← pop .op
  push .ret a) s

/-- R> ( — a ) R:( a — ). -/
def execRFrom (c : Fin 2) (s : State) : Host.Outcome State Fault Refusal := short c (do
  let a ← pop .ret
  push .op a) s

/-- R@ ( — a ) R:( a — a ). -/
def execRFetch (c : Fin 2) (s : State) : Host.Outcome State Fault Refusal := short c (do
  let a ← pop .ret
  push .ret a
  push .op a) s

/-- RDROP R:( a — ). -/
def execRdrop (c : Fin 2) (s : State) : Host.Outcome State Fault Refusal := short c (do
  let _ ← pop .ret) s

/-! Arithmetic (R412). -/

/-- ADD ( a b — r ). -/
def execAdd (c : Fin 2) (s : State) : Host.Outcome State Fault Refusal := short c (binary fun a b => addAlu a b 0) s

/-- ADC ( a b — r ). -/
def execAdc (c : Fin 2) (s : State) : Host.Outcome State Fault Refusal := short c (do
  let f ← carry
  binary fun a b => addAlu a b f) s

/-- SUB ( a b — r ). -/
def execSub (c : Fin 2) (s : State) : Host.Outcome State Fault Refusal := short c (binary fun a b => subAlu a b 0) s

/-- SBC ( a b — r ). -/
def execSbc (c : Fin 2) (s : State) : Host.Outcome State Fault Refusal := short c (do
  let f ← carry
  binary fun a b => subAlu a b f) s

/-- NEG ( a — r ). -/
def execNeg (c : Fin 2) (s : State) : Host.Outcome State Fault Refusal := short c (unary fun a => subAlu 0 a 0) s

/-- ABS ( a — r ). -/
def execAbs (c : Fin 2) (s : State) : Host.Outcome State Fault Refusal := short c (unary absAlu) s

/-- MUL ( a b — r ). -/
def execMul (c : Fin 2) (s : State) : Host.Outcome State Fault Refusal := short c (binary mulAlu) s

/-- MULL ( a b — lo hi ), signed. -/
def execMull (c : Fin 2) (s : State) : Host.Outcome State Fault Refusal :=
  short c (binary fun a b => longAlu (toS 32 a * toS 32 b)) s

/-- MULU ( a b — lo hi ), unsigned. -/
def execMulu (c : Fin 2) (s : State) : Host.Outcome State Fault Refusal :=
  short c (binary fun a b => longAlu ((a * b : Nat) : Int)) s

/-- MULQ ( a b — r ), signed Q31. -/
def execMulq (c : Fin 2) (s : State) : Host.Outcome State Fault Refusal := short c (binary mulqAlu) s

/-- A division: by 0 it raises DIVZ, after whatever ranks before it (R394, R412). -/
def division (f : Nat → Nat → Alu) : Dn Unit := do
  let b ← pop .op
  let a ← pop .op
  fun r => if b = 0 && r.late.isNone then .error .divz else finish (f a b) r

/-- DIV ( a b — r ), signed. -/
def execDiv (c : Fin 2) (s : State) : Host.Outcome State Fault Refusal := short c (division divAlu) s

/-- DIVU ( a b — r ), unsigned. -/
def execDivu (c : Fin 2) (s : State) : Host.Outcome State Fault Refusal := short c (division divuAlu) s

/-- MOD ( a b — r ), signed. -/
def execMod (c : Fin 2) (s : State) : Host.Outcome State Fault Refusal := short c (division modAlu) s

/-- MODU ( a b — r ), unsigned. -/
def execModu (c : Fin 2) (s : State) : Host.Outcome State Fault Refusal := short c (division moduAlu) s

/-- CMP ( a b — ): the flags of SUB. -/
def execCmp (c : Fin 2) (s : State) : Host.Outcome State Fault Refusal :=
  short c (binary fun a b => { subAlu a b 0 with out := [] }) s

/-- TST ( a — a ). -/
def execTst (c : Fin 2) (s : State) : Host.Outcome State Fault Refusal := short c (unary logicAlu) s

/-! Logic, shifts and packed halves (R413). -/

/-- AND ( a b — r ). -/
def execAnd (c : Fin 2) (s : State) : Host.Outcome State Fault Refusal := short c (binary fun a b => logicAlu (a &&& b)) s

/-- OR ( a b — r ). -/
def execOr (c : Fin 2) (s : State) : Host.Outcome State Fault Refusal := short c (binary fun a b => logicAlu (a ||| b)) s

/-- XOR ( a b — r ). -/
def execXor (c : Fin 2) (s : State) : Host.Outcome State Fault Refusal := short c (binary fun a b => logicAlu (a ^^^ b)) s

/-- NOT ( a — r ). -/
def execNot (c : Fin 2) (s : State) : Host.Outcome State Fault Refusal :=
  short c (unary fun a => logicAlu (2 ^ 32 - 1 - a)) s

/-- SHL ( a n — r ). -/
def execShl (c : Fin 2) (s : State) : Host.Outcome State Fault Refusal := short c (binary shlAlu) s

/-- SHR ( a n — r ). -/
def execShr (c : Fin 2) (s : State) : Host.Outcome State Fault Refusal := short c (binary shrAlu) s

/-- SAR ( a n — r ). -/
def execSar (c : Fin 2) (s : State) : Host.Outcome State Fault Refusal := short c (binary sarAlu) s

/-- ROR ( a n — r ). -/
def execRor (c : Fin 2) (s : State) : Host.Outcome State Fault Refusal := short c (binary rorAlu) s

/-- CLZ ( a — n ). -/
def execClz (c : Fin 2) (s : State) : Host.Outcome State Fault Refusal := short c (unary fun a => logicAlu (clz a)) s

/-- BSWAP ( a — r ). -/
def execBswap (c : Fin 2) (s : State) : Host.Outcome State Fault Refusal := short c (unary fun a => { out := [bswap a] }) s

/-- SEXTB ( a — r ). -/
def execSextb (c : Fin 2) (s : State) : Host.Outcome State Fault Refusal := short c (unary fun a => logicAlu (sext 8 a)) s

/-- SEXTH ( a — r ). -/
def execSexth (c : Fin 2) (s : State) : Host.Outcome State Fault Refusal := short c (unary fun a => logicAlu (sext 16 a)) s

/-- ADDH2 ( a b — r ). -/
def execAddh2 (c : Fin 2) (s : State) : Host.Outcome State Fault Refusal :=
  short c (binary fun a b => { out := [halves (· + ·) a b] }) s

/-- SUBH2 ( a b — r ). -/
def execSubh2 (c : Fin 2) (s : State) : Host.Outcome State Fault Refusal :=
  short c (binary fun a b => { out := [halves (· - ·) a b] }) s

/-! Decimal (R414). -/

/-- DADC ( a b — r ). -/
def execDadc (c : Fin 2) (s : State) : Host.Outcome State Fault Refusal := short c (do
  let f ← carry
  binary fun a b => dadcAlu a b f) s

/-- DSBC ( a b — r ). -/
def execDsbc (c : Fin 2) (s : State) : Host.Outcome State Fault Refusal := short c (do
  let f ← carry
  binary fun a b => dsbcAlu a b f) s

/-- DAJ ( x — r ). -/
def execDaj (c : Fin 2) (s : State) : Host.Outcome State Fault Refusal := short c (unary dajAlu) s

/-- DCHK ( x — x ). -/
def execDchk (c : Fin 2) (s : State) : Host.Outcome State Fault Refusal :=
  short c (unary fun x => { out := [x], v := some (badDigit x) }) s

/-- B2D ( u — d ). -/
def execB2d (c : Fin 2) (s : State) : Host.Outcome State Fault Refusal := short c (unary b2dAlu) s

/-- D2B ( d — u ). -/
def execD2b (c : Fin 2) (s : State) : Host.Outcome State Fault Refusal := short c (unary d2bAlu) s

/-- CLC. -/
def execClc (c : Fin 2) (s : State) : Host.Outcome State Fault Refusal := short c (finish { out := [], c := some false }) s

/-- SETC. -/
def execSetc (c : Fin 2) (s : State) : Host.Outcome State Fault Refusal := short c (finish { out := [], c := some true }) s

/-! Memory (R416, R417). -/

/-- A load ( a — x ) of `n` bytes, zero- or sign-extended. -/
def loadOp (n : Nat) (signed : Bool) : Dn Unit := do
  let a ← pop .op
  let x ← loadAt a n
  push .op (if signed then sext (8 * n) x else x)

/-- A store ( x a — ) of `n` bytes: the checks of the address come before the operand under it (R394). -/
def storeOp (n : Nat) : Dn Unit := do
  let a ← pop .op
  check a n true
  let x ← pop .op
  storeData a n x

/-- A parity error in a cache of a core that runs: it counts, and its line is fetched again (R402; notes/assumptions/14.md). -/
def cacheParity (c : Fin 2) (met : Bool) : Act := look fun s => whenA (met && s.coreRuns c)
  (chain [put (CPU.CACHEERR.CNT.i c) (min 65535 (s.get (CPU.CACHEERR.CNT.i c) + 1)), stick CPU.STICKY.CACHEPAR])

/-- LDW, with or without a parity error in a cache (R402). -/
def execLdw (c : Fin 2) (parity : Bool) (s : State) : Host.Outcome State Fault Refusal :=
  act (chain [cacheParity c parity, dnRun c false (loadOp 4 false)]) s

/-- LDH. -/
def execLdh (c : Fin 2) (s : State) : Host.Outcome State Fault Refusal := short c (loadOp 2 false) s

/-- LDHS. -/
def execLdhs (c : Fin 2) (s : State) : Host.Outcome State Fault Refusal := short c (loadOp 2 true) s

/-- LDB. -/
def execLdb (c : Fin 2) (s : State) : Host.Outcome State Fault Refusal := short c (loadOp 1 false) s

/-- LDBS. -/
def execLdbs (c : Fin 2) (s : State) : Host.Outcome State Fault Refusal := short c (loadOp 1 true) s

/-- STW, with or without a parity error in a cache (R402). -/
def execStw (c : Fin 2) (parity : Bool) (s : State) : Host.Outcome State Fault Refusal :=
  act (chain [cacheParity c parity, dnRun c false (storeOp 4)]) s

/-- STH. -/
def execSth (c : Fin 2) (s : State) : Host.Outcome State Fault Refusal := short c (storeOp 2) s

/-- STB. -/
def execStb (c : Fin 2) (s : State) : Host.Outcome State Fault Refusal := short c (storeOp 1) s

/-- The checks of LDD and STD: word accesses at a and a + 4 (R416). -/
def checkPair (a : Nat) (write : Bool) : Dn Unit := do
  checkAlign a 4
  checkAccess a 4 write
  checkAccess (wrap (a + 4)) 4 write

/-- LDD ( a — lo hi ). -/
def execLdd (c : Fin 2) (s : State) : Host.Outcome State Fault Refusal := short c (do
  let a ← pop .op
  checkPair a false
  let lo ← loadData a 4
  let hi ← loadData (wrap (a + 4)) 4
  pushes [lo, hi]) s

/-- One 64-bit store where the address is aligned to 8 bytes and lies in memory, else two word stores (R417). -/
def storePair (a lo hi : Nat) : Dn Unit := fun r =>
  match r.s.route r.ini a true with
  | .mem _ =>
    if a % 8 = 0 then storeData a 8 (lo + hi * 2 ^ 32) r
    else (do storeData a 4 lo; storeData (wrap (a + 4)) 4 hi).run r
  | _ => (do storeData a 4 lo; storeData (wrap (a + 4)) 4 hi).run r

/-- STD ( lo hi a — ). -/
def execStd (c : Fin 2) (s : State) : Host.Outcome State Fault Refusal := short c (do
  let a ← pop .op
  checkPair a true
  let hi ← pop .op
  let lo ← pop .op
  storePair a lo hi) s

/-! Control (R418). -/

/-- Execution goes on at an address; bit 0 of it is ignored (R409). -/
def goTo (a : Nat) : Dn Unit := onK fun k => { k with pc := wrap a / 2 * 2 }

/-- Execution goes on at the address of the instruction plus 2 × a signed offset (R409). -/
def branch (off : Int) : Dn Unit := fun r => goTo (wrapS (r.at_ + 2 * off)) r

/-- The return address is pushed: that of the instruction that follows (R409). -/
def link : Dn Unit := do
  let p ← askK (·.pc)
  push .ret p

/-- RET R:( p — ). -/
def execRet (c : Fin 2) (s : State) : Host.Outcome State Fault Refusal := short c (do
  let p ← pop .ret
  goTo p) s

/-- RETI R:( p s — ). -/
def execReti (c : Fin 2) (s : State) : Host.Outcome State Fault Refusal := short c (do
  machineOnly
  let st ← pop .ret
  let p ← pop .ret
  onK fun k => { k with status := statusBits st }
  goTo p) s

/-- JMP ( a — ). -/
def execJmp (c : Fin 2) (s : State) : Host.Outcome State Fault Refusal := short c (do
  let a ← pop .op
  goTo a) s

/-- CALLX ( a — ) R:( — p ). -/
def execCallx (c : Fin 2) (s : State) : Host.Outcome State Fault Refusal := short c (do
  let a ← pop .op
  link
  goTo a) s

/-- DO ( n — ) R:( — n ). -/
def execDoLoop (c : Fin 2) (s : State) : Host.Outcome State Fault Refusal := short c (do
  let n ← pop .op
  push .ret n) s

/-- FENCE: every earlier store has completed (R403). -/
def execFence (c : Fin 2) (s : State) : Host.Outcome State Fault Refusal := short c (pure ()) s

/-- SYNCI ( a — ): the instruction cache is not modelled. -/
def execSynci (c : Fin 2) (s : State) : Host.Outcome State Fault Refusal := short c (do
  let _ ← pop .op) s

/-- SYNCIA: the instruction cache is not modelled. -/
def execSyncia (c : Fin 2) (s : State) : Host.Outcome State Fault Refusal := short c (pure ()) s

/-- SLEEP: a no-operation where a source is already pending (R401). -/
def execSleep (c : Fin 2) (s : State) : Host.Outcome State Fault Refusal := short c (do
  machineOnly
  fun r => if (r.s.nextSource r.who 0).isSome then .ok ((), r)
    else (do
      onK fun k => { k with asleep := true }
      emit (put (sleepFld r.who) 1)).run r) s

/-- BRK: BREAK, or with a debugger holding the core a stop at the instruction (R392, R595). -/
def execBrk (c : Fin 2) (s : State) : Host.Outcome State Fault Refusal := short c (fun r =>
  if r.k.held then goTo r.at_ r else .error .brk) s

/-- EI. -/
def execEi (c : Fin 2) (s : State) : Host.Outcome State Fault Refusal := short c (do
  machineOnly
  onK fun k => { k with status := withBit k.status 30 true }) s

/-- DI. -/
def execDi (c : Fin 2) (s : State) : Host.Outcome State Fault Refusal := short c (do
  machineOnly
  onK fun k => { k with status := withBit k.status 30 false }) s

/-! Instructions with operand fields (R419, R420). -/

/-- PUSHS ( — x ). -/
def execPushs (c : Fin 2) (x : BitVec 12) (s : State) : Host.Outcome State Fault Refusal :=
  short c (push .op (wrapS x.toInt)) s

/-- The bytes of an access width w, and whether a load of it is sign-extended. -/
def widthOf (w : Nat) : Nat := [1, 2, 4, 2].getD w 4

/-- A loaded value of width w as a word. -/
def extended (w x : Nat) : Nat := if w = 3 then sext 16 x else x

/-- LDA ( — x ). -/
def execLda (c : Fin 2) (n w : Fin 4) (step : BitVec 8) (s : State) : Host.Outcome State Fault Refusal := short c (do
  let a ← getA n
  check a (widthOf w) false
  let x ← loadData a (widthOf w)
  push .op (extended w x)
  stepA n (widthOf w) step.toInt) s

/-- STA ( x — ). -/
def execSta (c : Fin 2) (n : Fin 4) (w : Fin 3) (step : BitVec 8) (s : State) : Host.Outcome State Fault Refusal := short c (do
  let a ← getA n
  check a (widthOf w) true
  let x ← pop .op
  storeData a (widthOf w) x
  stepA n (widthOf w) step.toInt) s

/-- BR. -/
def execBr (c : Fin 2) (rel : BitVec 12) (s : State) : Host.Outcome State Fault Refusal := short c (branch rel.toInt) s

/-- BZ ( a — ). -/
def execBz (c : Fin 2) (rel : BitVec 12) (s : State) : Host.Outcome State Fault Refusal := short c (do
  let a ← pop .op
  if a = 0 then branch rel.toInt else pure ()) s

/-- BNZ ( a — ). -/
def execBnz (c : Fin 2) (rel : BitVec 12) (s : State) : Host.Outcome State Fault Refusal := short c (do
  let a ← pop .op
  if a = 0 then pure () else branch rel.toInt) s

/-- CALL R:( — p ). -/
def execCall (c : Fin 2) (rel : BitVec 12) (s : State) : Host.Outcome State Fault Refusal := short c (do
  link
  branch rel.toInt) s

/-- ADDI ( a — r ). -/
def execAddi (c : Fin 2) (x : BitVec 12) (s : State) : Host.Outcome State Fault Refusal :=
  short c (unary fun a => addAlu a (wrapS x.toInt) 0) s

/-- LOOP R:( k — k − 1 ) and a branch, or R:( k — ). -/
def execLoop (c : Fin 2) (rel : BitVec 12) (s : State) : Host.Outcome State Fault Refusal := short c (do
  let k ← pop .ret
  if k = 1 then pure ()
  else do
    push .ret (wrap (k + 2 ^ 32 - 1))
    branch rel.toInt) s

/-- LDS ( — x ). -/
def execLds (c : Fin 2) (n : Fin 4) (off : BitVec 10) (s : State) : Host.Outcome State Fault Refusal := short c (do
  let b ← getA n
  let a := wrap (b + 4 * off.toNat)
  check a 4 false
  let x ← loadData a 4
  push .op x) s

/-- STS ( x — ). -/
def execSts (c : Fin 2) (n : Fin 4) (off : BitVec 10) (s : State) : Host.Outcome State Fault Refusal := short c (do
  let b ← getA n
  let a := wrap (b + 4 * off.toNat)
  check a 4 true
  let x ← pop .op
  storeData a 4 x) s

/-- BCC. -/
def execBcc (c : Fin 2) (cond : Fin 15) (rel : BitVec 8) (s : State) : Host.Outcome State Fault Refusal := short c (do
  let st ← askK (·.status)
  if condition cond st then branch rel.toInt else pure ()) s

/-- AREG AGET ( — An ). -/
def execAget (c : Fin 2) (n : Fin 4) (s : State) : Host.Outcome State Fault Refusal := short c (do
  let a ← getA n
  push .op a) s

/-- AREG ASET ( a — ). -/
def execAset (c : Fin 2) (n : Fin 4) (s : State) : Host.Outcome State Fault Refusal := short c (do
  let a ← pop .op
  setA n a) s

/-- AREG ASTEP: An is stepped as by a word access. -/
def execAstep (c : Fin 2) (n : Fin 4) (step : BitVec 8) (s : State) : Host.Outcome State Fault Refusal :=
  short c (stepA n 4 step.toInt) s

/-! 32-bit encodings (R421, R422). -/

/-- PUSHL ( — x ). -/
def execPushl (c : Fin 2) (x : BitVec 24) (s : State) : Host.Outcome State Fault Refusal :=
  long c (push .op (wrapS x.toInt)) s

/-- PUSHHI ( — x ). -/
def execPushhi (c : Fin 2) (x : BitVec 16) (s : State) : Host.Outcome State Fault Refusal :=
  long c (push .op (x.toNat * 2 ^ 16)) s

/-- ORI ( a — r ). -/
def execOri (c : Fin 2) (x : BitVec 16) (s : State) : Host.Outcome State Fault Refusal :=
  long c (unary fun a => logicAlu (a ||| x.toNat)) s

/-- BRL. -/
def execBrl (c : Fin 2) (rel : BitVec 24) (s : State) : Host.Outcome State Fault Refusal := long c (branch rel.toInt) s

/-- CALLL R:( — p ). -/
def execCalll (c : Fin 2) (rel : BitVec 24) (s : State) : Host.Outcome State Fault Refusal := long c (do
  link
  branch rel.toInt) s

/-- RDC ( — x ). -/
def execRdc (c : Fin 2) (r : BitVec 8) (s : State) : Host.Outcome State Fault Refusal := long c (readCr r.toNat) s

/-- WRC ( x — ). -/
def execWrc (c : Fin 2) (r : BitVec 8) (s : State) : Host.Outcome State Fault Refusal := long c (writeCr r.toNat) s

/-- TRAP. -/
def execTrap (c : Fin 2) (t : BitVec 8) (s : State) : Host.Outcome State Fault Refusal := long c (raise (.trap t.toNat)) s

/-- LDO ( a — x ). -/
def execLdo (c : Fin 2) (w : Fin 4) (off : BitVec 16) (s : State) : Host.Outcome State Fault Refusal := long c (do
  let b ← pop .op
  let x ← loadAt (wrapS (b + off.toInt)) (widthOf w)
  push .op (extended w x)) s

/-- STO ( x a — ). -/
def execSto (c : Fin 2) (w : Fin 3) (off : BitVec 16) (s : State) : Host.Outcome State Fault Refusal := long c (do
  let b ← pop .op
  let a := wrapS (b + off.toInt)
  check a (widthOf w) true
  let x ← pop .op
  storeData a (widthOf w) x) s

/-- The sum of MACX with N, Z and V; C is unchanged. -/
def macAlu (acc : Nat) (p : Int) : Alu := .nz (wrapS (acc + p)) (some !(fits (toS 32 acc + p))) none

/-- MACX ( acc — r ). -/
def execMacx (c : Fin 2) (x y : Fin 4) (sx sy : BitVec 8) (s : State) : Host.Outcome State Fault Refusal := long c (do
  let ax ← getA x
  let ay ← getA y
  checkAlign ax 2
  checkAlign ay 2
  checkAccess ax 2 false
  checkAccess ay 2 false
  let acc ← pop .op
  let hx ← loadData ax 2
  let hy ← loadData ay 2
  finish (macAlu acc (toS 16 hx * toS 16 hy))
  stepA x 2 sx.toInt
  stepA y 2 sy.toInt) s

end Sys2Proof.Machine
end

