-- ==== Sys2Proof/Machine/Debug.lean ====
section
/-! DEFINITION. The test access port and the debug access port (R594, R595), and the boot ROM's reload routine (R581). -/

namespace Sys2Proof.Machine

/-! The port (R594). -/

/-- Whether the whole port acts: the lock is OPEN or RETURN. -/
def State.portOpen (s : State) : Bool := s.lockState == lockOpen || s.lockState == lockReturn

/-- An instruction is loaded; outside its states it acts as BYPASS. The port lies in CORE (R604). -/
def loadIr (code : Nat) (acts : State → Bool) : Act := look fun s =>
  whenA (s.domOn Dom.core) (onDbg fun d => { d with ir := if acts s then code else 0x1F })

/-- TRSTN low, or five TCK cycles with TMS high: Test-Logic-Reset, with IDCODE selected. -/
def execTapReset (s : State) : Host.Outcome State Fault Refusal := act (loadIr 0x01 fun _ => true) s

/-- EXTEST. -/
def execExtest (s : State) : Host.Outcome State Fault Refusal := act (loadIr 0x00 State.portOpen) s

/-- IDCODE reads version 0x1, part 0x4096 and manufacturer field 0x2E7. -/
def execIdcode (s : State) : Host.Outcome State Fault Refusal :=
  act (chain [loadIr 0x01 fun _ => true, look fun s => whenA (s.domOn Dom.core) (onDbg fun d => { d with out := 0x140965CF })]) s

/-- SAMPLE/PRELOAD. -/
def execSamplePreload (s : State) : Host.Outcome State Fault Refusal := act (loadIr 0x02 State.portOpen) s

/-- DBGAP connects the debug access port. -/
def execDbgap (s : State) : Host.Outcome State Fault Refusal := act (loadIr 0x08 State.portOpen) s

/-- BYPASS. -/
def execBypass (s : State) : Host.Outcome State Fault Refusal := act (loadIr 0x1F fun _ => true) s

/-! The debugger (R595). -/

/-- Whether a debugger is connected. -/
def State.debugging (s : State) : Bool := s.domOn Dom.core && s.dbg.ir == 0x08 && s.portOpen

/-- DBGCONN follows the cores that are held. -/
def showHeld : Act := look fun s => put DBG.STAT.DBGCONN (if s.dn.cores.any (·.held) then 1 else 0)

/-- A core is halted. -/
def execDebugHalt (c : Fin 2) (s : State) : Host.Outcome State Fault Refusal :=
  act (look fun s => whenA s.debugging (chain [onCore c fun k => { k with held := true, step := false }, showHeld])) s

/-- A halted core may run one instruction. -/
def execDebugStep (c : Fin 2) (s : State) : Host.Outcome State Fault Refusal :=
  act (look fun s => whenA (s.debugging && (s.core c).held) (onCore c fun k => { k with step := true })) s

/-- A halted core resumes. -/
def execDebugResume (c : Fin 2) (s : State) : Host.Outcome State Fault Refusal :=
  act (look fun s => whenA s.debugging (chain [onCore c fun k => { k with held := false, step := false }, showHeld])) s

/-- A control register of a core is read, or written as WRC writes it in machine mode. -/
def debugControl (c : Fin 2) (r : Nat) (w : Option Word) : Act := look fun s =>
  let k := s.core c
  match w with
  | none => answer .debug (k.cr c r)
  | some x =>
    match (setCr r x.toNat).run { who := c, at_ := k.pc, k, s } with
    | .ok (_, u) => chain [fun _ => u.out, onCore c fun _ => u.k]
    | .error _ => skip

/-- An entry of a stack, in a register or in memory. -/
def debugStack (c : Fin 2) (t : Stk) (n : Nat) (w : Option Word) : Act := look fun s =>
  let k := s.core c
  let l := k.held_ t
  if n < l.length then
    match w with
    | none => answer .debug (l.getD n 0)
    | some x => onCore c fun k => k.setStk t (l.set n x.toNat) (k.ptr t)
  else busAccess .debug (wrap (k.ptr t + 4 * (n - l.length))) 4 w

/-- An access of the debugger, an unbound initiator in machine mode. -/
def debugAccess (t : DebugTarget) (w : Option Word) : Act :=
  match t with
  | .mem a n => busAccess .debug a.toNat (accessWidth n) w
  | .control c r => debugControl c r w
  | .stack c ret n => debugStack c (if ret then .ret else .op) n w
  | .breakpoint c a set => onDbg fun d => { d with
      breaks := d.breaks.filter (· != (c.val, a.toNat)) ++ if set then [(c.val, a.toNat)] else [] }

/-- An access of the debugger. -/
def execDebugAccess (t : DebugTarget) (w : Option Word) (s : State) : Host.Outcome State Fault Refusal :=
  act (look fun s => whenA s.debugging (debugAccess t w)) s

/-! The reload routine (R581). -/

/-- The status of a reload of the parts in a mask from the active bank. -/
def State.reloadStatus (s : State) (mask : Nat) : Nat :=
  let parts := s.partsOf s.activeBank mask
  let base := bankBase s.activeBank
  if !s.is UPD.BOOTSTAT.WARM then Status.prot
  else if 8 ≤ mask || mask &&& s.partMask != mask then Status.rsvdOp
  else if parts.any fun x => s.ue (base + x.2.1) x.2.2 then Status.eccUncorr
  else if parts.all fun x => s.partOk base x.2 then Status.ok else Status.authFail

/-- The routine ( mask — status ), and its return to the caller. -/
def reloadRoutine : Dn Unit := do
  let mask ← pop .op
  let st ← fun r => .ok (r.s.reloadStatus mask, r)
  if st = Status.ok then emit (look fun s => loadParts s.activeBank mask) else pure ()
  push .op st
  let p ← pop .ret
  goTo p

/-- A core has come to the routine, whose address is boot ROM word 128: the routine runs and returns. -/
def execReloadRoutine (c : Fin 2) (s : State) : Host.Outcome State Fault Refusal :=
  act (look fun s => whenA ((s.core c).pc == s.word 0x200 / 2 * 2) (dnRun c false reloadRoutine)) s

end Sys2Proof.Machine
end

