-- ==== Sys2Proof/Machine/Power.lean ====
section
/-! DEFINITION. The power-down sequence, wake sources and the restore (R467 to R482). -/

namespace Sys2Proof.Machine

/-! Work in flight (R472). -/

/-- Whether the fence closes a domain. -/
def State.closes (s : State) (d : Nat) : Bool := bitOf s.pwr.closing d == 1

/-- The closing domain that an address lies in. -/
def State.closedAt (s : State) (a : Nat) : Option Nat := if s.closes (domainOf a) then some (domainOf a) else none

/-- Work in flight: what FENCELOG shows of it (initiator, channel, domain), where it has a code there. -/
abbrev Work := Option (Nat × Nat × Nat)

/-- The running Mover channels that the fence affects (R473). -/
def State.moverWork (s : State) : List Nat := (List.range 16).filter fun c =>
  s.get (MOV.CSTAT.STATE.i c) == 2 && s.fenced (s.get (MOV.CCUR.ADDR.i c)) ((s.movCh c).desc.getD [])

/-- The closing domain of a Mover channel's work: that of its source, its destination or its descriptor, or CORE. -/
def State.moverDomain (s : State) (c : Nat) : Nat :=
  let d := (s.movCh c).desc.getD []
  ([dWord d 1, dWord d 2, s.get (MOV.CCUR.ADDR.i c)].findSome? s.closedAt).getD Dom.core

/-- Words of the host that touch a closing domain and have not been performed. -/
def State.hostWork (s : State) : Option Nat :=
  if s.closes Dom.core && (!s.hif.fifo.isEmpty || s.hif.read.isSome) then some Dom.core
  else match (s.hif.fifo.filter (·.early)).findSome? fun w => s.closedAt w.addr with
    | some d => some d
    | none => match s.hif.read with
      | some r => if r.early then s.closedAt (hostAddr r.vi r.seg r.field) else none
      | none => none

/-- The banks that run an operation started with NOSUSP. -/
def State.flashWork (s : State) : List Nat :=
  if s.closes Dom.nvm then (List.range 2).filter fun b => (s.bank b).op.isSome else []

/-- Chains with a transmission that has not ended its ramp-down. -/
def State.txWork (s : State) : List Nat :=
  if s.closes Dom.tx || s.closes Dom.mac then (List.range 2).filter fun c => (s.txChain c).busy.isSome else []

/-- Everything that the fence waits for. -/
def State.fenceWork (s : State) : List Work :=
  (s.moverWork.map fun c => some (0, c, s.moverDomain c))
    ++ (match s.hostWork with | some d => [some (1, 0, d)] | none => [])
    ++ (s.flashWork.map fun _ => some (2, 0, Dom.nvm))
    ++ (s.txWork.map fun _ => none)
    ++ (if s.closes Dom.core && (s.i2c.a.isSome || s.i2c.b.isSome || !s.recd.held.isEmpty) then [none] else [])
    ++ (if s.closes Dom.lamp && s.lmp.relay.any fun r => r.pulse.isSome then [none] else [])

/-! The start of the sequence (R471, R472). -/

/-- Flash operations that may be suspended end, and stay OPEN (R447, R472). -/
def flashClose : Act := eachA [0, 1] fun b => look fun s =>
  match (s.bank b).op with
  | some o => whenA (!o.noSusp) (opEnds b Status.abortedPd o.done)
  | none => skip

/-- Software jobs that touch a closing domain end, and with CORE closing every job; nothing is released (R472). -/
def cipherClose : Act := look fun s =>
  let hit (j : SoftJob) : Bool := s.closes Dom.core || (s.closedAt j.src).isSome || (s.closedAt j.dst).isSome
  let gone := s.sec.jobs.filter hit
  let head := match s.sec.jobs with | j :: _ => hit j | [] => false
  chain [onSec fun e => { e with jobs := e.jobs.filter fun j => !hit j },
    eachA gone fun j => jobEnds j.vi Status.abortedPd,
    whenA head (look fun s => chain [keysSettle (s.usesSlot true), jobStarts]),
    whenA (s.closes Dom.core) (chain [
      whenA s.sec.hash.isSome (chain [onSec fun e => { e with hash := none }, put SEC.HSTAT.BUSY 0, put SEC.HCTRL.GO 0,
        put SEC.HSTAT.STATUS Status.abortedPd, stick SEC.STICKY.HDONE]),
      whenA s.sec.frame.isSome endFrameJob])]

/-- Transmissions on air ramp down with ABORTED_PD, and armed ones end with it (R266, R472). -/
def txClose : Act := eachA [0, 1] fun c => chain [
  look fun s => eachA ((s.txChain c).runs.filter fun r => r.phase == 0) fun r => refuseRun c r Status.abortedPd,
  abortRun c Status.abortedPd]

/-- Copies of received frames that are held count as RXDROP, and no cell of the slot starts (R472). -/
def macClose : Act := chain [
  look fun s => eachA (s.frm.frames.flatMap (·.copies)) dropCopy,
  onFrm fun m => { m with frames := m.frames.map fun f => { f with copies := [] } },
  cellsStop]

/-- What becomes of the blocks of the closing domains as the fence opens. -/
def blocksClose : Act := look fun s => chain [
  whenA (s.closes Dom.nvm) flashClose,
  cipherClose,
  whenA (s.closes Dom.rxn || s.closes Dom.rxw) (eachA (List.range 128) checkLane),
  whenA (s.closes Dom.tx || s.closes Dom.mac) txClose,
  whenA (s.closes Dom.mac) macClose,
  whenA (s.closes Dom.lamp) lampClose,
  moverFence]

/-- The mode changes at the end of a sequence or a restore (R473, R476). -/
def reachMode (m : Nat) : Act := chain [put PWR.STAT.BUSY 0, put PWR.STAT.MODE m, thimbleRun]

/-- The sequence toward a mode starts: every domain that is to go off closes (R472). Where none is, the mode is reached. -/
def sequenceStart (m : Nat) : Act := look fun s =>
  let closing := domainsLess (s.get PWR.STAT.DOMON) (s.modeDomains m ||| 1)
  chain [put PWR.MODEREQ.PEND 0,
    if closing == 0 then (if m == 4 then chain [lifeDue, enterOff] else reachMode m)
    else chain [put PWR.STAT.BUSY 1,
      onPwr fun p => { p with
        closing := closing
        fenceAt := s.tb
        downTo := m },
      blocksClose]]

/-- Whether the pending request is to be carried out: from the first tick after it at which PHOLD is 0, or the first tick of
all for a request made while PHOLD was 0, which is not affected; or at once while TICKEN is 0; a sequence or restore that runs
ends first (R471, R478). PHOLD holds requests for LISTEN and HIBERNATE (R283; notes/assumptions/37.md). -/
def State.requestDue (s : State) : Bool :=
  s.is PWR.MODEREQ.PEND && !s.pwrBusy && s.domOn Dom.core &&
    (if s.is CLK.CTRL.TICKEN then s.pwr.tickCame && s.pwr.askedAt < s.clk.lastTick
     else !s.pwr.held || s.get THM.STAT.PHOLD == 0 || !(s.get PWR.MODEREQ.TARGET == 2 || s.get PWR.MODEREQ.TARGET == 3))

/-- The power-down sequence starts (R471). -/
def execPowerDownStart (s : State) : Host.Outcome State Fault Refusal :=
  act (look fun s => whenA s.requestDue (sequenceStart (s.get PWR.MODEREQ.TARGET))) s

/-- PHOLD has reached 0 and a held request for LISTEN or HIBERNATE is carried out (R283). -/
def execPholdExpire (s : State) : Host.Outcome State Fault Refusal :=
  act (look fun s => whenA (s.requestDue && (s.get PWR.MODEREQ.TARGET == 2 || s.get PWR.MODEREQ.TARGET == 3))
    (sequenceStart (s.get PWR.MODEREQ.TARGET))) s

/-! The end of the fence (R472 to R474). -/

/-- Lane 0 has changed its input, since RXW went off or was restored: a frame in progress is abandoned (R108). -/
def laneSwitch : Act := look fun s => whenA (s.domOn Dom.rxn && !s.is DMD.CTRL.L0NARROW) (chain [abandonLane 0, settleLane 0])

/-- The closing domains switch off, and the mode is reached; a wake that came meanwhile starts its restore (R478). -/
def domainsOff : Act := look fun s =>
  let m := s.pwr.downTo
  chain [
    whenA (m == 4) lifeDue,
    eachA (domainList s.pwr.closing) domainOff,
    put PWR.STAT.DOMON (domainsLess (s.get PWR.STAT.DOMON) s.pwr.closing),
    whenA (bitOf s.pwr.closing Dom.rxw == 1) laneSwitch,
    onPwr fun p => { p with
      closing := 0
      wakeAfter := none },
    if m == 4 then enterOff else reachMode m,
    match s.pwr.wakeAfter with
    | some w => whenA (m != 4) (startRestore w)
    | none => skip]

/-- No work that touches the closing domains remains (R472). -/
def execFenceEnd (s : State) : Host.Outcome State Fault Refusal :=
  act (look fun s => whenA (s.pwr.closing != 0 && s.fenceWork.isEmpty) domainsOff) s

/-- The words of the host that are left fail, and those of a write burst are ignored (R472, R567). -/
def hostCut : Act := look fun s =>
  whenA s.hostWork.isSome (chain [
    (match s.hif.read, s.hif.fifo with
     | some r, _ => hostError 5 r.vi r.field none
     | none, w :: _ => hostError 5 w.vi w.field none
     | none, [] => skip),
    failRest, onHif fun h => { h with fifo := [] }])

/-- The recorder's samples that are still held are lost, and the record of one whose write was due is cut short: its slot is left
with SEQ 0 (R541, R546). -/
def samplesCut : Act := look fun s => whenA (s.closes Dom.core)
  (chain [whenA (match firstSample s.recd.held with | some x => x.fired.tb + 2 ≤ s.tb | none => false)
      (setWord (ringSlot (s.get REC.WRIDX.IDX)) 0),
    addSat REC.LOSTCNT.QUEUE s.recd.held.length, whenA (!s.recd.held.isEmpty) (stick REC.STICKY.LOST),
    onRecd fun r => { r with held := [] }])

/-- Every kind of work but an operation started with NOSUSP ends (R472, R473, R498, R546, R554). -/
def workEnds : Act := look fun s => chain [
  eachA s.moverWork fun c => endDescriptor c Status.abortedPd,
  hostCut,
  eachA s.txWork fun c => look fun s => match (s.txChain c).busy with | some r => rampDownEnd c r | none => skip,
  whenA (s.closes Dom.core) i2cCut, samplesCut,
  whenA (s.closes Dom.lamp) relayCut]

/-- PDFENCE µs have passed since the fence opened: work that remains ends, and FENCELOG keeps the first of it (R472). -/
def fenceTimeout : Act := look fun s =>
  whenA (s.pwr.closing != 0) (chain [until_ (s.pwr.fenceAt + 4 * s.get PWR.PDFENCE.LIMIT), look fun s =>
    whenA (!s.fenceWork.isEmpty) (chain [
      stick PWR.STICKY.FENCETO,
      match s.fenceWork.findSome? id with
      | some (i, c, d) => whenA (!s.is PWR.FENCELOG.V) (chain [put PWR.FENCELOG.INIT i, put PWR.FENCELOG.CH c,
          put PWR.FENCELOG.DOMAIN d, put PWR.FENCELOG.V 1])
      | none => skip,
      workEnds])])

/-- PDFENCE µs have passed (R472). -/
def execFenceTimeout (s : State) : Host.Outcome State Fault Refusal := act fenceTimeout s

/-! The restore (R476). -/

/-- The XO is stable and the PLL has locked: AON stable. -/
def execXoStable (s : State) : Host.Outcome State Fault Refusal :=
  act (look fun s => whenA (!s.pwr.restoring.isEmpty && s.pwr.starting) (onPwr fun p => { p with
    starting := false
    stepAt := s.tb })) s

/-- The delay of a domain's step in µs. -/
def stepDelay (d : Nat) : Nat := [0, 40, 60, 80, 120, 400, 150, 50, 200].getD d 0

/-- TB after `n` crystal cycles, none while the crystal stands (R68), and the ticks whose time it has passed (R58). -/
def clockRestore (n : Nat) : Act := look fun s =>
  let n := if s.thm.k32ok then n else 0
  let tb := (s.clk.savedTb.getD s.tb + k32Units n) % 2 ^ 64
  let len := s.get CLK.SLOTLEN.LEN
  let k := if s.clk.savedTick && len != 0 && s.clk.nextTick < tb then (tb - s.clk.nextTick - 1) / len + 1 else 0
  chain [onClk fun c => { c with
      tb := tb
      savedTb := none
      savedTick := false
      nextTick := c.nextTick + k * len
      lastTick := if k = 0 then c.lastTick else c.nextTick + (k - 1) * len
      asn := (c.asn + k) % 2 ^ 40
      asnSince := if k = 0 then c.asnSince else c.nextTick + (k - 1) * len
      asnBefore := if k = 0 then c.asnBefore else (c.asn + k - 1) % 2 ^ 40 },
    put CLK.STAT.TBEST 1, put CLK.STAT.PLLLOCK 1, put CLK.STAT.K32OK (if s.thm.k32ok then 1 else 0)]

/-- CORE is restored (R58, R354, R370, R464, R476, R536, R543, R558, R596). -/
def coreRestore (n : Nat) : Act := chain [
  clockRestore n, collectorRestore, stitchRestore, i2cRestore, scanRing, loadDebug, entropyStart,
  look fun s => onEcc fun e => { e with lapDue := s.tb }, startCores false]

/-- MAC is restored (R223, R268, R294). -/
def macRestore : Act := chain [look fun s => whenA s.bob.hashDue drawHashKey, loadTenancy, dutyRestore]

/-- The units of a port or of the chains become pending (R94). -/
def unitsPending (us : List Nat) : Act := eachA us calPending

/-- What the restore of a domain runs, once its DOMON bit is set. `n` is the crystal's count since CORE went off. -/
def domainRestore (d n : Nat) : Act :=
  match d with
  | 1 => flashRestore
  | 2 => coreRestore n
  | 3 => macRestore
  | 4 => chain [loadRfOtp, unitsPending ((List.range 13).filter fun u => calPort u == some 0)]
  | 5 => chain [settlePort 1, laneSwitch, converterChanged 0, converterChanged 1, look fun s => chain [
      put (FEC.RSCMAP.L.mapBit 0) (if s.dmd.rsc0 then 1 else 0), put (FEC.ILVMAP.L.mapBit 0) (if s.dmd.ilv0 then 1 else 0),
      unitsPending ((List.range 13).filter fun u => calPort u == some 1)]]
  | 6 => unitsPending ((List.range 13).filter fun u => (calChain u).isSome)
  | 7 => lampRestore
  | 8 => chain [look fun s => putS REF.CTRIM.T s.otp.ctrim, gaugeRestore]
  | _ => skip

/-- The next domain of the restore becomes reachable; after the last, the mode changes (R476). -/
def restoreStep (n : Nat) : Act := look fun s =>
  match s.pwr.restoring with
  | [] => skip
  | d :: rest => whenA (!s.pwr.starting) (chain [
      whenA (s.domOn Dom.core) (until_ (s.pwr.stepAt + 4 * stepDelay d)),
      put (PWR.STAT.DOMON.bit d) 1, onPwr fun p => { p with restoring := rest },
      domainRestore d n, moverResume,
      look fun s => onPwr fun p => { p with stepAt := s.tb },
      whenA rest.isEmpty (reachMode s.pwr.upTo)])

/-- A domain becomes reachable at its step (R476). -/
def execDomainRestoreStep (k32 : Nat) (s : State) : Host.Outcome State Fault Refusal := act (restoreStep k32) s

/-! The supply and the wake sources of AON (R469, R470, R475, R480). -/

/-- A second of the RTC: the counts of AON, and the alarm, which in OFF leaves it (R469, R470, R513, R544). -/
def rtcSecond (n : Nat) : Act := look fun s => chain [
  put PWR.RTCSEC.SEC (s.get PWR.RTCSEC.SEC + 1),
  onPwr fun p => { p with alarmDone := false },
  whenA (s.mode != 4) (onRecd fun r => { r with opsec := (r.opsec + 1) % 2 ^ 32 }),
  whenA (!s.domOn Dom.mtr) (onGau fun g => { g with offSec := g.offSec + 1 }),
  if s.mode == 4 then look fun s =>
    whenA (s.get PWR.RTCSEC.SEC == s.get PWR.RTCALM.SEC && s.is (PWR.WAKEEN.SRC.bit 3)) deviceReset
  else rtcAlarm n]

/-- The RTC counts a second; it does not count while the crystal stands (R469, R620). -/
def execRtcSecond (k32 : Nat) (s : State) : Host.Outcome State Fault Refusal :=
  act (look fun s => whenA s.thm.k32ok (rtcSecond k32)) s

/-- VIN falls below FALL (R480). -/
def vinFall (n : Nat) : Act := look fun s =>
  whenA (!s.is PWR.STAT.ONBAK) (chain [put PWR.STAT.ONBAK 1,
    whenA (s.mode != 4 && !s.pwr.inReset) (chain [
      stickAt (s.stampNow n) PWR.STICKY.OUTAGE 0 0, pulseAon 92 n,
      whenA (s.is PWR.CTRL.AUTONARROW && s.mode == 0) (writeModereq 1)])])

/-- VIN falls below FALL (R480). -/
def execVinFall (k32 : Nat) (s : State) : Host.Outcome State Fault Refusal := act (vinFall k32) s

/-- VIN has stayed above RISE for DEB ms (R475, R480). -/
def vinRestored (n : Nat) : Act := look fun s =>
  whenA (s.is PWR.STAT.ONBAK) (chain [put PWR.STAT.ONBAK 0,
    whenA (s.mode != 4 && !s.pwr.inReset) (chain [
      stickAt (s.stampNow n) PWR.STICKY.VINBACK 0 0, pulseAon 93 n, wakeSource 4 s.wakeMode n])])

/-- VIN is back (R480). -/
def execVinRestored (k32 : Nat) (s : State) : Host.Outcome State Fault Refusal := act (vinRestored k32) s

/-- WAKEN is low for its time (R475); in OFF it leaves OFF (R470). -/
def execWakenLow (k32 : Nat) (s : State) : Host.Outcome State Fault Refusal :=
  act (look fun s => if s.mode == 4 then deviceReset
    else whenA (!s.pwr.inReset) (chain [pulseAon 90 k32, wakeSource 2 s.wakeMode k32])) s

/-- BATV has stayed below CUTV for CUTN ms on backup: OFF is entered, over every request and restore (R478, R514). -/
def cutoff (n : Nat) : Act := look fun s =>
  whenA (s.is PWR.STAT.ONBAK && s.mode != 4 && !s.pwr.inReset) (chain [
    whenA (s.domOn Dom.mtr) (chain [stick GAU.STICKY.CUTOFF, whenA (s.get GAU.SOC.VAL != 0) (stick GAU.STICKY.DISAGREE)]),
    pulseAon 94 n,
    onPwr fun p => { p with
      restoring := []
      starting := false
      wakeAfter := none },
    sequenceStart 4])

/-- The backup cutoff (R514). -/
def execCutoff (k32 : Nat) (s : State) : Host.Outcome State Fault Refusal := act (cutoff k32) s

end Sys2Proof.Machine
end

