-- ==== Sys2Proof/Machine/Dispatch.lean ====
section
/-! DEFINITION. The meaning of each command, one arm for each constructor. -/

namespace Sys2Proof.Machine

def exec (i : Instr) (s : State) : Host.Outcome State Fault Refusal :=
  match i with
  | .registerWrite ini a w => Sys2Proof.Machine.execRegisterWrite ini a w s
  | .narrowOrMisalignedAccess ini a n w => Sys2Proof.Machine.execNarrowOrMisalignedAccess ini a n w s
  | .unmappedAccess ini a w => Sys2Proof.Machine.execUnmappedAccess ini a w s
  | .domainOffAccess ini a w => Sys2Proof.Machine.execDomainOffAccess ini a w s
  | .romFlashStore ini a n w => Sys2Proof.Machine.execRomFlashStore ini a n w s
  | .stickyClear ini p v w => Sys2Proof.Machine.execStickyClear ini p v w s
  | .lockWrite ini p v w => Sys2Proof.Machine.execLockWrite ini p v w s
  | .readToClear ini a => Sys2Proof.Machine.execReadToClear ini a s
  | .roleWrite ini w => Sys2Proof.Machine.execRoleWrite ini w s
  | .slotTick temp => Sys2Proof.Machine.execSlotTick temp s
  | .tbloRead ini => Sys2Proof.Machine.execTbloRead ini s
  | .tickadjWrite ini w => Sys2Proof.Machine.execTickadjWrite ini w s
  | .asnhiWrite ini w => Sys2Proof.Machine.execAsnhiWrite ini w s
  | .asnloWrite ini w => Sys2Proof.Machine.execAsnloWrite ini w s
  | .asnloRead ini => Sys2Proof.Machine.execAsnloRead ini s
  | .tickenWrite ini w => Sys2Proof.Machine.execTickenWrite ini w s
  | .pllUnlock => Sys2Proof.Machine.execPllUnlock s
  | .pllRelock => Sys2Proof.Machine.execPllRelock s
  | .k32Fail k32 => Sys2Proof.Machine.execK32Fail k32 s
  | .k32Restart => Sys2Proof.Machine.execK32Restart s
  | .gainWrite ini n cfg w => Sys2Proof.Machine.execGainWrite ini n cfg w s
  | .agcStepDown n level => Sys2Proof.Machine.execAgcStepDown n level s
  | .agcStepUp n level => Sys2Proof.Machine.execAgcStepUp n level s
  | .gainSettled n => Sys2Proof.Machine.execGainSettled n s
  | .clipEvent n low => Sys2Proof.Machine.execClipEvent n low s
  | .converterRun n => Sys2Proof.Machine.execConverterRun n s
  | .externalPaEnable c => Sys2Proof.Machine.execExternalPaEnable c s
  | .txRampUp c => Sys2Proof.Machine.execTxRampUp c s
  | .txPreambleStart c fine => Sys2Proof.Machine.execTxPreambleStart c fine s
  | .txLastBit c => Sys2Proof.Machine.execTxLastBit c s
  | .txRampDownEnd c => Sys2Proof.Machine.execTxRampDownEnd c s
  | .portTxExit n => Sys2Proof.Machine.execPortTxExit n s
  | .returnLossMeasure n loss => Sys2Proof.Machine.execReturnLossMeasure n loss s
  | .calreqWrite ini w => Sys2Proof.Machine.execCalreqWrite ini w s
  | .calPeriodExpire u => Sys2Proof.Machine.execCalPeriodExpire u s
  | .calUnitComplete u results => Sys2Proof.Machine.execCalUnitComplete u results s
  | .calStarve u => Sys2Proof.Machine.execCalStarve u s
  | .windowWrite ini n w => Sys2Proof.Machine.execWindowWrite ini n w s
  | .windowApply n => Sys2Proof.Machine.execWindowApply n s
  | .laneCfgWrite ini v reg n w => Sys2Proof.Machine.execLaneCfgWrite ini v reg n w s
  | .cntclrWrite ini v w => Sys2Proof.Machine.execCntclrWrite ini v w s
  | .rxWindowOpen k => Sys2Proof.Machine.execRxWindowOpen k s
  | .rxWindowClose k => Sys2Proof.Machine.execRxWindowClose k s
  | .energyDetect n dbm t => Sys2Proof.Machine.execEnergyDetect n dbm t s
  | .qualifierPass n xs t => Sys2Proof.Machine.execQualifierPass n xs t s
  | .qualifierTimeout n => Sys2Proof.Machine.execQualifierTimeout n s
  | .sfdMatch n t fine xs power parts u => Sys2Proof.Machine.execSfdMatch n t fine xs power parts u s
  | .sfdTimeout n => Sys2Proof.Machine.execSfdTimeout n s
  | .phrReceived n xs => Sys2Proof.Machine.execPhrReceived n xs s
  | .psduByte n xs => Sys2Proof.Machine.execPsduByte n xs s
  | .addressVerdict n => Sys2Proof.Machine.execAddressVerdict n s
  | .frameEnd n xs u v w x => Sys2Proof.Machine.execFrameEnd n xs u v w x s
  | .dfeBlockCheck n xs => Sys2Proof.Machine.execDfeBlockCheck n xs s
  | .energyInHold n dbm t => Sys2Proof.Machine.execEnergyInHold n dbm t s
  | .stagingBufferLoad k => Sys2Proof.Machine.execStagingBufferLoad k s
  | .directFrameGo ini c now => Sys2Proof.Machine.execDirectFrameGo ini c now s
  | .directWakeGo ini c now => Sys2Proof.Machine.execDirectWakeGo ini c now s
  | .directDue c => Sys2Proof.Machine.execDirectDue c s
  | .maskEvaluate c k p1 p2 => Sys2Proof.Machine.execMaskEvaluate c k p1 p2 s
  | .frameJobStart => Sys2Proof.Machine.execFrameJobStart s
  | .frameVerifyDone dual => Sys2Proof.Machine.execFrameVerifyDone dual s
  | .ackBuilt lane buf t => Sys2Proof.Machine.execAckBuilt lane buf t s
  | .ackDue c => Sys2Proof.Machine.execAckDue c s
  | .deliveryWrite v => Sys2Proof.Machine.execDeliveryWrite v s
  | .ackMatch lane buf => Sys2Proof.Machine.execAckMatch lane buf s
  | .ackTimeout lane => Sys2Proof.Machine.execAckTimeout lane s
  | .ringCfgWrite ini v w => Sys2Proof.Machine.execRingCfgWrite ini v w s
  | .rdidxWrite ini v w => Sys2Proof.Machine.execRdidxWrite ini v w s
  | .patternTdata0Write ini v w => Sys2Proof.Machine.execPatternTdata0Write ini v w s
  | .patternCellCommit ini v w => Sys2Proof.Machine.execPatternCellCommit ini v w s
  | .patternDataRead ini v hi => Sys2Proof.Machine.execPatternDataRead ini v hi s
  | .slotframeEnable ini v h w => Sys2Proof.Machine.execSlotframeEnable ini v h w s
  | .slotframeCfgWrite ini v h range w => Sys2Proof.Machine.execSlotframeCfgWrite ini v h range w s
  | .presetGo ini v w => Sys2Proof.Machine.execPresetGo ini v w s
  | .cellPrefetch => Sys2Proof.Machine.execCellPrefetch s
  | .txSubmit ini v w => Sys2Proof.Machine.execTxSubmit ini v w s
  | .txdonePop ini v => Sys2Proof.Machine.execTxdonePop ini v s
  | .txSecureDone dual => Sys2Proof.Machine.execTxSecureDone dual s
  | .join ini v => Sys2Proof.Machine.execJoin ini v s
  | .form ini v => Sys2Proof.Machine.execForm ini v s
  | .stop ini v => Sys2Proof.Machine.execStop ini v s
  | .beaconJoin => Sys2Proof.Machine.execBeaconJoin s
  | .formationComplete => Sys2Proof.Machine.execFormationComplete s
  | .competingBeacon => Sys2Proof.Machine.execCompetingBeacon s
  | .bobbinWindowWrite ini off => Sys2Proof.Machine.execBobbinWindowWrite ini off s
  | .livenessSweep => Sys2Proof.Machine.execLivenessSweep s
  | .noackmaxReached n => Sys2Proof.Machine.execNoackmaxReached n s
  | .rjonlySet ini w => Sys2Proof.Machine.execRjonlySet ini w s
  | .rjclr ini w => Sys2Proof.Machine.execRjclr ini w s
  | .alloc ini v => Sys2Proof.Machine.execAlloc ini v s
  | .contextActivate ini v n => Sys2Proof.Machine.execContextActivate ini v n s
  | .setshort ini v n => Sys2Proof.Machine.execSetshort ini v n s
  | .setkey ini v n => Sys2Proof.Machine.execSetkey ini v n s
  | .decldead ini v n => Sys2Proof.Machine.execDecldead ini v n s
  | .supersede ini v n => Sys2Proof.Machine.execSupersede ini v n s
  | .free ini v n => Sys2Proof.Machine.execFree ini v n s
  | .clrcol ini v n => Sys2Proof.Machine.execClrcol ini v n s
  | .setts ini v n => Sys2Proof.Machine.execSetts ini v n s
  | .handover ini v n => Sys2Proof.Machine.execHandover ini v n s
  | .read ini v n => Sys2Proof.Machine.execRead ini v n s
  | .bucketRoll => Sys2Proof.Machine.execBucketRoll s
  | .dwellRoll => Sys2Proof.Machine.execDwellRoll s
  | .regtight ini blk dual => Sys2Proof.Machine.execRegtight ini blk dual s
  | .thimbleRestart ini khz => Sys2Proof.Machine.execThimbleRestart ini khz s
  | .thimbleDetectStart => Sys2Proof.Machine.execThimbleDetectStart s
  | .wakeFrameReceived crc code group k32 => Sys2Proof.Machine.execWakeFrameReceived crc code group k32 s
  | .pholdExpire => Sys2Proof.Machine.execPholdExpire s
  | .tenancyOpen ini blk dual => Sys2Proof.Machine.execTenancyOpen ini blk dual s
  | .tenancyModify ini blk dual => Sys2Proof.Machine.execTenancyModify ini blk dual s
  | .tenancyClose ini blk dual => Sys2Proof.Machine.execTenancyClose ini blk dual s
  | .viCloseTick v => Sys2Proof.Machine.execViCloseTick v s
  | .viCloseComplete v => Sys2Proof.Machine.execViCloseComplete v s
  | .viewRefused ini v off w => Sys2Proof.Machine.execViewRefused ini v off w s
  | .bindViolation ini a n w => Sys2Proof.Machine.execBindViolation ini a n w s
  | .linkEnable ini w => Sys2Proof.Machine.execLinkEnable ini w s
  | .linkAlignLock up => Sys2Proof.Machine.execLinkAlignLock up s
  | .trainingMarker fromUp => Sys2Proof.Machine.execTrainingMarker fromUp s
  | .trainingDone rt up nmem => Sys2Proof.Machine.execTrainingDone rt up nmem s
  | .trainingTimeout => Sys2Proof.Machine.execTrainingTimeout s
  | .loadRecordSend => Sys2Proof.Machine.execLoadRecordSend s
  | .loadRecordApply tb next asn commit len adj on phase => Sys2Proof.Machine.execLoadRecordApply tb next asn commit len adj on phase s
  | .tickMarkerCheck ns => Sys2Proof.Machine.execTickMarkerCheck ns s
  | .linkLoss reason codes crcs => Sys2Proof.Machine.execLinkLoss reason codes crcs s
  | .retrain => Sys2Proof.Machine.execRetrain s
  | .handoverRecordSend n => Sys2Proof.Machine.execHandoverRecordSend n s
  | .handoverRecordReceive words => Sys2Proof.Machine.execHandoverRecordReceive words s
  | .handoverAcceptReceive n accepted => Sys2Proof.Machine.execHandoverAcceptReceive n accepted s
  | .handoverSlotH n => Sys2Proof.Machine.execHandoverSlotH n s
  | .migrationEnd n => Sys2Proof.Machine.execMigrationEnd n s
  | .relayedFrame octets tb fine asn lane port vi mode chan plan fcs2 rssi lqi fo gen => Sys2Proof.Machine.execRelayedFrame octets tb fine asn lane port vi mode chan plan fcs2 rssi lqi fo gen s
  | .closeRecord n rxfc => Sys2Proof.Machine.execCloseRecord n rxfc s
  | .rxfcReconcile n => Sys2Proof.Machine.execRxfcReconcile n s
  | .remoteRead ini member addr words => Sys2Proof.Machine.execRemoteRead ini member addr words s
  | .remoteWrite ini member addr words => Sys2Proof.Machine.execRemoteWrite ini member addr words s
  | .remoteAccessServe a n words => Sys2Proof.Machine.execRemoteAccessServe a n words s
  | .remoteAccessDone result words => Sys2Proof.Machine.execRemoteAccessDone result words s
  | .memberIrqLevel k level => Sys2Proof.Machine.execMemberIrqLevel k level s
  | .shuttleRunWrite ini v w => Sys2Proof.Machine.execShuttleRunWrite ini v w s
  | .checkpointWriteDone agree => Sys2Proof.Machine.execCheckpointWriteDone agree s
  | .intermediateCheckpoint => Sys2Proof.Machine.execIntermediateCheckpoint s
  | .lockstepMismatch => Sys2Proof.Machine.execLockstepMismatch s
  | .quiesceComplete => Sys2Proof.Machine.execQuiesceComplete s
  | .restoreComplete good => Sys2Proof.Machine.execRestoreComplete good s
  | .bobbinUeDetect what n word both frame => Sys2Proof.Machine.execBobbinUeDetect what n word both frame s
  | .bobbinRepairDone => Sys2Proof.Machine.execBobbinRepairDone s
  | .faultReportArrive => Sys2Proof.Machine.execFaultReportArrive s
  | .faultQueueAppend => Sys2Proof.Machine.execFaultQueueAppend s
  | .overflowMarkerAppend => Sys2Proof.Machine.execOverflowMarkerAppend s
  | .faultPop ini w => Sys2Proof.Machine.execFaultPop ini w s
  | .injectShuout ini => Sys2Proof.Machine.execInjectShuout ini s
  | .injectBobctx ini n => Sys2Proof.Machine.execInjectBobctx ini n s
  | .ccmEnc ini v w => Sys2Proof.Machine.execCcmEnc ini v w s
  | .ccmDec ini v w => Sys2Proof.Machine.execCcmDec ini v w s
  | .ctr ini v w => Sys2Proof.Machine.execCtr ini v w s
  | .cmacGen ini v w => Sys2Proof.Machine.execCmacGen ini v w s
  | .cmacVer ini v w => Sys2Proof.Machine.execCmacVer ini v w s
  | .unwrap ini v w => Sys2Proof.Machine.execUnwrap ini v w s
  | .wrap ini v w => Sys2Proof.Machine.execWrap ini v w s
  | .softwareJobDone fault => Sys2Proof.Machine.execSoftwareJobDone fault s
  | .erase ini v n => Sys2Proof.Machine.execErase ini v n s
  | .entropyRestart ini => Sys2Proof.Machine.execEntropyRestart ini s
  | .entropyStartupDone => Sys2Proof.Machine.execEntropyStartupDone s
  | .entropyBlock fail => Sys2Proof.Machine.execEntropyBlock fail s
  | .rngRead ini v => Sys2Proof.Machine.execRngRead ini v s
  | .hash ini => Sys2Proof.Machine.execHash ini s
  | .verify ini => Sys2Proof.Machine.execVerify ini s
  | .hashUnitDone differ bad => Sys2Proof.Machine.execHashUnitDone differ bad s
  | .commandSlowStart dual => Sys2Proof.Machine.execCommandSlowStart dual s
  | .keyload ini blk dual => Sys2Proof.Machine.execKeyload ini blk dual s
  | .ctrreset ini blk dual => Sys2Proof.Machine.execCtrreset ini blk dual s
  | .dn1runWrite ini run => Sys2Proof.Machine.execDn1runWrite ini run s
  | .dbsetWrite ini w => Sys2Proof.Machine.execDbsetWrite ini w s
  | .interruptEntry c => Sys2Proof.Machine.execInterruptEntry c s
  | .sleepWake c => Sys2Proof.Machine.execSleepWake c s
  | .undefinedInstruction c enc => Sys2Proof.Machine.execUndefinedInstruction c enc s
  | .nop c => Sys2Proof.Machine.execNop c s
  | .dup c => Sys2Proof.Machine.execDup c s
  | .drop c => Sys2Proof.Machine.execDrop c s
  | .swap c => Sys2Proof.Machine.execSwap c s
  | .overTop c => Sys2Proof.Machine.execOverTop c s
  | .rot c => Sys2Proof.Machine.execRot c s
  | .nip c => Sys2Proof.Machine.execNip c s
  | .tuck c => Sys2Proof.Machine.execTuck c s
  | .pick c => Sys2Proof.Machine.execPick c s
  | .toR c => Sys2Proof.Machine.execToR c s
  | .rFrom c => Sys2Proof.Machine.execRFrom c s
  | .rFetch c => Sys2Proof.Machine.execRFetch c s
  | .rdrop c => Sys2Proof.Machine.execRdrop c s
  | .add c => Sys2Proof.Machine.execAdd c s
  | .adc c => Sys2Proof.Machine.execAdc c s
  | .sub c => Sys2Proof.Machine.execSub c s
  | .sbc c => Sys2Proof.Machine.execSbc c s
  | .neg c => Sys2Proof.Machine.execNeg c s
  | .abs c => Sys2Proof.Machine.execAbs c s
  | .mul c => Sys2Proof.Machine.execMul c s
  | .mull c => Sys2Proof.Machine.execMull c s
  | .mulu c => Sys2Proof.Machine.execMulu c s
  | .mulq c => Sys2Proof.Machine.execMulq c s
  | .div c => Sys2Proof.Machine.execDiv c s
  | .divu c => Sys2Proof.Machine.execDivu c s
  | .mod c => Sys2Proof.Machine.execMod c s
  | .modu c => Sys2Proof.Machine.execModu c s
  | .cmp c => Sys2Proof.Machine.execCmp c s
  | .tst c => Sys2Proof.Machine.execTst c s
  | .and c => Sys2Proof.Machine.execAnd c s
  | .or c => Sys2Proof.Machine.execOr c s
  | .xor c => Sys2Proof.Machine.execXor c s
  | .not c => Sys2Proof.Machine.execNot c s
  | .shl c => Sys2Proof.Machine.execShl c s
  | .shr c => Sys2Proof.Machine.execShr c s
  | .sar c => Sys2Proof.Machine.execSar c s
  | .ror c => Sys2Proof.Machine.execRor c s
  | .clz c => Sys2Proof.Machine.execClz c s
  | .bswap c => Sys2Proof.Machine.execBswap c s
  | .sextb c => Sys2Proof.Machine.execSextb c s
  | .sexth c => Sys2Proof.Machine.execSexth c s
  | .addh2 c => Sys2Proof.Machine.execAddh2 c s
  | .subh2 c => Sys2Proof.Machine.execSubh2 c s
  | .dadc c => Sys2Proof.Machine.execDadc c s
  | .dsbc c => Sys2Proof.Machine.execDsbc c s
  | .daj c => Sys2Proof.Machine.execDaj c s
  | .dchk c => Sys2Proof.Machine.execDchk c s
  | .b2d c => Sys2Proof.Machine.execB2d c s
  | .d2b c => Sys2Proof.Machine.execD2b c s
  | .clc c => Sys2Proof.Machine.execClc c s
  | .setc c => Sys2Proof.Machine.execSetc c s
  | .ldw c parity => Sys2Proof.Machine.execLdw c parity s
  | .ldh c => Sys2Proof.Machine.execLdh c s
  | .ldhs c => Sys2Proof.Machine.execLdhs c s
  | .ldb c => Sys2Proof.Machine.execLdb c s
  | .ldbs c => Sys2Proof.Machine.execLdbs c s
  | .stw c parity => Sys2Proof.Machine.execStw c parity s
  | .sth c => Sys2Proof.Machine.execSth c s
  | .stb c => Sys2Proof.Machine.execStb c s
  | .ldd c => Sys2Proof.Machine.execLdd c s
  | .std c => Sys2Proof.Machine.execStd c s
  | .ret c => Sys2Proof.Machine.execRet c s
  | .reti c => Sys2Proof.Machine.execReti c s
  | .jmp c => Sys2Proof.Machine.execJmp c s
  | .callx c => Sys2Proof.Machine.execCallx c s
  | .doLoop c => Sys2Proof.Machine.execDoLoop c s
  | .fence c => Sys2Proof.Machine.execFence c s
  | .synci c => Sys2Proof.Machine.execSynci c s
  | .syncia c => Sys2Proof.Machine.execSyncia c s
  | .sleep c => Sys2Proof.Machine.execSleep c s
  | .brk c => Sys2Proof.Machine.execBrk c s
  | .ei c => Sys2Proof.Machine.execEi c s
  | .di c => Sys2Proof.Machine.execDi c s
  | .pushs c x => Sys2Proof.Machine.execPushs c x s
  | .lda c n w step => Sys2Proof.Machine.execLda c n w step s
  | .sta c n w step => Sys2Proof.Machine.execSta c n w step s
  | .br c rel => Sys2Proof.Machine.execBr c rel s
  | .bz c rel => Sys2Proof.Machine.execBz c rel s
  | .bnz c rel => Sys2Proof.Machine.execBnz c rel s
  | .call c rel => Sys2Proof.Machine.execCall c rel s
  | .addi c x => Sys2Proof.Machine.execAddi c x s
  | .loop c rel => Sys2Proof.Machine.execLoop c rel s
  | .lds c n off => Sys2Proof.Machine.execLds c n off s
  | .sts c n off => Sys2Proof.Machine.execSts c n off s
  | .bcc c cond rel => Sys2Proof.Machine.execBcc c cond rel s
  | .aget c n => Sys2Proof.Machine.execAget c n s
  | .aset c n => Sys2Proof.Machine.execAset c n s
  | .astep c n step => Sys2Proof.Machine.execAstep c n step s
  | .pushl c x => Sys2Proof.Machine.execPushl c x s
  | .pushhi c x => Sys2Proof.Machine.execPushhi c x s
  | .ori c x => Sys2Proof.Machine.execOri c x s
  | .brl c rel => Sys2Proof.Machine.execBrl c rel s
  | .calll c rel => Sys2Proof.Machine.execCalll c rel s
  | .rdc c r => Sys2Proof.Machine.execRdc c r s
  | .wrc c r => Sys2Proof.Machine.execWrc c r s
  | .trap c t => Sys2Proof.Machine.execTrap c t s
  | .ldo c w off => Sys2Proof.Machine.execLdo c w off s
  | .sto c w off => Sys2Proof.Machine.execSto c w off s
  | .macx c x y sx sy => Sys2Proof.Machine.execMacx c x y sx sy s
  | .mramProtectedStore ini off w => Sys2Proof.Machine.execMramProtectedStore ini off w s
  | .mramWriteCommit => Sys2Proof.Machine.execMramWriteCommit s
  | .queueEnable ini n w => Sys2Proof.Machine.execQueueEnable ini n w s
  | .queueSubmit ini n w => Sys2Proof.Machine.execQueueSubmit ini n w s
  | .flashDescriptorStart b => Sys2Proof.Machine.execFlashDescriptorStart b s
  | .flashProgramDone b => Sys2Proof.Machine.execFlashProgramDone b s
  | .flashEraseDone b => Sys2Proof.Machine.execFlashEraseDone b s
  | .flashBlankDone b => Sys2Proof.Machine.execFlashBlankDone b s
  | .flashUnlock ini w => Sys2Proof.Machine.execFlashUnlock ini w s
  | .privilegedProgram ini w => Sys2Proof.Machine.execPrivilegedProgram ini w s
  | .privilegedErase ini w => Sys2Proof.Machine.execPrivilegedErase ini w s
  | .unlockPauseRelock => Sys2Proof.Machine.execUnlockPauseRelock s
  | .flashReadBusyBank ini a => Sys2Proof.Machine.execFlashReadBusyBank ini a s
  | .flashSuspWrite ini w => Sys2Proof.Machine.execFlashSuspWrite ini w s
  | .flashSuspended b => Sys2Proof.Machine.execFlashSuspended b s
  | .flashResume b => Sys2Proof.Machine.execFlashResume b s
  | .flashStarveTimeout b => Sys2Proof.Machine.execFlashStarveTimeout b s
  | .moverGo ini c prio => Sys2Proof.Machine.execMoverGo ini c prio s
  | .moverStop ini c prio => Sys2Proof.Machine.execMoverStop ini c prio s
  | .moverCopy c beats => Sys2Proof.Machine.execMoverCopy c beats s
  | .moverFill c beats => Sys2Proof.Machine.execMoverFill c beats s
  | .moverCopy2d c beats => Sys2Proof.Machine.execMoverCopy2d c beats s
  | .moverDescriptorDone c => Sys2Proof.Machine.execMoverDescriptorDone c s
  | .eccWriteBack m off => Sys2Proof.Machine.execEccWriteBack m off s
  | .scrubRead m off found => Sys2Proof.Machine.execScrubRead m off found s
  | .scrubLapStart => Sys2Proof.Machine.execScrubLapStart s
  | .lapSlow => Sys2Proof.Machine.execLapSlow s
  | .logclr ini => Sys2Proof.Machine.execLogclr ini s
  | .modereqWrite ini w => Sys2Proof.Machine.execModereqWrite ini w s
  | .domenWrite ini w => Sys2Proof.Machine.execDomenWrite ini w s
  | .powerDownStart => Sys2Proof.Machine.execPowerDownStart s
  | .fenceEnd => Sys2Proof.Machine.execFenceEnd s
  | .fenceTimeout => Sys2Proof.Machine.execFenceTimeout s
  | .wakenLow k32 => Sys2Proof.Machine.execWakenLow k32 s
  | .xoStable => Sys2Proof.Machine.execXoStable s
  | .domainRestoreStep k32 => Sys2Proof.Machine.execDomainRestoreStep k32 s
  | .rtcSecond k32 => Sys2Proof.Machine.execRtcSecond k32 s
  | .rtcsecWrite ini w => Sys2Proof.Machine.execRtcsecWrite ini w s
  | .vinFall k32 => Sys2Proof.Machine.execVinFall k32 s
  | .vinRestored k32 => Sys2Proof.Machine.execVinRestored k32 s
  | .aonPowerOn onBackup lowVio => Sys2Proof.Machine.execAonPowerOn onBackup lowVio s
  | .deviceResetEnd boot0 boot1 casm => Sys2Proof.Machine.execDeviceResetEnd boot0 boot1 casm s
  | .resetnLow => Sys2Proof.Machine.execResetnLow s
  | .brownOut => Sys2Proof.Machine.execBrownOut s
  | .cutoff k32 => Sys2Proof.Machine.execCutoff k32 s
  | .channelEnWrite ini n en => Sys2Proof.Machine.execChannelEnWrite ini n en s
  | .dimWindowStart n sense => Sys2Proof.Machine.execDimWindowStart n sense s
  | .softStartEnd n => Sys2Proof.Machine.execSoftStartEnd n s
  | .rampshortTrip n microvolts => Sys2Proof.Machine.execRampshortTrip n microvolts s
  | .shortDetect n millivolts => Sys2Proof.Machine.execShortDetect n millivolts s
  | .ovpDetect n millivolts => Sys2Proof.Machine.execOvpDetect n millivolts s
  | .ntcHot millivolts => Sys2Proof.Machine.execNtcHot millivolts s
  | .ntcCool millivolts => Sys2Proof.Machine.execNtcCool millivolts s
  | .openDiagDecision n => Sys2Proof.Machine.execOpenDiagDecision n s
  | .probeDue n => Sys2Proof.Machine.execProbeDue n s
  | .retryDelayExpire n => Sys2Proof.Machine.execRetryDelayExpire n s
  | .onFaultFree10s n => Sys2Proof.Machine.execOnFaultFree10s n s
  | .lmpenChange level => Sys2Proof.Machine.execLmpenChange level s
  | .vgdChange millivolts => Sys2Proof.Machine.execVgdChange millivolts s
  | .relaySet ini r => Sys2Proof.Machine.execRelaySet ini r s
  | .relayReset ini r => Sys2Proof.Machine.execRelayReset ini r s
  | .relayPulseEnd r => Sys2Proof.Machine.execRelayPulseEnd r s
  | .relayWaitStart r => Sys2Proof.Machine.execRelayWaitStart r s
  | .lampovrRelease ini blk dual => Sys2Proof.Machine.execLampovrRelease ini blk dual s
  | .lampovrOff ini blk dual => Sys2Proof.Machine.execLampovrOff ini blk dual s
  | .lampovrLevel ini blk dual => Sys2Proof.Machine.execLampovrLevel ini blk dual s
  | .overrideExpire n => Sys2Proof.Machine.execOverrideExpire n s
  | .meterIntervalEnd samples full => Sys2Proof.Machine.execMeterIntervalEnd samples full s
  | .meterNozcTimeout samples full => Sys2Proof.Machine.execMeterNozcTimeout samples full s
  | .rstatRead ini => Sys2Proof.Machine.execRstatRead ini s
  | .energyRead ini rev => Sys2Proof.Machine.execEnergyRead ini rev s
  | .refCompare a b c => Sys2Proof.Machine.execRefCompare a b c s
  | .refSwitchover => Sys2Proof.Machine.execRefSwitchover s
  | .refovrSelect ini blk dual => Sys2Proof.Machine.execRefovrSelect ini blk dual s
  | .refovrAuto ini blk dual => Sys2Proof.Machine.execRefovrAuto ini blk dual s
  | .gaugeChargeCount currents => Sys2Proof.Machine.execGaugeChargeCount currents s
  | .chgWrite ini w => Sys2Proof.Machine.execChgWrite ini w s
  | .gaugeReanchor millivolts => Sys2Proof.Machine.execGaugeReanchor millivolts s
  | .timerArm ini v n w => Sys2Proof.Machine.execTimerArm ini v n w s
  | .timerStop ini v n w => Sys2Proof.Machine.execTimerStop ini v n w s
  | .timerCmpWrite ini v n w => Sys2Proof.Machine.execTimerCmpWrite ini v n w s
  | .timerFire n => Sys2Proof.Machine.execTimerFire n s
  | .stitchEvent => Sys2Proof.Machine.execStitchEvent s
  | .swtrig ini w => Sys2Proof.Machine.execSwtrig ini w s
  | .recorderTrigger => Sys2Proof.Machine.execRecorderTrigger s
  | .recordWrite => Sys2Proof.Machine.execRecordWrite s
  | .lifeCounterWrite => Sys2Proof.Machine.execLifeCounterWrite s
  | .recorderFreeze ini w => Sys2Proof.Machine.execRecorderFreeze ini w s
  | .i2cWrite ini n addr data => Sys2Proof.Machine.execI2cWrite ini n addr data s
  | .i2cRead ini n addr => Sys2Proof.Machine.execI2cRead ini n addr s
  | .i2cStartOnFreeBus n => Sys2Proof.Machine.execI2cStartOnFreeBus n s
  | .i2cTransactionEnd n addrAck dataAck rx freed => Sys2Proof.Machine.execI2cTransactionEnd n addrAck dataAck rx freed s
  | .arbitrationLost n => Sys2Proof.Machine.execArbitrationLost n s
  | .i2cLowTimeout port sda => Sys2Proof.Machine.execI2cLowTimeout port sda s
  | .busRecovery ini n => Sys2Proof.Machine.execBusRecovery ini n s
  | .targetWriteReceived addr data => Sys2Proof.Machine.execTargetWriteReceived addr data s
  | .targetRead addr => Sys2Proof.Machine.execTargetRead addr s
  | .rxregRead ini => Sys2Proof.Machine.execRxregRead ini s
  | .txregWrite ini b => Sys2Proof.Machine.execTxregWrite ini b s
  | .targetSclTimeout => Sys2Proof.Machine.execTargetSclTimeout s
  | .targetWakeMatch addr k32 => Sys2Proof.Machine.execTargetWakeMatch addr k32 s
  | .rd vi a n => Sys2Proof.Machine.execRd vi a n s
  | .rdf vi a n => Sys2Proof.Machine.execRdf vi a n s
  | .wr vi a words drains abort => Sys2Proof.Machine.execWr vi a words drains abort s
  | .wrf vi a words drains abort => Sys2Proof.Machine.execWrf vi a words drains abort s
  | .rdsr => Sys2Proof.Machine.execRdsr s
  | .seg b => Sys2Proof.Machine.execSeg b s
  | .badOpcode op => Sys2Proof.Machine.execBadOpcode op s
  | .hostWaitTimeout => Sys2Proof.Machine.execHostWaitTimeout s
  | .hostFifoWrite => Sys2Proof.Machine.execHostFifoWrite s
  | .hdbsetWrite ini set => Sys2Proof.Machine.execHdbsetWrite ini set s
  | .bootSequence migrator => Sys2Proof.Machine.execBootSequence migrator s
  | .reloadRoutine c => Sys2Proof.Machine.execReloadRoutine c s
  | .hconfWrite ini w => Sys2Proof.Machine.execHconfWrite ini w s
  | .journalWrite ini off v => Sys2Proof.Machine.execJournalWrite ini off v s
  | .srvWrite ini w => Sys2Proof.Machine.execSrvWrite ini w s
  | .manifest ini src => Sys2Proof.Machine.execManifest ini src s
  | .hlist ini => Sys2Proof.Machine.execHlist ini s
  | .block ini src k => Sys2Proof.Machine.execBlock ini src k s
  | .imageCheckDone => Sys2Proof.Machine.execImageCheckDone s
  | .activate ini blk dual => Sys2Proof.Machine.execActivate ini blk dual s
  | .activateReset => Sys2Proof.Machine.execActivateReset s
  | .tapReset => Sys2Proof.Machine.execTapReset s
  | .extest => Sys2Proof.Machine.execExtest s
  | .idcode => Sys2Proof.Machine.execIdcode s
  | .samplePreload => Sys2Proof.Machine.execSamplePreload s
  | .dbgap => Sys2Proof.Machine.execDbgap s
  | .bypass => Sys2Proof.Machine.execBypass s
  | .debugHalt c => Sys2Proof.Machine.execDebugHalt c s
  | .debugStep c => Sys2Proof.Machine.execDebugStep c s
  | .debugResume c => Sys2Proof.Machine.execDebugResume c s
  | .debugAccess t w => Sys2Proof.Machine.execDebugAccess t w s
  | .sealWrite ini w => Sys2Proof.Machine.execSealWrite ini w s
  | .secmapWrite ini r w => Sys2Proof.Machine.execSecmapWrite ini r w s
  | .dbgreopen ini blk dual => Sys2Proof.Machine.execDbgreopen ini blk dual s
  | .gpioEdge p level => Sys2Proof.Machine.execGpioEdge p level s
  | .powerOnResetEngage => Sys2Proof.Machine.execPowerOnResetEngage s
  | .vinRiseInOff => Sys2Proof.Machine.execVinRiseInOff s
  | .thimbleSyncFound => Sys2Proof.Machine.execThimbleSyncFound s
  | .downstreamLinkLoss nmem => Sys2Proof.Machine.execDownstreamLinkLoss nmem s
  | .fetchFault c long => Sys2Proof.Machine.execFetchFault c long s
  | .commandReservedId ini id blk => Sys2Proof.Machine.execCommandReservedId ini id blk s
  | .moverReservedOp c => Sys2Proof.Machine.execMoverReservedOp c s

end Sys2Proof.Machine
end

