-- ==== Sys2Proof/Machine/Step.lean ====
section
/-! DEFINITION. One step of the block: the command at the front of the queue, or the passing of time. -/

namespace Sys2Proof.Machine

/-- With no command waiting, one TB unit passes while CORE is on (R49, R467; notes/assumptions/1.md). -/
def idle : Act := fun s =>
  if s.clk.savedTb.isSome || s.pwr.inReset then [] else onClk (fun c => { c with tb := (c.tb + 1) % 2 ^ 64 }) s

/-- One step: the first waiting command's effect on the state with the rest of the queue, or `idle`. -/
def step (s : State) : Host.Outcome State Fault Refusal :=
  match s.pending with
  | [] => act idle s
  | c :: rest => exec c { s with pending := rest }

/-- The state with the command that a word spells at the front of its queue; unchanged where it spells none. -/
def State.withFetchWord (s : State) (nbits w : Nat) : State :=
  match Sys2Proof.decodeTableWord nbits w with
  | some c => { s with pending := c :: s.pending }
  | none => s

end Sys2Proof.Machine
end

