-- ==== Sys2Proof/Machine/Coding.lean ====
section
/-! DEFINITION. What a transmission sends on air, bit by bit and symbol by symbol: preamble, SFD, PHR, whitening, coding,
interleaving and the 4-level map (R117, R136 to R144), and the bits of a wake frame (R160). Nothing of it is state: it is a
function of the run that a chain holds. -/

namespace Sys2Proof.Machine

/-! A frame (R136). -/

namespace TxRun

def white (r : TxRun) : Bool := bitOf r.w1 19 == 1
def ilv (r : TxRun) : Bool := bitOf r.w1 18 == 1
def isRsc (r : TxRun) : Bool := bitOf r.w1 17 == 1
def sfdSel (r : TxRun) : Nat := bitOf r.w1 15

/-- The PHR, bit 15 first on air: in GLR with even parity in bit 15 (R118, R139). -/
def phr (r : TxRun) : Nat :=
  let w := r.len + (if r.white then 2048 else 0) + (if r.fcs2 then 4096 else 0)
  if isGlr r.mode && !evenParity w then w + 32768 else w

/-- The PSDU with its FCS (R151), whitened where the PHR says so (R144). -/
def psduBits (r : TxRun) : List Bool :=
  let l := (r.octets ++ fcsOf r.fcs2 r.octets).flatMap (lsbFirst 8)
  if r.white then whitened l else l

/-- The preamble: 0xAA in 2-FSK modes, 0xEE in 4-level modes (R137). -/
def preambleBits (r : TxRun) : List Bool :=
  (List.replicate r.prelen (lsbFirst 8 (if modeBits r.mode = 1 then 0xAA else 0xEE))).flatten

/-- The SFD, most significant bit first: of GLR, or the uncoded or coded one of the SUN FSK pair (R117). -/
def sfdBits (r : TxRun) : List Bool :=
  let l := sfdWords r.mode r.sfdSel true
  if isGlr r.mode then msbFirst 32 (l.getD 0 (0, false)).1
  else msbFirst 16 (l.getD (if r.fec then 1 else 0) (0, false)).1

/-- The PHR and the PSDU as they are sent: plain, in the K=4 code with its interleaver, or as the coded block of GLR (R136,
R141 to R143). -/
def codedBits (r : TxRun) : List Bool :=
  let info := msbFirst 16 r.phr ++ r.psduBits
  if isGlr r.mode then
    let code := encode .glr 0 (withTail .glr info)
    interleaved 8 (code ++ List.replicate (ceilDiv code.length 64 * 64 - code.length) false)
  else if r.fec then
    let code := encode (if r.isRsc then .rsc else .nrnsc) 0 (withTail (if r.isRsc then .rsc else .nrnsc) info ++ padBits)
    if r.ilv then interleaved 4 code else code
  else info

/-- The bits of a frame on air, first to last (R136). -/
def airBits (r : TxRun) : List Bool := r.preambleBits ++ r.sfdBits ++ r.codedBits

end TxRun

/-- The symbols of a stream of bits, in thirds of the outer level (R138). -/
def fourLevel : List Bool → List Int
  | false :: false :: l => 1 :: fourLevel l
  | false :: true :: l => 3 :: fourLevel l
  | true :: false :: l => -1 :: fourLevel l
  | true :: true :: l => -3 :: fourLevel l
  | _ => []

/-- The symbols of a frame, in thirds of the outer level (R138). -/
def TxRun.symbols (r : TxRun) : List Int :=
  if modeBits r.mode = 1 then r.airBits.map fun b => if b then 3 else -3 else fourLevel r.airBits

/-- The 48 bits of a wake frame (R160). -/
def wakeBits (code group : Nat) : List Bool :=
  msbFirst 8 0x55 ++ msbFirst 8 0x2D ++ msbFirst 16 code ++ msbFirst 8 group
    ++ msbFirst 8 (crc8 [code / 256 % 256, code % 256, group % 256])

/-- The carrier in the half bits of 125 µs of a wake frame: on then off for a 1, off then on for a 0 (R160). -/
def wakeCarrier (code group : Nat) : List Bool := (wakeBits code group).flatMap fun b => [b, !b]

/-- The carrier of a wake burst, by the word of CcWAKE that it keeps: WREP frames back to back (R160). -/
def TxRun.burstCarrier (r : TxRun) : List Bool :=
  (List.replicate (bits r.wake 7 0) (wakeCarrier (bits r.wake 31 16) (bits r.wake 15 8))).flatten

/-! Shaping and modulation (R152). -/

/-- Each symbol level held for 8 samples. -/
def TxRun.heldLevels (r : TxRun) : List Int := r.symbols.flatMap (List.replicate 8)

/-- The taps of a run's shaping set in order, tap 2i in the low half of word i (R162). -/
def TxRun.shapeTaps (r : TxRun) : List Int := r.coefs.flatMap fun w => [toS 16 w, toS 16 (w / 65536)]

/-- The output of the 32-tap filter at a sample, in units of FDEV / (3 × 2^14); the levels before the first symbol and after
the last are 0 (notes/assumptions/61.md, DEDUCED). -/
def TxRun.shaped (r : TxRun) (m : Nat) : Int :=
  let past := ((r.heldLevels.take (m + 1)).reverse ++ List.replicate 32 0)
  dot r.shapeTaps (if m < r.heldLevels.length then past else List.replicate (m + 1 - r.heldLevels.length) 0 ++ past)

/-- The phase of the oscillator after `n` samples, the sum of the offsets, in turns / (3 × 2^14 × 1600): a sample of FDEV at
8 samples in a symbol is FDEV / (8 × Rs) of a turn. I and Q are its cosine and sine. -/
def TxRun.phaseAt (r : TxRun) (n : Nat) : Int :=
  ((List.range n).map r.shaped).sum * (if modeBits r.mode = 1 then 1 else 3) * modIndex r.mode r.midx

end Sys2Proof.Machine
end

