-- ==== Sys2Proof/Safety.lean ====
section
/-! DEFINITION. The terms in which the claims speak: the canonical form, a command's completion, what two states share, and a
Denat core about to run an instruction. -/

namespace Sys2Proof

open Sys2Proof.Machine

/-- Memory is in canonical form: addresses strictly rising, no entry equal to what an unwritten byte reads as
(notes/assumptions/2.md). -/
def Machine.Memory.wf (m : List Host.Cell) : Bool := Sparse.wf resetByte m

/-- Memory, the register file and the Pattern RAM are in canonical form (notes/assumptions/2.md). -/
def Machine.State.wf (s : State) : Bool :=
  Memory.wf s.mem && Sparse.wf resetWord s.regs && Sparse.wf (fun _ => 0) s.pat

/-- A command completes: it answers a next state, of which something holds. -/
def Completes (i : Instr) (s : State) (p : State → Prop) : Prop := ∃ t, exec i s = .next t ∧ p t

/-- Two states agree on memory and the Pattern RAM. -/
def SameStore (s t : State) : Prop := t.mem = s.mem ∧ t.pat = s.pat

/-- Two states agree on every register outside some pages (R6, R40). -/
def OnlyPages (s t : State) (pages : List Nat) : Prop := ∀ k, addrPage (keyAddr k) ∉ pages → t.reg k = s.reg k

/-- An initiator's access through view `v` reaches the register that holds a field, and may be made (R42, R297, R300, R471). -/
def Opens (s : State) (i : Initiator) (f : Fld) (v : Nat) (write : Bool) : Prop :=
  ∃ p off v', s.route i (viewAddr f v) write = .reg p off v' ∧ (p = .PWR → (write && refusesPwr i) = false)

/-- Everything but the registers of some pages, the fault collector and the recorder is as it was (R15, R20, R539). -/
structure OnlyStuck (s t : State) (pages : List Nat) : Prop where
  regs : OnlyPages s t pages
  same : t = { s with regs := t.regs, flt := t.flt, recd := t.recd }

/-- The state with a core replaced. -/
def withCore (s : State) (c : Fin 2) (k : DnCore) : State := { s with dn := { s.dn with cores := s.dn.cores.set c k } }

/-- A core can run an instruction at its PC: it runs, the fetch meets nothing, no breakpoint is set and no memory word is
known to hold an error. -/
structure Runs (s : State) (c : Fin 2) (long : Bool) : Prop where
  there : s.dn.cores.length = 2
  runs  : s.coreRuns c = true
  fetch : s.fetchFault c (s.core c).pc long = none
  bad   : s.ecc.bad = []
  fresh : s.ecc.fresh = []
  brk   : s.dbg.breaks = []

/-- A core that goes on after an instruction of `n` bytes, as it is otherwise. -/
def advanced (s : State) (c : Fin 2) (n : Nat) : DnCore :=
  { s.core c with pc := ((s.core c).pc + n) % 2 ^ 32, step := false }

/-- STATUS after an instruction: each flag that is given has its value, the others and STATUS[31:4] are unchanged (R406, R410). -/
def FlagsSet (old new : Nat) (n z v c : Option Bool) : Prop :=
  new / 16 = old / 16 ∧
  bitOf new 3 = n.elim (bitOf old 3) Bool.toNat ∧ bitOf new 2 = z.elim (bitOf old 2) Bool.toNat ∧
  bitOf new 1 = v.elim (bitOf old 1) Bool.toNat ∧ bitOf new 0 = c.elim (bitOf old 0) Bool.toNat

/-- An instruction of `size` bytes completes with the operand stack in registers, top first, as given, the flags as given, the
PC at the instruction that follows, and nothing else changed. -/
def Leaves (i : Instr) (s : State) (c : Fin 2) (size : Nat) (ds : List Nat) (n z v cf : Option Bool) : Prop :=
  ∃ st, FlagsSet (s.core c).status st n z v cf ∧
    exec i s = .next (withCore s c { advanced s c size with ds := ds, status := st })

/-- An instruction completes with the core as given and nothing else changed. -/
def LeavesCore (i : Instr) (s : State) (c : Fin 2) (k : DnCore) : Prop := exec i s = .next (withCore s c k)

/-- A core in a mode that may read or write `n` bytes of SRAM, at an aligned address that it reaches. -/
structure Reaches (s : State) (c : Fin 2) (a n : Nat) (write : Bool) : Prop where
  lo     : 0x20000000 ≤ a
  hi     : a + n ≤ 0x20200000
  align  : a % n = 0
  route  : s.route (.core c) a write = .mem a
  access : (s.core c).mayAccess a n (if write then 1 else 0) = true

/-- A core can enter a vector: the return stack has two free registers, and the vector's word is in SRAM. -/
structure VectorReadable (s : State) (c : Fin 2) (vector : Nat) : Prop where
  room  : (s.core c).rs.length ≤ 6
  align : (s.core c).vbar % 4 = 0
  lo    : 0x20000000 ≤ (s.core c).vbar + 4 * vector
  hi    : (s.core c).vbar + 4 * vector + 4 ≤ 0x20200000
  route : s.route (.core c) ((s.core c).vbar + 4 * vector) false = .mem ((s.core c).vbar + 4 * vector)

/-- The core after it has entered a vector: PC and STATUS on the return stack, the STATUS given, the PC from the vector (R395,
R396). -/
def entered (s : State) (c : Fin 2) (vector status : Nat) : DnCore :=
  { s.core c with rs := (s.core c).status :: (s.core c).pc :: (s.core c).rs, status := status, step := false
                  pc := s.word ((s.core c).vbar + 4 * vector) / 2 * 2 }

/-- An instruction's meaning is an exception (R395): the core enters its vector in machine mode with IE clear, and the page CPU
names what was met. -/
def TakesException (i : Instr) (s : State) (c : Fin 2) (vector arg enc addr long : Nat) : Prop :=
  Completes i s fun t =>
    t.core c = entered s c vector (withBit (withBit (s.core c).status 31 true) 30 false) ∧
    t.get (CPU.XPC.PC.i c) = (s.core c).pc % 2 ^ 32 ∧ t.get (CPU.XCAUSE.V.i c) = 1 ∧ t.get (CPU.XCAUSE.CAUSE.i c) = vector ∧
    t.get (CPU.XCAUSE.ARG.i c) = arg ∧ t.get (CPU.XCAUSE.LONG.i c) = long ∧
    t.get (CPU.XCAUSE.MODE.i c) = bitOf (s.core c).status 31 ∧ t.get (CPU.XFAULT.E.i c) = enc ∧
    t.get (CPU.XADDR.A.i c) = addr ∧ SameStore s t

/-! Frames: what commands leave alone. A command that a function does not list is one of which it says nothing. -/

/-- The pages whose registers a command of the lamp drive, the meter, the references, the gauge or the cascade may change: its
own, and for a command with an initiator those that record a refused access (R41, R43, R297, R300, R471). -/
def drivePages : Instr → Option (List Page)
  | .probeDue .. | .closeRecord .. | .handoverRecordSend .. =>
    some []
  | .loadRecordSend .. =>
    some [.CLK]
  | .handoverRecordReceive .. =>
    some [.BOB]
  | .downstreamLinkLoss .. | .linkAlignLock .. | .memberIrqLevel .. | .remoteAccessDone .. | .retrain .. | .trainingDone ..
  | .trainingMarker .. | .trainingTimeout .. | .handoverAcceptReceive .. =>
    some [.CAS]
  | .dimWindowStart .. | .softStartEnd .. | .rampshortTrip .. | .shortDetect .. | .ovpDetect .. | .ntcHot .. | .ntcCool ..
  | .openDiagDecision .. | .retryDelayExpire .. | .onFaultFree10s .. | .lmpenChange .. | .vgdChange .. | .relayPulseEnd ..
  | .relayWaitStart .. | .overrideExpire .. =>
    some [.LMP]
  | .meterIntervalEnd .. | .meterNozcTimeout .. =>
    some [.MTR]
  | .refCompare .. | .refSwitchover .. =>
    some [.REF]
  | .gaugeChargeCount .. | .gaugeReanchor .. =>
    some [.GAU]
  | .linkLoss .. | .tickMarkerCheck .. =>
    some [.CLK, .CAS]
  | .remoteRead .. | .remoteWrite .. =>
    some [.SYS, .PWR, .VIF, .CAS]
  | .channelEnWrite .. | .relaySet .. | .relayReset .. =>
    some [.SYS, .PWR, .VIF, .LMP]
  | .rstatRead .. | .energyRead .. =>
    some [.SYS, .PWR, .VIF, .MTR]
  | .chgWrite .. =>
    some [.SYS, .PWR, .VIF, .GAU]
  | .linkEnable .. =>
    some [.SYS, .PWR, .CLK, .VIF, .CAS]
  | .roleWrite .. =>
    some [.SYS, .PWR, .CLK, .VIF, .CAS, .LMP]
  | _ => none

/-- The same for commands of the clock, the two-wire controllers, the timers, the Thimble, the fault collector, the debug port,
power and the host link. -/
def timePages : Instr → Option (List Page)
  | .xoStable .. | .i2cStartOnFreeBus .. | .debugStep .. | .bypass .. | .idcode .. | .tapReset .. | .extest ..
  | .samplePreload .. | .dbgap .. =>
    some []
  | .aonPowerOn .. | .vinFall .. | .vinRestored .. =>
    some [.PWR]
  | .intermediateCheckpoint .. =>
    some [.FLT]
  | .timerFire .. =>
    some [.TIM]
  | .arbitrationLost .. | .i2cLowTimeout .. | .i2cTransactionEnd .. | .targetRead .. | .targetSclTimeout ..
  | .targetWriteReceived .. =>
    some [.I2C]
  | .badOpcode .. | .hostWaitTimeout .. | .seg .. =>
    some [.HIF]
  | .debugHalt .. | .debugResume .. =>
    some [.DBG]
  | .thimbleDetectStart .. | .thimbleSyncFound .. =>
    some [.THM]
  | .targetWakeMatch .. =>
    some [.PWR, .I2C]
  | .wakeFrameReceived .. =>
    some [.PWR, .THM]
  | .pllUnlock .. | .pllRelock .. =>
    some [.CLK, .TIM]
  | .k32Restart .. =>
    some [.CLK, .THM, .TIM]
  | .gpioEdge .. =>
    some [.TIM, .GIO]
  | .modereqWrite .. | .domenWrite .. | .rtcsecWrite .. =>
    some [.SYS, .PWR, .VIF]
  | .k32Fail .. =>
    some [.PWR, .CLK, .THM, .TIM]
  | .asnloRead .. | .tbloRead .. =>
    some [.SYS, .PWR, .CLK, .VIF]
  | .faultPop .. | .injectShuout .. | .injectBobctx .. =>
    some [.SYS, .PWR, .FLT, .VIF]
  | .swtrig .. =>
    some [.SYS, .PWR, .STM, .VIF]
  | .timerArm .. | .timerCmpWrite .. | .timerStop .. =>
    some [.SYS, .PWR, .TIM, .VIF]
  | .busRecovery .. | .i2cRead .. | .i2cWrite .. | .rxregRead .. | .txregWrite .. =>
    some [.SYS, .PWR, .I2C, .VIF]
  | .hdbsetWrite .. =>
    some [.SYS, .PWR, .HIF, .VIF]
  | .thimbleRestart .. =>
    some [.SYS, .PWR, .THM, .VIF]
  | .dbsetWrite .. =>
    some [.SYS, .PWR, .VIF, .CPU]
  | .asnhiWrite .. | .asnloWrite .. | .tickenWrite .. =>
    some [.SYS, .PWR, .CLK, .VIF, .CAS]
  | .tickadjWrite .. =>
    some [.SYS, .PWR, .CLK, .BOB, .VIF, .CAS]
  | _ => none

/-- The same for commands of the ciphers, updates, flash, scrubbing, the receiver and the Shuttle. -/
def radioPages : Instr → Option (List Page)
  | .quiesceComplete .. | .directDue .. | .externalPaEnable .. | .txPreambleStart .. | .bucketRoll .. | .dwellRoll ..
  | .eccWriteBack .. | .psduByte .. =>
    some []
  | .flashResume .. | .flashStarveTimeout .. | .flashSuspended .. | .unlockPauseRelock .. =>
    some [.FLC]
  | .lapSlow .. | .scrubLapStart .. =>
    some [.MEM]
  | .scrubRead .. =>
    some [.MEM, .FLT]
  | .mramWriteCommit .. =>
    some [.NVS]
  | .entropyBlock .. | .entropyStartupDone .. | .hashUnitDone .. =>
    some [.SEC]
  | .calPeriodExpire .. | .calStarve .. | .returnLossMeasure .. =>
    some [.RFE]
  | .gainSettled .. =>
    some [.RFE, .CHZ, .DMD]
  | .converterRun .. =>
    some [.RXS]
  | .energyInHold .. | .dfeBlockCheck .. | .sfdMatch .. =>
    some [.DMD]
  | .maskEvaluate .. =>
    some [.TXP]
  | .formationComplete .. =>
    some [.SHU]
  | .cellPrefetch .. =>
    some [.PAT]
  | .agcStepUp .. =>
    some [.RFE, .RXS]
  | .calUnitComplete .. =>
    some [.RFE, .THM]
  | .bobbinWindowWrite .. =>
    some [.SYS, .BOB, .VIF]
  | .flashUnlock .. | .flashSuspWrite .. | .privilegedErase .. | .privilegedProgram .. | .queueEnable .. | .queueSubmit .. =>
    some [.SYS, .PWR, .FLC, .VIF]
  | .logclr .. =>
    some [.SYS, .PWR, .MEM, .VIF]
  | .entropyRestart .. | .rngRead .. | .hash .. | .verify .. | .ccmEnc .. | .ccmDec .. | .ctr .. | .cmacGen .. | .cmacVer ..
  | .unwrap .. | .wrap .. =>
    some [.SYS, .PWR, .SEC, .VIF]
  | .calreqWrite .. =>
    some [.SYS, .PWR, .RFE, .VIF]
  | .cntclrWrite .. =>
    some [.SYS, .PWR, .DMD, .VIF]
  | .rdidxWrite .. =>
    some [.SYS, .PWR, .FRM, .VIF]
  | .txdonePop .. =>
    some [.SYS, .PWR, .SHU, .VIF]
  | .patternCellCommit .. | .patternDataRead .. | .patternTdata0Write .. | .slotframeCfgWrite .. | .slotframeEnable .. =>
    some [.SYS, .PWR, .PAT, .VIF]
  | .rjclr .. | .rjonlySet .. =>
    some [.SYS, .PWR, .BOB, .VIF]
  | .block .. | .hlist .. | .manifest .. | .srvWrite .. =>
    some [.SYS, .PWR, .VIF, .UPD]
  | .presetGo .. =>
    some [.SYS, .PWR, .SHU, .PAT, .VIF]
  | _ => none

/-- The commands that store nothing in memory. -/
def storesNothing : Instr → Bool
  | .agcStepDown .. | .agcStepUp .. | .aonPowerOn .. | .arbitrationLost .. | .asnhiWrite .. | .asnloRead .. | .asnloWrite ..
  | .badOpcode .. | .beaconJoin .. | .block .. | .bobbinUeDetect .. | .bobbinWindowWrite .. | .bucketRoll ..
  | .busRecovery .. | .bypass .. | .calPeriodExpire .. | .calStarve .. | .calUnitComplete .. | .calreqWrite .. | .ccmDec ..
  | .ccmEnc .. | .cellPrefetch .. | .channelEnWrite .. | .checkpointWriteDone .. | .chgWrite .. | .clipEvent ..
  | .closeRecord .. | .cmacGen .. | .cmacVer .. | .cntclrWrite .. | .competingBeacon .. | .converterRun .. | .ctr ..
  | .dbgap .. | .dbsetWrite .. | .debugHalt .. | .debugResume .. | .debugStep .. | .dfeBlockCheck .. | .dimWindowStart ..
  | .directDue .. | .directFrameGo .. | .directWakeGo .. | .dn1runWrite .. | .domenWrite .. | .downstreamLinkLoss ..
  | .dwellRoll .. | .eccWriteBack .. | .energyDetect .. | .energyInHold .. | .energyRead .. | .entropyBlock ..
  | .entropyRestart .. | .entropyStartupDone .. | .erase .. | .externalPaEnable .. | .extest .. | .faultPop ..
  | .faultQueueAppend .. | .faultReportArrive .. | .flashReadBusyBank .. | .flashResume .. | .flashStarveTimeout ..
  | .flashSuspWrite .. | .flashSuspended .. | .flashUnlock .. | .form .. | .formationComplete .. | .gainSettled ..
  | .gainWrite .. | .gaugeChargeCount .. | .gaugeReanchor .. | .gpioEdge .. | .handoverAcceptReceive ..
  | .handoverRecordReceive .. | .handoverRecordSend .. | .hash .. | .hashUnitDone .. | .hdbsetWrite .. | .hlist ..
  | .hostWaitTimeout .. | .i2cLowTimeout .. | .i2cRead .. | .i2cStartOnFreeBus .. | .i2cTransactionEnd .. | .i2cWrite ..
  | .idcode .. | .imageCheckDone .. | .injectBobctx .. | .injectShuout .. | .intermediateCheckpoint .. | .join ..
  | .k32Fail .. | .k32Restart .. | .laneCfgWrite .. | .lapSlow .. | .linkAlignLock .. | .linkEnable .. | .linkLoss ..
  | .lmpenChange .. | .loadRecordApply .. | .loadRecordSend .. | .lockstepMismatch .. | .logclr .. | .manifest ..
  | .maskEvaluate .. | .memberIrqLevel .. | .meterIntervalEnd .. | .meterNozcTimeout .. | .modereqWrite .. | .moverGo ..
  | .moverStop .. | .mramWriteCommit .. | .ntcCool .. | .ntcHot .. | .onFaultFree10s .. | .openDiagDecision ..
  | .overflowMarkerAppend .. | .overrideExpire .. | .ovpDetect .. | .patternCellCommit .. | .patternDataRead ..
  | .patternTdata0Write .. | .phrReceived .. | .pllRelock .. | .pllUnlock .. | .portTxExit .. | .presetGo ..
  | .privilegedErase .. | .privilegedProgram .. | .probeDue .. | .psduByte .. | .qualifierPass .. | .qualifierTimeout ..
  | .queueEnable .. | .queueSubmit .. | .quiesceComplete .. | .rampshortTrip .. | .rdidxWrite .. | .rdsr ..
  | .recorderTrigger .. | .refCompare .. | .refSwitchover .. | .relayPulseEnd .. | .relayReset .. | .relaySet ..
  | .relayWaitStart .. | .remoteAccessDone .. | .remoteRead .. | .remoteWrite .. | .retrain .. | .retryDelayExpire ..
  | .returnLossMeasure .. | .ringCfgWrite .. | .rjclr .. | .rjonlySet .. | .rngRead .. | .roleWrite .. | .rstatRead ..
  | .rtcsecWrite .. | .rxWindowClose .. | .rxWindowOpen .. | .rxregRead .. | .samplePreload .. | .scrubLapStart ..
  | .scrubRead .. | .seg .. | .sfdMatch .. | .sfdTimeout .. | .shortDetect .. | .shuttleRunWrite .. | .sleepWake ..
  | .slotframeCfgWrite .. | .slotframeEnable .. | .softStartEnd .. | .srvWrite .. | .stitchEvent .. | .stop .. | .swtrig ..
  | .tapReset .. | .targetRead .. | .targetSclTimeout .. | .targetWakeMatch .. | .targetWriteReceived .. | .tbloRead ..
  | .thimbleDetectStart .. | .thimbleRestart .. | .thimbleSyncFound .. | .tickMarkerCheck .. | .tickadjWrite ..
  | .tickenWrite .. | .timerArm .. | .timerCmpWrite .. | .timerFire .. | .timerStop .. | .trainingDone ..
  | .trainingMarker .. | .trainingTimeout .. | .txPreambleStart .. | .txdonePop .. | .txregWrite .. | .unlockPauseRelock ..
  | .unwrap .. | .verify .. | .vgdChange .. | .vinFall .. | .vinRestored .. | .wakeFrameReceived .. | .windowApply ..
  | .windowWrite .. | .wrap .. | .xoStable .. => true
  | _ => false

/-- A command has left alone every register outside some pages, memory, the keys and the OTP (R6, R40). -/
structure Framed (s t : State) (ps : List Page) : Prop where
  regs : ∀ k, (∀ p ∈ ps, addrPage (keyAddr k) ≠ p.code) → t.reg k = s.reg k
  mem  : t.mem = s.mem
  key  : t.key = s.key
  otp  : t.otp = s.otp

end Sys2Proof
end

