-- ==== Sys2Proof/Certificates/Slice0/Obligations.lean ====
section
/-! DEFINITION. The statements for the provers. -/

namespace Sys2Proof

open Sys2Proof.Machine

/-- What a field of a register holds after a write of the register, by its access code (R14, R22 to R25). -/
def fieldAfter (s : State) (k : Nat) (w : Word) (f : FieldDesc) : Nat :=
  let old := s.get ⟨k, f.lo, f.width, 0⟩
  let x := f.of w.toNat
  match f.acc with
  | .rw => if f.lim.allows f.width x then x else old
  | .rwl => if s.locked k || !f.lim.allows f.width x then old else x
  | .w1c => old - (old &&& x)
  | .w1s => old ||| x
  | .ro | .wo => old

/-- A write of a register that has no rules beside its table's is judged field by field, and touches no other page. -/
def RegisterWriteByTableHold : Prop :=
  ∀ (s : State) (i : Initiator) (a w : Word) (p : Page) (off : Nat) (d : RegDesc), a.toNat % 4 = 0 →
    s.route i a.toNat true = .reg p off 0 → (p = .PWR → refusesPwr i = false) → s.pairHolds p = false →
    specialWrite i p off 0 w.toNat = none → findReg p.table off = some d → d.copy = .shared →
    Completes (.registerWrite i a w) s fun t =>
      (∀ f ∈ d.fields, t.get ⟨pageBase + p.code * 0x1000 + off, f.lo, f.width, 0⟩ =
        fieldAfter s (pageBase + p.code * 0x1000 + off) w f) ∧
      OnlyStuck s t [p.code]

/-- What a write of a register does to a reserved value and to a locked field: RSVD or LOCKV is set, and nothing else of the
page changes (R22 to R24). -/
def RefusedFieldSetsStickyHold : Prop :=
  ∀ (s : State) (i : Initiator) (a w : Word) (p : Page) (off : Nat) (d : RegDesc) (f : FieldDesc), a.toNat % 4 = 0 →
    s.route i a.toNat true = .reg p off 0 → (p = .PWR → refusesPwr i = false) → s.pairHolds p = false →
    specialWrite i p off 0 w.toNat = none → findReg p.table off = some d → f ∈ d.fields →
    let sticky := headerOf (pageBase + p.code * 0x1000) 0x10 32
    (f.acc = .rw → f.lim.allows f.width (f.of w.toNat) = false →
      Completes (.registerWrite i a w) s fun t => t.is (sticky.bit 31) = true) ∧
    (f.acc = .rwl → s.locked (pageBase + p.code * 0x1000) = true →
      Completes (.registerWrite i a w) s fun t => t.is (sticky.bit 30) = true)

/-- The controllers A and B: a command starts a transaction, its end writes the result and pulses the producer (R549 to
R553). -/
def TwoWireControllersHold : Prop :=
  ∀ (s : State) (i : Initiator) (n : Fin 2) (addr : BitVec 7) (data : Byte),
    (Opens s i (I2C.CCMD.i n) 0 true → s.is (I2C.CRES.BUSY.i n) = false → s.is (I2C.CCFG.EN.i n) = true →
      0x08 ≤ addr.toNat → addr.toNat ≤ 0x77 →
      Completes (.i2cWrite i n addr data) s (fun t =>
        t.is (I2C.CRES.BUSY.i n) = true ∧ t.is (I2C.CRES.DONE.i n) = false ∧
          t.i2cTx n = some ⟨1, addr.toNat, data.toNat, true⟩ ∧ SameStore s t) ∧
      Completes (.i2cRead i n addr) s (fun t =>
        t.is (I2C.CRES.BUSY.i n) = true ∧ t.is (I2C.CRES.DONE.i n) = false ∧
          t.i2cTx n = some ⟨2, addr.toNat, 0, true⟩ ∧ SameStore s t)) ∧
    (Opens s i (I2C.CRECOV.i n) 0 true → s.is (I2C.CRES.BUSY.i n) = false →
      Completes (.busRecovery i n) s fun t =>
        t.is (I2C.CRES.BUSY.i n) = true ∧ t.i2cTx n = some ⟨3, 0, 0, false⟩ ∧ SameStore s t) ∧
    (∀ x, s.i2cTx n = some x →
      Completes (.i2cStartOnFreeBus n) s (fun t =>
        t.i2cTx n = some { x with waiting := false } ∧ t.regs = s.regs ∧ SameStore s t) ∧
      (x.waiting = false → ∀ (aa da : Bool) (freed : Bool),
        Completes (.i2cTransactionEnd n aa da data freed) s fun t =>
          t.i2cTx n = none ∧ t.is (I2C.CRES.BUSY.i n) = false ∧ t.is (I2C.CRES.DONE.i n) = true ∧
            t.get (I2C.CRES.RESULT.i n) = (if x.op = 3 then (if freed then 5 else 6) else if !aa then 1
              else if x.op = 1 && !da then 2 else 0) ∧
            (x.op = 2 → aa = true → t.get (I2C.CRES.RXDATA.i n) = data.toNat) ∧ (65 + n.val, s.tb) ∈ t.stm.pulses) ∧
      (x.waiting = false → x.op ≠ 3 →
        Completes (.arbitrationLost n) s fun t =>
          t.is (if n.val = 0 then I2C.STICKY.AARB else I2C.STICKY.BARB) = true ∧ t.i2cTx n = none ∧
            t.get (I2C.CRES.RESULT.i n) = 3) ∧
      (x.waiting = false → ∀ sda : Bool,
        Completes (.i2cLowTimeout (n.castLE (by decide)) sda) s fun t =>
          t.i2cTx n = none ∧ t.get (I2C.CRES.RESULT.i n) = 4))

/-- The target T: a byte received, a byte served, RXREG and TXREG, its time limit, and its wake match (R555 to R558). -/
def TwoWireTargetHold : Prop :=
  ∀ (s : State) (i : Initiator) (addr : BitVec 7) (data : Byte),
    (s.targetHears addr.toNat = true →
      Completes (.targetWriteReceived addr data) s (fun t =>
        if s.is I2C.RXREG.RXV then t.is I2C.STICKY.TOVR = true ∧ t.get I2C.RXREG.BYTE = s.get I2C.RXREG.BYTE
        else t.is I2C.RXREG.RXV = true ∧ t.get I2C.RXREG.BYTE = data.toNat ∧ t.is I2C.STICKY.TRX = true) ∧
      Completes (.targetRead addr) s (fun t =>
        t.is I2C.TSTAT.STALE = !s.is I2C.TXREG.TXV ∧ t.is I2C.TXREG.TXV = false ∧ t.is I2C.STICKY.TTX = true ∧
          t.get I2C.TXREG.BYTE = s.get I2C.TXREG.BYTE)) ∧
    (Opens s i I2C.RXREG 0 false →
      Completes (.rxregRead i) s fun t =>
        t.answered i = (s.reg I2C.RXREG.key).toNat ∧ t.is I2C.RXREG.RXV = false ∧
          t.get I2C.RXREG.BYTE = s.get I2C.RXREG.BYTE ∧ SameStore s t) ∧
    (Opens s i I2C.TXREG 0 true →
      Completes (.txregWrite i data) s fun t =>
        t.get I2C.TXREG.BYTE = data.toNat ∧ t.is I2C.TXREG.TXV = true ∧ OnlyStuck s t [0x07]) ∧
    (s.domOn Dom.core = true → s.is I2C.TCFG.EN = true → s.is I2C.TSTAT.WAKEHOLD = false →
      Completes .targetSclTimeout s fun t =>
        t.is I2C.TSTAT.INTX = false ∧ t.is I2C.STICKY.TSCLTO = true ∧ OnlyStuck s t [0x07]) ∧
    (∀ k : Nat, s.domOn Dom.core = false → (s.mode = 2 ∨ s.mode = 3) → s.is I2C.TCFG.EN = true →
      s.get I2C.TCFG.ADDR = addr.toNat → s.is (PWR.WAKEEN.SRC.bit 1) = true →
      Completes (.targetWakeMatch addr k) s fun t =>
        t.is I2C.TSTAT.WAKEHOLD = true ∧ t.is (PWR.WAKESRC.SRC.bit 1) = true ∧ (89, s.stampNow k) ∈ t.stm.pulses)

/-- Whether a sticky bit of a page may report: FLTEN has its bit (R20). -/
def reports (s : State) (f : Fld) : Bool := s.is ((headerOf f.key 0x18 32).bit f.lo)

/-- A STICKY bit that rises with its FLTEN bit 1 sends a report with its stamp, page, instance and INFO word; one that is 1 already
sends none (R15, R20). -/
def StickyReportsHold : Prop :=
  ∀ (s : State) (f : Fld) (inst info : Nat), f.width = 1 → f.lo < 32 → addrPage f.key ≠ 0x03 → s.domOn Dom.core = true →
    (s.is f = false → reports (Eff.apply s (.put f 1)) f = true →
      (Act.run (stickI f inst info) s).flt.sent = s.flt.sent ++ [⟨s.tb, addrPage f.key, inst, f.lo, 1, info⟩] ∧
        (Act.run (stickI f inst info) s).is f = true) ∧
    (s.is f = true → Act.run (stickI f inst info) s = s)

/-- The collector: a report arrives and is staged, the lowest ranked is appended with QAVAIL and its producer, the overflow marker
follows, and a pop removes the oldest entry (R349, R351, R352). -/
def FaultCollectorHold : Prop :=
  ∀ (s : State) (i : Initiator),
    (∀ r l, s.flt.sent = r :: l → s.flt.staged.length < 256 → s.flt.lost = none →
      exec .faultReportArrive s = .next { s with flt := { s.flt with sent := l, staged := s.flt.staged ++ [r] } }) ∧
    (∀ r, lowestReport s.flt.staged = some r → s.flt.sent.any (·.before r) = false → s.flt.marked = false → s.flt.lost = none → s.flt.queue.length < 63 →
      Completes .faultQueueAppend s fun t =>
        t.flt.queue = s.flt.queue ++ [r] ∧ t.flt.staged = dropReport r s.flt.staged ∧ t.is FLT.STICKY.QAVAIL = true ∧
          (34, t.tb) ∈ t.stm.pulses ∧ SameStore s t) ∧
    (∀ r m, lowestReport s.flt.staged = some r → s.flt.sent.any (·.before r) = false → s.flt.marked = false → s.flt.lost = some m → r.before m = true →
      63 ≤ s.flt.queue.length → s.get (lostFld r.page) < 255 → r.page < 40 →
      Completes .faultQueueAppend s fun t =>
        t.flt.queue = s.flt.queue ∧ t.flt.lost = some r ∧ t.get (lostFld r.page) = s.get (lostFld r.page) + 1) ∧
    (∀ m, s.flt.lost = some m → s.flt.marked = false → ((s.flt.staged ++ s.flt.sent).any fun r => r.before m) = false →
      Completes .overflowMarkerAppend s fun t =>
        t.flt.queue = s.flt.queue ++ [⟨m.tb, m.page, m.inst, 0, 2, 0⟩] ∧ t.flt.marked = true ∧
          t.is FLT.STICKY.OVF = true ∧ SameStore s t) ∧
    (∀ (w : Word) r l, Opens s i FLT.POP 0 true → s.flt.queue = r :: l → w.toNat.testBit 0 = true →
      Completes (.faultPop i w) s fun t =>
        t.flt.queue = l ∧ (r.kind = 2 → t.flt.lost = none ∧ t.flt.marked = false) ∧ t.regs = s.regs ∧ SameStore s t)

/-- The CRC octet of a wake frame with a code and a group (R160). -/
def wakeCrc (code : BitVec 16) (group : Byte) : Byte :=
  BitVec.ofNat 8 (crc8 [code.toNat / 256, code.toNat % 256, group.toNat])

/-- The power-down sequence: it starts with the fence, its end switches the closing domains off and reaches the mode, and the time
limit ends what is left (R283, R471 to R474). -/
def PowerDownSequenceHold : Prop :=
  ∀ s : State,
    (s.requestDue = true →
      let m := s.get PWR.MODEREQ.TARGET
      let closing := domainsLess (s.get PWR.STAT.DOMON) (s.modeDomains m ||| 1)
      closing ≠ 0 →
      Completes .powerDownStart s (fun t => t.pwr.closing = closing ∧ t.pwr.downTo = m ∧ t.pwr.fenceAt = s.tb) ∧
      (s.get THM.STAT.PHOLD = 0 → (m = 2 ∨ m = 3) →
        Completes .pholdExpire s fun t => t.pwr.closing = closing ∧ t.pwr.downTo = m ∧ t.pwr.fenceAt = s.tb)) ∧
    (s.pwr.closing ≠ 0 → s.fenceWork = [] → s.pwr.downTo < 4 → s.pwr.wakeAfter = none →
      Completes .fenceEnd s fun t =>
        t.get PWR.STAT.DOMON = domainsLess (s.get PWR.STAT.DOMON) s.pwr.closing ∧ t.mode = s.pwr.downTo ∧
          t.pwrBusy = false ∧ t.pwr.closing = 0) ∧
    (s.pwr.closing ≠ 0 → s.pwr.fenceAt + 4 * s.get PWR.PDFENCE.LIMIT ≤ s.tb → s.fenceWork ≠ [] →
      s.is PWR.STICKY.FENCETO = false →
      Completes .fenceTimeout s fun t =>
        t.is PWR.STICKY.FENCETO = true ∧ (s.closes Dom.core = true → t.recd.held = []))

/-- The restore: AON stable, and the step of a domain, after the last of which the mode is reached (R476). -/
def RestoreSequenceHold : Prop :=
  ∀ (s : State) (d k : Nat) (rest : List Nat), s.pwr.restoring = d :: rest →
    (s.pwr.starting = true →
      exec .xoStable s = .next { s with pwr := { s.pwr with starting := false, stepAt := s.tb } }) ∧
    (s.pwr.starting = false → d = Dom.tx → s.pwr.upTo < 5 →
      Completes (.domainRestoreStep k) s fun t =>
        t.domOn Dom.tx = true ∧ t.pwr.restoring = rest ∧ (rest = [] → t.mode = s.pwr.upTo ∧ t.pwrBusy = false) ∧
          (s.domOn Dom.core = true → s.tb < 2 ^ 63 → s.pwr.stepAt < 2 ^ 63 → s.pwr.stepAt + 4 * 150 ≤ t.tb))

/-- The supply and the RTC: each event's status, stamp and wake source (R469, R475, R480, R514). -/
def SupplyAndWakeHold : Prop :=
  ∀ (s : State) (k : Nat),
    (s.thm.k32ok = true → s.mode ≠ 4 → Completes (.rtcSecond k) s fun t =>
      t.get PWR.RTCSEC.SEC = (s.get PWR.RTCSEC.SEC + 1) % 2 ^ 32 ∧ t.recd.opsec = (s.recd.opsec + 1) % 2 ^ 32 ∧
        SameStore s t) ∧
    (s.is PWR.STAT.ONBAK = false → s.mode ≠ 4 → s.pwr.inReset = false → Completes (.vinFall k) s fun t =>
      t.is PWR.STAT.ONBAK = true ∧ t.is PWR.STICKY.OUTAGE = true ∧ (92, s.stampNow k) ∈ t.stm.pulses ∧ SameStore s t) ∧
    (s.is PWR.STAT.ONBAK = true → s.mode ≠ 4 → s.pwr.inReset = false → Completes (.vinRestored k) s fun t =>
      t.is PWR.STAT.ONBAK = false ∧ t.is PWR.STICKY.VINBACK = true ∧ (93, s.stampNow k) ∈ t.stm.pulses ∧
        t.is (PWR.WAKESRC.SRC.bit 4) = true ∧ SameStore s t) ∧
    (s.mode ≠ 4 → s.pwr.inReset = false → Completes (.wakenLow k) s fun t =>
      (90, s.stampNow k) ∈ t.stm.pulses ∧ t.is (PWR.WAKESRC.SRC.bit 2) = true ∧ t.is PWR.WAKESRC.V = true ∧
        t.get PWR.WAKESRC.FROM = s.mode ∧ SameStore s t) ∧
    (s.is PWR.STAT.ONBAK = true → s.mode ≠ 4 → s.pwr.inReset = false → s.get PWR.STAT.DOMON = 1 →
      Completes (.cutoff k) s fun t => t.mode = 4 ∧ t.get PWR.STAT.DOMON = 1)

/-- Every register outside the page of the power controller holds its reset value, SRAM, the Bobbin and the frame memory are zero,
and no core runs. -/
def InReset (s t : State) : Prop :=
  (∀ k, pageBase ≤ keyAddr k → keyAddr k < 0x40026000 → addrPage (keyAddr k) ≠ 0x01 → t.reg k = resetWord k) ∧
  (∀ a, (0x20000000 ≤ a ∧ a < 0x20200000) ∨ (0x24000000 ≤ a ∧ a < 0x24080000) ∨ (0x30000000 ≤ a ∧ a < 0x30100000) →
    t.byte a = 0) ∧
  (∀ a, (0x08000000 ≤ a ∧ a < 0x08800000) ∨ (0x28000000 ≤ a ∧ a < 0x28040000) → t.byte a = s.byte a) ∧
  t.pat = [] ∧ t.pwr.inReset = true ∧ t.get PWR.STAT.DOMON = 1 ∧ (t.core 0).runs = false ∧ (t.core 1).runs = false

/-- The device resets: everything but MRAM, flash and what the RTC keeps takes its reset value, and the end of the sequence starts DN0
at the address in boot ROM word 0 (R27, R385, R469, R470, R592, R605, R609, R619 to R621). -/
def DeviceResetHold : Prop :=
  ∀ s : State,
    Completes .resetnLow s (fun t => InReset s t ∧ t.get PWR.RTCSEC.SEC = s.get PWR.RTCSEC.SEC) ∧
    Completes .brownOut s (fun t => InReset s t ∧ t.pwr.pgood = false) ∧
    Completes .powerOnResetEngage s (fun t => InReset s t ∧ t.pwr.cold = true ∧ t.get PWR.RTCSEC.SEC = 0) ∧
    (s.pwr.inReset = true → ∀ b low : Bool, Completes (.aonPowerOn b low) s fun t =>
      t.is PWR.STAT.ONBAK = b ∧ t.pwr.lowVio = low ∧ SameStore s t) ∧
    (s.mode = 4 → Completes .vinRiseInOff s fun t => InReset s t ∧ t.is PWR.STAT.ONBAK = false ∧ t.pwr.cold = true) ∧
    (∀ at_, s.upd.resetAt = some at_ → Completes .activateReset s fun t => InReset s t) ∧
    (s.pwr.inReset = true → ∀ b0 b1 m : Bool, Completes (.deviceResetEnd b0 b1 m) s fun t =>
      t.core 0 = { DnCore.reset 0 with pc := t.word 0 } ∧ t.core 1 = DnCore.reset 1 ∧ t.upd.due = some true)

/-- Gain, clipping and the converters (R74 to R83, R90). -/
def FrontEndHold : Prop :=
  ∀ (s : State) (i : Initiator) (n : Fin 2), s.rfe.ports.length = 2 →
    (∀ w : Word, Opens s i (RFE.PGAIN.i n) 0 true → -31 ≤ toS 8 (fieldOf w RFE.PGAIN.SCHGAIN.lo 8) →
      toS 8 (fieldOf w RFE.PGAIN.SCHGAIN.lo 8) ≤ 30 →
      Completes (.gainWrite i n false w) s fun t =>
        t.getS (RFE.PGAIN.SCHGAIN.i n) = toS 8 (fieldOf w RFE.PGAIN.SCHGAIN.lo 8) ∧ SameStore s t) ∧
    (s.agcActs n = true →
      let sch := s.getS (RFE.PGAIN.SCHGAIN.i n)
      let span : Int := s.get (RFE.PCFG.AGCSPAN.i n)
      let step : Int := s.get (RFE.PAGC.AGCSTEP.i n)
      let g := s.getS (RFE.PGSTAT.GAIN.i n)
      ∀ (level : Int) (peak : BitVec 12),
        (s.getS (RFE.PAGC.AGCHI.i n) < level → Completes (.agcStepDown n (level, peak)) s fun t =>
          t.getS (RFE.PGSTAT.GAIN.i n) = clampS (-31) 30 (clampS (sch - span) (sch + span) (g - step)) ∧
            (s.is (RXS.STAT.RUN0.bit n) = true →
              t.get (RXS.PPEAK.PK.i n) = max (s.get (RXS.PPEAK.PK.i n)) (min peak.toNat 2048)) ∧ SameStore s t) ∧
        (level < s.getS (RFE.PAGC.AGCLO.i n) → Completes (.agcStepUp n (level, peak)) s fun t =>
          t.getS (RFE.PGSTAT.GAIN.i n) = clampS (-31) 30 (clampS (sch - span) (sch + span) (g + step)) ∧ SameStore s t)) ∧
    (s.is (RFE.PGSTAT.SETTLING.i n) = true → (s.rfPort n).settleAt < 2 ^ 64 → Completes (.gainSettled n) s fun t =>
      t.is (RFE.PGSTAT.SETTLING.i n) = false ∧ (s.rfPort n).settleAt ≤ t.tb ∧ SameStore s t) ∧
    (s.is (RXS.STAT.RUN0.bit n) = true → s.portState n ≠ 2 → ∀ low : Bool, Completes (.clipEvent n low) s fun t =>
      t.get (RXS.PPEAK.PK.i n) = max (s.get (RXS.PPEAK.PK.i n)) (if low then 2048 else 2047) ∧ t.is (RXS.STICKY.CLIPEV0.bit n) = true ∧
        (s.frozen n = true → t.is (RFE.STICKY.CLIP0.bit n) = true) ∧ SameStore s t) ∧
    (∀ at_, (s.rfPort n).runAt = some at_ → s.converterMay n = true → Completes (.converterRun n) s fun t =>
      t.is (RXS.STAT.RUN0.bit n) = true ∧ (t.rfPort n).runAt = none ∧ SameStore s t) ∧
    (∀ (loss : Nat) (r : TxRun), (s.txChain (s.portChain n)).busy = some r → r.port = n.val → 2 ≤ r.phase → r.lossSeen = false →
      s.is (RFE.PCFG.PAPATH.i n) = false →
      Completes (.returnLossMeasure n loss) s fun t =>
        t.get (RFE.PTUNE.RLOSS.i n) = min loss 0xFE ∧ (t.rfPort n).lastLoss = some (min loss 0xFE) ∧
          (min loss 0xFE < s.get (RFE.PTUNE.MMTH.i n) → t.is (RFE.STICKY.MISMATCH0.bit n) = true) ∧
          (min loss 0xFE < 12 → t.is RFE.STICKY.SEVERE = true) ∧ SameStore s t)

/-- The calibration units (R94 to R97). -/
def CalibrationUnitsHold : Prop :=
  ∀ (s : State) (i : Initiator), s.rfe.cal.length = 13 →
    (∀ w : Word, Opens s i RFE.CALREQ 0 true → Completes (.calreqWrite i w) s fun t =>
      (∀ u < 13, w.toNat.testBit (calOf u) = true →
        (t.calUnit u).pending = true ∧ t.is (RFE.CALREQ.REQ.bit (calOf u)) = true) ∧ SameStore s t) ∧
    (∀ u : Fin 13, s.domOn Dom.rxn = true → s.get RFE.CALCFG.PERIOD ≠ 0 → Completes (.calPeriodExpire u) s fun t =>
      (t.calUnit u).pending = true ∧ t.is (RFE.CALREQ.REQ.bit (calOf u)) = true ∧ SameStore s t) ∧
    (∀ (u : Fin 13) (at_ : Nat) (rs : List Int), (s.calUnit u).ends = some at_ →
      let r := if u = 4 then [rs.getD 0 0, rs.getD 0 0] else rs
      let good := if u = 11 then xoFits s.xoSum = true
        else ∀ f ∈ (calFields u).zipIdx, f.1.2.1 ≤ r.getD f.2 0 ∧ r.getD f.2 0 ≤ f.1.2.2
      (good → Completes (.calUnitComplete u rs) s fun t =>
        (∀ f ∈ (calFields u).zipIdx, t.get f.1.1 = ofS f.1.1.width (r.getD f.2 0)) ∧
          (u = 11 → t.getS RFE.XOTRIM.TARGET = s.xoSum ∧ t.rfe.xoMoves = true) ∧
          (t.calUnit u).pending = false ∧ (t.calUnit u).ends = none ∧ t.is (RFE.CALSTAT.FAILED.bit (calOf u)) = false) ∧
      (¬good → Completes (.calUnitComplete u rs) s fun t =>
        t.is RFE.STICKY.CALFAIL = true ∧ t.is (RFE.CALSTAT.FAILED.bit (calOf u)) = true ∧
          (∀ f ∈ calFields u, t.get f.1 = s.get f.1) ∧ t.getS RFE.XOTRIM.TARGET = s.getS RFE.XOTRIM.TARGET ∧
          (t.calUnit u).pending = false)) ∧
    (∀ u : Fin 13, (s.calUnit u).age = 1000 → Completes (.calStarve u) s fun t =>
      t.is RFE.STICKY.CALSTARVE = true ∧ (t.calUnit u).age = 1001 ∧ SameStore s t)

/-- Windows and the writes of the lanes (R101, R102, R105, R107, R133). -/
def WindowsAndLanesHold : Prop :=
  ∀ (s : State) (i : Initiator) (w : Word),
    (∀ n : Fin 4, Opens s i (CHZ.WCFG.i n) 0 true → s.chz.force.length = 4 →
      let width := bits w.toNat 30 28
      let hz := windowHz (width * 2 ^ 28)
      let centre := bits w.toNat 20 0 * 1000
      width ≤ 4 → 300000000 + hz ≤ 2 * centre → 2 * centre + hz ≤ 2100000000 →
      Completes (.windowWrite i n w) s fun t =>
        t.get (CHZ.WCFG.WIDTH.i n) = width ∧ t.get (CHZ.WCFG.CENTRE.i n) = bits w.toNat 20 0 ∧
          t.is (CHZ.WCFG.EN.i n) = w.toNat.testBit 31 ∧ SameStore s t) ∧
    (∀ (n : Fin 4) (old : Nat) (due : Bool), s.chz.force.length = 4 → s.chz.force.getD n none = some (old, due) →
      (due = true ∨ (s.is CLK.CTRL.TICKEN = false ∧ s.windowBusy n = false)) →
      Completes (.windowApply n) s fun t =>
        t.chz.force.getD n none = none ∧ t.is (CHZ.STAT.WHELD.bit n) = false ∧ SameStore s t) ∧
    (∀ (n : Fin 128), Opens s i (laneReg 0 n) 0 true →
      Completes (.laneCfgWrite i 0 0 n w) s fun t =>
        t.is (DMD.LCFG.EN.i n) = w.toNat.testBit DMD.LCFG.EN.lo ∧ SameStore s t) ∧
    (Opens s i DMD.CNTCLR 0 true → s.dmd.lanes.length = 128 →
      Completes (.cntclrWrite i 0 w) s fun t =>
        (t.lane (w.toNat % 128)).counts = [0, 0, 0, 0, 0, 0, 0, 0, 0, 0] ∧
          (w.toNat.testBit 31 = true → ∀ n < 128, (t.lane n).counts = [0, 0, 0, 0, 0, 0, 0, 0, 0, 0]) ∧
          t.regs = s.regs ∧ SameStore s t)

/-- A frame in progress after more samples of its lane. -/
def fedFrame (s : State) (f : RxFrame) (xs : List (Int × Int)) : RxFrame :=
  let r := f.rx.fed (s.rxOf f) xs
  { f with rx := r, restored := f.restored || decide (f.rx.restores < r.restores) }

/-- How a lane finds a packet: the states of R114 by the conditions of R115 to R118, on the lane's own samples (R116, R117). -/
def PacketFinderHold : Prop :=
  ∀ (s : State) (n : Fin 128) (t : Nat), s.dmd.lanes.length = 128 →
    (∀ dbm : Int, s.laneState n = 4 → s.laneMoves n = true → s.laneInput n = true → s.portState (s.lanePort n) ≠ 2 →
      s.getS (DMD.LFIND.RSSITH.i n) < dbm → (s.freeBuffer n).isSome = true →
      Completes (.energyDetect n dbm t) s fun u => u.laneState n = 5 ∧ SameStore s u) ∧
    (∀ (xs : List (Int × Int)) (m b : Nat), s.laneState n = 5 → s.laneInput n = true → s.portState (s.lanePort n) ≠ 2 →
      s.freeBuffer n = some b →
      let p := s.laneRx n
      let qualn := s.get (DMD.LFIND.QUALN.i n) + 1
      qualifiesAt p qualn (s.get (DMD.LFIND.QUALTH.i n)) xs = some m →
      Completes (.qualifierPass n xs t) s fun u =>
        u.laneState n = 6 ∧ (∃ x ∈ u.frm.frames, x.lane = n.val ∧ x.buf = b ∧ x.stage = 0 ∧ x.vi = s.laneVi n ∧
          x.rx = (RxDsp.start p qualn (xs.take m)).fed p (xs.drop m)) ∧
          (s.lanePort n < 2 → u.is (RFE.PGSTAT.FROZEN.i (s.lanePort n)) = true)) ∧
    (s.laneLive n = true → s.is (DMD.LCFG.SCHED.i n) = false → s.laneWillFit n = true →
      (s.laneState n = 5 → (s.freeBuffer n).isSome = true → Completes (.qualifierTimeout n) s fun u =>
        u.laneState n = 4 ∧ SameStore s u) ∧
      (∀ f, s.laneState n = 6 → s.laneFrame n = some f → f.buf < 2 → (∀ x ∈ s.inProgress, x.lane = n.val → x = f) →
        s.laneMoves n = true → s.portState (s.lanePort n) ≠ 0 → Completes (.sfdTimeout n) s fun u =>
        u.laneState n = 4 ∧ ∀ x ∈ u.frm.frames, ¬(x.lane = n.val ∧ x.buf = f.buf))) ∧
    (∀ (f : RxFrame) (fine : Fin 64) (xs : List (Int × Int)) (power : Int) (parts : Nat) (coded : Bool),
      s.laneFrame n = some f → s.laneState n = 6 → s.laneInput n = true → (fedFrame s f xs).rx.found = some coded →
      Completes (.sfdMatch n t fine xs power parts ()) s fun u =>
        u.laneState n = 7 ∧
          ∃ x ∈ u.frm.frames, x.lane = n.val ∧ x.buf = f.buf ∧ x.stage = 1 ∧ x.coded = coded ∧ x.rx = (fedFrame s f xs).rx ∧
            x.tb * 64 + x.fine = u.tb * 64 + fine - latencyFine f.mode) ∧
    (∀ (f : RxFrame) (xs : List (Int × Int)), s.laneFrame n = some f → f.stage = 1 → f.len = 0 →
      let g := fedFrame s f xs
      let w := ofMsb (g.infoBits.take 16)
      let good := (if isGlr f.mode then evenParity w = true else bitOf w 15 = 0) ∧ bits w 10 0 ≤ s.get DMD.SFDCFG.MAXLEN ∧
        (if bitOf w 12 = 1 then 3 else 5) ≤ bits w 10 0
      16 ≤ g.infoBits.length →
      (good → Completes (.phrReceived n xs) s fun u =>
        (∃ x ∈ u.frm.frames, x.lane = n.val ∧ x.buf = f.buf ∧ x.len = bits w 10 0 ∧
          (x.fcs2 = true ↔ bitOf w 12 = 1) ∧ (x.white = true ↔ bitOf w 11 = 1)) ∧ SameStore s u) ∧
      (¬good → Completes (.phrReceived n xs) s fun u =>
        u.is DMD.STICKY.PHRERR = true ∧ ∀ x ∈ u.frm.frames, ¬(x.lane = n.val ∧ x.buf = f.buf))) ∧
    (∀ (f : RxFrame) (xs : List (Int × Int)), s.laneFrame n = some f →
      Completes (.dfeBlockCheck n xs) s fun u =>
        (∃ x ∈ u.frm.frames, x.lane = n.val ∧ x.buf = f.buf ∧ x.rx = (fedFrame s f xs).rx) ∧
          (f.restored = false → f.rx.restores < (fedFrame s f xs).rx.restores → u.is DMD.STICKY.DFERST = true) ∧
          SameStore s u) ∧
    (∀ dbm : Int, s.laneState n = 3 → s.laneInput n = true → s.portState (s.lanePort n) ≠ 2 →
      s.getS (DMD.LFIND.RSSITH.i n) < dbm →
      Completes (.energyInHold n dbm t) s fun u => u.is DMD.STICKY.BUFBUSY = true ∧ u.laneState n = 3 ∧ SameStore s u)

/-- The guard of the equaliser at the end of a block of 16 decision-directed symbols: above DIVTH it restores the taps to their
snapshot, else they have stepped (R121, R125). The error is in units of 1/`one`. -/
def EqualiserGuardHold : Prop :=
  ∀ (r : RxDsp) (p : RxSet) (y d : Int), p.dfe = 2 → r.blockN = 15 →
    let e := 8192 * r.level * d - y
    let above := 256 * (r.blockSum + (e * e).toNat) > 16 * p.divth * (r.one ^ 2).toNat
    let q := r.directed p y d
    q.taps = (if above then r.snap else r.stepped e p.mufd p.mubd) ∧
      q.restores = r.restores + (if above then 1 else 0) ∧ q.blockN = 0 ∧ q.blockSum = 0
/-! Transmissions. -/

/-- A run of a chain passes the checks of its ramp-up, in sub-band `sb`, and its time has come (R150, R153, R246, R263). -/
def admitted (s : State) (c : Nat) (r : TxRun) (sb : Nat) : Prop :=
  (s.txChain c).busy = none ∧ s.domOn Dom.tx = true ∧ s.rampTbAt c r ≤ s.tb ∧ s.wordsOk c r = true ∧
    (r.what = .wake ∨ (16220 ≤ s.firSum c r.shape ∧ s.firSum c r.shape ≤ 16548)) ∧
    (r.what = .direct → s.is BOB.CTRL.RJONLY = false) ∧ s.dutyCheck (s.emissionOf c r) = .ok sb

/-- BUSY of a chain. -/
def busyFld (c : Nat) : Fld := if c = 0 then TXP.STAT.BUSY0 else TXP.STAT.BUSY1

/-- What a ramp-up leaves: the chain busy, its port in TX, the run ramping at TB with its air time. -/
def Ramping (s : State) (c : Nat) (r : TxRun) (t : State) : Prop :=
  t.is (busyFld c) = true ∧ t.portState (s.chainPort c) = 2 ∧
    ∃ x ∈ (t.txChain c).runs, x.what = r.what ∧ x.phase = 1 ∧ x.air = s.airOf c r ∧ x.rampAt = s.tb ∧
      x.ramp = s.rampTb (s.chainPort c) ∧ x.coefs = s.tapWords c r.shape

/-- The state in which a chain's own turn comes at a ramp-up: the run's moment has come, and what precedes it in the cycle has
happened (R267). -/
def beforeRampUp (s : State) (c : Nat) (r : TxRun) : State :=
  Act.run (chain [until_ (s.rampTbAt c r), turnsFirst, whenA (c = 1) (rampTurn 0)]) s

/-- The same for an acknowledgement (R180, R267). -/
def beforeAck (s : State) (c : Nat) (r : TxRun) : State :=
  Act.run (chain [until_ (s.rampTbAt c r), rollsFirst, whenA (c = 1) (ackTurn 0)]) s

/-- A transmission from the PA's enable to the port's exit from TX (R69, R72, R86, R154, R157, R180, R181, R302, R532). -/
def TransmitChainHold : Prop :=
  ∀ (s : State) (c : Fin 2), s.txp.chains.length = 2 → s.rfe.ports.length = 2 →
    (∀ r, leastBy (s.rampTbAt c) ((s.txChain c).runs.filter fun r =>
        r.phase == 0 && (r.isAck || r.isDirect || !(s.txChain c).direct)) = some r →
      s.is (RFE.PCFG.PAPATH.i (s.chainPort c)) = true →
      Completes (.externalPaEnable c) s fun t =>
        (t.rfPort (s.chainPort c)).epa = true ∧ t.regs = s.regs ∧ SameStore s t) ∧
    (∀ r x sb, s.nextRun c = some r → s.domOn Dom.tx = true →
      let u := beforeRampUp s c r
      u.nextRun c = some x → admitted u c x sb → Completes (.txRampUp c) s fun t =>
        Ramping u c x t ∧ (x.isDirect = true → t.is (TXP.CDSTAT.RUN.i c) = true ∧ t.is (TXP.CDSTAT.ARMED.i c) = false)) ∧
    (∀ r x, s.nextAck c = some r →
      let u := beforeAck s c r
      u.nextAck c = some x → u.rampTbAt c x ≤ u.tb →
      (∀ sb, admitted u c x sb → Completes (.ackDue c) s fun t => Ramping u c x t) ∧
      ((u.txChain c).busy.isSome = true ∨ u.domOn Dom.tx = false → Completes (.ackDue c) s fun t =>
        t.is FRM.STICKY.ACKMISS = true ∧ (t.txChain c).runs = (u.txChain c).runs.filter (· != x) ∧ SameStore s t)) ∧
    (∀ r, (s.txChain c).busy = some r →
      (∀ fine : Fin 64, r.phase = 1 → r.rampAt + r.ramp < 2 ^ 64 →
        Completes (.txPreambleStart c fine) s fun t =>
          (∃ x ∈ (t.txChain c).runs, x.phase = 2 ∧ x.tb = r.rampAt + r.ramp ∧ x.fine = fine.val) ∧
            (32 + c.val, max s.tb (r.rampAt + r.ramp)) ∈ t.stm.pulses ∧ t.regs = s.regs ∧ SameStore s t) ∧
      (r.phase = 2 → Completes (.txLastBit c) s fun t =>
        (r.ackReq = false → (t.txChain c).busy = some { r with phase := 3 } ∧ t.regs = s.regs ∧ SameStore s t) ∧
          (∀ d k n, r.what = .queued d k → k.lane = some n → r.ackReq = true → s.shu.disturbed = false →
            t.shu.waits = s.shu.waits ++ [⟨n, k, d, r.octets, t.tb⟩])) ∧
      (r.phase = 3 → r.port < 2 → Completes (.txRampDownEnd c) s fun t =>
        t.is (busyFld c) = false ∧ (t.rfPort r.port).exitAt = some (t.tb + 80) ∧
          (t.txChain c).runs = (s.txChain c).runs.filter (fun y => y.phase == 0) ∧
          (r.isDirect = true → t.is (TXP.CDSTAT.DONE.i c) = true ∧ t.get (TXP.CDSTAT.STATUS.i c) = r.status % 256 ∧
            t.is (TXP.CDCTRL.GO.i c) = false))) ∧
    (∀ at_, (s.rfPort c).exitAt = some at_ → Completes (.portTxExit c) s fun t =>
      (t.rfPort c).exitAt = none ∧ t.get (portFld c) = if s.is (RFE.PCFG.EN.i c) && s.portPowered c then 1 else 0)

/-- Direct transmissions and the mask monitor (R30, R155, R156, R158 to R160). -/
def DirectAndMaskHold : Prop :=
  ∀ (s : State) (i : Initiator) (c : Fin 2), s.txp.chains.length = 2 →
    (∀ now : Bool, Opens s i (TXP.CDCTRL.i c) 0 true → (s.txChain c).runs.any TxRun.isDirect = false →
      (s.txChain c).freeBuffer.isSome = true →
      Completes (.directWakeGo i c now) s (fun t =>
        t.is (TXP.CDSTAT.ARMED.i c) = true ∧ t.is (TXP.CDCTRL.GO.i c) = true ∧ t.get (TXP.CDCTRL.KIND.i c) = 1 ∧
          (∃ x, (t.txChain c).runs = (s.txChain c).runs ++ [x] ∧ x.what = .wake) ∧ SameStore s t) ∧
      (s.ecc.bad = [] → s.ecc.fresh = [] → Completes (.directFrameGo i c now) s fun t =>
        t.is (TXP.CDSTAT.ARMED.i c) = true ∧ t.is (TXP.CDCTRL.GO.i c) = true ∧ t.get (TXP.CDCTRL.KIND.i c) = 0 ∧
          (∃ x, (t.txChain c).runs = (s.txChain c).runs ++ [x] ∧ x.what = .direct ∧
            x.octets = s.octets (Base.fram + s.get (TXP.CDADDR.ADDR.i c) * 8) x.octets.length ∧
            (now = true → x.start = s.tb)) ∧ SameStore s t)) ∧
    (∀ now : Bool, Opens s i (TXP.CDCTRL.i c) 0 true → (s.txChain c).runs.any TxRun.isDirect = true →
      Completes (.directFrameGo i c now) s fun t =>
        t.is TXP.STICKY.DBUSY = true ∧ t.txp = s.txp ∧ OnlyStuck s t [0x0D]) ∧
    (∀ r, ((s.txChain c).runs.find? fun r => r.isDirect && r.phase == 0) = some r →
      ((s.txChain c).direct = false → Completes (.directDue c) s fun t =>
        (∃ x ∈ (t.txChain c).runs, x.isDirect = true ∧ x.phase = 0 ∧
          x.start = max r.start (s.clk.nextTick + s.rampTb (s.chainPort c))) ∧ SameStore s t) ∧
      ((s.txChain c).direct = true → exec (.directDue c) s = .next s)) ∧
    (∀ r (k : Nat) (p1 p2 : Int), (s.txChain c).busy = some r → r.phase = 2 → r.measured = false →
      let cfg := r.masks.getD 2 0
      let limit : Int := toS 8 (r.masks.getD 0 0 / 2 ^ 24)
      let ends := r.tb + ceilDiv r.air 3
      cfg % 4 ≠ 0 → r.tb + 40 * (bits cfg 15 8 + k) < ends → -128 ≤ p1 → p1 ≤ 127 → -128 ≤ p2 → p2 ≤ 127 →
      Completes (.maskEvaluate c k p1 p2) s fun t =>
        t.getS (TXP.CMEAS.PAIR1.i c) = p1 ∧ t.getS (TXP.CMEAS.PAIR2.i c) = p2 ∧
          (limit < p1 → cfg % 4 = 1 →
            t.is (TXP.STICKY.MASKVIO) = true ∧ (t.txChain c).busy = some { r with measured := true }) ∧
          (limit < p1 → cfg % 4 = 2 →
            t.is TXP.STICKY.MASKAB = true ∧ ∃ x, (t.txChain c).busy = some x ∧ x.phase = 3 ∧ x.status = Status.maskAbort))

/-- What a frame sends: as many symbols as R140 counts; whitening and each interleaver undo themselves (R140, R142 to R144). -/
def FrameOnAirHold : Prop :=
  (∀ r : TxRun, r.octets.length + fcsLen r.fcs2 = r.len →
    r.symbols.length = frameSymbols r.mode r.len r.prelen r.fec) ∧
  (∀ l : List Bool, whitened (whitened l) = l) ∧
  (∀ (m : Nat) (l : List Bool), m = 4 ∨ m = 8 → l.length % (m * m) = 0 → interleaved m (interleaved m l) = l)

/-- The rolls of the air-time buckets (R268, R270). -/
def DutyRollsHold : Prop :=
  ∀ s : State, s.domOn Dom.mac = true →
    (s.is CLK.CTRL.TICKEN = true → s.dut.rollAt ≤ s.clk.lastTick → Completes .bucketRoll s fun t =>
      t.dut.rollNo = s.dut.rollNo + 1 ∧ t.dut.rollAt = s.dut.rollAt + 240000000 ∧
        t.dut.air = s.dut.air.filter (fun c => s.dut.rollNo + 1 < c.bucket + 60) ∧ t.regs = s.regs ∧ SameStore s t) ∧
    (s.is CLK.CTRL.TICKEN = false → Completes .dwellRoll s fun t =>
      t.dut.dwellNo = s.dut.dwellNo + 1 ∧ t.dut.dwellAt = s.dut.dwellAt + 4000000 ∧
        t.dut.dwellAir = s.dut.dwellAir.filter (fun c => s.dut.dwellNo + 1 < c.bucket + 20) ∧ t.regs = s.regs ∧
        SameStore s t)

/-- The byte of a beat's destination and of its source. -/
def beatDst (m : MovCh) (d : List Nat) : Nat := (dDst d (m.moved / dLen d)).toNat + m.moved % dLen d
def beatSrc (m : MovCh) (d : List Nat) : Nat := (dSrc d (m.moved / dLen d)).toNat + m.moved % dLen d

/-- A Mover channel moves a descriptor with an operation, whose next beat of `n` bytes goes to SRAM at `a`. -/
structure MovesTo (s : State) (c : Fin 16) (d : List Nat) (op n a : Nat) : Prop where
  there  : s.mov.chans.length = 16
  core   : s.domOn Dom.core = true
  run    : s.get (MOV.CSTAT.STATE.i c) = 2
  desc   : (s.movCh c).desc = some d
  op     : dOp d = op
  moving : (s.movCh c).moving = true
  status : (s.movCh c).status = none
  left   : (s.movCh c).moved < dTotal d
  dst    : beatDst (s.movCh c) d = a
  len    : n = min (8 - a % 8) (dLen d - (s.movCh c).moved % dLen d)
  lo     : 0x20000000 ≤ a
  hi     : a + n ≤ 0x20200000
  route  : s.route (moverOf c) a true = .mem a
  open_  : s.pwr.closing = 0
  bad    : s.ecc.bad = []
  fresh  : s.ecc.fresh = []

/-- A beat of `n` bytes has been moved to `a`, and nothing but the channel and its BYTES has changed otherwise. -/
def Beat (s : State) (c : Fin 16) (n a : Nat) (l : List Nat) (t : State) : Prop :=
  (t.movCh c).moved = (s.movCh c).moved + n ∧ t.octets a n = l ∧ (∀ j, (j < a ∨ a + n ≤ j) → t.byte j = s.byte j) ∧
    OnlyPages s t [0x25]

/-- The closing of a virtual interface (R293). -/
def ClosingStepsHold : Prop :=
  ∀ (s : State) (v : Fin 16), s.domOn Dom.mac = true → s.get (ten VIF.TENA0.STATE v) = 2 →
    (v.val ∉ s.vif.ticked → (v.val ∈ s.vif.due ∨ s.is CLK.CTRL.TICKEN = true) → Completes (.viCloseTick v) s fun t =>
      t.vif.ticked = v.val :: s.vif.ticked ∧ (∀ q ∈ t.shu.queues, q.vi ≠ v.val) ∧ (∀ x ∈ t.shu.done, x.1 ≠ v.val) ∧
        ∀ h < 32, s.get (PAT.SFCFG.VI.i h) = v.val → t.is (PAT.SFCFG.EN.i h) = false) ∧
    (v.val ∈ s.vif.ticked → Completes (.viCloseComplete v) s fun t =>
      t.get (ten VIF.TENA0.STATE v) = 0 ∧ t.is VIF.STICKY.CLOSED = true ∧ v.val ∉ t.vif.ticked ∧
        ∀ a, Base.fram + s.get (ten VIF.TENC0.FMBASE v) * 0x2000 ≤ a →
          a < Base.fram + (s.get (ten VIF.TENC0.FMBASE v) + s.get (ten VIF.TENC0.FMSIZE v)) * 0x2000 →
          t.byte a = (resetByte a).toNat)

/-- The entropy source and its pool (R370, R371). -/
def EntropySourceHold : Prop :=
  ∀ (s : State) (i : Initiator),
    (Opens s i SEC.ENTCTRL 0 true → Completes (.entropyRestart i) s fun t =>
      t.get SEC.ENTSTAT.STATE = 0 ∧ t.is SEC.STAT.MASKDEG = false ∧ t.sec.raw = 0 ∧ t.sec.fails = [] ∧ SameStore s t) ∧
    (s.domOn Dom.core = true → s.get SEC.ENTSTAT.STATE = 0 → Completes .entropyStartupDone s fun t =>
      t.get SEC.ENTSTAT.STATE = 1 ∧ t.sec.raw = 1024 ∧ SameStore s t) ∧
    (s.domOn Dom.core = true → s.get SEC.ENTSTAT.STATE = 1 →
      (s.sec.pool.length ≤ 32 → Completes (.entropyBlock none) s fun t =>
        t.sec.raw = s.sec.raw + 512 ∧ t.sec.pool.length = min 32 (s.sec.pool.length + 4) ∧
          t.sec.pool.take s.sec.pool.length = s.sec.pool ∧ t.get SEC.ENTSTAT.AVAIL = t.sec.pool.length ∧ SameStore s t) ∧
      (∀ b : Fin 512, Completes (.entropyBlock (some b)) s fun t =>
        t.get SEC.ENTSTAT.FAILCNT = min (s.get SEC.ENTSTAT.FAILCNT + 1) 255 ∧ t.sec.raw = s.sec.raw + b.val + 1 ∧
          (2 ≤ (s.sec.fails.filter fun f => s.sec.raw + b.val + 1 < f + 65536).length →
            t.get SEC.ENTSTAT.STATE = 2 ∧ t.is SEC.STAT.MASKDEG = true ∧ t.is SEC.STICKY.ENTFAIL = true) ∧ SameStore s t)) ∧
    (∀ v : Fin 16, Opens s i SEC.RNG v false →
      (s.sec.pool = [] → Completes (.rngRead i v) s fun t =>
        t.is SEC.STICKY.RNGEMPTY = true ∧ t.answered i = 0 ∧ SameStore s t) ∧
      (∀ x l, s.sec.pool = x :: l → Completes (.rngRead i v) s fun t =>
        t.sec.pool = l ∧ t.answered i = x ∧ SameStore s t))

/-- The registers of a flash bank. -/
def ownSusp (b : Nat) : Fld := if b = 0 then FLC.OPSUSP.A else FLC.OPSUSP.B
def bankState (b : Nat) : Fld := if b = 0 then FLC.STAT.BSTATEA else FLC.STAT.BSTATEB

/-- The frames in a buffer of a lane. -/
def atBuffer (t : State) (lane buf : Nat) (p : RxFrame → Prop) : Prop :=
  ∀ x ∈ t.frm.frames, x.lane = lane → x.buf = buf → p x

/-- Some frame in a buffer of a lane. -/
def inBuffer (t : State) (lane buf : Nat) (p : RxFrame → Prop) : Prop :=
  ∃ x ∈ t.frm.frames, x.lane = lane ∧ x.buf = buf ∧ p x

/-- The VIs that accept a frame at its verdict point, as a mask (R167). -/
def acceptedBy (s : State) (f : RxFrame) : Nat :=
  (((List.range 16).filter fun v => s.viAccepts v f.mac (f.mac.badFc || f.mac.cut)).map (2 ^ ·)).sum

/-- GO of a software job, an erase and the hash unit (R362, R363, R368, R369, R372). -/
def CipherStartsHold : Prop :=
  ∀ (s : State) (i : Initiator) (v : Fin 16) (w : Word),
    (Opens s i (SEC.JCFG.copy v) v true → Opens s i (SEC.JCTRL.copy v) v true →
      ∀ x ∈ [(opCcmEnc, Instr.ccmEnc i v w), (opCcmDec, .ccmDec i v w), (opCtr, .ctr i v w), (opCmacGen, .cmacGen i v w),
        (opCmacVer, .cmacVer i v w), (opUnwrap, .unwrap i v w), (opWrap, .wrap i v w)],
      let u := Act.run (plainWrite (SEC.JCFG.copy v).key v (x.1 * 2 ^ 28 + w.toNat % 2 ^ 28)) s
      u.is (SEC.JSTAT.BUSY.copy v) = false →
      (u.jobRefused (u.jobOf v) = none → Completes x.2 s fun t =>
        t.is (SEC.JSTAT.BUSY.copy v) = true ∧ t.is (SEC.JSTAT.DONE.copy v) = false ∧
          (∃ j, t.sec.jobs = s.sec.jobs ++ [j] ∧ j = { u.jobOf v with secret := j.secret, status := j.status }) ∧
          SameStore s t) ∧
      (∀ st, u.jobRefused (u.jobOf v) = some st → Completes x.2 s fun t =>
        t.is (SEC.JSTAT.BUSY.copy v) = false ∧ t.is (SEC.JSTAT.DONE.copy v) = true ∧
          t.get (SEC.JSTAT.STATUS.copy v) = st % 256 ∧ t.sec.jobs = s.sec.jobs ∧ SameStore s t)) ∧
    (∀ n : Fin 64, Opens s i KEY.KCMD v true → s.key.keys.length = 64 → s.is KEY.KSTAT.BUSY = false →
      s.is DBG.STAT.ERASING = false →
      (s.keyFlag n 8 = false → (v.val = 0 ∨ s.get (KEY.KS.VI.i n) = v) → s.usesSlot true n = false →
        Completes (.erase i v n) s fun t => t.keyOf n = [] ∧ t.get (KEY.KS.STATE.i n) = 0 ∧ t.is KEY.STICKY.ERASED = true ∧
          (∀ k : Fin 64, k ≠ n → t.keyOf k = s.keyOf k) ∧ SameStore s t) ∧
      (s.keyFlag n 8 = true → Completes (.erase i v n) s fun t =>
        t.is KEY.STICKY.KREFUSED = true ∧ t.key = s.key ∧ t.get KEY.KSTAT.STATUS = Status.prot ∧ SameStore s t)) ∧
    (Opens s i SEC.HCTRL 0 true → s.is SEC.HSTAT.BUSY = false →
      (Completes (.hash i) s fun t => t.is SEC.HSTAT.BUSY = true ∧ SameStore s t ∧ t.sec.hash =
        some ⟨false, s.get SEC.HSRC.ADDR, s.get SEC.HLEN.LEN, s.get SEC.HKEY.ADDR, s.get SEC.HSIG.ADDR,
          s.tb + (s.get SEC.HLEN.LEN + 72) / 64⟩) ∧
      (Completes (.verify i) s fun t => t.is SEC.HSTAT.BUSY = true ∧ SameStore s t ∧ t.sec.hash =
        some ⟨true, s.get SEC.HSRC.ADDR, s.get SEC.HLEN.LEN, s.get SEC.HKEY.ADDR, s.get SEC.HSIG.ADDR, s.tb + 36000⟩)) ∧
    (∀ h, s.sec.hash = some h →
      (h.verify = false → Completes (.hashUnitDone false false) s fun t =>
        t.sec.hash = none ∧ t.is SEC.HSTAT.BUSY = false ∧ t.is SEC.STICKY.HDONE = true ∧ SameStore s t ∧
          ∀ k < 8, t.get (SEC.HASH.H.i k) =
            leNat (((sha256 (s.octets h.src h.len)).drop (4 * k)).take 4) % 2 ^ 32) ∧
      (h.verify = true → Completes (.hashUnitDone false false) s fun t =>
        t.sec.hash = none ∧ t.is SEC.HSTAT.BUSY = false ∧ t.is SEC.STICKY.HDONE = true ∧ SameStore s t ∧
          t.get SEC.HSTAT.STATUS =
            if ecdsaVerify (beNat s.digest) (s.octets h.sig 64) (s.octets h.key 64) then Status.ok else Status.authFail))

/-- The end of a software job: what each operation leaves, and ECC_UNCORR (R359, R362, R364, R365, R461). -/
def SoftwareJobEndsHold : Prop :=
  ∀ (s : State) (j : SoftJob), s.domOn Dom.core = true → s.sec.jobs = [j] → s.sec.frame = none → j.status = none → j.vi < 16 →
    let ended (st : Nat) (t : State) : Prop := t.sec.jobs = [] ∧ t.is (SEC.JSTAT.BUSY.copy j.vi) = false ∧
      t.is (SEC.JSTAT.DONE.copy j.vi) = true ∧ t.get (SEC.JSTAT.STATUS.copy j.vi) = st ∧ t.is SEC.STICKY.JDONE = true
    let wrote (l : List Nat) (t : State) : Prop := t.octets j.dst l.length = l.map (· % 256) ∧
      ∀ a, (a < j.dst ∨ j.dst + l.length ≤ a) → t.byte a = s.byte a
    let body := s.octets (j.src + j.alen) j.mlen
    let clear := ccmCrypt j.secret (j.iv.take 13) body
    (j.op = opCcmEnc → Completes (.softwareJobDone 0) s fun t => ended Status.ok t ∧
      wrote (clear ++ ccmTag j.secret (j.iv.take 13) (s.octets j.src j.alen) body j.mic) t) ∧
    (j.op = opCcmDec →
      (ccmTag j.secret (j.iv.take 13) (s.octets j.src j.alen) clear j.mic = s.octets (j.src + j.alen + j.mlen) j.mic →
        Completes (.softwareJobDone 0) s fun t => ended Status.ok t ∧ wrote clear t) ∧
      (ccmTag j.secret (j.iv.take 13) (s.octets j.src j.alen) clear j.mic ≠ s.octets (j.src + j.alen + j.mlen) j.mic →
        Completes (.softwareJobDone 0) s fun t => ended Status.micFail t ∧ SameStore s t)) ∧
    (j.op = opCtr → Completes (.softwareJobDone 0) s fun t => ended Status.ok t ∧
      wrote (ctrMode j.secret j.iv (s.octets j.src j.mlen)) t) ∧
    (j.op = opCmacGen → Completes (.softwareJobDone 0) s fun t => ended Status.ok t ∧ SameStore s t ∧
      ∀ k < 4, t.get ((SEC.JTAG.TAG.i k).copy j.vi) = leNat (((cmac j.secret (s.octets j.src j.mlen)).drop (4 * k)).take 4) % 2 ^ 32) ∧
    (j.op = opCmacVer → Completes (.softwareJobDone 0) s fun t => SameStore s t ∧
      ended (if cmac j.secret (s.octets j.src j.mlen) = j.tag then Status.ok else Status.micFail) t) ∧
    (j.op = opUnwrap → j.target < 64 → s.key.keys.length = 64 → s.sec.changes = [] → s.targetGone j = false →
      ∀ key, kwUnwrap j.secret (s.octets j.src j.mlen) = some key →
        Completes (.softwareJobDone 0) s fun t => ended Status.ok t ∧ t.keyOf j.target = key ∧ t.loaded j.target = true ∧
          SameStore s t) ∧
    (j.op = opWrap → Completes (.softwareJobDone 0) s fun t => ended Status.ok t ∧
      wrote (kwWrap j.secret (s.keyOf j.target)) t) ∧
    (Completes (.softwareJobDone 3) s fun t => ended Status.eccUncorr t ∧ SameStore s t)

/-- An initiator may write a block and GO, and the engine is free. -/
def Issues (s : State) (i : Initiator) : Prop :=
  s.is CMD.STAT.BUSY = false ∧ (∀ k : Fin 16, Opens s i (CMD.BLK.i k) 0 true) ∧ Opens s i CMD.GO 0 true

/-- A block passes steps 2 to 5 (R376). -/
def Proven (s : State) (b : List Nat) : Prop :=
  bitOf (s.authPerm (blkAuth b)) (blkId b - 1) = 1 ∧ s.ecc.bad = [] ∧
    (∃ k, s.authKey (blkAuth b) = some k ∧ (cmac k (b.take 56)).take 8 = blkTag b) ∧
    ∃ c, s.authCounter (blkAuth b) = some c ∧ c < blkCtr b

/-- A block passes steps 1 to 5 and is not slowed (R376, R380). -/
def Authentic (s : State) (b : List Nat) : Prop := blkOk b = true ∧ s.is CMD.STAT.SLOW = false ∧ Proven s b

/-- A command has ended with a status, and its authority's counter has the block's value (R376). -/
def Ended (t : State) (b : List Nat) (st : Nat) : Prop :=
  t.is CMD.RESULT.V = true ∧ t.get CMD.RESULT.STATUS = st ∧ t.get CMD.RESULT.ID = blkId b ∧ t.get CMD.RESULT.AUTH = blkAuth b ∧
    t.is CMD.STAT.BUSY = false ∧ t.is CMD.STICKY.DONE = true ∧ t.word (counterAt (blkAuth b)) = blkCtr b

/-- The critical commands: an authentic block has its effect; one with a reserved identifier, and one whose tag's blocks disagree
twice, end with their status (R260, R291, R359, R376 to R380, R499, R512, R592, R599). -/
def AuthenticCommandsHold : Prop :=
  ∀ (s : State) (i : Initiator) (blk : List Byte), Issues s i →
    (∀ b, b = blockOf idKeyload blk → Authentic s b → s.key.keys.length = 64 →
      ∀ act_ key, s.keyLoading (blkVi b) (blkAuth b) 0 (blkArg b) = (Status.ok, act_) →
        kwUnwrap (if (blkArg b).getD 4 0 = 0 then s.otp.root else s.keyOf ((blkArg b).getD 4 0 - 1))
          (((blkArg b).drop 8).take (if (blkArg b).getD 1 0 = 0 then 24 else 40)) = some key →
        s.usesSlot true ((blkArg b).getD 0 0) = false →
        Completes (.keyload i blk 0) s fun t => Ended t b Status.ok ∧ t.keyOf ((blkArg b).getD 0 0) = key) ∧
    (∀ b, b = (blockOf idTenancy blk).set 8 1 → Authentic s b → (s.tenancyChange (blkVi b) (blkArg b)).1 = Status.ok →
      Completes (.tenancyOpen i blk 0) s fun t => Ended t b Status.ok ∧ t.viOpen (blkVi b) = true) ∧
    (∀ b, b = (blockOf idTenancy blk).set 8 2 → Authentic s b → (s.tenancyChange (blkVi b) (blkArg b)).1 = Status.ok →
      Completes (.tenancyModify i blk 0) s fun t => Ended t b Status.ok ∧
        t.get (ten VIF.TENA0.PRIO (blkVi b)) = (blkArg b).getD 1 0) ∧
    (∀ b, b = (blockOf idTenancy blk).set 8 3 → Authentic s b → (s.tenancyChange (blkVi b) (blkArg b)).1 = Status.ok →
      Completes (.tenancyClose i blk 0) s fun t => Ended t b Status.ok ∧ t.get (ten VIF.TENA0.STATE (blkVi b)) = 2) ∧
    (∀ b, b = blockOf idDbgreopen blk → Authentic s b → s.reopenCheck (blkArg b) = none →
      Completes (.dbgreopen i blk 0) s fun t => t.dbg.ir = 1 ∧ t.dbg.breaks = [] ∧
        ∀ a, 0x28000000 ≤ a → a < 0x28004000 → t.byte a = (resetByte a).toNat) ∧
    (∀ b, b = blockOf idActivate blk → Authentic s b → (s.activation (blkArg b)).1 = Status.ok →
      Completes (.activate i blk 0) s fun t => Ended t b Status.ok ∧ t.activeBank = (blkArg b).getD 0 0) ∧
    (∀ x ∈ [(0, Instr.lampovrRelease i blk 0), (1, .lampovrOff i blk 0), (2, .lampovrLevel i blk 0)],
      ∀ b, b = (blockOf idLampovr blk).set 9 x.1 → Authentic s b → (s.lampOverride (blkArg b)).1 = Status.ok →
      Completes x.2 s fun t => Ended t b Status.ok ∧ t.is LMP.STICKY.OVR = true ∧
        (s.lmp.ch.length = 4 → ∀ n < 4, bitOf ((blkArg b).getD 0 0) n = 1 → (t.lamp n).ovr.isSome = (x.1 != 0))) ∧
    (∀ b, b = (blockOf idRefovr blk).set 8 1 → Authentic s b → (s.refOverride (blkArg b)).1 = Status.ok →
      Completes (.refovrSelect i blk 0) s fun t => Ended t b Status.ok ∧ t.is REF.STAT.HOLD = true) ∧
    (∀ b, b = (blockOf idRefovr blk).set 8 2 → Authentic s b → (s.refOverride (blkArg b)).1 = Status.ok →
      Completes (.refovrAuto i blk 0) s fun t => Ended t b Status.ok ∧ t.is REF.STAT.HOLD = false ∧
        t.is REF.STAT.BADA = false ∧ t.is REF.STAT.BADB = false) ∧
    (∀ b r, b = blockOf idRegtight blk → Authentic s b → tightening s (blkArg b) = (Status.ok, some r) →
      Completes (.regtight i blk 0) s fun t => Ended t b Status.ok ∧ t.otp.records = s.otp.records ++ [r]) ∧
    (∀ b, b = blockOf idCtrreset blk → Authentic s b → (counterReset (blkAuth b) (blkArg b)).1 = Status.ok →
      Completes (.ctrreset i blk 0) s fun t => Ended t b Status.ok ∧
        t.word (counterAt ((blkArg b).getD 0 0)) = leNat (((blkArg b).drop 1).take 4)) ∧
    (∀ id : BitVec 16, Completes (.commandReservedId i id blk) s fun t =>
      t.get CMD.RESULT.STATUS = Status.rsvdOp ∧ t.is CMD.STAT.BUSY = false ∧ SameStore s t)

/-- A slowed command starts at its time and goes on from step 2; one whose tag's blocks disagree twice ends with ECC_UNCORR
(R359, R376, R380). -/
def SlowedCommandHold : Prop :=
  ∀ s : State, s.is CMD.STAT.BUSY = true → s.cmd.slowTo ≠ 0 → s.cmd.slowTo < 2 ^ 64 →
    (∀ b, b = s.cmdBlock → Proven s b → blkId b = idCtrreset → (counterReset (blkAuth b) (blkArg b)).1 = Status.ok →
      Completes (.commandSlowStart 0) s fun t => Ended t b Status.ok ∧ t.cmd.slowTo = 0 ∧ t.tb = max s.tb s.cmd.slowTo ∧
        t.word (counterAt ((blkArg b).getD 0 0)) = leNat (((blkArg b).drop 1).take 4)) ∧
    (Completes (.commandSlowStart 2) s fun t =>
      t.get CMD.RESULT.STATUS = Status.eccUncorr ∧ t.is CMD.STAT.BUSY = false ∧ t.cmd.slowTo = 0 ∧
        t.tb = max s.tb s.cmd.slowTo ∧ SameStore s t) ∧
    (s.authKey (blkAuth s.cmdBlock) = none → Completes (.commandSlowStart 0) s fun t =>
      t.get CMD.RESULT.STATUS = Status.authFail ∧ t.is CMD.STICKY.AUTHFAIL = true ∧ t.is CMD.STAT.BUSY = false ∧
        SameStore s t)

/-- A host's word at an SRAM address that it may reach, outside its errors. -/
structure HostWordAt (s : State) (vi : Fin 16) (field a : Nat) (write : Bool) : Prop where
  core  : s.domOn Dom.core = true
  own   : s.hostRefused vi = false
  past  : hostPast vi field = false
  at_   : hostAddr vi (s.get HIF.SEG.VAL) field = a
  route : s.route (.host vi) a write = .mem a
  lo    : 0x20000000 ≤ a
  hi    : a + 4 ≤ 0x20200000
  align : a % 4 = 0
  open_ : s.pwr.closing = 0
  bad   : s.ecc.bad = []
  fresh : s.ecc.fresh = []

/-- A command of BOB.CMD is taken at once: the lockstep pair runs and no repair is in progress (R254, R341, R345). -/
structure TakesBob (s : State) (i : Initiator) (v : Fin 16) : Prop where
  pair    : s.shu.pair.stage = 0
  repairs : s.bob.repairs = []
  idle    : s.bobBusy v = false
  opens   : Opens s i BOB.CMD v true

/-- A context that a VI owns, with no descriptor queued for it. -/
structure OwnsCtx (s : State) (v n : Nat) : Prop where
  held  : s.ctxState n ≠ CtxState.free
  owner : s.cx n Cx.vi = v
  own   : (s.queue v 0 n).descs = []
  aq    : (s.queue v 1 0).descs = []

/-- The command of view `v` on context `n` has ended with a status (R254). -/
def BobEnds (t : State) (v n st : Nat) : Prop :=
  t.get (BOB.CMDSTAT.STATUS.copy v) = st ∧ t.get (BOB.CMDSTAT.CTX.copy v) = n

/-- Bytes outside context `n` are as they were. -/
def OnlyCtx (s t : State) (n : Nat) : Prop :=
  ∀ a, (a < ctxAddr n ∨ ctxAddr (n + 1) ≤ a) → t.byte a = s.byte a

/-- Upstream link loss with a reason: no cascade time, the reason logged, the time noted (R328). -/
def LinkIsLost (s t : State) (reason : Nat) : Prop :=
  t.is CLK.STAT.CASSYNC = false ∧ t.is CAS.STICKY.LOSS = true ∧ t.get CAS.LOSSLOG.REASON = reason ∧
    t.is CAS.LOSSLOG.V = true ∧ t.cas.lostAt = some s.tb ∧ SameStore s t

/-- The role, the link's enable, alignment and training, loss and the return to alignment (R37, R311 to R315, R328, R330). -/
def CascadeLinkHold : Prop :=
  ∀ (s : State) (i : Initiator) (w : Word),
    (Opens s i SYS.ROLE 0 true → s.locked SYS.ROLE.key = false → w.toNat % 4 ≠ 3 → (∀ h ∈ s.bob.handovers, 3 ≤ h.2) →
      Completes (.roleWrite i w) s fun t => t.get SYS.ROLE.VAL = w.toNat % 4 ∧
        (s.get SYS.ROLE.VAL ≠ w.toNat % 4 → w.toNat % 4 ≠ 2 → s.domOn Dom.mac = true → t.link = linkOff) ∧
        (s.get SYS.ROLE.VAL ≠ w.toNat % 4 → w.toNat % 4 = 0 → s.domOn Dom.lamp = true → ∀ n < 4,
          (s.lampState n = 1 ∨ s.lampState n = 2) → t.lampState n = 0) ∧ SameStore s t) ∧
    (Opens s i CAS.CTRL 0 true →
      (w.toNat.testBit 0 = true → s.get SYS.ROLE.VAL = 2 → s.link = linkOff → Completes (.linkEnable i w) s fun t =>
        t.link = linkAlign ∧ t.is CAS.CTRL.EN = true ∧ t.is CAS.STAT.MASTER = s.m0 ∧ SameStore s t) ∧
      (w.toNat.testBit 0 = false → Completes (.linkEnable i w) s fun t =>
        t.link = linkOff ∧ t.is CAS.CTRL.EN = false ∧ t.get CAS.STAT.MEMBER = 0 ∧ t.is CLK.STAT.CASSYNC = false ∧
          SameStore s t)) ∧
    (s.domOn Dom.mac = true →
      (∀ up : Fin 8, s.link = linkAlign → (s.m0 = true ∨ up.val < 7) → Completes (.linkAlignLock up) s fun t =>
        t.link = linkTrain ∧ (s.m0 = false → t.member = up + 1) ∧ t.cas = { s.cas with trainAt := s.tb } ∧ SameStore s t) ∧
      (s.link ≠ linkOff →
        (exec (.trainingMarker false) s = .next { s with cas := { s.cas with echoes := s.cas.echoes + 1 } }) ∧
        (s.m0 = true → Completes (.trainingMarker true) s fun t =>
          t.is CAS.STICKY.TWOMAST = true ∧ OnlyStuck s t [addrPage CAS.STICKY.TWOMAST.key])) ∧
      (∀ (rt : List Nat) (up : Int) (nmem : Fin 9),
        (s.m0 = true → linkTrain ≤ s.link → 2 ≤ nmem.val → Completes (.trainingDone rt up nmem) s fun t =>
          t.link = linkUp ∧ t.get CAS.STAT.NMEM = nmem ∧ SameStore s t) ∧
        (s.m0 = false → s.link = linkTrain → rt.length = 16 →
          (rt.foldl max 0 - rt.foldl min (rt.headD 0) ≤ 4000 → Completes (.trainingDone rt up nmem) s fun t =>
            t.link = linkUp ∧ t.getS CAS.HOPDLY.D = toS 16 (ofS 16 (roundInt ((rt.sum : Int) - 3840000) 125000)) ∧
              SameStore s t) ∧
          (4000 < rt.foldl max 0 - rt.foldl min (rt.headD 0) → Completes (.trainingDone rt up nmem) s fun t =>
            t.link = linkAlign ∧ t.is CAS.STICKY.TRAINFAIL = true ∧ SameStore s t))) ∧
      (s.link = linkTrain → Completes .trainingTimeout s fun t =>
        t.link = linkAlign ∧ t.is CAS.STICKY.TRAINFAIL = true ∧ SameStore s t) ∧
      (∀ (reason : Fin 3) (codes crcs : Nat), s.link ≠ linkOff → (∀ h ∈ s.bob.handovers, 3 ≤ h.2) →
        (Completes (.linkLoss reason codes crcs) s fun t =>
          t.get CAS.LINKERR.CODE = min (s.get CAS.LINKERR.CODE + codes) 0xFFFF ∧
            t.get CAS.LINKERR.CRC = min (s.get CAS.LINKERR.CRC + crcs) 0xFFFF) ∧
        (s.linkLive = true → s.m0 = false → (reason.val = 1 → s.get CAS.CFG.LOSSN ≤ crcs) →
          Completes (.linkLoss reason codes crcs) s fun t => LinkIsLost s t ([1, 2, 5].getD reason 1))) ∧
      (∀ nmem : Fin 9, s.m0 = true → s.link = linkUp → nmem.val < s.get CAS.STAT.NMEM →
        Completes (.downstreamLinkLoss nmem) s fun t => t.get CAS.STAT.NMEM = max 1 nmem.val ∧ SameStore s t) ∧
      (∀ at_, s.cas.lostAt = some at_ → s.is CAS.CTRL.AUTORT = true → s.link = linkUp → Completes .retrain s fun t =>
        t.link = linkAlign ∧ t.cas.lostAt = none ∧ SameStore s t))

/-- The common tick: the load record, which is sent before any other traffic that waits, and the marker (R316 to R319, R322). -/
def CascadeTimeHold : Prop :=
  ∀ s : State, s.domOn Dom.mac = true → s.linkLive = true →
    (s.m0 = true → s.is CLK.CTRL.TICKEN = true → Completes .loadRecordSend s fun t =>
      t.clk.record = some (s.get CLK.SLOTLEN.LEN, s.getS CLK.ADJPEND.ADJ, s.clk.asnCommit) ∧
        t.is CLK.STAT.CASSYNC = true ∧ SameStore s t ∧ ((∀ y ∈ s.cas.out, y.rank ≠ 0) →
          t.nextSend true = some (.load (s.get CLK.SLOTLEN.LEN) (s.getS CLK.ADJPEND.ADJ) s.clk.asnCommit))) ∧
    (∀ (tb next : BitVec 64) (asn : BitVec 40) (commit : Bool) (len : BitVec 16) (adj : Int) (on : Bool) (phase : Fin 64),
      s.m0 = false → (∀ h ∈ s.bob.handovers, 3 ≤ h.2) →
      (s.is CLK.STAT.CASSYNC = false → s.sec.frame = none →
        (∀ k < 128, s.is (DMD.LCFG.SCHED.i k) = false ∨ (s.laneState k = 0 ∧ (s.lane k).cell = none)) →
        Completes (.loadRecordApply tb next asn commit len adj on phase) s fun t =>
          t.clk.tb = tb.toNat ∧ t.clk.nextTick = next.toNat ∧ t.clk.asn = asn.toNat ∧ t.get CLK.SLOTLEN.LEN = len.toNat ∧
            t.is CLK.CTRL.TICKEN = on ∧ t.is CLK.STAT.CASSYNC = true ∧ t.is CAS.STICKY.TBSTEP = true ∧
            t.shu.cells = [] ∧ t.getS CAS.STEP.VAL =
              clampS (-2147483648) 2147483647 (((tb.toNat : Int) - s.tb) * 64 + (phase.val : Int)) ∧ t.mem = s.mem) ∧
      (s.is CLK.STAT.CASSYNC = true → commit = false → asn.toNat ≠ (s.clk.asn + 1) % 2 ^ 40 →
        Completes (.loadRecordApply tb next asn commit len adj on phase) s fun t => LinkIsLost s t 4) ∧
      (s.is CLK.STAT.CASSYNC = true → (commit = true ∨ asn.toNat = (s.clk.asn + 1) % 2 ^ 40) →
        Completes (.loadRecordApply tb next asn commit len adj on phase) s fun t =>
          t.clk.record = some (len.toNat, clampS (-1000) 1000 adj, if commit then some asn.toNat else none) ∧
            t.clk = { s.clk with record := t.clk.record } ∧
          t.is CLK.CTRL.TICKEN = on ∧ SameStore s t)) ∧
    (s.slaved = true → (∀ h ∈ s.bob.handovers, 3 ≤ h.2) →
      (∀ d : Int, -16 ≤ d → d ≤ 16 → exec (.tickMarkerCheck (some d)) s = .next s) ∧
      (∀ d : Int, (d < -16 ∨ 16 < d) → Completes (.tickMarkerCheck (some d)) s fun t => LinkIsLost s t 3) ∧
      (Completes (.tickMarkerCheck none) s fun t => LinkIsLost s t 3))

/-- Handovers, the records and answers that they put on the link, and the frames relayed for them (R249 to R253, R323 to R325). -/
def CascadeHandoversHold : Prop :=
  ∀ (s : State) (n : Fin 4096), s.domOn Dom.mac = true →
    (s.linkLive = true →
      (s.handoverStage n = some 0 → s.clk.asn + 1 = s.migSlot n → Completes (.handoverRecordSend n) s fun t =>
        t.handoverStage n = some 1 ∧ t.regs = s.regs ∧ SameStore s t ∧
          LinkSend.record (s.cx n Cx.migDst) n ((List.range 32).map fun k => s.word (ctxAddr n + 4 * k)) ∈ t.cas.out) ∧
      (∀ words : List Word, words.length = 32 →
        let l := words.map (·.toNat)
        let v := wordField l Cx.vi
        let eui := wordField l Cx.euiHi * 2 ^ 32 + wordField l Cx.euiLo
        (s.ctxFree = none → Completes (.handoverRecordReceive words) s fun t => t.cas.reply = some false ∧
          LinkSend.answer (wordField l Cx.ownMem) false ∈ t.cas.out ∧ t = { s with cas := t.cas }) ∧
        (∀ k, s.ctxFree = some k → s.viOpen v = true → s.ctxUse v < s.get (ten VIF.TENB0.CTXQ v) →
          (wordField l Cx.ksv = 0 ∨ s.ownsKey v (wordField l Cx.keySlot) = true) →
          s.extTaken v eui = false → s.shortTaken none v (wordField l Cx.pan) (wordField l Cx.short) = false →
          (eui ≠ 0 → (placeKey s.bob.hashKey (extKey v eui) s.bob.extKeys).isSome = true) →
          (wordField l Cx.short < 0xFFFE →
            (placeKey s.bob.hashKey (shortKey v (wordField l Cx.pan) (wordField l Cx.short)) s.bob.shortKeys).isSome = true) →
          Completes (.handoverRecordReceive words) s fun t =>
            t.cas.reply = some true ∧ LinkSend.answer (wordField l Cx.ownMem) true ∈ t.cas.out ∧ t.regs = s.regs ∧
              SameStore s t ∧ t.bob.incoming = s.bob.incoming ++
              [(k, wordField l Cx.migHh * 2 ^ 32 + wordField l Cx.migH, l)])) ∧
      (s.handoverStage n = some 1 →
        (Completes (.handoverAcceptReceive n true) s fun t =>
          t.handoverStage n = some 2 ∧ t.regs = s.regs ∧ SameStore s t) ∧
        (Completes (.handoverAcceptReceive n false) s fun t =>
          t.handoverStage n = none ∧ t.is CAS.STICKY.HOREFUSED = true ∧ t.get CAS.HOLOG.REASON = 1 ∧
            t.get CAS.HOLOG.CTX = n ∧ SameStore s t)) ∧
      (∀ rxfc : Word, s.bob.seen.any (·.ctx == n.val) = true → Completes (.closeRecord n rxfc) s fun t =>
        t.bob.closes = s.bob.closes.filter (·.1 != n.val) ++ [(n.val, rxfc.toNat)] ∧ t = { s with bob := t.bob }) ∧
      (∀ (octets : List Byte) (tb : BitVec 64) (fine : Fin 64) (asn : BitVec 40) (lane : Fin 8 × Fin 128) (port : Fin 2)
        (vi : Fin 16) (mode : Fin 16) (chan : Fin 2048) (plan : Fin 4) (fcs2 : Bool) (rssi : Int) (lqi : Byte) (fo : Int)
        (gen : BitVec 16) (k : Nat),
        let l := s.relayLane lane.2
        let f := RelayFrame.arrived ⟨octets.map (·.toNat), tb.toNat, fine, asn.toNat, lane.2, port, vi, mode, chan, plan, fcs2,
          rssi, lqi.toNat, fo, lane.1⟩ l
        (∀ x ∈ s.frm.frames, x.lane ≠ l) → k < 4096 → f.mac.kind ≠ 2 → (f.mac.badFc || f.mac.cut) = false → f.malformed = false →
        s.viAccepts vi f.mac false = true → f.mac.sm = 3 → f.mac.src = some (s.ctxEui k) →
        s.findExt vi (s.ctxEui k) = some k → s.ctxState k = CtxState.active →
          (s.cx k Cx.gen = gen.toNat → f.mac.sec = false →
            Completes (.relayedFrame octets tb fine asn lane port vi mode chan plan fcs2 rssi lqi fo gen) s fun t =>
              t.cx k Cx.lastAsn = asn.toNat % 2 ^ 32 ∧ t.cx k Cx.rxFrames = min (s.cx k Cx.rxFrames + 1) (2 ^ 32 - 1) ∧
                t.cx k Cx.offset = s.cx k Cx.offset ∧ OnlyCtx s t k ∧
                atBuffer t l 0 fun x => x.stage = 3 ∧ x.status = Status.ok ∧ x.plain = f.octets ∧ x.ackRequired = false) ∧
          (s.cx k Cx.gen ≠ gen.toNat →
            Completes (.relayedFrame octets tb fine asn lane port vi mode chan plan fcs2 rssi lqi fo gen) s fun t =>
              t.is BOB.STICKY.STALEGEN = true ∧ (∀ x ∈ t.frm.frames, x.lane ≠ l) ∧ t.mem = s.mem))) ∧
    ((∀ x ∈ s.bob.incoming, x.1 ≠ n.val) →
      (s.handoverStage n = some 2 → s.migSlot n ≤ s.clk.asn → ctxLive (s.ctxState n) = true →
        Completes (.handoverSlotH n) s fun t =>
          t.ctxState n = CtxState.migrating ∧ t.handoverStage n = some 3 ∧ OnlyCtx s t n) ∧
      (∀ st, s.handoverStage n = some st → st < 2 → s.migSlot n ≤ s.clk.asn → Completes (.handoverSlotH n) s fun t =>
        t.ctxState n = s.ctxState n ∧ t.handoverStage n = none ∧ t.is CAS.STICKY.HOREFUSED = true ∧
          t.get CAS.HOLOG.REASON = 2 ∧ SameStore s t)) ∧
    (∀ x, s.bob.incoming.find? (·.1 == n.val) = some x → x.2.1 ≤ s.clk.asn → s.handoverStage n = none →
      Completes (.handoverSlotH n) s fun t =>
        t.ctxState n = wordField x.2.2 Cx.state ∧ t.cx n Cx.gen = (wordField x.2.2 Cx.gen + 1) % 65536 ∧
          t.cx n Cx.ownMem = s.member ∧ t.cx n Cx.learnt = 0 ∧ t.cx n Cx.pending = 0 ∧
          t.cx n Cx.txfc = min (wordField x.2.2 Cx.txfc + 16) 0xFFFFFFFF ∧ OnlyCtx s t n) ∧
    (s.ctxState n = CtxState.migrating → s.migSlot n + 2 ≤ s.clk.asn → OwnsCtx s (s.cx n Cx.vi) n → s.frm.frames = [] →
      Completes (.migrationEnd n) s fun t =>
        (∀ a, ctxAddr n ≤ a → a < ctxAddr (n + 1) → t.byte a = 0) ∧ t.handoverStage n = none ∧ OnlyCtx s t n ∧
          (s.linkLive = true → LinkSend.close (s.cx n Cx.migDst) n (s.cx n Cx.rxfc) ∈ t.cas.out)) ∧
    (∀ p c, s.bob.seen.find? (·.ctx == n.val) = some p → (s.bob.closes.find? (·.1 == n.val)) = some (n.val, c) →
      c < 2 ^ 32 → (∀ x ∈ p.base.toList ++ p.got, x < 2 ^ 32) → s.migSlot n + 2 ≤ s.clk.asn → Completes (.rxfcReconcile n) s fun t =>
        t.cx n Cx.rxfc =
          ((if s.cx n Cx.rxfcv = 1 then [s.cx n Cx.rxfc] else []) ++ p.base.toList ++ p.got ++ [c]).foldl max 0 ∧
          t.cx n Cx.rxfcv = 1 ∧ (∀ x ∈ t.bob.seen, x.ctx ≠ n.val) ∧ OnlyCtx s t n)

/-- Remote accesses and forwarded interrupt levels (R326, R327). -/
def CascadeRemoteHold : Prop :=
  ∀ (s : State) (i : Initiator),
    (∀ (m : Fin 8) (addr : Word) (words : Fin 16), Opens s i CAS.RADDR 0 true → Opens s i CAS.RCTRL 0 true →
      s.is CAS.RSTAT.BUSY = false →
      ∀ x ∈ [(0, Instr.remoteRead i m addr words), (1, Instr.remoteWrite i m addr words)],
      (s.linkLive = true → m.val ≠ s.member → Completes x.2 s fun t =>
        t.is CAS.RSTAT.BUSY = true ∧ t.is CAS.RCTRL.GO = true ∧ t.get CAS.RCTRL.WR = x.1 ∧
          t.get CAS.RCTRL.MEMBER = m ∧ t.get CAS.RCTRL.WORDS = words ∧ t.get CAS.RADDR.ADDR = addr.toNat ∧
          LinkSend.remote m addr.toNat (words + 1) (x.1 == 1) ∈ t.cas.out ∧ SameStore s t) ∧
      (s.linkLive = true → m.val = s.member → Completes x.2 s fun t =>
        t.is CAS.RSTAT.BUSY = false ∧ t.get CAS.RSTAT.RESULT = 2 ∧ SameStore s t) ∧
      (s.linkLive = false → Completes x.2 s fun t =>
        t.is CAS.RSTAT.BUSY = false ∧ t.get CAS.RSTAT.RESULT = 1 ∧ SameStore s t)) ∧
    (∀ (r : Fin 4) (words : List Word), s.domOn Dom.mac = true → s.is CAS.RSTAT.BUSY = true →
      Completes (.remoteAccessDone r words) s fun t =>
        t.is CAS.RSTAT.BUSY = false ∧ t.is CAS.RCTRL.GO = false ∧ t.get CAS.RSTAT.RESULT = r ∧
          (r.val = 0 → s.is CAS.RCTRL.WR = false → ∀ k ≤ s.get CAS.RCTRL.WORDS,
            t.get (CAS.RBUF.W.i k) = (words.getD k 0).toNat) ∧ SameStore s t) ∧
    (∀ (k : Fin 8) (level : Bool), s.domOn Dom.mac = true → s.m0 = true → s.linkLive = true → k.val ≠ 0 →
      Completes (.memberIrqLevel k level) s fun t =>
        t.is (CAS.MIRQ.M.bit (k - 1)) = level ∧
          (level = true → s.is (CAS.MIRQ.M.bit (k - 1)) = false → t.is CAS.STICKY.MIRQ = true) ∧ SameStore s t)

/-- A channel has taken a fault: FAULT, or LOCKOUT where its retries were used up, with the log, the DIAG of a channel that is
not ON, and the sticky bit (R489, R491 to R493). -/
def LampFaulted (s t : State) (n kind : Nat) : Prop :=
  t.lampState n = (if kind ≠ 5 ∧ s.get LMP.RETRYMAX.N ≤ s.get (LMP.CHSTAT.RETRIES.i n) then 4 else 3) ∧
    t.get (LMP.FLOG.KIND.i n) = kind ∧ t.is (LMP.FLOG.V.i n) = true ∧ t.get (LMP.CHSTAT.DIAG.i n) = 0 ∧
    t.get (LMP.FLOGTB.TB.i n) = t.tb % 2 ^ 32 ∧ t.is (lampSticky kind) = true ∧ SameStore s t

/-- An interval's end and the reads of its figures and of the energy (R502 to R505). -/
def MeterIntervalsHold : Prop :=
  ∀ (s : State) (i : Initiator),
    (∀ (samples : List (Int × Int)) (full : Bool), s.is MTR.CTRL.EN = true → s.domOn Dom.mtr = true → s.get MTR.PHCAL.D = 0 →
      let v := samples.map fun p => corrected p.1 (s.getS MTR.OFFS.VOFS) (s.get MTR.VGAIN.G)
      let a := samples.map fun p => corrected p.2 (s.getS MTR.OFFS.IOFS) (s.get MTR.IGAIN.G)
      let mean (l : List Int) : Int := l.foldl (· + ·) 0 / (max 1 samples.length : Nat)
      let power := mean (v.zipWith (fun x y => x * y) a) / 100000
      ∀ x ∈ [(false, Instr.meterIntervalEnd samples full), (true, .meterNozcTimeout samples full)],
      Completes x.2 s fun t =>
        t.get MTR.VRMS.MV = isqrt (mean (v.map fun x => x * x)).toNat % 2 ^ 24 ∧
        t.get MTR.IRMS.MA = isqrt (mean (a.map fun x => x * x)).toNat % 2 ^ 24 ∧
        t.getS MTR.P.W = toS 32 (ofS 32 power) ∧
        t.get MTR.FREQ.MHZ = (if x.1 then 0 else s.get MTR.CFG.NCYC * 8000000 / max 1 samples.length) % 2 ^ 16 ∧
        t.get MTR.RSTAT.CNT = (s.get MTR.RSTAT.CNT + 1) % 256 ∧ t.is MTR.RSTAT.NOZC = x.1 ∧ t.is MTR.RSTAT.V = true ∧
        t.is MTR.RSTAT.SAT = (full || s.mtr.sat) ∧ t.is MTR.RSTAT.REFSW = s.mtr.refsw ∧ t.is MTR.STICKY.RDY = true ∧
        (s.get MTR.CFG.NOLOAD ≤ power.natAbs → 0 < power → t.get MTR.EACC.WH = min (s.get MTR.EACC.WH +
          (s.mtr.forward + power.natAbs * samples.length) / whUnit) 0xFFFFFF ∧ t.get MTR.EREV.WH = s.get MTR.EREV.WH) ∧
        (power.natAbs < s.get MTR.CFG.NOLOAD → t.get MTR.EACC.WH = s.get MTR.EACC.WH ∧
          t.get MTR.EREV.WH = s.get MTR.EREV.WH) ∧ SameStore s t) ∧
    (Opens s i MTR.RSTAT.V 0 false → Completes (.rstatRead i) s fun t =>
      t.answered i = (s.reg MTR.RSTAT.V.key).toNat ∧ t.is MTR.RSTAT.V = false ∧
        (∀ f ∈ [MTR.VRMS.MV, MTR.IRMS.MA, MTR.P.W, MTR.FREQ.MHZ], t.get (f.copy (iniCopy i)) = s.get f) ∧ SameStore s t) ∧
    (∀ rev : Bool, let f := if rev then MTR.EREV.WH else MTR.EACC.WH
      Opens s i f 0 false → Completes (.energyRead i rev) s fun t =>
        t.answered i = s.get f ∧ t.get f = 0 ∧ t.mtr = s.mtr ∧ SameStore s t)

/-- The comparison of the references and the switchover (R507 to R509). -/
def ReferencesHold : Prop :=
  ∀ s : State, s.domOn Dom.mtr = true →
    (∀ a b c : Int,
      let dab := a - b
      let dac := a - c - s.getS REF.CTRIM.T
      let dbc := b - c - s.getS REF.CTRIM.T
      let cth := s.get REF.CFG.CTH * 10
      (s.ref.done = some s.compareDue → exec (.refCompare a b c) s = .next s) ∧
      (s.ref.done ≠ some s.compareDue →
      (Completes (.refCompare a b c) s fun t => t.ref.done = some s.compareDue ∧ t.getS REF.DAB.D = toS 16 (ofS 16 dab) ∧
        t.getS REF.DAC.D = toS 16 (ofS 16 dac) ∧ t.getS REF.DBC.D = toS 16 (ofS 16 dbc) ∧ SameStore s t) ∧
      (s.is REF.STAT.BADA = false → s.is REF.STAT.BADB = false →
        (dab.natAbs ≤ s.get REF.CFG.DRIFTTH → Completes (.refCompare a b c) s fun t => t.get REF.STAT.DCNT = 0) ∧
        (s.get REF.CFG.DRIFTTH < dab.natAbs → s.get REF.STAT.DCNT + 1 < s.get REF.CFG.DRIFTN →
          Completes (.refCompare a b c) s fun t =>
            t.get REF.STAT.DCNT = s.get REF.STAT.DCNT + 1 ∧ t.ref.due = s.ref.due ∧ t.get REF.STAT.SEL = s.get REF.STAT.SEL) ∧
        (s.get REF.CFG.DRIFTTH < dab.natAbs → s.get REF.CFG.DRIFTN ≤ s.get REF.STAT.DCNT + 1 →
          s.is REF.STAT.CSUSPECT = false →
          (cth < dac.natAbs → dbc.natAbs ≤ cth → Completes (.refCompare a b c) s fun t =>
            t.is REF.STAT.BADA = true ∧ t.is REF.STAT.BADB = false ∧ t.is REF.STICKY.DRIFT = true ∧
              t.get REF.STAT.DCNT = 0 ∧ (s.is REF.STAT.SEL = false → s.is REF.STAT.HOLD = false →
                ∃ d, t.ref.due = some d ∧ d.sel = 1 ∧ d.cause = 1)) ∧
          (dac.natAbs ≤ cth → cth < dbc.natAbs → Completes (.refCompare a b c) s fun t =>
            t.is REF.STAT.BADA = false ∧ t.is REF.STAT.BADB = true ∧ t.is REF.STICKY.DRIFT = true ∧
              t.get REF.STAT.DCNT = 0 ∧ (s.is REF.STAT.SEL = true → s.is REF.STAT.HOLD = false →
                ∃ d, t.ref.due = some d ∧ d.sel = 0 ∧ d.cause = 1)) ∧
          (cth < dac.natAbs → cth < dbc.natAbs → Completes (.refCompare a b c) s fun t =>
            t.is REF.STICKY.UNRESOLVED = true ∧ t.is REF.STAT.BADA = false ∧ t.is REF.STAT.BADB = false ∧
              t.ref.due = s.ref.due))))) ∧
    (∀ d, s.ref.due = some d → Completes .refSwitchover s fun t =>
      t.get REF.STAT.SEL = d.sel % 2 ∧ t.ref.due = none ∧ t.get REF.SWLOG.SEL = d.sel % 2 ∧ t.get REF.SWLOG.CAUSE = d.cause % 4 ∧
        t.is REF.SWLOG.V = true ∧ t.is REF.STICKY.REFSW = true ∧ t.mtr.refsw = true ∧ SameStore s t)

/-- The backup gauge: charge counted, written and re-anchored (R513, R515, R516); a write of the charge held does nothing (R626). -/
def BackupGaugeHold : Prop :=
  ∀ (s : State) (i : Initiator),
    (s.domOn Dom.mtr = true → s.is GAU.CTRL.EN = true → ∀ x : Int,
      let total : Int := (s.get GAU.CHG.UAH * 36000 + s.gau.frac : Nat) + x
      (0 ≤ total → Completes (.gaugeChargeCount [x]) s fun t =>
        t.get GAU.CHG.UAH = total.toNat / 36000 % 2 ^ 32 ∧ t.gau.frac = total.toNat % 36000 ∧
          t.getS GAU.I.MA = toS 32 (ofS 32 x) ∧ SameStore s t) ∧
      (total < 0 → Completes (.gaugeChargeCount [x]) s fun t =>
        t.get GAU.CHG.UAH = 0 ∧ t.gau.frac = 0 ∧ t.is GAU.STAT.HOLD0 = true ∧ t.is GAU.STICKY.DISAGREE = true ∧
          SameStore s t)) ∧
    (∀ w : Word, Opens s i GAU.CHG.UAH 0 true →
      (w.toNat ≤ s.get GAU.CFG.CAP * 1000 → w.toNat = s.get GAU.CHG.UAH → exec (.chgWrite i w) s = .next s) ∧
      (w.toNat ≤ s.get GAU.CFG.CAP * 1000 → w.toNat ≠ s.get GAU.CHG.UAH → Completes (.chgWrite i w) s fun t =>
        t.get GAU.CHG.UAH = w.toNat ∧ t.is GAU.STAT.ANCH = true ∧ t.gau.frac = 0 ∧
          t.get GAU.SOC.VAL = w.toNat / max 1 (s.get GAU.CFG.CAP) ∧ SameStore s t) ∧
      (s.get GAU.CFG.CAP * 1000 < w.toNat → Completes (.chgWrite i w) s fun t =>
        t.is GAU.STICKY.RSVD = true ∧ OnlyStuck s t [addrPage GAU.STICKY.RSVD.key])) ∧
    (s.domOn Dom.mtr = true → ∀ mv : Nat,
      (s.get GAU.REST.RESTMIN ≤ s.get GAU.RESTT.MIN → Completes (.gaugeReanchor mv) s fun t =>
        t.get GAU.V.MV = mv % 2 ^ 16 ∧ t.get GAU.CHG.UAH = s.socOf mv * s.get GAU.CFG.CAP ∧
          t.is GAU.STAT.ANCH = true ∧ t.is GAU.STICKY.ANCHOR = true ∧ t.get GAU.RESTT.MIN = 0 ∧ SameStore s t) ∧
      (s.get GAU.RESTT.MIN < s.get GAU.REST.RESTMIN → Completes (.gaugeReanchor mv) s fun t =>
        t.get GAU.V.MV = mv % 2 ^ 16 ∧ t.get GAU.CHG.UAH = s.get GAU.CHG.UAH ∧ t.gau = s.gau ∧ SameStore s t))

/-- A push onto eight register entries stores the deepest below the pointer and moves the pointer there (R387). -/
def PushSpillsHold : Prop :=
  ∀ (s : State) (c : Fin 2) (x d : Nat) (v : BitVec 12) (l : List Nat), Runs s c false → l.length = 7 →
    ((s.core c).ds = l ++ [d] → (s.core c).dslim + 4 ≤ (s.core c).dsp → Reaches s c ((s.core c).dsp - 4) 4 true →
      exec (.pushs c v) s = .next (withCore (Act.run (setWord ((s.core c).dsp - 4) d) s) c
        { advanced s c 2 with ds := wrapS v.toInt :: l, dsp := (s.core c).dsp - 4 })) ∧
    ((s.core c).ds = [x] → (s.core c).rs = l ++ [d] → (s.core c).rslim + 4 ≤ (s.core c).rsp →
      Reaches s c ((s.core c).rsp - 4) 4 true →
      exec (.toR c) s = .next (withCore (Act.run (setWord ((s.core c).rsp - 4) d) s) c
        { advanced s c 2 with ds := [], rs := x :: l, rsp := (s.core c).rsp - 4 }))

/-- A pop with no entry in registers takes the word at the pointer and moves the pointer past it (R386). -/
def PopFillsHold : Prop :=
  ∀ (s : State) (c : Fin 2), Runs s c false →
    ((s.core c).ds = [] → (s.core c).dsp < (s.core c).dsbase → Reaches s c (s.core c).dsp 4 false →
      LeavesCore (.aset c 0) s c
        { advanced s c 2 with dsp := (s.core c).dsp + 4, a := (s.core c).a.set 0 (s.word (s.core c).dsp) }) ∧
    ((s.core c).rs = [] → (s.core c).rsp < (s.core c).rsbase → Reaches s c (s.core c).rsp 4 false →
      LeavesCore (.ret c) s c
        { advanced s c 2 with rsp := (s.core c).rsp + 4, pc := s.word (s.core c).rsp / 2 * 2 })

/-- The additions and subtractions: the 32-bit result, and N, Z, V and C (R410, R412). -/
def AddSubtractHold : Prop :=
  ∀ (s : State) (c : Fin 2) (a b : Nat) (l : List Nat), Runs s c false → l.length ≤ 6 → a < 2 ^ 32 → b < 2 ^ 32 →
    let k := bitOf (s.core c).status 0
    let add (m n i : Nat) (i32 : Int) := ((m + n + i) % 2 ^ 32, !fits (toS 32 m + i32 + i), decide (2 ^ 32 ≤ m + n + i))
    let sub (m n i : Nat) := (wrapS ((m : Int) - n - i), !fits (toS 32 m - toS 32 n - i), decide (m < n + i))
    ((s.core c).ds = b :: a :: l →
      (let r := add a b 0 (toS 32 b); Leaves (.add c) s c 2 (r.1 :: l) (isNeg r.1) (r.1 == 0) r.2.1 r.2.2) ∧
      (let r := add a b k (toS 32 b); Leaves (.adc c) s c 2 (r.1 :: l) (isNeg r.1) (r.1 == 0) r.2.1 r.2.2) ∧
      (let r := sub a b 0; Leaves (.sub c) s c 2 (r.1 :: l) (isNeg r.1) (r.1 == 0) r.2.1 r.2.2) ∧
      (let r := sub a b k; Leaves (.sbc c) s c 2 (r.1 :: l) (isNeg r.1) (r.1 == 0) r.2.1 r.2.2) ∧
      (let r := sub a b 0; Leaves (.cmp c) s c 2 l (isNeg r.1) (r.1 == 0) r.2.1 r.2.2)) ∧
    ((s.core c).ds = a :: l →
      (let r := sub 0 a 0; Leaves (.neg c) s c 2 (r.1 :: l) (isNeg r.1) (r.1 == 0) r.2.1 r.2.2) ∧
      (let r := (toS 32 a).natAbs % 2 ^ 32
       Leaves (.abs c) s c 2 (r :: l) (isNeg r) (r == 0) (a == 2 ^ 31) none) ∧
      Leaves (.tst c) s c 2 (a :: l) (isNeg a) (a == 0) false none ∧
      (∀ x : BitVec 12, let r := add a (wrapS x.toInt) 0 x.toInt
       Leaves (.addi c x) s c 2 (r.1 :: l) (isNeg r.1) (r.1 == 0) r.2.1 r.2.2))

/-- The products: 32 bits with V, 64 bits as low and high word, and the saturating Q31 product (R412). -/
def ProductsHold : Prop :=
  ∀ (s : State) (c : Fin 2) (a b : Nat) (l : List Nat), Runs s c false → l.length ≤ 6 → a < 2 ^ 32 → b < 2 ^ 32 →
    (s.core c).ds = b :: a :: l →
    (let r := a * b % 2 ^ 32
     Leaves (.mul c) s c 2 (r :: l) (isNeg r) (r == 0) (!fits (toS 32 a * toS 32 b)) none) ∧
    (let p := ofS 64 (toS 32 a * toS 32 b)
     Leaves (.mull c) s c 2 (p / 2 ^ 32 :: p % 2 ^ 32 :: l) (2 ^ 63 ≤ p : Bool) (p == 0) false none) ∧
    (let p := a * b
     Leaves (.mulu c) s c 2 (p / 2 ^ 32 :: p % 2 ^ 32 :: l) (2 ^ 63 ≤ p : Bool) (p == 0) false none) ∧
    (let q := toS 32 a * toS 32 b / 2 ^ 31
     let r := if fits q then wrapS q else 0x7FFFFFFF
     Leaves (.mulq c) s c 2 (r :: l) (isNeg r) (r == 0) (!fits q) none)

/-- The quotients and remainders of a divisor that is not 0; a divisor of 0 is the exception DIVZ (R392, R412). -/
def DivisionHold : Prop :=
  ∀ (s : State) (c : Fin 2) (a b : Nat) (l : List Nat), Runs s c false → l.length ≤ 6 → a < 2 ^ 32 → b < 2 ^ 32 →
    (s.core c).ds = b :: a :: l →
    (b ≠ 0 →
      (let q := (toS 32 a).tdiv (toS 32 b)
       let r := wrapS q
       Leaves (.div c) s c 2 (r :: l) (isNeg r) (r == 0) (!fits q) none) ∧
      (let r := wrapS ((toS 32 a).tmod (toS 32 b))
       Leaves (.mod c) s c 2 (r :: l) (isNeg r) (r == 0) false none) ∧
      Leaves (.divu c) s c 2 (a / b :: l) (isNeg (a / b)) (a / b == 0) false none ∧
      Leaves (.modu c) s c 2 (a % b :: l) (isNeg (a % b)) (a % b == 0) false none) ∧
    (b = 0 → VectorReadable s c 8 →
      TakesException (.div c) s c 8 0 0 0 0 ∧ TakesException (.divu c) s c 8 0 0 0 0 ∧
      TakesException (.mod c) s c 8 0 0 0 0 ∧ TakesException (.modu c) s c 8 0 0 0 0)

/-- Logic, shifts, byte order and packed halves (R413). -/
def LogicAndShiftsHold : Prop :=
  ∀ (s : State) (c : Fin 2) (a b : Nat) (l : List Nat), Runs s c false → l.length ≤ 6 → a < 2 ^ 32 → b < 2 ^ 32 →
    let logic (i : Instr) (r : Nat) := Leaves i s c 2 (r :: l) (isNeg r) (r == 0) false none
    let n := min (b % 256) 32
    let shift (i : Instr) (r k : Nat) (last : Bool) :=
      Leaves i s c 2 (r :: l) (isNeg r) (r == 0) false (if k = 0 then none else some last)
    ((s.core c).ds = b :: a :: l →
      logic (.and c) (a &&& b) ∧ logic (.or c) (a ||| b) ∧ logic (.xor c) (a ^^^ b) ∧
      shift (.shl c) (a * 2 ^ n % 2 ^ 32) n (a.testBit (32 - n)) ∧
      shift (.shr c) (a / 2 ^ n) n (a.testBit (n - 1)) ∧
      shift (.sar c) (wrapS (toS 32 a / 2 ^ n)) n (a.testBit (n - 1)) ∧
      (let k := b % 32
       let r := ((BitVec.ofNat 32 a).rotateRight k).toNat
       shift (.ror c) r k (r.testBit 31)) ∧
      (let h (f : Int → Int → Int) (j : Nat) := ofS 16 (f (toS 16 (a / 2 ^ j)) (toS 16 (b / 2 ^ j)) / 2)
       Leaves (.addh2 c) s c 2 ((h (· + ·) 0 + h (· + ·) 16 * 2 ^ 16) :: l) none none none none ∧
       Leaves (.subh2 c) s c 2 ((h (· - ·) 0 + h (· - ·) 16 * 2 ^ 16) :: l) none none none none)) ∧
    ((s.core c).ds = a :: l →
      logic (.not c) (2 ^ 32 - 1 - a) ∧
      logic (.clz c) (if a = 0 then 32 else 31 - a.log2) ∧
      logic (.sextb c) (wrapS (toS 8 a)) ∧ logic (.sexth c) (wrapS (toS 16 a)) ∧
      Leaves (.bswap c) s c 2
        ((a % 2 ^ 8 * 2 ^ 24 + a / 2 ^ 8 % 2 ^ 8 * 2 ^ 16 + a / 2 ^ 16 % 2 ^ 8 * 2 ^ 8 + a / 2 ^ 24) :: l) none none none none)

/-- The decimal instructions on packed words of good digits, and the carry's two (R414, R415): the sum and the difference
modulo 10^8 with their carry, and the conversions. -/
def DecimalHold : Prop :=
  ∀ (s : State) (c : Fin 2) (u v : Nat) (l : List Nat), Runs s c false → l.length ≤ 6 → u < 10 ^ 8 → v < 10 ^ 8 →
    let k := bitOf (s.core c).status 0
    ((s.core c).ds = packed v :: packed u :: l →
      (let r := (u + v + k) % 10 ^ 8
       Leaves (.dadc c) s c 2 (packed r :: l) false (r == 0) false (decide (10 ^ 8 ≤ u + v + k))) ∧
      (let r := (u + 10 ^ 8 - v - k) % 10 ^ 8
       Leaves (.dsbc c) s c 2 (packed r :: l) false (r == 0) false (decide (u < v + k)))) ∧
    ((s.core c).ds = packed u :: l →
      Leaves (.daj c) s c 2 (packed u :: l) false (u == 0) none false ∧
      Leaves (.dchk c) s c 2 (packed u :: l) none none false none ∧
      Leaves (.d2b c) s c 2 (u :: l) false (u == 0) false none) ∧
    ((s.core c).ds = u :: l → Leaves (.b2d c) s c 2 (packed u :: l) false (u == 0) false none) ∧
    ((s.core c).ds = l → Leaves (.clc c) s c 2 l none none none false ∧ Leaves (.setc c) s c 2 l none none none true)

/-- The loads from SRAM into a free register: the little-endian value, extended as the instruction says (R416, R417, R419). A
parity error in a cache counts and changes nothing else of the load (R402). -/
def LoadsHold : Prop :=
  ∀ (s : State) (c : Fin 2) (a : Nat) (l : List Nat), l.length ≤ 6 →
    (Runs s c false → (s.core c).ds = a :: l →
      (Reaches s c a 4 false → LeavesCore (.ldw c false) s c { advanced s c 2 with ds := s.bytes a 4 :: l } ∧
        Completes (.ldw c true) s fun t => t.core c = { advanced s c 2 with ds := s.bytes a 4 :: l } ∧ SameStore s t ∧
          t.is CPU.STICKY.CACHEPAR = true ∧
          t.get (CPU.CACHEERR.CNT.i c) = min 65535 (s.get (CPU.CACHEERR.CNT.i c) + 1)) ∧
      (Reaches s c a 2 false →
        LeavesCore (.ldh c) s c { advanced s c 2 with ds := s.bytes a 2 :: l } ∧
        LeavesCore (.ldhs c) s c { advanced s c 2 with ds := wrapS (toS 16 (s.bytes a 2)) :: l }) ∧
      (Reaches s c a 1 false →
        LeavesCore (.ldb c) s c { advanced s c 2 with ds := s.bytes a 1 :: l } ∧
        LeavesCore (.ldbs c) s c { advanced s c 2 with ds := wrapS (toS 8 (s.bytes a 1)) :: l }) ∧
      (Reaches s c a 4 false → Reaches s c (a + 4) 4 false →
        LeavesCore (.ldd c) s c { advanced s c 2 with ds := s.bytes (a + 4) 4 :: s.bytes a 4 :: l })) ∧
    (∀ (n : Fin 4) (off : BitVec 10), Runs s c false → (s.core c).ds = l → (s.core c).a.getD n 0 + 4 * off.toNat = a →
      Reaches s c a 4 false → LeavesCore (.lds c n off) s c { advanced s c 2 with ds := s.bytes a 4 :: l }) ∧
    (∀ (off : BitVec 16) (b : Nat), Runs s c true → (s.core c).ds = b :: l → (b : Int) + off.toInt = a →
      ∀ w : Fin 4, Reaches s c a (widthOf w) false →
        LeavesCore (.ldo c w off) s c { advanced s c 4 with ds := extended w (s.bytes a (widthOf w)) :: l }) ∧
    (∀ (n w : Fin 4) (step : BitVec 8) (a' : Nat), Runs s c false → (s.core c).ds = l → (s.core c).a.getD n 0 = a →
      stepped ((s.core c).amode.getD n 0) ((s.core c).abase.getD n 0) a (widthOf w) step.toInt = some a' →
      Reaches s c a (widthOf w) false →
      LeavesCore (.lda c n w step) s c
        { advanced s c 2 with ds := extended w (s.bytes a (widthOf w)) :: l, a := (s.core c).a.set n a' })

/-- The stores to SRAM: the low bytes of the operand, little-endian, and no other byte (R416, R417, R419). A parity error in a
cache counts and changes nothing else of the store (R402). -/
def StoresHold : Prop :=
  ∀ (s : State) (c : Fin 2) (a x y : Nat) (l : List Nat), x < 2 ^ 32 → y < 2 ^ 32 →
    let stores (i : Instr) (at_ n v : Nat) (k : DnCore) := 
      exec i s = .next (withCore (Act.run (setBytes at_ n (v % 256 ^ n)) s) c k)
    (Runs s c false → (s.core c).ds = a :: x :: l →
      (Reaches s c a 4 true → stores (.stw c false) a 4 x { advanced s c 2 with ds := l } ∧
        Completes (.stw c true) s fun t => t.core c = { advanced s c 2 with ds := l } ∧
          t.mem = (Act.run (setBytes a 4 x) s).mem ∧ t.is CPU.STICKY.CACHEPAR = true ∧
          t.get (CPU.CACHEERR.CNT.i c) = min 65535 (s.get (CPU.CACHEERR.CNT.i c) + 1)) ∧
      (Reaches s c a 2 true → stores (.sth c) a 2 x { advanced s c 2 with ds := l }) ∧
      (Reaches s c a 1 true → stores (.stb c) a 1 x { advanced s c 2 with ds := l })) ∧
    (Runs s c false → (s.core c).ds = a :: y :: x :: l → Reaches s c a 8 true → (s.core c).machine = true →
      stores (.std c) a 8 (x + y * 2 ^ 32) { advanced s c 2 with ds := l }) ∧
    (∀ (n : Fin 4) (off : BitVec 10), Runs s c false → (s.core c).ds = x :: l → (s.core c).a.getD n 0 + 4 * off.toNat = a →
      Reaches s c a 4 true → stores (.sts c n off) a 4 x { advanced s c 2 with ds := l }) ∧
    (∀ (off : BitVec 16) (b : Nat), Runs s c true → (s.core c).ds = b :: x :: l → (b : Int) + off.toInt = a →
      ∀ w : Fin 3, Reaches s c a (widthOf w) true →
        stores (.sto c w off) a (widthOf w) x { advanced s c 4 with ds := l }) ∧
    (∀ (n : Fin 4) (w : Fin 3) (step : BitVec 8) (a' : Nat), Runs s c false → (s.core c).ds = x :: l →
      (s.core c).a.getD n 0 = a →
      stepped ((s.core c).amode.getD n 0) ((s.core c).abase.getD n 0) a (widthOf w) step.toInt = some a' →
      Reaches s c a (widthOf w) true →
      stores (.sta c n w step) a (widthOf w) x { advanced s c 2 with ds := l, a := (s.core c).a.set n a' })

/-- The branches, calls, returns and the loop (R409, R418, R420). -/
def ControlFlowHold : Prop :=
  ∀ (s : State) (c : Fin 2) (x y : Nat) (l r : List Nat), l.length ≤ 7 → r.length ≤ 6 → x < 2 ^ 32 → y < 2 ^ 32 →
    let pc := (s.core c).pc
    let dest (rel : Int) := wrapS (pc + 2 * rel) / 2 * 2
    (Runs s c false →
      ((s.core c).rs = x :: r → LeavesCore (.ret c) s c { advanced s c 2 with rs := r, pc := x / 2 * 2 }) ∧
      ((s.core c).rs = x :: y :: r → (s.core c).machine = true →
        LeavesCore (.reti c) s c { advanced s c 2 with rs := r, pc := y / 2 * 2, status := statusBits x }) ∧
      ((s.core c).ds = x :: l → LeavesCore (.jmp c) s c { advanced s c 2 with ds := l, pc := x / 2 * 2 }) ∧
      ((s.core c).ds = x :: l → (s.core c).rs = r →
        LeavesCore (.callx c) s c { advanced s c 2 with ds := l, rs := (pc + 2) % 2 ^ 32 :: r, pc := x / 2 * 2 }) ∧
      (∀ rel : BitVec 12,
        LeavesCore (.br c rel) s c { advanced s c 2 with pc := dest rel.toInt } ∧
        ((s.core c).ds = x :: l →
          LeavesCore (.bz c rel) s c
            { advanced s c 2 with ds := l, pc := if x = 0 then dest rel.toInt else (pc + 2) % 2 ^ 32 } ∧
          LeavesCore (.bnz c rel) s c
            { advanced s c 2 with ds := l, pc := if x = 0 then (pc + 2) % 2 ^ 32 else dest rel.toInt }) ∧
        ((s.core c).rs = r →
          LeavesCore (.call c rel) s c { advanced s c 2 with rs := (pc + 2) % 2 ^ 32 :: r, pc := dest rel.toInt }) ∧
        ((s.core c).rs = x :: r → LeavesCore (.loop c rel) s c
          (if x = 1 then { advanced s c 2 with rs := r }
           else { advanced s c 2 with rs := (x + 2 ^ 32 - 1) % 2 ^ 32 :: r, pc := dest rel.toInt }))) ∧
      (∀ (cond : Fin 15) (rel : BitVec 8), LeavesCore (.bcc c cond rel) s c
        { advanced s c 2 with pc := if condition cond (s.core c).status then dest rel.toInt else (pc + 2) % 2 ^ 32 })) ∧
    (Runs s c true → ∀ rel : BitVec 24,
      LeavesCore (.brl c rel) s c { advanced s c 4 with pc := dest rel.toInt } ∧
      ((s.core c).rs = r →
        LeavesCore (.calll c rel) s c { advanced s c 4 with rs := (pc + 4) % 2 ^ 32 :: r, pc := dest rel.toInt }))

/-- Literals, address registers, and the multiply-accumulate of two halfwords (R389, R411, R419, R421). -/
def LiteralsAndAddressesHold : Prop :=
  ∀ (s : State) (c : Fin 2) (x : Nat) (l : List Nat), l.length ≤ 7 → x < 2 ^ 32 →
    (Runs s c false →
      ((s.core c).ds = l → ∀ v : BitVec 12,
        LeavesCore (.pushs c v) s c { advanced s c 2 with ds := wrapS v.toInt :: l }) ∧
      (∀ n : Fin 4,
        ((s.core c).ds = l →
          LeavesCore (.aget c n) s c { advanced s c 2 with ds := (s.core c).a.getD n 0 :: l }) ∧
        ((s.core c).ds = x :: l →
          LeavesCore (.aset c n) s c { advanced s c 2 with ds := l, a := (s.core c).a.set n x }) ∧
        (∀ step : BitVec 8, bits ((s.core c).amode.getD n 0) 31 30 = 0 →
          LeavesCore (.astep c n step) s c
            { advanced s c 2 with a := (s.core c).a.set n (wrapS ((s.core c).a.getD n 0 + step.toInt)) }) ∧
        (∀ step : BitVec 8, bits ((s.core c).amode.getD n 0) 31 30 = 1 → ∀ len, len ≠ 0 →
          bits ((s.core c).amode.getD n 0) 15 0 = len →
          let b := (s.core c).abase.getD n 0
          LeavesCore (.astep c n step) s c { advanced s c 2 with
            a := (s.core c).a.set n (wrapS (b + (((s.core c).a.getD n 0 : Int) - b + step.toInt) % len)) }))) ∧
    (Runs s c true →
      ((s.core c).ds = l →
        (∀ v : BitVec 24, LeavesCore (.pushl c v) s c { advanced s c 4 with ds := wrapS v.toInt :: l }) ∧
        (∀ v : BitVec 16, LeavesCore (.pushhi c v) s c { advanced s c 4 with ds := v.toNat * 2 ^ 16 :: l })) ∧
      ((s.core c).ds = x :: l →
        (∀ v : BitVec 16, let r := x ||| v.toNat
          Leaves (.ori c v) s c 4 (r :: l) (isNeg r) (r == 0) false none) ∧
        (∀ (i j : Fin 4) (di dj : BitVec 8) (m n : Nat), i ≠ j → (s.core c).a.getD i 0 = m → (s.core c).a.getD j 0 = n →
          Reaches s c m 2 false → Reaches s c n 2 false →
          bits ((s.core c).amode.getD i 0) 31 30 = 0 → bits ((s.core c).amode.getD j 0) 31 30 = 0 →
          let p := (x : Int) + toS 16 (s.bytes m 2) * toS 16 (s.bytes n 2)
          Completes (.macx c i j di dj) s fun t =>
            (t.core c).ds = wrapS p :: l ∧
              (t.core c).a = ((s.core c).a.set i (wrapS (m + di.toInt))).set j (wrapS (n + dj.toInt)) ∧
              SameStore s t ∧ t.regs = s.regs)))

/-- The system instructions (R391, R392, R401, R403, R422): the machine mode's own, TRAP and BRK with their exceptions, and PRIV
in task mode. -/
def SystemInstructionsHold : Prop :=
  ∀ (s : State) (c : Fin 2) (x : Nat) (l : List Nat), l.length ≤ 7 → x < 2 ^ 32 →
    (Runs s c false →
      LeavesCore (.fence c) s c (advanced s c 2) ∧ LeavesCore (.syncia c) s c (advanced s c 2) ∧
      ((s.core c).ds = x :: l → LeavesCore (.synci c) s c { advanced s c 2 with ds := l }) ∧
      ((s.core c).machine = true →
        LeavesCore (.ei c) s c { advanced s c 2 with status := withBit (s.core c).status 30 true } ∧
        LeavesCore (.di c) s c { advanced s c 2 with status := withBit (s.core c).status 30 false } ∧
        (s.nextSource c 0 = none → exec (.sleep c) s =
          .next (withCore (Eff.apply s (.put (sleepFld c) 1)) c { advanced s c 2 with asleep := true })) ∧
        ((s.nextSource c 0).isSome = true → LeavesCore (.sleep c) s c (advanced s c 2))) ∧
      ((s.core c).machine = false → VectorReadable s c 2 →
        TakesException (.ei c) s c 2 0 0 0 0 ∧ TakesException (.di c) s c 2 0 0 0 0 ∧
        TakesException (.sleep c) s c 2 0 0 0 0 ∧ TakesException (.reti c) s c 2 0 0 0 0) ∧
      ((s.core c).held = false → VectorReadable s c 10 → TakesException (.brk c) s c 10 0 0 0 0) ∧
      ((s.core c).held = true →
        LeavesCore (.brk c) s c { advanced s c 2 with pc := (s.core c).pc % 2 ^ 32 / 2 * 2 })) ∧
    (Runs s c true →
      (∀ n : BitVec 8, VectorReadable s c 9 → TakesException (.trap c n) s c 9 n.toNat 0 0 1) ∧
      ((s.core c).ds = l → ∀ n : Fin 0x1A, crStack n = none →
        LeavesCore (.rdc c (BitVec.ofNat 8 n)) s c { advanced s c 4 with ds := (s.core c).cr c n :: l }) ∧
      ((s.core c).ds = x :: l → (s.core c).machine = true →
        LeavesCore (.wrc c 0x00) s c { advanced s c 4 with ds := l, status := statusBits x } ∧
        LeavesCore (.wrc c 0x08) s c { advanced s c 4 with ds := l, vbar := x / 512 * 512 } ∧
        LeavesCore (.wrc c 0x0A) s c { advanced s c 4 with ds := l, a := (s.core c).a.set 0 x } ∧
        LeavesCore (.wrc c 0x0E) s c { advanced s c 4 with ds := l, abase := (s.core c).abase.set 0 x } ∧
        LeavesCore (.wrc c 0x16) s c { advanced s c 4 with ds := l, trgn := (s.core c).trgn.set 0 x } ∧
        (l = [] → LeavesCore (.wrc c 0x01) s c { advanced s c 4 with ds := [], dsp := x / 4 * 4 })))

/-- A fetch that the mode or the map refuses, an undefined encoding, an interrupt, and the end of SLEEP (R392, R395, R399, R401,
R425). -/
def CoreEventsHold : Prop :=
  ∀ (s : State) (c : Fin 2), s.dn.cores.length = 2 → s.ecc.bad = [] → s.ecc.fresh = [] → s.dbg.breaks = [] →
    (s.coreRuns c = true → s.fetchFault c (s.core c).pc false = some (.fetch (s.core c).pc) → VectorReadable s c 3 →
      TakesException (.fetchFault c false) s c 3 0 0 ((s.core c).pc % 2 ^ 32) 0) ∧
    (∀ enc : Word, Runs s c false → enc.toNat < 0xF000 → undefinedHalf enc.toNat = true → VectorReadable s c 1 →
      TakesException (.undefinedInstruction c enc) s c 1 0 enc.toNat 0 0) ∧
    (∀ enc : Word, Runs s c true → enc.toNat / 2 ^ 28 = 15 → undefinedLong enc.toNat = true → VectorReadable s c 1 →
      TakesException (.undefinedInstruction c enc) s c 1 0 enc.toNat 0 1) ∧
    (∀ i l, s.coreRuns c = true → bitOf (s.core c).status 30 = 1 →
      s.nextSource c (bits (s.core c).status 29 28) = some (i, l) → VectorReadable s c (16 + i) →
      Completes (.interruptEntry c) s fun t =>
        t.core c = entered s c (16 + i)
          (withBit (setField (BitVec.ofNat 32 (s.core c).status) 28 2 l).toNat 31 true) ∧ SameStore s t ∧ t.regs = s.regs) ∧
    ((s.core c).asleep = true → s.reachable Dom.core = true → (s.nextSource c 0).isSome = true →
      exec (.sleepWake c) s =
        .next (Eff.apply (withCore s c { s.core c with asleep := false }) (.put (sleepFld c) 0)))

end Sys2Proof

section

open Sys2Proof Sys2Proof.Machine

/-! The bus. -/

/-- The accesses that the map turns away, each with its sticky bit; a read of one returns 0 (R9, R13, R41, R43, R44, R46, R297,
R300). A narrow read of SRAM returns its bytes. -/
def Obligations.RefusedAccesses : Prop :=
  ∀ (s : State) (i : Initiator) (a : Word) (n : Fin 3) (w : Option Word),
    (∀ (x : Word) p off, s.route i a.toNat true = .reg p off 0 → (n ≠ 2 ∨ a.toNat % 4 ≠ 0) →
      Completes (.narrowOrMisalignedAccess i a n (some x)) s fun t =>
        t.is ((headerOf (pageBase + p.code * 0x1000) 0x10 32).bit 31) = true ∧ OnlyStuck s t [p.code]) ∧
    (0x20000000 ≤ a.toNat → a.toNat + accessWidth n ≤ 0x20200000 →
      s.route i (a.toNat / 4 * 4) false = .mem (a.toNat / 4 * 4) → s.route i a.toNat false = .mem a.toNat →
      s.ecc.bad = [] → s.ecc.fresh = [] →
      Completes (.narrowOrMisalignedAccess i a n none) s fun t =>
        t.answered i = s.bytes a.toNat (accessWidth n) ∧ t.regs = s.regs ∧ SameStore s t) ∧
    (s.route i (a.toNat / 4 * 4) w.isSome = .unmapped →
      Completes (.unmappedAccess i a w) s fun t =>
        t.is SYS.STICKY.UNMAPPED = true ∧ (w = none → t.answered i = 0) ∧ OnlyPages s t [0x00] ∧ SameStore s t) ∧
    (s.route i (a.toNat / 4 * 4) w.isSome = .domOff →
      Completes (.domainOffAccess i a w) s fun t =>
        t.is SYS.STICKY.DOMOFF = true ∧ (w = none → t.answered i = 0) ∧ OnlyPages s t [0x00] ∧ SameStore s t) ∧
    (∀ x : Word, s.route i (a.toNat / 4 * 4) true = .romWrite →
      Completes (.romFlashStore i a n x) s fun t => t.is SYS.STICKY.ROWRITE = true ∧ OnlyStuck s t [0x00]) ∧
    (∀ (v : Fin 16) (off : Fin 0x100000) u,
      s.route i (Base.window + v * 0x100000 + off / 4 * 4) w.isSome = .viewRef u →
      Completes (.viewRefused i v off w) s fun t =>
        t.is VIF.STICKY.VIEWREF = true ∧ (u ≠ 0 → t.is (VIF.STICKY.VIEWREF.copy u) = true) ∧
          (w = none → t.answered i = 0) ∧ SameStore s t) ∧
    (∀ v, a.toNat % 4 = 0 → s.route i a.toNat w.isSome = .bindViol v → s.is VIF.VIOLLOG.V = false →
      Completes (.bindViolation i a 2 w) s fun t =>
        t.is VIF.STICKY.BINDVIOL = true ∧ t.is VIF.VIOLLOG.V = true ∧ t.get VIF.VIOLLOG.VI = v % 16 ∧
          t.get VIF.VIOLLOG.ADDR = a.toNat / 0x1000 ∧ (w = none → t.answered i = 0) ∧ SameStore s t)

/-- The header registers, the registers that a read clears, the release of DN1, the doorbells and a remote store (R10, R15, R21,
R326, R407, R568). -/
def Obligations.HeadersAndDoorbells : Prop :=
  ∀ (s : State) (i : Initiator) (w : Word),
    (∀ (k : Fin 38) (q : Page) (d : RegDesc), Page.ofCode k = some q → (q = .PWR → refusesPwr i = false) →
      s.pairHolds q = false → s.flc.step = 0 →
      (s.route i (pageBase + q.code * 0x1000 + 0x10) true = .reg q 0x10 0 → findReg q.table 0x10 = some d →
        Completes (.stickyClear i k 0 w) s fun t => ∀ f ∈ d.fields,
          let g : Fld := ⟨pageBase + q.code * 0x1000 + 0x10, f.lo, f.width, 0⟩
          f.width = 1 → f.acc = .w1c → t.is g = (s.is g && !w.toNat.testBit f.lo)) ∧
      (s.route i (pageBase + q.code * 0x1000 + 0x1C) true = .reg q 0x1C 0 →
        Completes (.lockWrite i k 0 w) s fun t =>
          t.locked (pageBase + q.code * 0x1000) = (s.locked (pageBase + q.code * 0x1000) || w.toNat.testBit 0))) ∧
    (∀ x ∈ [(FLT.RECCNT, Page.FLT), (REC.FROZCNT, .REC), (REC.LOSTCNT, .REC), (PWR.WAKESRC, .PWR), (LMP.OTCNT, .LMP),
        (MEM.MAXLAP, .MEM), (CAS.LINKERR, .CAS)],
      s.route i x.1.key false = .reg x.2 (x.1.key % 0x1000) 0 →
      Completes (.readToClear i (BitVec.ofNat 32 x.1.key)) s fun t =>
        t.answered i = s.peek (some i) x.2 (x.1.key % 0x1000) 0 ∧ t.get { x.1 with lo := 0, width := 32 } = 0 ∧
          OnlyPages s t [x.2.code] ∧ SameStore s t) ∧
    (∀ run : Bool, (i = .core 0 ∨ ∃ v, i = .host v) → Opens s i CPU.CTRL.DN1RUN 0 true → s.is CPU.CTRL.DN1RUN ≠ run →
      s.dn.cores.length = 2 →
      Completes (.dn1runWrite i run) s fun t =>
        t.is CPU.CTRL.DN1RUN = run ∧ t.core 0 = s.core 0 ∧
          t.core 1 = { DnCore.reset 1 with pc := s.get CPU.DN1PC.PC * 2, runs := run }) ∧
    (Opens s i CPU.DBSET 0 true →
      Completes (.dbsetWrite i w) s fun t =>
        ∀ c < 2, t.is (CPU.DBSTAT.DB.bit c) = (s.is (CPU.DBSTAT.DB.bit c) || w.toNat.testBit c)) ∧
    (∀ set : Bool, Opens s i HIF.HDBSET 0 true →
      Completes (.hdbsetWrite i set) s fun t => t.is HIF.HDB.VAL = (s.is HIF.HDB.VAL || set)) ∧
    (∀ a : Word, s.domOn Dom.mac = true → s.linkLive = true → s.is CAS.CTRL.REMEN = true →
      s.route .remote (a.toNat / 4 * 4) true = .mem (a.toNat / 4 * 4) → 0x20000000 ≤ a.toNat → a.toNat < 0x20200000 →
      s.ecc.bad = [] → s.ecc.fresh = [] →
      Completes (.remoteAccessServe a 0 (some [w])) s fun t =>
        t.word (a.toNat / 4 * 4) = w.toNat ∧ t.regs = s.regs ∧
          ∀ j, (j < a.toNat / 4 * 4 ∨ a.toNat / 4 * 4 + 4 ≤ j) → t.byte j = s.byte j)

/-! Time, the scrubbing and the MRAM. -/

/-- The time base, the ASN, the PLL and the crystal (R50 to R61, R275, R469, R527). -/
def Obligations.ClockCommands : Prop :=
  ∀ (s : State) (i : Initiator) (w : Word),
    (Opens s i CLK.TBLO 0 false →
      Completes (.tbloRead i) s fun t =>
        t.answered i = s.tb % 2 ^ 32 ∧ t.get (CLK.TBHI.copy (iniCopy i)) = s.tb / 2 ^ 32 % 2 ^ 32 ∧ SameStore s t) ∧
    (Opens s i CLK.ASNLO 0 false →
      Completes (.asnloRead i) s fun t =>
        t.answered i = s.clk.asn % 2 ^ 32 ∧ t.get (CLK.ASNHI.copy (iniCopy i)) = s.clk.asn / 2 ^ 32 % 256 ∧
          SameStore s t) ∧
    (s.slaved = false → Opens s i CLK.TICKADJ 0 true →
      let x := s.getS CLK.ADJPEND.ADJ + toS 16 w.toNat
      Completes (.tickadjWrite i w) s fun t =>
        t.getS CLK.ADJPEND.ADJ = max (-1000) (min 1000 x) ∧ (x < -1000 ∨ 1000 < x → t.is CLK.STICKY.ADJSAT = true) ∧
          t.get CLK.STAT.TBEST = 0 ∧ SameStore s t) ∧
    (s.slaved = false → Opens s i CLK.ASNHI 0 true →
      exec (.asnhiWrite i w) s = .next { s with clk := { s.clk with asnStaged := w.toNat % 256 } }) ∧
    (s.slaved = false → Opens s i CLK.ASNLO 0 true →
      Completes (.asnloWrite i w) s fun t =>
        t.clk = { s.clk with asnCommit := some (s.clk.asnStaged * 2 ^ 32 + w.toNat) } ∧
          (s.shu.next.isSome = true → t.shu.void = true) ∧ t.regs = s.regs ∧ SameStore s t) ∧
    (s.slaved = true → Opens s i CLK.ASNLO 0 true →
      Completes (.asnloWrite i w) s fun t => t.is CAS.STICKY.CLKREF = true ∧ OnlyStuck s t [0x1D]) ∧
    (s.slaved = false → Opens s i CLK.CTRL 0 true → s.is CLK.CTRL.TICKEN = false → w.toNat.testBit CLK.CTRL.TICKEN.lo = true →
      Completes (.tickenWrite i w) s fun t =>
        t.is CLK.CTRL.TICKEN = true ∧ t.clk.nextTick = (s.tb + s.get CLK.SLOTLEN.LEN) % 2 ^ 64 ∧ SameStore s t) ∧
    (s.domOn Dom.core = true → s.is CLK.STAT.PLLLOCK = true →
      Completes .pllUnlock s fun t =>
        t.is CLK.STAT.PLLLOCK = false ∧ t.is CLK.STICKY.PLLUNLOCK = true ∧ t.clk.gated = true ∧ SameStore s t) ∧
    (s.domOn Dom.core = true → s.is CLK.STAT.PLLLOCK = false →
      Completes .pllRelock s fun t =>
        t.is CLK.STAT.PLLLOCK = true ∧ t.clk.gated = false ∧ SameStore s t) ∧
    (∀ k : Nat, s.domOn Dom.core = true →
      Completes (.k32Fail k) s fun t =>
        t.is CLK.STAT.K32OK = false ∧ t.is PWR.STAT.RTCLOST = true ∧ t.get PWR.RTCSEC.SEC = 0 ∧ t.thm.k32ok = false) ∧
    (s.domOn Dom.core = true →
      Completes .k32Restart s fun t => t.is CLK.STAT.K32OK = true ∧ t.thm.k32ok = true)

/-- A store to MRAM, the write buffer, and the error commands of the MEM page (R430, R431, R457, R458, R463 to R465). -/
def Obligations.MemoryCommands : Prop :=
  ∀ (s : State) (i : Initiator),
    (∀ (off : Fin 0x40000) (w : Word), off.val < 0x36800 → off.val % 4 = 0 → s.is DBG.STAT.ERASING = false →
      s.is NVS.CTRL.WEN = true → s.ecc.bad = [] → s.ecc.fresh = [] →
      s.route i (0x28000000 + off.val) true = .mem (0x28000000 + off.val) →
      Completes (.mramProtectedStore i off w) s fun t =>
        t.word (0x28000000 + off.val) = w.toNat ∧ t.get NVS.STAT.WBUF = min 4 (s.get NVS.STAT.WBUF + 1) ∧
          ∀ j, (j < 0x28000000 + off.val ∨ 0x28000000 + off.val + 4 ≤ j) → t.byte j = s.byte j) ∧
    (∀ (off : Fin 0x40000) (w : Word), 0x36800 ≤ off.val → off.val < 0x3FFC0 → s.is DBG.STAT.ERASING = false →
      s.route i (0x28000000 + off.val / 4 * 4) true = .mem (0x28000000 + off.val / 4 * 4) →
      Completes (.mramProtectedStore i off w) s fun t =>
        (if off.val < 0x3F800 ∨ 0x3FC80 ≤ off.val then t.is NVS.STICKY.SYSWR
         else if off.val < 0x3FC00 then t.is VIF.STICKY.TENWR else t.is CMD.STICKY.CTRWR) = true ∧ SameStore s t) ∧
    (s.domOn Dom.core = true →
      Completes .mramWriteCommit s fun t => t.get NVS.STAT.WBUF = s.get NVS.STAT.WBUF - 1 ∧ SameStore s t) ∧
    (∀ (m : Fin 7) (off : Nat), off < memSize m → (m.val = 3 → linedWord (off % 128 / 4) = true) → s.domOn (memDomain m) = true → s.domOn Dom.core = true →
      bitOf (s.get MEM.CTRL.SCREN) m = 1 →
      (∀ found : Fin 3, scrubWord m off ∉ s.ecc.bad → scrubWord m off ∉ s.ecc.fresh → found.val < 2 →
        Completes (.scrubRead m off found) s fun t => t.ecc.bad = s.ecc.bad ∧ SameStore s t ∧
          t.ecc.fresh = s.ecc.fresh ++ (if found.val = 1 then [scrubWord m off] else []) ∧
          (bitOf (s.get MEM.STAT.SCRUN) m = 1 → scrubEnd m ≤ (scrubWord m off).2 + (if m.val < 5 then 8 else 16) →
            bitOf (t.get MEM.STAT.SCRUN) m = 0)) ∧
      Completes (.scrubRead m off 2) s fun t => t.is MEM.STICKY.UE = true ∧ SameStore s t ∧
        if m.val = 2 ∨ m.val = 3 then
          t.bob.repairs = s.bob.repairs ++ [⟨m.val - 2, off / 128, off % 128 / 4,
            s.bothBad (m.val - 2) (off / 128) (off % 128 / 4) false, s.tb⟩] ∧ t.is FLT.STAT.RESTORING = true
        else (m.val, if m.val < 5 then off / 8 * 8 else off / 16 * 16) ∈ t.ecc.bad) ∧
    (∀ (m : Fin 5) (off : Nat),
      exec (.eccWriteBack m off) s =
        .next { s with ecc := { s.ecc with fresh := s.ecc.fresh.filter (· != (m.val, off / 8 * 8)) } }) ∧
    (s.domOn Dom.core = true → s.is MEM.STAT.LAPRUN = false → s.ecc.lapDue < 2 ^ 64 →
      let runs (m : Nat) : Bool := bitOf (s.get MEM.CTRL.SCREN) m == 1 && s.domOn (memDomain m)
      Completes .scrubLapStart s fun t =>
        t.tb = max s.tb s.ecc.lapDue ∧ t.ecc.slow = false ∧ SameStore s t ∧
        (∀ m < 7, bitOf (t.get MEM.STAT.SCRUN) m = if runs m then 1 else 0) ∧
        if (List.range 7).any runs then t.is MEM.STAT.LAPRUN = true ∧ t.ecc.lapFrom = some (max s.tb s.ecc.lapDue)
        else t.is MEM.STAT.LAPRUN = false ∧ t.ecc.lapFrom = none ∧ t.get MEM.LASTLAP.MS = 0) ∧
    (∀ from_, s.ecc.lapFrom = some from_ → s.ecc.slow = false → s.is MEM.STAT.LAPRUN = true →
      Completes .lapSlow s fun t => t.is MEM.STICKY.LAPSLOW = true ∧ t.ecc.slow = true ∧ SameStore s t) ∧
    (∀ m : Fin 5, s.get (MEM.LOGSEL.NUM.copy (iniCopy i)) = m.val → Opens s i MEM.LOGCLR 0 true →
      exec (.logclr i) s = .next { s with ecc := { s.ecc with log := s.ecc.log.set m (List.replicate 16 (0, 0)) } })

/-! Timers and the two-wire controllers. -/

/-- The timers: a write of CTRL arms or stops, CMP is stored, and an armed timer fires at its compare value (R522 to R526). -/
def Obligations.TimerCommands : Prop :=
  ∀ (s : State) (i : Initiator) (v : Fin 16) (n : Fin 8) (w : Word),
    (Opens s i (TIM.TCTRL.i n) v true → s.armed n = false → w.toNat.testBit 30 = false → bits w.toNat 23 22 ≠ 3 →
      bits w.toNat 26 24 < 3 → bits w.toNat 28 28 = 0 → s.tim.since.length = 8 →
      Completes (.timerArm i v n w) s fun t =>
        t.armed n = true ∧ t.get (TIM.TCTRL.SRC.i n) = bits w.toNat 26 24 ∧
          (bits w.toNat 29 29 = 1 → t.get (TIM.CNT.VAL.i n) = 0) ∧ SameStore s t) ∧
    (Opens s i (TIM.TCTRL.i n) v true → Completes (.timerStop i v n w) s fun t => t.armed n = false ∧ SameStore s t) ∧
    (Opens s i (TIM.CMP.i n) v true →
      Completes (.timerCmpWrite i v n w) s fun t => t.get (TIM.CMP.VAL.i n) = w.toNat ∧ SameStore s t) ∧
    (s.armed n = true → s.get (TIM.TCTRL.SRC.i n) < 5 → s.clk.gated = false →
      (s.get (TIM.TCTRL.SRC.i n) = 1 → s.thm.k32ok = true) →
      Completes (.timerFire n) s fun t =>
        t.armed n = false ∧ t.is (TIM.STICKY.FIRE.bit n) = true ∧
          t.get (TIM.CNT.VAL.i n) = (if (s.is (TIM.TCTRL.MODE.i n) && windowHolds (s.timerNow n).2 (s.get (TIM.CMP.VAL.i n))) = true
            then (s.timerNow n).2 else s.get (TIM.CMP.VAL.i n)) ∧ t.get (TIM.FIRETB.TB.i n) = t.tb % 2 ^ 32 ∧
          (n.val, t.tb) ∈ t.stm.pulses ∧ SameStore s t)

/-! Events, faults, the recorder and the wake-up receiver. -/

/-- The Stitch matrix: a software trigger pulses its producers, a GPIO edge its own, and the oldest pulse raises the flags of the
channels it drives (R531 to R533, R535, R624, R625). -/
def Obligations.StitchCommands : Prop :=
  ∀ (s : State) (i : Initiator),
    (∀ w : Word, Opens s i STM.SWTRIG 0 true →
      Completes (.swtrig i w) s fun t => (∀ k < 8, w.toNat.testBit k = true → (72 + k, s.tb) ∈ t.stm.pulses) ∧
        t.regs = s.regs ∧ SameStore s t) ∧
    (∀ (p : Fin 30) (level : Bool), s.domOn Dom.core = true → s.is (GIO.IN.P.bit p) ≠ level →
      Completes (.gpioEdge p level) s fun t => t.is (GIO.IN.P.bit p) = level ∧
        (edgeHit (s.edgeSel p) level = true → t.is (GIO.STICKY.EDGE.bit p) = true ∧ (35 + p.val, s.tb) ∈ t.stm.pulses)) ∧
    (∀ p at_ l (c : Fin 32), s.stm.pulses = (p, at_) :: l → s.domOn Dom.core = true → s.drives p c = true →
      Completes .stitchEvent s fun t => t.is (STM.FLAG.CH.bit c) = true ∧
        (s.is (STM.FLAG.CH.bit c) = false → s.is (STM.FLAGEN.CH.bit c) = true → t.is STM.STICKY.FLAG = true))

/-- The recorder: a trigger takes its sample, the first sample is written to the ring's slot at WRIDX, FREEZE stops sampling, and the
life counters are written each 64 s (R540 to R545). -/
def Obligations.EventRecorder : Prop :=
  ∀ (s : State) (i : Initiator),
    (∀ f l, s.recd.fired = f :: l → s.is REC.CTRL.FREEZE = false → s.recd.scanTo ≤ s.tb → s.recd.held.length < 4 →
      let u : State := { s with recd := { s.recd with fired := l } }
      exec .recorderTrigger s = .next { u with recd := { u.recd with held := s.recd.held ++ [u.takeSample f] } }) ∧
    (∀ f l, s.recd.fired = f :: l → s.is REC.CTRL.FREEZE = true → s.get REC.FROZCNT.CNT = 0 →
      Completes .recorderTrigger s fun t =>
        t.get REC.FROZTB.TB = f.tb % 2 ^ REC.FROZTB.TB.width ∧ t.get REC.FROZCNT.CNT = 1 ∧
          t.is REC.STICKY.FROZTRG = true ∧ t.recd.held = s.recd.held) ∧
    (∀ x, firstSample s.recd.held = some x → s.tb < 2 ^ 64 → x.fired.tb + 2 ≤ s.tb → s.recd.second ≠ s.tb / 4000000 →
      x.vals.length ≤ 16 → s.get REC.WRIDX.IDX < 255 → s.ecc.bad = [] → s.ecc.fresh = [] →
      Completes .recordWrite s fun t =>
        t.get REC.WRIDX.IDX = (s.get REC.WRIDX.IDX + 1) % 255 ∧ t.get REC.SEQ.VAL = nextSeq (s.get REC.SEQ.VAL) ∧
          t.recd.held = s.recd.held.erase x ∧ t.is REC.STICKY.WRITTEN = true ∧
          t.octets (ringSlot (s.get REC.WRIDX.IDX)) 4 = leOctets 4 (s.get REC.SEQ.VAL)) ∧
    (∀ w : Word, Opens s i REC.CTRL.FREEZE 0 true → s.recd.owed = false →
      Completes (.recorderFreeze i w) s fun t => t.is REC.CTRL.FREEZE = w.toNat.testBit REC.CTRL.FREEZE.lo ∧ SameStore s t) ∧
    (s.domOn Dom.core = true → s.recd.lifeAt + 64 ≤ s.recd.opsec → s.recd.owed = false → s.is REC.CTRL.FREEZE = false →
      Completes .lifeCounterWrite s fun t =>
        t.recd.lifeAt = s.recd.opsec ∧ t.regs = s.regs ∧
          ∀ j, (j < 0x2803F780 ∨ 0x2803F7C0 ≤ j) → t.byte j = s.byte j)

/-- The Thimble receiver: a restart, the start of detection, the sync, and a matching frame (R275, R278 to R280). -/
def Obligations.WakeUpReceiver : Prop :=
  ∀ (s : State) (i : Initiator),
    (Opens s i THM.CTRL 0 true → s.is THM.CTRL.EN = false →
      Completes (.thimbleRestart i none) s fun t =>
        t.is THM.CTRL.EN = true ∧ t.is THM.STAT.INFR = false ∧ t.thm.detecting = false ∧
          t.thm.detectAt = some (s.tb + 2000) ∧ SameStore s t) ∧
    (∀ f, 150000 ≤ f → f ≤ 1050000 → f ≠ s.get THM.FREQ.KHZ → Opens s i THM.FREQ 0 true →
      Completes (.thimbleRestart i (some f)) s fun t =>
        t.get THM.FREQ.KHZ = f ∧ t.thm.detectAt = some (s.tb + 2000) ∧ SameStore s t) ∧
    (∀ at_, s.thm.detectAt = some at_ →
      Completes .thimbleDetectStart s fun t => t.thm.detecting = true ∧ t.thm.detectAt = none ∧ SameStore s t) ∧
    (s.thimbleHears = true →
      Completes .thimbleSyncFound s (fun t => t.is THM.STAT.INFR = true ∧ OnlyStuck s t [0x1B]) ∧
      (∀ (code : BitVec 16) (group : Byte) (k : Nat), s.is THM.STAT.INFR = true → s.wakeMatches code.toNat group.toNat = true →
        s.thm.lastTrigger = none →
        Completes (.wakeFrameReceived (some (wakeCrc code group)) code group k) s fun t =>
          t.get THM.LAST.CODE = code.toNat ∧ t.get THM.LAST.GROUP = group.toNat ∧ t.is THM.LAST.V = true ∧
            t.is THM.STICKY.MATCH = true ∧ t.thm.lastTrigger = some (s.stampNow k) ∧
            (88, s.stampNow k) ∈ t.stm.pulses ∧ t.is THM.STAT.INFR = false) ∧
      (∀ (crc : Option Byte) (code : BitVec 16) (group : Byte) (k : Nat), s.is THM.STAT.INFR = true →
        crc ≠ some (wakeCrc code group) → s.get THM.CNT1.BADFR < 2 ^ THM.CNT1.BADFR.width - 1 →
        Completes (.wakeFrameReceived crc code group k) s fun t =>
          t.get THM.CNT1.BADFR = s.get THM.CNT1.BADFR + 1 ∧ t.is THM.STICKY.BADFR = true ∧
            t.is THM.STAT.INFR = false ∧ SameStore s t)) ∧
    (∀ (crc : Option Byte) (code : BitVec 16) (group : Byte) (k : Nat),
      s.thimbleHears = false ∨ s.is THM.STAT.INFR = false →
      Completes (.wakeFrameReceived crc code group k) s fun t =>
        t.is THM.STAT.INFR = false ∧ t.thm = s.thm ∧ OnlyStuck s t [0x1B])
/-! Power and reset. -/

/-- The writes of MODEREQ, DOMEN and RTCSEC (R469, R471); a write of the count that RTCSEC holds does nothing (R626). -/
def Obligations.PowerRequests : Prop :=
  ∀ (s : State) (i : Initiator) (w : Word),
    (Opens s i PWR.MODEREQ.PEND 0 true →
      let m := bits w.toNat 2 0
      (m = s.heading → m ≤ 4 → Completes (.modereqWrite i w) s fun t =>
        t.get PWR.MODEREQ.TARGET = m ∧ t.is PWR.MODEREQ.PEND = false ∧ OnlyStuck s t [0x01]) ∧
      (m ≠ s.heading → m ≤ 4 → domainsLess (s.modeDomains m) s.headingDomains = 0 →
        domainsLess s.headingDomains (s.modeDomains m) ≠ 0 → Completes (.modereqWrite i w) s fun t =>
        t.get PWR.MODEREQ.TARGET = m ∧ t.is PWR.MODEREQ.PEND = true ∧ t.pwr.askedAt = s.tb ∧ OnlyPages s t [0x01]) ∧
      (4 < m → Completes (.modereqWrite i w) s fun t =>
        t.is PWR.STICKY.RSVD = true ∧ t.get PWR.MODEREQ.TARGET = s.get PWR.MODEREQ.TARGET)) ∧
    (Opens s i PWR.DOMEN.RUNOPT 0 true → Completes (.domenWrite i w) s fun t =>
      t.get PWR.DOMEN.RUNOPT = bits w.toNat 2 0 ∧ t.get PWR.DOMEN.NAROPT = bits w.toNat 6 4 ∧ SameStore s t) ∧
    (Opens s i PWR.RTCSEC.SEC 0 true →
      (w.toNat = s.get PWR.RTCSEC.SEC → exec (.rtcsecWrite i w) s = .next s) ∧
      (w.toNat ≠ s.get PWR.RTCSEC.SEC → Completes (.rtcsecWrite i w) s fun t =>
        t.get PWR.RTCSEC.SEC = w.toNat ∧ t.is PWR.STAT.RTCLOST = false ∧
          (w.toNat = s.get PWR.RTCALM.SEC → t.is (PWR.WAKESRC.SRC.bit 3) = true ∧ (91, s.stampNow 0) ∈ t.stm.pulses) ∧ SameStore s t))

/-! The Mover, tenancy, keys, flash and the debug port. -/

/-- The Mover's channels: GO, STOP, the beats of each operation, the reserved operation, and a descriptor's end (R448 to R451,
R473). -/
def Obligations.MoverChannels : Prop :=
  ∀ (s : State) (i : Initiator) (c : Fin 16) (d : List Nat),
    (∀ prio : Fin 4, Opens s i (MOV.CCTRL.GO.i c) 0 true → s.mov.chans.length = 16 →
      (let a := s.get (MOV.CDESC.ADDR.i c) * 32
       s.moverActive c = false → descPlace a = true → s.route (moverOf c) a false = .mem a → s.ecc.bad = [] →
        s.ecc.fresh = [] → bitOf (s.load a 4) 21 = 0 →
        Completes (.moverGo i c prio) s fun t =>
          t.get (MOV.CSTAT.STATE.i c) = 2 ∧ t.get (MOV.CCUR.ADDR.i c) = a ∧ t.get (MOV.CCTRL.PRIO.i c) = prio ∧
            (t.movCh c).desc = some ((List.range 8).map fun k => s.load (a + 4 * k) 4) ∧ (t.movCh c).moved = 0 ∧
            SameStore s t) ∧
      (s.get (MOV.CSTAT.STATE.i c) = 2 → Completes (.moverStop i c prio) s fun t =>
        (t.movCh c).stop = true ∧ t.get (MOV.CSTAT.STATE.i c) = 2 ∧ SameStore s t) ∧
      (s.get (MOV.CSTAT.STATE.i c) = 1 → Completes (.moverStop i c prio) s fun t =>
        t.get (MOV.CSTAT.STATE.i c) = 0 ∧ SameStore s t)) ∧
    (∀ n a, MovesTo s c d 1 n a → Completes (.moverFill c 1) s fun t => Beat s c n a (fillOctets (dWord d 1) a n) t) ∧
    (∀ n a p, MovesTo s c d 0 n a → beatSrc (s.movCh c) d = p → isRegister p = false → bankAt p = none →
      s.route (moverOf c) p false = .mem p →
      Completes (.moverCopy c 1) s fun t => Beat s c n a (leOctets n (s.load p n)) t) ∧
    (∀ n a p, MovesTo s c d 2 n a → beatSrc (s.movCh c) d = p → isRegister p = false → bankAt p = none →
      s.route (moverOf c) p false = .mem p →
      Completes (.moverCopy2d c 1) s fun t => Beat s c n a (leOctets n (s.load p n)) t) ∧
    (s.mov.chans.length = 16 → s.domOn Dom.core = true → s.get (MOV.CSTAT.STATE.i c) = 2 → (s.movCh c).desc = some d →
      (s.movCh c).status = none →
      (dOp d = 3 → (s.movCh c).moving = false → Completes (.moverReservedOp c) s fun t =>
        t.get (MOV.CSTAT.STATE.i c) = 4 ∧ t.is MOV.STICKY.ERR = true ∧ (t.movCh c).desc = none) ∧
      ((s.movCh c).moving = true → (s.movCh c).moved = dTotal d → dWord d 3 / 32 = 0 →
        Completes (.moverDescriptorDone c) s fun t =>
          t.get (MOV.CSTAT.STATE.i c) = 0 ∧ (t.movCh c).desc = none ∧ (13 + c.val, s.tb) ∈ t.stm.pulses ∧
            (bitOf (dWord d 0) 22 = 1 → t.is (MOV.STICKY.DONE.bit c) = true)))

/-- Flash queues, and the operations of a bank from their start to their end (R433 to R435, R437 to R441, R444, R445). -/
def Obligations.FlashOperations : Prop :=
  ∀ (s : State) (i : Initiator) (n : Fin 8) (b : Fin 2) (w : Word), s.flc.banks.length = 2 →
    (Opens s i (FLC.QCFG.i n) 0 true → s.flc.step = 0 → s.is (FLC.QCFG.EN.i n) = false → w.toNat.testBit 31 = true →
      1 ≤ w.toNat % 16 → w.toNat % 16 ≤ 8 →
      inDataMemory (s.get (FLC.QBASE.ADDR.i n) * 16) (16 * 2 ^ (w.toNat % 16)) = true →
      Completes (.queueEnable i n w) s fun t =>
        t.is (FLC.QCFG.EN.i n) = true ∧ t.get (FLC.QCFG.LOG2N.i n) = w.toNat % 16 ∧ SameStore s t) ∧
    (Opens s i (FLC.QTAIL.i n) 0 true → s.flc.step = 0 → s.get (FLC.QTAIL.IDX.i n) < s.flashRing n →
      s.flashRing n ≤ 256 → w.toNat % 256 < s.flashRing n →
      (w.toNat % 256 + s.flashRing n - s.get (FLC.QTAIL.IDX.i n)) % s.flashRing n ≤
        (s.get (FLC.QHEAD.IDX.i n) + 2 * s.flashRing n - 1 - s.get (FLC.QTAIL.IDX.i n)) % s.flashRing n →
      Completes (.queueSubmit i n w) s fun t => t.get (FLC.QTAIL.IDX.i n) = w.toNat % 256 ∧ SameStore s t) ∧
    (s.reachable Dom.nvm = true → (s.bank b).op = none → s.flc.waits = none → s.nextQueue b = some n.val →
      s.flashDescOk (s.flashHead n) = true → bits (s.word (s.flashHead n)) 19 16 = 3 → s.is DBG.STAT.ERASING = false →
      Completes (.flashDescriptorStart b) s fun t =>
        t.get (bankState b) = 2 ∧ (t.bank b).served = n.val ∧ ∃ o, (t.bank b).op = some o ∧ o.kind = 3 ∧ o.queue = some n.val ∧
          o.addr = s.word (s.flashHead n + 4) ∧ o.since = s.tb) ∧
    (∀ o, (s.bank b).op = some o → o.paused = false → s.is DBG.STAT.ERASING = false →
      (o.kind = 1 → o.queue = none → o.data.length = 16 → o.count = o.done + 1 → bankAt o.addr = some b.val →
        Completes (.flashProgramDone b) s fun t =>
          t.octets o.addr 16 = o.data.map (· % 256) ∧ (t.bank b).op = none ∧ t.get (bankState b) = 0 ∧
            t.is FLC.STICKY.PDONE = true ∧ t.get FLC.PSTAT.STATUS = Status.ok) ∧
      (o.kind = 2 → o.queue = none → o.count = o.done + 1 → bankAt o.addr = some b.val →
        Completes (.flashEraseDone b) s fun t =>
          (∀ j, o.addr ≤ j → j < o.addr + sectorSize (sectorOf (o.addr - bankBase b)) → t.byte j = (resetByte j).toNat) ∧
            (t.bank b).op = none ∧ t.is FLC.STICKY.PDONE = true) ∧
      (∀ q : Fin 8, o.kind = 3 → o.queue = some q.val → Completes (.flashBlankDone b) s fun t =>
        (t.bank b).op = none ∧ t.is FLC.STICKY.QDONE = true ∧
          t.get (FLC.QHEAD.IDX.i q) = (s.get (FLC.QHEAD.IDX.i q) + 1) % s.flashRing q % 256) ∧
      (o.noSusp = false → o.asked = true → Completes (.flashSuspended b) s fun t =>
        (∃ x, (t.bank b).op = some x ∧ x.paused = true ∧ x.asked = false) ∧ t.get (bankState b) = 3 ∧
          t.get (ownSusp b) = min (s.get (ownSusp b) + 1) 0xFFFF ∧ SameStore s t)) ∧
    (∀ o, (s.bank b).op = some o → o.paused = true → s.suspHeld b = false → Completes (.flashResume b) s fun t =>
      (t.bank b).op = some { o with paused := false } ∧ t.get (bankState b) = (if o.kind = 1 then 1 else 2) ∧
        (t.bank b).rampTo = t.tb + (if o.kind = 1 then 20 else 200) ∧ SameStore s t) ∧
    (∀ o, (s.bank b).op = some o → o.starved = false → Completes (.flashStarveTimeout b) s fun t =>
      t.is FLC.STICKY.STARVE = true ∧ (t.bank b).op = some { o with starved := true } ∧ SameStore s t) ∧
    (∀ a : Word, s.route i (a.toNat / 4 * 4) false = .mem (a.toNat / 4 * 4) → bankAt (a.toNat / 4 * 4) = some b.val →
      s.ecc.bad = [] → s.ecc.fresh = [] →
      Completes (.flashReadBusyBank i a) s fun t =>
        t.answered i = s.load (a.toNat / 4 * 4) 4 ∧ (t.bank b).readAt = s.tb ∧
          (∀ o, (s.bank b).op = some o → s.is FLC.CTRL.AUTOSUSP = true →
            (t.bank b).op = some { o with asked := !o.noSusp && !o.paused }) ∧ t.regs = s.regs ∧ SameStore s t) ∧
    (Opens s i FLC.CTRL 0 true → Completes (.flashSuspWrite i w) s fun t =>
      t.is FLC.CTRL.SUSPA = w.toNat.testBit 2 ∧ t.is FLC.CTRL.SUSPB = w.toNat.testBit 3 ∧
        t.is FLC.CTRL.AUTOSUSP = w.toNat.testBit 0 ∧ SameStore s t)

/-- The privileged flash path, and the seal and marks of the debug lock: only DN0 in machine mode takes a step (R442, R597, R598,
R600). -/
def Obligations.MachineModeWrites : Prop :=
  ∀ (s : State) (i : Initiator) (w : Word),
    (Opens s i FLC.UNLK 0 true →
      (s.dn0Machine i = true → s.flc.step = 0 → w.toNat % 65536 = 0x7F3A →
        exec (.flashUnlock i w) s = .next { s with flc := { s.flc with step := 1, stepAt := s.tb } }) ∧
      (s.dn0Machine i = true → s.flc.step = 1 → w.toNat % 65536 = 0x2C91 →
        exec (.flashUnlock i w) s = .next { s with flc := { s.flc with step := 2, stepAt := s.tb } }) ∧
      (s.dn0Machine i = false → Completes (.flashUnlock i w) s fun t =>
        t.flc.step = 0 ∧ t.is FLC.STICKY.UNLKREF = true ∧ SameStore s t)) ∧
    (s.dn0Machine i = true → s.is FLC.PSTAT.BUSY = false →
      (Opens s i (FLC.DATA.i 3) 0 true → s.flc.step = 7 → Completes (.privilegedProgram i w) s fun t =>
        t.flc.step = 0 ∧ t.is FLC.PSTAT.BUSY = true ∧ t.is FLC.STAT.PBUSY = true ∧
          ∃ data, t.flc.waits = some (s.get FLC.CMD.OP, s.get FLC.ADDR.VAL, data,
            s.fromRom i && s.is FLC.CMD.NOSUSP, s.fromRom i) ∧ data.drop 12 = leOctets 4 w.toNat) ∧
      (Opens s i FLC.ADDR 0 true → s.flc.step = 3 → s.get FLC.CMD.OP = 2 → Completes (.privilegedErase i w) s fun t =>
        t.flc.step = 0 ∧ t.is FLC.PSTAT.BUSY = true ∧
          ∃ data, t.flc.waits = some (2, w.toNat, data, s.fromRom i && s.is FLC.CMD.NOSUSP, s.fromRom i))) ∧
    (s.flc.step ≠ 0 → s.flc.stepAt + 41 < 2 ^ 64 → Completes .unlockPauseRelock s fun t =>
      t.flc.step = 0 ∧ t.is FLC.STICKY.UNLKREF = true ∧ t.tb = max s.tb (s.flc.stepAt + 41) ∧ SameStore s t) ∧
    (Opens s i DBG.SEAL 0 true →
      (s.dn0Machine i = true → w.toNat % 65536 = 0x5E1D → s.lockState = lockOpen → s.is DBG.STAT.ERASING = false →
        Completes (.sealWrite i w) s fun t => t.lockState = lockSealed ∧ t.word 0x2803FCA0 = lockSealed ∧
          t.word 0x2803FCA4 = 0xFFFFFFFF - lockSealed ∧ t.dbg.breaks = [] ∧ t.dbg.ir = 1) ∧
      (s.dn0Machine i = false → Completes (.sealWrite i w) s fun t =>
        t.is DBG.STICKY.DREF = true ∧ OnlyStuck s t [addrPage DBG.SEAL.key])) ∧
    (∀ r : Fin 6, Opens s i (markFld r) 0 true → s.dn0Machine i = true → s.lockState = lockOpen →
      s.is DBG.STAT.ERASING = false →
      Completes (.secmapWrite i r w) s fun t =>
        t.get (markFld r) = (s.get (markFld r) ||| w.toNat % (if r.val % 3 = 2 then 0x80 else 2 ^ 32)) ∧
          t.word (0x2803FCB0 + 8 * r.val) = t.get (markFld r) ∧
          ∀ j, (j < 0x2803FCB0 + 8 * r.val ∨ 0x2803FCB8 + 8 * r.val ≤ j) → t.byte j = s.byte j)

/-- The test access port, the debugger, and the reload routine (R581, R594, R595). -/
def Obligations.DebugPort : Prop :=
  ∀ (s : State) (c : Fin 2), s.domOn Dom.core = true →
    (exec .tapReset s = .next { s with dbg := { s.dbg with ir := 0x01 } }) ∧
    (exec .idcode s = .next { s with dbg := { s.dbg with ir := 0x01, out := 0x140965CF } }) ∧
    (exec .bypass s = .next { s with dbg := { s.dbg with ir := 0x1F } }) ∧
    (exec .extest s = .next { s with dbg := { s.dbg with ir := if s.portOpen then 0x00 else 0x1F } }) ∧
    (exec .samplePreload s = .next { s with dbg := { s.dbg with ir := if s.portOpen then 0x02 else 0x1F } }) ∧
    (exec .dbgap s = .next { s with dbg := { s.dbg with ir := if s.portOpen then 0x08 else 0x1F } }) ∧
    (s.debugging = true → s.dn.cores.length = 2 →
      (Completes (.debugHalt c) s fun t => t.core c = { s.core c with held := true, step := false } ∧
        t.is DBG.STAT.DBGCONN = true ∧ SameStore s t) ∧
      ((s.core c).held = true → exec (.debugStep c) s = .next (withCore s c { s.core c with step := true })) ∧
      (Completes (.debugResume c) s fun t => t.core c = { s.core c with held := false, step := false } ∧
        (t.is DBG.STAT.DBGCONN = true ↔ ∃ k < 2, (t.core k).held = true) ∧ SameStore s t) ∧
      (∀ (a : Word) (set : Bool), Completes (.debugAccess (.breakpoint c a set) none) s fun t =>
        ((c.val, a.toNat) ∈ t.dbg.breaks ↔ set = true) ∧ t = { s with dbg := t.dbg }) ∧
      (∀ r : Fin 26, Completes (.debugAccess (.control c r) none) s fun t =>
        t.answered .debug = (s.core c).cr c r ∧ t = { s with bus := t.bus }) ∧
      (∀ (a w : Word), 0x20000000 ≤ a.toNat → a.toNat + 4 ≤ 0x20200000 → a.toNat % 4 = 0 →
        s.route .debug a.toNat true = .mem a.toNat → s.ecc.bad = [] → s.ecc.fresh = [] →
        Completes (.debugAccess (.mem a 2) (some w)) s fun t => t.word a.toNat = w.toNat ∧ t.regs = s.regs)) ∧
    (∀ mask ds p rs, Runs s c false → s.dn.cores.length = 2 → (s.core c).pc = s.word 0x200 / 2 * 2 →
      (s.core c).ds = mask :: ds → ds.length < 8 → (s.core c).rs = p :: rs → p < 2 ^ 32 → s.reloadStatus mask ≠ Status.ok →
      LeavesCore (.reloadRoutine c) s c
        { s.core c with pc := p / 2 * 2, ds := s.reloadStatus mask :: ds, rs := rs, step := false }) ∧
    (∀ mask ds p rs, Runs s c false → s.dn.cores.length = 2 → (s.core c).pc = s.word 0x200 / 2 * 2 →
      (s.core c).ds = mask :: ds → ds.length < 8 → (s.core c).rs = p :: rs → p < 2 ^ 32 → s.reloadStatus mask = Status.ok →
      s.upd.code.length = 3 → Completes (.reloadRoutine c) s fun t => SameStore s t ∧
        t.core c = { s.core c with pc := p / 2 * 2, ds := Status.ok :: ds, rs := rs, step := false } ∧
        ∀ k < 3, t.upd.code[k]? = if bitOf mask k = 1 then (match s.imgPart (bankBase s.activeBank) (partShucode + k) with
          | some q => some (s.octets (bankBase s.activeBank + q.1) q.2)
          | none => s.upd.code[k]?) else s.upd.code[k]?)

/-! Received frames. -/

/-- The bytes of a frame, its verdict, and its end with what its code bits say (R120, R126, R128, R132, R133, R144, R147, R164,
R166 to R169). -/
def Obligations.FrameReception : Prop :=
  ∀ (s : State) (n : Fin 128) (f : RxFrame), s.laneFrame n = some f → s.frameAt n f.buf = some f → f.stage = 1 →
    (∀ xs : List (Int × Int), f.octets.length < f.len →
      let g := fedFrame s f xs
      let k := f.octets.length
      24 + 8 * k ≤ g.infoBits.length → Completes (.psduByte n xs) s fun t =>
        inBuffer t n f.buf (fun x => x.octets = f.octets ++ [g.octetAt k] ∧ x.rx = g.rx) ∧ SameStore s t) ∧
    (f.atVerdict = true → f.verdict = none → s.bob.repairs = [] →
      let malformed := f.mac.badFc || f.mac.cut
      let heard := s.viAccepts f.vi f.mac malformed
      (heard = false ∨ 16 ≤ f.vi ∨ malformed = true ∨ f.mac.kind = 2 ∨ f.mac.src = none →
        Completes (.addressVerdict n) s fun t =>
          inBuffer t n f.buf fun x => x.verdict = some ⟨acceptedBy s f, false, 0, 0⟩) ∧
      (∀ a k, heard = true → f.vi < 16 → f.malformed = false → malformed = false → f.mac.kind ≠ 2 → f.mac.src = some a →
        f.mac.sm = 3 → s.findExt f.vi a = some k →
        (s.ctxState k = CtxState.active → Completes (.addressVerdict n) s fun t =>
          inBuffer t n f.buf fun x => x.verdict = some ⟨acceptedBy s f, s.ackWanted f f.mac, 1, k⟩) ∧
        (s.ctxState k = CtxState.superseded → Completes (.addressVerdict n) s fun t =>
          inBuffer t n f.buf fun x => x.verdict = some ⟨acceptedBy s f, false, 2, k⟩) ∧
        (s.ctxState k = CtxState.dead → s.is (BOB.LRN.LEARN.copy f.vi) = false → Completes (.addressVerdict n) s fun t =>
          inBuffer t n f.buf fun x => x.verdict = some ⟨acceptedBy s f, false, 3, 0⟩))) ∧
    (∀ xs : List (Int × Int), f.len ≠ 0 → f.octets.length = f.len → s.dmd.lanes.length = 128 →
      (s.lane n).counts.length = 10 →
      let g := fedFrame s f xs
      let counted (k : Nat) (t : State) := (t.lane n).counts.getD k 0 = min ((s.lane n).counts.getD k 0 + 1) 0xFFFF
      (fcsOf f.fcs2 f.body ≠ f.octets.drop f.total → Completes (.frameEnd n xs () () () ()) s fun t =>
        t.is DMD.STICKY.FCSERR = true ∧ counted 5 t ∧ ¬inBuffer t n f.buf fun _ => True) ∧
      (fcsOf f.fcs2 f.body = f.octets.drop f.total → Completes (.frameEnd n xs () () () ()) s fun t =>
        counted 4 t ∧ (t.lane n).taps = g.rx.taps ∧ t.get (DMD.LSTAT.LQI.i n) = g.rx.lqi (s.rxOf f) ∧
          t.getS (DMD.LSTAT.FO.i n) = clampS (-128) 127 g.rx.offset ∧
          t.getS (DMD.LSTAT.RSSI.i n) = clampS (-128) 127 f.rssi ∧ atBuffer t n f.buf fun x => 2 ≤ x.stage) ∧
      (∀ q, f.coded = true → s.domOn Dom.rxw = true → g.wholeCode = some q → Completes (.frameEnd n xs () () () ()) s fun t =>
        (t.lane n).coded = min ((s.lane n).coded + 1) 0xFFFF ∧
          (t.lane n).diffs = min ((s.lane n).diffs + codeDiffs f.code q) 0xFFFFFFFF ∧
          (endsWell f.code q = false → t.is FEC.STICKY.TAILERR = true)))

/-- The delivery rings: their registers, and a copy of one entry with its descriptor (R183 to R188, R626). -/
def Obligations.DeliveryRings : Prop :=
  ∀ (s : State) (i : Initiator) (v : Fin 16) (w : Word),
    (∀ f, s.firstFor v = some f → s.domOn Dom.mac = true → v.val ∈ f.copies → f.ready = true →
      s.heldByMigration f = false → s.ringFits v = true →
      let data := if v.val = f.vi then f.plain else f.octets
      let slot := s.get (FRM.WRIDX.IDX.copy v) % s.ringSize v
      s.entriesFor v data.length = 1 →
      Completes (.deliveryWrite v) s fun t =>
        t.get (FRM.WRIDX.IDX.copy v) = (s.get (FRM.WRIDX.IDX.copy v) + 1) % s.ringSize v % 2 ^ FRM.WRIDX.IDX.width ∧
          t.is FRM.STICKY.RXAVAIL = true ∧
          t.octets (Base.fram + s.get (FRM.RINGBASE.OFF.copy v) * 32 + 32 * slot) 32 =
            ((descriptorOf f v data.length).flatMap (leOctets 4)).map (· % 256) ∧
          t.octets (Base.fram + s.get (FRM.DATABASE.OFF.copy v) * 256 + s.cellBytes v * slot) data.length =
            data.map (· % 256)) ∧
    (Opens s i FRM.RINGCFG v true → s.is (FRM.RINGCFG.EN.copy v) = false →
      (w.toNat.testBit 31 = false → 4 ≤ w.toNat % 16 → w.toNat % 16 ≤ 10 → Completes (.ringCfgWrite i v w) s fun t =>
        t.get (FRM.RINGCFG.LOG2N.copy v) = w.toNat % 16 ∧
          t.get (FRM.RINGCFG.CELLSZ.copy v) = fieldOf w FRM.RINGCFG.CELLSZ.lo FRM.RINGCFG.CELLSZ.width ∧ SameStore s t) ∧
      (w.toNat.testBit 31 = true → s.get (FRM.RINGCFG.LOG2N.copy v) = w.toNat % 16 →
        s.get (FRM.RINGCFG.CELLSZ.copy v) = fieldOf w FRM.RINGCFG.CELLSZ.lo FRM.RINGCFG.CELLSZ.width →
        (s.ringFits v = true → Completes (.ringCfgWrite i v w) s fun t =>
          t.is (FRM.RINGCFG.EN.copy v) = true ∧ t.get (FRM.WRIDX.IDX.copy v) = 0 ∧ t.get (FRM.RDIDX.IDX.copy v) = 0 ∧
            SameStore s t) ∧
        (s.ringFits v = false → Completes (.ringCfgWrite i v w) s fun t =>
          t.is (FRM.RINGCFG.EN.copy v) = false ∧ t.is FRM.STICKY.RINGERR = true ∧ SameStore s t))) ∧
    (Opens s i FRM.RDIDX v true →
      let rd := s.get (FRM.RDIDX.IDX.copy v)
      let n := s.ringSize v
      w.toNat % 1024 < n → (w.toNat % 1024 + n - rd) % n ≤ (s.get (FRM.WRIDX.IDX.copy v) + n - rd) % n →
      Completes (.rdidxWrite i v w) s fun t => t.get (FRM.RDIDX.IDX.copy v) = w.toNat % 1024 ∧ SameStore s t)

/-- Acknowledgements built and received (R176, R180 to R182, R206). -/
def Obligations.Acknowledgements : Prop :=
  ∀ (s : State) (lane : Fin 128) (buf : Fin 2),
    (∀ (f : RxFrame) (t : Nat), s.frameAt lane buf = some f → f.stage = 3 → f.ackRequired = true → f.ackResolved = false →
      t ≤ s.tb → f.port < 2 → s.txp.chains.length = 2 →
      let c := s.chainPort f.port
      let octets := s.ackOctets f ((f.verdict.map (·.ctx)).getD 0) f.ackCounter
      let late := s.tb * 64 > s.ackTime f - (s.rampTb f.port + 80) * 64
      let ends := s.ackTime f + (airTb f.mode (octets.length + fcsLen f.fcs2) (s.get (FRM.ACKCFG.PRELEN.copy f.vi)) f.coded +
        s.rampTb f.port) * 64
      (¬late → s.shu.disturbed = false → s.pairRuns = true → f.job ≠ 4 → f.job ≠ 5 →
        ends ≤ s.clk.nextTick * 64 → (s.txChain c).direct = false →
        (∀ b, (s.txChain c).freeBuffer = some b → Completes (.ackBuilt lane buf t) s fun u =>
          (u.txChain c).runs = (s.txChain c).runs ++ [{ s.ackRun f octets with buf := b }] ∧ SameStore s u) ∧
        ((s.txChain c).freeBuffer = none → Completes (.ackBuilt lane buf t) s fun u =>
          (u.txChain c).runs = (s.txChain c).runs ∧ u.is TXP.STICKY.NOBUF = true ∧ u.is FRM.STICKY.ACKMISS = true)) ∧
      (late → Completes (.ackBuilt lane buf t) s fun u =>
        (u.txChain c).runs = (s.txChain c).runs ∧ u.is FRM.STICKY.ACKMISS = true ∧ SameStore s u)) ∧
    (∀ f, s.frameAt lane buf = some f → f.stage = 3 → f.awaits = true → f.job ≠ 1 → f.job ≠ 2 →
      s.pairRuns = true →
      (s.shu.waits.all (fun w => !(w.meets f && s.ackVerifies w f)) = true → Completes (.ackMatch lane buf) s fun t =>
        t.is FRM.STICKY.ACKSTRAY = true ∧ t.shu.waits = s.shu.waits ∧ SameStore s t) ∧
      (∀ w, (s.shu.waits.find? fun w => w.meets f && s.ackVerifies w f) = some w →
        s.ctxState (s.waitCtx w) = CtxState.free → s.is (SHU.VISTAT.TSV.copy s.tvi) = false →
        Completes (.ackMatch lane buf) s fun t => ∀ x ∈ t.shu.waits, ¬(x.lane = w.lane ∧ x.desc = w.desc))) ∧
    (∀ w, (s.shu.waits.find? (·.lane == lane.val)) = some w → s.pairRuns = true → s.laneFrame lane = none →
      s.laneState lane ≠ 5 →
      (s.frm.frames.all fun f => !(f.lane == lane.val && f.awaits)) = true →
      Completes (.ackTimeout lane) s fun t =>
        (∀ x ∈ t.shu.waits, ¬(x.lane = w.lane ∧ x.desc = w.desc)) ∧
          (w.ends + 4 * (w.cell.t.rxackd + w.cell.t.ackwait) < 2 ^ 64 →
            w.ends + 4 * (w.cell.t.rxackd + w.cell.t.ackwait) ≤ t.tb))

/-- The cipher engine's frame jobs (R173, R174, R207, R234, R242, R359). -/
def Obligations.FrameJobs : Prop :=
  ∀ (s : State),
    (∀ f, s.domOn Dom.mac = true → s.nextVerify true = some f → s.runsP = false →
      (f.job = 1 → Completes .frameJobStart s fun t => t.sec.frame = some (.verify f.lane f.buf) ∧ t.get SEC.STAT.CLASS = 1 ∧
        (inBuffer t f.lane f.buf fun x => x.job = 2 ∧
          x.secret = if f.secret.isEmpty then s.key.keys.getD f.slot [] else f.secret) ∧ SameStore s t) ∧
      (f.job = 4 → f.mac.fcSup = true ∨ f.ackCounter.isSome = true → Completes .frameJobStart s fun t =>
        t.sec.frame = some (.answer f.lane f.buf) ∧ t.get SEC.STAT.CLASS = 1 ∧
          (inBuffer t f.lane f.buf fun x => x.job = 5) ∧ SameStore s t)) ∧
    (∀ f, s.domOn Dom.mac = true → s.nextVerify true = none → s.nextVerify false = some f → s.sec.frame = none →
      (s.shu.jobs.all fun j => j.stage != 0) = true →
      Completes .frameJobStart s fun t => t.sec.frame = some (.verify f.lane f.buf) ∧
        t.get SEC.STAT.CLASS = (if f.classP then 1 else 2) ∧ (inBuffer t f.lane f.buf fun x => x.job = 2) ∧ SameStore s t) ∧
    (∀ j, s.domOn Dom.mac = true → s.nextVerify true = none → s.nextVerify false = none → s.sec.frame = none →
      (s.shu.jobs.find? (·.stage == 0)) = some j →
      let m := txMac j.octets
      let runs (octets : List Nat) (t : State) := t.sec.frame = some (.secure j.cell) ∧ t.get SEC.STAT.CLASS = 2 ∧
        (∃ x ∈ t.shu.jobs, x.cell = j.cell ∧ x.stage = 1 ∧ x.octets = octets)
      (j.secret ≠ [] → Completes .frameJobStart s (runs j.octets)) ∧
      (j.secret = [] → s.encSlot j.vi j.slot = true → (m.fcSup && !m.asnNonce) = false →
        (m.sec = false ∨ m.ver ≠ 2 → Completes .frameJobStart s (runs j.octets)) ∧
        (m.sec = true → m.ver = 2 → j.ctx < 4096 → m.fcSup = false → s.cx j.ctx Cx.txfc ≠ 0xFFFFFFFF →
          Completes .frameJobStart s (runs (withCounter j.octets m (s.cx j.ctx Cx.txfc)))))) ∧
    (∀ (l b : Nat) (f : RxFrame) (w : Verdict), s.sec.frame = some (.verify l b) → s.frameAt l b = some f →
      f.verdict = some w →
      let r := openFrame f.secret (s.ctxEui w.ctx) f.asn f.mac f.body
      let leaves (dual : Fin 3) (p : RxFrame → Prop) := Completes (.frameVerifyDone dual) s fun t =>
        t.sec.frame = none ∧ atBuffer t l b p ∧ (f.copies ≠ [] → inBuffer t l b p)
      (Completes (.frameVerifyDone 2) s fun t =>
        t.sec.frame = none ∧ t.is SEC.STICKY.DUALMIS = true ∧ t.is SEC.STICKY.DUALFAIL = true ∧
          atBuffer t l b fun x => x.copies = []) ∧
      (∀ dual : Fin 3, dual ≠ 2 → f.awaits = false →
        (r.1 = true → f.mac.badBeacon r.2 f.total f.len = false → s.checkCounter w.ctx f.asn f.mac = .accepted →
          leaves dual fun x => x.stage = 3 ∧ x.status = Status.ok ∧ x.plain = r.2) ∧
        (r.1 = true → f.mac.badBeacon r.2 f.total f.len = false → s.checkCounter w.ctx f.asn f.mac = .stale →
          leaves dual fun x => x.stage = 3 ∧ x.status = Status.counterStale ∧ x.plain = f.octets.take f.mac.hdrEnd) ∧
        (r.1 = false → leaves dual fun x =>
          x.stage = 3 ∧ x.status = Status.micFail ∧ x.plain = f.octets.take f.mac.hdrEnd) ∧
        (r.1 = false → w.res = 2 → Completes (.frameVerifyDone dual) s fun t => t.is BOB.STICKY.SUPERSRX = true) ∧
        (r.1 = true → f.mac.badBeacon r.2 f.total f.len = false → s.checkCounter w.ctx f.asn f.mac = .duplicate →
          Completes (.frameVerifyDone dual) s fun t =>
            t.sec.frame = none ∧ atBuffer t l b fun x => x.copies = [] ∧ x.plain = []))) ∧
    (∀ (k : Nat) (j : TxJob), s.sec.frame = some (.secure k) → (s.shu.jobs.find? (·.cell == k)) = some j →
      (∀ dual : Fin 3, dual ≠ 2 → Completes (.txSecureDone dual) s fun t => t.sec.frame = none ∧
        (∃ x ∈ t.shu.jobs, x.cell = k ∧ x.stage = 2 ∧ x.octets = secureOctets s.ownEui s.shu.asn j) ∧ SameStore s t) ∧
      (Completes (.txSecureDone 2) s fun t => t.sec.frame = none ∧ t.is SEC.STICKY.DUALFAIL = true ∧
        ∀ x ∈ t.shu.jobs, x.cell ≠ k)) ∧
    (∀ (l b : Nat) (f : RxFrame), s.sec.frame = some (.answer l b) → s.frameAt l b = some f →
      ∀ dual : Fin 3, dual ≠ 2 → Completes (.txSecureDone dual) s fun t =>
        t.sec.frame = none ∧ (inBuffer t l b fun x => x.job = 6) ∧ SameStore s t)

/-! The Pattern RAM and the Shuttle. -/

/-- The Pattern RAM, slotframes, the preset and the prefetch (R191 to R193, R195, R197, R198, R216). -/
def Obligations.PatternAndSlotframes : Prop :=
  ∀ (s : State) (i : Initiator) (v : Fin 16) (w : Word), s.shu.pair.stage = 0 →
    (let c := iniCopy i
     let n := s.get (PAT.TADDR.INDEX.copy c)
     s.patOwned v (s.get (PAT.TADDR.AREA.copy c)) n true = true →
      (Opens s i PAT.TDATA0 v true → s.get (PAT.TADDR.AREA.copy c) = 0 → Completes (.patternTdata0Write i v w) s fun t =>
        t.get (PAT.TDATA0.D.copy c) = w.toNat ∧ SameStore s t) ∧
      (Opens s i PAT.TDATA0 v true → s.get (PAT.TADDR.AREA.copy c) = 1 → n < 1024 →
        Completes (.patternTdata0Write i v w) s fun t => t.patWord (hopAt n) = w.toNat % 65536 ∧
          (∀ k, k ≠ hopAt n → t.patWord k = s.patWord k) ∧ t.mem = s.mem) ∧
      (Opens s i PAT.TDATA1 v true → s.get (PAT.TADDR.AREA.copy c) = 0 →
        bits (s.get (PAT.TDATA0.D.copy c)) 30 28 ≤ 3 → bits w.toNat 18 15 ≤ 12 → bits w.toNat 14 13 ≤ 2 →
        (∀ h < 32, s.sfOn h = true → s.sfHas h n = false) →
        Completes (.patternCellCommit i v w) s fun t =>
          t.cellWord n 0 = s.get (PAT.TDATA0.D.copy c) ∧ t.cellWord n 1 = w.toNat / 32 * 32 ∧
            (s.is (PAT.TADDR.AINC.copy c) = true → t.get (PAT.TADDR.INDEX.copy c) = (n + 1) % 8192) ∧
            (∀ k, k ≠ 2 * n → k ≠ 2 * n + 1 → t.patWord k = s.patWord k) ∧ t.mem = s.mem) ∧
      (∀ hi : Bool, Opens s i (if hi then PAT.TDATA1 else PAT.TDATA0) v false → s.get (PAT.TADDR.AREA.copy c) = 0 →
        s.patOwned v 0 n false = true →
        Completes (.patternDataRead i v hi) s fun t => t.answered i = s.cellWord n hi.toNat ∧ SameStore s t)) ∧
    (∀ h : Fin 32, s.sfOn h = false →
      (let len := w.toNat % 4096
       let owner := s.get (PAT.SFCFG.VI.i h)
       Opens s i (PAT.SFCFG.i h) v true → bits w.toNat 27 24 = (if v.val = 0 then owner else 0) → len ≠ 0 →
        s.sfCheck (s.cellWord · 0) h (s.get (PAT.SFRANGE.FIRST.i h)) (s.get (PAT.SFRANGE.COUNT.i h)) len = true →
        s.sfQuota h owner (s.get (PAT.SFRANGE.COUNT.i h)) = true →
        Completes (.slotframeEnable i v h w) s fun t =>
          t.sfOn h = true ∧ t.is (PAT.STAT.EN.bit h) = true ∧ t.get (PAT.SFCFG.LEN.i h) = len ∧
            t.get (PAT.SFCFG.TPL.i h) = bits w.toNat 21 20 ∧ t.get (PAT.SFCFG.VI.i h) = owner ∧ SameStore s t) ∧
      (Opens s i (PAT.SFRANGE.i h) v true → bits w.toNat 13 0 ≤ 8192 →
        (v.val ≠ 0 → s.meetsOthers v (bits w.toNat 28 16) (bits w.toNat 13 0) = false) →
        Completes (.slotframeCfgWrite i v h true w) s fun t =>
          t.get (PAT.SFRANGE.FIRST.i h) = bits w.toNat 28 16 ∧ t.get (PAT.SFRANGE.COUNT.i h) = bits w.toNat 13 0 ∧
            SameStore s t) ∧
      (bits w.toNat 30 26 = h.val → Opens s i PAT.PRESET v true → w.toNat.testBit 31 = true →
        (v.val ≠ 0 → s.get (PAT.SFCFG.VI.i h) = v) → bits w.toNat 10 7 ≤ 12 → bits w.toNat 6 5 ≤ 2 →
        (let n := bits w.toNat 25 13
         s.sfCheck (s.cellsWith n (2 ^ 31 + 2 * 2 ^ 28 + h.val * 8 + 3)) h n 1 (s.get (PAT.SFCFG.LEN.i h)) = true →
          s.sfQuota h v 1 = true →
          Completes (.presetGo i v w) s fun t =>
            t.sfOn h = true ∧ t.get (PAT.SFCFG.VI.i h) = v ∧ t.get (PAT.SFRANGE.FIRST.i h) = n ∧
              t.get (PAT.SFRANGE.COUNT.i h) = 1 ∧ t.cellWord n 0 = 2 ^ 31 + 2 * 2 ^ 28 + h.val * 8 + 3 ∧
              t.get SHU.TPLA.TXOFF = 2120 ∧ t.get SHU.TPLD.PRELEN = 8 ∧ t.mem = s.mem))) ∧
    (s.domOn Dom.mac = true → s.is CLK.CTRL.TICKEN = true → s.is SHU.CTRL.RUN = true → s.shu.runFrom ≤ s.prefetchDue →
      s.clk.gated = false → s.shu.next = none →
      Completes .cellPrefetch s fun t =>
        t.shu.next = some (s.comingAsn, ((List.range 32).flatMap fun h => s.cellsOf h s.comingAsn).take 256) ∧
          t.shu.void = false ∧ s.prefetchDue ≤ t.tb ∧ SameStore s t)

/-- The slot tick outside MAC, the receive windows, the staging of a cell's frame, and the store window (R53, R56, R111, R154,
R201, R219). -/
def Obligations.SlotEvents : Prop :=
  ∀ (s : State) (i : Initiator) (k : Nat) (c : RunCell),
    (∀ temp : Int, s.domOn Dom.core = true → s.is CLK.CTRL.TICKEN = true → s.domOn Dom.mac = false →
      s.domOn Dom.rxn = false → s.clk.record = none →
      Completes (.slotTick temp) s fun t =>
        t.clk.lastTick = s.clk.nextTick ∧ t.clk.asn = s.clk.asnCommit.getD ((s.clk.asn + 1) % 2 ^ 40) ∧
          t.clk.nextTick = ((s.clk.nextTick : Int) + s.get CLK.SLOTLEN.LEN + s.getS CLK.ADJPEND.ADJ).toNat % 2 ^ 64 ∧
          t.clk.asnCommit = none ∧ t.get CLK.ADJPEND.ADJ = 0 ∧ (8, t.tb) ∈ t.stm.pulses ∧ SameStore s t) ∧
    (s.shu.cells[k]? = some c → s.dmd.lanes.length = 128 →
      (c.granted = true → c.closed = false → c.tx = false →
        (∀ n : Fin 128, c.lane = some n.val → Completes (.rxWindowOpen k) s fun t =>
          (t.lane n).isOpen = true ∧ SameStore s t) ∧
        (c.lane = none → c.waits = true → Completes (.rxWindowOpen k) s fun t =>
          t.is DMD.STICKY.NOLANE = true ∧ SameStore s t)) ∧
      (∀ n : Fin 128, c.lane = some n.val → (s.lane n).isOpen = true → (s.lane n).cell = some k →
        Completes (.rxWindowClose k) s fun t =>
          (t.lane n).isOpen = false ∧ t.shu.cells[k]? = some { c with closed := true } ∧ SameStore s t) ∧
      (∀ off buf, c.desc = some off → c.granted = true → c.tx = true → c.loaded = false → s.pairRuns = true → s.ecc.bad = [] →
        s.shu.jobs = [] → (s.txChain (s.portChain c.port)).freeBuffer = some buf → s.txp.chains.length = 2 →
        s.seamAt c.vi off = none →
        Completes (.stagingBufferLoad k) s fun t =>
          (t.txChain (s.portChain c.port)).runs =
            (s.txChain (s.portChain c.port)).runs ++ [{ s.cellRun c (s.descOctets off) with buf }] ∧
            t.shu.cells[k]? = some { c with loaded := true } ∧ t.regs = s.regs ∧ SameStore s t)) ∧
    (∀ (off : Fin 0x80000) (q : Nat), s.route i (Base.bobbin + off) true = .mem q →
      Completes (.bobbinWindowWrite i off) s fun t =>
        t.is BOB.STICKY.WINWR = true ∧ OnlyStuck s t [addrPage BOB.STICKY.WINWR.key])

/-- Queues, and a network joined or formed (R204, R206, R210 to R214). -/
def Obligations.QueuesAndNetworks : Prop :=
  ∀ (s : State) (i : Initiator) (v : Fin 16) (w : Word), s.shu.pair.stage = 0 →
    (let kind := bits w.toNat 31 30
     let off := bits w.toNat 19 3 * 8
     let ctx := s.desc off 2 11 0
     Opens s i (SHU.TXSUB.copy v) v true → kind ≠ 3 → s.inQuota v off 32 = true → s.desc off 0 18 15 ≠ 0 →
      s.inQuota v (s.desc off 1 19 3 * 8) (s.desc off 0 10 0 - fcsLen (s.desc off 2 22 22 == 1)) = true →
      (∀ q ∈ s.shu.queues, q.kind ≠ 0 → q.ctx = 0) →
      (kind ≠ 2 → s.cx ctx Cx.vi = v ∧ s.ctxState ctx ≠ CtxState.free ∧ s.ctxState ctx ≠ CtxState.dead) →
      Completes (.txSubmit i v w) s fun t =>
        (t.queue v kind ctx).descs = (s.queue v kind ctx).descs ++ [{ off := off }] ∧ t.shu.done = s.shu.done) ∧
    (∀ x, Opens s i (SHU.TXDONE.copy v) v false → (s.shu.done.find? (·.1 == v.val)) = some x →
      Completes (.txdonePop i v) s fun t =>
        t.answered i = 2 ^ 31 + x.2.1 * 2 ^ 20 + x.2.2 ∧ t.shu.done = s.shu.done.erase x ∧ t.regs = s.regs ∧ SameStore s t) ∧
    (Opens s i (SHU.VICMD.copy v) v true → v.val = s.tvi →
      (s.slaved = false → Completes (.join i v) s fun t =>
        t.get (SHU.VISTAT.STATE.copy v) = 1 ∧ t.clk = s.clk ∧ SameStore s t) ∧
      (s.slaved = false → s.formLane 0 = true → s.formLane 1 = true → Completes (.form i v) s fun t =>
        t.get (SHU.VISTAT.STATE.copy v) = 2 ∧ t.is CLK.CTRL.TICKEN = true ∧
          t.clk.nextTick = (s.tb + s.get CLK.SLOTLEN.LEN) % 2 ^ 64 ∧ t.clk.asnCommit = some 0 ∧ t.shu.lost = false ∧
          SameStore s t) ∧
      (Completes (.stop i v) s fun t => t.get (SHU.VISTAT.STATE.copy v) = 0 ∧ SameStore s t)) ∧
    (s.pairRuns = true →
      (s.get (SHU.VISTAT.STATE.copy s.tvi) = 2 → s.clk.asnCommit = none →
        s.get (SHU.FORMCFG.LF.copy s.tvi) * s.get (SHU.FORMCFG.FNUM.copy s.tvi) ≤ s.clk.asn →
        Completes .formationComplete s fun t => t.get (SHU.VISTAT.STATE.copy s.tvi) = 3 ∧ SameStore s t) ∧
      (∀ h rest, s.shu.heard = h :: rest →
        (let m := txMac h.octets
         (∀ asn jm at_, s.get (SHU.VISTAT.STATE.copy s.tvi) = 1 → syncIe h.octets m = some (asn, jm, at_) → h.ctx < 4096 →
          Completes .beaconJoin s fun t =>
            t.get (SHU.VISTAT.STATE.copy s.tvi) = 4 ∧ t.get (SHU.VISTAT.TSCTX.copy s.tvi) = h.ctx ∧
              t.is (SHU.VISTAT.TSV.copy s.tvi) = true ∧ t.get (SHU.BCNCFG.JM.copy s.tvi) = min 255 (jm + 1) ∧
              t.shu.heard = rest ∧ t.is CLK.CTRL.TICKEN = true ∧ t.clk.asnCommit = some t.clk.asn) ∧
        (∀ e, 2 ≤ s.get (SHU.VISTAT.STATE.copy s.tvi) → s.get (SHU.VISTAT.STATE.copy s.tvi) ≤ 3 →
          m.sm = 3 → m.src = some e → m.sourcePan = some (s.get (FRM.PANID.PAN.copy s.tvi)) →
          (let mine := s.get (SHU.FORMCFG.PRIO.copy s.tvi) * 2 ^ 64 + s.ownEui
           let theirs := formationPrio (s.get (SHU.FORMOUI.OUI.copy s.tvi)) h * 2 ^ 64 + e
           (theirs = mine → Completes .competingBeacon s fun t =>
             t.is SHU.STICKY.DUPEUI = true ∧ t.shu.heard = rest ∧ t.clk = s.clk ∧ SameStore s t) ∧
           (theirs < mine → Completes .competingBeacon s fun t =>
             t.is SHU.STICKY.COMPETE = true ∧ t.shu.heard = rest ∧ t.clk = s.clk ∧ SameStore s t) ∧
           (mine < theirs → h.ctx < 4096 → Completes .competingBeacon s fun t =>
             t.is SHU.STICKY.COMPETE = true ∧ t.shu.heard = rest ∧ t.shu.lost = true ∧
               t.get (SHU.VISTAT.STATE.copy s.tvi) = 4 ∧ t.get (SHU.VISTAT.TSCTX.copy s.tvi) = h.ctx ∧
               t.beaconDue s.tvi = false))))))
/-! The lockstep pair, the cipher engine and critical commands. -/

/-- RUN, checkpoints, a mismatch and its restore, and injected faults (R334 to R343, R353, R356). -/
def Obligations.LockstepPair : Prop :=
  ∀ (s : State) (i : Initiator),
    (∀ (v : Fin 16) (w : Word), s.shu.pair.stage = 0 → Opens s i SHU.CTRL v true →
      (w.toNat.testBit 0 = true → s.is SHU.CTRL.RUN = false → Completes (.shuttleRunWrite i v w) s fun t =>
        t.is SHU.CTRL.RUN = true ∧ t.is FLT.STAT.PAIRDOWN = false ∧ t.shu.waits = [] ∧
          t.shu.pair.writing = some (s.tb + 103) ∧ t.shu.pair.older = false ∧ SameStore s t) ∧
      (w.toNat.testBit 0 = false → s.is SHU.CTRL.RUN = true → Completes (.shuttleRunWrite i v w) s fun t =>
        t.is SHU.CTRL.RUN = false ∧ t.shu.next = none ∧ t.shu.pair = {})) ∧
    (∀ at_, s.shu.pair.writing = some at_ → Completes (.checkpointWriteDone true) s fun t =>
      t.shu.pair = { s.shu.pair with writing := none, older := true } ∧ t.regs = s.regs ∧ SameStore s t) ∧
    (s.pairRuns = true → 8192 ≤ s.shu.pair.journal → Completes .intermediateCheckpoint s fun t =>
      t.shu.pair.writing = some (s.tb + 103) ∧ t.shu.pair.journal = 0 ∧ t.is FLT.STICKY.CKPTX = true ∧
        t.get FLT.CKPT.CKPTX = min (s.get FLT.CKPT.CKPTX + 1) 0xFFFF ∧ SameStore s t) ∧
    (s.domOn Dom.mac = true → s.is SHU.CTRL.RUN = true →
      (s.shu.pair.stage = 0 → Completes .lockstepMismatch s fun t =>
        t.is FLT.STAT.RESTORING = true ∧ t.shu.pair.stage = 1 ∧ t.shu.pair.since = s.tb ∧ t.shu.disturbed = true) ∧
      (s.shu.pair.stage ≠ 0 → Completes .lockstepMismatch s fun t =>
        t.is SHU.CTRL.RUN = false ∧ t.is FLT.STAT.PAIRDOWN = true ∧ t.is FLT.STICKY.LSFAIL = true)) ∧
    (s.shu.pair.stage = 1 →
      exec .quiesceComplete s = .next { s with shu := { s.shu with pair := { s.shu.pair with stage := 2 } } }) ∧
    (s.domOn Dom.mac = true → s.shu.pair.stage = 2 → s.shu.waits = [] → s.bus.waiting = [] → s.hif.read = none →
      (Completes (.restoreComplete true) s fun t =>
        t.shu.pair.stage = 0 ∧ t.is FLT.STICKY.LSMISM = true ∧ t.get FLT.LASTREC.CASE = s.shu.pair.kind % 16 ∧
          t.get FLT.RECCNT.SHU = min (s.get FLT.RECCNT.SHU + 1) (2 ^ FLT.RECCNT.SHU.width - 1) ∧ SameStore s t) ∧
      (s.bob.repairs = [] → Completes (.restoreComplete false) s fun t =>
        t.is SHU.CTRL.RUN = false ∧ t.is FLT.STAT.PAIRDOWN = true ∧ t.is FLT.STAT.RESTORING = false ∧
          t.is FLT.STICKY.LSFAIL = true)) ∧
    (∀ (what : Fin 3) (n : Fin 4096) (word : Fin 32) (both : Bool), s.domOn Dom.mac = true → (what.val = 1 → linedWord word = true) →
      Completes (.bobbinUeDetect what n word both none) s fun t =>
        t.bob.repairs = s.bob.repairs ++ [⟨what, n, word, s.bothBad what n word both, s.tb⟩] ∧ t.is FLT.STAT.RESTORING = true ∧
          (what.val < 2 → t.is MEM.STICKY.UE = true) ∧ SameStore s t) ∧
    (∀ r l, s.bob.repairs = r :: l → r.both = false → r.what = 1 → s.bus.waiting = [] → s.hif.read = none →
      Completes .bobbinRepairDone s fun t =>
        t.bob.repairs = l ∧ t.is FLT.STICKY.BOBREC = true ∧ t.get FLT.LASTREC.CASE = 5 ∧
          t.get FLT.LASTREC.CTX = r.ctx % 4096 ∧ SameStore s t) ∧
    (Opens s i FLT.INJECT 0 true → s.is FLT.STAT.RESTORING = false →
      (s.is SHU.CTRL.RUN = true →
        exec (.injectShuout i) s = .next { s with shu := { s.shu with pair := { s.shu.pair with inject := true } } }) ∧
      (∀ n : Fin 4096, exec (.injectBobctx i n) s = .next { s with bob := { s.bob with inject := some n.val } }))

/-! The host link, boot and update. -/

/-- The host's transactions (R561 to R567). -/
def Obligations.HostTransactions : Prop :=
  ∀ (s : State) (vi : Fin 16) (x : BitVec 24),
    (∀ a, HostWordAt s vi (x.toNat / 4 * 4) a false → s.hif.fifo = [] →
      (Completes (.rd vi x 1) s fun t => t.hif.out = [(0xA, s.word a)] ∧ t.hif.read = none ∧ t.regs = s.regs ∧ SameStore s t) ∧
      (Completes (.rdf vi x 2) s fun t => t.hif.out = [(0xA, s.word a), (0xA, s.word a)] ∧ t.hif.read = none ∧
        t.regs = s.regs ∧ SameStore s t)) ∧
    (s.domOn Dom.core = true → s.hostRefused vi = true → s.domOn Dom.mac = false → ∀ n, Completes (.rd vi x n) s fun t =>
      t.hif.out = List.replicate n (0x5, 0) ∧ t.is HIF.STICKY.VIREF = true ∧ SameStore s t) ∧
    (∀ (a : Nat) (w w' : Word), HostWordAt s vi (x.toNat / 4 * 4) a true → s.hif.fifo.length < 15 →
      (Completes (.wr vi x [w] [] false) s fun t =>
        t = { s with hif := { s.hif with fifo := s.hif.fifo ++
          [⟨vi, x.toNat / 4 * 4, a, apAt s.apofs a, true, w.toNat⟩] } }) ∧
      (Completes (.wrf vi x [w, w'] [] false) s fun t =>
        t = { s with hif := { s.hif with fifo := s.hif.fifo ++
          [⟨vi, x.toNat / 4 * 4, a, apAt s.apofs a, true, w.toNat⟩,
           ⟨vi, x.toNat / 4 * 4, a, apAt s.apofs a, true, w'.toNat⟩] } })) ∧
    (∀ (w : Word), s.domOn Dom.core = true → s.hif.fifo.length = 16 → s.hostRefused vi = false →
      hostPast vi (x.toNat / 4 * 4) = false → Completes (.wr vi x [w] [] true) s fun t =>
        t.hif.fifo = s.hif.fifo ∧ t.is HIF.STICKY.WROVF = true ∧ t.is HIF.STICKY.ABORT = true ∧ SameStore s t) ∧
    (∀ h l, s.hif.fifo = h :: l → HostWordAt s h.vi h.field h.addr true → Completes .hostFifoWrite s fun t =>
      t.hif.fifo = l ∧ t.word h.addr = h.word % 2 ^ 32 ∧ t.regs = s.regs ∧
        ∀ j, (j < h.addr ∨ h.addr + 4 ≤ j) → t.byte j = s.byte j) ∧
    (s.domOn Dom.core = true →
      (exec .rdsr s = .next { s with hif := { s.hif with out := [(0, s.peek (some (.host 0)) .HIF 0x48 0)] } }) ∧
      (∀ b : Byte, Completes (.seg b) s fun t => t.get HIF.SEG.VAL = b.toNat ∧ OnlyPages s t [addrPage HIF.SEG.VAL.key] ∧
        SameStore s t) ∧
      (∀ op : Byte, op.toNat ∉ [0x0B, 0x0D, 0x32, 0x34, 0x05, 0x31] → s.is HIF.ERRLOG.V = false →
        Completes (.badOpcode op) s fun t =>
          t.is HIF.STICKY.BADOP = true ∧ t.is HIF.ERRLOG.V = true ∧ t.get HIF.ERRLOG.KIND = 1 ∧ t.hif.out = [] ∧
            SameStore s t) ∧
      (∀ r, s.hif.read = some r → Completes .hostWaitTimeout s fun t =>
        t.is HIF.STICKY.WAITTO = true ∧ t.hif.read = none ∧ t.hif.out = s.hif.out ++ List.replicate r.left (0x5, 0) ∧
          SameStore s t))

/-- Booting: RECOVERY by strap, a wake with loaded parts, and the registers of confirmation, of the served image and of the
journal (R577, R580, R584, R585, R587 to R589); naming the bank held is no write of SRV (R626). -/
def Obligations.BootAndUpdate : Prop :=
  ∀ (s : State) (i : Initiator) (w : Word),
    (s.domOn Dom.core = true → s.pwr.restoring = [] → s.upd.migrating = none → s.record 0x2803FCA8 = some 0 →
      s.dn.cores.length = 2 →
      (s.upd.due = some true → s.is SYS.STAT.BOOT0 = true → Completes (.bootSequence none) s fun t =>
        t.get UPD.BOOTSTAT.PATH = 2 ∧ t.upd.due = none ∧ (t.core 0).asleep = true ∧ t.is CPU.STAT.SLEEP0 = true ∧
          t.is (FLC.WPA.S.mapBit 0) = true ∧ SameStore s t) ∧
      (s.upd.due = some false → s.is UPD.BOOTSTAT.WARM = true → s.partsPass s.activeBank = true → s.lease = none →
        s.upd.code.length = 3 → Completes (.bootSequence none) s fun t =>
          t.core 0 = { DnCore.reset 0 with
            pc := bankBase s.activeBank + s.word (bankBase s.activeBank + 20), ds := [1, bankBase s.activeBank] } ∧
            t.get UPD.BOOTSTAT.PATH = 1 ∧ t.upd.due = none ∧ SameStore s t)) ∧
    (Opens s i UPD.HCONF 0 true →
      (∀ r, s.actRecord = some r → s.dn0Machine i = true → w.toNat % 65536 = 0x4846 → bitOf r 1 = 1 → s.ecc.bad = [] →
        Completes (.hconfWrite i w) s fun t =>
          t.is UPD.STICKY.CONFIRMED = true ∧ t.wordBits 0x2803FC80 1 1 = 0 ∧ t.activeBank = s.activeBank) ∧
      (s.dn0Machine i = false → Completes (.hconfWrite i w) s fun t =>
        t.is UPD.STICKY.HREF = true ∧ OnlyStuck s t [addrPage UPD.HCONF.key])) ∧
    (Opens s i UPD.SRV 0 true →
      (w.toNat % 2 = s.get UPD.SRV.BANK → exec (.srvWrite i w) s = .next s) ∧
      (w.toNat % 2 ≠ s.get UPD.SRV.BANK → Completes (.srvWrite i w) s fun t =>
        t.get UPD.SRV.BANK = w.toNat % 2 ∧ t.get UPD.SSTAT.CHECKED = 0 ∧ t.get UPD.SSTAT.STATE = 0 ∧
          (∀ k < 128, t.get (UPD.BMAP.B.i k) = 0) ∧ SameStore s t)) ∧
    (Opens s i UPD.CHKSRC 0 true → Opens s i UPD.CHKCTRL 0 true → s.is UPD.CHKSTAT.BUSY = false →
      (Completes (.manifest i w) s fun t => t.is UPD.CHKSTAT.BUSY = true ∧ t.get UPD.CHKCTRL.OP = 1 ∧
        t.get UPD.CHKSRC.ADDR = w.toNat / 1024 ∧ SameStore s t) ∧
      (Completes (.hlist i) s fun t => t.is UPD.CHKSTAT.BUSY = true ∧ t.get UPD.CHKCTRL.OP = 2 ∧ SameStore s t) ∧
      (∀ k : Fin 4096, Completes (.block i w k) s fun t => t.is UPD.CHKSTAT.BUSY = true ∧ t.get UPD.CHKCTRL.OP = 3 ∧
        t.get UPD.CHKCTRL.CBLK = k ∧ t.get UPD.CHKSRC.ADDR = w.toNat / 1024 ∧ SameStore s t)) ∧
    (s.is UPD.CHKSTAT.BUSY = true → s.domOn Dom.core = true →
      (let base := bankBase (s.get UPD.SRV.BANK)
       let good := s.manifestOk base (some (s.get UPD.SRV.BANK))
       s.get UPD.CHKCTRL.OP = 1 → s.get UPD.CHKSRC.ADDR * 1024 = base → s.ecc.bad = [] →
        Completes .imageCheckDone s fun t => t.is UPD.CHKSTAT.BUSY = false ∧
          t.get UPD.CHKSTAT.STATUS = (if good then Status.ok else Status.authFail) ∧
          t.get UPD.SSTAT.STATE = (if good then 1 else s.get UPD.SSTAT.STATE) ∧
          (good = true → t.get UPD.IMGID.VER = s.word (base + 8) ∧ t.is (UPD.BMAP.B.mapBit 0) = true) ∧ SameStore s t) ∧
      (s.get UPD.CHKCTRL.OP = 2 → s.get UPD.SSTAT.STATE ≠ 1 → Completes .imageCheckDone s fun t =>
        t.is UPD.CHKSTAT.BUSY = false ∧ t.get UPD.CHKSTAT.STATUS = Status.rsvdOp ∧
          t.get UPD.SSTAT.STATE = s.get UPD.SSTAT.STATE ∧ SameStore s t)) ∧
    (∀ (off : Fin 0x8000) (v : BitVec 64), s.jstate = 1 → 0x4000 ≤ off.val * 8 → off.val * 8 < 0x36800 →
      s.jcount ≠ s.word (s.runningImage + 28) / 16 →
      Opens s (.core 0) UPD.JADDR 0 true → Opens s (.core 0) UPD.JDLO 0 true → Opens s (.core 0) UPD.JDHI 0 true →
      Opens s (.core 0) UPD.JCTRL 0 true →
      Completes (.journalWrite (.core 0) off v) s fun t => t.bytes (0x28000000 + off.val * 8) 8 = v.toNat)

/-! Bobbin. -/

/-- The states of a context: the sweep, NOACKMAX, and rejoin-only (R228 to R231, R246, R247). -/
def Obligations.ContextStates : Prop :=
  ∀ (s : State) (i : Initiator) (n : Fin 4096) (w : Word),
    (s.domOn Dom.mac = true → s.is SHU.CTRL.RUN = true → s.is BOB.CTRL.SWEEP = true → s.bob.restart = [] →
      (s.ctxHeld.filter fun n => n / 256 == s.clk.asn % 16) = [n.val] → OwnsCtx s (s.cx n Cx.vi) n →
      let silence := (s.clk.asn + 2 ^ 40 - (s.cx n Cx.lastAsnH * 2 ^ 32 + s.cx n Cx.lastAsn)) % 2 ^ 40
      (s.ctxState n = CtxState.active → s.get BOB.SUSP.SUSPN ≤ silence → silence < s.get BOB.DEAD.DEADN →
        Completes .livenessSweep s fun t =>
          t.ctxState n = CtxState.suspect ∧ t.is BOB.STICKY.SUSPECT = true ∧ OnlyCtx s t n) ∧
      (s.ctxState n = CtxState.active ∨ s.ctxState n = CtxState.suspect → s.get BOB.DEAD.DEADN ≤ silence →
        Completes .livenessSweep s fun t =>
          t.ctxState n = CtxState.dead ∧ t.is BOB.STICKY.DEAD = true ∧ OnlyCtx s t n) ∧
      (s.ctxState n = CtxState.learning → s.get BOB.DEAD.DEADN ≤ silence →
        Completes .livenessSweep s fun t => t.ctxState n = CtxState.free ∧ OnlyCtx s t n) ∧
      (silence < s.get BOB.DEAD.DEADN → s.ctxState n ≠ CtxState.active → exec .livenessSweep s = .next s)) ∧
    (s.domOn Dom.mac = true → s.ctxState n = CtxState.active → s.get BOB.SUSP.NOACKMAX ≤ s.cx n Cx.noackRun →
      Completes (.noackmaxReached n) s fun t =>
        t.ctxState n = CtxState.suspect ∧ t.is BOB.STICKY.SUSPECT = true ∧ OnlyCtx s t n) ∧
    (Opens s i BOB.CTRL 0 true →
      (w.toNat.testBit 2 = false → s.is BOB.CTRL.RJONLY = false → Completes (.rjonlySet i w) s fun t =>
        t.is BOB.CTRL.RJONLY = true ∧ t.is BOB.STAT.RJCONF = false ∧ t.bob = { s.bob with leaseNow := true } ∧
          SameStore s t) ∧
      (w.toNat.testBit 1 = false →
        (s.is BOB.STAT.RJCONF = true → Completes (.rjclr i w) s fun t =>
          t.is BOB.CTRL.RJONLY = false ∧ t.is BOB.STAT.RJCONF = false ∧ SameStore s t) ∧
        (s.is BOB.STAT.RJCONF = false → Completes (.rjclr i w) s fun t =>
          t.get BOB.CTRL.RJONLY = s.get BOB.CTRL.RJONLY ∧ t.is BOB.STICKY.CMDREF = true ∧ SameStore s t)))

/-- The commands of BOB.CMD (R254, R255). -/
def Obligations.ContextCommands : Prop :=
  ∀ (s : State) (i : Initiator) (v : Fin 16) (n : Fin 4096), TakesBob s i v →
    (∀ k : Nat, k < 4096 →
      let eui := s.ctxArg v 1 * 2 ^ 32 + s.ctxArg v 0
      let pan := bits (s.ctxArg v 2) 31 16
      let short := bits (s.ctxArg v 2) 15 0
      let a := s.ctxArg v 3
      s.extTaken v eui = false → s.shortTaken none v pan short = false → s.ctxFree = some k →
      s.ctxUse v < s.get (ten VIF.TENB0.CTXQ v) →
      (eui ≠ 0 → (placeKey s.bob.hashKey (extKey v eui) s.bob.extKeys).isSome = true) →
      (short < 0xFFFE → (placeKey s.bob.hashKey (shortKey v pan short) s.bob.shortKeys).isSome = true) →
      Completes (.alloc i v) s fun t =>
        t.ctxState k = (if bitOf a 31 = 1 then CtxState.active else CtxState.learning) ∧ t.ctxEui k = eui ∧
          t.cx k Cx.pan = pan ∧ t.cx k Cx.short = short ∧ t.cx k Cx.vi = v ∧ t.cx k Cx.ksv = bitOf a 30 ∧
          t.cx k Cx.keySlot = bits a 5 0 ∧ BobEnds t v k Status.ok ∧ OnlyCtx s t k) ∧
    (OwnsCtx s v n →
      (s.ctxState n = CtxState.learning ∨ s.ctxState n = CtxState.dead → Completes (.contextActivate i v n) s fun t =>
        t.ctxState n = CtxState.active ∧ BobEnds t v n Status.ok ∧ OnlyCtx s t n) ∧
      (let pan := bits (s.ctxArg v 2) 31 16
       let short := bits (s.ctxArg v 2) 15 0
       keepsShort (s.ctxState n) = true → s.ctxState n ≠ CtxState.migrating →
        s.shortTaken (some n.val) v pan short = false →
        (short < 0xFFFE → (placeKey s.bob.hashKey (shortKey v pan short) s.bob.shortKeys).isSome = true) →
        Completes (.setshort i v n) s fun t =>
          t.cx n Cx.pan = pan ∧ t.cx n Cx.short = short ∧ BobEnds t v n Status.ok ∧ OnlyCtx s t n) ∧
      (let a := s.ctxArg v 3
       Completes (.setkey i v n) s fun t =>
        t.cx n Cx.ksv = bitOf a 30 ∧ t.cx n Cx.keySlot = bits a 5 0 ∧
          (s.cx n Cx.keySlot ≠ bits a 5 0 → t.cx n Cx.rxfc = 0 ∧ t.cx n Cx.txfc = 0 ∧ t.cx n Cx.rxfcv = 0) ∧
          BobEnds t v n Status.ok ∧ OnlyCtx s t n) ∧
      (ctxLive (s.ctxState n) = true → Completes (.decldead i v n) s fun t =>
        t.ctxState n = CtxState.dead ∧ t.is BOB.STICKY.DEAD = true ∧ BobEnds t v n Status.ok ∧ OnlyCtx s t n) ∧
      (ctxLive (s.ctxState n) = true ∨ s.ctxState n = CtxState.dead →
        (bitOf (s.ctxArg v 0) 31 = 0 → Completes (.supersede i v n) s fun t =>
          t.ctxState n = CtxState.superseded ∧ t.cx n Cx.short = 0xFFFE ∧ BobEnds t v n Status.ok ∧ OnlyCtx s t n) ∧
        (let m := bits (s.ctxArg v 0) 11 0
         bitOf (s.ctxArg v 0) 31 = 1 → m ≠ n → s.spareOk v m = true → Completes (.supersede i v n) s fun t =>
          t.ctxState n = CtxState.superseded ∧ t.cx n Cx.short = 0xFFFE ∧ t.cx m Cx.short = s.cx n Cx.short ∧
            t.cx m Cx.pan = s.cx n Cx.pan ∧ BobEnds t v n Status.ok)) ∧
      (s.ctxState n ≠ CtxState.migrating → Completes (.free i v n) s fun t =>
        (∀ a, ctxAddr n ≤ a → a < ctxAddr (n + 1) → t.byte a = 0) ∧ BobEnds t v n Status.ok ∧ OnlyCtx s t n) ∧
      (Completes (.clrcol i v n) s fun t =>
        t.cx n Cx.collide = 0 ∧ t.cx n Cx.mfCnt = 0 ∧ BobEnds t v n Status.ok ∧ OnlyCtx s t n) ∧
      (v.val = s.tvi → ctxLive (s.ctxState n) = true → Completes (.setts i v n) s fun t =>
        t.get (SHU.VISTAT.TSCTX.copy v) = n ∧ t.is (SHU.VISTAT.TSV.copy v) = true ∧ BobEnds t v n Status.ok ∧
          SameStore s t) ∧
      (let h := bits (s.ctxArg v 2) 7 0 * 2 ^ 32 + s.ctxArg v 1
       s.is CLK.STAT.CASSYNC = true → ctxLive (s.ctxState n) = true → s.cx n Cx.pending = 0 → s.clk.asn + 2 ≤ h →
        Completes (.handover i v n) s fun t =>
          t.bob.handovers = s.bob.handovers.filter (·.1 != n.val) ++ [(n.val, 0)] ∧ t.migSlot n = h ∧
            t.cx n Cx.migDst = bits (s.ctxArg v 0) 2 0 ∧ BobEnds t v n Status.ok ∧ OnlyCtx s t n) ∧
      (Completes (.read i v n) s fun t =>
        (∀ k < 32, t.get ((BOB.CTXBUF.W.i k).copy v) = s.word (ctxAddr n + 4 * k)) ∧ BobEnds t v n Status.ok ∧
          SameStore s t)) ∧
    (s.ctxState n = CtxState.free ∨ s.cx n Cx.vi ≠ v →
      ∀ x ∈ [Instr.contextActivate i v n, .setshort i v n, .setkey i v n, .decldead i v n, .supersede i v n, .free i v n,
        .clrcol i v n, .setts i v n, .handover i v n, .read i v n],
      Completes x s fun t => BobEnds t v n Status.prot ∧ SameStore s t) ∧
    (∀ k : Nat, k < 4096 → s.ctxFree = some k → s.ctxUse v < s.get (ten VIF.TENB0.CTXQ v) →
      s.extTaken v (s.ctxArg v 1 * 2 ^ 32 + s.ctxArg v 0) = true ∨
        s.shortTaken none v (bits (s.ctxArg v 2) 31 16) (bits (s.ctxArg v 2) 15 0) = true →
      Completes (.alloc i v) s fun t =>
        BobEnds t v 0 Status.rsvdOp ∧ t.is BOB.STICKY.CMDREF = true ∧ SameStore s t)

/-! The lamp drive. -/

/-- A channel's enable, windows, soft start, diagnosis and retries (R485, R486, R489, R491 to R494). -/
def Obligations.LampChannels : Prop :=
  ∀ (s : State) (i : Initiator) (n : Fin 4), s.lmp.ch.length = 4 →
    (∀ en : Bool, Opens s i (LMP.CHCTRL.i n) 0 true → (s.lamp n).ovr = none → s.is (LMP.CHCTRL.EN.i n) ≠ en →
      (en = true → s.lampState n = 0 → Completes (.channelEnWrite i n en) s fun t =>
        t.is (LMP.CHCTRL.EN.i n) = true ∧ t.lampState n = (if s.lampHeld then 0 else 1) ∧ SameStore s t) ∧
      (en = false → s.lampState n < 5 → Completes (.channelEnWrite i n en) s fun t =>
        t.is (LMP.CHCTRL.EN.i n) = false ∧ t.lampState n = 0 ∧
          (3 ≤ s.lampState n → t.get (LMP.CHSTAT.RETRIES.i n) = 0) ∧ SameStore s t)) ∧
    (∀ sense : Nat, s.lampState n = 1 ∨ s.lampState n = 2 → (s.lamp n).ovr = none →
      let cfg := (s.reg (LMP.CHCFG.i n).key).toNat
      let start := firstWindow s.lmp.origin (bits cfg 15 13) (bits cfg 12 11) (s.lamp n).winEnd
      Completes (.dimWindowStart n sense) s fun t =>
        (t.lamp n).duty = s.get (LMP.LEVEL.DUTY.i n) ∧ (t.lamp n).adim = s.get (LMP.LEVEL.ADIM.i n) ∧
          (t.lamp n).cfg = cfg ∧ (t.lamp n).winEnd = start + windowPeriod (bits cfg 15 13) ∧
          t.lampState n = s.lampState n ∧ (s.lampState n = 2 → s.get (LMP.LEVEL.DUTY.i n) ≠ 0 → (s.lamp n).probing = false →
            (s.lamp n).waiting = false → (t.lamp n).windows = (s.lamp n).windows + 1 ∧ (t.lamp n).seen =
              ((s.lamp n).seen || decide (s.get (LMP.PROT.OPENTH.i n) * 500 < sense))) ∧ SameStore s t) ∧
    (∀ at_, (s.lamp n).ssFrom = some at_ → s.lampState n = 1 → Completes (.softStartEnd n) s fun t =>
      t.lampState n = 2 ∧ t.get (LMP.CHSTAT.DIAG.i n) = 0 ∧ (t.lamp n).onAt = t.tb ∧ SameStore s t) ∧
    (s.justFaulted n = true → (s.beforeFault n).lampDrives n = true → ∀ x : Nat, (s.beforeFault n).rampLevel n ≤ x →
      Completes (.rampshortTrip n x) s fun t =>
        t.lampState n = (if s.get LMP.RETRYMAX.N ≤ s.get (LMP.CHSTAT.RETRIES.i n) then 4 else s.lampState n) ∧
          t.get (LMP.FLOG.KIND.i n) = min (s.get (LMP.FLOG.KIND.i n)) 1 ∧ t.is LMP.STICKY.RAMPSHORT = true ∧
          (t.lamp n).onlyHot = false ∧ SameStore s t) ∧
    (s.lampRuns n = true → ∀ x : Nat,
      (s.lampDrives n = true → s.rampLevel n ≤ x → Completes (.rampshortTrip n x) s fun t => LampFaulted s t n 1) ∧
      (s.lampDrives n = false ∨ x < s.rampLevel n → exec (.rampshortTrip n x) s = .next s) ∧
      (s.lampState n = 2 → x < s.get (LMP.PROT.SHORTTH.i n) * 10 → Completes (.shortDetect n x) s fun t =>
        LampFaulted s t n 2 ∧ t.get (LMP.CHSTAT.VFB.i n) = x % 4096) ∧
      (s.get (LMP.PROT.OVPTH.i n) * 10 < x → Completes (.ovpDetect n x) s fun t =>
        LampFaulted s t n 4 ∧ t.get (LMP.CHSTAT.VFB.i n) = x % 4096)) ∧
    (s.lampState n = 2 →
      (6000 ≤ (s.lamp n).conduct → (s.lamp n).seen = true → Completes (.openDiagDecision n) s fun t =>
        t.get (LMP.CHSTAT.DIAG.i n) = 1 ∧ (t.lamp n).conduct = 0 ∧ t.lampState n = 2 ∧ SameStore s t) ∧
      (6000 ≤ (s.lamp n).conduct → (s.lamp n).seen = false → Completes (.openDiagDecision n) s fun t =>
        LampFaulted s t n 3) ∧
      ((s.lamp n).conduct < 6000 → 16 ≤ (s.lamp n).windows → s.is (LMP.PROBE.CH.bit n) = false →
        Completes (.openDiagDecision n) s fun t =>
          t.get (LMP.CHSTAT.DIAG.i n) = 3 ∧ (t.lamp n).windows = 0 ∧
            (s.get (LMP.CHSTAT.DIAG.i n) ≠ 3 → t.is LMP.STICKY.OPENUNV = true) ∧ SameStore s t) ∧
      (s.is (LMP.PROBE.CH.bit n) = true → Completes (.probeDue n) s fun t =>
        (t.lamp n).probing = true ∧ (t.lamp n).probeAt = (s.lamp n).probeAt + s.get LMP.PROBEINT.I * 400000 ∧
          t.regs = s.regs ∧ SameStore s t) ∧
      (Completes (.onFaultFree10s n) s fun t => t.get (LMP.CHSTAT.RETRIES.i n) = 0 ∧ t.lampState n = 2 ∧ SameStore s t)) ∧
    (s.lampState n = 3 → s.lampHeld = false → Completes (.retryDelayExpire n) s fun t =>
      t.lampState n = 1 ∧ t.get (LMP.CHSTAT.RETRIES.i n) =
        (if (s.lamp n).onlyHot then s.get (LMP.CHSTAT.RETRIES.i n) else min (s.get (LMP.CHSTAT.RETRIES.i n) + 1) 15) ∧
        SameStore s t)

/-- Holds by heat, by the LMPEN ball and by the gate supply; overrides; relays (R37, R487, R488, R491, R495 to R497, R500). -/
def Obligations.LampHoldsAndRelays : Prop :=
  ∀ (s : State) (i : Initiator),
    (∀ mv : Nat, s.domOn Dom.lamp = true →
      (s.is LMP.NTCCFG.NTCEN = true → s.is LMP.STAT.NTCHOT = false → mv < s.get LMP.NTCCFG.NTCTH * 4 →
        Completes (.ntcHot mv) s fun t => t.is LMP.STAT.NTCHOT = true ∧ t.get LMP.NTCV.MV = mv % 4096 ∧
          (∀ n < 4, s.lampRuns n = true → LampFaulted s t n 5) ∧ SameStore s t) ∧
      (s.is LMP.STAT.NTCHOT = true → (s.get LMP.NTCCFG.NTCTH + s.get LMP.NTCCFG.NTCHYS) * 4 < mv →
        Completes (.ntcCool mv) s fun t => t.is LMP.STAT.NTCHOT = false ∧
          (∀ n < 4, s.lampState n = 0 → s.lampWanted n = true → s.lampHeldHard = false → s.reachable Dom.lamp = true →
            t.lampState n = 1) ∧ SameStore s t)) ∧
    (∀ level : Bool, Completes (.lmpenChange level) s fun t => t.lmp.enBall = level ∧
      (level = false → s.is LMP.CTRL.ENPIN = true → s.reachable Dom.lamp = true → ∀ n < 4,
        (s.lampState n = 1 ∨ s.lampState n = 2) → t.lampState n = 0) ∧ SameStore s t) ∧
    (∀ mv : Nat, Completes (.vgdChange mv) s fun t => t.lmp.vgdOk = decide ((if s.lmp.vgdOk then 9000 else 9500) ≤ mv) ∧
      t.lmp.vgdHere = decide (3000 ≤ mv) ∧
      (mv < 9000 → s.reachable Dom.lamp = true → (s.lmp.vgdOk = true → t.is LMP.STICKY.VGDUV = true) ∧
        ∀ n < 4, (s.lampState n = 1 ∨ s.lampState n = 2) → t.lampState n = 0) ∧ SameStore s t) ∧
    (∀ (n : Fin 4) (o : LampOvr) (at_ : Nat), (s.lamp n).ovr = some o → o.ends = some at_ →
      Completes (.overrideExpire n) s fun t =>
        (t.lamp n).ovr = none ∧ t.is (LMP.CHSTAT.OVR.i n) = false ∧ t.is LMP.STICKY.OVR = true ∧ SameStore s t) ∧
    (∀ r : Fin 2, s.lmp.relay.length = 2 →
      (∀ x ∈ [(1, Instr.relaySet i r), (2, .relayReset i r)], Opens s i LMP.RLYCTRL 0 true →
        (s.get SYS.ROLE.VAL = 0 → exec x.2 s = .next s) ∧
        (s.get SYS.ROLE.VAL ≠ 0 →
          ((s.relay r).pulse.isSome = true ∨ (s.relay r).waits.isSome = true → Completes x.2 s fun t =>
            t.is LMP.STICKY.RLYBUSY = true ∧ t.lmp = s.lmp ∧ SameStore s t) ∧
          ((s.relay r).pulse = none → (s.relay r).waits = none → (s.relay (1 - r.val)).pulse.isSome = true →
            Completes x.2 s fun t => (t.relay r).waits = some x.1 ∧ (t.relay r).pulse = none ∧
              t.is (relayFld r).2.1 = true ∧ SameStore s t) ∧
          ((s.relay r).pulse = none → (s.relay r).waits = none → (s.relay (1 - r.val)).pulse = none →
            (s.relay (1 - r.val)).waits = none → Completes x.2 s fun t =>
              (t.relay r).pulse = some (x.1, s.tb) ∧ t.is (relayFld r).1 = true ∧ SameStore s t))) ∧
      (∀ dir at_, (s.relay r).pulse = some (dir, at_) → Completes (.relayPulseEnd r) s fun t =>
        (t.relay r).pulse = none ∧ t.is (relayFld r).1 = false ∧ t.get (relayFld r).2.2 = dir % 4 ∧
          t.lmp.pulseEnd = t.tb ∧ SameStore s t) ∧
      (∀ dir, (s.relay r).waits = some dir → (s.relay (1 - r.val)).pulse = none → (s.relay (1 - r.val)).waits = none →
        s.reachable Dom.lamp = true →
        (s.get SYS.ROLE.VAL ≠ 0 → Completes (.relayWaitStart r) s fun t =>
          t.relay r = { pulse := some (dir, t.tb), waits := none } ∧ t.is (relayFld r).1 = true ∧
            t.is (relayFld r).2.1 = false ∧ SameStore s t) ∧
        (s.get SYS.ROLE.VAL = 0 → exec (.relayWaitStart r) s = .next s)))

/-! The Denat cores. -/

/-- The stack instructions with their operands in registers (R411): the two stacks, the PC, nothing else. -/
def Obligations.StackInstructions : Prop :=
  ∀ (s : State) (c : Fin 2) (x y z : Nat) (l r : List Nat), Runs s c false → l.length ≤ 5 → r.length ≤ 6 →
    LeavesCore (.nop c) s c (advanced s c 2) ∧
    ((s.core c).ds = x :: l →
      LeavesCore (.dup c) s c { advanced s c 2 with ds := x :: x :: l } ∧
      LeavesCore (.drop c) s c { advanced s c 2 with ds := l } ∧
      (∀ h : x % 64 < l.length, LeavesCore (.pick c) s c { advanced s c 2 with ds := l[x % 64] :: l })) ∧
    ((s.core c).ds = x :: y :: l →
      LeavesCore (.swap c) s c { advanced s c 2 with ds := y :: x :: l } ∧
      LeavesCore (.overTop c) s c { advanced s c 2 with ds := y :: x :: y :: l } ∧
      LeavesCore (.nip c) s c { advanced s c 2 with ds := x :: l } ∧
      LeavesCore (.tuck c) s c { advanced s c 2 with ds := x :: y :: x :: l }) ∧
    ((s.core c).ds = x :: y :: z :: l →
      LeavesCore (.rot c) s c { advanced s c 2 with ds := z :: x :: y :: l }) ∧
    ((s.core c).ds = x :: l → (s.core c).rs = r →
      LeavesCore (.toR c) s c { advanced s c 2 with ds := l, rs := x :: r } ∧
      LeavesCore (.doLoop c) s c { advanced s c 2 with ds := l, rs := x :: r }) ∧
    ((s.core c).ds = l → (s.core c).rs = x :: r →
      LeavesCore (.rFrom c) s c { advanced s c 2 with ds := x :: l, rs := r } ∧
      LeavesCore (.rFetch c) s c { advanced s c 2 with ds := x :: l } ∧
      LeavesCore (.rdrop c) s c { advanced s c 2 with rs := r })

/-! The block as a whole. -/

/-- A step runs the command at the front of the queue on the state with the queue's rest; with no command waiting one TB unit
passes while CORE is on, and otherwise nothing changes (the idle step is the model's choice, notes/assumptions/1.md). -/
def Obligations.StepRunsFrontCommand : Prop :=
  (∀ (c : Instr) (rest : List Instr) (s : State), s.pending = c :: rest → step s = exec c { s with pending := rest }) ∧
  (∀ s : State, s.pending = [] →
    (s.clk.savedTb = none → s.pwr.inReset = false →
      step s = .next { s with clk := { s.clk with tb := (s.clk.tb + 1) % 2 ^ 64 } }) ∧
    (s.clk.savedTb ≠ none ∨ s.pwr.inReset = true → step s = .next s))

/-- Every command completes in every state, and leaves the commands that wait as they were. -/
def Obligations.EveryCommandCompletes : Prop :=
  ∀ (c : Instr) (s : State), Completes c s fun t => t.pending = s.pending

/-- Every step keeps memory, the register file and the Pattern RAM in canonical form. -/
def Obligations.StepKeepsCanonicalForm : Prop :=
  ∀ s t : State, s.wf = true → step s = .next t → t.wf = true

/-- After a device reset the stores are in canonical form, and no command waits. -/
def Obligations.ResetIsCanonical : Prop := State.reset.wf = true ∧ State.reset.pending = []

/-- After a device reset every register of every table, in every copy, holds the value its table states (R27). -/
def Obligations.ResetValues : Prop :=
  ∀ (p : Page) (d : RegDesc), d ∈ p.table → ∀ n < d.count, ∀ c : Nat,
    State.reset.reg (pageBase + p.code * 0x1000 + d.off + d.stride * n + 0x100000000 * c) = BitVec.ofNat 32 d.reset

/-- A read of CLK.TBLO returns TB[31:0] and copies TB[63:32] into the reader's own shadow, which its read of CLK.TBHI returns;
the host link's virtual interfaces have one shadow, every two other initiators have two; a recorder sample reads none and
changes none (R52). -/
def Obligations.TimeBaseShadows : Prop :=
  ∀ (s : State) (i j : Initiator),
    (Opens s i CLK.TBLO 0 false → Completes (.tbloRead i) s fun t =>
      t.answered i = s.tb % 2 ^ 32 ∧ t.peek (some i) .CLK 0x44 0 = s.tb / 2 ^ 32 % 2 ^ 32 ∧
        (iniCopy j ≠ iniCopy i → t.peek (some j) .CLK 0x44 0 = s.peek (some j) .CLK 0x44 0)) ∧
    (iniCopy i = iniCopy j ↔ i = j ∨ ∃ v w, i = .host v ∧ j = .host w) ∧
    s.peek none .CLK 0x44 0 = 0 ∧
    (∀ t, exec .recorderTrigger s = .next t → t.peek (some i) .CLK 0x44 0 = s.peek (some i) .CLK 0x44 0)

/-- LOWSOC is set each time SOC falls through LOWTH while ANCH is 1, by a write of CHG, by counted charge and by a re-anchoring,
and by none of them where SOC does not fall through it (R517). -/
def Obligations.LowCharge : Prop :=
  ∀ (s : State) (i : Initiator), s.is GAU.STAT.ANCH = true → s.get GAU.LOWTH.SOC ≤ s.get GAU.SOC.VAL →
    let cap := max 1 (s.get GAU.CFG.CAP)
    let low := s.get GAU.LOWTH.SOC
    (∀ w : Word, Opens s i GAU.CHG.UAH 0 true → w.toNat ≤ s.get GAU.CFG.CAP * 1000 → w.toNat ≠ s.get GAU.CHG.UAH →
      Completes (.chgWrite i w) s fun t => t.is GAU.STICKY.LOWSOC = (s.is GAU.STICKY.LOWSOC || w.toNat / cap < low)) ∧
    (∀ x : Int, s.domOn Dom.mtr = true → s.is GAU.CTRL.EN = true →
      let total : Int := (s.get GAU.CHG.UAH * 36000 + s.gau.frac : Nat) + x
      0 ≤ total → total < 36000 * 2 ^ 32 → Completes (.gaugeChargeCount [x]) s fun t =>
        t.is GAU.STICKY.LOWSOC = (s.is GAU.STICKY.LOWSOC || total.toNat / 36000 / cap < low)) ∧
    (∀ mv : Nat, s.domOn Dom.mtr = true → s.get GAU.REST.RESTMIN ≤ s.get GAU.RESTT.MIN →
      Completes (.gaugeReanchor mv) s fun t =>
        t.is GAU.STICKY.LOWSOC = (s.is GAU.STICKY.LOWSOC || s.socOf mv * s.get GAU.CFG.CAP / cap < low))

/-- An access to a page whose domain is off or not yet restored, at its own address or in a window, reads 0, ignores writes, sets
DOMOFF, and wakes no domain (R41). An initiator bound to a virtual interface is judged first (R300). -/
def Obligations.DomainOff : Prop :=
  ∀ (s : State) (i : Initiator) (a : Word) (w : Option Word) (p : Page) (off : Nat), off < 0x1000 → s.pageOn p off = false →
    (s.boundTo i = 0 ∨ s.boundReaches i (s.boundTo i) (a.toNat / 4 * 4) w.isSome = true) →
    (a.toNat / 4 * 4 = pageBase + p.code * 0x1000 + off ∨
      ∃ v n, v < 16 ∧ n < 0x80 ∧ viewPage n = some p ∧
        a.toNat / 4 * 4 = Base.window + v * 0x100000 + n * 0x1000 + off) →
    Completes (.domainOffAccess i a w) s fun t =>
      t.is SYS.STICKY.DOMOFF = true ∧ (w = none → t.answered i = 0) ∧ OnlyPages s t [0x00] ∧ SameStore s t ∧
        t.pwr = s.pwr ∧ ∀ d, t.domOn d = s.domOn d

/-- No command but one that stores something changes memory, and of those only three change the Pattern RAM. -/
def Obligations.MemoryUntouched : Prop :=
  ∀ (c : Instr) (s t : State), storesNothing c = true → exec c s = .next t → t.mem = s.mem ∧
    ((∀ i v w, c ≠ .patternTdata0Write i v w) → (∀ i v w, c ≠ .patternCellCommit i v w) → (∀ i v w, c ≠ .presetGo i v w) →
      t.pat = s.pat)

/-- The frames of the commands of the lamp drive, the meter, the references, the gauge and the cascade. -/
def Obligations.DriveFrames : Prop :=
  ∀ (c : Instr) (s t : State) (ps : List Page), drivePages c = some ps → exec c s = .next t →
    Framed s t ps ∧ t.pat = s.pat ∧ t.dn = s.dn

/-- The frames of the commands of the clock, the two-wire controllers, the timers, the Thimble, the collector, the debug port,
power and the host link. -/
def Obligations.TimeFrames : Prop :=
  ∀ (c : Instr) (s t : State) (ps : List Page), timePages c = some ps → exec c s = .next t → Framed s t ps ∧ t.pat = s.pat

/-- The frames of the commands of the ciphers, updates, flash, scrubbing, the receiver and the Shuttle. -/
def Obligations.RadioFrames : Prop :=
  ∀ (c : Instr) (s t : State) (ps : List Page), radioPages c = some ps → exec c s = .next t → Framed s t ps ∧ t.dn = s.dn

/-! Statements that take several of the groups above together. -/

/-- A register write judged field by field: what each field then holds, and what a refused field sets (R14, R22 to R25). -/
def Obligations.RegisterWrites : Prop := RegisterWriteByTableHold ∧ RefusedFieldSetsStickyHold

/-- The two-wire controllers and the target (R549 to R558). -/
def Obligations.TwoWire : Prop := TwoWireControllersHold ∧ TwoWireTargetHold

/-- A sticky bit's rise and its report, and the collector (R15, R20, R344 to R355). -/
def Obligations.FaultReports : Prop := StickyReportsHold ∧ FaultCollectorHold

/-- The power-down sequence and the restore sequence. -/
def Obligations.PowerSequences : Prop := PowerDownSequenceHold ∧ RestoreSequenceHold

/-- The supply, the wake-up and the device reset. -/
def Obligations.SupplyAndReset : Prop := SupplyAndWakeHold ∧ DeviceResetHold

/-- The front end and its calibration units. -/
def Obligations.FrontEndAndCalibration : Prop := FrontEndHold ∧ CalibrationUnitsHold

/-- Receive windows, lanes, the packet finder and the equaliser's guard. -/
def Obligations.Receiver : Prop := WindowsAndLanesHold ∧ PacketFinderHold ∧ EqualiserGuardHold

/-- The closing of a virtual interface, and the entropy source. -/
def Obligations.TenancyAndEntropy : Prop := ClosingStepsHold ∧ EntropySourceHold

/-- Software jobs from their start to their end, key erasure and the hash unit. -/
def Obligations.SoftwareJobs : Prop := CipherStartsHold ∧ SoftwareJobEndsHold

/-- Critical commands, at once and slowed. -/
def Obligations.CriticalCommands : Prop := AuthenticCommandsHold ∧ SlowedCommandHold

/-- The cascade link and its common tick. -/
def Obligations.CascadeLinkAndTime : Prop := CascadeLinkHold ∧ CascadeTimeHold

/-- Handovers, relayed frames and remote accesses. -/
def Obligations.CascadeTransfers : Prop := CascadeHandoversHold ∧ CascadeRemoteHold

/-- Pushes that spill and pops that fill. -/
def Obligations.StackTraffic : Prop := PushSpillsHold ∧ PopFillsHold

/-- Addition and subtraction, binary and decimal. -/
def Obligations.WholeArithmetic : Prop := AddSubtractHold ∧ DecimalHold

/-- Loads and stores. -/
def Obligations.MemoryAccess : Prop := LoadsHold ∧ StoresHold

/-- Control flow, literals and address arithmetic. -/
def Obligations.FlowAndLiterals : Prop := ControlFlowHold ∧ LiteralsAndAddressesHold

/-- System instructions, and the events of a core. -/
def Obligations.SystemAndEvents : Prop := SystemInstructionsHold ∧ CoreEventsHold

/-- The transmit chain, what a frame sends, direct transmission, the region mask and the duty ledgers. -/
def Obligations.Transmission : Prop := TransmitChainHold ∧ FrameOnAirHold ∧ DirectAndMaskHold ∧ DutyRollsHold

/-- Products, quotients, logic and shifts. -/
def Obligations.MultiplyDivideAndLogic : Prop := ProductsHold ∧ DivisionHold ∧ LogicAndShiftsHold

/-- The meter, the references and the gauge. -/
def Obligations.MeteringAndReferences : Prop := MeterIntervalsHold ∧ ReferencesHold ∧ BackupGaugeHold

end
end

