-- ==== Sys2Proof/Laws/Sparse.lean ====
section
/-! SUPPORT. Sparse tables: a read after a write, and the canonical form kept by every operation. -/

namespace Sys2Proof.Laws

open Sys2Proof.Machine

variable {β : Type} {dflt : Nat → β}

theorem sparse_find_filter (l : List (Nat × β)) (p : Nat → Bool) (k : Nat) (hk : p k = true) :
    (l.filter fun c => p c.1).find? (fun c => c.1 == k) = l.find? (fun c => c.1 == k) := by
  induction l with
  | nil => rfl
  | cons c l ih =>
    by_cases hc : c.1 = k
    · subst hc; simp [hk]
    · by_cases hp : p c.1 = true <;> simp [hp, hc, ih]

theorem sparse_find_filter_none (l : List (Nat × β)) (p : Nat → Bool) (k : Nat) (hk : p k = false) :
    (l.filter fun c => p c.1).find? (fun c => c.1 == k) = none := by
  simp only [List.find?_eq_none, List.mem_filter, beq_iff_eq, and_imp]
  intro c _ hp hc
  subst hc
  simp [hp] at hk

theorem sparse_get_drop (l : List (Nat × β)) (p : Nat → Bool) (k : Nat) :
    Sparse.get dflt (Sparse.drop l p) k = if p k then dflt k else Sparse.get dflt l k := by
  unfold Sparse.get Sparse.drop
  by_cases h : p k = true
  · rw [sparse_find_filter_none l (fun n => !p n) k (by simp [h]), if_pos h]
  · rw [sparse_find_filter l (fun n => !p n) k (by simp [h]), if_neg h]

theorem sparse_get_clear (l : List (Nat × β)) (lo hi k : Nat) :
    Sparse.get dflt (Sparse.clear l lo hi) k = if lo ≤ k ∧ k < hi then dflt k else Sparse.get dflt l k := by
  simp [Sparse.clear, sparse_get_drop]

@[simp] theorem sparse_get_nil (k : Nat) : Sparse.get dflt [] k = dflt k := rfl

variable [DecidableEq β]

/-- A read of the written key gives the written value. -/
@[simp] theorem sparse_get_set_same (l : List (Nat × β)) (k : Nat) (v : β) :
    Sparse.get dflt (Sparse.set dflt l k v) k = v := by
  have h1 := sparse_find_filter_none l (fun n => decide (n < k)) k (by simp)
  have h2 := sparse_find_filter_none l (fun n => decide (k < n)) k (by simp)
  unfold Sparse.get Sparse.set
  by_cases hv : v = dflt k
  · simp only [hv, if_true, List.append_nil, List.find?_append, h1, h2, Option.or_none]
  · simp only [hv, if_false, List.find?_append, h1, Option.none_or, h2, Option.or_none]
    simp

/-- A write leaves every other key alone. -/
theorem sparse_get_set_ne (l : List (Nat × β)) (k j : Nat) (v : β) (h : j ≠ k) :
    Sparse.get dflt (Sparse.set dflt l k v) j = Sparse.get dflt l j := by
  have hs : (if v = dflt k then [] else [(k, v)]).find? (fun c => c.1 == j) = none := by
    split <;> simp [Ne.symm h]
  unfold Sparse.get Sparse.set
  simp only [List.find?_append, hs, Option.or_none]
  rcases Nat.lt_or_ge j k with hlt | hge
  · rw [sparse_find_filter l (fun n => decide (n < k)) j (by simpa using hlt),
      sparse_find_filter_none l (fun n => decide (k < n)) j (by simp; omega)]
    simp
  · rw [sparse_find_filter_none l (fun n => decide (n < k)) j (by simp; omega),
      sparse_find_filter l (fun n => decide (k < n)) j (by simp; omega)]
    simp

theorem sparse_wf_filter (l : List (Nat × β)) (p : Nat × β → Bool) (h : Sparse.wf dflt l = true) :
    Sparse.wf dflt (l.filter p) = true := by
  induction l with
  | nil => rfl
  | cons c l ih =>
    simp only [Sparse.wf, Bool.and_eq_true] at h
    rw [List.filter_cons]
    split
    · simp only [Sparse.wf, Bool.and_eq_true]
      refine ⟨⟨h.1.1, ?_⟩, ih h.2⟩
      simp only [List.all_eq_true, List.mem_filter, and_imp] at h ⊢
      exact fun x hx _ => h.1.2 x hx
    · exact ih h.2

theorem sparse_wf_append (l m : List (Nat × β)) (hl : Sparse.wf dflt l = true) (hm : Sparse.wf dflt m = true)
    (h : ∀ a ∈ l, ∀ b ∈ m, a.1 < b.1) : Sparse.wf dflt (l ++ m) = true := by
  induction l with
  | nil => exact hm
  | cons c l ih =>
    simp only [Sparse.wf, Bool.and_eq_true, List.cons_append, List.all_append] at hl ⊢
    refine ⟨⟨hl.1.1, hl.1.2, ?_⟩, ih hl.2 fun a ha => h a (by simp [ha])⟩
    simp only [List.all_eq_true, decide_eq_true_eq]
    exact fun x hx => h c (by simp) x hx

/-- Dropping keys keeps the canonical form. -/
theorem sparse_wf_drop (l : List (Nat × β)) (p : Nat → Bool) (h : Sparse.wf dflt l = true) :
    Sparse.wf dflt (Sparse.drop l p) = true := sparse_wf_filter l _ h

theorem sparse_wf_clear (l : List (Nat × β)) (lo hi : Nat) (h : Sparse.wf dflt l = true) :
    Sparse.wf dflt (Sparse.clear l lo hi) = true := sparse_wf_drop l _ h

/-- Setting a key keeps the canonical form. -/
theorem sparse_wf_set (l : List (Nat × β)) (k : Nat) (v : β) (h : Sparse.wf dflt l = true) :
    Sparse.wf dflt (Sparse.set dflt l k v) = true := by
  unfold Sparse.set
  refine sparse_wf_append _ _ (sparse_wf_append _ _ (sparse_wf_filter l _ h) ?_ ?_) (sparse_wf_filter l _ h) ?_
  · split
    · rfl
    · rename_i hv
      simp [Sparse.wf, hv]
  · intro a ha b hb
    split at hb
    · simp at hb
    · simp only [List.mem_singleton] at hb
      subst hb
      simpa using (List.mem_filter.mp ha).2
  · intro a ha b hb
    have hb' : k < b.1 := by simpa using (List.mem_filter.mp hb).2
    rcases List.mem_append.mp ha with ha | ha
    · have : a.1 < k := by simpa using (List.mem_filter.mp ha).2
      omega
    · split at ha
      · simp at ha
      · simp only [List.mem_singleton] at ha
        subst ha
        exact hb'

end Sys2Proof.Laws
end

