-- ==== Sys2Proof/Laws/State.lean ====
section
/-! SUPPORT. One lemma per field of the state per primitive effect: what each effect leaves as it was. -/

namespace Sys2Proof.Laws

open Sys2Proof.Machine

@[simp] theorem put_mem (s : State) (f : Fld) (v : Nat) : (Eff.apply s (.put f v)).mem = s.mem := rfl
@[simp] theorem put_pat (s : State) (f : Fld) (v : Nat) : (Eff.apply s (.put f v)).pat = s.pat := rfl
@[simp] theorem put_clk (s : State) (f : Fld) (v : Nat) : (Eff.apply s (.put f v)).clk = s.clk := rfl
@[simp] theorem put_flt (s : State) (f : Fld) (v : Nat) : (Eff.apply s (.put f v)).flt = s.flt := rfl
@[simp] theorem put_stm (s : State) (f : Fld) (v : Nat) : (Eff.apply s (.put f v)).stm = s.stm := rfl
@[simp] theorem put_pwr (s : State) (f : Fld) (v : Nat) : (Eff.apply s (.put f v)).pwr = s.pwr := rfl
@[simp] theorem put_recd (s : State) (f : Fld) (v : Nat) : (Eff.apply s (.put f v)).recd = s.recd := rfl
@[simp] theorem put_bus (s : State) (f : Fld) (v : Nat) : (Eff.apply s (.put f v)).bus = s.bus := rfl
@[simp] theorem put_thm (s : State) (f : Fld) (v : Nat) : (Eff.apply s (.put f v)).thm = s.thm := rfl
@[simp] theorem put_tim (s : State) (f : Fld) (v : Nat) : (Eff.apply s (.put f v)).tim = s.tim := rfl
@[simp] theorem put_i2c (s : State) (f : Fld) (v : Nat) : (Eff.apply s (.put f v)).i2c = s.i2c := rfl
@[simp] theorem put_mov (s : State) (f : Fld) (v : Nat) : (Eff.apply s (.put f v)).mov = s.mov := rfl
@[simp] theorem put_lmp (s : State) (f : Fld) (v : Nat) : (Eff.apply s (.put f v)).lmp = s.lmp := rfl
@[simp] theorem put_mtr (s : State) (f : Fld) (v : Nat) : (Eff.apply s (.put f v)).mtr = s.mtr := rfl
@[simp] theorem put_ref (s : State) (f : Fld) (v : Nat) : (Eff.apply s (.put f v)).ref = s.ref := rfl
@[simp] theorem put_gau (s : State) (f : Fld) (v : Nat) : (Eff.apply s (.put f v)).gau = s.gau := rfl
@[simp] theorem put_otp (s : State) (f : Fld) (v : Nat) : (Eff.apply s (.put f v)).otp = s.otp := rfl
@[simp] theorem put_dut (s : State) (f : Fld) (v : Nat) : (Eff.apply s (.put f v)).dut = s.dut := rfl
@[simp] theorem put_rfe (s : State) (f : Fld) (v : Nat) : (Eff.apply s (.put f v)).rfe = s.rfe := rfl
@[simp] theorem put_chz (s : State) (f : Fld) (v : Nat) : (Eff.apply s (.put f v)).chz = s.chz := rfl
@[simp] theorem put_dmd (s : State) (f : Fld) (v : Nat) : (Eff.apply s (.put f v)).dmd = s.dmd := rfl
@[simp] theorem put_frm (s : State) (f : Fld) (v : Nat) : (Eff.apply s (.put f v)).frm = s.frm := rfl
@[simp] theorem put_txp (s : State) (f : Fld) (v : Nat) : (Eff.apply s (.put f v)).txp = s.txp := rfl
@[simp] theorem put_shu (s : State) (f : Fld) (v : Nat) : (Eff.apply s (.put f v)).shu = s.shu := rfl
@[simp] theorem put_bob (s : State) (f : Fld) (v : Nat) : (Eff.apply s (.put f v)).bob = s.bob := rfl
@[simp] theorem put_key (s : State) (f : Fld) (v : Nat) : (Eff.apply s (.put f v)).key = s.key := rfl
@[simp] theorem put_sec (s : State) (f : Fld) (v : Nat) : (Eff.apply s (.put f v)).sec = s.sec := rfl
@[simp] theorem put_cmd (s : State) (f : Fld) (v : Nat) : (Eff.apply s (.put f v)).cmd = s.cmd := rfl
@[simp] theorem put_flc (s : State) (f : Fld) (v : Nat) : (Eff.apply s (.put f v)).flc = s.flc := rfl
@[simp] theorem put_ecc (s : State) (f : Fld) (v : Nat) : (Eff.apply s (.put f v)).ecc = s.ecc := rfl
@[simp] theorem put_dn (s : State) (f : Fld) (v : Nat) : (Eff.apply s (.put f v)).dn = s.dn := rfl
@[simp] theorem put_dbg (s : State) (f : Fld) (v : Nat) : (Eff.apply s (.put f v)).dbg = s.dbg := rfl
@[simp] theorem put_vif (s : State) (f : Fld) (v : Nat) : (Eff.apply s (.put f v)).vif = s.vif := rfl
@[simp] theorem put_upd (s : State) (f : Fld) (v : Nat) : (Eff.apply s (.put f v)).upd = s.upd := rfl
@[simp] theorem put_cas (s : State) (f : Fld) (v : Nat) : (Eff.apply s (.put f v)).cas = s.cas := rfl
@[simp] theorem put_hif (s : State) (f : Fld) (v : Nat) : (Eff.apply s (.put f v)).hif = s.hif := rfl
@[simp] theorem put_drawn (s : State) (f : Fld) (v : Nat) : (Eff.apply s (.put f v)).drawn = s.drawn := rfl
@[simp] theorem put_pending (s : State) (f : Fld) (v : Nat) : (Eff.apply s (.put f v)).pending = s.pending := rfl
@[simp] theorem byte_regs (s : State) (a : Nat) (b : Byte) : (Eff.apply s (.byte a b)).regs = s.regs := rfl
@[simp] theorem byte_pat (s : State) (a : Nat) (b : Byte) : (Eff.apply s (.byte a b)).pat = s.pat := rfl
@[simp] theorem byte_clk (s : State) (a : Nat) (b : Byte) : (Eff.apply s (.byte a b)).clk = s.clk := rfl
@[simp] theorem byte_flt (s : State) (a : Nat) (b : Byte) : (Eff.apply s (.byte a b)).flt = s.flt := rfl
@[simp] theorem byte_stm (s : State) (a : Nat) (b : Byte) : (Eff.apply s (.byte a b)).stm = s.stm := rfl
@[simp] theorem byte_pwr (s : State) (a : Nat) (b : Byte) : (Eff.apply s (.byte a b)).pwr = s.pwr := rfl
@[simp] theorem byte_recd (s : State) (a : Nat) (b : Byte) : (Eff.apply s (.byte a b)).recd = s.recd := rfl
@[simp] theorem byte_bus (s : State) (a : Nat) (b : Byte) : (Eff.apply s (.byte a b)).bus = s.bus := rfl
@[simp] theorem byte_thm (s : State) (a : Nat) (b : Byte) : (Eff.apply s (.byte a b)).thm = s.thm := rfl
@[simp] theorem byte_tim (s : State) (a : Nat) (b : Byte) : (Eff.apply s (.byte a b)).tim = s.tim := rfl
@[simp] theorem byte_i2c (s : State) (a : Nat) (b : Byte) : (Eff.apply s (.byte a b)).i2c = s.i2c := rfl
@[simp] theorem byte_mov (s : State) (a : Nat) (b : Byte) : (Eff.apply s (.byte a b)).mov = s.mov := rfl
@[simp] theorem byte_lmp (s : State) (a : Nat) (b : Byte) : (Eff.apply s (.byte a b)).lmp = s.lmp := rfl
@[simp] theorem byte_mtr (s : State) (a : Nat) (b : Byte) : (Eff.apply s (.byte a b)).mtr = s.mtr := rfl
@[simp] theorem byte_ref (s : State) (a : Nat) (b : Byte) : (Eff.apply s (.byte a b)).ref = s.ref := rfl
@[simp] theorem byte_gau (s : State) (a : Nat) (b : Byte) : (Eff.apply s (.byte a b)).gau = s.gau := rfl
@[simp] theorem byte_otp (s : State) (a : Nat) (b : Byte) : (Eff.apply s (.byte a b)).otp = s.otp := rfl
@[simp] theorem byte_dut (s : State) (a : Nat) (b : Byte) : (Eff.apply s (.byte a b)).dut = s.dut := rfl
@[simp] theorem byte_rfe (s : State) (a : Nat) (b : Byte) : (Eff.apply s (.byte a b)).rfe = s.rfe := rfl
@[simp] theorem byte_chz (s : State) (a : Nat) (b : Byte) : (Eff.apply s (.byte a b)).chz = s.chz := rfl
@[simp] theorem byte_dmd (s : State) (a : Nat) (b : Byte) : (Eff.apply s (.byte a b)).dmd = s.dmd := rfl
@[simp] theorem byte_frm (s : State) (a : Nat) (b : Byte) : (Eff.apply s (.byte a b)).frm = s.frm := rfl
@[simp] theorem byte_txp (s : State) (a : Nat) (b : Byte) : (Eff.apply s (.byte a b)).txp = s.txp := rfl
@[simp] theorem byte_shu (s : State) (a : Nat) (b : Byte) : (Eff.apply s (.byte a b)).shu = s.shu := rfl
@[simp] theorem byte_bob (s : State) (a : Nat) (b : Byte) : (Eff.apply s (.byte a b)).bob = s.bob := rfl
@[simp] theorem byte_key (s : State) (a : Nat) (b : Byte) : (Eff.apply s (.byte a b)).key = s.key := rfl
@[simp] theorem byte_sec (s : State) (a : Nat) (b : Byte) : (Eff.apply s (.byte a b)).sec = s.sec := rfl
@[simp] theorem byte_cmd (s : State) (a : Nat) (b : Byte) : (Eff.apply s (.byte a b)).cmd = s.cmd := rfl
@[simp] theorem byte_flc (s : State) (a : Nat) (b : Byte) : (Eff.apply s (.byte a b)).flc = s.flc := rfl
@[simp] theorem byte_ecc (s : State) (a : Nat) (b : Byte) : (Eff.apply s (.byte a b)).ecc = s.ecc := rfl
@[simp] theorem byte_dn (s : State) (a : Nat) (b : Byte) : (Eff.apply s (.byte a b)).dn = s.dn := rfl
@[simp] theorem byte_dbg (s : State) (a : Nat) (b : Byte) : (Eff.apply s (.byte a b)).dbg = s.dbg := rfl
@[simp] theorem byte_vif (s : State) (a : Nat) (b : Byte) : (Eff.apply s (.byte a b)).vif = s.vif := rfl
@[simp] theorem byte_upd (s : State) (a : Nat) (b : Byte) : (Eff.apply s (.byte a b)).upd = s.upd := rfl
@[simp] theorem byte_cas (s : State) (a : Nat) (b : Byte) : (Eff.apply s (.byte a b)).cas = s.cas := rfl
@[simp] theorem byte_hif (s : State) (a : Nat) (b : Byte) : (Eff.apply s (.byte a b)).hif = s.hif := rfl
@[simp] theorem byte_drawn (s : State) (a : Nat) (b : Byte) : (Eff.apply s (.byte a b)).drawn = s.drawn := rfl
@[simp] theorem byte_pending (s : State) (a : Nat) (b : Byte) : (Eff.apply s (.byte a b)).pending = s.pending := rfl
@[simp] theorem wipe_regs (s : State) (lo hi : Nat) : (Eff.apply s (.wipe lo hi)).regs = s.regs := rfl
@[simp] theorem wipe_pat (s : State) (lo hi : Nat) : (Eff.apply s (.wipe lo hi)).pat = s.pat := rfl
@[simp] theorem wipe_clk (s : State) (lo hi : Nat) : (Eff.apply s (.wipe lo hi)).clk = s.clk := rfl
@[simp] theorem wipe_flt (s : State) (lo hi : Nat) : (Eff.apply s (.wipe lo hi)).flt = s.flt := rfl
@[simp] theorem wipe_stm (s : State) (lo hi : Nat) : (Eff.apply s (.wipe lo hi)).stm = s.stm := rfl
@[simp] theorem wipe_pwr (s : State) (lo hi : Nat) : (Eff.apply s (.wipe lo hi)).pwr = s.pwr := rfl
@[simp] theorem wipe_recd (s : State) (lo hi : Nat) : (Eff.apply s (.wipe lo hi)).recd = s.recd := rfl
@[simp] theorem wipe_bus (s : State) (lo hi : Nat) : (Eff.apply s (.wipe lo hi)).bus = s.bus := rfl
@[simp] theorem wipe_thm (s : State) (lo hi : Nat) : (Eff.apply s (.wipe lo hi)).thm = s.thm := rfl
@[simp] theorem wipe_tim (s : State) (lo hi : Nat) : (Eff.apply s (.wipe lo hi)).tim = s.tim := rfl
@[simp] theorem wipe_i2c (s : State) (lo hi : Nat) : (Eff.apply s (.wipe lo hi)).i2c = s.i2c := rfl
@[simp] theorem wipe_mov (s : State) (lo hi : Nat) : (Eff.apply s (.wipe lo hi)).mov = s.mov := rfl
@[simp] theorem wipe_lmp (s : State) (lo hi : Nat) : (Eff.apply s (.wipe lo hi)).lmp = s.lmp := rfl
@[simp] theorem wipe_mtr (s : State) (lo hi : Nat) : (Eff.apply s (.wipe lo hi)).mtr = s.mtr := rfl
@[simp] theorem wipe_ref (s : State) (lo hi : Nat) : (Eff.apply s (.wipe lo hi)).ref = s.ref := rfl
@[simp] theorem wipe_gau (s : State) (lo hi : Nat) : (Eff.apply s (.wipe lo hi)).gau = s.gau := rfl
@[simp] theorem wipe_otp (s : State) (lo hi : Nat) : (Eff.apply s (.wipe lo hi)).otp = s.otp := rfl
@[simp] theorem wipe_dut (s : State) (lo hi : Nat) : (Eff.apply s (.wipe lo hi)).dut = s.dut := rfl
@[simp] theorem wipe_rfe (s : State) (lo hi : Nat) : (Eff.apply s (.wipe lo hi)).rfe = s.rfe := rfl
@[simp] theorem wipe_chz (s : State) (lo hi : Nat) : (Eff.apply s (.wipe lo hi)).chz = s.chz := rfl
@[simp] theorem wipe_dmd (s : State) (lo hi : Nat) : (Eff.apply s (.wipe lo hi)).dmd = s.dmd := rfl
@[simp] theorem wipe_frm (s : State) (lo hi : Nat) : (Eff.apply s (.wipe lo hi)).frm = s.frm := rfl
@[simp] theorem wipe_txp (s : State) (lo hi : Nat) : (Eff.apply s (.wipe lo hi)).txp = s.txp := rfl
@[simp] theorem wipe_shu (s : State) (lo hi : Nat) : (Eff.apply s (.wipe lo hi)).shu = s.shu := rfl
@[simp] theorem wipe_bob (s : State) (lo hi : Nat) : (Eff.apply s (.wipe lo hi)).bob = s.bob := rfl
@[simp] theorem wipe_key (s : State) (lo hi : Nat) : (Eff.apply s (.wipe lo hi)).key = s.key := rfl
@[simp] theorem wipe_sec (s : State) (lo hi : Nat) : (Eff.apply s (.wipe lo hi)).sec = s.sec := rfl
@[simp] theorem wipe_cmd (s : State) (lo hi : Nat) : (Eff.apply s (.wipe lo hi)).cmd = s.cmd := rfl
@[simp] theorem wipe_flc (s : State) (lo hi : Nat) : (Eff.apply s (.wipe lo hi)).flc = s.flc := rfl
@[simp] theorem wipe_ecc (s : State) (lo hi : Nat) : (Eff.apply s (.wipe lo hi)).ecc = s.ecc := rfl
@[simp] theorem wipe_dn (s : State) (lo hi : Nat) : (Eff.apply s (.wipe lo hi)).dn = s.dn := rfl
@[simp] theorem wipe_dbg (s : State) (lo hi : Nat) : (Eff.apply s (.wipe lo hi)).dbg = s.dbg := rfl
@[simp] theorem wipe_vif (s : State) (lo hi : Nat) : (Eff.apply s (.wipe lo hi)).vif = s.vif := rfl
@[simp] theorem wipe_upd (s : State) (lo hi : Nat) : (Eff.apply s (.wipe lo hi)).upd = s.upd := rfl
@[simp] theorem wipe_cas (s : State) (lo hi : Nat) : (Eff.apply s (.wipe lo hi)).cas = s.cas := rfl
@[simp] theorem wipe_hif (s : State) (lo hi : Nat) : (Eff.apply s (.wipe lo hi)).hif = s.hif := rfl
@[simp] theorem wipe_drawn (s : State) (lo hi : Nat) : (Eff.apply s (.wipe lo hi)).drawn = s.drawn := rfl
@[simp] theorem wipe_pending (s : State) (lo hi : Nat) : (Eff.apply s (.wipe lo hi)).pending = s.pending := rfl
@[simp] theorem pat_regs (s : State) (i w : Nat) : (Eff.apply s (.pat i w)).regs = s.regs := rfl
@[simp] theorem pat_mem (s : State) (i w : Nat) : (Eff.apply s (.pat i w)).mem = s.mem := rfl
@[simp] theorem pat_clk (s : State) (i w : Nat) : (Eff.apply s (.pat i w)).clk = s.clk := rfl
@[simp] theorem pat_flt (s : State) (i w : Nat) : (Eff.apply s (.pat i w)).flt = s.flt := rfl
@[simp] theorem pat_stm (s : State) (i w : Nat) : (Eff.apply s (.pat i w)).stm = s.stm := rfl
@[simp] theorem pat_pwr (s : State) (i w : Nat) : (Eff.apply s (.pat i w)).pwr = s.pwr := rfl
@[simp] theorem pat_recd (s : State) (i w : Nat) : (Eff.apply s (.pat i w)).recd = s.recd := rfl
@[simp] theorem pat_bus (s : State) (i w : Nat) : (Eff.apply s (.pat i w)).bus = s.bus := rfl
@[simp] theorem pat_thm (s : State) (i w : Nat) : (Eff.apply s (.pat i w)).thm = s.thm := rfl
@[simp] theorem pat_tim (s : State) (i w : Nat) : (Eff.apply s (.pat i w)).tim = s.tim := rfl
@[simp] theorem pat_i2c (s : State) (i w : Nat) : (Eff.apply s (.pat i w)).i2c = s.i2c := rfl
@[simp] theorem pat_mov (s : State) (i w : Nat) : (Eff.apply s (.pat i w)).mov = s.mov := rfl
@[simp] theorem pat_lmp (s : State) (i w : Nat) : (Eff.apply s (.pat i w)).lmp = s.lmp := rfl
@[simp] theorem pat_mtr (s : State) (i w : Nat) : (Eff.apply s (.pat i w)).mtr = s.mtr := rfl
@[simp] theorem pat_ref (s : State) (i w : Nat) : (Eff.apply s (.pat i w)).ref = s.ref := rfl
@[simp] theorem pat_gau (s : State) (i w : Nat) : (Eff.apply s (.pat i w)).gau = s.gau := rfl
@[simp] theorem pat_otp (s : State) (i w : Nat) : (Eff.apply s (.pat i w)).otp = s.otp := rfl
@[simp] theorem pat_dut (s : State) (i w : Nat) : (Eff.apply s (.pat i w)).dut = s.dut := rfl
@[simp] theorem pat_rfe (s : State) (i w : Nat) : (Eff.apply s (.pat i w)).rfe = s.rfe := rfl
@[simp] theorem pat_chz (s : State) (i w : Nat) : (Eff.apply s (.pat i w)).chz = s.chz := rfl
@[simp] theorem pat_dmd (s : State) (i w : Nat) : (Eff.apply s (.pat i w)).dmd = s.dmd := rfl
@[simp] theorem pat_frm (s : State) (i w : Nat) : (Eff.apply s (.pat i w)).frm = s.frm := rfl
@[simp] theorem pat_txp (s : State) (i w : Nat) : (Eff.apply s (.pat i w)).txp = s.txp := rfl
@[simp] theorem pat_shu (s : State) (i w : Nat) : (Eff.apply s (.pat i w)).shu = s.shu := rfl
@[simp] theorem pat_bob (s : State) (i w : Nat) : (Eff.apply s (.pat i w)).bob = s.bob := rfl
@[simp] theorem pat_key (s : State) (i w : Nat) : (Eff.apply s (.pat i w)).key = s.key := rfl
@[simp] theorem pat_sec (s : State) (i w : Nat) : (Eff.apply s (.pat i w)).sec = s.sec := rfl
@[simp] theorem pat_cmd (s : State) (i w : Nat) : (Eff.apply s (.pat i w)).cmd = s.cmd := rfl
@[simp] theorem pat_flc (s : State) (i w : Nat) : (Eff.apply s (.pat i w)).flc = s.flc := rfl
@[simp] theorem pat_ecc (s : State) (i w : Nat) : (Eff.apply s (.pat i w)).ecc = s.ecc := rfl
@[simp] theorem pat_dn (s : State) (i w : Nat) : (Eff.apply s (.pat i w)).dn = s.dn := rfl
@[simp] theorem pat_dbg (s : State) (i w : Nat) : (Eff.apply s (.pat i w)).dbg = s.dbg := rfl
@[simp] theorem pat_vif (s : State) (i w : Nat) : (Eff.apply s (.pat i w)).vif = s.vif := rfl
@[simp] theorem pat_upd (s : State) (i w : Nat) : (Eff.apply s (.pat i w)).upd = s.upd := rfl
@[simp] theorem pat_cas (s : State) (i w : Nat) : (Eff.apply s (.pat i w)).cas = s.cas := rfl
@[simp] theorem pat_hif (s : State) (i w : Nat) : (Eff.apply s (.pat i w)).hif = s.hif := rfl
@[simp] theorem pat_drawn (s : State) (i w : Nat) : (Eff.apply s (.pat i w)).drawn = s.drawn := rfl
@[simp] theorem pat_pending (s : State) (i w : Nat) : (Eff.apply s (.pat i w)).pending = s.pending := rfl
@[simp] theorem resetKeys_mem (s : State) (lo hi : Nat) : (Eff.apply s (.resetKeys lo hi)).mem = s.mem := rfl
@[simp] theorem resetKeys_pat (s : State) (lo hi : Nat) : (Eff.apply s (.resetKeys lo hi)).pat = s.pat := rfl
@[simp] theorem resetKeys_clk (s : State) (lo hi : Nat) : (Eff.apply s (.resetKeys lo hi)).clk = s.clk := rfl
@[simp] theorem resetKeys_flt (s : State) (lo hi : Nat) : (Eff.apply s (.resetKeys lo hi)).flt = s.flt := rfl
@[simp] theorem resetKeys_stm (s : State) (lo hi : Nat) : (Eff.apply s (.resetKeys lo hi)).stm = s.stm := rfl
@[simp] theorem resetKeys_pwr (s : State) (lo hi : Nat) : (Eff.apply s (.resetKeys lo hi)).pwr = s.pwr := rfl
@[simp] theorem resetKeys_recd (s : State) (lo hi : Nat) : (Eff.apply s (.resetKeys lo hi)).recd = s.recd := rfl
@[simp] theorem resetKeys_bus (s : State) (lo hi : Nat) : (Eff.apply s (.resetKeys lo hi)).bus = s.bus := rfl
@[simp] theorem resetKeys_thm (s : State) (lo hi : Nat) : (Eff.apply s (.resetKeys lo hi)).thm = s.thm := rfl
@[simp] theorem resetKeys_tim (s : State) (lo hi : Nat) : (Eff.apply s (.resetKeys lo hi)).tim = s.tim := rfl
@[simp] theorem resetKeys_i2c (s : State) (lo hi : Nat) : (Eff.apply s (.resetKeys lo hi)).i2c = s.i2c := rfl
@[simp] theorem resetKeys_mov (s : State) (lo hi : Nat) : (Eff.apply s (.resetKeys lo hi)).mov = s.mov := rfl
@[simp] theorem resetKeys_lmp (s : State) (lo hi : Nat) : (Eff.apply s (.resetKeys lo hi)).lmp = s.lmp := rfl
@[simp] theorem resetKeys_mtr (s : State) (lo hi : Nat) : (Eff.apply s (.resetKeys lo hi)).mtr = s.mtr := rfl
@[simp] theorem resetKeys_ref (s : State) (lo hi : Nat) : (Eff.apply s (.resetKeys lo hi)).ref = s.ref := rfl
@[simp] theorem resetKeys_gau (s : State) (lo hi : Nat) : (Eff.apply s (.resetKeys lo hi)).gau = s.gau := rfl
@[simp] theorem resetKeys_otp (s : State) (lo hi : Nat) : (Eff.apply s (.resetKeys lo hi)).otp = s.otp := rfl
@[simp] theorem resetKeys_dut (s : State) (lo hi : Nat) : (Eff.apply s (.resetKeys lo hi)).dut = s.dut := rfl
@[simp] theorem resetKeys_rfe (s : State) (lo hi : Nat) : (Eff.apply s (.resetKeys lo hi)).rfe = s.rfe := rfl
@[simp] theorem resetKeys_chz (s : State) (lo hi : Nat) : (Eff.apply s (.resetKeys lo hi)).chz = s.chz := rfl
@[simp] theorem resetKeys_dmd (s : State) (lo hi : Nat) : (Eff.apply s (.resetKeys lo hi)).dmd = s.dmd := rfl
@[simp] theorem resetKeys_frm (s : State) (lo hi : Nat) : (Eff.apply s (.resetKeys lo hi)).frm = s.frm := rfl
@[simp] theorem resetKeys_txp (s : State) (lo hi : Nat) : (Eff.apply s (.resetKeys lo hi)).txp = s.txp := rfl
@[simp] theorem resetKeys_shu (s : State) (lo hi : Nat) : (Eff.apply s (.resetKeys lo hi)).shu = s.shu := rfl
@[simp] theorem resetKeys_bob (s : State) (lo hi : Nat) : (Eff.apply s (.resetKeys lo hi)).bob = s.bob := rfl
@[simp] theorem resetKeys_key (s : State) (lo hi : Nat) : (Eff.apply s (.resetKeys lo hi)).key = s.key := rfl
@[simp] theorem resetKeys_sec (s : State) (lo hi : Nat) : (Eff.apply s (.resetKeys lo hi)).sec = s.sec := rfl
@[simp] theorem resetKeys_cmd (s : State) (lo hi : Nat) : (Eff.apply s (.resetKeys lo hi)).cmd = s.cmd := rfl
@[simp] theorem resetKeys_flc (s : State) (lo hi : Nat) : (Eff.apply s (.resetKeys lo hi)).flc = s.flc := rfl
@[simp] theorem resetKeys_ecc (s : State) (lo hi : Nat) : (Eff.apply s (.resetKeys lo hi)).ecc = s.ecc := rfl
@[simp] theorem resetKeys_dn (s : State) (lo hi : Nat) : (Eff.apply s (.resetKeys lo hi)).dn = s.dn := rfl
@[simp] theorem resetKeys_dbg (s : State) (lo hi : Nat) : (Eff.apply s (.resetKeys lo hi)).dbg = s.dbg := rfl
@[simp] theorem resetKeys_vif (s : State) (lo hi : Nat) : (Eff.apply s (.resetKeys lo hi)).vif = s.vif := rfl
@[simp] theorem resetKeys_upd (s : State) (lo hi : Nat) : (Eff.apply s (.resetKeys lo hi)).upd = s.upd := rfl
@[simp] theorem resetKeys_cas (s : State) (lo hi : Nat) : (Eff.apply s (.resetKeys lo hi)).cas = s.cas := rfl
@[simp] theorem resetKeys_hif (s : State) (lo hi : Nat) : (Eff.apply s (.resetKeys lo hi)).hif = s.hif := rfl
@[simp] theorem resetKeys_drawn (s : State) (lo hi : Nat) : (Eff.apply s (.resetKeys lo hi)).drawn = s.drawn := rfl
@[simp] theorem resetKeys_pending (s : State) (lo hi : Nat) : (Eff.apply s (.resetKeys lo hi)).pending = s.pending := rfl
@[simp] theorem resetPages_mem (s : State) (lo hi : Nat) : (Eff.apply s (.resetPages lo hi)).mem = s.mem := rfl
@[simp] theorem resetPages_pat (s : State) (lo hi : Nat) : (Eff.apply s (.resetPages lo hi)).pat = s.pat := rfl
@[simp] theorem resetPages_clk (s : State) (lo hi : Nat) : (Eff.apply s (.resetPages lo hi)).clk = s.clk := rfl
@[simp] theorem resetPages_flt (s : State) (lo hi : Nat) : (Eff.apply s (.resetPages lo hi)).flt = s.flt := rfl
@[simp] theorem resetPages_stm (s : State) (lo hi : Nat) : (Eff.apply s (.resetPages lo hi)).stm = s.stm := rfl
@[simp] theorem resetPages_pwr (s : State) (lo hi : Nat) : (Eff.apply s (.resetPages lo hi)).pwr = s.pwr := rfl
@[simp] theorem resetPages_recd (s : State) (lo hi : Nat) : (Eff.apply s (.resetPages lo hi)).recd = s.recd := rfl
@[simp] theorem resetPages_bus (s : State) (lo hi : Nat) : (Eff.apply s (.resetPages lo hi)).bus = s.bus := rfl
@[simp] theorem resetPages_thm (s : State) (lo hi : Nat) : (Eff.apply s (.resetPages lo hi)).thm = s.thm := rfl
@[simp] theorem resetPages_tim (s : State) (lo hi : Nat) : (Eff.apply s (.resetPages lo hi)).tim = s.tim := rfl
@[simp] theorem resetPages_i2c (s : State) (lo hi : Nat) : (Eff.apply s (.resetPages lo hi)).i2c = s.i2c := rfl
@[simp] theorem resetPages_mov (s : State) (lo hi : Nat) : (Eff.apply s (.resetPages lo hi)).mov = s.mov := rfl
@[simp] theorem resetPages_lmp (s : State) (lo hi : Nat) : (Eff.apply s (.resetPages lo hi)).lmp = s.lmp := rfl
@[simp] theorem resetPages_mtr (s : State) (lo hi : Nat) : (Eff.apply s (.resetPages lo hi)).mtr = s.mtr := rfl
@[simp] theorem resetPages_ref (s : State) (lo hi : Nat) : (Eff.apply s (.resetPages lo hi)).ref = s.ref := rfl
@[simp] theorem resetPages_gau (s : State) (lo hi : Nat) : (Eff.apply s (.resetPages lo hi)).gau = s.gau := rfl
@[simp] theorem resetPages_otp (s : State) (lo hi : Nat) : (Eff.apply s (.resetPages lo hi)).otp = s.otp := rfl
@[simp] theorem resetPages_dut (s : State) (lo hi : Nat) : (Eff.apply s (.resetPages lo hi)).dut = s.dut := rfl
@[simp] theorem resetPages_rfe (s : State) (lo hi : Nat) : (Eff.apply s (.resetPages lo hi)).rfe = s.rfe := rfl
@[simp] theorem resetPages_chz (s : State) (lo hi : Nat) : (Eff.apply s (.resetPages lo hi)).chz = s.chz := rfl
@[simp] theorem resetPages_dmd (s : State) (lo hi : Nat) : (Eff.apply s (.resetPages lo hi)).dmd = s.dmd := rfl
@[simp] theorem resetPages_frm (s : State) (lo hi : Nat) : (Eff.apply s (.resetPages lo hi)).frm = s.frm := rfl
@[simp] theorem resetPages_txp (s : State) (lo hi : Nat) : (Eff.apply s (.resetPages lo hi)).txp = s.txp := rfl
@[simp] theorem resetPages_shu (s : State) (lo hi : Nat) : (Eff.apply s (.resetPages lo hi)).shu = s.shu := rfl
@[simp] theorem resetPages_bob (s : State) (lo hi : Nat) : (Eff.apply s (.resetPages lo hi)).bob = s.bob := rfl
@[simp] theorem resetPages_key (s : State) (lo hi : Nat) : (Eff.apply s (.resetPages lo hi)).key = s.key := rfl
@[simp] theorem resetPages_sec (s : State) (lo hi : Nat) : (Eff.apply s (.resetPages lo hi)).sec = s.sec := rfl
@[simp] theorem resetPages_cmd (s : State) (lo hi : Nat) : (Eff.apply s (.resetPages lo hi)).cmd = s.cmd := rfl
@[simp] theorem resetPages_flc (s : State) (lo hi : Nat) : (Eff.apply s (.resetPages lo hi)).flc = s.flc := rfl
@[simp] theorem resetPages_ecc (s : State) (lo hi : Nat) : (Eff.apply s (.resetPages lo hi)).ecc = s.ecc := rfl
@[simp] theorem resetPages_dn (s : State) (lo hi : Nat) : (Eff.apply s (.resetPages lo hi)).dn = s.dn := rfl
@[simp] theorem resetPages_dbg (s : State) (lo hi : Nat) : (Eff.apply s (.resetPages lo hi)).dbg = s.dbg := rfl
@[simp] theorem resetPages_vif (s : State) (lo hi : Nat) : (Eff.apply s (.resetPages lo hi)).vif = s.vif := rfl
@[simp] theorem resetPages_upd (s : State) (lo hi : Nat) : (Eff.apply s (.resetPages lo hi)).upd = s.upd := rfl
@[simp] theorem resetPages_cas (s : State) (lo hi : Nat) : (Eff.apply s (.resetPages lo hi)).cas = s.cas := rfl
@[simp] theorem resetPages_hif (s : State) (lo hi : Nat) : (Eff.apply s (.resetPages lo hi)).hif = s.hif := rfl
@[simp] theorem resetPages_drawn (s : State) (lo hi : Nat) : (Eff.apply s (.resetPages lo hi)).drawn = s.drawn := rfl
@[simp] theorem resetPages_pending (s : State) (lo hi : Nat) : (Eff.apply s (.resetPages lo hi)).pending = s.pending := rfl
@[simp] theorem wipePat_regs (s : State)  : (Eff.apply s (.wipePat)).regs = s.regs := rfl
@[simp] theorem wipePat_mem (s : State)  : (Eff.apply s (.wipePat)).mem = s.mem := rfl
@[simp] theorem wipePat_clk (s : State)  : (Eff.apply s (.wipePat)).clk = s.clk := rfl
@[simp] theorem wipePat_flt (s : State)  : (Eff.apply s (.wipePat)).flt = s.flt := rfl
@[simp] theorem wipePat_stm (s : State)  : (Eff.apply s (.wipePat)).stm = s.stm := rfl
@[simp] theorem wipePat_pwr (s : State)  : (Eff.apply s (.wipePat)).pwr = s.pwr := rfl
@[simp] theorem wipePat_recd (s : State)  : (Eff.apply s (.wipePat)).recd = s.recd := rfl
@[simp] theorem wipePat_bus (s : State)  : (Eff.apply s (.wipePat)).bus = s.bus := rfl
@[simp] theorem wipePat_thm (s : State)  : (Eff.apply s (.wipePat)).thm = s.thm := rfl
@[simp] theorem wipePat_tim (s : State)  : (Eff.apply s (.wipePat)).tim = s.tim := rfl
@[simp] theorem wipePat_i2c (s : State)  : (Eff.apply s (.wipePat)).i2c = s.i2c := rfl
@[simp] theorem wipePat_mov (s : State)  : (Eff.apply s (.wipePat)).mov = s.mov := rfl
@[simp] theorem wipePat_lmp (s : State)  : (Eff.apply s (.wipePat)).lmp = s.lmp := rfl
@[simp] theorem wipePat_mtr (s : State)  : (Eff.apply s (.wipePat)).mtr = s.mtr := rfl
@[simp] theorem wipePat_ref (s : State)  : (Eff.apply s (.wipePat)).ref = s.ref := rfl
@[simp] theorem wipePat_gau (s : State)  : (Eff.apply s (.wipePat)).gau = s.gau := rfl
@[simp] theorem wipePat_otp (s : State)  : (Eff.apply s (.wipePat)).otp = s.otp := rfl
@[simp] theorem wipePat_dut (s : State)  : (Eff.apply s (.wipePat)).dut = s.dut := rfl
@[simp] theorem wipePat_rfe (s : State)  : (Eff.apply s (.wipePat)).rfe = s.rfe := rfl
@[simp] theorem wipePat_chz (s : State)  : (Eff.apply s (.wipePat)).chz = s.chz := rfl
@[simp] theorem wipePat_dmd (s : State)  : (Eff.apply s (.wipePat)).dmd = s.dmd := rfl
@[simp] theorem wipePat_frm (s : State)  : (Eff.apply s (.wipePat)).frm = s.frm := rfl
@[simp] theorem wipePat_txp (s : State)  : (Eff.apply s (.wipePat)).txp = s.txp := rfl
@[simp] theorem wipePat_shu (s : State)  : (Eff.apply s (.wipePat)).shu = s.shu := rfl
@[simp] theorem wipePat_bob (s : State)  : (Eff.apply s (.wipePat)).bob = s.bob := rfl
@[simp] theorem wipePat_key (s : State)  : (Eff.apply s (.wipePat)).key = s.key := rfl
@[simp] theorem wipePat_sec (s : State)  : (Eff.apply s (.wipePat)).sec = s.sec := rfl
@[simp] theorem wipePat_cmd (s : State)  : (Eff.apply s (.wipePat)).cmd = s.cmd := rfl
@[simp] theorem wipePat_flc (s : State)  : (Eff.apply s (.wipePat)).flc = s.flc := rfl
@[simp] theorem wipePat_ecc (s : State)  : (Eff.apply s (.wipePat)).ecc = s.ecc := rfl
@[simp] theorem wipePat_dn (s : State)  : (Eff.apply s (.wipePat)).dn = s.dn := rfl
@[simp] theorem wipePat_dbg (s : State)  : (Eff.apply s (.wipePat)).dbg = s.dbg := rfl
@[simp] theorem wipePat_vif (s : State)  : (Eff.apply s (.wipePat)).vif = s.vif := rfl
@[simp] theorem wipePat_upd (s : State)  : (Eff.apply s (.wipePat)).upd = s.upd := rfl
@[simp] theorem wipePat_cas (s : State)  : (Eff.apply s (.wipePat)).cas = s.cas := rfl
@[simp] theorem wipePat_hif (s : State)  : (Eff.apply s (.wipePat)).hif = s.hif := rfl
@[simp] theorem wipePat_drawn (s : State)  : (Eff.apply s (.wipePat)).drawn = s.drawn := rfl
@[simp] theorem wipePat_pending (s : State)  : (Eff.apply s (.wipePat)).pending = s.pending := rfl
@[simp] theorem drawn_regs (s : State)  : (Eff.apply s (.drawn)).regs = s.regs := rfl
@[simp] theorem drawn_mem (s : State)  : (Eff.apply s (.drawn)).mem = s.mem := rfl
@[simp] theorem drawn_pat (s : State)  : (Eff.apply s (.drawn)).pat = s.pat := rfl
@[simp] theorem drawn_clk (s : State)  : (Eff.apply s (.drawn)).clk = s.clk := rfl
@[simp] theorem drawn_flt (s : State)  : (Eff.apply s (.drawn)).flt = s.flt := rfl
@[simp] theorem drawn_stm (s : State)  : (Eff.apply s (.drawn)).stm = s.stm := rfl
@[simp] theorem drawn_pwr (s : State)  : (Eff.apply s (.drawn)).pwr = s.pwr := rfl
@[simp] theorem drawn_recd (s : State)  : (Eff.apply s (.drawn)).recd = s.recd := rfl
@[simp] theorem drawn_bus (s : State)  : (Eff.apply s (.drawn)).bus = s.bus := rfl
@[simp] theorem drawn_thm (s : State)  : (Eff.apply s (.drawn)).thm = s.thm := rfl
@[simp] theorem drawn_tim (s : State)  : (Eff.apply s (.drawn)).tim = s.tim := rfl
@[simp] theorem drawn_i2c (s : State)  : (Eff.apply s (.drawn)).i2c = s.i2c := rfl
@[simp] theorem drawn_mov (s : State)  : (Eff.apply s (.drawn)).mov = s.mov := rfl
@[simp] theorem drawn_lmp (s : State)  : (Eff.apply s (.drawn)).lmp = s.lmp := rfl
@[simp] theorem drawn_mtr (s : State)  : (Eff.apply s (.drawn)).mtr = s.mtr := rfl
@[simp] theorem drawn_ref (s : State)  : (Eff.apply s (.drawn)).ref = s.ref := rfl
@[simp] theorem drawn_gau (s : State)  : (Eff.apply s (.drawn)).gau = s.gau := rfl
@[simp] theorem drawn_otp (s : State)  : (Eff.apply s (.drawn)).otp = s.otp := rfl
@[simp] theorem drawn_dut (s : State)  : (Eff.apply s (.drawn)).dut = s.dut := rfl
@[simp] theorem drawn_rfe (s : State)  : (Eff.apply s (.drawn)).rfe = s.rfe := rfl
@[simp] theorem drawn_chz (s : State)  : (Eff.apply s (.drawn)).chz = s.chz := rfl
@[simp] theorem drawn_dmd (s : State)  : (Eff.apply s (.drawn)).dmd = s.dmd := rfl
@[simp] theorem drawn_frm (s : State)  : (Eff.apply s (.drawn)).frm = s.frm := rfl
@[simp] theorem drawn_txp (s : State)  : (Eff.apply s (.drawn)).txp = s.txp := rfl
@[simp] theorem drawn_shu (s : State)  : (Eff.apply s (.drawn)).shu = s.shu := rfl
@[simp] theorem drawn_bob (s : State)  : (Eff.apply s (.drawn)).bob = s.bob := rfl
@[simp] theorem drawn_key (s : State)  : (Eff.apply s (.drawn)).key = s.key := rfl
@[simp] theorem drawn_sec (s : State)  : (Eff.apply s (.drawn)).sec = s.sec := rfl
@[simp] theorem drawn_cmd (s : State)  : (Eff.apply s (.drawn)).cmd = s.cmd := rfl
@[simp] theorem drawn_flc (s : State)  : (Eff.apply s (.drawn)).flc = s.flc := rfl
@[simp] theorem drawn_ecc (s : State)  : (Eff.apply s (.drawn)).ecc = s.ecc := rfl
@[simp] theorem drawn_dn (s : State)  : (Eff.apply s (.drawn)).dn = s.dn := rfl
@[simp] theorem drawn_dbg (s : State)  : (Eff.apply s (.drawn)).dbg = s.dbg := rfl
@[simp] theorem drawn_vif (s : State)  : (Eff.apply s (.drawn)).vif = s.vif := rfl
@[simp] theorem drawn_upd (s : State)  : (Eff.apply s (.drawn)).upd = s.upd := rfl
@[simp] theorem drawn_cas (s : State)  : (Eff.apply s (.drawn)).cas = s.cas := rfl
@[simp] theorem drawn_hif (s : State)  : (Eff.apply s (.drawn)).hif = s.hif := rfl
@[simp] theorem drawn_pending (s : State)  : (Eff.apply s (.drawn)).pending = s.pending := rfl
@[simp] theorem clk_regs (s : State) (b : ClkSt) : (Eff.apply s (.clk b)).regs = s.regs := rfl
@[simp] theorem clk_mem (s : State) (b : ClkSt) : (Eff.apply s (.clk b)).mem = s.mem := rfl
@[simp] theorem clk_pat (s : State) (b : ClkSt) : (Eff.apply s (.clk b)).pat = s.pat := rfl
@[simp] theorem clk_flt (s : State) (b : ClkSt) : (Eff.apply s (.clk b)).flt = s.flt := rfl
@[simp] theorem clk_stm (s : State) (b : ClkSt) : (Eff.apply s (.clk b)).stm = s.stm := rfl
@[simp] theorem clk_pwr (s : State) (b : ClkSt) : (Eff.apply s (.clk b)).pwr = s.pwr := rfl
@[simp] theorem clk_recd (s : State) (b : ClkSt) : (Eff.apply s (.clk b)).recd = s.recd := rfl
@[simp] theorem clk_bus (s : State) (b : ClkSt) : (Eff.apply s (.clk b)).bus = s.bus := rfl
@[simp] theorem clk_thm (s : State) (b : ClkSt) : (Eff.apply s (.clk b)).thm = s.thm := rfl
@[simp] theorem clk_tim (s : State) (b : ClkSt) : (Eff.apply s (.clk b)).tim = s.tim := rfl
@[simp] theorem clk_i2c (s : State) (b : ClkSt) : (Eff.apply s (.clk b)).i2c = s.i2c := rfl
@[simp] theorem clk_mov (s : State) (b : ClkSt) : (Eff.apply s (.clk b)).mov = s.mov := rfl
@[simp] theorem clk_lmp (s : State) (b : ClkSt) : (Eff.apply s (.clk b)).lmp = s.lmp := rfl
@[simp] theorem clk_mtr (s : State) (b : ClkSt) : (Eff.apply s (.clk b)).mtr = s.mtr := rfl
@[simp] theorem clk_ref (s : State) (b : ClkSt) : (Eff.apply s (.clk b)).ref = s.ref := rfl
@[simp] theorem clk_gau (s : State) (b : ClkSt) : (Eff.apply s (.clk b)).gau = s.gau := rfl
@[simp] theorem clk_otp (s : State) (b : ClkSt) : (Eff.apply s (.clk b)).otp = s.otp := rfl
@[simp] theorem clk_dut (s : State) (b : ClkSt) : (Eff.apply s (.clk b)).dut = s.dut := rfl
@[simp] theorem clk_rfe (s : State) (b : ClkSt) : (Eff.apply s (.clk b)).rfe = s.rfe := rfl
@[simp] theorem clk_chz (s : State) (b : ClkSt) : (Eff.apply s (.clk b)).chz = s.chz := rfl
@[simp] theorem clk_dmd (s : State) (b : ClkSt) : (Eff.apply s (.clk b)).dmd = s.dmd := rfl
@[simp] theorem clk_frm (s : State) (b : ClkSt) : (Eff.apply s (.clk b)).frm = s.frm := rfl
@[simp] theorem clk_txp (s : State) (b : ClkSt) : (Eff.apply s (.clk b)).txp = s.txp := rfl
@[simp] theorem clk_shu (s : State) (b : ClkSt) : (Eff.apply s (.clk b)).shu = s.shu := rfl
@[simp] theorem clk_bob (s : State) (b : ClkSt) : (Eff.apply s (.clk b)).bob = s.bob := rfl
@[simp] theorem clk_key (s : State) (b : ClkSt) : (Eff.apply s (.clk b)).key = s.key := rfl
@[simp] theorem clk_sec (s : State) (b : ClkSt) : (Eff.apply s (.clk b)).sec = s.sec := rfl
@[simp] theorem clk_cmd (s : State) (b : ClkSt) : (Eff.apply s (.clk b)).cmd = s.cmd := rfl
@[simp] theorem clk_flc (s : State) (b : ClkSt) : (Eff.apply s (.clk b)).flc = s.flc := rfl
@[simp] theorem clk_ecc (s : State) (b : ClkSt) : (Eff.apply s (.clk b)).ecc = s.ecc := rfl
@[simp] theorem clk_dn (s : State) (b : ClkSt) : (Eff.apply s (.clk b)).dn = s.dn := rfl
@[simp] theorem clk_dbg (s : State) (b : ClkSt) : (Eff.apply s (.clk b)).dbg = s.dbg := rfl
@[simp] theorem clk_vif (s : State) (b : ClkSt) : (Eff.apply s (.clk b)).vif = s.vif := rfl
@[simp] theorem clk_upd (s : State) (b : ClkSt) : (Eff.apply s (.clk b)).upd = s.upd := rfl
@[simp] theorem clk_cas (s : State) (b : ClkSt) : (Eff.apply s (.clk b)).cas = s.cas := rfl
@[simp] theorem clk_hif (s : State) (b : ClkSt) : (Eff.apply s (.clk b)).hif = s.hif := rfl
@[simp] theorem clk_drawn (s : State) (b : ClkSt) : (Eff.apply s (.clk b)).drawn = s.drawn := rfl
@[simp] theorem clk_pending (s : State) (b : ClkSt) : (Eff.apply s (.clk b)).pending = s.pending := rfl
@[simp] theorem clk_clk (s : State) (b : ClkSt) : (Eff.apply s (.clk b)).clk = b := rfl
@[simp] theorem flt_regs (s : State) (b : FltSt) : (Eff.apply s (.flt b)).regs = s.regs := rfl
@[simp] theorem flt_mem (s : State) (b : FltSt) : (Eff.apply s (.flt b)).mem = s.mem := rfl
@[simp] theorem flt_pat (s : State) (b : FltSt) : (Eff.apply s (.flt b)).pat = s.pat := rfl
@[simp] theorem flt_clk (s : State) (b : FltSt) : (Eff.apply s (.flt b)).clk = s.clk := rfl
@[simp] theorem flt_stm (s : State) (b : FltSt) : (Eff.apply s (.flt b)).stm = s.stm := rfl
@[simp] theorem flt_pwr (s : State) (b : FltSt) : (Eff.apply s (.flt b)).pwr = s.pwr := rfl
@[simp] theorem flt_recd (s : State) (b : FltSt) : (Eff.apply s (.flt b)).recd = s.recd := rfl
@[simp] theorem flt_bus (s : State) (b : FltSt) : (Eff.apply s (.flt b)).bus = s.bus := rfl
@[simp] theorem flt_thm (s : State) (b : FltSt) : (Eff.apply s (.flt b)).thm = s.thm := rfl
@[simp] theorem flt_tim (s : State) (b : FltSt) : (Eff.apply s (.flt b)).tim = s.tim := rfl
@[simp] theorem flt_i2c (s : State) (b : FltSt) : (Eff.apply s (.flt b)).i2c = s.i2c := rfl
@[simp] theorem flt_mov (s : State) (b : FltSt) : (Eff.apply s (.flt b)).mov = s.mov := rfl
@[simp] theorem flt_lmp (s : State) (b : FltSt) : (Eff.apply s (.flt b)).lmp = s.lmp := rfl
@[simp] theorem flt_mtr (s : State) (b : FltSt) : (Eff.apply s (.flt b)).mtr = s.mtr := rfl
@[simp] theorem flt_ref (s : State) (b : FltSt) : (Eff.apply s (.flt b)).ref = s.ref := rfl
@[simp] theorem flt_gau (s : State) (b : FltSt) : (Eff.apply s (.flt b)).gau = s.gau := rfl
@[simp] theorem flt_otp (s : State) (b : FltSt) : (Eff.apply s (.flt b)).otp = s.otp := rfl
@[simp] theorem flt_dut (s : State) (b : FltSt) : (Eff.apply s (.flt b)).dut = s.dut := rfl
@[simp] theorem flt_rfe (s : State) (b : FltSt) : (Eff.apply s (.flt b)).rfe = s.rfe := rfl
@[simp] theorem flt_chz (s : State) (b : FltSt) : (Eff.apply s (.flt b)).chz = s.chz := rfl
@[simp] theorem flt_dmd (s : State) (b : FltSt) : (Eff.apply s (.flt b)).dmd = s.dmd := rfl
@[simp] theorem flt_frm (s : State) (b : FltSt) : (Eff.apply s (.flt b)).frm = s.frm := rfl
@[simp] theorem flt_txp (s : State) (b : FltSt) : (Eff.apply s (.flt b)).txp = s.txp := rfl
@[simp] theorem flt_shu (s : State) (b : FltSt) : (Eff.apply s (.flt b)).shu = s.shu := rfl
@[simp] theorem flt_bob (s : State) (b : FltSt) : (Eff.apply s (.flt b)).bob = s.bob := rfl
@[simp] theorem flt_key (s : State) (b : FltSt) : (Eff.apply s (.flt b)).key = s.key := rfl
@[simp] theorem flt_sec (s : State) (b : FltSt) : (Eff.apply s (.flt b)).sec = s.sec := rfl
@[simp] theorem flt_cmd (s : State) (b : FltSt) : (Eff.apply s (.flt b)).cmd = s.cmd := rfl
@[simp] theorem flt_flc (s : State) (b : FltSt) : (Eff.apply s (.flt b)).flc = s.flc := rfl
@[simp] theorem flt_ecc (s : State) (b : FltSt) : (Eff.apply s (.flt b)).ecc = s.ecc := rfl
@[simp] theorem flt_dn (s : State) (b : FltSt) : (Eff.apply s (.flt b)).dn = s.dn := rfl
@[simp] theorem flt_dbg (s : State) (b : FltSt) : (Eff.apply s (.flt b)).dbg = s.dbg := rfl
@[simp] theorem flt_vif (s : State) (b : FltSt) : (Eff.apply s (.flt b)).vif = s.vif := rfl
@[simp] theorem flt_upd (s : State) (b : FltSt) : (Eff.apply s (.flt b)).upd = s.upd := rfl
@[simp] theorem flt_cas (s : State) (b : FltSt) : (Eff.apply s (.flt b)).cas = s.cas := rfl
@[simp] theorem flt_hif (s : State) (b : FltSt) : (Eff.apply s (.flt b)).hif = s.hif := rfl
@[simp] theorem flt_drawn (s : State) (b : FltSt) : (Eff.apply s (.flt b)).drawn = s.drawn := rfl
@[simp] theorem flt_pending (s : State) (b : FltSt) : (Eff.apply s (.flt b)).pending = s.pending := rfl
@[simp] theorem flt_flt (s : State) (b : FltSt) : (Eff.apply s (.flt b)).flt = b := rfl
@[simp] theorem stm_regs (s : State) (b : StmSt) : (Eff.apply s (.stm b)).regs = s.regs := rfl
@[simp] theorem stm_mem (s : State) (b : StmSt) : (Eff.apply s (.stm b)).mem = s.mem := rfl
@[simp] theorem stm_pat (s : State) (b : StmSt) : (Eff.apply s (.stm b)).pat = s.pat := rfl
@[simp] theorem stm_clk (s : State) (b : StmSt) : (Eff.apply s (.stm b)).clk = s.clk := rfl
@[simp] theorem stm_flt (s : State) (b : StmSt) : (Eff.apply s (.stm b)).flt = s.flt := rfl
@[simp] theorem stm_pwr (s : State) (b : StmSt) : (Eff.apply s (.stm b)).pwr = s.pwr := rfl
@[simp] theorem stm_recd (s : State) (b : StmSt) : (Eff.apply s (.stm b)).recd = s.recd := rfl
@[simp] theorem stm_bus (s : State) (b : StmSt) : (Eff.apply s (.stm b)).bus = s.bus := rfl
@[simp] theorem stm_thm (s : State) (b : StmSt) : (Eff.apply s (.stm b)).thm = s.thm := rfl
@[simp] theorem stm_tim (s : State) (b : StmSt) : (Eff.apply s (.stm b)).tim = s.tim := rfl
@[simp] theorem stm_i2c (s : State) (b : StmSt) : (Eff.apply s (.stm b)).i2c = s.i2c := rfl
@[simp] theorem stm_mov (s : State) (b : StmSt) : (Eff.apply s (.stm b)).mov = s.mov := rfl
@[simp] theorem stm_lmp (s : State) (b : StmSt) : (Eff.apply s (.stm b)).lmp = s.lmp := rfl
@[simp] theorem stm_mtr (s : State) (b : StmSt) : (Eff.apply s (.stm b)).mtr = s.mtr := rfl
@[simp] theorem stm_ref (s : State) (b : StmSt) : (Eff.apply s (.stm b)).ref = s.ref := rfl
@[simp] theorem stm_gau (s : State) (b : StmSt) : (Eff.apply s (.stm b)).gau = s.gau := rfl
@[simp] theorem stm_otp (s : State) (b : StmSt) : (Eff.apply s (.stm b)).otp = s.otp := rfl
@[simp] theorem stm_dut (s : State) (b : StmSt) : (Eff.apply s (.stm b)).dut = s.dut := rfl
@[simp] theorem stm_rfe (s : State) (b : StmSt) : (Eff.apply s (.stm b)).rfe = s.rfe := rfl
@[simp] theorem stm_chz (s : State) (b : StmSt) : (Eff.apply s (.stm b)).chz = s.chz := rfl
@[simp] theorem stm_dmd (s : State) (b : StmSt) : (Eff.apply s (.stm b)).dmd = s.dmd := rfl
@[simp] theorem stm_frm (s : State) (b : StmSt) : (Eff.apply s (.stm b)).frm = s.frm := rfl
@[simp] theorem stm_txp (s : State) (b : StmSt) : (Eff.apply s (.stm b)).txp = s.txp := rfl
@[simp] theorem stm_shu (s : State) (b : StmSt) : (Eff.apply s (.stm b)).shu = s.shu := rfl
@[simp] theorem stm_bob (s : State) (b : StmSt) : (Eff.apply s (.stm b)).bob = s.bob := rfl
@[simp] theorem stm_key (s : State) (b : StmSt) : (Eff.apply s (.stm b)).key = s.key := rfl
@[simp] theorem stm_sec (s : State) (b : StmSt) : (Eff.apply s (.stm b)).sec = s.sec := rfl
@[simp] theorem stm_cmd (s : State) (b : StmSt) : (Eff.apply s (.stm b)).cmd = s.cmd := rfl
@[simp] theorem stm_flc (s : State) (b : StmSt) : (Eff.apply s (.stm b)).flc = s.flc := rfl
@[simp] theorem stm_ecc (s : State) (b : StmSt) : (Eff.apply s (.stm b)).ecc = s.ecc := rfl
@[simp] theorem stm_dn (s : State) (b : StmSt) : (Eff.apply s (.stm b)).dn = s.dn := rfl
@[simp] theorem stm_dbg (s : State) (b : StmSt) : (Eff.apply s (.stm b)).dbg = s.dbg := rfl
@[simp] theorem stm_vif (s : State) (b : StmSt) : (Eff.apply s (.stm b)).vif = s.vif := rfl
@[simp] theorem stm_upd (s : State) (b : StmSt) : (Eff.apply s (.stm b)).upd = s.upd := rfl
@[simp] theorem stm_cas (s : State) (b : StmSt) : (Eff.apply s (.stm b)).cas = s.cas := rfl
@[simp] theorem stm_hif (s : State) (b : StmSt) : (Eff.apply s (.stm b)).hif = s.hif := rfl
@[simp] theorem stm_drawn (s : State) (b : StmSt) : (Eff.apply s (.stm b)).drawn = s.drawn := rfl
@[simp] theorem stm_pending (s : State) (b : StmSt) : (Eff.apply s (.stm b)).pending = s.pending := rfl
@[simp] theorem stm_stm (s : State) (b : StmSt) : (Eff.apply s (.stm b)).stm = b := rfl
@[simp] theorem pwr_regs (s : State) (b : PwrSt) : (Eff.apply s (.pwr b)).regs = s.regs := rfl
@[simp] theorem pwr_mem (s : State) (b : PwrSt) : (Eff.apply s (.pwr b)).mem = s.mem := rfl
@[simp] theorem pwr_pat (s : State) (b : PwrSt) : (Eff.apply s (.pwr b)).pat = s.pat := rfl
@[simp] theorem pwr_clk (s : State) (b : PwrSt) : (Eff.apply s (.pwr b)).clk = s.clk := rfl
@[simp] theorem pwr_flt (s : State) (b : PwrSt) : (Eff.apply s (.pwr b)).flt = s.flt := rfl
@[simp] theorem pwr_stm (s : State) (b : PwrSt) : (Eff.apply s (.pwr b)).stm = s.stm := rfl
@[simp] theorem pwr_recd (s : State) (b : PwrSt) : (Eff.apply s (.pwr b)).recd = s.recd := rfl
@[simp] theorem pwr_bus (s : State) (b : PwrSt) : (Eff.apply s (.pwr b)).bus = s.bus := rfl
@[simp] theorem pwr_thm (s : State) (b : PwrSt) : (Eff.apply s (.pwr b)).thm = s.thm := rfl
@[simp] theorem pwr_tim (s : State) (b : PwrSt) : (Eff.apply s (.pwr b)).tim = s.tim := rfl
@[simp] theorem pwr_i2c (s : State) (b : PwrSt) : (Eff.apply s (.pwr b)).i2c = s.i2c := rfl
@[simp] theorem pwr_mov (s : State) (b : PwrSt) : (Eff.apply s (.pwr b)).mov = s.mov := rfl
@[simp] theorem pwr_lmp (s : State) (b : PwrSt) : (Eff.apply s (.pwr b)).lmp = s.lmp := rfl
@[simp] theorem pwr_mtr (s : State) (b : PwrSt) : (Eff.apply s (.pwr b)).mtr = s.mtr := rfl
@[simp] theorem pwr_ref (s : State) (b : PwrSt) : (Eff.apply s (.pwr b)).ref = s.ref := rfl
@[simp] theorem pwr_gau (s : State) (b : PwrSt) : (Eff.apply s (.pwr b)).gau = s.gau := rfl
@[simp] theorem pwr_otp (s : State) (b : PwrSt) : (Eff.apply s (.pwr b)).otp = s.otp := rfl
@[simp] theorem pwr_dut (s : State) (b : PwrSt) : (Eff.apply s (.pwr b)).dut = s.dut := rfl
@[simp] theorem pwr_rfe (s : State) (b : PwrSt) : (Eff.apply s (.pwr b)).rfe = s.rfe := rfl
@[simp] theorem pwr_chz (s : State) (b : PwrSt) : (Eff.apply s (.pwr b)).chz = s.chz := rfl
@[simp] theorem pwr_dmd (s : State) (b : PwrSt) : (Eff.apply s (.pwr b)).dmd = s.dmd := rfl
@[simp] theorem pwr_frm (s : State) (b : PwrSt) : (Eff.apply s (.pwr b)).frm = s.frm := rfl
@[simp] theorem pwr_txp (s : State) (b : PwrSt) : (Eff.apply s (.pwr b)).txp = s.txp := rfl
@[simp] theorem pwr_shu (s : State) (b : PwrSt) : (Eff.apply s (.pwr b)).shu = s.shu := rfl
@[simp] theorem pwr_bob (s : State) (b : PwrSt) : (Eff.apply s (.pwr b)).bob = s.bob := rfl
@[simp] theorem pwr_key (s : State) (b : PwrSt) : (Eff.apply s (.pwr b)).key = s.key := rfl
@[simp] theorem pwr_sec (s : State) (b : PwrSt) : (Eff.apply s (.pwr b)).sec = s.sec := rfl
@[simp] theorem pwr_cmd (s : State) (b : PwrSt) : (Eff.apply s (.pwr b)).cmd = s.cmd := rfl
@[simp] theorem pwr_flc (s : State) (b : PwrSt) : (Eff.apply s (.pwr b)).flc = s.flc := rfl
@[simp] theorem pwr_ecc (s : State) (b : PwrSt) : (Eff.apply s (.pwr b)).ecc = s.ecc := rfl
@[simp] theorem pwr_dn (s : State) (b : PwrSt) : (Eff.apply s (.pwr b)).dn = s.dn := rfl
@[simp] theorem pwr_dbg (s : State) (b : PwrSt) : (Eff.apply s (.pwr b)).dbg = s.dbg := rfl
@[simp] theorem pwr_vif (s : State) (b : PwrSt) : (Eff.apply s (.pwr b)).vif = s.vif := rfl
@[simp] theorem pwr_upd (s : State) (b : PwrSt) : (Eff.apply s (.pwr b)).upd = s.upd := rfl
@[simp] theorem pwr_cas (s : State) (b : PwrSt) : (Eff.apply s (.pwr b)).cas = s.cas := rfl
@[simp] theorem pwr_hif (s : State) (b : PwrSt) : (Eff.apply s (.pwr b)).hif = s.hif := rfl
@[simp] theorem pwr_drawn (s : State) (b : PwrSt) : (Eff.apply s (.pwr b)).drawn = s.drawn := rfl
@[simp] theorem pwr_pending (s : State) (b : PwrSt) : (Eff.apply s (.pwr b)).pending = s.pending := rfl
@[simp] theorem pwr_pwr (s : State) (b : PwrSt) : (Eff.apply s (.pwr b)).pwr = b := rfl
@[simp] theorem recd_regs (s : State) (b : RecSt) : (Eff.apply s (.recd b)).regs = s.regs := rfl
@[simp] theorem recd_mem (s : State) (b : RecSt) : (Eff.apply s (.recd b)).mem = s.mem := rfl
@[simp] theorem recd_pat (s : State) (b : RecSt) : (Eff.apply s (.recd b)).pat = s.pat := rfl
@[simp] theorem recd_clk (s : State) (b : RecSt) : (Eff.apply s (.recd b)).clk = s.clk := rfl
@[simp] theorem recd_flt (s : State) (b : RecSt) : (Eff.apply s (.recd b)).flt = s.flt := rfl
@[simp] theorem recd_stm (s : State) (b : RecSt) : (Eff.apply s (.recd b)).stm = s.stm := rfl
@[simp] theorem recd_pwr (s : State) (b : RecSt) : (Eff.apply s (.recd b)).pwr = s.pwr := rfl
@[simp] theorem recd_bus (s : State) (b : RecSt) : (Eff.apply s (.recd b)).bus = s.bus := rfl
@[simp] theorem recd_thm (s : State) (b : RecSt) : (Eff.apply s (.recd b)).thm = s.thm := rfl
@[simp] theorem recd_tim (s : State) (b : RecSt) : (Eff.apply s (.recd b)).tim = s.tim := rfl
@[simp] theorem recd_i2c (s : State) (b : RecSt) : (Eff.apply s (.recd b)).i2c = s.i2c := rfl
@[simp] theorem recd_mov (s : State) (b : RecSt) : (Eff.apply s (.recd b)).mov = s.mov := rfl
@[simp] theorem recd_lmp (s : State) (b : RecSt) : (Eff.apply s (.recd b)).lmp = s.lmp := rfl
@[simp] theorem recd_mtr (s : State) (b : RecSt) : (Eff.apply s (.recd b)).mtr = s.mtr := rfl
@[simp] theorem recd_ref (s : State) (b : RecSt) : (Eff.apply s (.recd b)).ref = s.ref := rfl
@[simp] theorem recd_gau (s : State) (b : RecSt) : (Eff.apply s (.recd b)).gau = s.gau := rfl
@[simp] theorem recd_otp (s : State) (b : RecSt) : (Eff.apply s (.recd b)).otp = s.otp := rfl
@[simp] theorem recd_dut (s : State) (b : RecSt) : (Eff.apply s (.recd b)).dut = s.dut := rfl
@[simp] theorem recd_rfe (s : State) (b : RecSt) : (Eff.apply s (.recd b)).rfe = s.rfe := rfl
@[simp] theorem recd_chz (s : State) (b : RecSt) : (Eff.apply s (.recd b)).chz = s.chz := rfl
@[simp] theorem recd_dmd (s : State) (b : RecSt) : (Eff.apply s (.recd b)).dmd = s.dmd := rfl
@[simp] theorem recd_frm (s : State) (b : RecSt) : (Eff.apply s (.recd b)).frm = s.frm := rfl
@[simp] theorem recd_txp (s : State) (b : RecSt) : (Eff.apply s (.recd b)).txp = s.txp := rfl
@[simp] theorem recd_shu (s : State) (b : RecSt) : (Eff.apply s (.recd b)).shu = s.shu := rfl
@[simp] theorem recd_bob (s : State) (b : RecSt) : (Eff.apply s (.recd b)).bob = s.bob := rfl
@[simp] theorem recd_key (s : State) (b : RecSt) : (Eff.apply s (.recd b)).key = s.key := rfl
@[simp] theorem recd_sec (s : State) (b : RecSt) : (Eff.apply s (.recd b)).sec = s.sec := rfl
@[simp] theorem recd_cmd (s : State) (b : RecSt) : (Eff.apply s (.recd b)).cmd = s.cmd := rfl
@[simp] theorem recd_flc (s : State) (b : RecSt) : (Eff.apply s (.recd b)).flc = s.flc := rfl
@[simp] theorem recd_ecc (s : State) (b : RecSt) : (Eff.apply s (.recd b)).ecc = s.ecc := rfl
@[simp] theorem recd_dn (s : State) (b : RecSt) : (Eff.apply s (.recd b)).dn = s.dn := rfl
@[simp] theorem recd_dbg (s : State) (b : RecSt) : (Eff.apply s (.recd b)).dbg = s.dbg := rfl
@[simp] theorem recd_vif (s : State) (b : RecSt) : (Eff.apply s (.recd b)).vif = s.vif := rfl
@[simp] theorem recd_upd (s : State) (b : RecSt) : (Eff.apply s (.recd b)).upd = s.upd := rfl
@[simp] theorem recd_cas (s : State) (b : RecSt) : (Eff.apply s (.recd b)).cas = s.cas := rfl
@[simp] theorem recd_hif (s : State) (b : RecSt) : (Eff.apply s (.recd b)).hif = s.hif := rfl
@[simp] theorem recd_drawn (s : State) (b : RecSt) : (Eff.apply s (.recd b)).drawn = s.drawn := rfl
@[simp] theorem recd_pending (s : State) (b : RecSt) : (Eff.apply s (.recd b)).pending = s.pending := rfl
@[simp] theorem recd_recd (s : State) (b : RecSt) : (Eff.apply s (.recd b)).recd = b := rfl
@[simp] theorem bus_regs (s : State) (b : BusSt) : (Eff.apply s (.bus b)).regs = s.regs := rfl
@[simp] theorem bus_mem (s : State) (b : BusSt) : (Eff.apply s (.bus b)).mem = s.mem := rfl
@[simp] theorem bus_pat (s : State) (b : BusSt) : (Eff.apply s (.bus b)).pat = s.pat := rfl
@[simp] theorem bus_clk (s : State) (b : BusSt) : (Eff.apply s (.bus b)).clk = s.clk := rfl
@[simp] theorem bus_flt (s : State) (b : BusSt) : (Eff.apply s (.bus b)).flt = s.flt := rfl
@[simp] theorem bus_stm (s : State) (b : BusSt) : (Eff.apply s (.bus b)).stm = s.stm := rfl
@[simp] theorem bus_pwr (s : State) (b : BusSt) : (Eff.apply s (.bus b)).pwr = s.pwr := rfl
@[simp] theorem bus_recd (s : State) (b : BusSt) : (Eff.apply s (.bus b)).recd = s.recd := rfl
@[simp] theorem bus_thm (s : State) (b : BusSt) : (Eff.apply s (.bus b)).thm = s.thm := rfl
@[simp] theorem bus_tim (s : State) (b : BusSt) : (Eff.apply s (.bus b)).tim = s.tim := rfl
@[simp] theorem bus_i2c (s : State) (b : BusSt) : (Eff.apply s (.bus b)).i2c = s.i2c := rfl
@[simp] theorem bus_mov (s : State) (b : BusSt) : (Eff.apply s (.bus b)).mov = s.mov := rfl
@[simp] theorem bus_lmp (s : State) (b : BusSt) : (Eff.apply s (.bus b)).lmp = s.lmp := rfl
@[simp] theorem bus_mtr (s : State) (b : BusSt) : (Eff.apply s (.bus b)).mtr = s.mtr := rfl
@[simp] theorem bus_ref (s : State) (b : BusSt) : (Eff.apply s (.bus b)).ref = s.ref := rfl
@[simp] theorem bus_gau (s : State) (b : BusSt) : (Eff.apply s (.bus b)).gau = s.gau := rfl
@[simp] theorem bus_otp (s : State) (b : BusSt) : (Eff.apply s (.bus b)).otp = s.otp := rfl
@[simp] theorem bus_dut (s : State) (b : BusSt) : (Eff.apply s (.bus b)).dut = s.dut := rfl
@[simp] theorem bus_rfe (s : State) (b : BusSt) : (Eff.apply s (.bus b)).rfe = s.rfe := rfl
@[simp] theorem bus_chz (s : State) (b : BusSt) : (Eff.apply s (.bus b)).chz = s.chz := rfl
@[simp] theorem bus_dmd (s : State) (b : BusSt) : (Eff.apply s (.bus b)).dmd = s.dmd := rfl
@[simp] theorem bus_frm (s : State) (b : BusSt) : (Eff.apply s (.bus b)).frm = s.frm := rfl
@[simp] theorem bus_txp (s : State) (b : BusSt) : (Eff.apply s (.bus b)).txp = s.txp := rfl
@[simp] theorem bus_shu (s : State) (b : BusSt) : (Eff.apply s (.bus b)).shu = s.shu := rfl
@[simp] theorem bus_bob (s : State) (b : BusSt) : (Eff.apply s (.bus b)).bob = s.bob := rfl
@[simp] theorem bus_key (s : State) (b : BusSt) : (Eff.apply s (.bus b)).key = s.key := rfl
@[simp] theorem bus_sec (s : State) (b : BusSt) : (Eff.apply s (.bus b)).sec = s.sec := rfl
@[simp] theorem bus_cmd (s : State) (b : BusSt) : (Eff.apply s (.bus b)).cmd = s.cmd := rfl
@[simp] theorem bus_flc (s : State) (b : BusSt) : (Eff.apply s (.bus b)).flc = s.flc := rfl
@[simp] theorem bus_ecc (s : State) (b : BusSt) : (Eff.apply s (.bus b)).ecc = s.ecc := rfl
@[simp] theorem bus_dn (s : State) (b : BusSt) : (Eff.apply s (.bus b)).dn = s.dn := rfl
@[simp] theorem bus_dbg (s : State) (b : BusSt) : (Eff.apply s (.bus b)).dbg = s.dbg := rfl
@[simp] theorem bus_vif (s : State) (b : BusSt) : (Eff.apply s (.bus b)).vif = s.vif := rfl
@[simp] theorem bus_upd (s : State) (b : BusSt) : (Eff.apply s (.bus b)).upd = s.upd := rfl
@[simp] theorem bus_cas (s : State) (b : BusSt) : (Eff.apply s (.bus b)).cas = s.cas := rfl
@[simp] theorem bus_hif (s : State) (b : BusSt) : (Eff.apply s (.bus b)).hif = s.hif := rfl
@[simp] theorem bus_drawn (s : State) (b : BusSt) : (Eff.apply s (.bus b)).drawn = s.drawn := rfl
@[simp] theorem bus_pending (s : State) (b : BusSt) : (Eff.apply s (.bus b)).pending = s.pending := rfl
@[simp] theorem bus_bus (s : State) (b : BusSt) : (Eff.apply s (.bus b)).bus = b := rfl
@[simp] theorem thm_regs (s : State) (b : ThmSt) : (Eff.apply s (.thm b)).regs = s.regs := rfl
@[simp] theorem thm_mem (s : State) (b : ThmSt) : (Eff.apply s (.thm b)).mem = s.mem := rfl
@[simp] theorem thm_pat (s : State) (b : ThmSt) : (Eff.apply s (.thm b)).pat = s.pat := rfl
@[simp] theorem thm_clk (s : State) (b : ThmSt) : (Eff.apply s (.thm b)).clk = s.clk := rfl
@[simp] theorem thm_flt (s : State) (b : ThmSt) : (Eff.apply s (.thm b)).flt = s.flt := rfl
@[simp] theorem thm_stm (s : State) (b : ThmSt) : (Eff.apply s (.thm b)).stm = s.stm := rfl
@[simp] theorem thm_pwr (s : State) (b : ThmSt) : (Eff.apply s (.thm b)).pwr = s.pwr := rfl
@[simp] theorem thm_recd (s : State) (b : ThmSt) : (Eff.apply s (.thm b)).recd = s.recd := rfl
@[simp] theorem thm_bus (s : State) (b : ThmSt) : (Eff.apply s (.thm b)).bus = s.bus := rfl
@[simp] theorem thm_tim (s : State) (b : ThmSt) : (Eff.apply s (.thm b)).tim = s.tim := rfl
@[simp] theorem thm_i2c (s : State) (b : ThmSt) : (Eff.apply s (.thm b)).i2c = s.i2c := rfl
@[simp] theorem thm_mov (s : State) (b : ThmSt) : (Eff.apply s (.thm b)).mov = s.mov := rfl
@[simp] theorem thm_lmp (s : State) (b : ThmSt) : (Eff.apply s (.thm b)).lmp = s.lmp := rfl
@[simp] theorem thm_mtr (s : State) (b : ThmSt) : (Eff.apply s (.thm b)).mtr = s.mtr := rfl
@[simp] theorem thm_ref (s : State) (b : ThmSt) : (Eff.apply s (.thm b)).ref = s.ref := rfl
@[simp] theorem thm_gau (s : State) (b : ThmSt) : (Eff.apply s (.thm b)).gau = s.gau := rfl
@[simp] theorem thm_otp (s : State) (b : ThmSt) : (Eff.apply s (.thm b)).otp = s.otp := rfl
@[simp] theorem thm_dut (s : State) (b : ThmSt) : (Eff.apply s (.thm b)).dut = s.dut := rfl
@[simp] theorem thm_rfe (s : State) (b : ThmSt) : (Eff.apply s (.thm b)).rfe = s.rfe := rfl
@[simp] theorem thm_chz (s : State) (b : ThmSt) : (Eff.apply s (.thm b)).chz = s.chz := rfl
@[simp] theorem thm_dmd (s : State) (b : ThmSt) : (Eff.apply s (.thm b)).dmd = s.dmd := rfl
@[simp] theorem thm_frm (s : State) (b : ThmSt) : (Eff.apply s (.thm b)).frm = s.frm := rfl
@[simp] theorem thm_txp (s : State) (b : ThmSt) : (Eff.apply s (.thm b)).txp = s.txp := rfl
@[simp] theorem thm_shu (s : State) (b : ThmSt) : (Eff.apply s (.thm b)).shu = s.shu := rfl
@[simp] theorem thm_bob (s : State) (b : ThmSt) : (Eff.apply s (.thm b)).bob = s.bob := rfl
@[simp] theorem thm_key (s : State) (b : ThmSt) : (Eff.apply s (.thm b)).key = s.key := rfl
@[simp] theorem thm_sec (s : State) (b : ThmSt) : (Eff.apply s (.thm b)).sec = s.sec := rfl
@[simp] theorem thm_cmd (s : State) (b : ThmSt) : (Eff.apply s (.thm b)).cmd = s.cmd := rfl
@[simp] theorem thm_flc (s : State) (b : ThmSt) : (Eff.apply s (.thm b)).flc = s.flc := rfl
@[simp] theorem thm_ecc (s : State) (b : ThmSt) : (Eff.apply s (.thm b)).ecc = s.ecc := rfl
@[simp] theorem thm_dn (s : State) (b : ThmSt) : (Eff.apply s (.thm b)).dn = s.dn := rfl
@[simp] theorem thm_dbg (s : State) (b : ThmSt) : (Eff.apply s (.thm b)).dbg = s.dbg := rfl
@[simp] theorem thm_vif (s : State) (b : ThmSt) : (Eff.apply s (.thm b)).vif = s.vif := rfl
@[simp] theorem thm_upd (s : State) (b : ThmSt) : (Eff.apply s (.thm b)).upd = s.upd := rfl
@[simp] theorem thm_cas (s : State) (b : ThmSt) : (Eff.apply s (.thm b)).cas = s.cas := rfl
@[simp] theorem thm_hif (s : State) (b : ThmSt) : (Eff.apply s (.thm b)).hif = s.hif := rfl
@[simp] theorem thm_drawn (s : State) (b : ThmSt) : (Eff.apply s (.thm b)).drawn = s.drawn := rfl
@[simp] theorem thm_pending (s : State) (b : ThmSt) : (Eff.apply s (.thm b)).pending = s.pending := rfl
@[simp] theorem thm_thm (s : State) (b : ThmSt) : (Eff.apply s (.thm b)).thm = b := rfl
@[simp] theorem tim_regs (s : State) (b : TimSt) : (Eff.apply s (.tim b)).regs = s.regs := rfl
@[simp] theorem tim_mem (s : State) (b : TimSt) : (Eff.apply s (.tim b)).mem = s.mem := rfl
@[simp] theorem tim_pat (s : State) (b : TimSt) : (Eff.apply s (.tim b)).pat = s.pat := rfl
@[simp] theorem tim_clk (s : State) (b : TimSt) : (Eff.apply s (.tim b)).clk = s.clk := rfl
@[simp] theorem tim_flt (s : State) (b : TimSt) : (Eff.apply s (.tim b)).flt = s.flt := rfl
@[simp] theorem tim_stm (s : State) (b : TimSt) : (Eff.apply s (.tim b)).stm = s.stm := rfl
@[simp] theorem tim_pwr (s : State) (b : TimSt) : (Eff.apply s (.tim b)).pwr = s.pwr := rfl
@[simp] theorem tim_recd (s : State) (b : TimSt) : (Eff.apply s (.tim b)).recd = s.recd := rfl
@[simp] theorem tim_bus (s : State) (b : TimSt) : (Eff.apply s (.tim b)).bus = s.bus := rfl
@[simp] theorem tim_thm (s : State) (b : TimSt) : (Eff.apply s (.tim b)).thm = s.thm := rfl
@[simp] theorem tim_i2c (s : State) (b : TimSt) : (Eff.apply s (.tim b)).i2c = s.i2c := rfl
@[simp] theorem tim_mov (s : State) (b : TimSt) : (Eff.apply s (.tim b)).mov = s.mov := rfl
@[simp] theorem tim_lmp (s : State) (b : TimSt) : (Eff.apply s (.tim b)).lmp = s.lmp := rfl
@[simp] theorem tim_mtr (s : State) (b : TimSt) : (Eff.apply s (.tim b)).mtr = s.mtr := rfl
@[simp] theorem tim_ref (s : State) (b : TimSt) : (Eff.apply s (.tim b)).ref = s.ref := rfl
@[simp] theorem tim_gau (s : State) (b : TimSt) : (Eff.apply s (.tim b)).gau = s.gau := rfl
@[simp] theorem tim_otp (s : State) (b : TimSt) : (Eff.apply s (.tim b)).otp = s.otp := rfl
@[simp] theorem tim_dut (s : State) (b : TimSt) : (Eff.apply s (.tim b)).dut = s.dut := rfl
@[simp] theorem tim_rfe (s : State) (b : TimSt) : (Eff.apply s (.tim b)).rfe = s.rfe := rfl
@[simp] theorem tim_chz (s : State) (b : TimSt) : (Eff.apply s (.tim b)).chz = s.chz := rfl
@[simp] theorem tim_dmd (s : State) (b : TimSt) : (Eff.apply s (.tim b)).dmd = s.dmd := rfl
@[simp] theorem tim_frm (s : State) (b : TimSt) : (Eff.apply s (.tim b)).frm = s.frm := rfl
@[simp] theorem tim_txp (s : State) (b : TimSt) : (Eff.apply s (.tim b)).txp = s.txp := rfl
@[simp] theorem tim_shu (s : State) (b : TimSt) : (Eff.apply s (.tim b)).shu = s.shu := rfl
@[simp] theorem tim_bob (s : State) (b : TimSt) : (Eff.apply s (.tim b)).bob = s.bob := rfl
@[simp] theorem tim_key (s : State) (b : TimSt) : (Eff.apply s (.tim b)).key = s.key := rfl
@[simp] theorem tim_sec (s : State) (b : TimSt) : (Eff.apply s (.tim b)).sec = s.sec := rfl
@[simp] theorem tim_cmd (s : State) (b : TimSt) : (Eff.apply s (.tim b)).cmd = s.cmd := rfl
@[simp] theorem tim_flc (s : State) (b : TimSt) : (Eff.apply s (.tim b)).flc = s.flc := rfl
@[simp] theorem tim_ecc (s : State) (b : TimSt) : (Eff.apply s (.tim b)).ecc = s.ecc := rfl
@[simp] theorem tim_dn (s : State) (b : TimSt) : (Eff.apply s (.tim b)).dn = s.dn := rfl
@[simp] theorem tim_dbg (s : State) (b : TimSt) : (Eff.apply s (.tim b)).dbg = s.dbg := rfl
@[simp] theorem tim_vif (s : State) (b : TimSt) : (Eff.apply s (.tim b)).vif = s.vif := rfl
@[simp] theorem tim_upd (s : State) (b : TimSt) : (Eff.apply s (.tim b)).upd = s.upd := rfl
@[simp] theorem tim_cas (s : State) (b : TimSt) : (Eff.apply s (.tim b)).cas = s.cas := rfl
@[simp] theorem tim_hif (s : State) (b : TimSt) : (Eff.apply s (.tim b)).hif = s.hif := rfl
@[simp] theorem tim_drawn (s : State) (b : TimSt) : (Eff.apply s (.tim b)).drawn = s.drawn := rfl
@[simp] theorem tim_pending (s : State) (b : TimSt) : (Eff.apply s (.tim b)).pending = s.pending := rfl
@[simp] theorem tim_tim (s : State) (b : TimSt) : (Eff.apply s (.tim b)).tim = b := rfl
@[simp] theorem i2c_regs (s : State) (b : I2cSt) : (Eff.apply s (.i2c b)).regs = s.regs := rfl
@[simp] theorem i2c_mem (s : State) (b : I2cSt) : (Eff.apply s (.i2c b)).mem = s.mem := rfl
@[simp] theorem i2c_pat (s : State) (b : I2cSt) : (Eff.apply s (.i2c b)).pat = s.pat := rfl
@[simp] theorem i2c_clk (s : State) (b : I2cSt) : (Eff.apply s (.i2c b)).clk = s.clk := rfl
@[simp] theorem i2c_flt (s : State) (b : I2cSt) : (Eff.apply s (.i2c b)).flt = s.flt := rfl
@[simp] theorem i2c_stm (s : State) (b : I2cSt) : (Eff.apply s (.i2c b)).stm = s.stm := rfl
@[simp] theorem i2c_pwr (s : State) (b : I2cSt) : (Eff.apply s (.i2c b)).pwr = s.pwr := rfl
@[simp] theorem i2c_recd (s : State) (b : I2cSt) : (Eff.apply s (.i2c b)).recd = s.recd := rfl
@[simp] theorem i2c_bus (s : State) (b : I2cSt) : (Eff.apply s (.i2c b)).bus = s.bus := rfl
@[simp] theorem i2c_thm (s : State) (b : I2cSt) : (Eff.apply s (.i2c b)).thm = s.thm := rfl
@[simp] theorem i2c_tim (s : State) (b : I2cSt) : (Eff.apply s (.i2c b)).tim = s.tim := rfl
@[simp] theorem i2c_mov (s : State) (b : I2cSt) : (Eff.apply s (.i2c b)).mov = s.mov := rfl
@[simp] theorem i2c_lmp (s : State) (b : I2cSt) : (Eff.apply s (.i2c b)).lmp = s.lmp := rfl
@[simp] theorem i2c_mtr (s : State) (b : I2cSt) : (Eff.apply s (.i2c b)).mtr = s.mtr := rfl
@[simp] theorem i2c_ref (s : State) (b : I2cSt) : (Eff.apply s (.i2c b)).ref = s.ref := rfl
@[simp] theorem i2c_gau (s : State) (b : I2cSt) : (Eff.apply s (.i2c b)).gau = s.gau := rfl
@[simp] theorem i2c_otp (s : State) (b : I2cSt) : (Eff.apply s (.i2c b)).otp = s.otp := rfl
@[simp] theorem i2c_dut (s : State) (b : I2cSt) : (Eff.apply s (.i2c b)).dut = s.dut := rfl
@[simp] theorem i2c_rfe (s : State) (b : I2cSt) : (Eff.apply s (.i2c b)).rfe = s.rfe := rfl
@[simp] theorem i2c_chz (s : State) (b : I2cSt) : (Eff.apply s (.i2c b)).chz = s.chz := rfl
@[simp] theorem i2c_dmd (s : State) (b : I2cSt) : (Eff.apply s (.i2c b)).dmd = s.dmd := rfl
@[simp] theorem i2c_frm (s : State) (b : I2cSt) : (Eff.apply s (.i2c b)).frm = s.frm := rfl
@[simp] theorem i2c_txp (s : State) (b : I2cSt) : (Eff.apply s (.i2c b)).txp = s.txp := rfl
@[simp] theorem i2c_shu (s : State) (b : I2cSt) : (Eff.apply s (.i2c b)).shu = s.shu := rfl
@[simp] theorem i2c_bob (s : State) (b : I2cSt) : (Eff.apply s (.i2c b)).bob = s.bob := rfl
@[simp] theorem i2c_key (s : State) (b : I2cSt) : (Eff.apply s (.i2c b)).key = s.key := rfl
@[simp] theorem i2c_sec (s : State) (b : I2cSt) : (Eff.apply s (.i2c b)).sec = s.sec := rfl
@[simp] theorem i2c_cmd (s : State) (b : I2cSt) : (Eff.apply s (.i2c b)).cmd = s.cmd := rfl
@[simp] theorem i2c_flc (s : State) (b : I2cSt) : (Eff.apply s (.i2c b)).flc = s.flc := rfl
@[simp] theorem i2c_ecc (s : State) (b : I2cSt) : (Eff.apply s (.i2c b)).ecc = s.ecc := rfl
@[simp] theorem i2c_dn (s : State) (b : I2cSt) : (Eff.apply s (.i2c b)).dn = s.dn := rfl
@[simp] theorem i2c_dbg (s : State) (b : I2cSt) : (Eff.apply s (.i2c b)).dbg = s.dbg := rfl
@[simp] theorem i2c_vif (s : State) (b : I2cSt) : (Eff.apply s (.i2c b)).vif = s.vif := rfl
@[simp] theorem i2c_upd (s : State) (b : I2cSt) : (Eff.apply s (.i2c b)).upd = s.upd := rfl
@[simp] theorem i2c_cas (s : State) (b : I2cSt) : (Eff.apply s (.i2c b)).cas = s.cas := rfl
@[simp] theorem i2c_hif (s : State) (b : I2cSt) : (Eff.apply s (.i2c b)).hif = s.hif := rfl
@[simp] theorem i2c_drawn (s : State) (b : I2cSt) : (Eff.apply s (.i2c b)).drawn = s.drawn := rfl
@[simp] theorem i2c_pending (s : State) (b : I2cSt) : (Eff.apply s (.i2c b)).pending = s.pending := rfl
@[simp] theorem i2c_i2c (s : State) (b : I2cSt) : (Eff.apply s (.i2c b)).i2c = b := rfl
@[simp] theorem mov_regs (s : State) (b : MovSt) : (Eff.apply s (.mov b)).regs = s.regs := rfl
@[simp] theorem mov_mem (s : State) (b : MovSt) : (Eff.apply s (.mov b)).mem = s.mem := rfl
@[simp] theorem mov_pat (s : State) (b : MovSt) : (Eff.apply s (.mov b)).pat = s.pat := rfl
@[simp] theorem mov_clk (s : State) (b : MovSt) : (Eff.apply s (.mov b)).clk = s.clk := rfl
@[simp] theorem mov_flt (s : State) (b : MovSt) : (Eff.apply s (.mov b)).flt = s.flt := rfl
@[simp] theorem mov_stm (s : State) (b : MovSt) : (Eff.apply s (.mov b)).stm = s.stm := rfl
@[simp] theorem mov_pwr (s : State) (b : MovSt) : (Eff.apply s (.mov b)).pwr = s.pwr := rfl
@[simp] theorem mov_recd (s : State) (b : MovSt) : (Eff.apply s (.mov b)).recd = s.recd := rfl
@[simp] theorem mov_bus (s : State) (b : MovSt) : (Eff.apply s (.mov b)).bus = s.bus := rfl
@[simp] theorem mov_thm (s : State) (b : MovSt) : (Eff.apply s (.mov b)).thm = s.thm := rfl
@[simp] theorem mov_tim (s : State) (b : MovSt) : (Eff.apply s (.mov b)).tim = s.tim := rfl
@[simp] theorem mov_i2c (s : State) (b : MovSt) : (Eff.apply s (.mov b)).i2c = s.i2c := rfl
@[simp] theorem mov_lmp (s : State) (b : MovSt) : (Eff.apply s (.mov b)).lmp = s.lmp := rfl
@[simp] theorem mov_mtr (s : State) (b : MovSt) : (Eff.apply s (.mov b)).mtr = s.mtr := rfl
@[simp] theorem mov_ref (s : State) (b : MovSt) : (Eff.apply s (.mov b)).ref = s.ref := rfl
@[simp] theorem mov_gau (s : State) (b : MovSt) : (Eff.apply s (.mov b)).gau = s.gau := rfl
@[simp] theorem mov_otp (s : State) (b : MovSt) : (Eff.apply s (.mov b)).otp = s.otp := rfl
@[simp] theorem mov_dut (s : State) (b : MovSt) : (Eff.apply s (.mov b)).dut = s.dut := rfl
@[simp] theorem mov_rfe (s : State) (b : MovSt) : (Eff.apply s (.mov b)).rfe = s.rfe := rfl
@[simp] theorem mov_chz (s : State) (b : MovSt) : (Eff.apply s (.mov b)).chz = s.chz := rfl
@[simp] theorem mov_dmd (s : State) (b : MovSt) : (Eff.apply s (.mov b)).dmd = s.dmd := rfl
@[simp] theorem mov_frm (s : State) (b : MovSt) : (Eff.apply s (.mov b)).frm = s.frm := rfl
@[simp] theorem mov_txp (s : State) (b : MovSt) : (Eff.apply s (.mov b)).txp = s.txp := rfl
@[simp] theorem mov_shu (s : State) (b : MovSt) : (Eff.apply s (.mov b)).shu = s.shu := rfl
@[simp] theorem mov_bob (s : State) (b : MovSt) : (Eff.apply s (.mov b)).bob = s.bob := rfl
@[simp] theorem mov_key (s : State) (b : MovSt) : (Eff.apply s (.mov b)).key = s.key := rfl
@[simp] theorem mov_sec (s : State) (b : MovSt) : (Eff.apply s (.mov b)).sec = s.sec := rfl
@[simp] theorem mov_cmd (s : State) (b : MovSt) : (Eff.apply s (.mov b)).cmd = s.cmd := rfl
@[simp] theorem mov_flc (s : State) (b : MovSt) : (Eff.apply s (.mov b)).flc = s.flc := rfl
@[simp] theorem mov_ecc (s : State) (b : MovSt) : (Eff.apply s (.mov b)).ecc = s.ecc := rfl
@[simp] theorem mov_dn (s : State) (b : MovSt) : (Eff.apply s (.mov b)).dn = s.dn := rfl
@[simp] theorem mov_dbg (s : State) (b : MovSt) : (Eff.apply s (.mov b)).dbg = s.dbg := rfl
@[simp] theorem mov_vif (s : State) (b : MovSt) : (Eff.apply s (.mov b)).vif = s.vif := rfl
@[simp] theorem mov_upd (s : State) (b : MovSt) : (Eff.apply s (.mov b)).upd = s.upd := rfl
@[simp] theorem mov_cas (s : State) (b : MovSt) : (Eff.apply s (.mov b)).cas = s.cas := rfl
@[simp] theorem mov_hif (s : State) (b : MovSt) : (Eff.apply s (.mov b)).hif = s.hif := rfl
@[simp] theorem mov_drawn (s : State) (b : MovSt) : (Eff.apply s (.mov b)).drawn = s.drawn := rfl
@[simp] theorem mov_pending (s : State) (b : MovSt) : (Eff.apply s (.mov b)).pending = s.pending := rfl
@[simp] theorem mov_mov (s : State) (b : MovSt) : (Eff.apply s (.mov b)).mov = b := rfl
@[simp] theorem lmp_regs (s : State) (b : LmpSt) : (Eff.apply s (.lmp b)).regs = s.regs := rfl
@[simp] theorem lmp_mem (s : State) (b : LmpSt) : (Eff.apply s (.lmp b)).mem = s.mem := rfl
@[simp] theorem lmp_pat (s : State) (b : LmpSt) : (Eff.apply s (.lmp b)).pat = s.pat := rfl
@[simp] theorem lmp_clk (s : State) (b : LmpSt) : (Eff.apply s (.lmp b)).clk = s.clk := rfl
@[simp] theorem lmp_flt (s : State) (b : LmpSt) : (Eff.apply s (.lmp b)).flt = s.flt := rfl
@[simp] theorem lmp_stm (s : State) (b : LmpSt) : (Eff.apply s (.lmp b)).stm = s.stm := rfl
@[simp] theorem lmp_pwr (s : State) (b : LmpSt) : (Eff.apply s (.lmp b)).pwr = s.pwr := rfl
@[simp] theorem lmp_recd (s : State) (b : LmpSt) : (Eff.apply s (.lmp b)).recd = s.recd := rfl
@[simp] theorem lmp_bus (s : State) (b : LmpSt) : (Eff.apply s (.lmp b)).bus = s.bus := rfl
@[simp] theorem lmp_thm (s : State) (b : LmpSt) : (Eff.apply s (.lmp b)).thm = s.thm := rfl
@[simp] theorem lmp_tim (s : State) (b : LmpSt) : (Eff.apply s (.lmp b)).tim = s.tim := rfl
@[simp] theorem lmp_i2c (s : State) (b : LmpSt) : (Eff.apply s (.lmp b)).i2c = s.i2c := rfl
@[simp] theorem lmp_mov (s : State) (b : LmpSt) : (Eff.apply s (.lmp b)).mov = s.mov := rfl
@[simp] theorem lmp_mtr (s : State) (b : LmpSt) : (Eff.apply s (.lmp b)).mtr = s.mtr := rfl
@[simp] theorem lmp_ref (s : State) (b : LmpSt) : (Eff.apply s (.lmp b)).ref = s.ref := rfl
@[simp] theorem lmp_gau (s : State) (b : LmpSt) : (Eff.apply s (.lmp b)).gau = s.gau := rfl
@[simp] theorem lmp_otp (s : State) (b : LmpSt) : (Eff.apply s (.lmp b)).otp = s.otp := rfl
@[simp] theorem lmp_dut (s : State) (b : LmpSt) : (Eff.apply s (.lmp b)).dut = s.dut := rfl
@[simp] theorem lmp_rfe (s : State) (b : LmpSt) : (Eff.apply s (.lmp b)).rfe = s.rfe := rfl
@[simp] theorem lmp_chz (s : State) (b : LmpSt) : (Eff.apply s (.lmp b)).chz = s.chz := rfl
@[simp] theorem lmp_dmd (s : State) (b : LmpSt) : (Eff.apply s (.lmp b)).dmd = s.dmd := rfl
@[simp] theorem lmp_frm (s : State) (b : LmpSt) : (Eff.apply s (.lmp b)).frm = s.frm := rfl
@[simp] theorem lmp_txp (s : State) (b : LmpSt) : (Eff.apply s (.lmp b)).txp = s.txp := rfl
@[simp] theorem lmp_shu (s : State) (b : LmpSt) : (Eff.apply s (.lmp b)).shu = s.shu := rfl
@[simp] theorem lmp_bob (s : State) (b : LmpSt) : (Eff.apply s (.lmp b)).bob = s.bob := rfl
@[simp] theorem lmp_key (s : State) (b : LmpSt) : (Eff.apply s (.lmp b)).key = s.key := rfl
@[simp] theorem lmp_sec (s : State) (b : LmpSt) : (Eff.apply s (.lmp b)).sec = s.sec := rfl
@[simp] theorem lmp_cmd (s : State) (b : LmpSt) : (Eff.apply s (.lmp b)).cmd = s.cmd := rfl
@[simp] theorem lmp_flc (s : State) (b : LmpSt) : (Eff.apply s (.lmp b)).flc = s.flc := rfl
@[simp] theorem lmp_ecc (s : State) (b : LmpSt) : (Eff.apply s (.lmp b)).ecc = s.ecc := rfl
@[simp] theorem lmp_dn (s : State) (b : LmpSt) : (Eff.apply s (.lmp b)).dn = s.dn := rfl
@[simp] theorem lmp_dbg (s : State) (b : LmpSt) : (Eff.apply s (.lmp b)).dbg = s.dbg := rfl
@[simp] theorem lmp_vif (s : State) (b : LmpSt) : (Eff.apply s (.lmp b)).vif = s.vif := rfl
@[simp] theorem lmp_upd (s : State) (b : LmpSt) : (Eff.apply s (.lmp b)).upd = s.upd := rfl
@[simp] theorem lmp_cas (s : State) (b : LmpSt) : (Eff.apply s (.lmp b)).cas = s.cas := rfl
@[simp] theorem lmp_hif (s : State) (b : LmpSt) : (Eff.apply s (.lmp b)).hif = s.hif := rfl
@[simp] theorem lmp_drawn (s : State) (b : LmpSt) : (Eff.apply s (.lmp b)).drawn = s.drawn := rfl
@[simp] theorem lmp_pending (s : State) (b : LmpSt) : (Eff.apply s (.lmp b)).pending = s.pending := rfl
@[simp] theorem lmp_lmp (s : State) (b : LmpSt) : (Eff.apply s (.lmp b)).lmp = b := rfl
@[simp] theorem mtr_regs (s : State) (b : MtrSt) : (Eff.apply s (.mtr b)).regs = s.regs := rfl
@[simp] theorem mtr_mem (s : State) (b : MtrSt) : (Eff.apply s (.mtr b)).mem = s.mem := rfl
@[simp] theorem mtr_pat (s : State) (b : MtrSt) : (Eff.apply s (.mtr b)).pat = s.pat := rfl
@[simp] theorem mtr_clk (s : State) (b : MtrSt) : (Eff.apply s (.mtr b)).clk = s.clk := rfl
@[simp] theorem mtr_flt (s : State) (b : MtrSt) : (Eff.apply s (.mtr b)).flt = s.flt := rfl
@[simp] theorem mtr_stm (s : State) (b : MtrSt) : (Eff.apply s (.mtr b)).stm = s.stm := rfl
@[simp] theorem mtr_pwr (s : State) (b : MtrSt) : (Eff.apply s (.mtr b)).pwr = s.pwr := rfl
@[simp] theorem mtr_recd (s : State) (b : MtrSt) : (Eff.apply s (.mtr b)).recd = s.recd := rfl
@[simp] theorem mtr_bus (s : State) (b : MtrSt) : (Eff.apply s (.mtr b)).bus = s.bus := rfl
@[simp] theorem mtr_thm (s : State) (b : MtrSt) : (Eff.apply s (.mtr b)).thm = s.thm := rfl
@[simp] theorem mtr_tim (s : State) (b : MtrSt) : (Eff.apply s (.mtr b)).tim = s.tim := rfl
@[simp] theorem mtr_i2c (s : State) (b : MtrSt) : (Eff.apply s (.mtr b)).i2c = s.i2c := rfl
@[simp] theorem mtr_mov (s : State) (b : MtrSt) : (Eff.apply s (.mtr b)).mov = s.mov := rfl
@[simp] theorem mtr_lmp (s : State) (b : MtrSt) : (Eff.apply s (.mtr b)).lmp = s.lmp := rfl
@[simp] theorem mtr_ref (s : State) (b : MtrSt) : (Eff.apply s (.mtr b)).ref = s.ref := rfl
@[simp] theorem mtr_gau (s : State) (b : MtrSt) : (Eff.apply s (.mtr b)).gau = s.gau := rfl
@[simp] theorem mtr_otp (s : State) (b : MtrSt) : (Eff.apply s (.mtr b)).otp = s.otp := rfl
@[simp] theorem mtr_dut (s : State) (b : MtrSt) : (Eff.apply s (.mtr b)).dut = s.dut := rfl
@[simp] theorem mtr_rfe (s : State) (b : MtrSt) : (Eff.apply s (.mtr b)).rfe = s.rfe := rfl
@[simp] theorem mtr_chz (s : State) (b : MtrSt) : (Eff.apply s (.mtr b)).chz = s.chz := rfl
@[simp] theorem mtr_dmd (s : State) (b : MtrSt) : (Eff.apply s (.mtr b)).dmd = s.dmd := rfl
@[simp] theorem mtr_frm (s : State) (b : MtrSt) : (Eff.apply s (.mtr b)).frm = s.frm := rfl
@[simp] theorem mtr_txp (s : State) (b : MtrSt) : (Eff.apply s (.mtr b)).txp = s.txp := rfl
@[simp] theorem mtr_shu (s : State) (b : MtrSt) : (Eff.apply s (.mtr b)).shu = s.shu := rfl
@[simp] theorem mtr_bob (s : State) (b : MtrSt) : (Eff.apply s (.mtr b)).bob = s.bob := rfl
@[simp] theorem mtr_key (s : State) (b : MtrSt) : (Eff.apply s (.mtr b)).key = s.key := rfl
@[simp] theorem mtr_sec (s : State) (b : MtrSt) : (Eff.apply s (.mtr b)).sec = s.sec := rfl
@[simp] theorem mtr_cmd (s : State) (b : MtrSt) : (Eff.apply s (.mtr b)).cmd = s.cmd := rfl
@[simp] theorem mtr_flc (s : State) (b : MtrSt) : (Eff.apply s (.mtr b)).flc = s.flc := rfl
@[simp] theorem mtr_ecc (s : State) (b : MtrSt) : (Eff.apply s (.mtr b)).ecc = s.ecc := rfl
@[simp] theorem mtr_dn (s : State) (b : MtrSt) : (Eff.apply s (.mtr b)).dn = s.dn := rfl
@[simp] theorem mtr_dbg (s : State) (b : MtrSt) : (Eff.apply s (.mtr b)).dbg = s.dbg := rfl
@[simp] theorem mtr_vif (s : State) (b : MtrSt) : (Eff.apply s (.mtr b)).vif = s.vif := rfl
@[simp] theorem mtr_upd (s : State) (b : MtrSt) : (Eff.apply s (.mtr b)).upd = s.upd := rfl
@[simp] theorem mtr_cas (s : State) (b : MtrSt) : (Eff.apply s (.mtr b)).cas = s.cas := rfl
@[simp] theorem mtr_hif (s : State) (b : MtrSt) : (Eff.apply s (.mtr b)).hif = s.hif := rfl
@[simp] theorem mtr_drawn (s : State) (b : MtrSt) : (Eff.apply s (.mtr b)).drawn = s.drawn := rfl
@[simp] theorem mtr_pending (s : State) (b : MtrSt) : (Eff.apply s (.mtr b)).pending = s.pending := rfl
@[simp] theorem mtr_mtr (s : State) (b : MtrSt) : (Eff.apply s (.mtr b)).mtr = b := rfl
@[simp] theorem ref_regs (s : State) (b : RefSt) : (Eff.apply s (.ref b)).regs = s.regs := rfl
@[simp] theorem ref_mem (s : State) (b : RefSt) : (Eff.apply s (.ref b)).mem = s.mem := rfl
@[simp] theorem ref_pat (s : State) (b : RefSt) : (Eff.apply s (.ref b)).pat = s.pat := rfl
@[simp] theorem ref_clk (s : State) (b : RefSt) : (Eff.apply s (.ref b)).clk = s.clk := rfl
@[simp] theorem ref_flt (s : State) (b : RefSt) : (Eff.apply s (.ref b)).flt = s.flt := rfl
@[simp] theorem ref_stm (s : State) (b : RefSt) : (Eff.apply s (.ref b)).stm = s.stm := rfl
@[simp] theorem ref_pwr (s : State) (b : RefSt) : (Eff.apply s (.ref b)).pwr = s.pwr := rfl
@[simp] theorem ref_recd (s : State) (b : RefSt) : (Eff.apply s (.ref b)).recd = s.recd := rfl
@[simp] theorem ref_bus (s : State) (b : RefSt) : (Eff.apply s (.ref b)).bus = s.bus := rfl
@[simp] theorem ref_thm (s : State) (b : RefSt) : (Eff.apply s (.ref b)).thm = s.thm := rfl
@[simp] theorem ref_tim (s : State) (b : RefSt) : (Eff.apply s (.ref b)).tim = s.tim := rfl
@[simp] theorem ref_i2c (s : State) (b : RefSt) : (Eff.apply s (.ref b)).i2c = s.i2c := rfl
@[simp] theorem ref_mov (s : State) (b : RefSt) : (Eff.apply s (.ref b)).mov = s.mov := rfl
@[simp] theorem ref_lmp (s : State) (b : RefSt) : (Eff.apply s (.ref b)).lmp = s.lmp := rfl
@[simp] theorem ref_mtr (s : State) (b : RefSt) : (Eff.apply s (.ref b)).mtr = s.mtr := rfl
@[simp] theorem ref_gau (s : State) (b : RefSt) : (Eff.apply s (.ref b)).gau = s.gau := rfl
@[simp] theorem ref_otp (s : State) (b : RefSt) : (Eff.apply s (.ref b)).otp = s.otp := rfl
@[simp] theorem ref_dut (s : State) (b : RefSt) : (Eff.apply s (.ref b)).dut = s.dut := rfl
@[simp] theorem ref_rfe (s : State) (b : RefSt) : (Eff.apply s (.ref b)).rfe = s.rfe := rfl
@[simp] theorem ref_chz (s : State) (b : RefSt) : (Eff.apply s (.ref b)).chz = s.chz := rfl
@[simp] theorem ref_dmd (s : State) (b : RefSt) : (Eff.apply s (.ref b)).dmd = s.dmd := rfl
@[simp] theorem ref_frm (s : State) (b : RefSt) : (Eff.apply s (.ref b)).frm = s.frm := rfl
@[simp] theorem ref_txp (s : State) (b : RefSt) : (Eff.apply s (.ref b)).txp = s.txp := rfl
@[simp] theorem ref_shu (s : State) (b : RefSt) : (Eff.apply s (.ref b)).shu = s.shu := rfl
@[simp] theorem ref_bob (s : State) (b : RefSt) : (Eff.apply s (.ref b)).bob = s.bob := rfl
@[simp] theorem ref_key (s : State) (b : RefSt) : (Eff.apply s (.ref b)).key = s.key := rfl
@[simp] theorem ref_sec (s : State) (b : RefSt) : (Eff.apply s (.ref b)).sec = s.sec := rfl
@[simp] theorem ref_cmd (s : State) (b : RefSt) : (Eff.apply s (.ref b)).cmd = s.cmd := rfl
@[simp] theorem ref_flc (s : State) (b : RefSt) : (Eff.apply s (.ref b)).flc = s.flc := rfl
@[simp] theorem ref_ecc (s : State) (b : RefSt) : (Eff.apply s (.ref b)).ecc = s.ecc := rfl
@[simp] theorem ref_dn (s : State) (b : RefSt) : (Eff.apply s (.ref b)).dn = s.dn := rfl
@[simp] theorem ref_dbg (s : State) (b : RefSt) : (Eff.apply s (.ref b)).dbg = s.dbg := rfl
@[simp] theorem ref_vif (s : State) (b : RefSt) : (Eff.apply s (.ref b)).vif = s.vif := rfl
@[simp] theorem ref_upd (s : State) (b : RefSt) : (Eff.apply s (.ref b)).upd = s.upd := rfl
@[simp] theorem ref_cas (s : State) (b : RefSt) : (Eff.apply s (.ref b)).cas = s.cas := rfl
@[simp] theorem ref_hif (s : State) (b : RefSt) : (Eff.apply s (.ref b)).hif = s.hif := rfl
@[simp] theorem ref_drawn (s : State) (b : RefSt) : (Eff.apply s (.ref b)).drawn = s.drawn := rfl
@[simp] theorem ref_pending (s : State) (b : RefSt) : (Eff.apply s (.ref b)).pending = s.pending := rfl
@[simp] theorem ref_ref (s : State) (b : RefSt) : (Eff.apply s (.ref b)).ref = b := rfl
@[simp] theorem gau_regs (s : State) (b : GauSt) : (Eff.apply s (.gau b)).regs = s.regs := rfl
@[simp] theorem gau_mem (s : State) (b : GauSt) : (Eff.apply s (.gau b)).mem = s.mem := rfl
@[simp] theorem gau_pat (s : State) (b : GauSt) : (Eff.apply s (.gau b)).pat = s.pat := rfl
@[simp] theorem gau_clk (s : State) (b : GauSt) : (Eff.apply s (.gau b)).clk = s.clk := rfl
@[simp] theorem gau_flt (s : State) (b : GauSt) : (Eff.apply s (.gau b)).flt = s.flt := rfl
@[simp] theorem gau_stm (s : State) (b : GauSt) : (Eff.apply s (.gau b)).stm = s.stm := rfl
@[simp] theorem gau_pwr (s : State) (b : GauSt) : (Eff.apply s (.gau b)).pwr = s.pwr := rfl
@[simp] theorem gau_recd (s : State) (b : GauSt) : (Eff.apply s (.gau b)).recd = s.recd := rfl
@[simp] theorem gau_bus (s : State) (b : GauSt) : (Eff.apply s (.gau b)).bus = s.bus := rfl
@[simp] theorem gau_thm (s : State) (b : GauSt) : (Eff.apply s (.gau b)).thm = s.thm := rfl
@[simp] theorem gau_tim (s : State) (b : GauSt) : (Eff.apply s (.gau b)).tim = s.tim := rfl
@[simp] theorem gau_i2c (s : State) (b : GauSt) : (Eff.apply s (.gau b)).i2c = s.i2c := rfl
@[simp] theorem gau_mov (s : State) (b : GauSt) : (Eff.apply s (.gau b)).mov = s.mov := rfl
@[simp] theorem gau_lmp (s : State) (b : GauSt) : (Eff.apply s (.gau b)).lmp = s.lmp := rfl
@[simp] theorem gau_mtr (s : State) (b : GauSt) : (Eff.apply s (.gau b)).mtr = s.mtr := rfl
@[simp] theorem gau_ref (s : State) (b : GauSt) : (Eff.apply s (.gau b)).ref = s.ref := rfl
@[simp] theorem gau_otp (s : State) (b : GauSt) : (Eff.apply s (.gau b)).otp = s.otp := rfl
@[simp] theorem gau_dut (s : State) (b : GauSt) : (Eff.apply s (.gau b)).dut = s.dut := rfl
@[simp] theorem gau_rfe (s : State) (b : GauSt) : (Eff.apply s (.gau b)).rfe = s.rfe := rfl
@[simp] theorem gau_chz (s : State) (b : GauSt) : (Eff.apply s (.gau b)).chz = s.chz := rfl
@[simp] theorem gau_dmd (s : State) (b : GauSt) : (Eff.apply s (.gau b)).dmd = s.dmd := rfl
@[simp] theorem gau_frm (s : State) (b : GauSt) : (Eff.apply s (.gau b)).frm = s.frm := rfl
@[simp] theorem gau_txp (s : State) (b : GauSt) : (Eff.apply s (.gau b)).txp = s.txp := rfl
@[simp] theorem gau_shu (s : State) (b : GauSt) : (Eff.apply s (.gau b)).shu = s.shu := rfl
@[simp] theorem gau_bob (s : State) (b : GauSt) : (Eff.apply s (.gau b)).bob = s.bob := rfl
@[simp] theorem gau_key (s : State) (b : GauSt) : (Eff.apply s (.gau b)).key = s.key := rfl
@[simp] theorem gau_sec (s : State) (b : GauSt) : (Eff.apply s (.gau b)).sec = s.sec := rfl
@[simp] theorem gau_cmd (s : State) (b : GauSt) : (Eff.apply s (.gau b)).cmd = s.cmd := rfl
@[simp] theorem gau_flc (s : State) (b : GauSt) : (Eff.apply s (.gau b)).flc = s.flc := rfl
@[simp] theorem gau_ecc (s : State) (b : GauSt) : (Eff.apply s (.gau b)).ecc = s.ecc := rfl
@[simp] theorem gau_dn (s : State) (b : GauSt) : (Eff.apply s (.gau b)).dn = s.dn := rfl
@[simp] theorem gau_dbg (s : State) (b : GauSt) : (Eff.apply s (.gau b)).dbg = s.dbg := rfl
@[simp] theorem gau_vif (s : State) (b : GauSt) : (Eff.apply s (.gau b)).vif = s.vif := rfl
@[simp] theorem gau_upd (s : State) (b : GauSt) : (Eff.apply s (.gau b)).upd = s.upd := rfl
@[simp] theorem gau_cas (s : State) (b : GauSt) : (Eff.apply s (.gau b)).cas = s.cas := rfl
@[simp] theorem gau_hif (s : State) (b : GauSt) : (Eff.apply s (.gau b)).hif = s.hif := rfl
@[simp] theorem gau_drawn (s : State) (b : GauSt) : (Eff.apply s (.gau b)).drawn = s.drawn := rfl
@[simp] theorem gau_pending (s : State) (b : GauSt) : (Eff.apply s (.gau b)).pending = s.pending := rfl
@[simp] theorem gau_gau (s : State) (b : GauSt) : (Eff.apply s (.gau b)).gau = b := rfl
@[simp] theorem otp_regs (s : State) (b : OtpSt) : (Eff.apply s (.otp b)).regs = s.regs := rfl
@[simp] theorem otp_mem (s : State) (b : OtpSt) : (Eff.apply s (.otp b)).mem = s.mem := rfl
@[simp] theorem otp_pat (s : State) (b : OtpSt) : (Eff.apply s (.otp b)).pat = s.pat := rfl
@[simp] theorem otp_clk (s : State) (b : OtpSt) : (Eff.apply s (.otp b)).clk = s.clk := rfl
@[simp] theorem otp_flt (s : State) (b : OtpSt) : (Eff.apply s (.otp b)).flt = s.flt := rfl
@[simp] theorem otp_stm (s : State) (b : OtpSt) : (Eff.apply s (.otp b)).stm = s.stm := rfl
@[simp] theorem otp_pwr (s : State) (b : OtpSt) : (Eff.apply s (.otp b)).pwr = s.pwr := rfl
@[simp] theorem otp_recd (s : State) (b : OtpSt) : (Eff.apply s (.otp b)).recd = s.recd := rfl
@[simp] theorem otp_bus (s : State) (b : OtpSt) : (Eff.apply s (.otp b)).bus = s.bus := rfl
@[simp] theorem otp_thm (s : State) (b : OtpSt) : (Eff.apply s (.otp b)).thm = s.thm := rfl
@[simp] theorem otp_tim (s : State) (b : OtpSt) : (Eff.apply s (.otp b)).tim = s.tim := rfl
@[simp] theorem otp_i2c (s : State) (b : OtpSt) : (Eff.apply s (.otp b)).i2c = s.i2c := rfl
@[simp] theorem otp_mov (s : State) (b : OtpSt) : (Eff.apply s (.otp b)).mov = s.mov := rfl
@[simp] theorem otp_lmp (s : State) (b : OtpSt) : (Eff.apply s (.otp b)).lmp = s.lmp := rfl
@[simp] theorem otp_mtr (s : State) (b : OtpSt) : (Eff.apply s (.otp b)).mtr = s.mtr := rfl
@[simp] theorem otp_ref (s : State) (b : OtpSt) : (Eff.apply s (.otp b)).ref = s.ref := rfl
@[simp] theorem otp_gau (s : State) (b : OtpSt) : (Eff.apply s (.otp b)).gau = s.gau := rfl
@[simp] theorem otp_dut (s : State) (b : OtpSt) : (Eff.apply s (.otp b)).dut = s.dut := rfl
@[simp] theorem otp_rfe (s : State) (b : OtpSt) : (Eff.apply s (.otp b)).rfe = s.rfe := rfl
@[simp] theorem otp_chz (s : State) (b : OtpSt) : (Eff.apply s (.otp b)).chz = s.chz := rfl
@[simp] theorem otp_dmd (s : State) (b : OtpSt) : (Eff.apply s (.otp b)).dmd = s.dmd := rfl
@[simp] theorem otp_frm (s : State) (b : OtpSt) : (Eff.apply s (.otp b)).frm = s.frm := rfl
@[simp] theorem otp_txp (s : State) (b : OtpSt) : (Eff.apply s (.otp b)).txp = s.txp := rfl
@[simp] theorem otp_shu (s : State) (b : OtpSt) : (Eff.apply s (.otp b)).shu = s.shu := rfl
@[simp] theorem otp_bob (s : State) (b : OtpSt) : (Eff.apply s (.otp b)).bob = s.bob := rfl
@[simp] theorem otp_key (s : State) (b : OtpSt) : (Eff.apply s (.otp b)).key = s.key := rfl
@[simp] theorem otp_sec (s : State) (b : OtpSt) : (Eff.apply s (.otp b)).sec = s.sec := rfl
@[simp] theorem otp_cmd (s : State) (b : OtpSt) : (Eff.apply s (.otp b)).cmd = s.cmd := rfl
@[simp] theorem otp_flc (s : State) (b : OtpSt) : (Eff.apply s (.otp b)).flc = s.flc := rfl
@[simp] theorem otp_ecc (s : State) (b : OtpSt) : (Eff.apply s (.otp b)).ecc = s.ecc := rfl
@[simp] theorem otp_dn (s : State) (b : OtpSt) : (Eff.apply s (.otp b)).dn = s.dn := rfl
@[simp] theorem otp_dbg (s : State) (b : OtpSt) : (Eff.apply s (.otp b)).dbg = s.dbg := rfl
@[simp] theorem otp_vif (s : State) (b : OtpSt) : (Eff.apply s (.otp b)).vif = s.vif := rfl
@[simp] theorem otp_upd (s : State) (b : OtpSt) : (Eff.apply s (.otp b)).upd = s.upd := rfl
@[simp] theorem otp_cas (s : State) (b : OtpSt) : (Eff.apply s (.otp b)).cas = s.cas := rfl
@[simp] theorem otp_hif (s : State) (b : OtpSt) : (Eff.apply s (.otp b)).hif = s.hif := rfl
@[simp] theorem otp_drawn (s : State) (b : OtpSt) : (Eff.apply s (.otp b)).drawn = s.drawn := rfl
@[simp] theorem otp_pending (s : State) (b : OtpSt) : (Eff.apply s (.otp b)).pending = s.pending := rfl
@[simp] theorem otp_otp (s : State) (b : OtpSt) : (Eff.apply s (.otp b)).otp = b := rfl
@[simp] theorem dut_regs (s : State) (b : DutSt) : (Eff.apply s (.dut b)).regs = s.regs := rfl
@[simp] theorem dut_mem (s : State) (b : DutSt) : (Eff.apply s (.dut b)).mem = s.mem := rfl
@[simp] theorem dut_pat (s : State) (b : DutSt) : (Eff.apply s (.dut b)).pat = s.pat := rfl
@[simp] theorem dut_clk (s : State) (b : DutSt) : (Eff.apply s (.dut b)).clk = s.clk := rfl
@[simp] theorem dut_flt (s : State) (b : DutSt) : (Eff.apply s (.dut b)).flt = s.flt := rfl
@[simp] theorem dut_stm (s : State) (b : DutSt) : (Eff.apply s (.dut b)).stm = s.stm := rfl
@[simp] theorem dut_pwr (s : State) (b : DutSt) : (Eff.apply s (.dut b)).pwr = s.pwr := rfl
@[simp] theorem dut_recd (s : State) (b : DutSt) : (Eff.apply s (.dut b)).recd = s.recd := rfl
@[simp] theorem dut_bus (s : State) (b : DutSt) : (Eff.apply s (.dut b)).bus = s.bus := rfl
@[simp] theorem dut_thm (s : State) (b : DutSt) : (Eff.apply s (.dut b)).thm = s.thm := rfl
@[simp] theorem dut_tim (s : State) (b : DutSt) : (Eff.apply s (.dut b)).tim = s.tim := rfl
@[simp] theorem dut_i2c (s : State) (b : DutSt) : (Eff.apply s (.dut b)).i2c = s.i2c := rfl
@[simp] theorem dut_mov (s : State) (b : DutSt) : (Eff.apply s (.dut b)).mov = s.mov := rfl
@[simp] theorem dut_lmp (s : State) (b : DutSt) : (Eff.apply s (.dut b)).lmp = s.lmp := rfl
@[simp] theorem dut_mtr (s : State) (b : DutSt) : (Eff.apply s (.dut b)).mtr = s.mtr := rfl
@[simp] theorem dut_ref (s : State) (b : DutSt) : (Eff.apply s (.dut b)).ref = s.ref := rfl
@[simp] theorem dut_gau (s : State) (b : DutSt) : (Eff.apply s (.dut b)).gau = s.gau := rfl
@[simp] theorem dut_otp (s : State) (b : DutSt) : (Eff.apply s (.dut b)).otp = s.otp := rfl
@[simp] theorem dut_rfe (s : State) (b : DutSt) : (Eff.apply s (.dut b)).rfe = s.rfe := rfl
@[simp] theorem dut_chz (s : State) (b : DutSt) : (Eff.apply s (.dut b)).chz = s.chz := rfl
@[simp] theorem dut_dmd (s : State) (b : DutSt) : (Eff.apply s (.dut b)).dmd = s.dmd := rfl
@[simp] theorem dut_frm (s : State) (b : DutSt) : (Eff.apply s (.dut b)).frm = s.frm := rfl
@[simp] theorem dut_txp (s : State) (b : DutSt) : (Eff.apply s (.dut b)).txp = s.txp := rfl
@[simp] theorem dut_shu (s : State) (b : DutSt) : (Eff.apply s (.dut b)).shu = s.shu := rfl
@[simp] theorem dut_bob (s : State) (b : DutSt) : (Eff.apply s (.dut b)).bob = s.bob := rfl
@[simp] theorem dut_key (s : State) (b : DutSt) : (Eff.apply s (.dut b)).key = s.key := rfl
@[simp] theorem dut_sec (s : State) (b : DutSt) : (Eff.apply s (.dut b)).sec = s.sec := rfl
@[simp] theorem dut_cmd (s : State) (b : DutSt) : (Eff.apply s (.dut b)).cmd = s.cmd := rfl
@[simp] theorem dut_flc (s : State) (b : DutSt) : (Eff.apply s (.dut b)).flc = s.flc := rfl
@[simp] theorem dut_ecc (s : State) (b : DutSt) : (Eff.apply s (.dut b)).ecc = s.ecc := rfl
@[simp] theorem dut_dn (s : State) (b : DutSt) : (Eff.apply s (.dut b)).dn = s.dn := rfl
@[simp] theorem dut_dbg (s : State) (b : DutSt) : (Eff.apply s (.dut b)).dbg = s.dbg := rfl
@[simp] theorem dut_vif (s : State) (b : DutSt) : (Eff.apply s (.dut b)).vif = s.vif := rfl
@[simp] theorem dut_upd (s : State) (b : DutSt) : (Eff.apply s (.dut b)).upd = s.upd := rfl
@[simp] theorem dut_cas (s : State) (b : DutSt) : (Eff.apply s (.dut b)).cas = s.cas := rfl
@[simp] theorem dut_hif (s : State) (b : DutSt) : (Eff.apply s (.dut b)).hif = s.hif := rfl
@[simp] theorem dut_drawn (s : State) (b : DutSt) : (Eff.apply s (.dut b)).drawn = s.drawn := rfl
@[simp] theorem dut_pending (s : State) (b : DutSt) : (Eff.apply s (.dut b)).pending = s.pending := rfl
@[simp] theorem dut_dut (s : State) (b : DutSt) : (Eff.apply s (.dut b)).dut = b := rfl
@[simp] theorem rfe_regs (s : State) (b : RfeSt) : (Eff.apply s (.rfe b)).regs = s.regs := rfl
@[simp] theorem rfe_mem (s : State) (b : RfeSt) : (Eff.apply s (.rfe b)).mem = s.mem := rfl
@[simp] theorem rfe_pat (s : State) (b : RfeSt) : (Eff.apply s (.rfe b)).pat = s.pat := rfl
@[simp] theorem rfe_clk (s : State) (b : RfeSt) : (Eff.apply s (.rfe b)).clk = s.clk := rfl
@[simp] theorem rfe_flt (s : State) (b : RfeSt) : (Eff.apply s (.rfe b)).flt = s.flt := rfl
@[simp] theorem rfe_stm (s : State) (b : RfeSt) : (Eff.apply s (.rfe b)).stm = s.stm := rfl
@[simp] theorem rfe_pwr (s : State) (b : RfeSt) : (Eff.apply s (.rfe b)).pwr = s.pwr := rfl
@[simp] theorem rfe_recd (s : State) (b : RfeSt) : (Eff.apply s (.rfe b)).recd = s.recd := rfl
@[simp] theorem rfe_bus (s : State) (b : RfeSt) : (Eff.apply s (.rfe b)).bus = s.bus := rfl
@[simp] theorem rfe_thm (s : State) (b : RfeSt) : (Eff.apply s (.rfe b)).thm = s.thm := rfl
@[simp] theorem rfe_tim (s : State) (b : RfeSt) : (Eff.apply s (.rfe b)).tim = s.tim := rfl
@[simp] theorem rfe_i2c (s : State) (b : RfeSt) : (Eff.apply s (.rfe b)).i2c = s.i2c := rfl
@[simp] theorem rfe_mov (s : State) (b : RfeSt) : (Eff.apply s (.rfe b)).mov = s.mov := rfl
@[simp] theorem rfe_lmp (s : State) (b : RfeSt) : (Eff.apply s (.rfe b)).lmp = s.lmp := rfl
@[simp] theorem rfe_mtr (s : State) (b : RfeSt) : (Eff.apply s (.rfe b)).mtr = s.mtr := rfl
@[simp] theorem rfe_ref (s : State) (b : RfeSt) : (Eff.apply s (.rfe b)).ref = s.ref := rfl
@[simp] theorem rfe_gau (s : State) (b : RfeSt) : (Eff.apply s (.rfe b)).gau = s.gau := rfl
@[simp] theorem rfe_otp (s : State) (b : RfeSt) : (Eff.apply s (.rfe b)).otp = s.otp := rfl
@[simp] theorem rfe_dut (s : State) (b : RfeSt) : (Eff.apply s (.rfe b)).dut = s.dut := rfl
@[simp] theorem rfe_chz (s : State) (b : RfeSt) : (Eff.apply s (.rfe b)).chz = s.chz := rfl
@[simp] theorem rfe_dmd (s : State) (b : RfeSt) : (Eff.apply s (.rfe b)).dmd = s.dmd := rfl
@[simp] theorem rfe_frm (s : State) (b : RfeSt) : (Eff.apply s (.rfe b)).frm = s.frm := rfl
@[simp] theorem rfe_txp (s : State) (b : RfeSt) : (Eff.apply s (.rfe b)).txp = s.txp := rfl
@[simp] theorem rfe_shu (s : State) (b : RfeSt) : (Eff.apply s (.rfe b)).shu = s.shu := rfl
@[simp] theorem rfe_bob (s : State) (b : RfeSt) : (Eff.apply s (.rfe b)).bob = s.bob := rfl
@[simp] theorem rfe_key (s : State) (b : RfeSt) : (Eff.apply s (.rfe b)).key = s.key := rfl
@[simp] theorem rfe_sec (s : State) (b : RfeSt) : (Eff.apply s (.rfe b)).sec = s.sec := rfl
@[simp] theorem rfe_cmd (s : State) (b : RfeSt) : (Eff.apply s (.rfe b)).cmd = s.cmd := rfl
@[simp] theorem rfe_flc (s : State) (b : RfeSt) : (Eff.apply s (.rfe b)).flc = s.flc := rfl
@[simp] theorem rfe_ecc (s : State) (b : RfeSt) : (Eff.apply s (.rfe b)).ecc = s.ecc := rfl
@[simp] theorem rfe_dn (s : State) (b : RfeSt) : (Eff.apply s (.rfe b)).dn = s.dn := rfl
@[simp] theorem rfe_dbg (s : State) (b : RfeSt) : (Eff.apply s (.rfe b)).dbg = s.dbg := rfl
@[simp] theorem rfe_vif (s : State) (b : RfeSt) : (Eff.apply s (.rfe b)).vif = s.vif := rfl
@[simp] theorem rfe_upd (s : State) (b : RfeSt) : (Eff.apply s (.rfe b)).upd = s.upd := rfl
@[simp] theorem rfe_cas (s : State) (b : RfeSt) : (Eff.apply s (.rfe b)).cas = s.cas := rfl
@[simp] theorem rfe_hif (s : State) (b : RfeSt) : (Eff.apply s (.rfe b)).hif = s.hif := rfl
@[simp] theorem rfe_drawn (s : State) (b : RfeSt) : (Eff.apply s (.rfe b)).drawn = s.drawn := rfl
@[simp] theorem rfe_pending (s : State) (b : RfeSt) : (Eff.apply s (.rfe b)).pending = s.pending := rfl
@[simp] theorem rfe_rfe (s : State) (b : RfeSt) : (Eff.apply s (.rfe b)).rfe = b := rfl
@[simp] theorem chz_regs (s : State) (b : ChzSt) : (Eff.apply s (.chz b)).regs = s.regs := rfl
@[simp] theorem chz_mem (s : State) (b : ChzSt) : (Eff.apply s (.chz b)).mem = s.mem := rfl
@[simp] theorem chz_pat (s : State) (b : ChzSt) : (Eff.apply s (.chz b)).pat = s.pat := rfl
@[simp] theorem chz_clk (s : State) (b : ChzSt) : (Eff.apply s (.chz b)).clk = s.clk := rfl
@[simp] theorem chz_flt (s : State) (b : ChzSt) : (Eff.apply s (.chz b)).flt = s.flt := rfl
@[simp] theorem chz_stm (s : State) (b : ChzSt) : (Eff.apply s (.chz b)).stm = s.stm := rfl
@[simp] theorem chz_pwr (s : State) (b : ChzSt) : (Eff.apply s (.chz b)).pwr = s.pwr := rfl
@[simp] theorem chz_recd (s : State) (b : ChzSt) : (Eff.apply s (.chz b)).recd = s.recd := rfl
@[simp] theorem chz_bus (s : State) (b : ChzSt) : (Eff.apply s (.chz b)).bus = s.bus := rfl
@[simp] theorem chz_thm (s : State) (b : ChzSt) : (Eff.apply s (.chz b)).thm = s.thm := rfl
@[simp] theorem chz_tim (s : State) (b : ChzSt) : (Eff.apply s (.chz b)).tim = s.tim := rfl
@[simp] theorem chz_i2c (s : State) (b : ChzSt) : (Eff.apply s (.chz b)).i2c = s.i2c := rfl
@[simp] theorem chz_mov (s : State) (b : ChzSt) : (Eff.apply s (.chz b)).mov = s.mov := rfl
@[simp] theorem chz_lmp (s : State) (b : ChzSt) : (Eff.apply s (.chz b)).lmp = s.lmp := rfl
@[simp] theorem chz_mtr (s : State) (b : ChzSt) : (Eff.apply s (.chz b)).mtr = s.mtr := rfl
@[simp] theorem chz_ref (s : State) (b : ChzSt) : (Eff.apply s (.chz b)).ref = s.ref := rfl
@[simp] theorem chz_gau (s : State) (b : ChzSt) : (Eff.apply s (.chz b)).gau = s.gau := rfl
@[simp] theorem chz_otp (s : State) (b : ChzSt) : (Eff.apply s (.chz b)).otp = s.otp := rfl
@[simp] theorem chz_dut (s : State) (b : ChzSt) : (Eff.apply s (.chz b)).dut = s.dut := rfl
@[simp] theorem chz_rfe (s : State) (b : ChzSt) : (Eff.apply s (.chz b)).rfe = s.rfe := rfl
@[simp] theorem chz_dmd (s : State) (b : ChzSt) : (Eff.apply s (.chz b)).dmd = s.dmd := rfl
@[simp] theorem chz_frm (s : State) (b : ChzSt) : (Eff.apply s (.chz b)).frm = s.frm := rfl
@[simp] theorem chz_txp (s : State) (b : ChzSt) : (Eff.apply s (.chz b)).txp = s.txp := rfl
@[simp] theorem chz_shu (s : State) (b : ChzSt) : (Eff.apply s (.chz b)).shu = s.shu := rfl
@[simp] theorem chz_bob (s : State) (b : ChzSt) : (Eff.apply s (.chz b)).bob = s.bob := rfl
@[simp] theorem chz_key (s : State) (b : ChzSt) : (Eff.apply s (.chz b)).key = s.key := rfl
@[simp] theorem chz_sec (s : State) (b : ChzSt) : (Eff.apply s (.chz b)).sec = s.sec := rfl
@[simp] theorem chz_cmd (s : State) (b : ChzSt) : (Eff.apply s (.chz b)).cmd = s.cmd := rfl
@[simp] theorem chz_flc (s : State) (b : ChzSt) : (Eff.apply s (.chz b)).flc = s.flc := rfl
@[simp] theorem chz_ecc (s : State) (b : ChzSt) : (Eff.apply s (.chz b)).ecc = s.ecc := rfl
@[simp] theorem chz_dn (s : State) (b : ChzSt) : (Eff.apply s (.chz b)).dn = s.dn := rfl
@[simp] theorem chz_dbg (s : State) (b : ChzSt) : (Eff.apply s (.chz b)).dbg = s.dbg := rfl
@[simp] theorem chz_vif (s : State) (b : ChzSt) : (Eff.apply s (.chz b)).vif = s.vif := rfl
@[simp] theorem chz_upd (s : State) (b : ChzSt) : (Eff.apply s (.chz b)).upd = s.upd := rfl
@[simp] theorem chz_cas (s : State) (b : ChzSt) : (Eff.apply s (.chz b)).cas = s.cas := rfl
@[simp] theorem chz_hif (s : State) (b : ChzSt) : (Eff.apply s (.chz b)).hif = s.hif := rfl
@[simp] theorem chz_drawn (s : State) (b : ChzSt) : (Eff.apply s (.chz b)).drawn = s.drawn := rfl
@[simp] theorem chz_pending (s : State) (b : ChzSt) : (Eff.apply s (.chz b)).pending = s.pending := rfl
@[simp] theorem chz_chz (s : State) (b : ChzSt) : (Eff.apply s (.chz b)).chz = b := rfl
@[simp] theorem dmd_regs (s : State) (b : DmdSt) : (Eff.apply s (.dmd b)).regs = s.regs := rfl
@[simp] theorem dmd_mem (s : State) (b : DmdSt) : (Eff.apply s (.dmd b)).mem = s.mem := rfl
@[simp] theorem dmd_pat (s : State) (b : DmdSt) : (Eff.apply s (.dmd b)).pat = s.pat := rfl
@[simp] theorem dmd_clk (s : State) (b : DmdSt) : (Eff.apply s (.dmd b)).clk = s.clk := rfl
@[simp] theorem dmd_flt (s : State) (b : DmdSt) : (Eff.apply s (.dmd b)).flt = s.flt := rfl
@[simp] theorem dmd_stm (s : State) (b : DmdSt) : (Eff.apply s (.dmd b)).stm = s.stm := rfl
@[simp] theorem dmd_pwr (s : State) (b : DmdSt) : (Eff.apply s (.dmd b)).pwr = s.pwr := rfl
@[simp] theorem dmd_recd (s : State) (b : DmdSt) : (Eff.apply s (.dmd b)).recd = s.recd := rfl
@[simp] theorem dmd_bus (s : State) (b : DmdSt) : (Eff.apply s (.dmd b)).bus = s.bus := rfl
@[simp] theorem dmd_thm (s : State) (b : DmdSt) : (Eff.apply s (.dmd b)).thm = s.thm := rfl
@[simp] theorem dmd_tim (s : State) (b : DmdSt) : (Eff.apply s (.dmd b)).tim = s.tim := rfl
@[simp] theorem dmd_i2c (s : State) (b : DmdSt) : (Eff.apply s (.dmd b)).i2c = s.i2c := rfl
@[simp] theorem dmd_mov (s : State) (b : DmdSt) : (Eff.apply s (.dmd b)).mov = s.mov := rfl
@[simp] theorem dmd_lmp (s : State) (b : DmdSt) : (Eff.apply s (.dmd b)).lmp = s.lmp := rfl
@[simp] theorem dmd_mtr (s : State) (b : DmdSt) : (Eff.apply s (.dmd b)).mtr = s.mtr := rfl
@[simp] theorem dmd_ref (s : State) (b : DmdSt) : (Eff.apply s (.dmd b)).ref = s.ref := rfl
@[simp] theorem dmd_gau (s : State) (b : DmdSt) : (Eff.apply s (.dmd b)).gau = s.gau := rfl
@[simp] theorem dmd_otp (s : State) (b : DmdSt) : (Eff.apply s (.dmd b)).otp = s.otp := rfl
@[simp] theorem dmd_dut (s : State) (b : DmdSt) : (Eff.apply s (.dmd b)).dut = s.dut := rfl
@[simp] theorem dmd_rfe (s : State) (b : DmdSt) : (Eff.apply s (.dmd b)).rfe = s.rfe := rfl
@[simp] theorem dmd_chz (s : State) (b : DmdSt) : (Eff.apply s (.dmd b)).chz = s.chz := rfl
@[simp] theorem dmd_frm (s : State) (b : DmdSt) : (Eff.apply s (.dmd b)).frm = s.frm := rfl
@[simp] theorem dmd_txp (s : State) (b : DmdSt) : (Eff.apply s (.dmd b)).txp = s.txp := rfl
@[simp] theorem dmd_shu (s : State) (b : DmdSt) : (Eff.apply s (.dmd b)).shu = s.shu := rfl
@[simp] theorem dmd_bob (s : State) (b : DmdSt) : (Eff.apply s (.dmd b)).bob = s.bob := rfl
@[simp] theorem dmd_key (s : State) (b : DmdSt) : (Eff.apply s (.dmd b)).key = s.key := rfl
@[simp] theorem dmd_sec (s : State) (b : DmdSt) : (Eff.apply s (.dmd b)).sec = s.sec := rfl
@[simp] theorem dmd_cmd (s : State) (b : DmdSt) : (Eff.apply s (.dmd b)).cmd = s.cmd := rfl
@[simp] theorem dmd_flc (s : State) (b : DmdSt) : (Eff.apply s (.dmd b)).flc = s.flc := rfl
@[simp] theorem dmd_ecc (s : State) (b : DmdSt) : (Eff.apply s (.dmd b)).ecc = s.ecc := rfl
@[simp] theorem dmd_dn (s : State) (b : DmdSt) : (Eff.apply s (.dmd b)).dn = s.dn := rfl
@[simp] theorem dmd_dbg (s : State) (b : DmdSt) : (Eff.apply s (.dmd b)).dbg = s.dbg := rfl
@[simp] theorem dmd_vif (s : State) (b : DmdSt) : (Eff.apply s (.dmd b)).vif = s.vif := rfl
@[simp] theorem dmd_upd (s : State) (b : DmdSt) : (Eff.apply s (.dmd b)).upd = s.upd := rfl
@[simp] theorem dmd_cas (s : State) (b : DmdSt) : (Eff.apply s (.dmd b)).cas = s.cas := rfl
@[simp] theorem dmd_hif (s : State) (b : DmdSt) : (Eff.apply s (.dmd b)).hif = s.hif := rfl
@[simp] theorem dmd_drawn (s : State) (b : DmdSt) : (Eff.apply s (.dmd b)).drawn = s.drawn := rfl
@[simp] theorem dmd_pending (s : State) (b : DmdSt) : (Eff.apply s (.dmd b)).pending = s.pending := rfl
@[simp] theorem dmd_dmd (s : State) (b : DmdSt) : (Eff.apply s (.dmd b)).dmd = b := rfl
@[simp] theorem frm_regs (s : State) (b : FrmSt) : (Eff.apply s (.frm b)).regs = s.regs := rfl
@[simp] theorem frm_mem (s : State) (b : FrmSt) : (Eff.apply s (.frm b)).mem = s.mem := rfl
@[simp] theorem frm_pat (s : State) (b : FrmSt) : (Eff.apply s (.frm b)).pat = s.pat := rfl
@[simp] theorem frm_clk (s : State) (b : FrmSt) : (Eff.apply s (.frm b)).clk = s.clk := rfl
@[simp] theorem frm_flt (s : State) (b : FrmSt) : (Eff.apply s (.frm b)).flt = s.flt := rfl
@[simp] theorem frm_stm (s : State) (b : FrmSt) : (Eff.apply s (.frm b)).stm = s.stm := rfl
@[simp] theorem frm_pwr (s : State) (b : FrmSt) : (Eff.apply s (.frm b)).pwr = s.pwr := rfl
@[simp] theorem frm_recd (s : State) (b : FrmSt) : (Eff.apply s (.frm b)).recd = s.recd := rfl
@[simp] theorem frm_bus (s : State) (b : FrmSt) : (Eff.apply s (.frm b)).bus = s.bus := rfl
@[simp] theorem frm_thm (s : State) (b : FrmSt) : (Eff.apply s (.frm b)).thm = s.thm := rfl
@[simp] theorem frm_tim (s : State) (b : FrmSt) : (Eff.apply s (.frm b)).tim = s.tim := rfl
@[simp] theorem frm_i2c (s : State) (b : FrmSt) : (Eff.apply s (.frm b)).i2c = s.i2c := rfl
@[simp] theorem frm_mov (s : State) (b : FrmSt) : (Eff.apply s (.frm b)).mov = s.mov := rfl
@[simp] theorem frm_lmp (s : State) (b : FrmSt) : (Eff.apply s (.frm b)).lmp = s.lmp := rfl
@[simp] theorem frm_mtr (s : State) (b : FrmSt) : (Eff.apply s (.frm b)).mtr = s.mtr := rfl
@[simp] theorem frm_ref (s : State) (b : FrmSt) : (Eff.apply s (.frm b)).ref = s.ref := rfl
@[simp] theorem frm_gau (s : State) (b : FrmSt) : (Eff.apply s (.frm b)).gau = s.gau := rfl
@[simp] theorem frm_otp (s : State) (b : FrmSt) : (Eff.apply s (.frm b)).otp = s.otp := rfl
@[simp] theorem frm_dut (s : State) (b : FrmSt) : (Eff.apply s (.frm b)).dut = s.dut := rfl
@[simp] theorem frm_rfe (s : State) (b : FrmSt) : (Eff.apply s (.frm b)).rfe = s.rfe := rfl
@[simp] theorem frm_chz (s : State) (b : FrmSt) : (Eff.apply s (.frm b)).chz = s.chz := rfl
@[simp] theorem frm_dmd (s : State) (b : FrmSt) : (Eff.apply s (.frm b)).dmd = s.dmd := rfl
@[simp] theorem frm_txp (s : State) (b : FrmSt) : (Eff.apply s (.frm b)).txp = s.txp := rfl
@[simp] theorem frm_shu (s : State) (b : FrmSt) : (Eff.apply s (.frm b)).shu = s.shu := rfl
@[simp] theorem frm_bob (s : State) (b : FrmSt) : (Eff.apply s (.frm b)).bob = s.bob := rfl
@[simp] theorem frm_key (s : State) (b : FrmSt) : (Eff.apply s (.frm b)).key = s.key := rfl
@[simp] theorem frm_sec (s : State) (b : FrmSt) : (Eff.apply s (.frm b)).sec = s.sec := rfl
@[simp] theorem frm_cmd (s : State) (b : FrmSt) : (Eff.apply s (.frm b)).cmd = s.cmd := rfl
@[simp] theorem frm_flc (s : State) (b : FrmSt) : (Eff.apply s (.frm b)).flc = s.flc := rfl
@[simp] theorem frm_ecc (s : State) (b : FrmSt) : (Eff.apply s (.frm b)).ecc = s.ecc := rfl
@[simp] theorem frm_dn (s : State) (b : FrmSt) : (Eff.apply s (.frm b)).dn = s.dn := rfl
@[simp] theorem frm_dbg (s : State) (b : FrmSt) : (Eff.apply s (.frm b)).dbg = s.dbg := rfl
@[simp] theorem frm_vif (s : State) (b : FrmSt) : (Eff.apply s (.frm b)).vif = s.vif := rfl
@[simp] theorem frm_upd (s : State) (b : FrmSt) : (Eff.apply s (.frm b)).upd = s.upd := rfl
@[simp] theorem frm_cas (s : State) (b : FrmSt) : (Eff.apply s (.frm b)).cas = s.cas := rfl
@[simp] theorem frm_hif (s : State) (b : FrmSt) : (Eff.apply s (.frm b)).hif = s.hif := rfl
@[simp] theorem frm_drawn (s : State) (b : FrmSt) : (Eff.apply s (.frm b)).drawn = s.drawn := rfl
@[simp] theorem frm_pending (s : State) (b : FrmSt) : (Eff.apply s (.frm b)).pending = s.pending := rfl
@[simp] theorem frm_frm (s : State) (b : FrmSt) : (Eff.apply s (.frm b)).frm = b := rfl
@[simp] theorem txp_regs (s : State) (b : TxpSt) : (Eff.apply s (.txp b)).regs = s.regs := rfl
@[simp] theorem txp_mem (s : State) (b : TxpSt) : (Eff.apply s (.txp b)).mem = s.mem := rfl
@[simp] theorem txp_pat (s : State) (b : TxpSt) : (Eff.apply s (.txp b)).pat = s.pat := rfl
@[simp] theorem txp_clk (s : State) (b : TxpSt) : (Eff.apply s (.txp b)).clk = s.clk := rfl
@[simp] theorem txp_flt (s : State) (b : TxpSt) : (Eff.apply s (.txp b)).flt = s.flt := rfl
@[simp] theorem txp_stm (s : State) (b : TxpSt) : (Eff.apply s (.txp b)).stm = s.stm := rfl
@[simp] theorem txp_pwr (s : State) (b : TxpSt) : (Eff.apply s (.txp b)).pwr = s.pwr := rfl
@[simp] theorem txp_recd (s : State) (b : TxpSt) : (Eff.apply s (.txp b)).recd = s.recd := rfl
@[simp] theorem txp_bus (s : State) (b : TxpSt) : (Eff.apply s (.txp b)).bus = s.bus := rfl
@[simp] theorem txp_thm (s : State) (b : TxpSt) : (Eff.apply s (.txp b)).thm = s.thm := rfl
@[simp] theorem txp_tim (s : State) (b : TxpSt) : (Eff.apply s (.txp b)).tim = s.tim := rfl
@[simp] theorem txp_i2c (s : State) (b : TxpSt) : (Eff.apply s (.txp b)).i2c = s.i2c := rfl
@[simp] theorem txp_mov (s : State) (b : TxpSt) : (Eff.apply s (.txp b)).mov = s.mov := rfl
@[simp] theorem txp_lmp (s : State) (b : TxpSt) : (Eff.apply s (.txp b)).lmp = s.lmp := rfl
@[simp] theorem txp_mtr (s : State) (b : TxpSt) : (Eff.apply s (.txp b)).mtr = s.mtr := rfl
@[simp] theorem txp_ref (s : State) (b : TxpSt) : (Eff.apply s (.txp b)).ref = s.ref := rfl
@[simp] theorem txp_gau (s : State) (b : TxpSt) : (Eff.apply s (.txp b)).gau = s.gau := rfl
@[simp] theorem txp_otp (s : State) (b : TxpSt) : (Eff.apply s (.txp b)).otp = s.otp := rfl
@[simp] theorem txp_dut (s : State) (b : TxpSt) : (Eff.apply s (.txp b)).dut = s.dut := rfl
@[simp] theorem txp_rfe (s : State) (b : TxpSt) : (Eff.apply s (.txp b)).rfe = s.rfe := rfl
@[simp] theorem txp_chz (s : State) (b : TxpSt) : (Eff.apply s (.txp b)).chz = s.chz := rfl
@[simp] theorem txp_dmd (s : State) (b : TxpSt) : (Eff.apply s (.txp b)).dmd = s.dmd := rfl
@[simp] theorem txp_frm (s : State) (b : TxpSt) : (Eff.apply s (.txp b)).frm = s.frm := rfl
@[simp] theorem txp_shu (s : State) (b : TxpSt) : (Eff.apply s (.txp b)).shu = s.shu := rfl
@[simp] theorem txp_bob (s : State) (b : TxpSt) : (Eff.apply s (.txp b)).bob = s.bob := rfl
@[simp] theorem txp_key (s : State) (b : TxpSt) : (Eff.apply s (.txp b)).key = s.key := rfl
@[simp] theorem txp_sec (s : State) (b : TxpSt) : (Eff.apply s (.txp b)).sec = s.sec := rfl
@[simp] theorem txp_cmd (s : State) (b : TxpSt) : (Eff.apply s (.txp b)).cmd = s.cmd := rfl
@[simp] theorem txp_flc (s : State) (b : TxpSt) : (Eff.apply s (.txp b)).flc = s.flc := rfl
@[simp] theorem txp_ecc (s : State) (b : TxpSt) : (Eff.apply s (.txp b)).ecc = s.ecc := rfl
@[simp] theorem txp_dn (s : State) (b : TxpSt) : (Eff.apply s (.txp b)).dn = s.dn := rfl
@[simp] theorem txp_dbg (s : State) (b : TxpSt) : (Eff.apply s (.txp b)).dbg = s.dbg := rfl
@[simp] theorem txp_vif (s : State) (b : TxpSt) : (Eff.apply s (.txp b)).vif = s.vif := rfl
@[simp] theorem txp_upd (s : State) (b : TxpSt) : (Eff.apply s (.txp b)).upd = s.upd := rfl
@[simp] theorem txp_cas (s : State) (b : TxpSt) : (Eff.apply s (.txp b)).cas = s.cas := rfl
@[simp] theorem txp_hif (s : State) (b : TxpSt) : (Eff.apply s (.txp b)).hif = s.hif := rfl
@[simp] theorem txp_drawn (s : State) (b : TxpSt) : (Eff.apply s (.txp b)).drawn = s.drawn := rfl
@[simp] theorem txp_pending (s : State) (b : TxpSt) : (Eff.apply s (.txp b)).pending = s.pending := rfl
@[simp] theorem txp_txp (s : State) (b : TxpSt) : (Eff.apply s (.txp b)).txp = b := rfl
@[simp] theorem shu_regs (s : State) (b : ShuSt) : (Eff.apply s (.shu b)).regs = s.regs := rfl
@[simp] theorem shu_mem (s : State) (b : ShuSt) : (Eff.apply s (.shu b)).mem = s.mem := rfl
@[simp] theorem shu_pat (s : State) (b : ShuSt) : (Eff.apply s (.shu b)).pat = s.pat := rfl
@[simp] theorem shu_clk (s : State) (b : ShuSt) : (Eff.apply s (.shu b)).clk = s.clk := rfl
@[simp] theorem shu_flt (s : State) (b : ShuSt) : (Eff.apply s (.shu b)).flt = s.flt := rfl
@[simp] theorem shu_stm (s : State) (b : ShuSt) : (Eff.apply s (.shu b)).stm = s.stm := rfl
@[simp] theorem shu_pwr (s : State) (b : ShuSt) : (Eff.apply s (.shu b)).pwr = s.pwr := rfl
@[simp] theorem shu_recd (s : State) (b : ShuSt) : (Eff.apply s (.shu b)).recd = s.recd := rfl
@[simp] theorem shu_bus (s : State) (b : ShuSt) : (Eff.apply s (.shu b)).bus = s.bus := rfl
@[simp] theorem shu_thm (s : State) (b : ShuSt) : (Eff.apply s (.shu b)).thm = s.thm := rfl
@[simp] theorem shu_tim (s : State) (b : ShuSt) : (Eff.apply s (.shu b)).tim = s.tim := rfl
@[simp] theorem shu_i2c (s : State) (b : ShuSt) : (Eff.apply s (.shu b)).i2c = s.i2c := rfl
@[simp] theorem shu_mov (s : State) (b : ShuSt) : (Eff.apply s (.shu b)).mov = s.mov := rfl
@[simp] theorem shu_lmp (s : State) (b : ShuSt) : (Eff.apply s (.shu b)).lmp = s.lmp := rfl
@[simp] theorem shu_mtr (s : State) (b : ShuSt) : (Eff.apply s (.shu b)).mtr = s.mtr := rfl
@[simp] theorem shu_ref (s : State) (b : ShuSt) : (Eff.apply s (.shu b)).ref = s.ref := rfl
@[simp] theorem shu_gau (s : State) (b : ShuSt) : (Eff.apply s (.shu b)).gau = s.gau := rfl
@[simp] theorem shu_otp (s : State) (b : ShuSt) : (Eff.apply s (.shu b)).otp = s.otp := rfl
@[simp] theorem shu_dut (s : State) (b : ShuSt) : (Eff.apply s (.shu b)).dut = s.dut := rfl
@[simp] theorem shu_rfe (s : State) (b : ShuSt) : (Eff.apply s (.shu b)).rfe = s.rfe := rfl
@[simp] theorem shu_chz (s : State) (b : ShuSt) : (Eff.apply s (.shu b)).chz = s.chz := rfl
@[simp] theorem shu_dmd (s : State) (b : ShuSt) : (Eff.apply s (.shu b)).dmd = s.dmd := rfl
@[simp] theorem shu_frm (s : State) (b : ShuSt) : (Eff.apply s (.shu b)).frm = s.frm := rfl
@[simp] theorem shu_txp (s : State) (b : ShuSt) : (Eff.apply s (.shu b)).txp = s.txp := rfl
@[simp] theorem shu_bob (s : State) (b : ShuSt) : (Eff.apply s (.shu b)).bob = s.bob := rfl
@[simp] theorem shu_key (s : State) (b : ShuSt) : (Eff.apply s (.shu b)).key = s.key := rfl
@[simp] theorem shu_sec (s : State) (b : ShuSt) : (Eff.apply s (.shu b)).sec = s.sec := rfl
@[simp] theorem shu_cmd (s : State) (b : ShuSt) : (Eff.apply s (.shu b)).cmd = s.cmd := rfl
@[simp] theorem shu_flc (s : State) (b : ShuSt) : (Eff.apply s (.shu b)).flc = s.flc := rfl
@[simp] theorem shu_ecc (s : State) (b : ShuSt) : (Eff.apply s (.shu b)).ecc = s.ecc := rfl
@[simp] theorem shu_dn (s : State) (b : ShuSt) : (Eff.apply s (.shu b)).dn = s.dn := rfl
@[simp] theorem shu_dbg (s : State) (b : ShuSt) : (Eff.apply s (.shu b)).dbg = s.dbg := rfl
@[simp] theorem shu_vif (s : State) (b : ShuSt) : (Eff.apply s (.shu b)).vif = s.vif := rfl
@[simp] theorem shu_upd (s : State) (b : ShuSt) : (Eff.apply s (.shu b)).upd = s.upd := rfl
@[simp] theorem shu_cas (s : State) (b : ShuSt) : (Eff.apply s (.shu b)).cas = s.cas := rfl
@[simp] theorem shu_hif (s : State) (b : ShuSt) : (Eff.apply s (.shu b)).hif = s.hif := rfl
@[simp] theorem shu_drawn (s : State) (b : ShuSt) : (Eff.apply s (.shu b)).drawn = s.drawn := rfl
@[simp] theorem shu_pending (s : State) (b : ShuSt) : (Eff.apply s (.shu b)).pending = s.pending := rfl
@[simp] theorem shu_shu (s : State) (b : ShuSt) : (Eff.apply s (.shu b)).shu = b := rfl
@[simp] theorem bob_regs (s : State) (b : BobSt) : (Eff.apply s (.bob b)).regs = s.regs := rfl
@[simp] theorem bob_mem (s : State) (b : BobSt) : (Eff.apply s (.bob b)).mem = s.mem := rfl
@[simp] theorem bob_pat (s : State) (b : BobSt) : (Eff.apply s (.bob b)).pat = s.pat := rfl
@[simp] theorem bob_clk (s : State) (b : BobSt) : (Eff.apply s (.bob b)).clk = s.clk := rfl
@[simp] theorem bob_flt (s : State) (b : BobSt) : (Eff.apply s (.bob b)).flt = s.flt := rfl
@[simp] theorem bob_stm (s : State) (b : BobSt) : (Eff.apply s (.bob b)).stm = s.stm := rfl
@[simp] theorem bob_pwr (s : State) (b : BobSt) : (Eff.apply s (.bob b)).pwr = s.pwr := rfl
@[simp] theorem bob_recd (s : State) (b : BobSt) : (Eff.apply s (.bob b)).recd = s.recd := rfl
@[simp] theorem bob_bus (s : State) (b : BobSt) : (Eff.apply s (.bob b)).bus = s.bus := rfl
@[simp] theorem bob_thm (s : State) (b : BobSt) : (Eff.apply s (.bob b)).thm = s.thm := rfl
@[simp] theorem bob_tim (s : State) (b : BobSt) : (Eff.apply s (.bob b)).tim = s.tim := rfl
@[simp] theorem bob_i2c (s : State) (b : BobSt) : (Eff.apply s (.bob b)).i2c = s.i2c := rfl
@[simp] theorem bob_mov (s : State) (b : BobSt) : (Eff.apply s (.bob b)).mov = s.mov := rfl
@[simp] theorem bob_lmp (s : State) (b : BobSt) : (Eff.apply s (.bob b)).lmp = s.lmp := rfl
@[simp] theorem bob_mtr (s : State) (b : BobSt) : (Eff.apply s (.bob b)).mtr = s.mtr := rfl
@[simp] theorem bob_ref (s : State) (b : BobSt) : (Eff.apply s (.bob b)).ref = s.ref := rfl
@[simp] theorem bob_gau (s : State) (b : BobSt) : (Eff.apply s (.bob b)).gau = s.gau := rfl
@[simp] theorem bob_otp (s : State) (b : BobSt) : (Eff.apply s (.bob b)).otp = s.otp := rfl
@[simp] theorem bob_dut (s : State) (b : BobSt) : (Eff.apply s (.bob b)).dut = s.dut := rfl
@[simp] theorem bob_rfe (s : State) (b : BobSt) : (Eff.apply s (.bob b)).rfe = s.rfe := rfl
@[simp] theorem bob_chz (s : State) (b : BobSt) : (Eff.apply s (.bob b)).chz = s.chz := rfl
@[simp] theorem bob_dmd (s : State) (b : BobSt) : (Eff.apply s (.bob b)).dmd = s.dmd := rfl
@[simp] theorem bob_frm (s : State) (b : BobSt) : (Eff.apply s (.bob b)).frm = s.frm := rfl
@[simp] theorem bob_txp (s : State) (b : BobSt) : (Eff.apply s (.bob b)).txp = s.txp := rfl
@[simp] theorem bob_shu (s : State) (b : BobSt) : (Eff.apply s (.bob b)).shu = s.shu := rfl
@[simp] theorem bob_key (s : State) (b : BobSt) : (Eff.apply s (.bob b)).key = s.key := rfl
@[simp] theorem bob_sec (s : State) (b : BobSt) : (Eff.apply s (.bob b)).sec = s.sec := rfl
@[simp] theorem bob_cmd (s : State) (b : BobSt) : (Eff.apply s (.bob b)).cmd = s.cmd := rfl
@[simp] theorem bob_flc (s : State) (b : BobSt) : (Eff.apply s (.bob b)).flc = s.flc := rfl
@[simp] theorem bob_ecc (s : State) (b : BobSt) : (Eff.apply s (.bob b)).ecc = s.ecc := rfl
@[simp] theorem bob_dn (s : State) (b : BobSt) : (Eff.apply s (.bob b)).dn = s.dn := rfl
@[simp] theorem bob_dbg (s : State) (b : BobSt) : (Eff.apply s (.bob b)).dbg = s.dbg := rfl
@[simp] theorem bob_vif (s : State) (b : BobSt) : (Eff.apply s (.bob b)).vif = s.vif := rfl
@[simp] theorem bob_upd (s : State) (b : BobSt) : (Eff.apply s (.bob b)).upd = s.upd := rfl
@[simp] theorem bob_cas (s : State) (b : BobSt) : (Eff.apply s (.bob b)).cas = s.cas := rfl
@[simp] theorem bob_hif (s : State) (b : BobSt) : (Eff.apply s (.bob b)).hif = s.hif := rfl
@[simp] theorem bob_drawn (s : State) (b : BobSt) : (Eff.apply s (.bob b)).drawn = s.drawn := rfl
@[simp] theorem bob_pending (s : State) (b : BobSt) : (Eff.apply s (.bob b)).pending = s.pending := rfl
@[simp] theorem bob_bob (s : State) (b : BobSt) : (Eff.apply s (.bob b)).bob = b := rfl
@[simp] theorem key_regs (s : State) (b : KeySt) : (Eff.apply s (.key b)).regs = s.regs := rfl
@[simp] theorem key_mem (s : State) (b : KeySt) : (Eff.apply s (.key b)).mem = s.mem := rfl
@[simp] theorem key_pat (s : State) (b : KeySt) : (Eff.apply s (.key b)).pat = s.pat := rfl
@[simp] theorem key_clk (s : State) (b : KeySt) : (Eff.apply s (.key b)).clk = s.clk := rfl
@[simp] theorem key_flt (s : State) (b : KeySt) : (Eff.apply s (.key b)).flt = s.flt := rfl
@[simp] theorem key_stm (s : State) (b : KeySt) : (Eff.apply s (.key b)).stm = s.stm := rfl
@[simp] theorem key_pwr (s : State) (b : KeySt) : (Eff.apply s (.key b)).pwr = s.pwr := rfl
@[simp] theorem key_recd (s : State) (b : KeySt) : (Eff.apply s (.key b)).recd = s.recd := rfl
@[simp] theorem key_bus (s : State) (b : KeySt) : (Eff.apply s (.key b)).bus = s.bus := rfl
@[simp] theorem key_thm (s : State) (b : KeySt) : (Eff.apply s (.key b)).thm = s.thm := rfl
@[simp] theorem key_tim (s : State) (b : KeySt) : (Eff.apply s (.key b)).tim = s.tim := rfl
@[simp] theorem key_i2c (s : State) (b : KeySt) : (Eff.apply s (.key b)).i2c = s.i2c := rfl
@[simp] theorem key_mov (s : State) (b : KeySt) : (Eff.apply s (.key b)).mov = s.mov := rfl
@[simp] theorem key_lmp (s : State) (b : KeySt) : (Eff.apply s (.key b)).lmp = s.lmp := rfl
@[simp] theorem key_mtr (s : State) (b : KeySt) : (Eff.apply s (.key b)).mtr = s.mtr := rfl
@[simp] theorem key_ref (s : State) (b : KeySt) : (Eff.apply s (.key b)).ref = s.ref := rfl
@[simp] theorem key_gau (s : State) (b : KeySt) : (Eff.apply s (.key b)).gau = s.gau := rfl
@[simp] theorem key_otp (s : State) (b : KeySt) : (Eff.apply s (.key b)).otp = s.otp := rfl
@[simp] theorem key_dut (s : State) (b : KeySt) : (Eff.apply s (.key b)).dut = s.dut := rfl
@[simp] theorem key_rfe (s : State) (b : KeySt) : (Eff.apply s (.key b)).rfe = s.rfe := rfl
@[simp] theorem key_chz (s : State) (b : KeySt) : (Eff.apply s (.key b)).chz = s.chz := rfl
@[simp] theorem key_dmd (s : State) (b : KeySt) : (Eff.apply s (.key b)).dmd = s.dmd := rfl
@[simp] theorem key_frm (s : State) (b : KeySt) : (Eff.apply s (.key b)).frm = s.frm := rfl
@[simp] theorem key_txp (s : State) (b : KeySt) : (Eff.apply s (.key b)).txp = s.txp := rfl
@[simp] theorem key_shu (s : State) (b : KeySt) : (Eff.apply s (.key b)).shu = s.shu := rfl
@[simp] theorem key_bob (s : State) (b : KeySt) : (Eff.apply s (.key b)).bob = s.bob := rfl
@[simp] theorem key_sec (s : State) (b : KeySt) : (Eff.apply s (.key b)).sec = s.sec := rfl
@[simp] theorem key_cmd (s : State) (b : KeySt) : (Eff.apply s (.key b)).cmd = s.cmd := rfl
@[simp] theorem key_flc (s : State) (b : KeySt) : (Eff.apply s (.key b)).flc = s.flc := rfl
@[simp] theorem key_ecc (s : State) (b : KeySt) : (Eff.apply s (.key b)).ecc = s.ecc := rfl
@[simp] theorem key_dn (s : State) (b : KeySt) : (Eff.apply s (.key b)).dn = s.dn := rfl
@[simp] theorem key_dbg (s : State) (b : KeySt) : (Eff.apply s (.key b)).dbg = s.dbg := rfl
@[simp] theorem key_vif (s : State) (b : KeySt) : (Eff.apply s (.key b)).vif = s.vif := rfl
@[simp] theorem key_upd (s : State) (b : KeySt) : (Eff.apply s (.key b)).upd = s.upd := rfl
@[simp] theorem key_cas (s : State) (b : KeySt) : (Eff.apply s (.key b)).cas = s.cas := rfl
@[simp] theorem key_hif (s : State) (b : KeySt) : (Eff.apply s (.key b)).hif = s.hif := rfl
@[simp] theorem key_drawn (s : State) (b : KeySt) : (Eff.apply s (.key b)).drawn = s.drawn := rfl
@[simp] theorem key_pending (s : State) (b : KeySt) : (Eff.apply s (.key b)).pending = s.pending := rfl
@[simp] theorem key_key (s : State) (b : KeySt) : (Eff.apply s (.key b)).key = b := rfl
@[simp] theorem sec_regs (s : State) (b : SecSt) : (Eff.apply s (.sec b)).regs = s.regs := rfl
@[simp] theorem sec_mem (s : State) (b : SecSt) : (Eff.apply s (.sec b)).mem = s.mem := rfl
@[simp] theorem sec_pat (s : State) (b : SecSt) : (Eff.apply s (.sec b)).pat = s.pat := rfl
@[simp] theorem sec_clk (s : State) (b : SecSt) : (Eff.apply s (.sec b)).clk = s.clk := rfl
@[simp] theorem sec_flt (s : State) (b : SecSt) : (Eff.apply s (.sec b)).flt = s.flt := rfl
@[simp] theorem sec_stm (s : State) (b : SecSt) : (Eff.apply s (.sec b)).stm = s.stm := rfl
@[simp] theorem sec_pwr (s : State) (b : SecSt) : (Eff.apply s (.sec b)).pwr = s.pwr := rfl
@[simp] theorem sec_recd (s : State) (b : SecSt) : (Eff.apply s (.sec b)).recd = s.recd := rfl
@[simp] theorem sec_bus (s : State) (b : SecSt) : (Eff.apply s (.sec b)).bus = s.bus := rfl
@[simp] theorem sec_thm (s : State) (b : SecSt) : (Eff.apply s (.sec b)).thm = s.thm := rfl
@[simp] theorem sec_tim (s : State) (b : SecSt) : (Eff.apply s (.sec b)).tim = s.tim := rfl
@[simp] theorem sec_i2c (s : State) (b : SecSt) : (Eff.apply s (.sec b)).i2c = s.i2c := rfl
@[simp] theorem sec_mov (s : State) (b : SecSt) : (Eff.apply s (.sec b)).mov = s.mov := rfl
@[simp] theorem sec_lmp (s : State) (b : SecSt) : (Eff.apply s (.sec b)).lmp = s.lmp := rfl
@[simp] theorem sec_mtr (s : State) (b : SecSt) : (Eff.apply s (.sec b)).mtr = s.mtr := rfl
@[simp] theorem sec_ref (s : State) (b : SecSt) : (Eff.apply s (.sec b)).ref = s.ref := rfl
@[simp] theorem sec_gau (s : State) (b : SecSt) : (Eff.apply s (.sec b)).gau = s.gau := rfl
@[simp] theorem sec_otp (s : State) (b : SecSt) : (Eff.apply s (.sec b)).otp = s.otp := rfl
@[simp] theorem sec_dut (s : State) (b : SecSt) : (Eff.apply s (.sec b)).dut = s.dut := rfl
@[simp] theorem sec_rfe (s : State) (b : SecSt) : (Eff.apply s (.sec b)).rfe = s.rfe := rfl
@[simp] theorem sec_chz (s : State) (b : SecSt) : (Eff.apply s (.sec b)).chz = s.chz := rfl
@[simp] theorem sec_dmd (s : State) (b : SecSt) : (Eff.apply s (.sec b)).dmd = s.dmd := rfl
@[simp] theorem sec_frm (s : State) (b : SecSt) : (Eff.apply s (.sec b)).frm = s.frm := rfl
@[simp] theorem sec_txp (s : State) (b : SecSt) : (Eff.apply s (.sec b)).txp = s.txp := rfl
@[simp] theorem sec_shu (s : State) (b : SecSt) : (Eff.apply s (.sec b)).shu = s.shu := rfl
@[simp] theorem sec_bob (s : State) (b : SecSt) : (Eff.apply s (.sec b)).bob = s.bob := rfl
@[simp] theorem sec_key (s : State) (b : SecSt) : (Eff.apply s (.sec b)).key = s.key := rfl
@[simp] theorem sec_cmd (s : State) (b : SecSt) : (Eff.apply s (.sec b)).cmd = s.cmd := rfl
@[simp] theorem sec_flc (s : State) (b : SecSt) : (Eff.apply s (.sec b)).flc = s.flc := rfl
@[simp] theorem sec_ecc (s : State) (b : SecSt) : (Eff.apply s (.sec b)).ecc = s.ecc := rfl
@[simp] theorem sec_dn (s : State) (b : SecSt) : (Eff.apply s (.sec b)).dn = s.dn := rfl
@[simp] theorem sec_dbg (s : State) (b : SecSt) : (Eff.apply s (.sec b)).dbg = s.dbg := rfl
@[simp] theorem sec_vif (s : State) (b : SecSt) : (Eff.apply s (.sec b)).vif = s.vif := rfl
@[simp] theorem sec_upd (s : State) (b : SecSt) : (Eff.apply s (.sec b)).upd = s.upd := rfl
@[simp] theorem sec_cas (s : State) (b : SecSt) : (Eff.apply s (.sec b)).cas = s.cas := rfl
@[simp] theorem sec_hif (s : State) (b : SecSt) : (Eff.apply s (.sec b)).hif = s.hif := rfl
@[simp] theorem sec_drawn (s : State) (b : SecSt) : (Eff.apply s (.sec b)).drawn = s.drawn := rfl
@[simp] theorem sec_pending (s : State) (b : SecSt) : (Eff.apply s (.sec b)).pending = s.pending := rfl
@[simp] theorem sec_sec (s : State) (b : SecSt) : (Eff.apply s (.sec b)).sec = b := rfl
@[simp] theorem cmd_regs (s : State) (b : CmdSt) : (Eff.apply s (.cmd b)).regs = s.regs := rfl
@[simp] theorem cmd_mem (s : State) (b : CmdSt) : (Eff.apply s (.cmd b)).mem = s.mem := rfl
@[simp] theorem cmd_pat (s : State) (b : CmdSt) : (Eff.apply s (.cmd b)).pat = s.pat := rfl
@[simp] theorem cmd_clk (s : State) (b : CmdSt) : (Eff.apply s (.cmd b)).clk = s.clk := rfl
@[simp] theorem cmd_flt (s : State) (b : CmdSt) : (Eff.apply s (.cmd b)).flt = s.flt := rfl
@[simp] theorem cmd_stm (s : State) (b : CmdSt) : (Eff.apply s (.cmd b)).stm = s.stm := rfl
@[simp] theorem cmd_pwr (s : State) (b : CmdSt) : (Eff.apply s (.cmd b)).pwr = s.pwr := rfl
@[simp] theorem cmd_recd (s : State) (b : CmdSt) : (Eff.apply s (.cmd b)).recd = s.recd := rfl
@[simp] theorem cmd_bus (s : State) (b : CmdSt) : (Eff.apply s (.cmd b)).bus = s.bus := rfl
@[simp] theorem cmd_thm (s : State) (b : CmdSt) : (Eff.apply s (.cmd b)).thm = s.thm := rfl
@[simp] theorem cmd_tim (s : State) (b : CmdSt) : (Eff.apply s (.cmd b)).tim = s.tim := rfl
@[simp] theorem cmd_i2c (s : State) (b : CmdSt) : (Eff.apply s (.cmd b)).i2c = s.i2c := rfl
@[simp] theorem cmd_mov (s : State) (b : CmdSt) : (Eff.apply s (.cmd b)).mov = s.mov := rfl
@[simp] theorem cmd_lmp (s : State) (b : CmdSt) : (Eff.apply s (.cmd b)).lmp = s.lmp := rfl
@[simp] theorem cmd_mtr (s : State) (b : CmdSt) : (Eff.apply s (.cmd b)).mtr = s.mtr := rfl
@[simp] theorem cmd_ref (s : State) (b : CmdSt) : (Eff.apply s (.cmd b)).ref = s.ref := rfl
@[simp] theorem cmd_gau (s : State) (b : CmdSt) : (Eff.apply s (.cmd b)).gau = s.gau := rfl
@[simp] theorem cmd_otp (s : State) (b : CmdSt) : (Eff.apply s (.cmd b)).otp = s.otp := rfl
@[simp] theorem cmd_dut (s : State) (b : CmdSt) : (Eff.apply s (.cmd b)).dut = s.dut := rfl
@[simp] theorem cmd_rfe (s : State) (b : CmdSt) : (Eff.apply s (.cmd b)).rfe = s.rfe := rfl
@[simp] theorem cmd_chz (s : State) (b : CmdSt) : (Eff.apply s (.cmd b)).chz = s.chz := rfl
@[simp] theorem cmd_dmd (s : State) (b : CmdSt) : (Eff.apply s (.cmd b)).dmd = s.dmd := rfl
@[simp] theorem cmd_frm (s : State) (b : CmdSt) : (Eff.apply s (.cmd b)).frm = s.frm := rfl
@[simp] theorem cmd_txp (s : State) (b : CmdSt) : (Eff.apply s (.cmd b)).txp = s.txp := rfl
@[simp] theorem cmd_shu (s : State) (b : CmdSt) : (Eff.apply s (.cmd b)).shu = s.shu := rfl
@[simp] theorem cmd_bob (s : State) (b : CmdSt) : (Eff.apply s (.cmd b)).bob = s.bob := rfl
@[simp] theorem cmd_key (s : State) (b : CmdSt) : (Eff.apply s (.cmd b)).key = s.key := rfl
@[simp] theorem cmd_sec (s : State) (b : CmdSt) : (Eff.apply s (.cmd b)).sec = s.sec := rfl
@[simp] theorem cmd_flc (s : State) (b : CmdSt) : (Eff.apply s (.cmd b)).flc = s.flc := rfl
@[simp] theorem cmd_ecc (s : State) (b : CmdSt) : (Eff.apply s (.cmd b)).ecc = s.ecc := rfl
@[simp] theorem cmd_dn (s : State) (b : CmdSt) : (Eff.apply s (.cmd b)).dn = s.dn := rfl
@[simp] theorem cmd_dbg (s : State) (b : CmdSt) : (Eff.apply s (.cmd b)).dbg = s.dbg := rfl
@[simp] theorem cmd_vif (s : State) (b : CmdSt) : (Eff.apply s (.cmd b)).vif = s.vif := rfl
@[simp] theorem cmd_upd (s : State) (b : CmdSt) : (Eff.apply s (.cmd b)).upd = s.upd := rfl
@[simp] theorem cmd_cas (s : State) (b : CmdSt) : (Eff.apply s (.cmd b)).cas = s.cas := rfl
@[simp] theorem cmd_hif (s : State) (b : CmdSt) : (Eff.apply s (.cmd b)).hif = s.hif := rfl
@[simp] theorem cmd_drawn (s : State) (b : CmdSt) : (Eff.apply s (.cmd b)).drawn = s.drawn := rfl
@[simp] theorem cmd_pending (s : State) (b : CmdSt) : (Eff.apply s (.cmd b)).pending = s.pending := rfl
@[simp] theorem cmd_cmd (s : State) (b : CmdSt) : (Eff.apply s (.cmd b)).cmd = b := rfl
@[simp] theorem flc_regs (s : State) (b : FlcSt) : (Eff.apply s (.flc b)).regs = s.regs := rfl
@[simp] theorem flc_mem (s : State) (b : FlcSt) : (Eff.apply s (.flc b)).mem = s.mem := rfl
@[simp] theorem flc_pat (s : State) (b : FlcSt) : (Eff.apply s (.flc b)).pat = s.pat := rfl
@[simp] theorem flc_clk (s : State) (b : FlcSt) : (Eff.apply s (.flc b)).clk = s.clk := rfl
@[simp] theorem flc_flt (s : State) (b : FlcSt) : (Eff.apply s (.flc b)).flt = s.flt := rfl
@[simp] theorem flc_stm (s : State) (b : FlcSt) : (Eff.apply s (.flc b)).stm = s.stm := rfl
@[simp] theorem flc_pwr (s : State) (b : FlcSt) : (Eff.apply s (.flc b)).pwr = s.pwr := rfl
@[simp] theorem flc_recd (s : State) (b : FlcSt) : (Eff.apply s (.flc b)).recd = s.recd := rfl
@[simp] theorem flc_bus (s : State) (b : FlcSt) : (Eff.apply s (.flc b)).bus = s.bus := rfl
@[simp] theorem flc_thm (s : State) (b : FlcSt) : (Eff.apply s (.flc b)).thm = s.thm := rfl
@[simp] theorem flc_tim (s : State) (b : FlcSt) : (Eff.apply s (.flc b)).tim = s.tim := rfl
@[simp] theorem flc_i2c (s : State) (b : FlcSt) : (Eff.apply s (.flc b)).i2c = s.i2c := rfl
@[simp] theorem flc_mov (s : State) (b : FlcSt) : (Eff.apply s (.flc b)).mov = s.mov := rfl
@[simp] theorem flc_lmp (s : State) (b : FlcSt) : (Eff.apply s (.flc b)).lmp = s.lmp := rfl
@[simp] theorem flc_mtr (s : State) (b : FlcSt) : (Eff.apply s (.flc b)).mtr = s.mtr := rfl
@[simp] theorem flc_ref (s : State) (b : FlcSt) : (Eff.apply s (.flc b)).ref = s.ref := rfl
@[simp] theorem flc_gau (s : State) (b : FlcSt) : (Eff.apply s (.flc b)).gau = s.gau := rfl
@[simp] theorem flc_otp (s : State) (b : FlcSt) : (Eff.apply s (.flc b)).otp = s.otp := rfl
@[simp] theorem flc_dut (s : State) (b : FlcSt) : (Eff.apply s (.flc b)).dut = s.dut := rfl
@[simp] theorem flc_rfe (s : State) (b : FlcSt) : (Eff.apply s (.flc b)).rfe = s.rfe := rfl
@[simp] theorem flc_chz (s : State) (b : FlcSt) : (Eff.apply s (.flc b)).chz = s.chz := rfl
@[simp] theorem flc_dmd (s : State) (b : FlcSt) : (Eff.apply s (.flc b)).dmd = s.dmd := rfl
@[simp] theorem flc_frm (s : State) (b : FlcSt) : (Eff.apply s (.flc b)).frm = s.frm := rfl
@[simp] theorem flc_txp (s : State) (b : FlcSt) : (Eff.apply s (.flc b)).txp = s.txp := rfl
@[simp] theorem flc_shu (s : State) (b : FlcSt) : (Eff.apply s (.flc b)).shu = s.shu := rfl
@[simp] theorem flc_bob (s : State) (b : FlcSt) : (Eff.apply s (.flc b)).bob = s.bob := rfl
@[simp] theorem flc_key (s : State) (b : FlcSt) : (Eff.apply s (.flc b)).key = s.key := rfl
@[simp] theorem flc_sec (s : State) (b : FlcSt) : (Eff.apply s (.flc b)).sec = s.sec := rfl
@[simp] theorem flc_cmd (s : State) (b : FlcSt) : (Eff.apply s (.flc b)).cmd = s.cmd := rfl
@[simp] theorem flc_ecc (s : State) (b : FlcSt) : (Eff.apply s (.flc b)).ecc = s.ecc := rfl
@[simp] theorem flc_dn (s : State) (b : FlcSt) : (Eff.apply s (.flc b)).dn = s.dn := rfl
@[simp] theorem flc_dbg (s : State) (b : FlcSt) : (Eff.apply s (.flc b)).dbg = s.dbg := rfl
@[simp] theorem flc_vif (s : State) (b : FlcSt) : (Eff.apply s (.flc b)).vif = s.vif := rfl
@[simp] theorem flc_upd (s : State) (b : FlcSt) : (Eff.apply s (.flc b)).upd = s.upd := rfl
@[simp] theorem flc_cas (s : State) (b : FlcSt) : (Eff.apply s (.flc b)).cas = s.cas := rfl
@[simp] theorem flc_hif (s : State) (b : FlcSt) : (Eff.apply s (.flc b)).hif = s.hif := rfl
@[simp] theorem flc_drawn (s : State) (b : FlcSt) : (Eff.apply s (.flc b)).drawn = s.drawn := rfl
@[simp] theorem flc_pending (s : State) (b : FlcSt) : (Eff.apply s (.flc b)).pending = s.pending := rfl
@[simp] theorem flc_flc (s : State) (b : FlcSt) : (Eff.apply s (.flc b)).flc = b := rfl
@[simp] theorem ecc_regs (s : State) (b : EccSt) : (Eff.apply s (.ecc b)).regs = s.regs := rfl
@[simp] theorem ecc_mem (s : State) (b : EccSt) : (Eff.apply s (.ecc b)).mem = s.mem := rfl
@[simp] theorem ecc_pat (s : State) (b : EccSt) : (Eff.apply s (.ecc b)).pat = s.pat := rfl
@[simp] theorem ecc_clk (s : State) (b : EccSt) : (Eff.apply s (.ecc b)).clk = s.clk := rfl
@[simp] theorem ecc_flt (s : State) (b : EccSt) : (Eff.apply s (.ecc b)).flt = s.flt := rfl
@[simp] theorem ecc_stm (s : State) (b : EccSt) : (Eff.apply s (.ecc b)).stm = s.stm := rfl
@[simp] theorem ecc_pwr (s : State) (b : EccSt) : (Eff.apply s (.ecc b)).pwr = s.pwr := rfl
@[simp] theorem ecc_recd (s : State) (b : EccSt) : (Eff.apply s (.ecc b)).recd = s.recd := rfl
@[simp] theorem ecc_bus (s : State) (b : EccSt) : (Eff.apply s (.ecc b)).bus = s.bus := rfl
@[simp] theorem ecc_thm (s : State) (b : EccSt) : (Eff.apply s (.ecc b)).thm = s.thm := rfl
@[simp] theorem ecc_tim (s : State) (b : EccSt) : (Eff.apply s (.ecc b)).tim = s.tim := rfl
@[simp] theorem ecc_i2c (s : State) (b : EccSt) : (Eff.apply s (.ecc b)).i2c = s.i2c := rfl
@[simp] theorem ecc_mov (s : State) (b : EccSt) : (Eff.apply s (.ecc b)).mov = s.mov := rfl
@[simp] theorem ecc_lmp (s : State) (b : EccSt) : (Eff.apply s (.ecc b)).lmp = s.lmp := rfl
@[simp] theorem ecc_mtr (s : State) (b : EccSt) : (Eff.apply s (.ecc b)).mtr = s.mtr := rfl
@[simp] theorem ecc_ref (s : State) (b : EccSt) : (Eff.apply s (.ecc b)).ref = s.ref := rfl
@[simp] theorem ecc_gau (s : State) (b : EccSt) : (Eff.apply s (.ecc b)).gau = s.gau := rfl
@[simp] theorem ecc_otp (s : State) (b : EccSt) : (Eff.apply s (.ecc b)).otp = s.otp := rfl
@[simp] theorem ecc_dut (s : State) (b : EccSt) : (Eff.apply s (.ecc b)).dut = s.dut := rfl
@[simp] theorem ecc_rfe (s : State) (b : EccSt) : (Eff.apply s (.ecc b)).rfe = s.rfe := rfl
@[simp] theorem ecc_chz (s : State) (b : EccSt) : (Eff.apply s (.ecc b)).chz = s.chz := rfl
@[simp] theorem ecc_dmd (s : State) (b : EccSt) : (Eff.apply s (.ecc b)).dmd = s.dmd := rfl
@[simp] theorem ecc_frm (s : State) (b : EccSt) : (Eff.apply s (.ecc b)).frm = s.frm := rfl
@[simp] theorem ecc_txp (s : State) (b : EccSt) : (Eff.apply s (.ecc b)).txp = s.txp := rfl
@[simp] theorem ecc_shu (s : State) (b : EccSt) : (Eff.apply s (.ecc b)).shu = s.shu := rfl
@[simp] theorem ecc_bob (s : State) (b : EccSt) : (Eff.apply s (.ecc b)).bob = s.bob := rfl
@[simp] theorem ecc_key (s : State) (b : EccSt) : (Eff.apply s (.ecc b)).key = s.key := rfl
@[simp] theorem ecc_sec (s : State) (b : EccSt) : (Eff.apply s (.ecc b)).sec = s.sec := rfl
@[simp] theorem ecc_cmd (s : State) (b : EccSt) : (Eff.apply s (.ecc b)).cmd = s.cmd := rfl
@[simp] theorem ecc_flc (s : State) (b : EccSt) : (Eff.apply s (.ecc b)).flc = s.flc := rfl
@[simp] theorem ecc_dn (s : State) (b : EccSt) : (Eff.apply s (.ecc b)).dn = s.dn := rfl
@[simp] theorem ecc_dbg (s : State) (b : EccSt) : (Eff.apply s (.ecc b)).dbg = s.dbg := rfl
@[simp] theorem ecc_vif (s : State) (b : EccSt) : (Eff.apply s (.ecc b)).vif = s.vif := rfl
@[simp] theorem ecc_upd (s : State) (b : EccSt) : (Eff.apply s (.ecc b)).upd = s.upd := rfl
@[simp] theorem ecc_cas (s : State) (b : EccSt) : (Eff.apply s (.ecc b)).cas = s.cas := rfl
@[simp] theorem ecc_hif (s : State) (b : EccSt) : (Eff.apply s (.ecc b)).hif = s.hif := rfl
@[simp] theorem ecc_drawn (s : State) (b : EccSt) : (Eff.apply s (.ecc b)).drawn = s.drawn := rfl
@[simp] theorem ecc_pending (s : State) (b : EccSt) : (Eff.apply s (.ecc b)).pending = s.pending := rfl
@[simp] theorem ecc_ecc (s : State) (b : EccSt) : (Eff.apply s (.ecc b)).ecc = b := rfl
@[simp] theorem dn_regs (s : State) (b : DnSt) : (Eff.apply s (.dn b)).regs = s.regs := rfl
@[simp] theorem dn_mem (s : State) (b : DnSt) : (Eff.apply s (.dn b)).mem = s.mem := rfl
@[simp] theorem dn_pat (s : State) (b : DnSt) : (Eff.apply s (.dn b)).pat = s.pat := rfl
@[simp] theorem dn_clk (s : State) (b : DnSt) : (Eff.apply s (.dn b)).clk = s.clk := rfl
@[simp] theorem dn_flt (s : State) (b : DnSt) : (Eff.apply s (.dn b)).flt = s.flt := rfl
@[simp] theorem dn_stm (s : State) (b : DnSt) : (Eff.apply s (.dn b)).stm = s.stm := rfl
@[simp] theorem dn_pwr (s : State) (b : DnSt) : (Eff.apply s (.dn b)).pwr = s.pwr := rfl
@[simp] theorem dn_recd (s : State) (b : DnSt) : (Eff.apply s (.dn b)).recd = s.recd := rfl
@[simp] theorem dn_bus (s : State) (b : DnSt) : (Eff.apply s (.dn b)).bus = s.bus := rfl
@[simp] theorem dn_thm (s : State) (b : DnSt) : (Eff.apply s (.dn b)).thm = s.thm := rfl
@[simp] theorem dn_tim (s : State) (b : DnSt) : (Eff.apply s (.dn b)).tim = s.tim := rfl
@[simp] theorem dn_i2c (s : State) (b : DnSt) : (Eff.apply s (.dn b)).i2c = s.i2c := rfl
@[simp] theorem dn_mov (s : State) (b : DnSt) : (Eff.apply s (.dn b)).mov = s.mov := rfl
@[simp] theorem dn_lmp (s : State) (b : DnSt) : (Eff.apply s (.dn b)).lmp = s.lmp := rfl
@[simp] theorem dn_mtr (s : State) (b : DnSt) : (Eff.apply s (.dn b)).mtr = s.mtr := rfl
@[simp] theorem dn_ref (s : State) (b : DnSt) : (Eff.apply s (.dn b)).ref = s.ref := rfl
@[simp] theorem dn_gau (s : State) (b : DnSt) : (Eff.apply s (.dn b)).gau = s.gau := rfl
@[simp] theorem dn_otp (s : State) (b : DnSt) : (Eff.apply s (.dn b)).otp = s.otp := rfl
@[simp] theorem dn_dut (s : State) (b : DnSt) : (Eff.apply s (.dn b)).dut = s.dut := rfl
@[simp] theorem dn_rfe (s : State) (b : DnSt) : (Eff.apply s (.dn b)).rfe = s.rfe := rfl
@[simp] theorem dn_chz (s : State) (b : DnSt) : (Eff.apply s (.dn b)).chz = s.chz := rfl
@[simp] theorem dn_dmd (s : State) (b : DnSt) : (Eff.apply s (.dn b)).dmd = s.dmd := rfl
@[simp] theorem dn_frm (s : State) (b : DnSt) : (Eff.apply s (.dn b)).frm = s.frm := rfl
@[simp] theorem dn_txp (s : State) (b : DnSt) : (Eff.apply s (.dn b)).txp = s.txp := rfl
@[simp] theorem dn_shu (s : State) (b : DnSt) : (Eff.apply s (.dn b)).shu = s.shu := rfl
@[simp] theorem dn_bob (s : State) (b : DnSt) : (Eff.apply s (.dn b)).bob = s.bob := rfl
@[simp] theorem dn_key (s : State) (b : DnSt) : (Eff.apply s (.dn b)).key = s.key := rfl
@[simp] theorem dn_sec (s : State) (b : DnSt) : (Eff.apply s (.dn b)).sec = s.sec := rfl
@[simp] theorem dn_cmd (s : State) (b : DnSt) : (Eff.apply s (.dn b)).cmd = s.cmd := rfl
@[simp] theorem dn_flc (s : State) (b : DnSt) : (Eff.apply s (.dn b)).flc = s.flc := rfl
@[simp] theorem dn_ecc (s : State) (b : DnSt) : (Eff.apply s (.dn b)).ecc = s.ecc := rfl
@[simp] theorem dn_dbg (s : State) (b : DnSt) : (Eff.apply s (.dn b)).dbg = s.dbg := rfl
@[simp] theorem dn_vif (s : State) (b : DnSt) : (Eff.apply s (.dn b)).vif = s.vif := rfl
@[simp] theorem dn_upd (s : State) (b : DnSt) : (Eff.apply s (.dn b)).upd = s.upd := rfl
@[simp] theorem dn_cas (s : State) (b : DnSt) : (Eff.apply s (.dn b)).cas = s.cas := rfl
@[simp] theorem dn_hif (s : State) (b : DnSt) : (Eff.apply s (.dn b)).hif = s.hif := rfl
@[simp] theorem dn_drawn (s : State) (b : DnSt) : (Eff.apply s (.dn b)).drawn = s.drawn := rfl
@[simp] theorem dn_pending (s : State) (b : DnSt) : (Eff.apply s (.dn b)).pending = s.pending := rfl
@[simp] theorem dn_dn (s : State) (b : DnSt) : (Eff.apply s (.dn b)).dn = b := rfl
@[simp] theorem dbg_regs (s : State) (b : DbgSt) : (Eff.apply s (.dbg b)).regs = s.regs := rfl
@[simp] theorem dbg_mem (s : State) (b : DbgSt) : (Eff.apply s (.dbg b)).mem = s.mem := rfl
@[simp] theorem dbg_pat (s : State) (b : DbgSt) : (Eff.apply s (.dbg b)).pat = s.pat := rfl
@[simp] theorem dbg_clk (s : State) (b : DbgSt) : (Eff.apply s (.dbg b)).clk = s.clk := rfl
@[simp] theorem dbg_flt (s : State) (b : DbgSt) : (Eff.apply s (.dbg b)).flt = s.flt := rfl
@[simp] theorem dbg_stm (s : State) (b : DbgSt) : (Eff.apply s (.dbg b)).stm = s.stm := rfl
@[simp] theorem dbg_pwr (s : State) (b : DbgSt) : (Eff.apply s (.dbg b)).pwr = s.pwr := rfl
@[simp] theorem dbg_recd (s : State) (b : DbgSt) : (Eff.apply s (.dbg b)).recd = s.recd := rfl
@[simp] theorem dbg_bus (s : State) (b : DbgSt) : (Eff.apply s (.dbg b)).bus = s.bus := rfl
@[simp] theorem dbg_thm (s : State) (b : DbgSt) : (Eff.apply s (.dbg b)).thm = s.thm := rfl
@[simp] theorem dbg_tim (s : State) (b : DbgSt) : (Eff.apply s (.dbg b)).tim = s.tim := rfl
@[simp] theorem dbg_i2c (s : State) (b : DbgSt) : (Eff.apply s (.dbg b)).i2c = s.i2c := rfl
@[simp] theorem dbg_mov (s : State) (b : DbgSt) : (Eff.apply s (.dbg b)).mov = s.mov := rfl
@[simp] theorem dbg_lmp (s : State) (b : DbgSt) : (Eff.apply s (.dbg b)).lmp = s.lmp := rfl
@[simp] theorem dbg_mtr (s : State) (b : DbgSt) : (Eff.apply s (.dbg b)).mtr = s.mtr := rfl
@[simp] theorem dbg_ref (s : State) (b : DbgSt) : (Eff.apply s (.dbg b)).ref = s.ref := rfl
@[simp] theorem dbg_gau (s : State) (b : DbgSt) : (Eff.apply s (.dbg b)).gau = s.gau := rfl
@[simp] theorem dbg_otp (s : State) (b : DbgSt) : (Eff.apply s (.dbg b)).otp = s.otp := rfl
@[simp] theorem dbg_dut (s : State) (b : DbgSt) : (Eff.apply s (.dbg b)).dut = s.dut := rfl
@[simp] theorem dbg_rfe (s : State) (b : DbgSt) : (Eff.apply s (.dbg b)).rfe = s.rfe := rfl
@[simp] theorem dbg_chz (s : State) (b : DbgSt) : (Eff.apply s (.dbg b)).chz = s.chz := rfl
@[simp] theorem dbg_dmd (s : State) (b : DbgSt) : (Eff.apply s (.dbg b)).dmd = s.dmd := rfl
@[simp] theorem dbg_frm (s : State) (b : DbgSt) : (Eff.apply s (.dbg b)).frm = s.frm := rfl
@[simp] theorem dbg_txp (s : State) (b : DbgSt) : (Eff.apply s (.dbg b)).txp = s.txp := rfl
@[simp] theorem dbg_shu (s : State) (b : DbgSt) : (Eff.apply s (.dbg b)).shu = s.shu := rfl
@[simp] theorem dbg_bob (s : State) (b : DbgSt) : (Eff.apply s (.dbg b)).bob = s.bob := rfl
@[simp] theorem dbg_key (s : State) (b : DbgSt) : (Eff.apply s (.dbg b)).key = s.key := rfl
@[simp] theorem dbg_sec (s : State) (b : DbgSt) : (Eff.apply s (.dbg b)).sec = s.sec := rfl
@[simp] theorem dbg_cmd (s : State) (b : DbgSt) : (Eff.apply s (.dbg b)).cmd = s.cmd := rfl
@[simp] theorem dbg_flc (s : State) (b : DbgSt) : (Eff.apply s (.dbg b)).flc = s.flc := rfl
@[simp] theorem dbg_ecc (s : State) (b : DbgSt) : (Eff.apply s (.dbg b)).ecc = s.ecc := rfl
@[simp] theorem dbg_dn (s : State) (b : DbgSt) : (Eff.apply s (.dbg b)).dn = s.dn := rfl
@[simp] theorem dbg_vif (s : State) (b : DbgSt) : (Eff.apply s (.dbg b)).vif = s.vif := rfl
@[simp] theorem dbg_upd (s : State) (b : DbgSt) : (Eff.apply s (.dbg b)).upd = s.upd := rfl
@[simp] theorem dbg_cas (s : State) (b : DbgSt) : (Eff.apply s (.dbg b)).cas = s.cas := rfl
@[simp] theorem dbg_hif (s : State) (b : DbgSt) : (Eff.apply s (.dbg b)).hif = s.hif := rfl
@[simp] theorem dbg_drawn (s : State) (b : DbgSt) : (Eff.apply s (.dbg b)).drawn = s.drawn := rfl
@[simp] theorem dbg_pending (s : State) (b : DbgSt) : (Eff.apply s (.dbg b)).pending = s.pending := rfl
@[simp] theorem dbg_dbg (s : State) (b : DbgSt) : (Eff.apply s (.dbg b)).dbg = b := rfl
@[simp] theorem vif_regs (s : State) (b : VifSt) : (Eff.apply s (.vif b)).regs = s.regs := rfl
@[simp] theorem vif_mem (s : State) (b : VifSt) : (Eff.apply s (.vif b)).mem = s.mem := rfl
@[simp] theorem vif_pat (s : State) (b : VifSt) : (Eff.apply s (.vif b)).pat = s.pat := rfl
@[simp] theorem vif_clk (s : State) (b : VifSt) : (Eff.apply s (.vif b)).clk = s.clk := rfl
@[simp] theorem vif_flt (s : State) (b : VifSt) : (Eff.apply s (.vif b)).flt = s.flt := rfl
@[simp] theorem vif_stm (s : State) (b : VifSt) : (Eff.apply s (.vif b)).stm = s.stm := rfl
@[simp] theorem vif_pwr (s : State) (b : VifSt) : (Eff.apply s (.vif b)).pwr = s.pwr := rfl
@[simp] theorem vif_recd (s : State) (b : VifSt) : (Eff.apply s (.vif b)).recd = s.recd := rfl
@[simp] theorem vif_bus (s : State) (b : VifSt) : (Eff.apply s (.vif b)).bus = s.bus := rfl
@[simp] theorem vif_thm (s : State) (b : VifSt) : (Eff.apply s (.vif b)).thm = s.thm := rfl
@[simp] theorem vif_tim (s : State) (b : VifSt) : (Eff.apply s (.vif b)).tim = s.tim := rfl
@[simp] theorem vif_i2c (s : State) (b : VifSt) : (Eff.apply s (.vif b)).i2c = s.i2c := rfl
@[simp] theorem vif_mov (s : State) (b : VifSt) : (Eff.apply s (.vif b)).mov = s.mov := rfl
@[simp] theorem vif_lmp (s : State) (b : VifSt) : (Eff.apply s (.vif b)).lmp = s.lmp := rfl
@[simp] theorem vif_mtr (s : State) (b : VifSt) : (Eff.apply s (.vif b)).mtr = s.mtr := rfl
@[simp] theorem vif_ref (s : State) (b : VifSt) : (Eff.apply s (.vif b)).ref = s.ref := rfl
@[simp] theorem vif_gau (s : State) (b : VifSt) : (Eff.apply s (.vif b)).gau = s.gau := rfl
@[simp] theorem vif_otp (s : State) (b : VifSt) : (Eff.apply s (.vif b)).otp = s.otp := rfl
@[simp] theorem vif_dut (s : State) (b : VifSt) : (Eff.apply s (.vif b)).dut = s.dut := rfl
@[simp] theorem vif_rfe (s : State) (b : VifSt) : (Eff.apply s (.vif b)).rfe = s.rfe := rfl
@[simp] theorem vif_chz (s : State) (b : VifSt) : (Eff.apply s (.vif b)).chz = s.chz := rfl
@[simp] theorem vif_dmd (s : State) (b : VifSt) : (Eff.apply s (.vif b)).dmd = s.dmd := rfl
@[simp] theorem vif_frm (s : State) (b : VifSt) : (Eff.apply s (.vif b)).frm = s.frm := rfl
@[simp] theorem vif_txp (s : State) (b : VifSt) : (Eff.apply s (.vif b)).txp = s.txp := rfl
@[simp] theorem vif_shu (s : State) (b : VifSt) : (Eff.apply s (.vif b)).shu = s.shu := rfl
@[simp] theorem vif_bob (s : State) (b : VifSt) : (Eff.apply s (.vif b)).bob = s.bob := rfl
@[simp] theorem vif_key (s : State) (b : VifSt) : (Eff.apply s (.vif b)).key = s.key := rfl
@[simp] theorem vif_sec (s : State) (b : VifSt) : (Eff.apply s (.vif b)).sec = s.sec := rfl
@[simp] theorem vif_cmd (s : State) (b : VifSt) : (Eff.apply s (.vif b)).cmd = s.cmd := rfl
@[simp] theorem vif_flc (s : State) (b : VifSt) : (Eff.apply s (.vif b)).flc = s.flc := rfl
@[simp] theorem vif_ecc (s : State) (b : VifSt) : (Eff.apply s (.vif b)).ecc = s.ecc := rfl
@[simp] theorem vif_dn (s : State) (b : VifSt) : (Eff.apply s (.vif b)).dn = s.dn := rfl
@[simp] theorem vif_dbg (s : State) (b : VifSt) : (Eff.apply s (.vif b)).dbg = s.dbg := rfl
@[simp] theorem vif_upd (s : State) (b : VifSt) : (Eff.apply s (.vif b)).upd = s.upd := rfl
@[simp] theorem vif_cas (s : State) (b : VifSt) : (Eff.apply s (.vif b)).cas = s.cas := rfl
@[simp] theorem vif_hif (s : State) (b : VifSt) : (Eff.apply s (.vif b)).hif = s.hif := rfl
@[simp] theorem vif_drawn (s : State) (b : VifSt) : (Eff.apply s (.vif b)).drawn = s.drawn := rfl
@[simp] theorem vif_pending (s : State) (b : VifSt) : (Eff.apply s (.vif b)).pending = s.pending := rfl
@[simp] theorem vif_vif (s : State) (b : VifSt) : (Eff.apply s (.vif b)).vif = b := rfl
@[simp] theorem upd_regs (s : State) (b : UpdSt) : (Eff.apply s (.upd b)).regs = s.regs := rfl
@[simp] theorem upd_mem (s : State) (b : UpdSt) : (Eff.apply s (.upd b)).mem = s.mem := rfl
@[simp] theorem upd_pat (s : State) (b : UpdSt) : (Eff.apply s (.upd b)).pat = s.pat := rfl
@[simp] theorem upd_clk (s : State) (b : UpdSt) : (Eff.apply s (.upd b)).clk = s.clk := rfl
@[simp] theorem upd_flt (s : State) (b : UpdSt) : (Eff.apply s (.upd b)).flt = s.flt := rfl
@[simp] theorem upd_stm (s : State) (b : UpdSt) : (Eff.apply s (.upd b)).stm = s.stm := rfl
@[simp] theorem upd_pwr (s : State) (b : UpdSt) : (Eff.apply s (.upd b)).pwr = s.pwr := rfl
@[simp] theorem upd_recd (s : State) (b : UpdSt) : (Eff.apply s (.upd b)).recd = s.recd := rfl
@[simp] theorem upd_bus (s : State) (b : UpdSt) : (Eff.apply s (.upd b)).bus = s.bus := rfl
@[simp] theorem upd_thm (s : State) (b : UpdSt) : (Eff.apply s (.upd b)).thm = s.thm := rfl
@[simp] theorem upd_tim (s : State) (b : UpdSt) : (Eff.apply s (.upd b)).tim = s.tim := rfl
@[simp] theorem upd_i2c (s : State) (b : UpdSt) : (Eff.apply s (.upd b)).i2c = s.i2c := rfl
@[simp] theorem upd_mov (s : State) (b : UpdSt) : (Eff.apply s (.upd b)).mov = s.mov := rfl
@[simp] theorem upd_lmp (s : State) (b : UpdSt) : (Eff.apply s (.upd b)).lmp = s.lmp := rfl
@[simp] theorem upd_mtr (s : State) (b : UpdSt) : (Eff.apply s (.upd b)).mtr = s.mtr := rfl
@[simp] theorem upd_ref (s : State) (b : UpdSt) : (Eff.apply s (.upd b)).ref = s.ref := rfl
@[simp] theorem upd_gau (s : State) (b : UpdSt) : (Eff.apply s (.upd b)).gau = s.gau := rfl
@[simp] theorem upd_otp (s : State) (b : UpdSt) : (Eff.apply s (.upd b)).otp = s.otp := rfl
@[simp] theorem upd_dut (s : State) (b : UpdSt) : (Eff.apply s (.upd b)).dut = s.dut := rfl
@[simp] theorem upd_rfe (s : State) (b : UpdSt) : (Eff.apply s (.upd b)).rfe = s.rfe := rfl
@[simp] theorem upd_chz (s : State) (b : UpdSt) : (Eff.apply s (.upd b)).chz = s.chz := rfl
@[simp] theorem upd_dmd (s : State) (b : UpdSt) : (Eff.apply s (.upd b)).dmd = s.dmd := rfl
@[simp] theorem upd_frm (s : State) (b : UpdSt) : (Eff.apply s (.upd b)).frm = s.frm := rfl
@[simp] theorem upd_txp (s : State) (b : UpdSt) : (Eff.apply s (.upd b)).txp = s.txp := rfl
@[simp] theorem upd_shu (s : State) (b : UpdSt) : (Eff.apply s (.upd b)).shu = s.shu := rfl
@[simp] theorem upd_bob (s : State) (b : UpdSt) : (Eff.apply s (.upd b)).bob = s.bob := rfl
@[simp] theorem upd_key (s : State) (b : UpdSt) : (Eff.apply s (.upd b)).key = s.key := rfl
@[simp] theorem upd_sec (s : State) (b : UpdSt) : (Eff.apply s (.upd b)).sec = s.sec := rfl
@[simp] theorem upd_cmd (s : State) (b : UpdSt) : (Eff.apply s (.upd b)).cmd = s.cmd := rfl
@[simp] theorem upd_flc (s : State) (b : UpdSt) : (Eff.apply s (.upd b)).flc = s.flc := rfl
@[simp] theorem upd_ecc (s : State) (b : UpdSt) : (Eff.apply s (.upd b)).ecc = s.ecc := rfl
@[simp] theorem upd_dn (s : State) (b : UpdSt) : (Eff.apply s (.upd b)).dn = s.dn := rfl
@[simp] theorem upd_dbg (s : State) (b : UpdSt) : (Eff.apply s (.upd b)).dbg = s.dbg := rfl
@[simp] theorem upd_vif (s : State) (b : UpdSt) : (Eff.apply s (.upd b)).vif = s.vif := rfl
@[simp] theorem upd_cas (s : State) (b : UpdSt) : (Eff.apply s (.upd b)).cas = s.cas := rfl
@[simp] theorem upd_hif (s : State) (b : UpdSt) : (Eff.apply s (.upd b)).hif = s.hif := rfl
@[simp] theorem upd_drawn (s : State) (b : UpdSt) : (Eff.apply s (.upd b)).drawn = s.drawn := rfl
@[simp] theorem upd_pending (s : State) (b : UpdSt) : (Eff.apply s (.upd b)).pending = s.pending := rfl
@[simp] theorem upd_upd (s : State) (b : UpdSt) : (Eff.apply s (.upd b)).upd = b := rfl
@[simp] theorem cas_regs (s : State) (b : CasSt) : (Eff.apply s (.cas b)).regs = s.regs := rfl
@[simp] theorem cas_mem (s : State) (b : CasSt) : (Eff.apply s (.cas b)).mem = s.mem := rfl
@[simp] theorem cas_pat (s : State) (b : CasSt) : (Eff.apply s (.cas b)).pat = s.pat := rfl
@[simp] theorem cas_clk (s : State) (b : CasSt) : (Eff.apply s (.cas b)).clk = s.clk := rfl
@[simp] theorem cas_flt (s : State) (b : CasSt) : (Eff.apply s (.cas b)).flt = s.flt := rfl
@[simp] theorem cas_stm (s : State) (b : CasSt) : (Eff.apply s (.cas b)).stm = s.stm := rfl
@[simp] theorem cas_pwr (s : State) (b : CasSt) : (Eff.apply s (.cas b)).pwr = s.pwr := rfl
@[simp] theorem cas_recd (s : State) (b : CasSt) : (Eff.apply s (.cas b)).recd = s.recd := rfl
@[simp] theorem cas_bus (s : State) (b : CasSt) : (Eff.apply s (.cas b)).bus = s.bus := rfl
@[simp] theorem cas_thm (s : State) (b : CasSt) : (Eff.apply s (.cas b)).thm = s.thm := rfl
@[simp] theorem cas_tim (s : State) (b : CasSt) : (Eff.apply s (.cas b)).tim = s.tim := rfl
@[simp] theorem cas_i2c (s : State) (b : CasSt) : (Eff.apply s (.cas b)).i2c = s.i2c := rfl
@[simp] theorem cas_mov (s : State) (b : CasSt) : (Eff.apply s (.cas b)).mov = s.mov := rfl
@[simp] theorem cas_lmp (s : State) (b : CasSt) : (Eff.apply s (.cas b)).lmp = s.lmp := rfl
@[simp] theorem cas_mtr (s : State) (b : CasSt) : (Eff.apply s (.cas b)).mtr = s.mtr := rfl
@[simp] theorem cas_ref (s : State) (b : CasSt) : (Eff.apply s (.cas b)).ref = s.ref := rfl
@[simp] theorem cas_gau (s : State) (b : CasSt) : (Eff.apply s (.cas b)).gau = s.gau := rfl
@[simp] theorem cas_otp (s : State) (b : CasSt) : (Eff.apply s (.cas b)).otp = s.otp := rfl
@[simp] theorem cas_dut (s : State) (b : CasSt) : (Eff.apply s (.cas b)).dut = s.dut := rfl
@[simp] theorem cas_rfe (s : State) (b : CasSt) : (Eff.apply s (.cas b)).rfe = s.rfe := rfl
@[simp] theorem cas_chz (s : State) (b : CasSt) : (Eff.apply s (.cas b)).chz = s.chz := rfl
@[simp] theorem cas_dmd (s : State) (b : CasSt) : (Eff.apply s (.cas b)).dmd = s.dmd := rfl
@[simp] theorem cas_frm (s : State) (b : CasSt) : (Eff.apply s (.cas b)).frm = s.frm := rfl
@[simp] theorem cas_txp (s : State) (b : CasSt) : (Eff.apply s (.cas b)).txp = s.txp := rfl
@[simp] theorem cas_shu (s : State) (b : CasSt) : (Eff.apply s (.cas b)).shu = s.shu := rfl
@[simp] theorem cas_bob (s : State) (b : CasSt) : (Eff.apply s (.cas b)).bob = s.bob := rfl
@[simp] theorem cas_key (s : State) (b : CasSt) : (Eff.apply s (.cas b)).key = s.key := rfl
@[simp] theorem cas_sec (s : State) (b : CasSt) : (Eff.apply s (.cas b)).sec = s.sec := rfl
@[simp] theorem cas_cmd (s : State) (b : CasSt) : (Eff.apply s (.cas b)).cmd = s.cmd := rfl
@[simp] theorem cas_flc (s : State) (b : CasSt) : (Eff.apply s (.cas b)).flc = s.flc := rfl
@[simp] theorem cas_ecc (s : State) (b : CasSt) : (Eff.apply s (.cas b)).ecc = s.ecc := rfl
@[simp] theorem cas_dn (s : State) (b : CasSt) : (Eff.apply s (.cas b)).dn = s.dn := rfl
@[simp] theorem cas_dbg (s : State) (b : CasSt) : (Eff.apply s (.cas b)).dbg = s.dbg := rfl
@[simp] theorem cas_vif (s : State) (b : CasSt) : (Eff.apply s (.cas b)).vif = s.vif := rfl
@[simp] theorem cas_upd (s : State) (b : CasSt) : (Eff.apply s (.cas b)).upd = s.upd := rfl
@[simp] theorem cas_hif (s : State) (b : CasSt) : (Eff.apply s (.cas b)).hif = s.hif := rfl
@[simp] theorem cas_drawn (s : State) (b : CasSt) : (Eff.apply s (.cas b)).drawn = s.drawn := rfl
@[simp] theorem cas_pending (s : State) (b : CasSt) : (Eff.apply s (.cas b)).pending = s.pending := rfl
@[simp] theorem cas_cas (s : State) (b : CasSt) : (Eff.apply s (.cas b)).cas = b := rfl
@[simp] theorem hif_regs (s : State) (b : HifSt) : (Eff.apply s (.hif b)).regs = s.regs := rfl
@[simp] theorem hif_mem (s : State) (b : HifSt) : (Eff.apply s (.hif b)).mem = s.mem := rfl
@[simp] theorem hif_pat (s : State) (b : HifSt) : (Eff.apply s (.hif b)).pat = s.pat := rfl
@[simp] theorem hif_clk (s : State) (b : HifSt) : (Eff.apply s (.hif b)).clk = s.clk := rfl
@[simp] theorem hif_flt (s : State) (b : HifSt) : (Eff.apply s (.hif b)).flt = s.flt := rfl
@[simp] theorem hif_stm (s : State) (b : HifSt) : (Eff.apply s (.hif b)).stm = s.stm := rfl
@[simp] theorem hif_pwr (s : State) (b : HifSt) : (Eff.apply s (.hif b)).pwr = s.pwr := rfl
@[simp] theorem hif_recd (s : State) (b : HifSt) : (Eff.apply s (.hif b)).recd = s.recd := rfl
@[simp] theorem hif_bus (s : State) (b : HifSt) : (Eff.apply s (.hif b)).bus = s.bus := rfl
@[simp] theorem hif_thm (s : State) (b : HifSt) : (Eff.apply s (.hif b)).thm = s.thm := rfl
@[simp] theorem hif_tim (s : State) (b : HifSt) : (Eff.apply s (.hif b)).tim = s.tim := rfl
@[simp] theorem hif_i2c (s : State) (b : HifSt) : (Eff.apply s (.hif b)).i2c = s.i2c := rfl
@[simp] theorem hif_mov (s : State) (b : HifSt) : (Eff.apply s (.hif b)).mov = s.mov := rfl
@[simp] theorem hif_lmp (s : State) (b : HifSt) : (Eff.apply s (.hif b)).lmp = s.lmp := rfl
@[simp] theorem hif_mtr (s : State) (b : HifSt) : (Eff.apply s (.hif b)).mtr = s.mtr := rfl
@[simp] theorem hif_ref (s : State) (b : HifSt) : (Eff.apply s (.hif b)).ref = s.ref := rfl
@[simp] theorem hif_gau (s : State) (b : HifSt) : (Eff.apply s (.hif b)).gau = s.gau := rfl
@[simp] theorem hif_otp (s : State) (b : HifSt) : (Eff.apply s (.hif b)).otp = s.otp := rfl
@[simp] theorem hif_dut (s : State) (b : HifSt) : (Eff.apply s (.hif b)).dut = s.dut := rfl
@[simp] theorem hif_rfe (s : State) (b : HifSt) : (Eff.apply s (.hif b)).rfe = s.rfe := rfl
@[simp] theorem hif_chz (s : State) (b : HifSt) : (Eff.apply s (.hif b)).chz = s.chz := rfl
@[simp] theorem hif_dmd (s : State) (b : HifSt) : (Eff.apply s (.hif b)).dmd = s.dmd := rfl
@[simp] theorem hif_frm (s : State) (b : HifSt) : (Eff.apply s (.hif b)).frm = s.frm := rfl
@[simp] theorem hif_txp (s : State) (b : HifSt) : (Eff.apply s (.hif b)).txp = s.txp := rfl
@[simp] theorem hif_shu (s : State) (b : HifSt) : (Eff.apply s (.hif b)).shu = s.shu := rfl
@[simp] theorem hif_bob (s : State) (b : HifSt) : (Eff.apply s (.hif b)).bob = s.bob := rfl
@[simp] theorem hif_key (s : State) (b : HifSt) : (Eff.apply s (.hif b)).key = s.key := rfl
@[simp] theorem hif_sec (s : State) (b : HifSt) : (Eff.apply s (.hif b)).sec = s.sec := rfl
@[simp] theorem hif_cmd (s : State) (b : HifSt) : (Eff.apply s (.hif b)).cmd = s.cmd := rfl
@[simp] theorem hif_flc (s : State) (b : HifSt) : (Eff.apply s (.hif b)).flc = s.flc := rfl
@[simp] theorem hif_ecc (s : State) (b : HifSt) : (Eff.apply s (.hif b)).ecc = s.ecc := rfl
@[simp] theorem hif_dn (s : State) (b : HifSt) : (Eff.apply s (.hif b)).dn = s.dn := rfl
@[simp] theorem hif_dbg (s : State) (b : HifSt) : (Eff.apply s (.hif b)).dbg = s.dbg := rfl
@[simp] theorem hif_vif (s : State) (b : HifSt) : (Eff.apply s (.hif b)).vif = s.vif := rfl
@[simp] theorem hif_upd (s : State) (b : HifSt) : (Eff.apply s (.hif b)).upd = s.upd := rfl
@[simp] theorem hif_cas (s : State) (b : HifSt) : (Eff.apply s (.hif b)).cas = s.cas := rfl
@[simp] theorem hif_drawn (s : State) (b : HifSt) : (Eff.apply s (.hif b)).drawn = s.drawn := rfl
@[simp] theorem hif_pending (s : State) (b : HifSt) : (Eff.apply s (.hif b)).pending = s.pending := rfl
@[simp] theorem hif_hif (s : State) (b : HifSt) : (Eff.apply s (.hif b)).hif = b := rfl

end Sys2Proof.Laws
end

