-- ==== Sys2Proof/Laws/Effects.lean ====
section
/-! SUPPORT. What effects, actions and register fields do, said once: the combinators' runs, a field after a write, the
fields and the memory an action leaves alone, the canonical form. -/

namespace Sys2Proof.Laws

open Sys2Proof.Machine

/-! Runs of the combinators. -/

theorem applyAll_append (s : State) (a b : List Eff) : applyAll s (a ++ b) = applyAll (applyAll s a) b := by
  simp [applyAll]

@[simp] theorem applyAll_nil (s : State) : applyAll s [] = s := rfl

@[simp] theorem applyAll_cons (s : State) (e : Eff) (l : List Eff) : applyAll s (e :: l) = applyAll (e.apply s) l := rfl

@[simp] theorem run_skip (s : State) : Act.run skip s = s := rfl

@[simp] theorem run_chain_nil (s : State) : Act.run (chain []) s = s := rfl

@[simp] theorem run_chain_cons (a : Act) (l : List Act) (s : State) :
    Act.run (chain (a :: l)) s = Act.run (chain l) (Act.run a s) := by
  simp [Act.run, chain, applyAll_append]

@[simp] theorem run_look (g : State → Act) (s : State) : Act.run (look g) s = Act.run (g s) s := rfl

@[simp] theorem run_whenA (c : Bool) (a : Act) (s : State) :
    Act.run (whenA c a) s = if c then Act.run a s else s := by
  cases c <;> rfl

@[simp] theorem run_eachA_nil {α : Type} (f : α → Act) (s : State) : Act.run (eachA [] f) s = s := rfl

@[simp] theorem run_eachA_cons {α : Type} (x : α) (l : List α) (f : α → Act) (s : State) :
    Act.run (eachA (x :: l) f) s = Act.run (eachA l f) (Act.run (f x) s) := by
  simp [eachA]

@[simp] theorem run_ite (c : Prop) [Decidable c] (a b : Act) (s : State) :
    Act.run (if c then a else b) s = if c then Act.run a s else Act.run b s := by
  split <;> rfl

@[simp] theorem run_put (f : Fld) (v : Nat) (s : State) : Act.run (put f v) s = Eff.apply s (.put f v) := rfl

theorem run_draw (k : Nat → Act) (s : State) :
    Act.run (draw k) s = Act.run (k s.free) (Eff.apply s .drawn) := rfl

/-- A command made of an action answers the action's state. -/
theorem act_next (a : Act) (s : State) : act a s = .next (Act.run a s) := rfl

/-! Bits of a word. -/

theorem testBit_setField (w : Word) (lo width v j : Nat) (h : lo + width ≤ 32) :
    (setField w lo width v).toNat.testBit j =
      if lo ≤ j ∧ j < lo + width then v.testBit (j - lo) else w.toNat.testBit j := by
  have hw : w.toNat < 2 ^ 32 := w.isLt
  have hb : (v % 2 ^ width) * 2 ^ lo + w.toNat % 2 ^ lo < 2 ^ (lo + width) := by
    have h1 : v % 2 ^ width < 2 ^ width := Nat.mod_lt _ (Nat.two_pow_pos _)
    have h2 : w.toNat % 2 ^ lo < 2 ^ lo := Nat.mod_lt _ (Nat.two_pow_pos _)
    calc (v % 2 ^ width) * 2 ^ lo + w.toNat % 2 ^ lo < (v % 2 ^ width) * 2 ^ lo + 2 ^ lo := by omega
      _ = (v % 2 ^ width + 1) * 2 ^ lo := by ring
      _ ≤ 2 ^ width * 2 ^ lo := Nat.mul_le_mul_right _ (by omega)
      _ = 2 ^ (lo + width) := by rw [pow_add]; ring
  have hs : setField w lo width v =
      BitVec.ofNat 32 (2 ^ (lo + width) * (w.toNat / 2 ^ (lo + width)) + (2 ^ lo * (v % 2 ^ width) + w.toNat % 2 ^ lo)) := by
    unfold setField; congr 1; ring
  have hb' : 2 ^ lo * (v % 2 ^ width) + w.toNat % 2 ^ lo < 2 ^ (lo + width) := by rw [Nat.mul_comm (2 ^ lo)]; exact hb
  rw [hs, BitVec.toNat_ofNat, Nat.testBit_mod_two_pow, Nat.testBit_two_pow_mul_add _ hb',
    Nat.testBit_two_pow_mul_add _ (Nat.mod_lt _ (Nat.two_pow_pos _)), Nat.testBit_mod_two_pow, Nat.testBit_mod_two_pow,
    Nat.testBit_div_two_pow]
  by_cases hj : j < 32
  · by_cases h1 : j < lo
    · simp [hj, h1, show j < lo + width by omega, show ¬ lo ≤ j by omega]
    · by_cases h2 : j < lo + width
      · simp [hj, h1, h2, show lo ≤ j by omega, show j - lo < width by omega]
      · simp [hj, h2, Nat.sub_add_cancel (show lo + width ≤ j by omega)]
  · have hz : w.toNat.testBit j = false := Nat.testBit_lt_two_pow (lt_of_lt_of_le hw (Nat.pow_le_pow_right (by omega) (by omega)))
    simp [hj, show ¬ (j < lo + width) by omega, hz]

theorem testBit_fieldOf (w : Word) (lo width j : Nat) :
    (fieldOf w lo width).testBit j = (decide (j < width) && w.toNat.testBit (lo + j)) := by
  simp [fieldOf, Nat.testBit_mod_two_pow, Nat.testBit_div_two_pow, Nat.add_comm]

/-- The field that was written holds the value, cut to its width. -/
theorem fieldOf_setField_same (w : Word) (lo width v : Nat) (h : lo + width ≤ 32) :
    fieldOf (setField w lo width v) lo width = v % 2 ^ width := by
  apply Nat.eq_of_testBit_eq
  intro j
  rw [testBit_fieldOf, testBit_setField _ _ _ _ _ h, Nat.testBit_mod_two_pow]
  by_cases hj : j < width <;> simp [hj]

/-- A field that shares no bit with the written one keeps its value. -/
theorem fieldOf_setField_ne (w : Word) (lo width v lo' width' : Nat) (h : lo + width ≤ 32)
    (hd : lo' + width' ≤ lo ∨ lo + width ≤ lo') :
    fieldOf (setField w lo width v) lo' width' = fieldOf w lo' width' := by
  apply Nat.eq_of_testBit_eq
  intro j
  rw [testBit_fieldOf, testBit_fieldOf, testBit_setField _ _ _ _ _ h]
  by_cases hj : j < width'
  · simp [hj, show ¬ (lo ≤ lo' + j ∧ lo' + j < lo + width) by omega]
  · simp [hj]

/-! Registers after one effect. -/

@[simp] theorem put_reg_same (s : State) (f : Fld) (v : Nat) :
    (Eff.apply s (.put f v)).reg f.key = setField (s.reg f.key) f.lo f.width v := by
  simp [Eff.apply, State.reg]

theorem put_reg_ne (s : State) (f : Fld) (v k : Nat) (h : k ≠ f.key) : (Eff.apply s (.put f v)).reg k = s.reg k := by
  simp [Eff.apply, State.reg, sparse_get_set_ne _ _ _ _ h]

/-- Whether two places share no bit. -/
def apart (f g : Fld) : Bool := f.key != g.key || (f.lo + f.width ≤ g.lo) || (g.lo + g.width ≤ f.lo)

/-- A field of a register reads as written. -/
theorem put_get_same (s : State) (f : Fld) (v : Nat) (h : f.lo + f.width ≤ 32) :
    (Eff.apply s (.put f v)).get f = v % 2 ^ f.width := by
  simp [State.get, fieldOf_setField_same _ _ _ _ h]

/-- A write of a field leaves a field apart from it alone. -/
theorem put_get_apart (s : State) (f g : Fld) (v : Nat) (h : f.lo + f.width ≤ 32) (hd : apart f g = true) :
    (Eff.apply s (.put f v)).get g = s.get g := by
  by_cases hk : g.key = f.key
  · have : g.lo + g.width ≤ f.lo ∨ f.lo + f.width ≤ g.lo := by
      simp [apart, hk] at hd; omega
    simp [State.get, hk, fieldOf_setField_ne _ _ _ _ _ _ h this]
  · simp [State.get, put_reg_ne _ _ _ _ hk]

/-! Moved fields. -/

theorem movedKey_eq (k d : Nat) : movedKey k d = k + d := by unfold movedKey; rfl

@[simp] theorem i_lo (f : Fld) (n : Nat) : (f.i n).lo = f.lo := rfl
@[simp] theorem i_width (f : Fld) (n : Nat) : (f.i n).width = f.width := rfl
@[simp] theorem i_key (f : Fld) (n : Nat) : (f.i n).key = f.key + f.stride * n := movedKey_eq _ _
@[simp] theorem copy_lo (f : Fld) (c : Nat) : (f.copy c).lo = f.lo := rfl
@[simp] theorem copy_width (f : Fld) (c : Nat) : (f.copy c).width = f.width := rfl
@[simp] theorem copy_key (f : Fld) (c : Nat) : (f.copy c).key = f.key + 0x100000000 * c := movedKey_eq _ _
@[simp] theorem ten_lo (f : Fld) (v : Nat) : (ten f v).lo = f.lo := rfl
@[simp] theorem ten_width (f : Fld) (v : Nat) : (ten f v).width = f.width := rfl
@[simp] theorem ten_key (f : Fld) (v : Nat) : (ten f v).key = f.key + 0x20 * v := movedKey_eq _ _

/-! What an action leaves alone. -/

/-- An action that never changes a register field. -/
def Keeps (a : Act) (g : Fld) : Prop := ∀ s, (Act.run a s).get g = s.get g

theorem keeps_skip (g : Fld) : Keeps skip g := fun _ => rfl

theorem keeps_put {f g : Fld} (v : Nat) (h : f.lo + f.width ≤ 32) (hd : apart f g = true) : Keeps (put f v) g :=
  fun s => put_get_apart s f g v h hd

theorem keeps_chain {l : List Act} {g : Fld} (h : ∀ a ∈ l, Keeps a g) : Keeps (chain l) g := by
  induction l with
  | nil => exact fun _ => rfl
  | cons a l ih =>
    intro s
    rw [run_chain_cons, ih (fun b hb => h b (by simp [hb])), h a (by simp)]

theorem keeps_nil (g : Fld) : Keeps (chain []) g := fun _ => rfl

theorem keeps_cons {a : Act} {l : List Act} {g : Fld} (ha : Keeps a g) (hl : Keeps (chain l) g) :
    Keeps (chain (a :: l)) g := fun s => by rw [run_chain_cons, hl, ha]

theorem keeps_look {k : State → Act} {g : Fld} (h : ∀ s, Keeps (k s) g) : Keeps (look k) g := fun s => h s s

theorem keeps_whenA {c : Bool} {a : Act} {g : Fld} (h : Keeps a g) : Keeps (whenA c a) g := by
  cases c
  · exact keeps_skip g
  · exact h

theorem keeps_ite {c : Prop} [Decidable c] {a b : Act} {g : Fld} (ha : Keeps a g) (hb : Keeps b g) :
    Keeps (if c then a else b) g := by
  split <;> assumption

theorem keeps_eachA {α : Type} {l : List α} {f : α → Act} {g : Fld} (h : ∀ x, Keeps (f x) g) : Keeps (eachA l f) g :=
  keeps_chain (by simpa using fun x _ => h x)

/-- An action whose effects are all on the state of blocks leaves every register alone. -/
def regFree : Eff → Bool
  | .put _ _ | .resetKeys _ _ | .resetPages _ _ => false
  | _ => true

theorem apply_regs (s : State) (e : Eff) (h : regFree e = true) : (e.apply s).regs = s.regs := by
  cases e <;> first | rfl | simp [regFree] at h

theorem applyAll_regs (s : State) (l : List Eff) (h : l.all regFree = true) : (applyAll s l).regs = s.regs := by
  induction l generalizing s with
  | nil => rfl
  | cons e l ih =>
    simp only [List.all_cons, Bool.and_eq_true] at h
    rw [applyAll_cons, ih _ h.2, apply_regs _ _ h.1]

theorem keeps_of_regFree {a : Act} (g : Fld) (h : ∀ s, (a s).all regFree = true) : Keeps a g := fun s => by
  simp only [State.get, State.reg, Act.run, applyAll_regs _ _ (h s)]

/-! Memory after one effect. -/

@[simp] theorem byte_mem_same (s : State) (a : Nat) (b : Byte) : (Eff.apply s (.byte a b)).byte a = b.toNat := by
  simp [Eff.apply, State.byte]

theorem byte_mem_ne (s : State) (a j : Nat) (b : Byte) (h : j ≠ a) : (Eff.apply s (.byte a b)).byte j = s.byte j := by
  simp [Eff.apply, State.byte, sparse_get_set_ne _ _ _ _ h]

theorem wipe_mem (s : State) (lo hi j : Nat) :
    (Eff.apply s (.wipe lo hi)).byte j = if lo ≤ j ∧ j < hi then (resetByte j).toNat else s.byte j := by
  simp only [Eff.apply, State.byte, sparse_get_clear]
  split <;> rfl

/-- An effect that stores no byte. -/
def memFree : Eff → Bool
  | .byte _ _ | .wipe _ _ => false
  | _ => true

theorem apply_mem (s : State) (e : Eff) (h : memFree e = true) : (e.apply s).mem = s.mem := by
  cases e <;> first | rfl | simp [memFree] at h

theorem applyAll_mem (s : State) (l : List Eff) (h : l.all memFree = true) : (applyAll s l).mem = s.mem := by
  induction l generalizing s with
  | nil => rfl
  | cons e l ih =>
    simp only [List.all_cons, Bool.and_eq_true] at h
    rw [applyAll_cons, ih _ h.2, apply_mem _ _ h.1]

/-! The queue and the canonical form. -/

@[simp] theorem apply_pending (s : State) (e : Eff) : (e.apply s).pending = s.pending := by cases e <;> rfl

/-- No action touches the queue of waiting commands. -/
@[simp] theorem run_pending (a : Act) (s : State) : (Act.run a s).pending = s.pending := by
  have h : ∀ (l : List Eff) (s : State), (applyAll s l).pending = s.pending := by
    intro l
    induction l with
    | nil => exact fun _ => rfl
    | cons e l ih => exact fun s => by rw [applyAll_cons, ih, apply_pending]
  exact h _ _

/-- Every effect keeps the canonical form of memory, of the register file and of the Pattern RAM. -/
theorem apply_wf (s : State) (e : Eff) (h : s.wf = true) : (e.apply s).wf = true := by
  simp only [State.wf, Memory.wf, Bool.and_eq_true] at h ⊢
  obtain ⟨⟨hm, hr⟩, hp⟩ := h
  cases e
  case put f v => exact ⟨⟨hm, sparse_wf_set _ _ _ hr⟩, hp⟩
  case byte a b => exact ⟨⟨sparse_wf_set _ _ _ hm, hr⟩, hp⟩
  case wipe lo hi => exact ⟨⟨sparse_wf_clear _ _ _ hm, hr⟩, hp⟩
  case pat i w => exact ⟨⟨hm, hr⟩, sparse_wf_set _ _ _ hp⟩
  case resetKeys lo hi => exact ⟨⟨hm, sparse_wf_clear _ _ _ hr⟩, hp⟩
  case resetPages lo hi => exact ⟨⟨hm, sparse_wf_drop s.regs (fun k => lo ≤ keyAddr k && keyAddr k < hi) hr⟩, hp⟩
  case wipePat => exact ⟨⟨hm, hr⟩, rfl⟩
  all_goals exact ⟨⟨hm, hr⟩, hp⟩

/-- Every action keeps the canonical form. -/
theorem run_wf (a : Act) (s : State) (h : s.wf = true) : (Act.run a s).wf = true := by
  have g : ∀ (l : List Eff) (s : State), s.wf = true → (applyAll s l).wf = true := by
    intro l
    induction l with
    | nil => exact fun _ h => h
    | cons e l ih => exact fun s h => by rw [applyAll_cons]; exact ih _ (apply_wf s e h)
  exact g _ _ h

end Sys2Proof.Laws
end

