-- ==== Sys2Proof/Laws/Blocks.lean ====
section
/-! SUPPORT. Actions on one block: what they run to, and that no register changes by them. -/

namespace Sys2Proof.Laws

open Sys2Proof.Machine

@[simp] theorem run_onClk (f : ClkSt → ClkSt) (s : State) :
    Act.run (onClk f) s = Eff.apply s (.clk (f s.clk)) := rfl
theorem keeps_onClk (f : ClkSt → ClkSt) (g : Fld) : Keeps (onClk f) g := fun _ => rfl
@[simp] theorem clk_get (s : State) (b : ClkSt) (g : Fld) : (Eff.apply s (.clk b)).get g = s.get g := rfl
@[simp] theorem clk_is (s : State) (b : ClkSt) (g : Fld) : (Eff.apply s (.clk b)).is g = s.is g := rfl
@[simp] theorem clk_tb (s : State) (b : ClkSt) : (Eff.apply s (.clk b)).tb = b.tb := rfl

@[simp] theorem run_onFlt (f : FltSt → FltSt) (s : State) :
    Act.run (onFlt f) s = Eff.apply s (.flt (f s.flt)) := rfl
theorem keeps_onFlt (f : FltSt → FltSt) (g : Fld) : Keeps (onFlt f) g := fun _ => rfl
@[simp] theorem flt_get (s : State) (b : FltSt) (g : Fld) : (Eff.apply s (.flt b)).get g = s.get g := rfl
@[simp] theorem flt_is (s : State) (b : FltSt) (g : Fld) : (Eff.apply s (.flt b)).is g = s.is g := rfl
@[simp] theorem flt_tb (s : State) (b : FltSt) : (Eff.apply s (.flt b)).tb = s.tb := rfl

@[simp] theorem run_onStm (f : StmSt → StmSt) (s : State) :
    Act.run (onStm f) s = Eff.apply s (.stm (f s.stm)) := rfl
theorem keeps_onStm (f : StmSt → StmSt) (g : Fld) : Keeps (onStm f) g := fun _ => rfl
@[simp] theorem stm_get (s : State) (b : StmSt) (g : Fld) : (Eff.apply s (.stm b)).get g = s.get g := rfl
@[simp] theorem stm_is (s : State) (b : StmSt) (g : Fld) : (Eff.apply s (.stm b)).is g = s.is g := rfl
@[simp] theorem stm_tb (s : State) (b : StmSt) : (Eff.apply s (.stm b)).tb = s.tb := rfl

@[simp] theorem run_onPwr (f : PwrSt → PwrSt) (s : State) :
    Act.run (onPwr f) s = Eff.apply s (.pwr (f s.pwr)) := rfl
theorem keeps_onPwr (f : PwrSt → PwrSt) (g : Fld) : Keeps (onPwr f) g := fun _ => rfl
@[simp] theorem pwr_get (s : State) (b : PwrSt) (g : Fld) : (Eff.apply s (.pwr b)).get g = s.get g := rfl
@[simp] theorem pwr_is (s : State) (b : PwrSt) (g : Fld) : (Eff.apply s (.pwr b)).is g = s.is g := rfl
@[simp] theorem pwr_tb (s : State) (b : PwrSt) : (Eff.apply s (.pwr b)).tb = s.tb := rfl

@[simp] theorem run_onRecd (f : RecSt → RecSt) (s : State) :
    Act.run (onRecd f) s = Eff.apply s (.recd (f s.recd)) := rfl
theorem keeps_onRecd (f : RecSt → RecSt) (g : Fld) : Keeps (onRecd f) g := fun _ => rfl
@[simp] theorem recd_get (s : State) (b : RecSt) (g : Fld) : (Eff.apply s (.recd b)).get g = s.get g := rfl
@[simp] theorem recd_is (s : State) (b : RecSt) (g : Fld) : (Eff.apply s (.recd b)).is g = s.is g := rfl
@[simp] theorem recd_tb (s : State) (b : RecSt) : (Eff.apply s (.recd b)).tb = s.tb := rfl

@[simp] theorem run_onBus (f : BusSt → BusSt) (s : State) :
    Act.run (onBus f) s = Eff.apply s (.bus (f s.bus)) := rfl
theorem keeps_onBus (f : BusSt → BusSt) (g : Fld) : Keeps (onBus f) g := fun _ => rfl
@[simp] theorem bus_get (s : State) (b : BusSt) (g : Fld) : (Eff.apply s (.bus b)).get g = s.get g := rfl
@[simp] theorem bus_is (s : State) (b : BusSt) (g : Fld) : (Eff.apply s (.bus b)).is g = s.is g := rfl
@[simp] theorem bus_tb (s : State) (b : BusSt) : (Eff.apply s (.bus b)).tb = s.tb := rfl

@[simp] theorem run_onThm (f : ThmSt → ThmSt) (s : State) :
    Act.run (onThm f) s = Eff.apply s (.thm (f s.thm)) := rfl
theorem keeps_onThm (f : ThmSt → ThmSt) (g : Fld) : Keeps (onThm f) g := fun _ => rfl
@[simp] theorem thm_get (s : State) (b : ThmSt) (g : Fld) : (Eff.apply s (.thm b)).get g = s.get g := rfl
@[simp] theorem thm_is (s : State) (b : ThmSt) (g : Fld) : (Eff.apply s (.thm b)).is g = s.is g := rfl
@[simp] theorem thm_tb (s : State) (b : ThmSt) : (Eff.apply s (.thm b)).tb = s.tb := rfl

@[simp] theorem run_onTim (f : TimSt → TimSt) (s : State) :
    Act.run (onTim f) s = Eff.apply s (.tim (f s.tim)) := rfl
theorem keeps_onTim (f : TimSt → TimSt) (g : Fld) : Keeps (onTim f) g := fun _ => rfl
@[simp] theorem tim_get (s : State) (b : TimSt) (g : Fld) : (Eff.apply s (.tim b)).get g = s.get g := rfl
@[simp] theorem tim_is (s : State) (b : TimSt) (g : Fld) : (Eff.apply s (.tim b)).is g = s.is g := rfl
@[simp] theorem tim_tb (s : State) (b : TimSt) : (Eff.apply s (.tim b)).tb = s.tb := rfl

@[simp] theorem run_onI2c (f : I2cSt → I2cSt) (s : State) :
    Act.run (onI2c f) s = Eff.apply s (.i2c (f s.i2c)) := rfl
theorem keeps_onI2c (f : I2cSt → I2cSt) (g : Fld) : Keeps (onI2c f) g := fun _ => rfl
@[simp] theorem i2c_get (s : State) (b : I2cSt) (g : Fld) : (Eff.apply s (.i2c b)).get g = s.get g := rfl
@[simp] theorem i2c_is (s : State) (b : I2cSt) (g : Fld) : (Eff.apply s (.i2c b)).is g = s.is g := rfl
@[simp] theorem i2c_tb (s : State) (b : I2cSt) : (Eff.apply s (.i2c b)).tb = s.tb := rfl

@[simp] theorem run_onMov (f : MovSt → MovSt) (s : State) :
    Act.run (onMov f) s = Eff.apply s (.mov (f s.mov)) := rfl
theorem keeps_onMov (f : MovSt → MovSt) (g : Fld) : Keeps (onMov f) g := fun _ => rfl
@[simp] theorem mov_get (s : State) (b : MovSt) (g : Fld) : (Eff.apply s (.mov b)).get g = s.get g := rfl
@[simp] theorem mov_is (s : State) (b : MovSt) (g : Fld) : (Eff.apply s (.mov b)).is g = s.is g := rfl
@[simp] theorem mov_tb (s : State) (b : MovSt) : (Eff.apply s (.mov b)).tb = s.tb := rfl

@[simp] theorem run_onLmp (f : LmpSt → LmpSt) (s : State) :
    Act.run (onLmp f) s = Eff.apply s (.lmp (f s.lmp)) := rfl
theorem keeps_onLmp (f : LmpSt → LmpSt) (g : Fld) : Keeps (onLmp f) g := fun _ => rfl
@[simp] theorem lmp_get (s : State) (b : LmpSt) (g : Fld) : (Eff.apply s (.lmp b)).get g = s.get g := rfl
@[simp] theorem lmp_is (s : State) (b : LmpSt) (g : Fld) : (Eff.apply s (.lmp b)).is g = s.is g := rfl
@[simp] theorem lmp_tb (s : State) (b : LmpSt) : (Eff.apply s (.lmp b)).tb = s.tb := rfl

@[simp] theorem run_onMtr (f : MtrSt → MtrSt) (s : State) :
    Act.run (onMtr f) s = Eff.apply s (.mtr (f s.mtr)) := rfl
theorem keeps_onMtr (f : MtrSt → MtrSt) (g : Fld) : Keeps (onMtr f) g := fun _ => rfl
@[simp] theorem mtr_get (s : State) (b : MtrSt) (g : Fld) : (Eff.apply s (.mtr b)).get g = s.get g := rfl
@[simp] theorem mtr_is (s : State) (b : MtrSt) (g : Fld) : (Eff.apply s (.mtr b)).is g = s.is g := rfl
@[simp] theorem mtr_tb (s : State) (b : MtrSt) : (Eff.apply s (.mtr b)).tb = s.tb := rfl

@[simp] theorem run_onRef (f : RefSt → RefSt) (s : State) :
    Act.run (onRef f) s = Eff.apply s (.ref (f s.ref)) := rfl
theorem keeps_onRef (f : RefSt → RefSt) (g : Fld) : Keeps (onRef f) g := fun _ => rfl
@[simp] theorem ref_get (s : State) (b : RefSt) (g : Fld) : (Eff.apply s (.ref b)).get g = s.get g := rfl
@[simp] theorem ref_is (s : State) (b : RefSt) (g : Fld) : (Eff.apply s (.ref b)).is g = s.is g := rfl
@[simp] theorem ref_tb (s : State) (b : RefSt) : (Eff.apply s (.ref b)).tb = s.tb := rfl

@[simp] theorem run_onGau (f : GauSt → GauSt) (s : State) :
    Act.run (onGau f) s = Eff.apply s (.gau (f s.gau)) := rfl
theorem keeps_onGau (f : GauSt → GauSt) (g : Fld) : Keeps (onGau f) g := fun _ => rfl
@[simp] theorem gau_get (s : State) (b : GauSt) (g : Fld) : (Eff.apply s (.gau b)).get g = s.get g := rfl
@[simp] theorem gau_is (s : State) (b : GauSt) (g : Fld) : (Eff.apply s (.gau b)).is g = s.is g := rfl
@[simp] theorem gau_tb (s : State) (b : GauSt) : (Eff.apply s (.gau b)).tb = s.tb := rfl

@[simp] theorem run_onOtp (f : OtpSt → OtpSt) (s : State) :
    Act.run (onOtp f) s = Eff.apply s (.otp (f s.otp)) := rfl
theorem keeps_onOtp (f : OtpSt → OtpSt) (g : Fld) : Keeps (onOtp f) g := fun _ => rfl
@[simp] theorem otp_get (s : State) (b : OtpSt) (g : Fld) : (Eff.apply s (.otp b)).get g = s.get g := rfl
@[simp] theorem otp_is (s : State) (b : OtpSt) (g : Fld) : (Eff.apply s (.otp b)).is g = s.is g := rfl
@[simp] theorem otp_tb (s : State) (b : OtpSt) : (Eff.apply s (.otp b)).tb = s.tb := rfl

@[simp] theorem run_onDut (f : DutSt → DutSt) (s : State) :
    Act.run (onDut f) s = Eff.apply s (.dut (f s.dut)) := rfl
theorem keeps_onDut (f : DutSt → DutSt) (g : Fld) : Keeps (onDut f) g := fun _ => rfl
@[simp] theorem dut_get (s : State) (b : DutSt) (g : Fld) : (Eff.apply s (.dut b)).get g = s.get g := rfl
@[simp] theorem dut_is (s : State) (b : DutSt) (g : Fld) : (Eff.apply s (.dut b)).is g = s.is g := rfl
@[simp] theorem dut_tb (s : State) (b : DutSt) : (Eff.apply s (.dut b)).tb = s.tb := rfl

@[simp] theorem run_onRfe (f : RfeSt → RfeSt) (s : State) :
    Act.run (onRfe f) s = Eff.apply s (.rfe (f s.rfe)) := rfl
theorem keeps_onRfe (f : RfeSt → RfeSt) (g : Fld) : Keeps (onRfe f) g := fun _ => rfl
@[simp] theorem rfe_get (s : State) (b : RfeSt) (g : Fld) : (Eff.apply s (.rfe b)).get g = s.get g := rfl
@[simp] theorem rfe_is (s : State) (b : RfeSt) (g : Fld) : (Eff.apply s (.rfe b)).is g = s.is g := rfl
@[simp] theorem rfe_tb (s : State) (b : RfeSt) : (Eff.apply s (.rfe b)).tb = s.tb := rfl

@[simp] theorem run_onChz (f : ChzSt → ChzSt) (s : State) :
    Act.run (onChz f) s = Eff.apply s (.chz (f s.chz)) := rfl
theorem keeps_onChz (f : ChzSt → ChzSt) (g : Fld) : Keeps (onChz f) g := fun _ => rfl
@[simp] theorem chz_get (s : State) (b : ChzSt) (g : Fld) : (Eff.apply s (.chz b)).get g = s.get g := rfl
@[simp] theorem chz_is (s : State) (b : ChzSt) (g : Fld) : (Eff.apply s (.chz b)).is g = s.is g := rfl
@[simp] theorem chz_tb (s : State) (b : ChzSt) : (Eff.apply s (.chz b)).tb = s.tb := rfl

@[simp] theorem run_onDmd (f : DmdSt → DmdSt) (s : State) :
    Act.run (onDmd f) s = Eff.apply s (.dmd (f s.dmd)) := rfl
theorem keeps_onDmd (f : DmdSt → DmdSt) (g : Fld) : Keeps (onDmd f) g := fun _ => rfl
@[simp] theorem dmd_get (s : State) (b : DmdSt) (g : Fld) : (Eff.apply s (.dmd b)).get g = s.get g := rfl
@[simp] theorem dmd_is (s : State) (b : DmdSt) (g : Fld) : (Eff.apply s (.dmd b)).is g = s.is g := rfl
@[simp] theorem dmd_tb (s : State) (b : DmdSt) : (Eff.apply s (.dmd b)).tb = s.tb := rfl

@[simp] theorem run_onFrm (f : FrmSt → FrmSt) (s : State) :
    Act.run (onFrm f) s = Eff.apply s (.frm (f s.frm)) := rfl
theorem keeps_onFrm (f : FrmSt → FrmSt) (g : Fld) : Keeps (onFrm f) g := fun _ => rfl
@[simp] theorem frm_get (s : State) (b : FrmSt) (g : Fld) : (Eff.apply s (.frm b)).get g = s.get g := rfl
@[simp] theorem frm_is (s : State) (b : FrmSt) (g : Fld) : (Eff.apply s (.frm b)).is g = s.is g := rfl
@[simp] theorem frm_tb (s : State) (b : FrmSt) : (Eff.apply s (.frm b)).tb = s.tb := rfl

@[simp] theorem run_onTxp (f : TxpSt → TxpSt) (s : State) :
    Act.run (onTxp f) s = Eff.apply s (.txp (f s.txp)) := rfl
theorem keeps_onTxp (f : TxpSt → TxpSt) (g : Fld) : Keeps (onTxp f) g := fun _ => rfl
@[simp] theorem txp_get (s : State) (b : TxpSt) (g : Fld) : (Eff.apply s (.txp b)).get g = s.get g := rfl
@[simp] theorem txp_is (s : State) (b : TxpSt) (g : Fld) : (Eff.apply s (.txp b)).is g = s.is g := rfl
@[simp] theorem txp_tb (s : State) (b : TxpSt) : (Eff.apply s (.txp b)).tb = s.tb := rfl

@[simp] theorem run_onShu (f : ShuSt → ShuSt) (s : State) :
    Act.run (onShu f) s = Eff.apply s (.shu (f s.shu)) := rfl
theorem keeps_onShu (f : ShuSt → ShuSt) (g : Fld) : Keeps (onShu f) g := fun _ => rfl
@[simp] theorem shu_get (s : State) (b : ShuSt) (g : Fld) : (Eff.apply s (.shu b)).get g = s.get g := rfl
@[simp] theorem shu_is (s : State) (b : ShuSt) (g : Fld) : (Eff.apply s (.shu b)).is g = s.is g := rfl
@[simp] theorem shu_tb (s : State) (b : ShuSt) : (Eff.apply s (.shu b)).tb = s.tb := rfl

@[simp] theorem run_onBob (f : BobSt → BobSt) (s : State) :
    Act.run (onBob f) s = Eff.apply s (.bob (f s.bob)) := rfl
theorem keeps_onBob (f : BobSt → BobSt) (g : Fld) : Keeps (onBob f) g := fun _ => rfl
@[simp] theorem bob_get (s : State) (b : BobSt) (g : Fld) : (Eff.apply s (.bob b)).get g = s.get g := rfl
@[simp] theorem bob_is (s : State) (b : BobSt) (g : Fld) : (Eff.apply s (.bob b)).is g = s.is g := rfl
@[simp] theorem bob_tb (s : State) (b : BobSt) : (Eff.apply s (.bob b)).tb = s.tb := rfl

@[simp] theorem run_onKey (f : KeySt → KeySt) (s : State) :
    Act.run (onKey f) s = Eff.apply s (.key (f s.key)) := rfl
theorem keeps_onKey (f : KeySt → KeySt) (g : Fld) : Keeps (onKey f) g := fun _ => rfl
@[simp] theorem key_get (s : State) (b : KeySt) (g : Fld) : (Eff.apply s (.key b)).get g = s.get g := rfl
@[simp] theorem key_is (s : State) (b : KeySt) (g : Fld) : (Eff.apply s (.key b)).is g = s.is g := rfl
@[simp] theorem key_tb (s : State) (b : KeySt) : (Eff.apply s (.key b)).tb = s.tb := rfl

@[simp] theorem run_onSec (f : SecSt → SecSt) (s : State) :
    Act.run (onSec f) s = Eff.apply s (.sec (f s.sec)) := rfl
theorem keeps_onSec (f : SecSt → SecSt) (g : Fld) : Keeps (onSec f) g := fun _ => rfl
@[simp] theorem sec_get (s : State) (b : SecSt) (g : Fld) : (Eff.apply s (.sec b)).get g = s.get g := rfl
@[simp] theorem sec_is (s : State) (b : SecSt) (g : Fld) : (Eff.apply s (.sec b)).is g = s.is g := rfl
@[simp] theorem sec_tb (s : State) (b : SecSt) : (Eff.apply s (.sec b)).tb = s.tb := rfl

@[simp] theorem run_onCmd (f : CmdSt → CmdSt) (s : State) :
    Act.run (onCmd f) s = Eff.apply s (.cmd (f s.cmd)) := rfl
theorem keeps_onCmd (f : CmdSt → CmdSt) (g : Fld) : Keeps (onCmd f) g := fun _ => rfl
@[simp] theorem cmd_get (s : State) (b : CmdSt) (g : Fld) : (Eff.apply s (.cmd b)).get g = s.get g := rfl
@[simp] theorem cmd_is (s : State) (b : CmdSt) (g : Fld) : (Eff.apply s (.cmd b)).is g = s.is g := rfl
@[simp] theorem cmd_tb (s : State) (b : CmdSt) : (Eff.apply s (.cmd b)).tb = s.tb := rfl

@[simp] theorem run_onFlc (f : FlcSt → FlcSt) (s : State) :
    Act.run (onFlc f) s = Eff.apply s (.flc (f s.flc)) := rfl
theorem keeps_onFlc (f : FlcSt → FlcSt) (g : Fld) : Keeps (onFlc f) g := fun _ => rfl
@[simp] theorem flc_get (s : State) (b : FlcSt) (g : Fld) : (Eff.apply s (.flc b)).get g = s.get g := rfl
@[simp] theorem flc_is (s : State) (b : FlcSt) (g : Fld) : (Eff.apply s (.flc b)).is g = s.is g := rfl
@[simp] theorem flc_tb (s : State) (b : FlcSt) : (Eff.apply s (.flc b)).tb = s.tb := rfl

@[simp] theorem run_onEcc (f : EccSt → EccSt) (s : State) :
    Act.run (onEcc f) s = Eff.apply s (.ecc (f s.ecc)) := rfl
theorem keeps_onEcc (f : EccSt → EccSt) (g : Fld) : Keeps (onEcc f) g := fun _ => rfl
@[simp] theorem ecc_get (s : State) (b : EccSt) (g : Fld) : (Eff.apply s (.ecc b)).get g = s.get g := rfl
@[simp] theorem ecc_is (s : State) (b : EccSt) (g : Fld) : (Eff.apply s (.ecc b)).is g = s.is g := rfl
@[simp] theorem ecc_tb (s : State) (b : EccSt) : (Eff.apply s (.ecc b)).tb = s.tb := rfl

@[simp] theorem run_onDn (f : DnSt → DnSt) (s : State) :
    Act.run (onDn f) s = Eff.apply s (.dn (f s.dn)) := rfl
theorem keeps_onDn (f : DnSt → DnSt) (g : Fld) : Keeps (onDn f) g := fun _ => rfl
@[simp] theorem dn_get (s : State) (b : DnSt) (g : Fld) : (Eff.apply s (.dn b)).get g = s.get g := rfl
@[simp] theorem dn_is (s : State) (b : DnSt) (g : Fld) : (Eff.apply s (.dn b)).is g = s.is g := rfl
@[simp] theorem dn_tb (s : State) (b : DnSt) : (Eff.apply s (.dn b)).tb = s.tb := rfl

@[simp] theorem run_onDbg (f : DbgSt → DbgSt) (s : State) :
    Act.run (onDbg f) s = Eff.apply s (.dbg (f s.dbg)) := rfl
theorem keeps_onDbg (f : DbgSt → DbgSt) (g : Fld) : Keeps (onDbg f) g := fun _ => rfl
@[simp] theorem dbg_get (s : State) (b : DbgSt) (g : Fld) : (Eff.apply s (.dbg b)).get g = s.get g := rfl
@[simp] theorem dbg_is (s : State) (b : DbgSt) (g : Fld) : (Eff.apply s (.dbg b)).is g = s.is g := rfl
@[simp] theorem dbg_tb (s : State) (b : DbgSt) : (Eff.apply s (.dbg b)).tb = s.tb := rfl

@[simp] theorem run_onVif (f : VifSt → VifSt) (s : State) :
    Act.run (onVif f) s = Eff.apply s (.vif (f s.vif)) := rfl
theorem keeps_onVif (f : VifSt → VifSt) (g : Fld) : Keeps (onVif f) g := fun _ => rfl
@[simp] theorem vif_get (s : State) (b : VifSt) (g : Fld) : (Eff.apply s (.vif b)).get g = s.get g := rfl
@[simp] theorem vif_is (s : State) (b : VifSt) (g : Fld) : (Eff.apply s (.vif b)).is g = s.is g := rfl
@[simp] theorem vif_tb (s : State) (b : VifSt) : (Eff.apply s (.vif b)).tb = s.tb := rfl

@[simp] theorem run_onUpd (f : UpdSt → UpdSt) (s : State) :
    Act.run (onUpd f) s = Eff.apply s (.upd (f s.upd)) := rfl
theorem keeps_onUpd (f : UpdSt → UpdSt) (g : Fld) : Keeps (onUpd f) g := fun _ => rfl
@[simp] theorem upd_get (s : State) (b : UpdSt) (g : Fld) : (Eff.apply s (.upd b)).get g = s.get g := rfl
@[simp] theorem upd_is (s : State) (b : UpdSt) (g : Fld) : (Eff.apply s (.upd b)).is g = s.is g := rfl
@[simp] theorem upd_tb (s : State) (b : UpdSt) : (Eff.apply s (.upd b)).tb = s.tb := rfl

@[simp] theorem run_onCas (f : CasSt → CasSt) (s : State) :
    Act.run (onCas f) s = Eff.apply s (.cas (f s.cas)) := rfl
theorem keeps_onCas (f : CasSt → CasSt) (g : Fld) : Keeps (onCas f) g := fun _ => rfl
@[simp] theorem cas_get (s : State) (b : CasSt) (g : Fld) : (Eff.apply s (.cas b)).get g = s.get g := rfl
@[simp] theorem cas_is (s : State) (b : CasSt) (g : Fld) : (Eff.apply s (.cas b)).is g = s.is g := rfl
@[simp] theorem cas_tb (s : State) (b : CasSt) : (Eff.apply s (.cas b)).tb = s.tb := rfl

@[simp] theorem run_onHif (f : HifSt → HifSt) (s : State) :
    Act.run (onHif f) s = Eff.apply s (.hif (f s.hif)) := rfl
theorem keeps_onHif (f : HifSt → HifSt) (g : Fld) : Keeps (onHif f) g := fun _ => rfl
@[simp] theorem hif_get (s : State) (b : HifSt) (g : Fld) : (Eff.apply s (.hif b)).get g = s.get g := rfl
@[simp] theorem hif_is (s : State) (b : HifSt) (g : Fld) : (Eff.apply s (.hif b)).is g = s.is g := rfl
@[simp] theorem hif_tb (s : State) (b : HifSt) : (Eff.apply s (.hif b)).tb = s.tb := rfl

@[simp] theorem put_tb (s : State) (f : Fld) (v : Nat) : (Eff.apply s (.put f v)).tb = s.tb := rfl
@[simp] theorem byte_tb (s : State) (a : Nat) (b : Byte) : (Eff.apply s (.byte a b)).tb = s.tb := rfl
@[simp] theorem drawn_tb (s : State)  : (Eff.apply s (.drawn)).tb = s.tb := rfl

end Sys2Proof.Laws
end

