-- ==== Sys2Proof/Laws/Ops.lean ====
section
/-! SUPPORT. The shared operations: sticky bits, fault reports, Stitch pulses, memory words, free values. -/

namespace Sys2Proof.Laws

open Sys2Proof.Machine

/-- An effect that writes back what a block holds changes nothing. -/
theorem apply_flt_self (s : State) : Eff.apply s (.flt s.flt) = s := rfl

theorem apply_recd_self (s : State) : Eff.apply s (.recd s.recd) = s := rfl

/-! Fault reports (R20). -/

/-- A report changes the collector's state and nothing else. -/
theorem run_sendReport (r : Report) (s : State) : ∃ b, Act.run (sendReport r) s = Eff.apply s (.flt b) := by
  simp only [sendReport, Act.run]
  split
  · exact ⟨_, rfl⟩
  · split <;> exact ⟨_, rfl⟩

theorem keeps_sendReport (r : Report) (g : Fld) : Keeps (sendReport r) g := fun s => by
  obtain ⟨b, h⟩ := run_sendReport r s
  rw [h, flt_get]

/-! Sticky bits (R15). -/

theorem run_eachA_recd (l : List Nat) (f : Nat → RecSt → RecSt) (s : State) :
    ∃ b, Act.run (eachA l fun k => onRecd (f k)) s = Eff.apply s (.recd b) := by
  induction l generalizing s with
  | nil => exact ⟨s.recd, (apply_recd_self s).symm⟩
  | cons k l ih =>
    obtain ⟨b, h⟩ := ih (Eff.apply s (.recd (f k s.recd)))
    rw [run_eachA_cons, run_onRecd, h]
    exact ⟨b, rfl⟩

/-- Everything a sticky bit's rise can do: the bit, a report, recorder triggers. -/
theorem run_stickRise (at_ : Nat) (f : Fld) (inst info : Nat) (s : State) : ∃ b c,
    Act.run (stickRise at_ f inst info) s = Eff.apply (Eff.apply (Eff.apply s (.put f 1)) (.flt b)) (.recd c) := by
  simp only [stickRise, run_chain_cons, run_chain_nil, run_put, run_whenA, run_look]
  generalize Eff.apply s (.put f 1) = s1
  have h1 : ∃ b, (if (addrPage f.key != 0x03 && s1.is ((headerOf f.key 0x18 32).bit f.lo)) = true then
      Act.run (sendReport ⟨at_, addrPage f.key, inst, f.lo, 1, info⟩) s1 else s1) = Eff.apply s1 (.flt b) := by
    split
    · exact run_sendReport _ _
    · exact ⟨_, (apply_flt_self _).symm⟩
  obtain ⟨b, hb⟩ := h1
  rw [hb]
  refine ⟨b, ?_⟩
  split
  · exact run_eachA_recd _ (fun k r => { r with fired := r.fired ++ [⟨k, at_, 1, addrPage f.key, f.lo⟩] }) _
  · exact ⟨_, (apply_recd_self _).symm⟩

/-- Everything the condition of a sticky bit can do. -/
theorem run_stickAt (at_ : Nat) (f : Fld) (inst info : Nat) (s : State) :
    ∃ b c, Act.run (stickAt at_ f inst info) s =
      if s.is f then s else Eff.apply (Eff.apply (Eff.apply s (.put f 1)) (.flt b)) (.recd c) := by
  obtain ⟨b, c, h⟩ := run_stickRise at_ f inst info s
  refine ⟨b, c, ?_⟩
  simp only [stickAt, run_look, run_whenA, h]
  by_cases hs : s.is f = true <;> simp [hs]

/-- A sticky bit is 1 after its condition (R15). -/
theorem stickI_is (f : Fld) (inst info : Nat) (s : State) (hw : f.width = 1) (hl : f.lo < 32) :
    (Act.run (stickI f inst info) s).is f = true := by
  obtain ⟨b, c, h⟩ := run_stickAt s.tb f inst info s
  unfold stickI
  rw [run_look, h]
  split
  · assumption
  · simp [State.is, put_get_same s f 1 (by omega), hw]

theorem stick_is (f : Fld) (s : State) (hw : f.width = 1) (hl : f.lo < 32) : (Act.run (stick f) s).is f = true :=
  stickI_is f 0 0 s hw hl

/-- A sticky bit's rise leaves every other field alone. -/
theorem keeps_stickI {f g : Fld} (inst info : Nat) (hl : f.lo + f.width ≤ 32) (hd : apart f g = true) :
    Keeps (stickI f inst info) g := fun s => by
  obtain ⟨b, c, h⟩ := run_stickAt s.tb f inst info s
  unfold stickI
  rw [run_look, h]
  split
  · rfl
  · simp [put_get_apart s f g 1 hl hd]

theorem keeps_stick {f g : Fld} (hl : f.lo + f.width ≤ 32) (hd : apart f g = true) : Keeps (stick f) g :=
  keeps_stickI 0 0 hl hd

theorem keeps_stickVI {f g : Fld} (v inst info : Nat) (hl : f.lo + f.width ≤ 32) (hd : apart f g = true)
    (hv : apart (f.copy v) g = true) : Keeps (stickVI f v inst info) g := by
  unfold stickVI
  exact keeps_cons (keeps_stickI inst info hl hd) (keeps_cons (keeps_whenA (keeps_put (f := f.copy v) 1 hl hv)) (keeps_nil g))

theorem keeps_stickV {f g : Fld} (v : Nat) (hl : f.lo + f.width ≤ 32) (hd : apart f g = true)
    (hv : apart (f.copy v) g = true) : Keeps (stickV f v) g := by
  unfold stickV
  exact keeps_cons (keeps_stick hl hd) (keeps_cons (keeps_whenA (keeps_put (f := f.copy v) 1 hl hv)) (keeps_nil g))

/-- What a sticky bit's rise leaves: everything but the registers, the collector and the recorder. -/
structure SameButSticky (s t : State) : Prop where
  mem : t.mem = s.mem
  pat : t.pat = s.pat
  clk : t.clk = s.clk
  stm : t.stm = s.stm
  pwr : t.pwr = s.pwr
  bus : t.bus = s.bus
  dn  : t.dn = s.dn

theorem stickI_same (f : Fld) (inst info : Nat) (s : State) : SameButSticky s (Act.run (stickI f inst info) s) := by
  obtain ⟨b, c, h⟩ := run_stickAt s.tb f inst info s
  unfold stickI
  rw [run_look, h]
  split <;> exact ⟨rfl, rfl, rfl, rfl, rfl, rfl, rfl⟩

/-! Stitch producers (R531). -/

@[simp] theorem run_pulse (p : Nat) (s : State) :
    Act.run (pulse p) s = Eff.apply s (.stm { s.stm with pulses := s.stm.pulses ++ [(p, s.tb)] }) := rfl

theorem keeps_pulse (p : Nat) (g : Fld) : Keeps (pulse p) g := fun _ => rfl

/-! Accesses to registers. -/

/-- An access that reaches its register has the register's effect. -/
theorem run_atRegister {s : State} {i : Initiator} {v : Nat} {f : Fld} {write : Bool} (e : Act) (h : Opens s i f v write) :
    Act.run (atRegister i v f write e) s = Act.run e s := by
  obtain ⟨p, off, v', hr, hp⟩ := h
  have h0 : Act.run (atRegister i v f write e) s
      = Act.run (routed i (viewAddr f v) write e (s.route i (viewAddr f v) write)) s := by rw [atRegister, run_look]
  have h1 : (p == .PWR && (write && refusesPwr i)) = false := by
    by_cases hq : p = .PWR
    · rw [hp hq, Bool.and_false]
    · rw [beq_false_of_ne hq, Bool.false_and]
  rw [h0, hr, routed, h1]
  rfl

/-! Time. -/

theorem keeps_until (t : Nat) (g : Fld) : Keeps (until_ t) g :=
  keeps_of_regFree g fun s => by unfold until_ onClk; split <;> rfl

/-- Time never runs backwards to a due moment. -/
theorem until_tb (t : Nat) (s : State) (h : t < 2 ^ 64) : (Act.run (until_ t) s).tb = max s.tb t := by
  simp only [until_, Act.run, State.tb]
  split
  · simp [onClk]; omega
  · simp; omega

/-! Memory (R8). -/

theorem setBytes_byte (a n v j : Nat) (s : State) :
    (Act.run (setBytes a n v) s).byte j = if a ≤ j ∧ j < a + n then v / 256 ^ (j - a) % 256 else s.byte j := by
  unfold setBytes Act.run
  induction n with
  | zero => simp [show ¬ (a ≤ j ∧ j < a) by omega]
  | succ n ih =>
    rw [List.range_succ, List.map_append, applyAll_append, List.map_singleton, applyAll_cons, applyAll_nil]
    by_cases hj : j = a + n
    · subst hj
      simp
    · rw [byte_mem_ne _ _ _ _ hj, ih]
      by_cases h1 : a ≤ j ∧ j < a + n
      · simp [h1, show j < a + (n + 1) by omega]
      · simp [h1, show ¬ (a ≤ j ∧ j < a + (n + 1)) by omega]

/-- A store changes the bytes it stores to and no others. -/
theorem setWord_byte_ne (a v j : Nat) (s : State) (h : j < a ∨ a + 4 ≤ j) :
    (Act.run (setWord a v) s).byte j = s.byte j := by
  unfold setWord
  rw [setBytes_byte, if_neg (by omega)]

theorem keeps_setBytes (a n v : Nat) (g : Fld) : Keeps (setBytes a n v) g :=
  keeps_of_regFree g fun s => by simp [setBytes, regFree]

theorem keeps_setOctets (a : Nat) (l : List Nat) (g : Fld) : Keeps (setOctets a l) g :=
  keeps_of_regFree g fun s => by simp [setOctets, regFree]

/-- The little-endian number in four bytes, after it was stored there (R8). -/
theorem setWord_word (a v : Nat) (s : State) : (Act.run (setWord a v) s).word a = v % 2 ^ 32 := by
  unfold State.word setWord
  simp only [State.bytes, setBytes_byte]
  simp only [show a ≤ a ∧ a < a + 4 by omega, show a ≤ a + 1 ∧ a + 1 < a + 4 by omega,
    show a ≤ a + 1 + 1 ∧ a + 1 + 1 < a + 4 by omega, show a ≤ a + 1 + 1 + 1 ∧ a + 1 + 1 + 1 < a + 4 by omega,
    if_true, show a - a = 0 by omega, show a + 1 - a = 1 by omega, show a + 1 + 1 - a = 2 by omega,
    show a + 1 + 1 + 1 - a = 3 by omega, and_self]
  omega

end Sys2Proof.Laws
end

