-- ==== Sys2Proof/Laws/Denat.lean ====
section
/-! SUPPORT. The Denat core's shared pieces: the stacks in registers, flags, and an instruction whose fetch meets nothing. -/

namespace Sys2Proof.Laws

open Sys2Proof.Machine

/-! The monad of an instruction. -/

@[simp] theorem dn_bind {α β : Type} (m : Dn α) (k : α → Dn β) (r : Run) :
    (m >>= k) r = match m r with | .ok (a, r') => k a r' | .error e => .error e := by
  show StateT.bind m k r = _
  simp only [StateT.bind]
  cases m r <;> rfl

@[simp] theorem dn_map {α β : Type} (f : α → β) (m : Dn α) (r : Run) :
    (f <$> m) r = match m r with | .ok (a, r') => .ok (f a, r') | .error e => .error e := by
  show StateT.map f m r = _
  simp only [StateT.map]
  cases m r <;> rfl

@[simp] theorem dn_pure {α : Type} (a : α) (r : Run) : (pure a : Dn α) r = .ok (a, r) := rfl

@[simp] theorem dn_ite {α : Type} (c : Prop) [Decidable c] (a b : Dn α) (r : Run) :
    (if c then a else b) r = if c then a r else b r := by split <;> rfl

@[simp] theorem dn_onK (f : DnCore → DnCore) (r : Run) : onK f r = .ok ((), { r with k := f r.k }) := rfl

@[simp] theorem dn_askK {α : Type} (f : DnCore → α) (r : Run) : askK f r = .ok (f r.k, r) := rfl

@[simp] theorem dn_raise {α : Type} (e : Exc) (r : Run) : (raise e : Dn α) r = .error e := rfl

@[simp] theorem dn_emit (a : Act) (r : Run) : emit a r = .ok ((), { r with out := r.out ++ a r.s, s := a.run r.s }) := rfl

@[simp] theorem dn_run {α : Type} (m : Dn α) (r : Run) : m.run r = m r := rfl

/-! The stacks in registers (R386, R387). -/

/-- A pop of an operand that a register holds. -/
theorem pop_op {r : Run} {v : Nat} {l : List Nat} (h : r.k.ds = v :: l) :
    pop .op r = .ok (v, { r with k := { r.k with ds := l } }) := by
  simp [pop, DnCore.held_, DnCore.setStk, DnCore.ptr, h]

/-- A pop of a return entry that a register holds. -/
theorem pop_ret {r : Run} {v : Nat} {l : List Nat} (h : r.k.rs = v :: l) :
    pop .ret r = .ok (v, { r with k := { r.k with rs := l } }) := by
  simp [pop, DnCore.held_, DnCore.setStk, DnCore.ptr, h]

/-- A push that finds a free register of the operand stack. -/
theorem push_op {r : Run} {v : Nat} (h : r.k.ds.length < 8) :
    push .op v r = .ok ((), { r with k := { r.k with ds := v :: r.k.ds } }) := by
  simp [push, DnCore.held_, DnCore.setStk, DnCore.ptr, show ¬ 8 < r.k.ds.length + 1 by omega]

/-- A push that finds a free register of the return stack. -/
theorem push_ret {r : Run} {v : Nat} (h : r.k.rs.length < 8) :
    push .ret v r = .ok ((), { r with k := { r.k with rs := v :: r.k.rs } }) := by
  simp [push, DnCore.held_, DnCore.setStk, DnCore.ptr, show ¬ 8 < r.k.rs.length + 1 by omega]

/-- One result into a free register, with its flags. -/
theorem finish_one {r : Run} {a : Alu} {x : Nat} (ho : a.out = [x]) (h : r.k.ds.length < 8) :
    finish a r = .ok ((), { r with k := { r.k with ds := x :: r.k.ds, status := a.status r.k.status } }) := by
  simp [finish, ho, push_op h]

/-- An instruction on two operands in registers with one result. -/
theorem binary_one {r : Run} {f : Nat → Nat → Alu} {a b x : Nat} {l : List Nat} (hd : r.k.ds = b :: a :: l)
    (ho : (f a b).out = [x]) (h : l.length < 8) :
    binary f r = .ok ((), { r with k := { r.k with ds := x :: l, status := (f a b).status r.k.status } }) := by
  have h2 := @pop_op { r with k := { r.k with ds := a :: l } } a l rfl
  have h3 := @finish_one { r with k := { r.k with ds := l } } _ _ ho h
  simp only [binary, dn_bind, pop_op hd, h2, h3]

/-- An instruction on one operand in a register with one result. -/
theorem unary_one {r : Run} {f : Nat → Alu} {a x : Nat} {l : List Nat} (hd : r.k.ds = a :: l)
    (ho : (f a).out = [x]) (h : l.length < 8) :
    unary f r = .ok ((), { r with k := { r.k with ds := x :: l, status := (f a).status r.k.status } }) := by
  have h3 := @finish_one { r with k := { r.k with ds := l } } _ _ ho h
  simp only [unary, dn_bind, pop_op hd, h3]

/-! An instruction whose fetch meets nothing. -/

/-- The run in which an instruction starts. -/
def startOf (s : State) (c : Fin 2) (long : Bool) : Run :=
  { who := c, at_ := (s.core c).pc, s := s
    k := { s.core c with pc := wrap ((s.core c).pc + (if long then 4 else 2)), step := false } }

theorem touch_none {s : State} (a n : Nat) (hb : s.ecc.bad = []) (hf : s.ecc.fresh = []) : touch a n s = [] := by
  simp [touch, look, hb, hf, whenA, skip]

theorem modify_const {α : Type} (l : List α) (i : Nat) (x : α) : l.modify i (fun _ => x) = l.set i x := by
  induction l generalizing i with
  | nil => simp
  | cons y l ih => cases i <;> simp [ih]

/-- A core replaced, by the action that does it. -/
theorem run_onCore (s : State) (c : Fin 2) (k : DnCore) : Act.run (onCore c fun _ => k) s = withCore s c k := by
  simp only [onCore, run_onDn, modify_const]
  rfl

/-- With no breakpoint set, none is met. -/
theorem breakpoint_none {s : State} (c : Fin 2) (h : s.dbg.breaks = []) : Act.run (breakpoint c) s = s := by
  simp [breakpoint, h]

/-- An instruction that raises nothing and acts on its core alone completes with that core. -/
theorem run_core {s : State} {c : Fin 2} {long : Bool} {m : Dn Unit} {r : Run} (hr : Runs s c long)
    (hm : m (startOf s c long) = .ok ((), r)) (hl : r.late = none) (ho : r.out = []) :
    act (dnRun c long m) s = .next (withCore s c r.k) := by
  have ht : ∀ n, touch (s.core c).pc n s = [] := fun n => touch_none _ _ hr.bad hr.fresh
  have hs : ({ who := c, at_ := (s.core c).pc, k := { s.core c with
      pc := wrap ((s.core c).pc + (if long then 4 else 2)), step := false }, s := s } : Run) = startOf s c long := rfl
  have he : (do emit (touch (s.core c).pc (if long then 4 else 2)); m).run (startOf s c long) = .ok ((), r) := by
    simp only [dn_run, dn_bind, dn_emit]
    rw [← hm]
    congr 1
    simp [startOf, Act.run, ht]
  rw [act_next]
  simp only [dnRun, run_look, run_whenA, hr.runs, if_true, hr.fetch, runAt, hs, he, hl, ho, run_chain_cons, run_chain_nil]
  rw [show Act.run (fun _ => []) s = s from rfl, run_onCore, breakpoint_none c]
  exact hr.brk

/-! Flags (R406, R410). -/

theorem bitOf_testBit (v b : Nat) : bitOf v b = (v.testBit b).toNat := by
  unfold bitOf
  rw [Nat.testBit_eq_decide_div_mod_eq]
  rcases Nat.mod_two_eq_zero_or_one (v / 2 ^ b) with h | h <;> simp [h]

theorem withBit_eq (v b : Nat) (x : Bool) :
    withBit v b x = 2 ^ (b + 1) * (v / 2 ^ (b + 1)) + (2 ^ b * x.toNat + v % 2 ^ b) := by
  unfold withBit bitOf
  have hv : v = 2 ^ (b + 1) * (v / 2 ^ (b + 1)) + (2 ^ b * (v / 2 ^ b % 2) + v % 2 ^ b) := by
    have h1 := Nat.div_add_mod v (2 ^ b)
    have h2 := Nat.div_add_mod (v / 2 ^ b) 2
    rw [Nat.div_div_eq_div_mul, ← pow_succ] at h2
    calc v = 2 ^ b * (v / 2 ^ b) + v % 2 ^ b := h1.symm
      _ = 2 ^ b * (2 * (v / 2 ^ (b + 1)) + v / 2 ^ b % 2) + v % 2 ^ b := by rw [h2]
      _ = _ := by ring
  have hm : v / 2 ^ b % 2 * 2 ^ b = 2 ^ b * (v / 2 ^ b % 2) := Nat.mul_comm _ _
  rw [hm]
  cases x <;> simp <;> omega

theorem testBit_withBit (v b j : Nat) (x : Bool) : (withBit v b x).testBit j = if j = b then x else v.testBit j := by
  have h1 : v % 2 ^ b < 2 ^ b := Nat.mod_lt _ (Nat.two_pow_pos _)
  have h2 : 2 ^ b * x.toNat + v % 2 ^ b < 2 ^ (b + 1) := by
    rw [pow_succ]; cases x <;> simp <;> omega
  rw [withBit_eq, Nat.testBit_two_pow_mul_add _ h2, Nat.testBit_two_pow_mul_add _ h1, Nat.testBit_mod_two_pow,
    Nat.testBit_div_two_pow]
  by_cases hj : j = b
  · subst hj; cases x <;> simp
  · by_cases hl : j < b
    · simp [hj, hl, show j < b + 1 by omega]
    · simp [hj, show ¬ j < b + 1 by omega, Nat.sub_add_cancel (show b + 1 ≤ j by omega)]

theorem withBit_div (v b : Nat) (x : Bool) (h : b < 4) : withBit v b x / 16 = v / 16 := by
  apply Nat.eq_of_testBit_eq
  intro j
  rw [show (16 : Nat) = 2 ^ 4 from rfl, Nat.testBit_div_two_pow, Nat.testBit_div_two_pow, testBit_withBit, if_neg (by omega)]

/-- STATUS after a result: the flags that it gives, the others and the rest unchanged. -/
theorem status_flags (a : Alu) (st : Nat) : FlagsSet st (a.status st) a.n a.z a.v a.c := by
  obtain ⟨o, n, z, v, c⟩ := a
  refine ⟨?_, ?_, ?_, ?_, ?_⟩
  · simp only [Alu.status]
    cases n <;> cases z <;> cases v <;> cases c <;> simp [withBit_div]
  all_goals
    simp only [Alu.status, bitOf_testBit]
    cases n <;> cases z <;> cases v <;> cases c <;> simp [testBit_withBit, -Nat.testBit_zero]

end Sys2Proof.Laws
end

