-- ==== Sys2Proof/Machine/Pins.lean ====
section
/-! DEFINITION. What the device drives on its output balls, as functions of the state: no ball holds more than its block
(R68, R72, R73, R310, R479, R480, R486, R490, R496, R568, R569, R604, R620, R624). -/

namespace Sys2Proof.Machine

/-- What the device drives on an output ball. -/
inductive Drive
  | low
  | high
  /-- High-impedance. -/
  | floats
  /-- A gate that drives switching cycles in the ON portion of its dimming windows (R483, R485). -/
  | switching
  /-- An analog level in steps of 28.57 mV (R72). -/
  | steps (n : Nat)
  /-- A clock of CKOUTSEL (R68), or the symbols of a link in use (R308). -/
  | clock (n : Nat)
  | symbols
  deriving DecidableEq, Repr

/-- A level that is driven both ways. -/
def Drive.level (b : Bool) : Drive := if b then .high else .low

/-- An open-drain ball: low or released. -/
def Drive.openDrain (pulled : Bool) : Drive := if pulled then .low else .floats

/-- A ball of a domain that is off or that a fence has closed is high-impedance (R479). -/
def State.drivenIn (s : State) (dom : Nat) (d : Drive) : Drive := if s.reachable dom then d else .floats

/-- FECn: with OE 1, the bit of LEVEL for the state of the selected port (R73). -/
def State.fecBall (s : State) (n : Nat) : Drive := s.drivenIn Dom.rxn
  (if s.is (RFE.FECCFG.OE.i n)
    then .level (bitOf (s.get (RFE.FECCFG.LEVEL.i n)) (s.portState (s.get (RFE.FECCFG.PORT.i n))) == 1) else .floats)

/-- EPAn (R72). -/
def State.epaBall (s : State) (n : Nat) : Drive := s.drivenIn Dom.tx (.level (s.rfPort n).epa)

/-- EPBn: EPBIAS while EPAn is high, else 0 V (R72). -/
def State.epbBall (s : State) (n : Nat) : Drive :=
  s.drivenIn Dom.tx (.steps (if (s.rfPort n).epa then s.get (RFE.PEPB.EPBIAS.i n) else 0))

/-- GATEn: it switches as `gateHigh` says in the windows of START and ON whose DUTY is not 0, from the first one on, and not between the last
window of an old sequence and the first of a new one; low otherwise, while VGD is present (R483, R485, R486, R604). -/
def State.gateBall (s : State) (n : Nat) : Drive :=
  if !s.lmp.vgdHere then .floats
  else s.drivenIn Dom.lamp (if (s.lampState n == 1 || s.lampState n == 2) && (s.lamp n).duty != 0 && s.tb < (s.lamp n).winEnd
    then .switching else .low)

/-- LMPFLT: low while any channel is in FAULT or LOCKOUT (R490). -/
def State.lmpfltBall (s : State) : Drive :=
  s.drivenIn Dom.lamp (.openDrain ((List.range 4).any fun n => s.lampState n == 3 || s.lampState n == 4))

/-- The two balls of relay `r`: VIN against ground in a SET pulse, the reverse in a RESET pulse, both low otherwise (R496). -/
def State.relayBalls (s : State) (r : Nat) : Drive × Drive :=
  let dir := ((s.relay r).pulse.map (·.1)).getD 0
  (s.drivenIn Dom.lamp (.level (dir == 1)), s.drivenIn Dom.lamp (.level (dir == 2)))

/-- HIRQ: low while a request holds it (R568, R569). -/
def State.hirqBall (s : State) : Drive := s.drivenIn Dom.core (.openDrain (s.hirq != 0))

/-- CKOUT (R68). -/
def State.ckoutBall (s : State) : Drive :=
  s.drivenIn Dom.core (if s.get CLK.CTRL.CKOUTSEL = 0 then .low else .clock (s.get CLK.CTRL.CKOUTSEL))

/-- GPIOp (R624). -/
def State.gpioBall (s : State) (p : Nat) : Drive :=
  s.drivenIn Dom.core (if s.gpioDriven p then .level (s.is (GIO.OUT.P.bit p)) else .floats)

/-- CLO0, towards the downstream neighbour, and CTKO, its tick clock: high-impedance while the link is OFF, and unused at
M7, which trains no one (R310, R311). -/
def State.downstreamBall (s : State) : Drive :=
  s.drivenIn Dom.mac (if s.link == linkOff || s.get CAS.STAT.MEMBER == 7 then .floats else .symbols)

/-- CLO1, towards the upstream neighbour: high-impedance while the link is OFF, and unused at M0 (R310, R311). -/
def State.upstreamBall (s : State) : Drive :=
  s.drivenIn Dom.mac (if s.link == linkOff || s.m0 then .floats else .symbols)

/-- OUTAGEN: low while the device is supplied from VBAK (R480). -/
def State.outagenBall (s : State) : Drive := .openDrain (s.is PWR.STAT.ONBAK)

/-- PGOOD: low until the supplies are good (R620). -/
def State.pgoodBall (s : State) : Drive := .openDrain (!s.pwr.pgood)

end Sys2Proof.Machine
end

