-- ==== Sys2Proof/WellFormed.lean ====
section
/-! DEFINITION. Which commands a sender can form: the bounds that the operands' types do not state. -/

namespace Sys2Proof

/-- The bytes of a protected memory, by its number (R455). -/
def memoryBytes (m : Nat) : Nat :=
  match m with
  | 0 => 0x200000
  | 1 => 0x100000
  | 2 | 3 => 0x80000
  | 4 => 0x40000
  | _ => 0x400000

/-- Whether a command's operands lie in the ranges the spec gives them: a critical command's block holds 62 bytes after its
identifier (R375); a PSDU at most 2047 bytes (R150); a context record 32 words (R323); a training 16 round trips (R314); a
remote access 1 to 16 words (R326); a host burst at least one word (R561); a scrub offset lies in its memory (R455); a slot
runs at most 256 cells (R198); an interval of the meter at most 1600 samples (R502, R503);
LMP's and the gauge's voltages fit their fields (R495, R501, R520). -/
def Instr.wellFormed : Instr → Bool
  | .keyload _ b _ | .tenancyOpen _ b _ | .tenancyModify _ b _ | .tenancyClose _ b _ | .dbgreopen _ b _ | .activate _ b _
  | .lampovrRelease _ b _ | .lampovrOff _ b _ | .lampovrLevel _ b _ | .refovrSelect _ b _ | .refovrAuto _ b _ | .regtight _ b _
  | .ctrreset _ b _ | .commandReservedId _ _ b => b.length ≤ 62
  | .relayedFrame l .. => l.length ≤ 2047
  | .handoverRecordReceive l => l.length == 32
  | .trainingDone l .. => l.length == 16
  | .remoteAccessServe _ n (some l) => l.length == n.val + 1
  | .remoteAccessDone _ l => l.length ≤ 16
  | .rd _ _ n | .rdf _ _ n => 1 ≤ n
  | .wr _ _ l d _ | .wrf _ _ l d _ => 1 ≤ l.length && d.length ≤ l.length
  | .scrubRead m off _ => off < memoryBytes m
  | .eccWriteBack m off => off < memoryBytes m
  | .rxWindowOpen k | .rxWindowClose k | .stagingBufferLoad k => k < 256
  | .meterIntervalEnd l _ | .meterNozcTimeout l _ => 1 ≤ l.length && l.length ≤ 1600
  | .shortDetect _ x | .ovpDetect _ x | .ntcHot x | .ntcCool x => x < 4096
  | .gaugeReanchor x => x < 65536
  | _ => true

end Sys2Proof
end

