-- ==== Sys2Proof/Tests/Slice0.lean ====
section
/-! SUPPORT. Tests: the bounds of `Instr.wellFormed`, and for each clause of each statement a state and operands that meet its
hypotheses, most of them with the effect that the spec gives there. -/

namespace Sys2Proof.Tests

set_option Elab.async false

open Sys2Proof.Machine

/-- The state after reset with some fields of its registers given values. -/
def having (l : List (Fld × Nat)) (s : State := State.reset) : State := applyAll s (l.map fun p => .put p.1 p.2)

/-- A state with some words of memory given values. -/
def holding (l : List (Nat × Nat)) (s : State := State.reset) : State := Act.run (eachA l fun p => setWord p.1 p.2) s

/-- The state after a command. -/
def after (c : Instr) (s : State) : State :=
  match exec c s with
  | .next t => t
  | _ => s

/-- The state that a meaning answers. -/
def next (o : Host.Outcome State Fault Refusal) : State :=
  match o with
  | .next t => t
  | _ => .reset

/-- DN0, the initiator of most tests. -/
abbrev dn0 : Initiator := .core 0

/-- `Opens`, as a test. -/
def opens (s : State) (f : Fld) (v : Nat) (write : Bool) (i : Initiator := dn0) : Bool :=
  match s.route i (viewAddr f v) write with
  | .reg p _ _ => p != .PWR || !(write && refusesPwr i)
  | _ => false

theorem opens_iff (s : State) (f : Fld) (v : Nat) (write : Bool) (i : Initiator) :
    opens s f v write i = true ↔ Opens s i f v write := by
  unfold opens Opens
  constructor
  · intro h
    split at h
    · rename_i p off v' hr
      refine ⟨p, off, v', hr, ?_⟩
      rintro rfl
      cases write <;> simp_all
    · cases h
  · rintro ⟨p, off, v', hr, hp⟩
    rw [hr]
    by_cases h : p = .PWR
    · simp [hp h]
    · simp [h]

theorem pairHolds_calm (s : State) (h : s.shu.pair.stage = 0) (q : Page) :
    s.pairHolds q = false := by simp [State.pairHolds, h]

/-! The bus. -/

/-- The hypotheses of a plain register write of page `p` at offset `off`. -/
def plainAt (s : State) (a : Nat) (p : Page) (off w : Nat) : Bool :=
  a % 4 == 0 && s.route dn0 a true == .reg p off 0 && (p != .PWR || !refusesPwr dn0) && !s.pairHolds p &&
    (specialWrite dn0 p off 0 w).isNone && ((findReg p.table off).any fun d => d.copy == .shared)

theorem test_registerWrite_mtrCfg : plainAt .reset 0x4001F040 .MTR 0x40 0x01000007 = true ∧
    (let t := after (.registerWrite dn0 0x4001F040 0x01000007) .reset
     t.get MTR.CFG.NCYC = 1 ∧ t.get MTR.CFG.NOLOAD = 7) := by decide +kernel

/-- NCYC 0 is reserved: it keeps 10, and RSVD is set. -/
theorem test_registerWrite_reserved : plainAt .reset 0x4001F040 .MTR 0x40 7 = true ∧
    (let t := after (.registerWrite dn0 0x4001F040 7) .reset
     t.get MTR.CFG.NCYC = 10 ∧ t.get MTR.CFG.NOLOAD = 7 ∧ t.is MTR.STICKY.RSVD = true) := by decide +kernel

def locked : State := having [(headerOf REF.CFG.CTH.key 0x1C 32, 1)]

theorem test_registerWrite_locked : plainAt locked 0x40020040 .REF 0x40 7 = true ∧ locked.locked 0x40020000 = true ∧
    (let t := after (.registerWrite dn0 0x40020040 7) locked
     t.get REF.CFG.DRIFTTH = 0x78 ∧ t.is REF.STICKY.LOCKV = true) := by decide +kernel

theorem test_narrow_write : State.reset.route dn0 0x40020040 true = .reg .REF 0x40 0 ∧
    (after (.narrowOrMisalignedAccess dn0 0x40020040 1 (some 7)) .reset).is REF.STICKY.RSVD = true := by decide +kernel

def sram : State := holding [(0x20000000, 0x12345678), (0x201FFFFC, 0x9ABCDEF0)]

theorem test_narrow_read : sram.route dn0 0x20000000 false = .mem 0x20000000 ∧
    sram.route dn0 0x20000001 false = .mem 0x20000001 ∧ sram.ecc.bad = [] ∧ sram.ecc.fresh = [] ∧
    (after (.narrowOrMisalignedAccess dn0 0x20000001 0 none) sram).answered dn0 = 0x56 ∧
    sram.route dn0 0x201FFFFC false = .mem 0x201FFFFC ∧ sram.route dn0 0x201FFFFE false = .mem 0x201FFFFE ∧
    (after (.narrowOrMisalignedAccess dn0 0x201FFFFE 1 none) sram).answered dn0 = 0x9ABC := by decide +kernel

/-- The pages end below 0x40026000 (R13). -/
theorem test_unmapped : State.reset.route dn0 0x40026000 true = .unmapped ∧ State.reset.route dn0 0x40026000 false = .unmapped ∧
    (after (.unmappedAccess dn0 0x40026000 none) .reset).is SYS.STICKY.UNMAPPED = true := by decide +kernel

def macOff : State := having [(PWR.STAT.DOMON, 7)]

theorem test_domainOff : macOff.route dn0 0x30000000 true = .domOff ∧ macOff.route dn0 0x40017040 false = .domOff ∧
    macOff.pageOn .SHU 0x40 = false ∧ (macOff.boundTo dn0 = 0) ∧
    (after (.domainOffAccess dn0 0x40017040 none) macOff).is SYS.STICKY.DOMOFF = true ∧
    (after (.domainOffAccess dn0 0x40017040 none) macOff).answered dn0 = 0 := by decide +kernel

theorem test_romFlashStore : State.reset.route dn0 0x087FFFFC true = .romWrite ∧
    (after (.romFlashStore dn0 0x087FFFFC 2 5) .reset).is SYS.STICKY.ROWRITE = true := by decide +kernel

/-- Tenant 3's window shows nothing while its interface is closed. -/
theorem test_viewRefused : State.reset.route dn0 (Base.window + 3 * 0x100000 + 0xFFFFC) true = .viewRef 3 ∧
    (after (.viewRefused dn0 3 0xFFFFC (some 5)) .reset).is (VIF.STICKY.VIEWREF.copy 3) = true := by decide +kernel

/-- DN1 bound to VI 2. -/
def bound : State := having [(VIF.BIND.DN1VI, 2)]

theorem test_bindViolation : bound.route (.core 1) 0x40000044 true = .bindViol 2 ∧ bound.is VIF.VIOLLOG.V = false ∧
    (let t := after (.bindViolation (.core 1) 0x40000044 2 (some 1)) bound
     t.is VIF.STICKY.BINDVIOL = true ∧ t.get VIF.VIOLLOG.VI = 2 ∧ t.get VIF.VIOLLOG.ADDR = 0x40000) := by decide +kernel

def stuck : State := having [(MTR.STICKY.EOVF, 1), (MTR.STICKY.RDY, 1)]

theorem test_stickyClear : Page.ofCode 0x1F = some .MTR ∧ stuck.shu.pair.stage = 0 ∧ stuck.flc.step = 0 ∧
    stuck.route dn0 0x4001F010 true = .reg .MTR 0x10 0 ∧ (findReg Page.MTR.table 0x10).isSome ∧
    (let t := after (.stickyClear dn0 0x1F 0 0x10) stuck
     t.is MTR.STICKY.EOVF = false ∧ t.is MTR.STICKY.RDY = true) := by decide +kernel

theorem test_lockWrite : Page.ofCode 0x20 = some .REF ∧ State.reset.route dn0 0x4002001C true = .reg .REF 0x1C 0 ∧
    (after (.lockWrite dn0 0x20 0 1) .reset).locked 0x40020000 = true := by decide +kernel

def counted : State := having [(FLT.RECCNT.SHU, 3), (LMP.OTCNT, 2), (MEM.MAXLAP, 5)]

theorem test_readToClear : (∀ x ∈ [(FLT.RECCNT, Page.FLT), (REC.FROZCNT, .REC), (REC.LOSTCNT, .REC), (PWR.WAKESRC, .PWR),
      (LMP.OTCNT, .LMP), (MEM.MAXLAP, .MEM), (CAS.LINKERR, .CAS)],
      counted.route dn0 x.1.key false = .reg x.2 (x.1.key % 0x1000) 0) ∧
    (let t := after (.readToClear dn0 (BitVec.ofNat 32 FLT.RECCNT.key)) counted
     t.answered dn0 = 3 ∧ t.get FLT.RECCNT.SHU = 0) := by decide +kernel

theorem test_dn1runWrite : opens .reset CPU.CTRL.DN1RUN 0 true = true ∧ State.reset.is CPU.CTRL.DN1RUN = false ∧
    State.reset.dn.cores.length = 2 ∧
    (let t := after (.dn1runWrite dn0 true) (having [(CPU.DN1PC.PC, 0x10000400)])
     (t.core 1).runs = true ∧ (t.core 1).pc = 0x20000800 ∧ t.is CPU.CTRL.DN1RUN = true) := by decide +kernel

theorem test_doorbells : opens .reset CPU.DBSET 0 true = true ∧ opens .reset HIF.HDBSET 0 true = true ∧
    (after (.dbsetWrite dn0 2) .reset).get CPU.DBSTAT.DB = 2 ∧
    (after (.hdbsetWrite dn0 true) .reset).is HIF.HDB.VAL = true := by decide +kernel

/-- A member whose link is up and that serves remote accesses. -/
def linked : State := having [(SYS.ROLE.VAL, 2), (CAS.CTRL.EN, 1), (CAS.CTRL.REMEN, 1), (CAS.STAT.STATE, 3), (CAS.STAT.MEMBER, 1)]

theorem test_remoteAccessServe : linked.domOn Dom.mac = true ∧ linked.linkLive = true ∧ linked.is CAS.CTRL.REMEN = true ∧
    linked.route .remote 0x201FFFFC true = .mem 0x201FFFFC ∧ linked.ecc.bad = [] ∧ linked.ecc.fresh = [] ∧
    (after (.remoteAccessServe 0x201FFFFE 0 (some [0xCAFE])) linked).word 0x201FFFFC = 0xCAFE := by decide +kernel

/-! Time, the scrubbing and the MRAM. -/

/-- A state whose TB and ASN have parts in both of their registers. -/
def later : State := { State.reset with clk := { tb := 0x500000007, asn := 0x300000009 } }

theorem test_tbloRead : opens later CLK.TBLO 0 false = true ∧
    (let t := after (.tbloRead dn0) later; t.answered dn0 = 7 ∧ t.get (CLK.TBHI.copy (iniCopy dn0)) = 5) := by
  decide +kernel

theorem test_asnloRead : opens later CLK.ASNLO 0 false = true ∧
    (let t := after (.asnloRead dn0) later; t.answered dn0 = 9 ∧ t.get (CLK.ASNHI.copy (iniCopy dn0)) = 3) := by
  decide +kernel

theorem test_clockWrites : State.reset.slaved = false ∧ opens .reset CLK.TICKADJ 0 true = true ∧
    opens .reset CLK.ASNHI 0 true = true ∧ opens .reset CLK.ASNLO 0 true = true ∧ opens .reset CLK.CTRL 0 true = true ∧
    (after (.tickadjWrite dn0 0xFC18) .reset).getS CLK.ADJPEND.ADJ = -1000 ∧
    (after (.tickadjWrite dn0 0xFC18) .reset).is CLK.STICKY.ADJSAT = false ∧
    (after (.tickadjWrite dn0 0xFC17) .reset).getS CLK.ADJPEND.ADJ = -1000 ∧
    (after (.tickadjWrite dn0 0xFC17) .reset).is CLK.STICKY.ADJSAT = true ∧
    (after (.asnhiWrite dn0 0x1FF) .reset).clk.asnStaged = 0xFF := by decide +kernel

def prefetched : State := { State.reset with clk := { asnStaged := 1 }, shu := { next := some (1, []) } }

theorem test_asnloWrite : prefetched.slaved = false ∧ prefetched.shu.next.isSome = true ∧ opens prefetched CLK.ASNLO 0 true = true ∧
    (let t := after (.asnloWrite dn0 2) prefetched
     t.clk.asnCommit = some 0x100000002 ∧ t.shu.void = true) := by decide +kernel

/-- A member with cascade time. -/
def slave : State := having [(CLK.STAT.CASSYNC, 1)] linked

theorem test_asnloWrite_slaved : slave.slaved = true ∧ opens slave CLK.ASNLO 0 true = true ∧
    (after (.asnloWrite dn0 2) slave).is CAS.STICKY.CLKREF = true := by decide +kernel

theorem test_tickenWrite : later.slaved = false ∧ opens later CLK.CTRL 0 true = true ∧ later.is CLK.CTRL.TICKEN = false ∧
    (let t := after (.tickenWrite dn0 1) later
     t.is CLK.CTRL.TICKEN = true ∧ t.clk.nextTick = 0x500000007 + 40000) := by decide +kernel

def locks : State := having [(CLK.STAT.PLLLOCK, 1), (CLK.STAT.K32OK, 1)]

theorem test_pll : locks.domOn Dom.core = true ∧ locks.is CLK.STAT.PLLLOCK = true ∧
    (after .pllUnlock locks).clk.gated = true ∧ (after .pllUnlock locks).is CLK.STICKY.PLLUNLOCK = true ∧
    State.reset.is CLK.STAT.PLLLOCK = false ∧ (after .pllRelock .reset).is CLK.STAT.PLLLOCK = true := by decide +kernel

theorem test_k32 : (after (.k32Fail 0) locks).is CLK.STAT.K32OK = false ∧ (after (.k32Fail 0) locks).is PWR.STAT.RTCLOST = true ∧
    (after .k32Restart .reset).is CLK.STAT.K32OK = true := by decide +kernel

def writable : State := having [(NVS.CTRL.WEN, 1)]

theorem test_mramStore : writable.is DBG.STAT.ERASING = false ∧ writable.is NVS.CTRL.WEN = true ∧
    writable.route dn0 0x280367FC true = .mem 0x280367FC ∧
    (let t := after (.mramProtectedStore dn0 0x367FC 0xBEEF) writable
     t.word 0x280367FC = 0xBEEF ∧ t.get NVS.STAT.WBUF = 1) := by decide +kernel

theorem test_mramProtected : writable.route dn0 0x28036800 true = .mem 0x28036800 ∧
    (after (.mramProtectedStore dn0 0x36800 1) writable).is NVS.STICKY.SYSWR = true ∧
    (after (.mramProtectedStore dn0 0x3F7FF 1) writable).is NVS.STICKY.SYSWR = true ∧
    (after (.mramProtectedStore dn0 0x3F800 1) writable).is VIF.STICKY.TENWR = true ∧
    (after (.mramProtectedStore dn0 0x3FBFC 1) writable).is VIF.STICKY.TENWR = true ∧
    (after (.mramProtectedStore dn0 0x3FC00 1) writable).is CMD.STICKY.CTRWR = true ∧
    (after (.mramProtectedStore dn0 0x3FC7C 1) writable).is CMD.STICKY.CTRWR = true ∧
    (after (.mramProtectedStore dn0 0x3FC80 1) writable).is NVS.STICKY.SYSWR = true ∧
    (after (.mramProtectedStore dn0 0x3FFBC 1) writable).mem = writable.mem := by decide +kernel

theorem test_mramCommit : (after .mramWriteCommit (having [(NVS.STAT.WBUF, 1)])).get NVS.STAT.WBUF = 0 := by decide +kernel

def scrubbing : State := having [(MEM.CTRL.SCREN, 0x7F)]

theorem test_scrubRead : memSize 6 = 0x400000 ∧ memSize 0 = 0x200000 ∧ scrubbing.domOn (memDomain 6) = true ∧
    scrubbing.domOn (memDomain 0) = true ∧ bitOf (scrubbing.get MEM.CTRL.SCREN) 6 = 1 ∧ bitOf (scrubbing.get MEM.CTRL.SCREN) 0 = 1 ∧
    (after (.scrubRead 6 0x3FFFFF 2) scrubbing).ecc.bad = [(6, 0x3FFFF0)] ∧
    (after (.scrubRead 0 0x1FFFFF 2) scrubbing).ecc.bad = [(0, 0x1FFFF8)] ∧
    (after (.scrubRead 0 0x1FFFFF 2) scrubbing).is MEM.STICKY.UE = true ∧
    (after (.scrubRead 3 0x7FFE7 2) scrubbing).bob.repairs = [⟨1, 4095, 25, false, scrubbing.tb⟩] ∧
    (after (.scrubRead 3 0x7FFE7 2) scrubbing).ecc.ue.getD 3 0 = 1 ∧ scrubWord 6 0x3FFFFF = (6, 0x3FFFF0) ∧
    (after (.scrubRead 6 0x3FFFFF 1) scrubbing).ecc.fresh = [(6, 0x3FFFF0)] ∧
    (let s := having [(MEM.STAT.SCRUN, 0x40)] scrubbing
     bitOf (s.get MEM.STAT.SCRUN) 6 = 1 ∧ scrubEnd 6 ≤ (scrubWord 6 0x3FFFFF).2 + 16 ∧
       bitOf ((after (.scrubRead 6 0x3FFFFF 0) s).get MEM.STAT.SCRUN) 6 = 0) := by decide +kernel

def corrected : State := { State.reset with ecc := { fresh := [(1, 0x18)] } }

theorem test_eccWriteBack : (after (.eccWriteBack 1 0x1F) corrected).ecc.fresh = [] := by decide +kernel

theorem test_scrubLapStart : scrubbing.is MEM.STAT.LAPRUN = false ∧ scrubbing.ecc.lapDue < 2 ^ 64 ∧
    (let t := after .scrubLapStart scrubbing; t.is MEM.STAT.LAPRUN = true ∧ t.get MEM.STAT.SCRUN = 0x7F) := by decide +kernel

theorem test_lapSlow : (after .scrubLapStart scrubbing).ecc.lapFrom = some 0 ∧ (after .scrubLapStart scrubbing).ecc.slow = false ∧
    (after .lapSlow (after .scrubLapStart scrubbing)).is MEM.STICKY.LAPSLOW = true := by decide +kernel

def logged : State := { having [(MEM.LOGSEL.NUM.copy (iniCopy dn0), 4)] with
  ecc := { log := (List.replicate 5 (List.replicate 16 (0, 0))).set 4 ((8, 1) :: List.replicate 15 (0, 0)) } }

theorem test_logclr : logged.get (MEM.LOGSEL.NUM.copy (iniCopy dn0)) = 4 ∧ opens logged MEM.LOGCLR 0 true = true ∧
    (after (.logclr dn0) logged).ecc.log = List.replicate 5 (List.replicate 16 (0, 0)) := by decide +kernel

/-! Timers and the two-wire controllers. -/

theorem test_timerArm : opens .reset (TIM.TCTRL.i 7) 0 true = true ∧ State.reset.armed 7 = false ∧
    State.reset.tim.since.length = 8 ∧
    (let t := after (.timerArm dn0 0 7 0xA2000000) .reset
     t.armed 7 = true ∧ t.get (TIM.TCTRL.SRC.i 7) = 2) := by decide +kernel

def armed : State := having [(TIM.TCTRL.ARM.i 3, 1), (TIM.CMP.VAL.i 3, 100), (TIM.TCTRL.SRC.i 3, 4)]

theorem test_timerFire : armed.armed 3 = true ∧ armed.get (TIM.TCTRL.SRC.i 3) < 5 ∧ armed.clk.gated = false ∧
    (armed.get (TIM.TCTRL.SRC.i 3) = 1 → armed.thm.k32ok = true) ∧
    (let t := after (.timerFire 3) armed
     t.armed 3 = false ∧ t.is (TIM.STICKY.FIRE.bit 3) = true ∧ t.get (TIM.CNT.VAL.i 3) = 100) := by decide +kernel

theorem test_timerStop : opens armed (TIM.TCTRL.i 3) 0 true = true ∧ opens armed (TIM.CMP.i 3) 0 true = true ∧
    (after (.timerStop dn0 0 3 0x40000000) armed).armed 3 = false ∧
    (after (.timerCmpWrite dn0 0 3 0xFFFFFFFF) armed).get (TIM.CMP.VAL.i 3) = 0xFFFFFFFF := by decide +kernel

def twoWire : State := having [(I2C.CCFG.EN.i 0, 1), (I2C.CCFG.EN.i 1, 1)]

/-- Addresses 0x08 and 0x77 bound those of a device (R550). -/
theorem test_i2cStart : opens twoWire (I2C.CCMD.i 1) 0 true = true ∧ twoWire.is (I2C.CRES.BUSY.i 1) = false ∧
    twoWire.is (I2C.CCFG.EN.i 1) = true ∧ opens twoWire (I2C.CRECOV.i 1) 0 true = true ∧
    (after (.i2cWrite dn0 1 0x77 0xA5) twoWire).i2cTx 1 = some ⟨1, 0x77, 0xA5, true⟩ ∧
    (after (.i2cRead dn0 1 0x08) twoWire).i2cTx 1 = some ⟨2, 0x08, 0, true⟩ ∧
    (after (.i2cRead dn0 1 0x08) twoWire).is (I2C.CRES.BUSY.i 1) = true ∧
    (after (.busRecovery dn0 1) twoWire).i2cTx 1 = some ⟨3, 0, 0, false⟩ := by decide +kernel

def reading : State := { having [(I2C.CRES.BUSY.i 0, 1)] twoWire with i2c := { a := some ⟨2, 0x50, 0, false⟩ } }

theorem test_i2cStartOnFreeBus :
    (after (.i2cStartOnFreeBus 0) (after (.i2cRead dn0 0 0x50) twoWire)).i2cTx 0 = some ⟨2, 0x50, 0, false⟩ := by decide +kernel

theorem test_i2cEnd : reading.i2cTx 0 = some ⟨2, 0x50, 0, false⟩ ∧
    (let t := after (.i2cTransactionEnd 0 true true 0x7E false) reading
     t.get (I2C.CRES.RESULT.i 0) = 0 ∧ t.get (I2C.CRES.RXDATA.i 0) = 0x7E ∧ t.is (I2C.CRES.DONE.i 0) = true) ∧
    (after (.i2cTransactionEnd 0 false true 0x7E false) reading).get (I2C.CRES.RESULT.i 0) = 1 ∧
    (after (.arbitrationLost 0) reading).is I2C.STICKY.AARB = true ∧
    (after (.arbitrationLost 0) reading).get (I2C.CRES.RESULT.i 0) = 3 ∧
    (after (.i2cLowTimeout 0 false) reading).get (I2C.CRES.RESULT.i 0) = 4 := by decide +kernel

def target : State := having [(I2C.TCFG.EN, 1), (I2C.TCFG.ADDR, 0x42)]

theorem test_target : target.targetHears 0x42 = true ∧ opens target I2C.RXREG 0 false = true ∧ opens target I2C.TXREG 0 true = true ∧
    target.is I2C.TSTAT.WAKEHOLD = false ∧
    (let t := after (.targetWriteReceived 0x42 0x99) target
     t.get I2C.RXREG.BYTE = 0x99 ∧ (after (.targetWriteReceived 0x42 0x11) t).is I2C.STICKY.TOVR = true ∧
       (after (.targetWriteReceived 0x42 0x11) t).get I2C.RXREG.BYTE = 0x99 ∧
       (after (.rxregRead dn0) t).is I2C.RXREG.RXV = false) ∧
    (after (.targetRead 0x42) target).is I2C.TSTAT.STALE = true ∧
    (after (.targetRead 0x42) (after (.txregWrite dn0 7) target)).is I2C.TSTAT.STALE = false ∧
    (after .targetSclTimeout target).is I2C.STICKY.TSCLTO = true := by decide +kernel

def asleep : State := { having [(PWR.STAT.DOMON, 1), (PWR.STAT.MODE, 3), (I2C.TCFG.EN, 1), (I2C.TCFG.ADDR, 0x42)] with
  clk := { savedTb := some 100 } }

theorem test_targetWakeMatch : asleep.domOn Dom.core = false ∧ asleep.mode = 3 ∧ asleep.is (PWR.WAKEEN.SRC.bit 1) = true ∧
    (let t := after (.targetWakeMatch 0x42 128) asleep
     t.is I2C.TSTAT.WAKEHOLD = true ∧ t.is (PWR.WAKESRC.SRC.bit 1) = true ∧ (89, 100 + 15625) ∈ t.stm.pulses) := by
  decide +kernel

/-! Events, faults, the recorder and the wake-up receiver. -/

theorem test_swtrig : opens .reset STM.SWTRIG 0 true = true ∧ (after (.swtrig dn0 0x81) .reset).stm.pulses = [(72, 0), (79, 0)] := by
  decide +kernel

def rising : State := having [(GIO.EDGE0.E.sub 30 2, 1), (STM.PEN.P.i (3 * 31 + 1), 2 ^ (50 - 32)), (STM.FLAGEN.CH, 2 ^ 31)]

/-- Ball 15 rises: producer 50 raises channel 31's flag. -/
theorem test_gpioEdge : rising.is (GIO.IN.P.bit 15) = false ∧ edgeHit (rising.edgeSel 15) true = true ∧
    (let t := after (.gpioEdge 15 true) rising
     t.is (GIO.STICKY.EDGE.bit 15) = true ∧ t.stm.pulses = [(50, 0)] ∧ t.drives 50 31 = true ∧
       (after .stitchEvent t).is (STM.FLAG.CH.bit 31) = true ∧ (after .stitchEvent t).is STM.STICKY.FLAG = true) := by
  decide +kernel

def reporting : State := having [(headerOf MTR.STICKY.EOVF.key 0x18 32, 0x10)]

theorem test_stickyReports : MTR.STICKY.EOVF.width = 1 ∧ MTR.STICKY.EOVF.lo < 32 ∧ addrPage MTR.STICKY.EOVF.key ≠ 0x03 ∧
    reporting.is MTR.STICKY.EOVF = false ∧ reports (Eff.apply reporting (.put MTR.STICKY.EOVF 1)) MTR.STICKY.EOVF = true ∧
    (Act.run (stickI MTR.STICKY.EOVF 2 9) reporting).flt.sent = [⟨0, 0x1F, 2, 4, 1, 9⟩] ∧
    stuck.is MTR.STICKY.EOVF = true := by decide +kernel

def report (n : Nat) : Report := ⟨n, 0x1F, 0, 4, 1, 0⟩
def sent : State := { State.reset with clk := { tb := 9 }, flt := { sent := [report 3] } }
def staged : State := { State.reset with clk := { tb := 9 }, flt := { staged := [report 5, report 3] } }
def full : State := { staged with flt := { staged := [report 3, report 5], queue := List.replicate 63 (report 1), lost := some (report 4) } }

theorem test_faultReportArrive : (after .faultReportArrive sent).flt.staged = [report 3] := by decide +kernel

theorem test_faultQueueAppend : lowestReport staged.flt.staged = some (report 3) ∧ staged.flt.sent.any (·.before (report 3)) = false ∧
    staged.flt.queue.length < 63 ∧
    (let t := after .faultQueueAppend staged
     t.flt.queue = [report 3] ∧ t.flt.staged = [report 5] ∧ t.is FLT.STICKY.QAVAIL = true) := by decide +kernel

/-- The queue is full and an overflow open: the report is lost, and lowers the marker's rank. -/
theorem test_faultQueueFull : lowestReport full.flt.staged = some (report 3) ∧ full.flt.marked = false ∧
    (report 3).before (report 4) = true ∧ 63 ≤ full.flt.queue.length ∧ full.get (lostFld 0x1F) < 255 ∧
    (let t := after .faultQueueAppend full
     t.flt.lost = some (report 3) ∧ t.get (lostFld 0x1F) = 1 ∧ t.flt.queue = full.flt.queue) := by decide +kernel

def overflowed : State := { full with flt := { full.flt with staged := [report 5] } }

theorem test_overflowMarkerAppend : overflowed.flt.lost = some (report 4) ∧ overflowed.flt.marked = false ∧
    ((overflowed.flt.staged ++ overflowed.flt.sent).any fun r => r.before (report 4)) = false ∧
    (let t := after .overflowMarkerAppend overflowed
     t.flt.queue.getLast? = some ⟨4, 0x1F, 0, 0, 2, 0⟩ ∧ t.is FLT.STICKY.OVF = true ∧ t.flt.marked = true) := by decide +kernel

def marked : State := { full with flt := { queue := [⟨4, 0x1F, 0, 0, 2, 0⟩], lost := some (report 4), marked := true } }

theorem test_faultPop : opens marked FLT.POP 0 true = true ∧
    (let t := after (.faultPop dn0 1) marked; t.flt.queue = [] ∧ t.flt.lost = none ∧ t.flt.marked = false) := by decide +kernel

def fired : State := { having [(REC.TRG.NREG.i 0, 1)] with recd := { fired := [⟨0, 7, 0, 0, 3⟩] }, clk := { tb := 7 } }
def frozen : State := having [(REC.CTRL.FREEZE, 1)] fired

theorem test_recorderTrigger : fired.is REC.CTRL.FREEZE = false ∧ fired.recd.scanTo ≤ fired.tb ∧ fired.recd.held.length < 4 ∧
    (after .recorderTrigger fired).recd.held.map (·.fired) = [⟨0, 7, 0, 0, 3⟩] ∧
    frozen.is REC.CTRL.FREEZE = true ∧ frozen.get REC.FROZCNT.CNT = 0 ∧ (after .recorderTrigger frozen).get REC.FROZTB.TB = 7 := by
  decide +kernel

/-- The write waits one unit more than the sample's stamp; slot 254 is the last. -/
def sampled : State := { having [(REC.WRIDX.IDX, 254), (REC.SEQ.VAL, 0xFFFFFFFF)] with
  recd := { held := [⟨⟨0, 4000000, 0, 0, 3⟩, [0xAB], 0, 5⟩] }, clk := { tb := 4000002 } }

theorem test_recordWrite : firstSample sampled.recd.held = some ⟨⟨0, 4000000, 0, 0, 3⟩, [0xAB], 0, 5⟩ ∧
    sampled.recd.second ≠ sampled.tb / 4000000 ∧ sampled.get REC.WRIDX.IDX < 255 ∧ sampled.ecc.bad = [] ∧
    sampled.ecc.fresh = [] ∧
    (let t := after .recordWrite sampled
     t.get REC.WRIDX.IDX = 0 ∧ t.get REC.SEQ.VAL = nextSeq 0xFFFFFFFF ∧ t.recd.held = [] ∧
       t.octets (ringSlot 254) 4 = [0xFF, 0xFF, 0xFF, 0xFF]) := by decide +kernel

def lived : State := { State.reset with recd := { opsec := 64, pcyc := 2 } }

theorem test_lifeCounterWrite : lived.recd.lifeAt + 64 ≤ lived.recd.opsec ∧ lived.recd.owed = false ∧
    lived.is REC.CTRL.FREEZE = false ∧ opens lived REC.CTRL.FREEZE 0 true = true ∧
    (after .lifeCounterWrite lived).recd.lifeAt = 64 ∧ (after (.recorderFreeze dn0 2) lived).is REC.CTRL.FREEZE = true := by
  decide +kernel

def listening : State := { having [(THM.CTRL.EN, 1), (THM.STAT.RUN, 1), (THM.CODE.VAL, 0x1234)] with
  thm := { k32ok := true, detecting := true }, clk := { tb := 10 } }

theorem test_thimbleRestart : opens listening THM.CTRL 0 true = true ∧ opens listening THM.FREQ 0 true = true ∧
    listening.get THM.FREQ.KHZ ≠ 1050000 ∧
    (let t := after (.thimbleRestart dn0 (some 1050000)) listening
     t.get THM.FREQ.KHZ = 1050000 ∧ t.thm.detectAt = some 2010 ∧ (after .thimbleDetectStart t).thm.detecting = true) ∧
    (after (.thimbleRestart dn0 none) .reset).is THM.CTRL.EN = true := by decide +kernel

/-- The sync of a frame has come. -/
def synced : State := having [(THM.STAT.INFR, 1)] listening

theorem test_wakeFrame : listening.thimbleHears = true ∧ synced.thimbleHears = true ∧ synced.wakeMatches 0x1234 0 = true ∧
    synced.thm.lastTrigger = none ∧ synced.get THM.CNT1.BADFR < 65535 ∧
    (after .thimbleSyncFound listening).is THM.STAT.INFR = true ∧
    (let t := after (.wakeFrameReceived (some (wakeCrc 0x1234 0)) 0x1234 0 0) synced
     t.is THM.STICKY.MATCH = true ∧ t.get THM.LAST.CODE = 0x1234 ∧ t.thm.lastTrigger = some 10) ∧
    (after (.wakeFrameReceived none 0x1234 0 0) synced).get THM.CNT1.BADFR = 1 := by decide +kernel

/-- A frame that a restart has lost is no frame when its end comes (R275). -/
theorem test_wakeFrameLost : listening.is THM.STAT.INFR = false ∧
    (after (.wakeFrameReceived (some (wakeCrc 0x1234 0)) 0x1234 0 0) listening).is THM.STICKY.MATCH = false := by decide +kernel
/-! Power and reset. -/

/-- NARROW (1) needs what RUN (0) has and less; MODEREQ 5 is reserved. -/
theorem test_modereqWrite : opens .reset PWR.MODEREQ.PEND 0 true = true ∧ State.reset.heading = 0 ∧
    domainsLess (State.reset.modeDomains 1) State.reset.headingDomains = 0 ∧
    domainsLess State.reset.headingDomains (State.reset.modeDomains 1) ≠ 0 ∧
    domainsLess (State.reset.modeDomains 4) State.reset.headingDomains = 0 ∧
    (after (.modereqWrite dn0 1) .reset).is PWR.MODEREQ.PEND = true ∧
    (after (.modereqWrite dn0 0) .reset).is PWR.MODEREQ.PEND = false ∧
    (after (.modereqWrite dn0 5) .reset).is PWR.STICKY.RSVD = true := by decide +kernel

theorem test_powerWrites : opens .reset PWR.DOMEN.RUNOPT 0 true = true ∧ opens .reset PWR.RTCSEC.SEC 0 true = true ∧
    (after (.domenWrite dn0 0x75) .reset).get PWR.DOMEN.RUNOPT = 5 ∧ (after (.domenWrite dn0 0x75) .reset).get PWR.DOMEN.NAROPT = 7 ∧
    State.reset.get PWR.RTCSEC.SEC = 0 ∧ State.reset.is PWR.STAT.RTCLOST = true ∧
    (after (.rtcsecWrite dn0 0) .reset).is PWR.STAT.RTCLOST = true ∧
    (after (.rtcsecWrite dn0 77) .reset).is PWR.STAT.RTCLOST = false := by decide +kernel

/-- A request for HIBERNATE pends. -/
def asked : State := next (execModereqWrite dn0 3 { State.reset with clk := { tb := 5 } })

theorem test_powerDownStart : asked.requestDue = true ∧ asked.get PWR.MODEREQ.TARGET = 3 ∧ asked.get THM.STAT.PHOLD = 0 ∧
    domainsLess (asked.get PWR.STAT.DOMON) (asked.modeDomains 3 ||| 1) = 0x1FE ∧
    (after .powerDownStart asked).pwr.closing = 0x1FE ∧ (after .powerDownStart asked).pwr.downTo = 3 ∧
    (after .pholdExpire asked).pwr.fenceAt = 5 := by decide +kernel

def fencing : State := next (execPowerDownStart asked)

theorem test_fenceEnd : fencing.pwr.closing ≠ 0 ∧ fencing.fenceWork = [] ∧ fencing.pwr.downTo = 3 ∧ fencing.pwr.wakeAfter = none ∧
    (let t := after .fenceEnd fencing
     t.get PWR.STAT.DOMON = 1 ∧ t.mode = 3 ∧ t.pwr.closing = 0 ∧ t.clk.savedTb = some 5) := by decide +kernel

/-- A transaction of controller A holds the fence open until its limit. -/
def overdue : State := { fencing with i2c := { a := some ⟨2, 0x50, 0, false⟩ }, clk := { tb := 405 } }

theorem test_fenceTimeout : overdue.pwr.closing ≠ 0 ∧ overdue.pwr.fenceAt + 4 * overdue.get PWR.PDFENCE.LIMIT ≤ overdue.tb ∧
    overdue.fenceWork ≠ [] ∧ overdue.is PWR.STICKY.FENCETO = false ∧
    (after .fenceTimeout overdue).is PWR.STICKY.FENCETO = true := by decide +kernel

def restoring : State := { having [(PWR.STAT.DOMON, 0x3F), (PWR.STAT.MODE, 1), (PWR.STAT.BUSY, 1)] with
  pwr := { restoring := [6], starting := true, upTo := 0 }, clk := { tb := 50 } }

theorem test_restore : restoring.pwr.restoring = [6] ∧ restoring.pwr.starting = true ∧
    (let t := after .xoStable restoring
     t.pwr.starting = false ∧ t.pwr.upTo < 5 ∧ t.pwr.stepAt = 50 ∧ t.domOn Dom.core = true ∧
       (let u := after (.domainRestoreStep 0) t
        u.domOn Dom.tx = true ∧ u.mode = 0 ∧ u.pwr.restoring = [] ∧ u.tb = 650)) := by decide +kernel

def ticking : State := { having [(PWR.RTCSEC.SEC, 0xFFFFFFFF)] with thm := { k32ok := true }, recd := { opsec := 0xFFFFFFFF } }

theorem test_rtcSecond : ticking.thm.k32ok = true ∧ ticking.mode ≠ 4 ∧ ticking.pwr.inReset = false ∧
    (after (.rtcSecond 0) ticking).get PWR.RTCSEC.SEC = 0 ∧ (after (.rtcSecond 0) ticking).recd.opsec = 0 := by decide +kernel

def onBackup : State := { having [(PWR.STAT.ONBAK, 1), (PWR.STAT.DOMON, 1), (PWR.STAT.MODE, 3)] with clk := { savedTb := some 9 } }

theorem test_supply : State.reset.is PWR.STAT.ONBAK = false ∧ onBackup.is PWR.STAT.ONBAK = true ∧ onBackup.mode = 3 ∧
    onBackup.pwr.inReset = false ∧ onBackup.get PWR.STAT.DOMON = 1 ∧
    (after (.vinFall 0) .reset).is PWR.STICKY.OUTAGE = true ∧
    (after (.vinRestored 0) onBackup).is (PWR.WAKESRC.SRC.bit 4) = true ∧
    (after (.wakenLow 0) onBackup).get PWR.WAKESRC.FROM = 3 ∧
    (after (.cutoff 0) onBackup).mode = 4 := by decide +kernel

/-- The reset ends with DN0 at the address in boot ROM word 0, which reads 0 (notes/assumptions/2.md). -/
def inReset : State := next (execResetnLow (holding [(0x20000000, 5), (0x28000000, 6)]))

theorem test_deviceReset : inReset.pwr.inReset = true ∧ inReset.word 0x20000000 = 0 ∧ inReset.word 0x28000000 = 6 ∧
    inReset.get PWR.STAT.DOMON = 1 ∧ (inReset.core 0).runs = false ∧
    (after (.aonPowerOn true false) inReset).is PWR.STAT.ONBAK = true ∧
    (after (.deviceResetEnd true false true) inReset).upd.due = some true ∧
    (after (.deviceResetEnd true false true) inReset).get PWR.STAT.DOMON = 0x1FF := by decide +kernel

theorem test_resets : (after .brownOut .reset).pwr.pgood = false ∧ (after .powerOnResetEngage .reset).pwr.cold = true ∧
    (after .vinRiseInOff (having [(PWR.STAT.MODE, 4)])).pwr.cold = true ∧
    (after .activateReset { State.reset with upd := { resetAt := some 100 } }).pwr.inReset = true := by decide +kernel

/-! The front end and the lanes. -/

def radio : State := having [(RFE.STAT.P0STATE, 1), (RFE.STAT.P1STATE, 1), (RXS.STAT.RUN0, 1), (RXS.STAT.RUN1, 1)]

/-- -31 and 30 bound SCHGAIN. -/
theorem test_gainWrite : opens radio (RFE.PGAIN.i 1) 0 true = true ∧ radio.rfe.ports.length = 2 ∧
    (after (.gainWrite dn0 1 false 0xE1) radio).getS (RFE.PGAIN.SCHGAIN.i 1) = -31 ∧
    (after (.gainWrite dn0 1 false 30) radio).getS (RFE.PGAIN.SCHGAIN.i 1) = 30 := by decide +kernel

theorem test_agc : radio.agcActs 1 = true ∧ radio.getS (RFE.PAGC.AGCHI.i 1) < 0 ∧ -128 < radio.getS (RFE.PAGC.AGCLO.i 1) ∧
    (after (.agcStepDown 1 (0, 7)) radio).getS (RFE.PGSTAT.GAIN.i 1) = -3 ∧
    (after (.agcStepUp 1 (-128, 7)) radio).getS (RFE.PGSTAT.GAIN.i 1) = 3 := by decide +kernel

def settling : State := having [(RFE.PGSTAT.SETTLING.i 0, 1)] { radio with rfe := { ports := [{ settleAt := 9 }, {}] } }

theorem test_gainSettled : settling.is (RFE.PGSTAT.SETTLING.i 0) = true ∧ (settling.rfPort 0).settleAt < 2 ^ 64 ∧
    (after (.gainSettled 0) settling).is (RFE.PGSTAT.SETTLING.i 0) = false ∧ (after (.gainSettled 0) settling).tb = 9 := by
  decide +kernel

theorem test_clipEvent : radio.is (RXS.STAT.RUN0.bit 1) = true ∧ radio.portState 1 ≠ 2 ∧
    (after (.clipEvent 1 true) radio).get (RXS.PPEAK.PK.i 1) = 2048 ∧
    (after (.clipEvent 1 false) radio).is RXS.STICKY.CLIPEV1 = true := by decide +kernel

def starting : State := { having [(RXS.CTRL.EN0, 1), (RFE.PCFG.EN.i 0, 1)] with rfe := { ports := [{ runAt := some 40 }, {}] } }

theorem test_converterRun : (starting.rfPort 0).runAt = some 40 ∧ starting.converterMay 0 = true ∧
    (after (.converterRun 0) starting).is RXS.STAT.RUN0 = true := by
  decide +kernel

def onAir0 : TxRun := { what := .direct, vi := 0, w0 := 0, w1 := 0, octets := [], start := 0, phase := 3, tb := 40, air := 9000 }
def sending : State := { having [(RFE.STAT.P0STATE, 2)] with txp := { chains := [{ runs := [onAir0] }, {}] } }

theorem test_returnLoss : (sending.txChain (sending.portChain 0)).busy = some onAir0 ∧ sending.is (RFE.PCFG.PAPATH.i 0) = false ∧
    (after (.returnLossMeasure 0 11) sending).is RFE.STICKY.SEVERE = true ∧
    (after (.returnLossMeasure 0 12) sending).is RFE.STICKY.SEVERE = false ∧
    (after (.returnLossMeasure 0 300) sending).get (RFE.PTUNE.RLOSS.i 0) = 0xFE := by decide +kernel

/-- Unit 12 (RC) runs, unit 8 (a filter of TXB) has starved. -/
def calibrated : State := { State.reset with rfe := { cal :=
  ((List.replicate 13 ({} : CalUnit)).set 12 { pending := true, ends := some 30 }).set 8 { pending := true, age := 1000 } } }

theorem test_calibration : calibrated.rfe.cal.length = 13 ∧ opens calibrated RFE.CALREQ 0 true = true ∧
    (after (.calreqWrite dn0 0x10) .reset).is (RFE.CALREQ.REQ.bit 4) = true ∧ State.reset.get RFE.CALCFG.PERIOD ≠ 0 ∧
    ((after (.calPeriodExpire 0) .reset).calUnit 0).pending = true ∧
    (calFields 12).map (·.2) = [(-32768, 32767), (0, 1023)] ∧ (calibrated.calUnit 12).ends = some 30 ∧
    (after (.calUnitComplete 12 [-32768, 1023]) calibrated).get RFE.RCRES.TRIM = 1023 ∧
    (after (.calUnitComplete 12 [0, 1024]) calibrated).is RFE.STICKY.CALFAIL = true ∧
    (calibrated.calUnit 8).age = 1000 ∧ (after (.calStarve 8) calibrated).is RFE.STICKY.CALSTARVE = true := by decide +kernel

/-- A window of 2.5 MHz whose lower edge is 150 MHz. -/
theorem test_windowWrite : opens .reset (CHZ.WCFG.i 3) 0 true = true ∧ State.reset.chz.force.length = 4 ∧
    300000000 + windowHz 0 = 2 * (151250 * 1000) ∧
    (after (.windowWrite dn0 3 0x80024ED2) .reset).get (CHZ.WCFG.CENTRE.i 3) = 151250 ∧
    (after (.windowWrite dn0 3 0x80024ED1) .reset).get (CHZ.WCFG.CENTRE.i 3) = 600000 := by decide +kernel

def forced : State := { State.reset with chz := { force := [none, some (5, true), none, none] } }

theorem test_windowApply : forced.chz.force.getD 1 none = some (5, true) ∧ forced.chz.force.length = 4 ∧
    (after (.windowApply 1) forced).chz.force = [none, none, none, none] := by decide +kernel

def countedLanes : State := { State.reset with dmd := { lanes := (List.replicate 128 {}).set 127 { counts := [9] } } }

theorem test_laneWrites : opens .reset (laneReg 0 127) 0 true = true ∧ opens countedLanes DMD.CNTCLR 0 true = true ∧
    countedLanes.dmd.lanes.length = 128 ∧
    (after (.laneCfgWrite dn0 0 0 127 0x800A0000) .reset).is (DMD.LCFG.EN.i 127) = true ∧
    ((after (.cntclrWrite dn0 0 0x80000000) countedLanes).lane 127).counts = List.replicate 10 0 := by decide +kernel

/-- Lane 127 searches on port 0, in a plan of one channel at 600 MHz. -/
def lane (st : Nat) : State := having [(CHZ.PLANF0.F0, 600000), (CHZ.PLANSP.NCH, 1), (CHZ.WCFG.EN, 1),
  (DMD.LCFG.EN.i 127, 1), (DMD.LFIND.QUALN.i 127, 15), (DMD.LSTAT.STATE.i 127, st)] radio

theorem test_energyDetect : (lane 4).laneState 127 = 4 ∧ (lane 4).laneMoves 127 = true ∧
    (lane 4).laneInput 127 = true ∧ (lane 4).portState ((lane 4).lanePort 127) = 1 ∧
    (lane 4).getS (DMD.LFIND.RSSITH.i 127) < -99 ∧ ((lane 4).freeBuffer 127).isSome = true ∧
    (lane 4).dmd.lanes.length = 128 ∧ (after (.energyDetect 127 (-99) 5) (lane 4)).laneState 127 = 5 := by decide +kernel

/-- Symbols of the preamble at the outer levels of mode F2_50, 25 kHz, with the zero crossings between them. -/
def preamble (n : Nat) : List (Int × Int) := (List.range n).map fun k => (if k % 2 = 0 then 25000 else -25000, 0)

theorem test_qualifier : (lane 5).laneState 127 = 5 ∧ (lane 5).laneInput 127 = true ∧ (lane 5).freeBuffer 127 = some 0 ∧
    (lane 5).get (DMD.LFIND.QUALN.i 127) = 15 ∧
    qualifiesAt ((lane 5).laneRx 127) 16 ((lane 5).get (DMD.LFIND.QUALTH.i 127)) (preamble 16) = some 16 ∧
    (lane 5).laneLive 127 = true ∧ (lane 5).is (DMD.LCFG.SCHED.i 127) = false ∧ (lane 5).laneWillFit 127 = true ∧
    (after (.qualifierPass 127 (preamble 16) 5) (lane 5)).laneState 127 = 6 ∧
    (after (.qualifierTimeout 127) (lane 5)).laneState 127 = 4 := by decide +kernel

def found : RxFrame := { lane := 127, buf := 0, port := 0, vi := 0, mode := 0, midx := 2, plan := 0, chan := 0, sfdsel := 0
                         rsc := false, ilv := true }
def search (st : Nat) (f : RxFrame) : State :=
  having [(DMD.LDFE.DFEMODE.i 127, 0)] { lane st with frm := { frames := [f] } }

/-- All but the last bit of the SFD 0x904E have been sliced; the symbol of the last, a 0, is in the window. -/
def matching : RxFrame := { found with
  rx := { level := 1638400000, win := [0, -1638400000], bits := lsbFirst 15 0x4827 } }

theorem test_sfd : (search 6 matching).laneFrame 127 = some matching ∧ (search 6 matching).laneState 127 = 6 ∧
    (search 6 matching).laneLive 127 = true ∧ (search 6 matching).laneWillFit 127 = true ∧
    (search 6 matching).laneInput 127 = true ∧ (search 6 matching).laneMoves 127 = true ∧
    (fedFrame (search 6 matching) matching [(25000, 0)]).rx.found = some false ∧
    (after (.sfdMatch 127 50 3 [(25000, 0)] (-60) 0 ()) (search 6 matching)).laneState 127 = 7 ∧
    (after (.sfdTimeout 127) (search 6 matching)).frm.frames = [] := by decide +kernel

/-- The 16 bits of a PHR have been received. -/
def headed (w : Nat) : RxFrame := { found with stage := 1, rx := { found := some false, bits := lsbFirst 16 w } }

/-- The shortest frames: 5 bytes with a four-byte FCS, 3 with a two-byte one; 2047 is the longest. -/
theorem test_phr : (search 7 (headed 5)).laneFrame 127 = some (headed 5) ∧
    (search 7 found).get DMD.SFDCFG.MAXLEN = 2047 ∧ isGlr found.mode = false ∧
    (fedFrame (search 7 (headed 5)) (headed 5) []).infoBits.length = 16 ∧
    (after (.phrReceived 127 []) (search 7 (headed 0x0005))).frm.frames.map (·.len) = [5] ∧
    (after (.phrReceived 127 []) (search 7 (headed 0x1003))).frm.frames.map (fun f => (f.len, f.fcs2)) = [(3, true)] ∧
    (after (.phrReceived 127 []) (search 7 (headed 0x0FFF))).frm.frames.map (fun f => (f.len, f.white)) =
      [(2047, true)] ∧
    (after (.phrReceived 127 []) (search 7 (headed 0x0004))).frm.frames = [] := by decide +kernel

/-- Fifteen symbols of a block had a large error. -/
def worn : RxFrame := { found with
  stage := 1, rx := { level := 1638400000, win := [0, 1638400000], found := some false, blockN := 15, blockSum := 1 } }
def diverging : State := having [(DMD.LDFE.DFEMODE.i 127, 2), (DMD.LDFE.DIVTH.i 127, 0)] (search 7 worn)

theorem test_dfeBlockCheck : diverging.laneFrame 127 = some worn ∧ worn.restored = false ∧
    (fedFrame diverging worn [(25000, 0)]).rx.restores = 1 ∧
    (after (.dfeBlockCheck 127 [(25000, 0)]) diverging).is DMD.STICKY.DFERST = true := by decide +kernel

theorem test_energyInHold : (lane 3).laneState 127 = 3 ∧ (lane 3).getS (DMD.LFIND.RSSITH.i 127) < -99 ∧
    (lane 3).laneInput 127 = true ∧ (after (.energyInHold 127 (-99) 5) (lane 3)).is DMD.STICKY.BUFBUSY = true := by decide +kernel
/-! Transmissions. -/

/-- One band from 599 to 601 MHz with a duty limit, a plan of one channel at 600 MHz, both ports on. -/
def permitted : State := having [(CHZ.PLANF0.F0, 600000), (CHZ.PLANSP.NCH, 1), (RFE.PCFG.EN.i 0, 1), (RFE.PCFG.EN.i 1, 1),
    (DUT.SBSW.DUTY.i 0, 100), (DUT.SBSW.SWEN.i 0, 1), (DUT.SBOTP0.EN.i 0, 1), (DUT.SBOTP0.FLO.i 0, 599000), (DUT.SBOTP1.FHI.i 0, 601000)]
  { State.reset with otp := { region := 1, bands := [{ flo := 599000, fhi := 601000, en := true, eirp := 20, duty := 100 }] } }

/-- 20 octets in mode 0 with a preamble of 8, due at TB 1000. -/
def run (w : TxWhat) : TxRun := { what := w, vi := 0, w0 := 22, w1 := 8 * 2 ^ 22 + 2 ^ 20, octets := List.replicate 20 0, start := 1000 }
def chainOf (x : ChainSt) : State := { permitted with txp := { chains := [x, {}] }, clk := { tb := 968 } }
def queuedRun : TxRun := run (.queued 0 { sf := 0, idx := 0, vi := 0, w0 := 0, w1 := 0, chan := 0, lane := some 5 })

/-- `admitted`, as a test in sub-band 0. -/
def admittedB (s : State) (c : Nat) (r : TxRun) : Bool :=
  (s.txChain c).busy.isNone && s.domOn Dom.tx && s.rampTbAt c r ≤ s.tb && s.wordsOk c r &&
    (16220 ≤ s.firSum c r.shape && s.firSum c r.shape ≤ 16548) && !s.is BOB.CTRL.RJONLY &&
    (match s.dutyCheck (s.emissionOf c r) with | .ok sb => sb == 0 | _ => false)

def armedRun : State := having [(TXP.CDSTAT.ARMED, 1)] (chainOf { runs := [run .direct], direct := true })

theorem test_txRampUp : armedRun.txp.chains.length = 2 ∧ armedRun.rfe.ports.length = 2 ∧ armedRun.nextRun 0 = some (run .direct) ∧
    (beforeRampUp armedRun 0 (run .direct)).nextRun 0 = some (run .direct) ∧
    admittedB (beforeRampUp armedRun 0 (run .direct)) 0 (run .direct) = true ∧
    (let t := after (.txRampUp 0) armedRun
     t.is TXP.STAT.BUSY0 = true ∧ t.portState 0 = 2 ∧ t.is TXP.CDSTAT.RUN = true ∧ t.is TXP.CDSTAT.ARMED = false ∧
       ((t.txChain 0).runs.map fun x => (x.phase, x.rampAt)) = [(1, 968)]) := by decide +kernel

def acked : State := chainOf { runs := [run (.ack 3 0)] }

theorem test_ackDue : acked.nextAck 0 = some (run (.ack 3 0)) ∧
    (beforeAck acked 0 (run (.ack 3 0))).nextAck 0 = some (run (.ack 3 0)) ∧
    admittedB (beforeAck acked 0 (run (.ack 3 0))) 0 (run (.ack 3 0)) = true ∧ (after (.ackDue 0) acked).is TXP.STAT.BUSY0 = true ∧
    (having [(PWR.STAT.DOMON, 0x1BF)] acked).domOn Dom.tx = false ∧
    (after (.ackDue 0) (having [(PWR.STAT.DOMON, 0x1BF)] acked)).is FRM.STICKY.ACKMISS = true := by decide +kernel

def external : State := having [(RFE.PCFG.PAPATH.i 0, 1)] armedRun

theorem test_externalPaEnable : external.is (RFE.PCFG.PAPATH.i (external.chainPort 0)) = true ∧
    leastBy (external.rampTbAt 0) ((external.txChain 0).runs.filter fun r =>
        r.phase == 0 && (r.isAck || r.isDirect || !(external.txChain 0).direct))
      = some (run .direct) ∧ ((after (.externalPaEnable 0) external).rfPort 0).epa = true := by decide +kernel

/-- A run in a phase, ramping since TB 968. -/
def inPhase (r : TxRun) (p : Nat) : State := chainOf { runs := [{ r with phase := p, rampAt := 968, ramp := 32, tb := 1000, air := 1200 }] }

theorem test_txPhases : ((inPhase (run .direct) 1).txChain 0).busy = some { run .direct with phase := 1, rampAt := 968, ramp := 32, tb := 1000, air := 1200 } ∧
    (((after (.txPreambleStart 0 63) (inPhase (run .direct) 1)).txChain 0).runs.map fun x => (x.phase, x.tb, x.fine)) = [(2, 1000, 63)] ∧
    (((after (.txLastBit 0) (inPhase (run .direct) 2)).txChain 0).busy.map (·.phase)) = some 3 ∧
    (let t := after (.txRampDownEnd 0) (inPhase (run .direct) 3)
     t.is TXP.STAT.BUSY0 = false ∧ t.is TXP.CDSTAT.DONE = true ∧ (t.rfPort 0).exitAt = some (1000 + 400 + 32 + 80)) := by
  decide +kernel

theorem test_txLastBit_waits : ((inPhase { queuedRun with ackReq := true } 2).txChain 0).busy.isSome = true ∧
    (inPhase { queuedRun with ackReq := true } 2).shu.disturbed = false ∧
    (after (.txLastBit 0) (inPhase { queuedRun with ackReq := true } 2)).shu.waits.map (fun w => (w.lane, w.ends)) = [(5, 1400)] := by
  decide +kernel

def leaving : State := having [(RFE.PCFG.EN.i 1, 1), (RFE.STAT.P1STATE, 2)] { State.reset with rfe := { ports := [{}, { exitAt := some 9 }] } }

theorem test_portTxExit : (leaving.rfPort 1).exitAt = some 9 ∧ (after (.portTxExit 1) leaving).get (portFld 1) = 1 := by decide +kernel

theorem test_direct : opens permitted (TXP.CDCTRL.i 1) 0 true = true ∧ (permitted.txChain 1).runs.any TxRun.isDirect = false ∧
    (permitted.txChain 1).freeBuffer.isSome = true ∧ permitted.ecc.bad = [] ∧ permitted.ecc.fresh = [] ∧
    (((after (.directWakeGo dn0 1 true) permitted).txChain 1).runs.map (·.what)) = [.wake] ∧
    (after (.directFrameGo dn0 1 true) permitted).is (TXP.CDSTAT.ARMED.i 1) = true ∧
    opens armedRun (TXP.CDCTRL.i 0) 0 true = true ∧ (armedRun.txChain 0).runs.any TxRun.isDirect = true ∧
    (after (.directFrameGo dn0 0 true) armedRun).is TXP.STICKY.DBUSY = true ∧
    (armedRun.txChain 0).direct = true ∧
    (let u := chainOf { runs := [run .direct] }
     (u.txChain 0).direct = false ∧ u.clk.nextTick = 0 ∧ (((after (.directDue 0) u).txChain 0).runs.map (·.start)) = [1000]) := by
  decide +kernel

/-- On air with the limit -20 dBc, MWIN 10 and an ACTION. -/
def masked (action : Nat) : TxRun :=
  { run .direct with phase := 2, tb := 1000, air := 1203, masks := [0xEC000000, 0xEC000000, 0x0A00 + action] }

theorem test_maskEvaluate : ((chainOf { runs := [masked 1] }).txChain 0).busy = some (masked 1) ∧
    1000 + 40 * (bits 0x0A01 15 8) < 1000 + ceilDiv 1203 3 ∧
    (after (.maskEvaluate 0 0 (-19) (-128)) (chainOf { runs := [masked 1] })).is TXP.STICKY.MASKVIO = true ∧
    (after (.maskEvaluate 0 0 (-20) (-128)) (chainOf { runs := [masked 1] })).is TXP.STICKY.MASKVIO = false ∧
    (after (.maskEvaluate 0 0 (-19) (-128)) (chainOf { runs := [masked 2] })).is TXP.STICKY.MASKAB = true := by
  decide +kernel

theorem test_dutyRolls : State.reset.domOn Dom.mac = true ∧ State.reset.is CLK.CTRL.TICKEN = false ∧
    (after .dwellRoll .reset).dut.dwellAt = 8000000 ∧
    (let s := having [(CLK.CTRL.TICKEN, 1)] { State.reset with clk := { lastTick := 240000000 } }
     s.dut.rollAt ≤ s.clk.lastTick ∧ (after .bucketRoll s).dut.rollNo = 1) := by decide +kernel

/-! The Mover, tenancy, keys, flash and the debug port. -/

/-- Channel 15 in state MOVE with a descriptor of an operation: 16 bytes from 0x20000100 to 0x20000204. -/
def descriptor (op : Nat) : List Nat := [op * 2 ^ 19, 0x20000100, 0x20000204, 0, 16, 0, 0, 0]
def moving (op : Nat) (m : MovCh) : State := having [(MOV.CSTAT.STATE.i 15, 2)]
  { holding [(0x20000100, 0x04030201), (0x20000104, 0x08070605)] with
    mov := { chans := List.replicate 15 {} ++ [{ m with desc := some (descriptor op) }] } }

/-- `MovesTo`, as a test. -/
def movesTo (s : State) (c : Fin 16) (d : List Nat) (op n a : Nat) : Bool :=
  s.mov.chans.length == 16 && s.domOn Dom.core && s.get (MOV.CSTAT.STATE.i c) == 2 && (s.movCh c).desc == some d && dOp d == op &&
    (s.movCh c).moving && (s.movCh c).status == none && (s.movCh c).moved < dTotal d && beatDst (s.movCh c) d == a &&
    n == min (8 - a % 8) (dLen d - (s.movCh c).moved % dLen d) && 0x20000000 ≤ a && a + n ≤ 0x20200000 &&
    s.route (moverOf c) a true == .mem a && s.pwr.closing == 0 && s.ecc.bad == [] && s.ecc.fresh == []

theorem test_moverBeats : movesTo (moving 0 { moving := true }) 15 (descriptor 0) 0 4 0x20000204 = true ∧
    movesTo (moving 1 { moving := true }) 15 (descriptor 1) 1 4 0x20000204 = true ∧
    movesTo (moving 2 { moving := true, moved := 12 }) 15 (descriptor 2) 2 4 0x20000210 = true ∧
    beatSrc ((moving 0 { moving := true }).movCh 15) (descriptor 0) = 0x20000100 ∧ isRegister 0x20000100 = false ∧
    bankAt 0x20000100 = none ∧ (moving 0 {}).route (moverOf 15) 0x20000100 false = .mem 0x20000100 ∧
    (after (.moverCopy 15 1) (moving 0 { moving := true })).word 0x20000204 = 0x04030201 ∧
    (after (.moverFill 15 1) (moving 1 { moving := true })).word 0x20000204 = 0x20000100 ∧
    (after (.moverCopy2d 15 1) (moving 2 { moving := true, moved := 12 })).word 0x20000210 = 0 := by decide +kernel

theorem test_moverEnds : (after (.moverReservedOp 15) (moving 3 {})).get (MOV.CSTAT.STATE.i 15) = 4 ∧
    (after (.moverReservedOp 15) (moving 3 {})).is MOV.STICKY.ERR = true ∧
    dTotal (descriptor 0) = 16 ∧ dWord (descriptor 0) 3 / 32 = 0 ∧
    (after (.moverDescriptorDone 15) (moving 0 { moving := true, moved := 16 })).stm.pulses = [(28, 0)] := by decide +kernel

def described : State := having [(MOV.CDESC.ADDR.i 0, 0x20000040 / 32)] (holding [(0x20000040, 2 ^ 19)])

theorem test_moverGo : opens described (MOV.CCTRL.GO.i 0) 0 true = true ∧ described.moverActive 0 = false ∧
    descPlace 0x20000040 = true ∧ described.route (moverOf 0) 0x20000040 false = .mem 0x20000040 ∧
    bitOf (described.load 0x20000040 4) 21 = 0 ∧ described.mov.chans.length = 16 ∧
    (let t := after (.moverGo dn0 0 3) described
     t.get (MOV.CSTAT.STATE.i 0) = 2 ∧ t.get (MOV.CCTRL.PRIO.i 0) = 3 ∧ (t.movCh 0).desc = some [2 ^ 19, 0, 0, 0, 0, 0, 0, 0] ∧
       ((after (.moverStop dn0 0 3) t).movCh 0).stop = true) ∧
    (after (.moverStop dn0 0 0) (having [(MOV.CSTAT.STATE.i 0, 1)])).get (MOV.CSTAT.STATE.i 0) = 0 := by decide +kernel

/-- VI 9 closes; its quota is the last 8 KiB of frame memory. -/
def closing (ticked : List Nat) : State := { having [(ten VIF.TENA0.STATE 9, 2), (ten VIF.TENC0.FMBASE 9, 127),
  (ten VIF.TENC0.FMSIZE 9, 1), (PAT.SFCFG.VI.i 31, 9), (PAT.SFCFG.EN.i 31, 1)] (holding [(0x300FE000, 7), (0x300FDFFC, 8)]) with
  vif := { ticked, due := [9] } }

theorem test_viClose : (closing []).get (ten VIF.TENA0.STATE 9) = 2 ∧ (closing []).domOn Dom.mac = true ∧ 9 ∈ (closing []).vif.due ∧
    (after (.viCloseTick 9) (closing [])).vif.ticked = [9] ∧ (after (.viCloseTick 9) (closing [])).is (PAT.SFCFG.EN.i 31) = false ∧
    (let t := after (.viCloseComplete 9) (closing [9])
     t.get (ten VIF.TENA0.STATE 9) = 0 ∧ t.is VIF.STICKY.CLOSED = true ∧ t.word 0x300FE000 = 0 ∧ t.word 0x300FDFFC = 8) := by
  decide +kernel

def entropyRuns : State := having [(SEC.ENTSTAT.STATE, 1)] { State.reset with sec := { raw := 1024, fails := [1000], pool := [6, 7] } }

theorem test_entropy : opens .reset SEC.ENTCTRL 0 true = true ∧ State.reset.get SEC.ENTSTAT.STATE = 0 ∧
    (after .entropyStartupDone .reset).get SEC.ENTSTAT.STATE = 1 ∧ (after (.entropyRestart dn0) entropyRuns).sec.fails = [] ∧
    (after (.entropyBlock none) entropyRuns).sec.pool.length = 6 ∧ entropyRuns.sec.pool.length ≤ 32 ∧
    2 ≤ (entropyRuns.sec.fails.filter fun f => 1024 + 511 + 1 < f + 65536).length + 1 ∧
    (after (.entropyBlock (some 511)) { entropyRuns with sec := { entropyRuns.sec with fails := [1000, 1001] } }).is SEC.STICKY.ENTFAIL
      = true ∧ opens .reset SEC.RNG 0 false = true ∧
    (after (.rngRead dn0 0) .reset).is SEC.STICKY.RNGEMPTY = true ∧ (after (.rngRead dn0 0) entropyRuns).answered dn0 = 6 := by
  decide +kernel

/-- A queue of two entries at the end of SRAM, enabled; its head descriptor asks for BLANK of one sector of bank B. -/
def queued : State := having [(FLC.QBASE.ADDR.i 7, 0x201FFFE0 / 16), (FLC.QCFG.EN.i 7, 1), (FLC.QCFG.LOG2N.i 7, 1), (FLC.QTAIL.IDX.i 7, 1)]
  (holding [(0x201FFFE0, 3 * 2 ^ 16 + 1), (0x201FFFE4, 0x087F0000)])

theorem test_queueEnable : (let s := having [(FLC.QBASE.ADDR.i 7, 0x201FFFE0 / 16)]
    opens s (FLC.QCFG.i 7) 0 true = true ∧ s.flc.step = 0 ∧ s.is (FLC.QCFG.EN.i 7) = false ∧ s.flc.banks.length = 2 ∧
      inDataMemory (s.get (FLC.QBASE.ADDR.i 7) * 16) (16 * 2 ^ 1) = true ∧
      inDataMemory (s.get (FLC.QBASE.ADDR.i 7) * 16) (16 * 2 ^ 2) = false ∧
      (after (.queueEnable dn0 7 0x80000001) s).is (FLC.QCFG.EN.i 7) = true ∧
      (after (.queueEnable dn0 7 0x80000002) s).is (FLC.QCFG.EN.i 7) = false) := by decide +kernel

theorem test_queueSubmit : (let s := having [(FLC.QTAIL.IDX.i 7, 0)] queued
    opens s (FLC.QTAIL.i 7) 0 true = true ∧ s.flashRing 7 = 2 ∧ s.get (FLC.QHEAD.IDX.i 7) = 0 ∧
      (1 + 2 - 0) % 2 ≤ (0 + 2 * 2 - 1 - 0) % 2 ∧ (after (.queueSubmit dn0 7 1) s).get (FLC.QTAIL.IDX.i 7) = 1) := by
  decide +kernel

theorem test_flashStart : queued.reachable Dom.nvm = true ∧ (queued.bank 1).op = none ∧ queued.flc.waits = none ∧
    queued.nextQueue 1 = some 7 ∧ queued.flashDescOk (queued.flashHead 7) = true ∧ queued.is DBG.STAT.ERASING = false ∧
    (let t := after (.flashDescriptorStart 1) queued
     t.get FLC.STAT.BSTATEB = 2 ∧ (t.bank 1).op.map (fun o => (o.kind, o.queue, o.addr)) = some (3, some 7, 0x087F0000)) := by
  decide +kernel

def flashing (o : FlashOp) : State := { queued with flc := { banks := [{}, { op := some o }] } }
def program : FlashOp := { queue := none, kind := 1, addr := 0x087FFFF0, first := 0, done := 0, count := 1, daddr := 0
                           data := List.range 16, noSusp := false, free := true }

theorem test_flashEnds : ((flashing program).bank 1).op = some program ∧ bankAt program.addr = some 1 ∧ program.data.length = 16 ∧
    (let t := after (.flashProgramDone 1) (flashing program)
     t.octets 0x087FFFF0 16 = List.range 16 ∧ t.is FLC.STICKY.PDONE = true) ∧
    ((after (.flashEraseDone 1) (flashing { program with kind := 2, addr := 0x087F0000 })).bank 1).op = none ∧
    (let t := after (.flashBlankDone 1) (flashing { program with kind := 3, addr := 0x087F0000, queue := some 7 })
     t.is FLC.STICKY.QDONE = true ∧ t.get (FLC.QHEAD.IDX.i 7) = 1) := by decide +kernel

theorem test_flashSuspends : (flashing program).suspHeld 1 = false ∧
    (let t := after (.flashSuspended 1) (flashing { program with asked := true })
     t.get FLC.STAT.BSTATEB = 3 ∧ (t.bank 1).op.map (·.paused) = some true ∧
       (after (.flashResume 1) t).get FLC.STAT.BSTATEB = 1) ∧
    (after (.flashStarveTimeout 1) (flashing program)).is FLC.STICKY.STARVE = true ∧
    (flashing program).route dn0 0x087FFFFC false = .mem 0x087FFFFC ∧ bankAt 0x087FFFFC = some 1 ∧
    (flashing program).is FLC.CTRL.AUTOSUSP = true ∧
    ((after (.flashReadBusyBank dn0 0x087FFFFF) (flashing program)).bank 1).op.map (·.asked) = some true ∧
    opens .reset FLC.CTRL 0 true = true ∧ (after (.flashSuspWrite dn0 8) .reset).is FLC.CTRL.SUSPB = true := by decide +kernel

def atStep (n : Nat) : State := having [(FLC.CMD.OP, 2)] { State.reset with flc := { step := n } }

theorem test_flashUnlock : opens .reset FLC.UNLK 0 true = true ∧ State.reset.dn0Machine dn0 = true ∧
    State.reset.dn0Machine (.core 1) = false ∧ opens .reset FLC.UNLK 0 true (.core 1) = true ∧
    (after (.flashUnlock dn0 0x7F3A) .reset).flc.step = 1 ∧ (after (.flashUnlock dn0 0x2C91) (atStep 1)).flc.step = 2 ∧
    (after (.flashUnlock (.core 1) 0x7F3A) .reset).is FLC.STICKY.UNLKREF = true := by decide +kernel

theorem test_privileged : (atStep 7).is FLC.PSTAT.BUSY = false ∧ opens (atStep 7) (FLC.DATA.i 3) 0 true = true ∧
    opens (atStep 3) FLC.ADDR 0 true = true ∧ (atStep 3).get FLC.CMD.OP = 2 ∧
    (after (.privilegedProgram dn0 5) (atStep 7)).is FLC.PSTAT.BUSY = true ∧
    ((after (.privilegedErase dn0 0x08000000) (atStep 3)).flc.waits.map fun x => (x.1, x.2.1)) = some (2, 0x08000000) ∧
    (after .unlockPauseRelock (atStep 1)).tb = 41 := by decide +kernel

theorem test_seal : opens .reset DBG.SEAL 0 true = true ∧ State.reset.lockState = lockOpen ∧
    (let t := after (.sealWrite dn0 0x5E1D) .reset
     t.lockState = lockSealed ∧ t.word 0x2803FCA4 = 0xFFFFFFFF - lockSealed) ∧
    (after (.sealWrite (.core 1) 0x5E1D) .reset).is DBG.STICKY.DREF = true ∧ opens .reset (markFld 5) 0 true = true ∧
    (after (.secmapWrite dn0 5 0xFF) .reset).get (markFld 5) = 0x7F ∧
    (after (.secmapWrite dn0 5 0xFF) .reset).word 0x2803FCD8 = 0x7F := by decide +kernel

def debugged : State := { holding [(0x20000000, 6)] with dbg := { ir := 0x08 } }

theorem test_debugPort : debugged.debugging = true ∧ debugged.dn.cores.length = 2 ∧
    (let t := after (.debugHalt 1) debugged
     (t.core 1).held = true ∧ t.is DBG.STAT.DBGCONN = true ∧ ((after (.debugStep 1) t).core 1).step = true ∧
       (after (.debugResume 1) t).is DBG.STAT.DBGCONN = false) ∧
    (after (.debugAccess (.breakpoint 0 0x20000100 true) none) debugged).dbg.breaks = [(0, 0x20000100)] ∧
    (after (.debugAccess (.control 0 0) none) debugged).answered .debug = 0x80000000 ∧
    debugged.route .debug 0x201FFFFC true = .mem 0x201FFFFC ∧
    (after (.debugAccess (.mem 0x201FFFFC 2) (some 9)) debugged).word 0x201FFFFC = 9 ∧
    (after .extest .reset).dbg.ir = 0 := by decide +kernel

/-- A core at the reload routine's address, which the empty ROM gives as 0, with a mask and a return address. -/
def calling : State := { State.reset with dn := { cores := [{ DnCore.reset 0 with ds := [8], rs := [0x20000100] }, DnCore.reset 1] } }

theorem test_reloadRoutine : calling.coreRuns 0 = true ∧ calling.fetchFault 0 (calling.core 0).pc false = none ∧
    (calling.core 0).pc = calling.word 0x200 / 2 * 2 ∧ calling.reloadStatus 8 = Status.prot ∧
    ((after (.reloadRoutine 0) calling).core 0).ds = [Status.prot] ∧
    ((after (.reloadRoutine 0) calling).core 0).pc = 0x20000100 ∧ calling.upd.code.length = 3 ∧
    (let s := having [(UPD.BOOTSTAT.WARM, 1)]
       { calling with dn := { cores := [{ DnCore.reset 0 with ds := [0], rs := [0x20000100] }, DnCore.reset 1] } }
     s.coreRuns 0 = true ∧ s.fetchFault 0 (s.core 0).pc false = none ∧ s.reloadStatus 0 = Status.ok ∧
       ((after (.reloadRoutine 0) s).core 0).ds = [Status.ok]) := by decide +kernel

/-! Received frames. -/

/-- A neighbour in context 0 with the extended address 0x0807060504030201, and no key, active. -/
def neighbour : State := next (execAlloc dn0 0 (having [((BOB.ARG.A.i 0).copy 0, 0x04030201), ((BOB.ARG.A.i 1).copy 0, 0x08070605),
  ((BOB.ARG.A.i 2).copy 0, 0x12340055), ((BOB.ARG.A.i 3).copy 0, 2 ^ 31), (FRM.FILT.PROMISC, 1)]))

theorem test_neighbour : neighbour.ctxState 0 = CtxState.active ∧ neighbour.findExt 0 0x0807060504030201 = some 0 ∧
    neighbour.findShort 0 0x1234 0x55 = some 0 := by decide +kernel

/-- A data frame, version 2, without sequence number or PANs, from that neighbour. -/
def header : List Nat := [0x41, 0xE1, 1, 2, 3, 4, 5, 6, 7, 8]
def rx (f : RxFrame) : State := { neighbour with frm := { frames := [f] } }
def receiving (n : Nat) : RxFrame := { found with stage := 1, len := 12, fcs2 := true, octets := header.take n }

/-- The PHR and nine octets have been received, and the bits of the tenth, 8. -/
def tenth : RxFrame := { receiving 9 with rx := { found := some false, bits := (msbFirst 16 0x100C ++ header.flatMap (lsbFirst 8)).reverse } }

theorem test_psduByte : (rx tenth).laneFrame 127 = some tenth ∧ (rx tenth).frameAt 127 0 = some tenth ∧ tenth.octets.length < tenth.len ∧
    24 + 8 * 9 ≤ (fedFrame (rx tenth) tenth []).infoBits.length ∧
    (after (.psduByte 127 []) (rx tenth)).frm.frames.map (·.octets) = [header] := by decide +kernel

theorem test_addressVerdict : (receiving 10).atVerdict = true ∧ (rx (receiving 10)).bob.repairs = [] ∧
    ((List.range 16).filter fun v => (rx (receiving 10)).viAccepts v (receiving 10).mac false) = [0] ∧
    ((receiving 10).mac.badFc || (receiving 10).mac.cut) = false ∧ (receiving 10).malformed = false ∧
    (receiving 10).mac.kind = 1 ∧ (receiving 10).mac.src = some 0x0807060504030201 ∧ (receiving 10).mac.sm = 3 ∧
    (rx (receiving 10)).viAccepts 0 (receiving 10).mac false = true ∧ acceptedBy (rx (receiving 10)) (receiving 10) = 1 ∧
    (rx (receiving 10)).ctxState 0 = CtxState.active ∧ (after (.addressVerdict 127) (rx (receiving 10))).frm.frames.map (·.verdict) = [some ⟨1, false, 1, 0⟩] ∧
    (after (.addressVerdict 127) (having [(FRM.FILT.PROMISC, 0)] (rx (receiving 10)))).frm.frames.map (·.verdict) =
      [some ⟨0, false, 0, 0⟩] := by decide +kernel

def ended (fcs : List Nat) : RxFrame := { receiving 10 with octets := header ++ fcs, verdict := some ⟨0, false, 0, 0⟩ }

theorem test_frameEnd : (let f := ended (fcsOf true header)
    fcsOf f.fcs2 f.body = f.octets.drop f.total ∧ f.octets.length = f.len ∧ (rx f).dmd.lanes.length = 128 ∧
      ((rx f).lane 127).counts.length = 10 ∧ f.rx.lqi ((rx f).rxOf f) = 255 ∧
      (after (.frameEnd 127 [] () () () ()) (rx f)).get (DMD.LSTAT.LQI.i 127) = 255 ∧
      ((after (.frameEnd 127 [] () () () ()) (rx f)).lane 127).counts.getD 4 0 = 1) ∧
    (let f := ended [0, 0]
     fcsOf f.fcs2 f.body ≠ f.octets.drop f.total ∧
       (after (.frameEnd 127 [] () () () ()) (rx f)).is DMD.STICKY.FCSERR = true) := by decide +kernel

/-- A processed frame whose copy for VI 0 is ready, and a ring of 16 entries of 256 bytes. -/
def ready : RxFrame := { ended (fcsOf true header) with stage := 3, copies := [0], plain := [9, 8, 7] }
def ring : State := having [(FRM.RINGCFG.EN, 1), (FRM.DATABASE.OFF, 8), (FRM.WRIDX.IDX, 15)] (rx ready)

theorem test_deliveryWrite : ring.firstFor 0 = some ready ∧ ready.ready = true ∧ ring.heldByMigration ready = false ∧
    ring.ringFits 0 = true ∧ ring.entriesFor 0 3 = 1 ∧
    (let t := after (.deliveryWrite 0) ring
     t.get FRM.WRIDX.IDX = 0 ∧ t.octets (Base.fram + 8 * 256 + 256 * 15) 3 = [9, 8, 7] ∧ t.is FRM.STICKY.RXAVAIL = true ∧
       t.frm.frames = []) := by decide +kernel

def ringOff : State := having [(FRM.DATABASE.OFF, 8)]

theorem test_ringRegisters : opens ringOff FRM.RINGCFG 0 true = true ∧ ringOff.is FRM.RINGCFG.EN = false ∧
    ringOff.get FRM.RINGCFG.LOG2N = 4 ∧ ringOff.ringFits 0 = true ∧ State.reset.ringFits 0 = false ∧
    (after (.ringCfgWrite dn0 0 10) ringOff).get FRM.RINGCFG.LOG2N = 10 ∧
    (after (.ringCfgWrite dn0 0 0x80000004) ringOff).is FRM.RINGCFG.EN = true ∧
    (after (.ringCfgWrite dn0 0 0x80000004) .reset).is FRM.STICKY.RINGERR = true ∧ opens ring FRM.RDIDX 0 true = true ∧
    (15 + 16 - 0) % 16 ≤ (15 + 16 - 0) % 16 ∧ (after (.rdidxWrite dn0 0 15) ring).get FRM.RDIDX.IDX = 15 := by decide +kernel

/-- A frame received in a cell, whose acknowledgement is due 1 ms after its end. -/
def owing : RxFrame := { ended (fcsOf true header) with
  stage := 3, tb := 1000, ackRequired := true, verdict := some ⟨1, true, 1, 0⟩
  cell := some { sf := 0, idx := 0, vi := 0, w0 := 0, w1 := 0, chan := 0, t := { txackd := 1000 } } }
def owes (tb : Nat) : State := having [(SHU.CTRL.RUN, 1)] { rx owing with clk := { tb, nextTick := 40000 } }

theorem test_ackBuilt : (owes 13848).frameAt 127 0 = some owing ∧ owing.mac.sec = false ∧ (owes 13848).shu.disturbed = false ∧
    (owes 13848).pairRuns = true ∧ ((owes 13848).txChain 0).freeBuffer = some 0 ∧ owing.job = 0 ∧ (owes 13848).txp.chains.length = 2 ∧ ((owes 13848).txChain 0).direct = false ∧
    ¬(13848 * 64 > (owes 13848).ackTime owing - ((owes 13848).rampTb 0 + 80) * 64) ∧
    13849 * 64 > (owes 13849).ackTime owing - ((owes 13849).rampTb 0 + 80) * 64 ∧
    ((after (.ackBuilt 127 0 13848) (owes 13848)).txChain 0).runs.map (·.what) = [.ack 127 0] ∧
    (after (.ackBuilt 127 0 13849) (owes 13849)).is FRM.STICKY.ACKMISS = true := by decide +kernel

/-- An acknowledgement without addresses or sequence number, and the wait that it meets. -/
def ackFrame : RxFrame := { ended [] with octets := [0x02, 0x21] ++ fcsOf true [0x02, 0x21], len := 4, stage := 3, awaits := true }
def waited : AckWait := ⟨127, { sf := 0, idx := 0, vi := 0, w0 := 0, w1 := 0, chan := 0 }, 0x100, header, 500⟩
def awaiting (ws : List AckWait) : State := having [(SHU.CTRL.RUN, 1)]
  { State.reset with frm := { frames := [ackFrame] }, shu := { waits := ws } }

theorem test_ackMatch : (awaiting []).frameAt 127 0 = some ackFrame ∧ (awaiting []).pairRuns = true ∧
    (after (.ackMatch 127 0) (awaiting [])).is FRM.STICKY.ACKSTRAY = true ∧
    (((awaiting [waited]).shu.waits.find? fun w => w.meets ackFrame && (awaiting [waited]).ackVerifies w ackFrame) = some waited) ∧
    (awaiting [waited]).ctxState ((awaiting [waited]).waitCtx waited) = CtxState.free ∧
    (awaiting [waited]).is (SHU.VISTAT.TSV.copy (awaiting [waited]).tvi) = false ∧
    (after (.ackMatch 127 0) (awaiting [waited])).shu.waits = [] := by decide +kernel

theorem test_ackTimeout : (let s := { awaiting [waited] with frm := {} }
    s.pairRuns = true ∧ s.laneFrame 127 = none ∧ (after (.ackTimeout 127) s).shu.waits = [] ∧
      (after (.ackTimeout 127) s).tb = 500) := by decide +kernel

/-- A frame whose verification waits, runs, and falls under a handover's two slots with its counter taken already. -/
def verifying : RxFrame := { owing with job := 1 }
def securing : TxJob := { cell := 0, vi := 0, ctx := 0, slot := 3, octets := header, secret := List.replicate 16 1 }

theorem test_frameJobStart_answer : (rx { owing with job := 4, ackCounter := some 7 }).nextVerify true =
      some { owing with job := 4, ackCounter := some 7 } ∧
    (after .frameJobStart (rx { owing with job := 4, ackCounter := some 7 })).sec.frame = some (.answer 127 0) ∧
    (after (.txSecureDone 0) { rx { owing with job := 5 } with sec := { frame := some (.answer 127 0) } }).frm.frames.map (·.job) = [6] := by
  decide +kernel

theorem test_frameJobStart : (rx verifying).nextVerify true = some verifying ∧ (rx verifying).runsP = false ∧
    (rx verifying).sec.frame = none ∧ (after .frameJobStart (rx verifying)).sec.frame = some (.verify 127 0) ∧
    (let s := { State.reset with shu := { jobs := [securing] } }
     s.nextVerify true = none ∧ s.nextVerify false = none ∧ (s.shu.jobs.find? (·.stage == 0)) = some securing ∧
       (after .frameJobStart s).sec.frame = some (.secure 0)) := by decide +kernel

def verifyRuns (f : RxFrame) : State := { rx f with sec := { frame := some (.verify 127 0) } }

/-- A secured frame with its counter 1, at a level, from context 0 with a result, and some octets after its header. -/
def secured (level res : Nat) (rest : List Nat) : RxFrame := { owing with
  octets := [0x49, 0xE1, 1, 2, 3, 4, 5, 6, 7, 8, level, 1, 0, 0, 0] ++ rest ++ [0, 0], len := 17 + rest.length
  secret := List.replicate 16 1, verdict := some ⟨1, false, res, 0⟩ }

/-- A MIC that the frame is too short for, from a superseded context; and a frame whose counter was accepted in slot H. -/
theorem test_frameVerifyDone : (verifyRuns owing).frameAt 127 0 = some owing ∧
    (after (.frameVerifyDone 2) (verifyRuns owing)).is SEC.STICKY.DUALFAIL = true ∧
    (let f := secured 5 2 [0]; let s := verifyRuns f
     (openFrame f.secret (s.ctxEui 0) f.asn f.mac f.body).1 = false ∧
       (after (.frameVerifyDone 0) s).is BOB.STICKY.SUPERSRX = true) ∧
    (let f := secured 4 1 [0]; let s := { verifyRuns f with bob := { seen := [{ ctx := 0, base := none, got := [1] }] } }
     (openFrame f.secret (s.ctxEui 0) f.asn f.mac f.body).1 = true ∧ s.checkCounter 0 f.asn f.mac = .duplicate ∧
       (after (.frameVerifyDone 0) s).frm.frames = []) := by decide +kernel

def secureRuns : State := { State.reset with sec := { frame := some (.secure 0) }, shu := { jobs := [{ securing with stage := 1 }] } }

theorem test_txSecureDone : (secureRuns.shu.jobs.find? (·.cell == 0)) = some { securing with stage := 1 } ∧
    (after (.txSecureDone 0) secureRuns).shu.jobs.map (·.stage) = [2] ∧
    (after (.txSecureDone 2) secureRuns).is SEC.STICKY.DUALFAIL = true := by decide +kernel

/-! The Pattern RAM and the Shuttle. -/

/-- Index 8191 of the cell area, or entry 1023 of the hop area. -/
def atCell : State := having [(PAT.TADDR.INDEX.copy (iniCopy dn0), 8191), (PAT.TADDR.AINC.copy (iniCopy dn0), 1),
  (PAT.TDATA0.D.copy (iniCopy dn0), 0xB06400F8)]
def atHop : State := having [(PAT.TADDR.INDEX.copy (iniCopy dn0), 1023), (PAT.TADDR.AREA.copy (iniCopy dn0), 1)]

theorem test_patternWrites : atCell.patOwned 0 0 8191 true = true ∧ opens atCell PAT.TDATA0 0 true = true ∧
    opens atCell PAT.TDATA1 0 true = true ∧ opens atCell PAT.TDATA1 0 false = true ∧
    (∀ h < 32, atCell.sfOn h = true → atCell.sfHas h 8191 = false) ∧
    (after (.patternTdata0Write dn0 0 7) atCell).get (PAT.TDATA0.D.copy (iniCopy dn0)) = 7 ∧
    (let t := after (.patternCellCommit dn0 0 0xFFFE5FFF) atCell
     t.cellWord 8191 0 = 0xB06400F8 ∧ t.cellWord 8191 1 = 0xFFFE5FE0 ∧ t.get (PAT.TADDR.INDEX.copy (iniCopy dn0)) = 0) ∧
    (after (.patternCellCommit dn0 0 0xFFFEFFFF) atCell).is PAT.STICKY.RSVD = true ∧
    (after (.patternDataRead dn0 0 true) atCell).answered dn0 = 0 ∧
    (after (.patternTdata0Write dn0 0 0x12345678) atHop).patWord (hopAt 1023) = 0x5678 := by decide +kernel

/-- Cell 8191 as it was written, in the range of slotframe 31. -/
def framed : State := having [(PAT.SFRANGE.FIRST.i 31, 8191), (PAT.SFRANGE.COUNT.i 31, 1)]
  (next (execPatternCellCommit dn0 0 0 atCell))

theorem test_slotframes : framed.sfOn 31 = false ∧ opens framed (PAT.SFCFG.i 31) 0 true = true ∧
    opens framed (PAT.SFRANGE.i 31) 0 true = true ∧ opens framed PAT.PRESET 0 true = true ∧
    framed.sfCheck (framed.cellWord · 0) 31 8191 1 101 = true ∧ framed.sfCheck (framed.cellWord · 0) 31 8191 1 100 = false ∧
    framed.sfQuota 31 0 1 = true ∧
    (after (.slotframeEnable dn0 0 31 101) framed).is (PAT.STAT.EN.bit 31) = true ∧
    (after (.slotframeEnable dn0 0 31 100) framed).is PAT.STICKY.SFERR = true ∧
    (after (.slotframeCfgWrite dn0 0 31 true 0x1FFF2000) framed).get (PAT.SFRANGE.COUNT.i 31) = 8192 ∧
    framed.sfCheck (framed.cellsWith 8191 (2 ^ 31 + 2 * 2 ^ 28 + 31 * 8 + 3)) 31 8191 1 (framed.get (PAT.SFCFG.LEN.i 31)) = true ∧
    (after (.presetGo dn0 0 0xFFFFFE40) framed).sfOn 31 = true ∧
    (after (.presetGo dn0 0 0xFFFFFEC0) framed).is PAT.STICKY.RSVD = true := by decide +kernel

/-- Slotframe 31 on, with the ASN 99 running. -/
def hopping : State := having [(SHU.CTRL.RUN, 1)]
  { next (execSlotframeEnable dn0 0 31 101 framed) with clk := { asn := 99, nextTick := 40000 } }

theorem test_cellPrefetch : hopping.domOn Dom.mac = true ∧ (having [(CLK.CTRL.TICKEN, 1)] hopping).is CLK.CTRL.TICKEN = true ∧
    hopping.shu.next = none ∧ hopping.clk.gated = false ∧ hopping.shu.runFrom ≤ hopping.prefetchDue ∧
    (let t := after .cellPrefetch (having [(CLK.CTRL.TICKEN, 1)] hopping)
     t.tb = 38000 ∧ t.shu.next.map (fun n => (n.1, n.2.map (·.idx))) = some (100, [8191])) := by decide +kernel

/-- Only CORE on, with the tick enabled. -/
def coreOnly : State := { having [(PWR.STAT.DOMON, 7), (CLK.CTRL.TICKEN, 1), (CLK.ADJPEND.ADJ, 0xFFFF)] with
  clk := { nextTick := 40000, asn := 2 ^ 40 - 1 } }

theorem test_slotTick : coreOnly.domOn Dom.core = true ∧ coreOnly.domOn Dom.mac = false ∧ coreOnly.domOn Dom.rxn = false ∧
    coreOnly.clk.record = none ∧ coreOnly.getS CLK.ADJPEND.ADJ = -1 ∧
    (let t := after (.slotTick 200) coreOnly
     t.tb = 40000 ∧ t.clk.asn = 0 ∧ t.clk.nextTick = 79999 ∧ t.get CLK.ADJPEND.ADJ = 0) := by decide +kernel

/-- A receiving cell of the slot, with a lane, without one, or with its window open; and a transmitting one. -/
def cell : RunCell := { sf := 0, idx := 0, vi := 0, w0 := 0, w1 := 0, chan := 0, granted := true }
def slotOf (c : RunCell) (l : LaneSt := {}) : State := { State.reset with
  shu := { cells := [c], tick := 40000 }, dmd := { lanes := (List.replicate 128 {}).set 127 l } }
def loading : State := having [(SHU.CTRL.RUN, 1)] (slotOf { cell with tx := true, desc := some 64 })

theorem test_windows : (slotOf { cell with lane := some 127 }).dmd.lanes.length = 128 ∧
    ((after (.rxWindowOpen 0) (slotOf { cell with lane := some 127 })).lane 127).isOpen = true ∧
    (after (.rxWindowOpen 0) (slotOf { cell with waits := true })).is DMD.STICKY.NOLANE = true ∧
    (let s := slotOf { cell with lane := some 127 } { isOpen := true, cell := some 0 }
     (s.lane 127).cell = some 0 ∧ ((after (.rxWindowClose 0) s).lane 127).isOpen = false) ∧
    (loading.pairRuns = true ∧ loading.ecc.bad = [] ∧ loading.shu.jobs = [] ∧ (loading.txChain (loading.portChain 0)).freeBuffer = some 0 ∧ loading.txp.chains.length = 2 ∧
      loading.seamAt 0 64 = none ∧
      ((after (.stagingBufferLoad 0) loading).txChain (loading.portChain 0)).runs.map (·.start) = [40000]) ∧
    State.reset.route dn0 (Base.bobbin + 0x7FFFF) true = .mem (Base.bobbin + 0x7FFFF) ∧
    (after (.bobbinWindowWrite dn0 0x7FFFF) .reset).is BOB.STICKY.WINWR = true := by decide +kernel

/-- A descriptor of broadcast kind at FRAM 32, of a frame of 16 octets at FRAM 64. -/
def submitting : State := holding [(Base.fram + 32, 2 ^ 15 + 16), (Base.fram + 36, 64), (Base.fram + 40, 1)]

theorem test_txSubmit : opens submitting SHU.TXSUB 0 true = true ∧ submitting.inQuota 0 32 32 = true ∧
    submitting.desc 32 0 18 15 = 1 ∧ submitting.inQuota 0 (submitting.desc 32 1 19 3 * 8) 12 = true ∧
    submitting.shu.queues = [] ∧
    ((after (.txSubmit dn0 0 0x80000020) submitting).queue 0 2 1).descs.map (·.off) = [32] := by decide +kernel

def finished : State := { State.reset with shu := { done := [(5, 64, 0), (0, 2047, 63)] } }

theorem test_txdonePop : opens finished SHU.TXDONE 0 false = true ∧ (finished.shu.done.find? (·.1 == 0)) = some (0, 2047, 63) ∧
    (after (.txdonePop dn0 0) finished).answered dn0 = 0xFFF0003F + 0 ∧
    (after (.txdonePop dn0 0) finished).shu.done = [(5, 64, 0)] := by decide +kernel

/-- Two static lanes of VI 0 on the formation channel, one at each port. -/
def forms : State := having [(CHZ.PLANF0.F0, 600000), (CHZ.PLANSP.NCH, 1), (CHZ.WCFG.EN, 1), (CHZ.WCFG.EN.i 2, 1),
  (DMD.LCFG.EN.i 127, 1), (DMD.LCFG.EN.i 126, 1), (DMD.LCFG.WIN.i 126, 2), (RFE.STAT.P0STATE, 1), (RFE.STAT.P1STATE, 1)]
  { State.reset with clk := { tb := 9 } }

theorem test_viCommands : opens forms SHU.VICMD 0 true = true ∧ forms.tvi = 0 ∧ forms.slaved = false ∧
    forms.formLane 0 = true ∧ forms.formLane 1 = true ∧ (after (.join dn0 0) forms).get SHU.VISTAT.STATE = 1 ∧
    (let t := after (.form dn0 0) forms
     t.get SHU.VISTAT.STATE = 2 ∧ t.is CLK.CTRL.TICKEN = true ∧ t.clk.nextTick = 40009) ∧
    (after (.stop dn0 0) (having [(SHU.VISTAT.STATE, 3)] forms)).get SHU.VISTAT.STATE = 0 := by decide +kernel

/-- A coordinator in FORMING or COORD at its last formation slot, and a beacon of PAN 0x1234 from a device with ASN 5 and join
metric 255. -/
def coordinator (st : Nat) (hs : List Heard) : State := having [(SHU.CTRL.RUN, 1), (SHU.VISTAT.STATE, st), (FRM.PANID.PAN, 0x1234)]
  { State.reset with clk := { asn := 17 * 8 }, shu := { heard := hs } }
def beaconOf (eui : List Nat) : Heard := {
  stamp := 640000, mode := 0, ctx := 4095
  octets := [0x00, 0xE3, 0x34, 0x12] ++ eui ++ [0x00, 0x3F, 0x08, 0x88, 0x06, 0x1A, 5, 0, 0, 0, 0, 255] }
def heardOf (eui : List Nat) : Mac := txMac (beaconOf eui).octets

theorem test_formationComplete : (coordinator 2 []).pairRuns = true ∧ (coordinator 2 []).clk.asnCommit = none ∧
    (coordinator 2 []).get SHU.FORMCFG.LF * (coordinator 2 []).get SHU.FORMCFG.FNUM ≤ 17 * 8 ∧
    (after .formationComplete (coordinator 2 [])).get SHU.VISTAT.STATE = 3 := by decide +kernel

theorem test_beaconJoin : (let s := coordinator 1 [beaconOf (List.replicate 8 1)]
    syncIe (beaconOf (List.replicate 8 1)).octets (heardOf (List.replicate 8 1)) = some (5, 255, 18) ∧
      (let t := after .beaconJoin s
       t.get SHU.VISTAT.STATE = 4 ∧ t.get SHU.VISTAT.TSCTX = 4095 ∧ t.get SHU.BCNCFG.JM = 255 ∧ t.shu.heard = [])) := by
  decide +kernel

theorem test_competingBeacon : (coordinator 3 []).ownEui = 0 ∧
    (let h := beaconOf (List.replicate 8 0); let s := having [(SHU.FORMCFG.PRIO, 0)] (coordinator 3 [h])
     (heardOf (List.replicate 8 0)).sm = 3 ∧ (heardOf (List.replicate 8 0)).src = some 0 ∧
       (heardOf (List.replicate 8 0)).sourcePan = some 0x1234 ∧ formationPrio (s.get SHU.FORMOUI.OUI) h = 0 ∧
       (after .competingBeacon s).is SHU.STICKY.DUPEUI = true) ∧
    (let h := beaconOf (List.replicate 8 1); let s := coordinator 2 [h]
     formationPrio (s.get SHU.FORMOUI.OUI) h * 2 ^ 64 + 0x0101010101010101 < s.get SHU.FORMCFG.PRIO * 2 ^ 64 ∧
       (after .competingBeacon s).is SHU.STICKY.COMPETE = true) ∧
    (let h := beaconOf (List.replicate 8 1); let s := having [(SHU.FORMCFG.PRIO, 0)] (coordinator 2 [h])
     s.get SHU.FORMCFG.PRIO * 2 ^ 64 + s.ownEui < formationPrio (s.get SHU.FORMOUI.OUI) h * 2 ^ 64 + 0x0101010101010101 ∧
       h.ctx < 4096 ∧ (after .competingBeacon s).get SHU.VISTAT.STATE = 4 ∧
       (after .competingBeacon s).beaconDue 0 = false) := by decide +kernel
/-! The lockstep pair, the cipher engine and critical commands. -/

theorem test_shuttleRun : opens .reset SHU.CTRL 0 true = true ∧
    (let t := after (.shuttleRunWrite dn0 0 1) (coordinator 0 [] |> having [(SHU.CTRL.RUN, 0)])
     t.is SHU.CTRL.RUN = true ∧ t.shu.pair.writing = some 103) ∧
    (coordinator 3 []).is SHU.CTRL.RUN = true ∧ (after (.shuttleRunWrite dn0 0 0) (coordinator 3 [])).is SHU.CTRL.RUN = false := by
  decide +kernel

/-- The lockstep pair in a state, running. -/
def pairOf (p : PairSt) : State := having [(SHU.CTRL.RUN, 1)] { State.reset with shu := { pair := p }, clk := { tb := 9 } }

theorem test_checkpoints : (after (.checkpointWriteDone true) (pairOf { writing := some 112 })).shu.pair.older = true ∧
    (pairOf { journal := 8192 }).pairRuns = true ∧
    (let t := after .intermediateCheckpoint (pairOf { journal := 8192 })
     t.shu.pair.writing = some 112 ∧ t.get FLT.CKPT.CKPTX = 1) ∧
    (after .intermediateCheckpoint (pairOf { journal := 8191 })).shu.pair.writing = none := by decide +kernel

theorem test_mismatch : (pairOf {}).domOn Dom.mac = true ∧ (after .lockstepMismatch (pairOf {})).shu.pair.stage = 1 ∧
    (let t := after .lockstepMismatch (pairOf { stage := 2 })
     t.is FLT.STAT.PAIRDOWN = true ∧ t.is SHU.CTRL.RUN = false) ∧
    (after .quiesceComplete (pairOf { stage := 1 })).shu.pair.stage = 2 ∧
    (pairOf { stage := 2, kind := 1 }).shu.waits = [] ∧ (pairOf { stage := 2 }).bus.waiting = [] ∧
    (pairOf { stage := 2 }).hif.read = none ∧
    (let t := after (.restoreComplete true) (pairOf { stage := 2, kind := 1 })
     t.shu.pair.stage = 0 ∧ t.get FLT.LASTREC.CASE = 1 ∧ t.get FLT.RECCNT.SHU = 1) ∧
    (after (.restoreComplete false) (pairOf { stage := 2 })).is FLT.STICKY.LSFAIL = true := by decide +kernel

def repairing : State := { State.reset with bob := { repairs := [⟨1, 4095, 31, false, 0⟩] } }

theorem test_bobbinRepair : ((after (.bobbinUeDetect 0 4095 25 true none) .reset).bob.repairs) = [⟨0, 4095, 25, true, 0⟩] ∧ linedWord 25 = true ∧
    (let t := after .bobbinRepairDone repairing
     t.bob.repairs = [] ∧ t.get FLT.LASTREC.CASE = 5 ∧ t.get FLT.LASTREC.CTX = 4095) ∧
    opens (pairOf {}) FLT.INJECT 0 true = true ∧ (pairOf {}).is FLT.STAT.RESTORING = false ∧
    (after (.injectShuout dn0) (pairOf {})).shu.pair.inject = true ∧
    (after (.injectBobctx dn0 4095) (pairOf {})).bob.inject = some 4095 := by decide +kernel

/-- Slot 1 holds a key of zeros of VI 0 with every usage flag; every operation reads and writes SRAM. -/
def ciphering : State := having [(KEY.KS.STATE.i 1, 1), (KEY.KS.FLAGS.i 1, 0xFF), (SEC.JSRC.ADDR, 0x20000000), (SEC.JDST.ADDR, 0x20001000),
  (SEC.JLEN.MLEN, 24), (SEC.JKEY.TARGET, 1)]
  { State.reset with key := { keys := (List.replicate 64 []).set 1 (List.replicate 16 0) } }

theorem test_cipherStarts : opens ciphering SEC.JCFG 0 true = true ∧ opens ciphering SEC.JCTRL 0 true = true ∧
    (∀ op ∈ [opCcmEnc, opCcmDec, opCtr, opCmacGen, opCmacVer, opUnwrap, opWrap],
      let u := Act.run (plainWrite SEC.JCFG.key 0 (op * 2 ^ 28 + 0x10000)) ciphering
      u.is SEC.JSTAT.BUSY = false ∧ u.jobRefused (u.jobOf 0) = none) ∧
    (let u := Act.run (plainWrite SEC.JCFG.key 0 (opWrap * 2 ^ 28)) State.reset
     u.is SEC.JSTAT.BUSY = false ∧ u.jobRefused (u.jobOf 0) = some Status.prot) ∧
    (after (.unwrap dn0 0 0x10000) ciphering).is SEC.JSTAT.BUSY = true ∧
    (after (.wrap dn0 0 0) .reset).get SEC.JSTAT.STATUS = Status.prot := by decide +kernel

theorem test_erase : opens ciphering KEY.KCMD 0 true = true ∧ ciphering.key.keys.length = 64 ∧ ciphering.is KEY.KSTAT.BUSY = false ∧
    ciphering.is DBG.STAT.ERASING = false ∧ ciphering.keyFlag 1 8 = false ∧ ciphering.usesSlot true 1 = false ∧
    (after (.erase dn0 0 1) ciphering).keyOf 1 = [] ∧ (having [(KEY.KS.FLAGS.i 1, 0x100)] ciphering).keyFlag 1 8 = true ∧
    (after (.erase dn0 0 1) (having [(KEY.KS.FLAGS.i 1, 0x100)] ciphering)).is KEY.STICKY.KREFUSED = true := by decide +kernel

/-- A hash of no octets, or a verification. -/
def hashing (verify : Bool) : State := having [(SEC.HSTAT.BUSY, 1)] { State.reset with sec := { hash := some ⟨verify, 0x20000000, 0, 0, 0, 3⟩ } }

theorem test_hashUnit : opens .reset SEC.HCTRL 0 true = true ∧ State.reset.is SEC.HSTAT.BUSY = false ∧
    (after (.hash dn0) .reset).sec.hash = some ⟨false, 0, 0, 0, 0, 1⟩ ∧
    (after (.verify dn0) .reset).sec.hash = some ⟨true, 0, 0, 0, 0, 36000⟩ ∧
    (hashing true).sec.hash = some ⟨true, 0x20000000, 0, 0, 0, 3⟩ ∧
    (after (.hashUnitDone false false) (hashing false)).get SEC.HASH.H = 0x42C4B0E3 := by decide +kernel

/-- A job of an operation on the sixteen octets of zeros at the start of SRAM, with a tag. -/
def jobOf (op : Nat) (tag : List Nat) : SoftJob := { vi := 0, cfg := op * 2 ^ 28 + 2 ^ 14, src := 0x20000000, dst := 0x20001000
                                                     len := 16, key := 1 * 2 ^ 16, iv := List.replicate 16 0, tag
                                                     secret := List.replicate 16 0 }
def ending (j : SoftJob) : State := { holding ((List.range 16).map fun k => (0x20000000 + 4 * k, 0)) with
  sec := { jobs := [j] }, key := { keys := (List.replicate 64 []).set 1 (List.replicate 16 0) } }

/-- The words of memory that hold a list of octets from an address on. -/
def octetsAt (a : Nat) (l : List Nat) : List (Nat × Nat) :=
  (List.range (l.length / 4)).map fun k => (a + 4 * k, leNat ((l.drop (4 * k)).take 4))

/-- Its sixteen octets of zeros, encrypted and with a tag of four octets. -/
theorem test_ccm : (ending (jobOf opCcmEnc [])).domOn Dom.core = true ∧ (jobOf opCcmEnc []).status = none ∧
    (after (.softwareJobDone 0) (ending (jobOf opCcmEnc []))).octets 0x20001000 20 =
      [213, 120, 242, 13, 0, 149, 140, 108, 80, 110, 54, 118, 158, 173, 206, 110, 224, 41, 71, 127] := by decide +kernel

def decrypting : State := holding (octetsAt 0x20000010 [196, 31, 243, 191]) (ending (jobOf opCcmDec []))

theorem test_ccmDec : (let j := jobOf opCcmDec []
    let clear := ccmCrypt j.secret (j.iv.take 13) (decrypting.octets (j.src + j.alen) j.mlen)
    ccmTag j.secret (j.iv.take 13) (decrypting.octets j.src j.alen) clear j.mic = decrypting.octets (j.src + j.alen + j.mlen) j.mic ∧
      ccmTag j.secret (j.iv.take 13) ((ending j).octets j.src j.alen) clear j.mic ≠ (ending j).octets (j.src + j.alen + j.mlen) j.mic) := by
  decide +kernel

theorem test_ctrCmac : (after (.softwareJobDone 0) (ending (jobOf opCtr []))).octets 0x20001000 16 =
      [102, 233, 75, 212, 239, 138, 44, 59, 136, 76, 250, 89, 202, 52, 43, 46] ∧
    (after (.softwareJobDone 0) (ending (jobOf opCmacVer [118, 60, 188, 222, 129, 223, 145, 49, 191, 137, 119, 18, 192, 136, 237, 173]))).get
      SEC.JSTAT.STATUS = Status.ok ∧
    (after (.softwareJobDone 0) (ending (jobOf opCmacVer []))).get SEC.JSTAT.STATUS = Status.micFail ∧
    (after (.softwareJobDone 3) (ending (jobOf opWrap []))).get SEC.JSTAT.STATUS = Status.eccUncorr := by decide +kernel

/-- A key of sixteen octets of zeros, wrapped under itself, for slot 63. -/
def unwrapping : SoftJob := { jobOf opUnwrap [] with len := 24, key := 63 * 2 ^ 16 }
def wrapped : State := holding
  (octetsAt 0x20000000 [191, 59, 119, 181, 233, 12, 170, 159, 80, 9, 254, 150, 38, 228, 239, 226, 13, 237, 117, 238, 59, 26, 192, 213])
  (ending unwrapping)

theorem test_unwrap : unwrapping.target = 63 ∧ wrapped.key.keys.length = 64 ∧ wrapped.sec.changes = [] ∧ wrapped.sec.frame = none ∧ wrapped.targetGone unwrapping = false ∧
    kwUnwrap unwrapping.secret (wrapped.octets unwrapping.src unwrapping.mlen) = some (List.replicate 16 0) := by decide +kernel

/-- `Authentic`, as a test. -/
def authenticB (s : State) (b : List Nat) : Bool :=
  blkOk b && !s.is CMD.STAT.SLOW && bitOf (s.authPerm (blkAuth b)) (blkId b - 1) == 1 && s.ecc.bad == [] &&
    (match s.authKey (blkAuth b) with | some k => (cmac k (b.take 56)).take 8 == blkTag b | none => false) &&
    (match s.authCounter (blkAuth b) with | some c => c < blkCtr b | none => false)

theorem authenticB_iff (s : State) (b : List Nat) : authenticB s b = true ↔ Authentic s b := by
  unfold authenticB Authentic Proven
  cases s.authKey (blkAuth b) <;> cases s.authCounter (blkAuth b) <;> simp [and_assoc]

/-- `Issues`, as a test. -/
theorem test_issues : State.reset.is CMD.STAT.BUSY = false ∧ (∀ k : Fin 16, opens .reset (CMD.BLK.i k) 0 true = true) ∧
    opens .reset CMD.GO 0 true = true := by decide +kernel

/-- The octets of a block from octet 2 on: authority 0, counter 1. -/
def block (vi : Nat) (arg tag : List Nat) : List Byte :=
  ([vi, 0, 1, 0, 0, 0] ++ arg ++ List.replicate (48 - arg.length) 0 ++ tag).map (BitVec.ofNat 8)

def keyBlock : List Byte := block 0 ([63, 0, 0, 0, 0, 0, 0, 0] ++ [181, 149, 161, 192, 175, 190, 122, 137, 206, 67, 128, 124, 179, 178,
  186, 87, 55, 255, 93, 113, 208, 163, 92, 215]) [169, 190, 156, 161, 37, 149, 130, 193]

theorem test_keyload : authenticB .reset (blockOf idKeyload keyBlock) = true ∧ State.reset.key.keys.length = 64 ∧
    (let b := blockOf idKeyload keyBlock
     (State.reset.keyLoading (blkVi b) (blkAuth b) 0 (blkArg b)).1 = Status.ok ∧
       kwUnwrap State.reset.otp.root (((blkArg b).drop 8).take 24) = some (List.replicate 16 0) ∧
       (blkArg b).getD 4 0 = 0 ∧ (blkArg b).getD 1 0 = 0 ∧ State.reset.usesSlot true ((blkArg b).getD 0 0) = false) := by decide +kernel

/-- VI 15 opens with every cap at its most. -/
def opening : List Nat := (blockOf idTenancy (block 15 [0, 15, 128, 32, 0, 16, 0, 32, 64, 127, 1, 255, 255, 255]
  [255, 218, 133, 253, 3, 39, 66, 190])).set 8 1
def modifying : List Nat := (blockOf idTenancy (block 0 [0, 15] [8, 20, 208, 33, 128, 112, 50, 125])).set 8 2
def closingBlock : List Nat := (blockOf idTenancy (block 15 [] [117, 7, 202, 163, 59, 55, 220, 51])).set 8 3

theorem test_tenancy : authenticB .reset opening = true ∧ (State.reset.tenancyChange (blkVi opening) (blkArg opening)).1 = Status.ok ∧
    authenticB .reset modifying = true ∧ (State.reset.tenancyChange (blkVi modifying) (blkArg modifying)).1 = Status.ok ∧
    (let s := having [(ten VIF.TENA0.STATE 15, 1)]
     authenticB s closingBlock = true ∧ (s.tenancyChange (blkVi closingBlock) (blkArg closingBlock)).1 = Status.ok) := by decide +kernel

/-- The effect of an opening that has passed step 5. -/
theorem test_tenancyOpen_effect : (let t := Act.run (State.reset.tenancyChange 15 (blkArg opening)).2 State.reset
    t.viOpen 15 = true ∧ t.get (ten VIF.TENA0.PRIO 15) = 15 ∧ t.get (ten VIF.TENB0.CELLQ 15) = 8192 ∧
      t.get (ten VIF.TEND0.SRAMMASK 15) = 0xFFFF) := by decide +kernel

def sealedState : State := having [(DBG.STATE.VAL, 1)]
def reopening : List Nat := blockOf idDbgreopen (block 0 [] [107, 171, 80, 66, 98, 41, 198, 166])

theorem test_dbgreopen : authenticB sealedState reopening = true ∧ sealedState.reopenCheck (blkArg reopening) = none := by decide +kernel

/-- The image that bank B serves is checked. -/
def checked : State := having [(UPD.SRV.BANK, 1), (UPD.SSTAT.STATE, 3)]
def activating : List Nat := blockOf idActivate (block 0 [1] [123, 222, 254, 252, 209, 82, 179, 255])

theorem test_activate : authenticB checked activating = true ∧ (checked.activation (blkArg activating)).1 = Status.ok ∧
    (Act.run (checked.activation (blkArg activating)).2 checked).activeBank = 1 := by decide +kernel

/-- Every lamp channel released, off, or at 100 %. -/
def overriding (op : Nat) (arg tag : List Nat) : List Nat := (blockOf idLampovr (block 0 arg tag)).set 9 op
def lamps : List (List Nat) := [overriding 0 [15] [193, 168, 16, 142, 82, 171, 246, 159],
  overriding 1 [15] [177, 0, 158, 232, 1, 21, 186, 82], overriding 2 [15, 0, 16, 39, 100] [131, 252, 61, 55, 168, 195, 16, 69]]
def station : State := having [(SYS.ROLE.VAL, 1)]

theorem test_lampovr : ∀ b ∈ lamps, authenticB station b = true ∧ (station.lampOverride (blkArg b)).1 = Status.ok ∧
    (Act.run (station.lampOverride (blkArg b)).2 station).is LMP.STICKY.OVR = true := by decide +kernel

def selecting : List Nat := (blockOf idRefovr (block 0 [0, 1] [120, 186, 81, 35, 119, 224, 73, 64])).set 8 1
def automatic : List Nat := (blockOf idRefovr (block 0 [] [172, 175, 122, 210, 187, 55, 155, 33])).set 8 2

theorem test_refovr : authenticB .reset selecting = true ∧ (State.reset.refOverride (blkArg selecting)).1 = Status.ok ∧
    authenticB .reset automatic = true ∧ (State.reset.refOverride (blkArg automatic)).1 = Status.ok := by decide +kernel

/-- Sub-band 0 is lowered below its 20 dBm; the counter of authority 15 takes its largest value. -/
def tightened : List Nat := blockOf idRegtight (block 0 [0, 19] [31, 250, 61, 216, 36, 5, 199, 75])
def resetting : List Nat := blockOf idCtrreset (block 0 [15, 255, 255, 255, 255] [129, 191, 121, 27, 69, 34, 172, 254])

theorem test_regtight_ctrreset : authenticB permitted tightened = true ∧
    tightening permitted (blkArg tightened) = (Status.ok, some ⟨0, 19, 0, false⟩) ∧ authenticB .reset resetting = true ∧
    (counterReset (blkAuth resetting) (blkArg resetting)).1 = Status.ok ∧
    (Act.run (counterReset 0 (blkArg resetting)).2 State.reset).authCounter 15 = some 0xFFFFFFFF := by decide +kernel

/-- A command that waits in slow mode until TB 64, from authority 15, which has no key. -/
def slowed : State := having [(CMD.STAT.BUSY, 1), (CMD.BLK.W.i 0, 0xF0000001)] { State.reset with cmd := { slowTo := 64 } }

theorem test_commandSlowStart : slowed.is CMD.STAT.BUSY = true ∧ slowed.cmd.slowTo = 64 ∧
    (let t := after (.commandSlowStart 2) slowed
     t.tb = 64 ∧ t.get CMD.RESULT.STATUS = Status.eccUncorr) ∧ slowed.authKey (blkAuth slowed.cmdBlock) = none ∧
    (after (.commandSlowStart 0) slowed).get CMD.RESULT.STATUS = Status.authFail := by decide +kernel

/-- A counter's reset by authority 0 that waits in slow mode. -/
def slowReset : State := having ((List.range 16).map fun k => (CMD.BLK.W.i k, leNat ((resetting.drop (4 * k)).take 4))) slowed

theorem test_slowNormal : slowReset.cmdBlock = resetting ∧ authenticB .reset resetting = true ∧ blkId resetting = idCtrreset ∧
    slowReset.ecc.bad = [] ∧ slowReset.authKey (blkAuth resetting) = State.reset.authKey (blkAuth resetting) ∧
    slowReset.authCounter (blkAuth resetting) = State.reset.authCounter (blkAuth resetting) ∧
    slowReset.authPerm (blkAuth resetting) = State.reset.authPerm (blkAuth resetting) := by decide +kernel
/-! The host link, boot and update. -/

/-- `HostWordAt`, as a test. -/
def hostWordB (s : State) (vi : Fin 16) (field a : Nat) (write : Bool) : Bool :=
  s.domOn Dom.core && !s.hostRefused vi && !hostPast vi field && hostAddr vi (s.get HIF.SEG.VAL) field == a
    && decide (s.route (.host vi) a write = .mem a) && 0x20000000 ≤ a && a + 4 ≤ 0x20200000 && a % 4 == 0
    && s.pwr.closing == 0 && s.ecc.bad == [] && s.ecc.fresh == []

theorem hostWordB_spec (s : State) (vi : Fin 16) (field a : Nat) (write : Bool) (h : hostWordB s vi field a write = true) :
    HostWordAt s vi field a write := by
  simp only [hostWordB, Bool.and_eq_true, Bool.not_eq_true', beq_iff_eq, decide_eq_true_eq] at h
  obtain ⟨⟨⟨⟨⟨⟨⟨⟨⟨⟨h1, h2⟩, h3⟩, h4⟩, h5⟩, h6⟩, h7⟩, h8⟩, h9⟩, h10⟩, h11⟩ := h
  exact ⟨h1, h2, h3, h4, h5, h6, h7, h8, h9, h10, h11⟩

/-- The host's segment is SRAM's, with a word at its end. -/
def segmented : State := having [(HIF.SEG.VAL, 0x20)] (holding [(0x201FFFFC, 0x12345678)])

theorem test_hostReads : hostWordB segmented 0 0x1FFFFC 0x201FFFFC false = true ∧ segmented.hif.fifo = [] ∧
    (after (.rd 0 0x1FFFFF 1) segmented).hif.out = [(0xA, 0x12345678)] ∧
    (after (.rdf 0 0x1FFFFC 2) segmented).hif.out = [(0xA, 0x12345678), (0xA, 0x12345678)] ∧
    coreOnly.hostRefused 15 = true ∧ (after (.rd 15 0 2) coreOnly).hif.out = [(0x5, 0), (0x5, 0)] := by decide +kernel

/-- The write FIFO holds some words. -/
def fifoOf (n : Nat) : State := { segmented with hif := { fifo := List.replicate n ⟨0, 0x1FFFFC, 0x201FFFFC, 0, true, 7⟩ } }

theorem test_hostWrites : hostWordB (fifoOf 14) 0 0x1FFFFC 0x201FFFFC true = true ∧ (fifoOf 14).hif.fifo.length < 15 ∧
    (after (.wr 0 0x1FFFFC [5] [] false) (fifoOf 14)).hif.fifo.length = 15 ∧
    ((after (.wrf 0 0x1FFFFC [5, 6] [] false) (fifoOf 14)).hif.fifo.drop 14).map (fun h => (h.addr, h.word)) =
      [(0x201FFFFC, 5), (0x201FFFFC, 6)] ∧
    (fifoOf 16).hostRefused 0 = false ∧ hostPast 0 0 = false ∧
    (after (.wr 0 0 [5] [] true) (fifoOf 16)).is HIF.STICKY.WROVF = true ∧
    hostWordB (fifoOf 1) 0 0x1FFFFC 0x201FFFFC true = true ∧ (after .hostFifoWrite (fifoOf 1)).word 0x201FFFFC = 7 := by decide +kernel

theorem test_hostOpcodes : (after .rdsr (fifoOf 16)).hif.out = [(0, 0x30)] ∧ (after (.seg 0xFF) .reset).get HIF.SEG.VAL = 0xFF ∧
    State.reset.is HIF.ERRLOG.V = false ∧
    (let s := { State.reset with hif := { read := some { vi := 0, fixed := false, field := 0, seg := 0, aps := [], early := true
                                                         left := 2, since := 5, issued := true } } }
     (after .hostWaitTimeout s).hif.out = [(5, 0), (5, 0)] ∧ (after .hostWaitTimeout s).tb = 5 + 4 * 0x44C) := by decide +kernel

theorem test_bootSequence : State.reset.record 0x2803FCA8 = some 0 ∧ State.reset.pwr.restoring = [] ∧ State.reset.upd.migrating = none ∧
    (let s := having [(SYS.STAT.BOOT0, 1)] { State.reset with upd := { due := some true } }
     s.is SYS.STAT.BOOT0 = true ∧ s.record 0x2803FCA8 = some 0 ∧ s.dn.cores.length = 2 ∧
       (after (.bootSequence none) s).get UPD.BOOTSTAT.PATH = 2 ∧ ((after (.bootSequence none) s).core 0).asleep = true) ∧
    (let s := having [(UPD.BOOTSTAT.WARM, 1)] { State.reset with upd := { due := some false }, mem := [(0x08000014, 8)] }
     s.partsPass s.activeBank = true ∧ s.lease = none ∧ s.upd.code.length = 3 ∧
       ((after (.bootSequence none) s).core 0).ds = [1, 0x08000000]) := by decide +kernel

/-- A trial of bank A. -/
def trial : State := holding [(0x2803FC80, 2), (0x2803FC84, 0xFFFFFFFD)]

theorem test_hconf : opens trial UPD.HCONF 0 true = true ∧ trial.actRecord = some 2 ∧ trial.dn0Machine dn0 = true ∧
    trial.dn0Machine (.core 1) = false ∧ (after (.hconfWrite dn0 0x4846) trial).is UPD.STICKY.CONFIRMED = true ∧
    opens trial UPD.HCONF 0 true (.core 1) = true ∧ (after (.hconfWrite (.core 1) 0x4846) trial).is UPD.STICKY.HREF = true := by
  decide +kernel

theorem test_checks : opens .reset UPD.SRV 0 true = true ∧ (after (.srvWrite dn0 0xFFFFFFFE) checked).get UPD.SSTAT.STATE = 0 ∧
    (after (.srvWrite dn0 0xFFFFFFFF) checked).get UPD.SSTAT.STATE = 3 ∧
    opens .reset UPD.CHKSRC 0 true = true ∧ opens .reset UPD.CHKCTRL 0 true = true ∧ State.reset.is UPD.CHKSTAT.BUSY = false ∧
    (after (.manifest dn0 0x080003FF) .reset).get UPD.CHKSRC.ADDR = 0x20000 ∧ (after (.hlist dn0) .reset).get UPD.CHKCTRL.OP = 2 ∧
    (after (.block dn0 0 4095) .reset).get UPD.CHKCTRL.CBLK = 4095 ∧
    (let s := having [(UPD.CHKSTAT.BUSY, 1), (UPD.CHKCTRL.OP, 2)]
     s.get UPD.SSTAT.STATE ≠ 1 ∧ (after .imageCheckDone s).get UPD.CHKSTAT.STATUS = Status.rsvdOp) := by decide +kernel

theorem test_manifest : (let s := having [(UPD.CHKSTAT.BUSY, 1), (UPD.CHKCTRL.OP, 1), (UPD.CHKSRC.ADDR, 0x20000)]
    s.get UPD.CHKSRC.ADDR * 1024 = bankBase (s.get UPD.SRV.BANK) ∧ s.ecc.bad = [] ∧
      (after .imageCheckDone s).get UPD.CHKSTAT.STATUS = Status.authFail) := by decide +kernel

theorem test_journal : (let s := holding [(0x2803FC98, 1), (0x2803FC9C, 0xFFFFFFFE)]
    s.jstate = 1 ∧ s.jcount ≠ s.word (s.runningImage + 28) / 16 ∧ opens s UPD.JADDR 0 true = true ∧ opens s UPD.JDLO 0 true = true ∧
      opens s UPD.JDHI 0 true = true ∧ opens s UPD.JCTRL 0 true = true) := by decide +kernel

theorem test_journalWrite : (let s := holding [(0x2803FC98, 1), (0x2803FC9C, 0xFFFFFFFE), (0x08000018, 0x4000), (0x0800001C, 16)]
    (after (.journalWrite (.core 0) 0x6CFF 0x123456789ABCDEF0) s).bytes 0x280367F8 8 = 0x123456789ABCDEF0 ∧
      (after (.journalWrite (.core 0) 0x6D00 5) s).is UPD.STICKY.JFULL = true) := by decide +kernel
/-! Bobbin. -/

/-- Context 4095 of VI 0 in a state, last heard in slot 15, with pending descriptors; TB arguments of view 0 as given. -/
def ctxIn (st : Nat) (args : List Nat := []) (s : State := State.reset) : State :=
  having ((List.range args.length).map fun k => ((BOB.ARG.A.i k).copy 0, args.getD k 0))
    (Act.run (chain [setCx 4095 Cx.state st, setCx 4095 Cx.euiLo 1, setCx 4095 Cx.pan 0x1234, setCx 4095 Cx.short 0x55,
      setCx 4095 Cx.lastAsn 15]) s)

/-- `OwnsCtx`, as a test. -/
def ownsB (s : State) (v n : Nat) : Bool :=
  s.ctxState n != CtxState.free && s.cx n Cx.vi == v && (s.queue v 0 n).descs == [] && (s.queue v 1 0).descs == []

theorem ownsB_iff (s : State) (v n : Nat) : ownsB s v n = true ↔ OwnsCtx s v n := by
  simp only [ownsB, Bool.and_eq_true, bne_iff_ne, beq_iff_eq]
  exact ⟨fun ⟨⟨⟨a, b⟩, c⟩, d⟩ => ⟨a, b, c, d⟩, fun ⟨a, b, c, d⟩ => ⟨⟨⟨a, b⟩, c⟩, d⟩⟩

def sweeping (st asn : Nat) : State := having [(SHU.CTRL.RUN, 1)] (ctxIn st [] { State.reset with clk := { asn } })

theorem test_livenessSweep : (sweeping 2 6015).domOn Dom.mac = true ∧ (sweeping 2 6015).is BOB.CTRL.SWEEP = true ∧
    ((sweeping 2 6015).ctxHeld.filter fun n => n / 256 == (sweeping 2 6015).clk.asn % 16) = [4095] ∧
    ownsB (sweeping 2 6015) ((sweeping 2 6015).cx 4095 Cx.vi) 4095 = true ∧
    (sweeping 2 6015).cx 4095 Cx.lastAsn = 15 ∧ (sweeping 2 6015).get BOB.SUSP.SUSPN = 6000 ∧
    (after .livenessSweep (sweeping 2 6015)).ctxState 4095 = CtxState.suspect ∧
    (after .livenessSweep (sweeping 2 5999)).ctxState 4095 = CtxState.active ∧
    (sweeping 3 360015).get BOB.DEAD.DEADN = 360000 ∧ (after .livenessSweep (sweeping 3 360015)).ctxState 4095 = CtxState.dead ∧
    (after .livenessSweep (sweeping 1 360015)).ctxState 4095 = CtxState.free ∧
    (after .livenessSweep (sweeping 1 359999)).ctxState 4095 = CtxState.learning := by decide +kernel

def unheard : State := Act.run (setCx 4095 Cx.noackRun 8) (ctxIn 2)
def rejoining (conf : Nat) : State := having [(BOB.CTRL.RJONLY, 1), (BOB.STAT.RJCONF, conf)]

theorem test_noackmax_rejoin : unheard.get BOB.SUSP.NOACKMAX = unheard.cx 4095 Cx.noackRun ∧
    (after (.noackmaxReached 4095) unheard).ctxState 4095 = CtxState.suspect ∧ opens .reset BOB.CTRL 0 true = true ∧
    State.reset.is BOB.CTRL.RJONLY = false ∧ (after (.rjonlySet dn0 0xFFFFFFFB) .reset).is BOB.CTRL.RJONLY = true ∧
    (after (.rjclr dn0 4) (rejoining 1)).is BOB.CTRL.RJONLY = false ∧
    (after (.rjclr dn0 4) (rejoining 0)).is BOB.CTRL.RJONLY = true ∧
    (after (.rjclr dn0 4) (rejoining 0)).is BOB.STICKY.CMDREF = true := by decide +kernel

theorem test_alloc : opens (ctxIn 2) BOB.CMD 0 true = true ∧ (ctxIn 2).shu.pair.stage = 0 ∧ (ctxIn 2).bob.repairs = [] ∧ (ctxIn 2).bobBusy 0 = false ∧
    (let s := ctxIn 2 [0xFFFFFFFF, 0xFFFFFFFF, 0xFFFEFFFD, 0xC000003F]
     s.extTaken 0 0xFFFFFFFFFFFFFFFF = false ∧ s.shortTaken none 0 0xFFFE 0xFFFD = false ∧ s.ctxFree = some 0 ∧
       s.ctxUse 0 < s.get (ten VIF.TENB0.CTXQ 0) ∧ (placeKey s.bob.hashKey (extKey 0 0xFFFFFFFFFFFFFFFF) s.bob.extKeys).isSome = true ∧
       (placeKey s.bob.hashKey (shortKey 0 0xFFFE 0xFFFD) s.bob.shortKeys).isSome = true ∧
       (let t := after (.alloc dn0 0) s
        t.ctxState 0 = CtxState.active ∧ t.ctxEui 0 = 0xFFFFFFFFFFFFFFFF ∧ t.cx 0 Cx.keySlot = 63)) ∧
    (let s := ctxIn 2 [0, 0, 0x12340055]
     s.ctxFree = some 0 ∧ s.ctxUse 0 < s.get (ten VIF.TENB0.CTXQ 0) ∧ s.shortTaken none 0 0x1234 0x55 = true ∧
       (after (.alloc dn0 0) s).get BOB.CMDSTAT.STATUS = Status.rsvdOp) := by decide +kernel

theorem test_contextCommands : ownsB (ctxIn 4) 0 4095 = true ∧
    (after (.contextActivate dn0 0 4095) (ctxIn 4)).ctxState 4095 = CtxState.active ∧
    (let s := ctxIn 4 [0, 0, 0x12340055, 0]
     keepsShort (s.ctxState 4095) = true ∧ s.shortTaken (some 4095) 0 0x1234 0x55 = false ∧
       (placeKey s.bob.hashKey (shortKey 0 0x1234 0x55) (s.bob.shortKeys.filter (·.1 != 4095))).isSome = true ∧
       (after (.setshort dn0 0 4095) s).cx 4095 Cx.short = 0x55) ∧
    (let s := Act.run (chain [setCx 4095 Cx.rxfc 5, setCx 4095 Cx.rxfcv 1]) (ctxIn 2 [0, 0, 0, 0x4000003F])
     (after (.setkey dn0 0 4095) s).cx 4095 Cx.keySlot = 63 ∧ (after (.setkey dn0 0 4095) s).cx 4095 Cx.rxfc = 0) ∧
    ctxLive ((ctxIn 3).ctxState 4095) = true ∧ (after (.decldead dn0 0 4095) (ctxIn 3)).ctxState 4095 = CtxState.dead := by
  decide +kernel

/-- Context 4094 is a spare without a short address. -/
def spared : State := Act.run (chain [setCx 4094 Cx.state 1, setCx 4094 Cx.short 0xFFFE]) (ctxIn 4 [0x80000FFE])

theorem test_supersede : bitOf ((ctxIn 4).ctxArg 0 0) 31 = 0 ∧
    (after (.supersede dn0 0 4095) (ctxIn 4)).ctxState 4095 = CtxState.superseded ∧ ownsB spared 0 4095 = true ∧
    bitOf (spared.ctxArg 0 0) 31 = 1 ∧ bits (spared.ctxArg 0 0) 11 0 = 4094 ∧ spared.spareOk 0 4094 = true ∧
    (after (.supersede dn0 0 4095) spared).cx 4094 Cx.short = 0x55 ∧
    (after (.free dn0 0 4095) (ctxIn 4)).ctxHeld = [] ∧
    (after (.clrcol dn0 0 4095) (Act.run (setCx 4095 Cx.collide 1) (ctxIn 4))).cx 4095 Cx.collide = 0 ∧
    (ctxIn 1).tvi = 0 ∧ (after (.setts dn0 0 4095) (ctxIn 1)).get SHU.VISTAT.TSCTX = 4095 ∧
    (after (.read dn0 0 4095) (ctxIn 1)).get (BOB.CTXBUF.W.i 0) = (ctxIn 1).word (ctxAddr 4095) := by decide +kernel

/-- A handover in slot 2^40 − 1, the largest, to member 7; two slots after the present one. -/
def cascaded (asn : Nat) : State := having [(CLK.STAT.CASSYNC, 1)] (ctxIn 2 [7, 0xFFFFFFFF, 0xFF] { State.reset with clk := { asn } })

theorem test_handover : (cascaded (2 ^ 40 - 3)).is CLK.STAT.CASSYNC = true ∧ (cascaded (2 ^ 40 - 3)).cx 4095 Cx.pending = 0 ∧
    ownsB (cascaded (2 ^ 40 - 3)) 0 4095 = true ∧
    (let t := after (.handover dn0 0 4095) (cascaded (2 ^ 40 - 3))
     t.bob.handovers = [(4095, 0)] ∧ t.migSlot 4095 = 2 ^ 40 - 1 ∧ t.cx 4095 Cx.migDst = 7) ∧
    (after (.handover dn0 0 4095) (cascaded (2 ^ 40 - 2))).bob.handovers = [] := by decide +kernel

theorem test_commandsRefused : State.reset.ctxState 4095 = CtxState.free ∧ (ctxIn 2).cx 4095 Cx.vi ≠ 15 ∧
    (after (.free dn0 0 4095) .reset).get BOB.CMDSTAT.STATUS = Status.prot ∧
    (having [(ten VIF.TENA0.STATE 15, 1)] (ctxIn 2)).viOpen 15 = true ∧
    opens (having [(ten VIF.TENA0.STATE 15, 1), (VIF.HOSTEN.V, 0x7FFF)] (ctxIn 2)) BOB.CMD 15 true (.host 15) = true := by decide +kernel
/-! The cascade. -/

/-- `linked`, at M0 or at member 1, in a link state. -/
def m0In (st : Nat) : State := having [(SYS.STAT.CASM, 1), (CAS.STAT.STATE, st), (CAS.STAT.MEMBER, 0), (CAS.STAT.NMEM, 8)] linked
def linkIn (st : Nat) : State := having [(CAS.STAT.STATE, st)] linked

theorem test_roleAndLink : opens linked SYS.ROLE 0 true = true ∧ linked.locked SYS.ROLE.key = false ∧ linked.bob.handovers = [] ∧
    linked.get SYS.ROLE.VAL ≠ 0 ∧ (after (.roleWrite dn0 0xFFFFFFFC) linked).link = linkOff ∧
    (let s := having [(LMP.CHSTAT.STATE.i 3, 2)] linked
     (after (.roleWrite dn0 0) s).lampState 3 = 0) ∧
    opens (linkIn 0) CAS.CTRL 0 true = true ∧ (linkIn 0).get SYS.ROLE.VAL = 2 ∧ (linkIn 0).link = linkOff ∧
    (after (.linkEnable dn0 1) (linkIn 0)).link = linkAlign ∧ (after (.linkEnable dn0 0xFFFFFFFE) linked).link = linkOff := by
  decide +kernel

theorem test_training : (linkIn 1).domOn Dom.mac = true ∧ (linkIn 1).m0 = false ∧ (m0In 1).m0 = true ∧
    (after (.linkAlignLock 6) (linkIn 1)).member = 7 ∧ (after (.linkAlignLock 7) (linkIn 1)).link = linkAlign ∧
    (after (.linkAlignLock 7) (m0In 1)).link = linkTrain ∧ (after (.trainingMarker false) (linkIn 1)).cas.echoes = 1 ∧
    (after (.trainingMarker true) (m0In 3)).is CAS.STICKY.TWOMAST = true ∧
    (after (.trainingDone [] 0 2) (m0In 2)).link = linkUp ∧ (after (.trainingDone [] 0 1) (m0In 2)).link = linkTrain ∧
    (let rt := 244000 :: List.replicate 15 240000
     rt.length = 16 ∧ rt.foldl max 0 - rt.foldl min (rt.headD 0) = 4000 ∧ (after (.trainingDone rt 0 0) (linkIn 2)).link = linkUp) ∧
    (let rt := 244001 :: List.replicate 15 240000
     (after (.trainingDone rt 0 0) (linkIn 2)).is CAS.STICKY.TRAINFAIL = true) ∧
    (after .trainingTimeout (linkIn 2)).tb = 100 * 4000 := by decide +kernel

theorem test_linkLoss : linked.linkLive = true ∧ linked.m0 = false ∧ linked.get CAS.CFG.LOSSN = 8 ∧
    (let t := after (.linkLoss 1 0xFFFF 8) linked
     t.get CAS.LINKERR.CODE = 0xFFFF ∧ t.get CAS.LOSSLOG.REASON = 2 ∧ t.cas.lostAt = some 0) ∧
    (after (.linkLoss 1 0 7) linked).cas.lostAt = none ∧ (m0In 3).link = linkUp ∧ 7 < (m0In 3).get CAS.STAT.NMEM ∧
    (after (.downstreamLinkLoss 0) (m0In 3)).get CAS.STAT.NMEM = 1 ∧
    (let s := { linked with cas := { lostAt := some 5 } }
     s.is CAS.CTRL.AUTORT = true ∧ (after .retrain s).link = linkAlign ∧ (after .retrain s).tb = 4005) := by decide +kernel

theorem test_loadRecordSend : (m0In 3).linkLive = true ∧
    (let s := having [(CLK.CTRL.TICKEN, 1), (CLK.ADJPEND.ADJ, 0xFFFF)] { m0In 3 with clk := { nextTick := 40000, asnCommit := some 7 } }
     s.is CLK.CTRL.TICKEN = true ∧ (after .loadRecordSend s).clk.record = some (40000, -1, some 7) ∧
       (after .loadRecordSend s).tb = 39600) := by decide +kernel

/-- A synchronised member in slot 2^40 − 1. -/
def lastSlot : State := { slave with clk := { asn := 2 ^ 40 - 1 } }

theorem test_loadRecordApply : linked.is CLK.STAT.CASSYNC = false ∧ linked.sec.frame = none ∧
    (∀ k < 128, linked.is (DMD.LCFG.SCHED.i k) = false ∨ (linked.laneState k = 0 ∧ (linked.lane k).cell = none)) ∧
    (let t := after (.loadRecordApply 0xFFFFFFFFFFFFFFFF 40000 5 false 40000 0 true 63) linked
     t.tb = 2 ^ 64 - 1 ∧ t.clk.asn = 5 ∧ t.getS CAS.STEP.VAL = 2147483647 ∧ t.is CLK.CTRL.TICKEN = true) ∧
    lastSlot.is CLK.STAT.CASSYNC = true ∧ lastSlot.m0 = false ∧ lastSlot.linkLive = true ∧
    (after (.loadRecordApply 0 40000 1 false 40000 0 true 0) lastSlot).get CAS.LOSSLOG.REASON = 4 ∧
    (after (.loadRecordApply 0 40000 0 false 40000 (-1001) true 0) lastSlot).clk.record = some (40000, -1000, none) ∧
    (after (.loadRecordApply 0 40000 9 true 40000 5 true 0) lastSlot).clk.record = some (40000, 5, some 9) := by decide +kernel

theorem test_tickMarker : slave.slaved = true ∧ slave.bob.handovers = [] ∧ (after (.tickMarkerCheck (some 16)) slave) = slave ∧
    (after (.tickMarkerCheck (some (-17))) slave).get CAS.LOSSLOG.REASON = 3 ∧
    (after (.tickMarkerCheck none) slave).get CAS.LOSSLOG.REASON = 3 := by decide +kernel

/-- Context 0, ACTIVE and linked, with a handover in slot 5 at a stage, in a slot. -/
def handing (st asn : Nat) : State := Act.run (chain [setCx 0 Cx.migH 5, onBob fun b => { b with handovers := [(0, st)] }])
  (having [(SYS.ROLE.VAL, 2), (CAS.CTRL.EN, 1), (CAS.STAT.STATE, 3), (CAS.STAT.MEMBER, 1)] { neighbour with clk := { asn } })

/-- A record of context 3 of another member: ACTIVE in VI 0, EUI-64 5, short address 6 in PAN 7, slot 5. -/
def recordWords : List Word := ((Act.run (chain [setCx 3 Cx.state 2, setCx 3 Cx.euiLo 5, setCx 3 Cx.short 6, setCx 3 Cx.pan 7,
  setCx 3 Cx.migH 5, setCx 3 Cx.gen 0xFFFF, setCx 3 Cx.txfc 0xFFFFFFF8]) State.reset) |> fun s =>
  (List.range 32).map fun k => BitVec.ofNat 32 (s.word (ctxAddr 3 + 4 * k)))

theorem test_handoverRecord : (handing 0 4).domOn Dom.mac = true ∧ (handing 0 4).linkLive = true ∧ (handing 0 4).handoverStage 0 = some 0 ∧
    (handing 0 4).migSlot 0 = 5 ∧ (after (.handoverRecordSend 0) (handing 0 4)).handoverStage 0 = some 1 ∧
    recordWords.length = 32 ∧
    (let l := recordWords.map (·.toNat); let s := linked
     s.ctxFree = some 0 ∧ s.viOpen (wordField l Cx.vi) = true ∧ s.ctxUse 0 < s.get (ten VIF.TENB0.CTXQ 0) ∧
       wordField l Cx.ksv = 0 ∧ s.extTaken 0 5 = false ∧ s.shortTaken none 0 7 6 = false ∧ wordField l Cx.euiLo = 5 ∧
       (placeKey s.bob.hashKey (extKey 0 5) s.bob.extKeys).isSome = true ∧
       (placeKey s.bob.hashKey (shortKey 0 7 6) s.bob.shortKeys).isSome = true ∧
       (after (.handoverRecordReceive recordWords) s).cas.reply = some true) ∧
    (after (.handoverAcceptReceive 0 true) (handing 1 4)).handoverStage 0 = some 2 ∧
    (after (.handoverAcceptReceive 0 false) (handing 1 4)).get CAS.HOLOG.REASON = 1 := by decide +kernel

def starting5 : State := { handing 3 5 with bob := { incoming := [(4095, 5, recordWords.map (·.toNat))] } }

theorem test_handoverSlotH : (handing 2 5).bob.incoming = [] ∧ ctxLive ((handing 2 5).ctxState 0) = true ∧
    (after (.handoverSlotH 0) (handing 2 5)).ctxState 0 = CtxState.migrating ∧
    (after (.handoverSlotH 0) (handing 2 4)).ctxState 0 = CtxState.active ∧
    (after (.handoverSlotH 0) (handing 1 5)).get CAS.HOLOG.REASON = 2 ∧ starting5.handoverStage 4095 = none ∧
    (let t := after (.handoverSlotH 4095) starting5
     t.ctxState 4095 = 2 ∧ t.cx 4095 Cx.gen = 0 ∧ t.cx 4095 Cx.txfc = 0xFFFFFFFF ∧ t.cx 4095 Cx.ownMem = 1) := by decide +kernel

def migrated : State := next (execHandoverSlotH 0 (handing 2 5)) |> fun s => { s with clk := { s.clk with asn := 7 } }
def reconciling : State := Act.run (chain [setCx 0 Cx.rxfc 4, setCx 0 Cx.rxfcv 1])
  { handing 3 7 with bob := { seen := [{ ctx := 0, base := some 3, got := [9, 2] }], closes := [(0, 0xFFFFFFFE)] } }

theorem test_migrationEnd : migrated.ctxState 0 = CtxState.migrating ∧ migrated.migSlot 0 + 2 ≤ migrated.clk.asn ∧
    ownsB migrated (migrated.cx 0 Cx.vi) 0 = true ∧ migrated.frm.frames = [] ∧
    (after (.migrationEnd 0) migrated).ctxState 0 = CtxState.free ∧
    reconciling.bob.seen.find? (·.ctx == 0) = some { ctx := 0, base := some 3, got := [9, 2] } ∧ (reconciling.bob.closes.find? (·.1 == 0)) = some (0, 0xFFFFFFFE) ∧
    reconciling.migSlot 0 + 2 ≤ reconciling.clk.asn ∧ (after (.rxfcReconcile 0) reconciling).cx 0 Cx.rxfc = 0xFFFFFFFE ∧
    (after (.closeRecord 0 5) reconciling).bob.closes = [(0, 5)] := by decide +kernel

/-- Every context is kept for a record already. -/
theorem test_recordRefused : linked.linkLive = true ∧
    { linked with bob := { incoming := (List.range 4096).map fun n => (n, 0, []) } }.ctxFree = none := by
  refine ⟨by decide +kernel, ?_⟩
  unfold State.ctxFree firstBelow
  simp only [List.find?_eq_none, List.mem_range, List.any_map]
  intro n h
  simp only [Bool.and_eq_true, Bool.not_eq_true', not_and, Bool.not_eq_false]
  intro
  simp [h]

def relayed : List Byte := (header ++ fcsOf true header).map (BitVec.ofNat 8)

theorem test_relayedFrame : (let s := handing 3 5
    let l := s.relayLane 127
    let f := RelayFrame.arrived ⟨relayed.map (·.toNat), 5, 63, 4, 127, 1, 0, 0, 0, 0, true, -50, 9, 0, 7⟩ l
    s.linkLive = true ∧ (∀ x ∈ s.frm.frames, x.lane ≠ l) ∧ f.mac.kind ≠ 2 ∧ (f.mac.badFc || f.mac.cut) = false ∧ f.malformed = false ∧
      s.viAccepts 0 f.mac false = true ∧ f.mac.sm = 3 ∧ f.mac.src = some (s.ctxEui 0) ∧ s.findExt 0 (s.ctxEui 0) = some 0 ∧
      s.ctxState 0 = CtxState.active ∧ s.cx 0 Cx.gen = 0 ∧ f.mac.sec = false ∧
      (after (.relayedFrame relayed 5 63 4 (7, 127) 1 0 0 0 0 true (-50) 9 0 0) s).cx 0 Cx.rxFrames = 1 ∧
      (after (.relayedFrame relayed 5 63 4 (7, 127) 1 0 0 0 0 true (-50) 9 0 1) s).is BOB.STICKY.STALEGEN = true) := by decide +kernel

theorem test_remoteAccess : opens linked CAS.RADDR 0 true = true ∧ opens linked CAS.RCTRL 0 true = true ∧
    linked.is CAS.RSTAT.BUSY = false ∧ linked.member = 1 ∧
    (let t := after (.remoteWrite dn0 7 0xFFFFFFFF 15) linked
     t.is CAS.RSTAT.BUSY = true ∧ t.get CAS.RCTRL.WORDS = 15 ∧ t.get CAS.RCTRL.MEMBER = 7) ∧
    (after (.remoteRead dn0 1 0 0) linked).get CAS.RSTAT.RESULT = 2 ∧ (linkIn 2).linkLive = false ∧
    (after (.remoteRead dn0 0 0 0) (linkIn 2)).get CAS.RSTAT.RESULT = 1 ∧
    (let s := having [(CAS.RSTAT.BUSY, 1), (CAS.RCTRL.WORDS, 15)] linked
     s.is CAS.RCTRL.WR = false ∧ (after (.remoteAccessDone 0 (List.replicate 16 7)) s).get (CAS.RBUF.W.i 15) = 7) ∧
    (m0In 3).m0 = true ∧ (m0In 3).is (CAS.MIRQ.M.bit 6) = false ∧
    (let t := after (.memberIrqLevel 7 true) (m0In 3)
     t.is (CAS.MIRQ.M.bit 6) = true ∧ t.is CAS.STICKY.MIRQ = true) := by decide +kernel
/-! The lamp drive. -/

/-- The lamp role with VGD present, channel 3 in a state with some fields of its own. -/
def lit (st : Nat) (c : LampCh := {}) : State := having [(SYS.ROLE.VAL, 1), (LMP.CHSTAT.STATE.i 3, st)]
  { State.reset with lmp := { ch := [{}, {}, {}, c], vgdOk := true, enBall := true } }

theorem test_channelEnWrite : opens (lit 0) (LMP.CHCTRL.i 3) 0 true = true ∧ (lit 0).is (LMP.CHCTRL.EN.i 3) = false ∧
    (lit 0).lampHeld = false ∧ (after (.channelEnWrite dn0 3 true) (lit 0)).lampState 3 = 1 ∧
    (after (.channelEnWrite dn0 3 true) .reset).lampState 3 = 0 ∧
    (let s := having [(LMP.CHCTRL.EN.i 3, 1), (LMP.CHSTAT.RETRIES.i 3, 3)] (lit 4)
     s.lampState 3 = 4 ∧ (after (.channelEnWrite dn0 3 false) s).get (LMP.CHSTAT.RETRIES.i 3) = 0) := by decide +kernel

theorem test_windowsAndStart : (lit 1).lampState 3 = 1 ∧
    (let t := after (.dimWindowStart 3 5) (lit 1)
     (t.lamp 3).duty = 10000 ∧ (t.lamp 3).winEnd = 4000 ∧ (t.lamp 3).ssFrom = some 0) ∧
    ((lit 2).get (LMP.LEVEL.DUTY.i 3) ≠ 0 ∧ ((lit 2).lamp 3).probing = false ∧ ((lit 2).lamp 3).waiting = false ∧
      ((after (.dimWindowStart 3 5) (lit 2)).lamp 3).windows = 1) ∧
    (let s := lit 1 { ssFrom := some 5, cfg := 15 }
     (after (.softStartEnd 3) s).lampState 3 = 2 ∧ (after (.softStartEnd 3) s).tb = 5 + 16 * 8000) := by decide +kernel

/-- The level of RAMPSHORT is twice 80 × 1 mV at the reset values. -/
theorem test_lampFaults : (let s := lit 1 { ssFrom := some 0 }
    s.lampRuns 3 = true ∧ s.lampDrives 3 = true ∧ s.rampLevel 3 = 80000 ∧
      (after (.rampshortTrip 3 80000) s).get (LMP.FLOG.KIND.i 3) = 1 ∧ (after (.rampshortTrip 3 79999) s).lampState 3 = 1 ∧
      (after (.rampshortTrip 3 80000) (having [(LMP.CHSTAT.RETRIES.i 3, 3)] s)).lampState 3 = 4) ∧
    (let s := after (.ntcHot 79) (lit 2 { cfg := 0x503C4144 })
     s.justFaulted 3 = true ∧ (s.beforeFault 3).lampDrives 3 = true ∧ s.get (LMP.FLOG.KIND.i 3) = 5 ∧ s.lampState 3 = 3 ∧
       (let t := after (.rampshortTrip 3 80000) (having [(LMP.CHSTAT.RETRIES.i 3, 3)] s)
        t.lampState 3 = 4 ∧ t.get (LMP.FLOG.KIND.i 3) = 1 ∧ t.is LMP.STICKY.RAMPSHORT = true ∧ (t.lamp 3).onlyHot = false)) ∧
    (lit 1).lampDrives 3 = false ∧ (lit 2).lampRuns 3 = true ∧
    (lit 2).get (LMP.PROT.SHORTTH.i 3) = 20 ∧ (after (.shortDetect 3 199) (lit 2)).lampState 3 = 3 ∧
    (after (.shortDetect 3 200) (lit 2)).lampState 3 = 2 ∧ (lit 2).get (LMP.PROT.OVPTH.i 3) = 200 ∧
    (after (.ovpDetect 3 2001) (lit 2)).get (LMP.FLOG.KIND.i 3) = 4 ∧ (after (.ovpDetect 3 2000) (lit 2)).lampState 3 = 2 := by
  decide +kernel

theorem test_openDiagnosis : (after (.openDiagDecision 3) (lit 2 { conduct := 6000, seen := true })).get (LMP.CHSTAT.DIAG.i 3) = 1 ∧
    (after (.openDiagDecision 3) (lit 2 { conduct := 6000 })).get (LMP.FLOG.KIND.i 3) = 3 ∧
    (lit 2).is (LMP.PROBE.CH.bit 3) = false ∧
    (after (.openDiagDecision 3) (lit 2 { conduct := 5999, windows := 16 })).is LMP.STICKY.OPENUNV = true ∧
    (let s := having [(LMP.PROBE.CH, 8)] (lit 2 { probeAt := 9 })
     s.is (LMP.PROBE.CH.bit 3) = true ∧ ((after (.probeDue 3) s).lamp 3).probeAt = 9 + 20 * 400000) ∧
    (after (.onFaultFree10s 3) (having [(LMP.CHSTAT.RETRIES.i 3, 3)] (lit 2))).get (LMP.CHSTAT.RETRIES.i 3) = 0 ∧
    (lit 3).lampHeld = false ∧ (after (.retryDelayExpire 3) (lit 3)).get (LMP.CHSTAT.RETRIES.i 3) = 1 ∧
    (after (.retryDelayExpire 3) (lit 3)).tb = 100 * 40000 := by decide +kernel

theorem test_holds : (lit 2).domOn Dom.lamp = true ∧ (lit 2).is LMP.NTCCFG.NTCEN = true ∧ (lit 2).is LMP.STAT.NTCHOT = false ∧
    (lit 2).get LMP.NTCCFG.NTCTH = 20 ∧ (after (.ntcHot 79) (lit 2)).lampState 3 = 3 ∧ (after (.ntcHot 80) (lit 2)).lampState 3 = 2 ∧
    (let s := having [(LMP.STAT.NTCHOT, 1), (LMP.CHCTRL.EN.i 3, 1)] (lit 0)
     s.lampWanted 3 = true ∧ s.lampHeldHard = false ∧ (after (.ntcCool 101) s).lampState 3 = 1 ∧
       (after (.ntcCool 100) s).lampState 3 = 0) ∧
    (having [(LMP.CTRL.ENPIN, 1)] (lit 2)).is LMP.CTRL.ENPIN = true ∧
    (after (.lmpenChange false) (having [(LMP.CTRL.ENPIN, 1), (LMP.CHCTRL.EN.i 3, 1)] (lit 2))).lampState 3 = 0 ∧
    (after (.vgdChange 8999) (lit 2)).is LMP.STICKY.VGDUV = true ∧ (after (.vgdChange 8999) (lit 2)).lampState 3 = 0 ∧
    (after (.vgdChange 9499) (after (.vgdChange 8999) (lit 2))).lmp.vgdOk = false ∧ (after (.vgdChange 2999) (lit 2)).gateBall 3 = .floats ∧
    (lit 2 { ovr := some ⟨true, 0, 100, some 7⟩ }).lampState 3 = 2 ∧
    (after (.overrideExpire 3) (lit 2 { ovr := some ⟨true, 0, 100, some 7⟩ })).is LMP.STICKY.OVR = true ∧
    (after (.overrideExpire 3) (lit 2 { ovr := some ⟨true, 0, 100, some 7⟩ })).tb = 8 := by decide +kernel

/-- Relay 0 pulses, or waits. -/
def relays (a b : Relay) (tb pulseEnd : Nat) : State := having [(SYS.ROLE.VAL, 1)] { State.reset with
  lmp := { relay := [a, b], pulseEnd }, clk := { tb } }

theorem test_relays : opens (relays {} {} 0 0) LMP.RLYCTRL 0 true = true ∧ (relays {} {} 0 0).lmp.relay.length = 2 ∧
    State.reset.get SYS.ROLE.VAL = 0 ∧ (after (.relaySet dn0 1) .reset) = .reset ∧
    (after (.relayReset dn0 0) (relays { pulse := some (1, 0) } {} 0 0)).is LMP.STICKY.RLYBUSY = true ∧
    ((after (.relayReset dn0 1) (relays { pulse := some (1, 0) } {} 0 0)).relay 1).waits = some 2 ∧
    ((after (.relaySet dn0 1) (relays {} {} 4009 9)).relay 1).pulse = some (1, 4009) ∧
    ((after (.relaySet dn0 1) (relays { waits := some 1 } {} 4008 9)).relay 1) = { waits := some 1, behind := true } ∧
    (let t := after (.relayPulseEnd 0) (relays { pulse := some (2, 5) } {} 5 0)
     t.get LMP.RLYSTAT.ALAST = 2 ∧ t.tb = 5 + 20 * 4000 ∧ t.lmp.pulseEnd = t.tb) ∧
    ((after (.relayWaitStart 1) (relays {} { waits := some 1 } 5 5)).relay 1).pulse = some (1, 4005) ∧
    (let s := having [(SYS.ROLE.VAL, 0)] (relays {} { waits := some 1 } 5 5)
     s.reachable Dom.lamp = true ∧ after (.relayWaitStart 1) s = s) := by decide +kernel
/-! Metering, references and the gauge. -/

def metering : State := having [(MTR.CTRL.EN, 1)]

/-- Two samples of ±230 V and ±10 A in phase: 2300 W. -/
theorem test_meter : metering.is MTR.CTRL.EN = true ∧ metering.domOn Dom.mtr = true ∧ metering.get MTR.PHCAL.D = 0 ∧
    (let t := after (.meterIntervalEnd [(230000, 10000), (-230000, -10000)] true) metering
     t.get MTR.VRMS.MV = 230000 ∧ t.get MTR.IRMS.MA = 10000 ∧ t.getS MTR.P.W = 23000 ∧ t.is MTR.RSTAT.SAT = true ∧
       t.get MTR.FREQ.MHZ = 40000000 % 65536 ∧ t.tb = 1000 ∧ t.mtr.forward = 46000) ∧
    (let t := after (.meterNozcTimeout [(230000, -1)] false) metering
     t.is MTR.RSTAT.NOZC = true ∧ t.get MTR.FREQ.MHZ = 0 ∧ t.getS MTR.P.W = -3 ∧ t.mtr.reverse = 0) ∧
    opens metering MTR.RSTAT.V 0 false = true ∧
    (after (.rstatRead dn0) (having [(MTR.RSTAT.V, 1)] metering)).is MTR.RSTAT.V = false ∧
    opens metering MTR.EREV.WH 0 false = true ∧
    (let t := after (.energyRead dn0 true) (having [(MTR.EREV.WH, 0xFFFFFF)] metering)
     t.answered dn0 = 0xFFFFFF ∧ t.get MTR.EREV.WH = 0) := by decide +kernel

/-- The references were apart `n` times in a row; the limits are 1.2 mV for a pair and 4.8 mV for C. -/
def apart (n : Nat) : State := having [(REF.STAT.DCNT, n)]

theorem test_references : (apart 0).domOn Dom.mtr = true ∧ (apart 0).get REF.CFG.DRIFTTH = 120 ∧ (apart 0).get REF.CFG.CTH = 48 ∧
    (apart 0).get REF.CFG.DRIFTN = 64 ∧ (after (.refCompare 120 0 0) (apart 5)).get REF.STAT.DCNT = 0 ∧
    (after (.refCompare 121 0 0) (apart 62)).get REF.STAT.DCNT = 63 ∧
    (let t := after (.refCompare 481 0 0) (apart 63)
     t.is REF.STAT.BADA = true ∧ t.ref.due.map (fun d => (d.sel, d.cause)) = some (1, 1)) ∧
    (let t := after (.refCompare 0 481 0) (having [(REF.STAT.SEL, 1)] (apart 63))
     t.is REF.STAT.BADB = true ∧ t.ref.due.map (fun d => (d.sel, d.cause)) = some (0, 1)) ∧
    (let t := after (.refCompare 481 (-481) 0) (apart 63)
     t.is REF.STICKY.UNRESOLVED = true ∧ t.ref.due = none) ∧
    (let s := { State.reset with ref := { due := some ⟨1, 1, 40000⟩ } }
     (after .refSwitchover s).get REF.SWLOG.SEL = 1 ∧ (after .refSwitchover s).tb = 40000) := by decide +kernel

def gauge (uah frac : Nat) : State := having [(GAU.CTRL.EN, 1), (GAU.CHG.UAH, uah)] { State.reset with gau := { frac } }

theorem test_gauge : (gauge 5 0).is GAU.CTRL.EN = true ∧
    (let t := after (.gaugeChargeCount [-180000]) (gauge 5 0)
     t.get GAU.CHG.UAH = 0 ∧ t.gau.frac = 0 ∧ t.is GAU.STAT.HOLD0 = false) ∧
    (let t := after (.gaugeChargeCount [-1]) (gauge 0 0)
     t.get GAU.CHG.UAH = 0 ∧ t.is GAU.STAT.HOLD0 = true ∧ t.getS GAU.I.MA = -1) ∧
    opens (gauge 0 0) GAU.CHG.UAH 0 true = true ∧ (gauge 0 0).get GAU.CFG.CAP = 2000 ∧
    (after (.chgWrite dn0 2000000) (gauge 0 0)).get GAU.SOC.VAL = 1000 ∧
    (after (.chgWrite dn0 5) (gauge 5 0)).is GAU.STAT.ANCH = false ∧
    (after (.chgWrite dn0 2000001) (gauge 0 0)).is GAU.STICKY.RSVD = true ∧
    (let s := having [(GAU.RESTT.MIN, 30)] (gauge 0 0)
     s.get GAU.REST.RESTMIN = 30 ∧ (after (.gaugeReanchor 3260) s).get GAU.CHG.UAH = s.socOf 3260 * 2000 ∧
       (after (.gaugeReanchor 4200) s).get GAU.CHG.UAH = 2000000 ∧
       (after (.gaugeReanchor 4200) (gauge 0 0)).get GAU.CHG.UAH = 0) := by decide +kernel
/-! The output balls (R72, R73, R310, R480, R490, R496, R568, R604, R624). -/

/-- The states of R604: what each ball drives right after reset. -/
theorem test_ballsAtReset : State.reset.hirqBall = .floats ∧ State.reset.lmpfltBall = .floats ∧ State.reset.gateBall 3 = .low ∧
    State.reset.fecBall 5 = .floats ∧ State.reset.epaBall 1 = .low ∧ State.reset.epbBall 1 = .steps 0 ∧
    State.reset.ckoutBall = .low ∧ State.reset.downstreamBall = .floats ∧ State.reset.upstreamBall = .floats ∧ State.reset.gpioBall 29 = .floats ∧
    State.reset.relayBalls 1 = (.low, .low) ∧ State.reset.outagenBall = .floats := by decide +kernel

/-- A doorbell pulls HIRQ, a lamp fault LMPFLT, VBAK OUTAGEN; FEC0 follows port 0's state with OE 1; a ball of a domain that is
off floats. -/
theorem test_ballsDriven : (having [(HIF.HDB.VAL, 1)]).hirqBall = .low ∧
    (having [(LMP.CHSTAT.STATE.i 3, 4)]).lmpfltBall = .low ∧ (having [(PWR.STAT.ONBAK, 1)]).outagenBall = .low ∧
    (having [(RFE.FECCFG.OE.i 0, 1), (RFE.FECCFG.LEVEL.i 0, 2), (RFE.STAT.P0STATE, 1)]).fecBall 0 = .high ∧
    (having [(PWR.STAT.DOMON.bit 7, 0)]).gateBall 0 = .floats ∧
    (having [(GIO.OE.P.bit 29, 1), (GIO.OUT.P.bit 29, 1)]).gpioBall 29 = .high ∧
    (having [(GIO.OE.P.bit 29, 1), (GIO.OUT.P.bit 29, 1), (GIO.OD.P.bit 29, 1)]).gpioBall 29 = .floats := by decide +kernel

/-! What goes on air (R137 to R144, R160). -/

/-- A frame of 11 octets: F2_50 with the 4-octet FCS, plain; F4_100, coded, interleaved and whitened, with 2 octets; GLR_6. -/
def airing (w1 len : Nat) (octets : List Nat) : TxRun :=
  { what := .direct, vi := 0, w0 := len, w1 := 0x01000000 + w1, octets, start := 0 }

theorem test_airLength : (airing 0 11 [1, 2, 3, 4, 5, 6, 7]).symbols.length = 152 ∧
    (airing 0 11 [1, 2, 3, 4, 5, 6, 7]).airBits.take 8 = [false, true, false, true, false, true, false, true] ∧
    (airing 0x1D0C00 11 [1, 2, 3, 4, 5, 6, 7, 8, 9]).symbols.length = (32 + 16 + 16 * 11 + 48) / 2 ∧
    (airing 0x101400 11 [1, 2, 3, 4, 5, 6, 7, 8, 9]).symbols.length = (32 + 32 + 256) / 2 ∧
    (airing 0x101400 11 [1, 2, 3, 4, 5, 6, 7, 8, 9]).phr = 0x100B := by decide +kernel

/-- The generators of R141 and R143 answer an impulse with their taps; the PN9 sequence begins 0000 1111 0 from all ones. -/
theorem test_codes : encode .nrnsc 0 [true, false, false, false] = [true, true, true, true, true, false, true, true] ∧
    encode .glr 0 [true, false, false, false, false, false, false]
      = [true, true, true, false, true, true, true, true, false, false, false, true, true, true] ∧
    pn9 9 (List.replicate 9 true) = [false, false, false, false, true, true, true, true, false] ∧
    encode .rsc 0 (withTail .rsc [true] ++ [false]) =
      [true, true, false, true, true, false, true, true, false, false] ∧
    (wakeCarrier 0x1234 0x56).length = 96 := by decide +kernel

/-! The Denat cores. -/

/-- Core 0 with its stacks and mode, in SRAM, with its vectors at the end of SRAM. -/
def coreWith (ds : List Nat) (k : DnCore := {}) : State := { holding [(0x20001FFC, 0x11), (0x20003FFC, 0x80C0FFEE), (0x20004000, 0x20000101)] with
  dn := { cores := [{ k with pc := 0x20000100, vbar := 0x201FFE00, ds, step := false }, DnCore.reset 1] } }
def task : DnCore := { status := 0x0000000F, trgn := [0x200000EF, 0, 0, 0] }

/-- `Runs`, as a test. -/
def runsB (s : State) (c : Fin 2) (long : Bool) : Bool :=
  s.dn.cores.length == 2 && s.coreRuns c && s.fetchFault c (s.core c).pc long == none && s.ecc.bad == [] && s.ecc.fresh == []
    && s.dbg.breaks == []

theorem runsB_iff (s : State) (c : Fin 2) (long : Bool) : runsB s c long = true ↔ Runs s c long := by
  simp only [runsB, Bool.and_eq_true, beq_iff_eq]
  exact ⟨fun ⟨⟨⟨⟨⟨a, b⟩, x⟩, d⟩, e⟩, f⟩ => ⟨a, b, x, d, e, f⟩, fun ⟨a, b, x, d, e, f⟩ => ⟨⟨⟨⟨⟨a, b⟩, x⟩, d⟩, e⟩, f⟩⟩

/-- `Reaches`, as a test. -/
def reachesB (s : State) (c : Fin 2) (a n : Nat) (write : Bool) : Bool :=
  0x20000000 ≤ a && a + n ≤ 0x20200000 && a % n == 0 && decide (s.route (.core c) a write = .mem a)
    && (s.core c).mayAccess a n (if write then 1 else 0)

theorem reachesB_iff (s : State) (c : Fin 2) (a n : Nat) (write : Bool) : reachesB s c a n write = true ↔ Reaches s c a n write := by
  simp only [reachesB, Bool.and_eq_true, beq_iff_eq, decide_eq_true_eq]
  exact ⟨fun ⟨⟨⟨⟨a, b⟩, x⟩, d⟩, e⟩ => ⟨a, b, x, d, e⟩, fun ⟨a, b, x, d, e⟩ => ⟨⟨⟨⟨a, b⟩, x⟩, d⟩, e⟩⟩

/-- `VectorReadable`, as a test. -/
def vectorB (s : State) (c : Fin 2) (v : Nat) : Bool :=
  let a := (s.core c).vbar + 4 * v
  (s.core c).rs.length ≤ 6 && (s.core c).vbar % 4 == 0 && 0x20000000 ≤ a && a + 4 ≤ 0x20200000
    && decide (s.route (.core c) a false = .mem a)

theorem vectorB_iff (s : State) (c : Fin 2) (v : Nat) : vectorB s c v = true ↔ VectorReadable s c v := by
  simp only [vectorB, Bool.and_eq_true, beq_iff_eq, decide_eq_true_eq]
  exact ⟨fun ⟨⟨⟨⟨a, b⟩, x⟩, d⟩, e⟩ => ⟨a, b, x, d, e⟩, fun ⟨a, b, x, d, e⟩ => ⟨⟨⟨⟨a, b⟩, x⟩, d⟩, e⟩⟩

/-- The operand stack and the flags after an instruction of core 0. -/
def dsAfter (i : Instr) (s : State) : List Nat × Nat := (((after i s).core 0).ds, ((after i s).core 0).status % 16)

theorem test_runs : runsB (coreWith []) 0 false = true ∧ runsB (coreWith []) 0 true = true ∧ runsB (coreWith [] task) 0 true = true ∧
    reachesB (coreWith []) 0 0x201FFFFC 4 true = true ∧ reachesB (coreWith [] task) 0 0x20000000 4 false = true ∧
    (∀ v < 64, vectorB (coreWith []) 0 v = true) ∧ vectorB (coreWith []) 0 128 = false := by decide +kernel

theorem test_stack : dsAfter (.dup 0) (coreWith [7, 1, 2, 3, 4, 5]) = ([7, 7, 1, 2, 3, 4, 5], 0) ∧
    dsAfter (.drop 0) (coreWith [7]) = ([], 0) ∧ dsAfter (.pick 0) (coreWith [65, 8, 9]) = ([9, 8, 9], 0) ∧
    dsAfter (.swap 0) (coreWith [1, 2, 3]) = ([2, 1, 3], 0) ∧ dsAfter (.overTop 0) (coreWith [1, 2]) = ([2, 1, 2], 0) ∧
    dsAfter (.nip 0) (coreWith [1, 2]) = ([1], 0) ∧ dsAfter (.tuck 0) (coreWith [1, 2]) = ([1, 2, 1], 0) ∧
    dsAfter (.rot 0) (coreWith [1, 2, 3]) = ([3, 1, 2], 0) ∧ ((after (.toR 0) (coreWith [5] { rs := [6] })).core 0).rs = [5, 6] ∧
    ((after (.doLoop 0) (coreWith [5])).core 0).rs = [5] ∧ dsAfter (.rFrom 0) (coreWith [1] { rs := [9] }) = ([9, 1], 0) ∧
    dsAfter (.rFetch 0) (coreWith [1] { rs := [9] }) = ([9, 1], 0) ∧ ((after (.rdrop 0) (coreWith [] { rs := [9, 8] })).core 0).rs = [8] ∧
    ((after (.nop 0) (coreWith [])).core 0).pc = 0x20000102 := by decide +kernel

theorem test_spill : reachesB (coreWith [1, 2, 3, 4, 5, 6, 7, 8]) 0 0x20003FFC 4 true = true ∧
    (let t := after (.pushs 0 0x800) (coreWith [1, 2, 3, 4, 5, 6, 7, 8])
     (t.core 0).ds = [0xFFFFF800, 1, 2, 3, 4, 5, 6, 7] ∧ t.word 0x20003FFC = 8 ∧ (t.core 0).dsp = 0x20003FFC) ∧
    (let s := coreWith [9] { rs := [1, 2, 3, 4, 5, 6, 7, 8] }
     reachesB s 0 0x20001FFC 4 true = true ∧ (after (.toR 0) s).word 0x20001FFC = 8) ∧
    (let s := coreWith [] { dsp := 0x20003FFC }
     reachesB s 0 0x20003FFC 4 false = true ∧ ((after (.aset 0 0) s).core 0).a = [0x80C0FFEE, 0, 0, 0]) ∧
    (let s := coreWith [] { rsp := 0x20001FFC }
     ((after (.ret 0) s).core 0).pc = 0x10) := by decide +kernel

theorem test_arithmetic : dsAfter (.add 0) (coreWith [1, 0x7FFFFFFF]) = ([0x80000000], 0xA) ∧
    dsAfter (.adc 0) (coreWith [0, 0xFFFFFFFF] { status := 0x80000001 }) = ([0], 5) ∧
    dsAfter (.sub 0) (coreWith [1, 0x80000000]) = ([0x7FFFFFFF], 2) ∧
    dsAfter (.sbc 0) (coreWith [0, 0] { status := 0x80000001 }) = ([0xFFFFFFFF], 9) ∧ dsAfter (.cmp 0) (coreWith [3, 3]) = ([], 4) ∧
    dsAfter (.neg 0) (coreWith [0x80000000]) = ([0x80000000], 0xB) ∧ dsAfter (.abs 0) (coreWith [0xFFFFFFFF]) = ([1], 0) ∧
    dsAfter (.tst 0) (coreWith [0]) = ([0], 4) ∧ dsAfter (.addi 0 0x800) (coreWith [0x7FF]) = ([0xFFFFFFFF], 8) ∧
    dsAfter (.mul 0) (coreWith [0x10000, 0x10000]) = ([0], 6) ∧ dsAfter (.mull 0) (coreWith [0xFFFFFFFF, 2]) = ([0xFFFFFFFF, 0xFFFFFFFE], 8) ∧
    dsAfter (.mulu 0) (coreWith [0xFFFFFFFF, 2]) = ([1, 0xFFFFFFFE], 0) ∧
    dsAfter (.mulq 0) (coreWith [0x80000000, 0x80000000]) = ([0x7FFFFFFF], 2) ∧
    dsAfter (.div 0) (coreWith [0xFFFFFFFF, 0x80000000]) = ([0x80000000], 0xA) ∧ dsAfter (.mod 0) (coreWith [3, 0xFFFFFFF9]) = ([0xFFFFFFFF], 8) ∧
    dsAfter (.divu 0) (coreWith [3, 0xFFFFFFF9]) = ([0x55555553], 0) ∧ dsAfter (.modu 0) (coreWith [3, 0xFFFFFFF9]) = ([0], 4) := by
  decide +kernel

theorem test_divideByZero : vectorB (coreWith [0, 5]) 0 8 = true ∧
    (let t := after (.div 0) (coreWith [0, 5])
     t.get CPU.XCAUSE.CAUSE = 8 ∧ (t.core 0).rs = [0x80000000, 0x20000100] ∧ t.get CPU.XPC.PC = 0x20000100) := by decide +kernel

theorem test_logicAndShifts : dsAfter (.and 0) (coreWith [6, 3]) = ([2], 0) ∧ dsAfter (.or 0) (coreWith [6, 3]) = ([7], 0) ∧
    dsAfter (.xor 0) (coreWith [3, 3]) = ([0], 4) ∧ dsAfter (.not 0) (coreWith [0]) = ([0xFFFFFFFF], 8) ∧
    dsAfter (.shl 0) (coreWith [32, 1]) = ([0], 5) ∧ dsAfter (.shl 0) (coreWith [0x100, 5] { status := 0x80000001 }) = ([5], 1) ∧
    dsAfter (.shr 0) (coreWith [33, 0x80000000]) = ([0], 5) ∧ dsAfter (.sar 0) (coreWith [31, 0x80000000]) = ([0xFFFFFFFF], 8) ∧
    dsAfter (.ror 0) (coreWith [1, 1]) = ([0x80000000], 9) ∧ dsAfter (.addh2 0) (coreWith [0x80007FFF, 0x80007FFF]) = ([0x80007FFF], 0) ∧
    dsAfter (.subh2 0) (coreWith [1, 0]) = ([0x0000FFFF], 0) ∧ dsAfter (.clz 0) (coreWith [0]) = ([32], 0) ∧
    dsAfter (.sextb 0) (coreWith [0x80]) = ([0xFFFFFF80], 8) ∧ dsAfter (.sexth 0) (coreWith [0x8000]) = ([0xFFFF8000], 8) ∧
    dsAfter (.bswap 0) (coreWith [0x12345678]) = ([0x78563412], 0) := by decide +kernel

theorem test_decimal : packed 99999999 = 0x99999999 ∧ dsAfter (.dadc 0) (coreWith [1, 0x99999999]) = ([0], 5) ∧
    dsAfter (.dsbc 0) (coreWith [1, 0]) = ([0x99999999], 1) ∧ dsAfter (.dsbc 0) (coreWith [0, 0xC]) = ([0xC], 2) ∧ dsAfter (.daj 0) (coreWith [0x99999999]) = ([0x99999999], 0) ∧
    dsAfter (.dchk 0) (coreWith [0x12345678]) = ([0x12345678], 0) ∧ dsAfter (.d2b 0) (coreWith [0x99999999]) = ([99999999], 0) ∧
    dsAfter (.b2d 0) (coreWith [99999999]) = ([0x99999999], 0) ∧ dsAfter (.setc 0) (coreWith []) = ([], 1) ∧
    dsAfter (.clc 0) (coreWith [] { status := 0x8000000F }) = ([], 0xE) := by decide +kernel

/-- A0 is 0x20003FFC, of a modulo buffer of 8 bytes there. -/
def pointing : DnCore := { a := [0x20003FFC, 0x20003FFE, 0, 0], abase := [0x20003FFC, 0, 0, 0], amode := [0x40000008, 0, 0, 0] }

theorem test_loads : reachesB (coreWith []) 0 0x20003FFC 4 false = true ∧ dsAfter (.ldw 0 false) (coreWith [0x20003FFC]) = ([0x80C0FFEE], 0) ∧
    dsAfter (.ldh 0) (coreWith [0x20003FFC]) = ([0xFFEE], 0) ∧ dsAfter (.ldhs 0) (coreWith [0x20003FFC]) = ([0xFFFFFFEE], 0) ∧
    dsAfter (.ldb 0) (coreWith [0x20003FFD]) = ([0xFF], 0) ∧ dsAfter (.ldbs 0) (coreWith [0x20003FFD]) = ([0xFFFFFFFF], 0) ∧
    dsAfter (.ldd 0) (coreWith [0x20003FFC]) = ([0x20000101, 0x80C0FFEE], 0) ∧
    dsAfter (.lds 0 0 1) (coreWith [] pointing) = ([0x20000101], 0) ∧
    runsB (coreWith [0x20004000]) 0 true = true ∧ dsAfter (.ldo 0 3 0xFFFC) (coreWith [0x20004000]) = ([0xFFFFFFEE], 0) ∧
    stepped 0x40000008 0x20003FFC 0x20003FFC 4 (-1) = some 0x20004003 ∧
    ((after (.lda 0 0 0 0xFF) (coreWith [] pointing)).core 0).a = [0x20004003, 0x20003FFE, 0, 0] := by decide +kernel

theorem test_cacheParity : (after (.ldw 0 true) (coreWith [0x20003FFC])).get (CPU.CACHEERR.CNT.i 0) = 1 ∧
    dsAfter (.ldw 0 true) (coreWith [0x20003FFC]) = ([0x80C0FFEE], 0) ∧
    (after (.stw 0 true) (coreWith [0x201FFFFC, 0x12345678])).is CPU.STICKY.CACHEPAR = true := by decide +kernel

theorem test_stores : (after (.stw 0 false) (coreWith [0x201FFFFC, 0x12345678])).word 0x201FFFFC = 0x12345678 ∧
    (after (.sth 0) (coreWith [0x20003FFC, 0x1234])).word 0x20003FFC = 0x80C01234 ∧
    (after (.stb 0) (coreWith [0x20003FFD, 0x1234])).word 0x20003FFC = 0x80C034EE ∧
    reachesB (coreWith [0x201FFFF8, 2, 1]) 0 0x201FFFF8 8 true = true ∧
    (after (.std 0) (coreWith [0x201FFFF8, 2, 1])).word 0x201FFFFC = 2 ∧
    (after (.sts 0 0 1) (coreWith [7] pointing)).word 0x20004000 = 7 ∧
    (after (.sto 0 1 0xFFFE) (coreWith [0x20004000, 0x5555])).word 0x20003FFC = 0x5555FFEE ∧
    (let t := after (.sta 0 0 2 4) (coreWith [9] pointing)
     t.word 0x20003FFC = 9 ∧ (t.core 0).a.getD 0 0 = 0x20004000) := by decide +kernel

/-- The PC after an instruction of core 0. -/
def pcAfter (i : Instr) (s : State) : Nat := ((after i s).core 0).pc

theorem test_controlFlow : pcAfter (.ret 0) (coreWith [] { rs := [0x20000301] }) = 0x20000300 ∧
    (let t := after (.reti 0) (coreWith [] { rs := [0x5, 0x20000300] })
     (t.core 0).pc = 0x20000300 ∧ (t.core 0).status = 5) ∧ pcAfter (.jmp 0) (coreWith [0xFFFFFFFF]) = 0xFFFFFFFE ∧
    ((after (.callx 0) (coreWith [0x20000200])).core 0).rs = [0x20000102] ∧ pcAfter (.br 0 0x800) (coreWith []) = 0x1FFFF100 ∧
    pcAfter (.bz 0 1) (coreWith [0]) = 0x20000102 ∧ pcAfter (.bz 0 2) (coreWith [0]) = 0x20000104 ∧
    pcAfter (.bnz 0 2) (coreWith [0]) = 0x20000102 ∧ pcAfter (.call 0 0x7FF) (coreWith []) = 0x200010FE ∧
    pcAfter (.loop 0 0xFFF) (coreWith [] { rs := [2] }) = 0x200000FE ∧ ((after (.loop 0 5) (coreWith [] { rs := [1] })).core 0).rs = [] ∧
    ((after (.loop 0 5) (coreWith [] { rs := [0] })).core 0).rs = [0xFFFFFFFF] ∧
    pcAfter (.bcc 0 1 4) (coreWith [] { status := 0x80000004 }) = 0x20000108 ∧ pcAfter (.bcc 0 1 4) (coreWith []) = 0x20000102 ∧
    pcAfter (.brl 0 0x800000) (coreWith []) = 0x1F000100 ∧ ((after (.calll 0 1) (coreWith [])).core 0).rs = [0x20000104] := by decide +kernel

theorem test_literals : dsAfter (.pushs 0 0x7FF) (coreWith []) = ([0x7FF], 0) ∧ dsAfter (.aget 0 1) (coreWith [] pointing) = ([0x20003FFE], 0) ∧
    ((after (.aset 0 3) (coreWith [5])).core 0).a = [0, 0, 0, 5] ∧
    ((after (.astep 0 1 0x80) (coreWith [] pointing)).core 0).a.getD 1 0 = 0x20003F7E ∧
    ((after (.astep 0 0 8) (coreWith [] pointing)).core 0).a.getD 0 0 = 0x20003FFC ∧
    dsAfter (.pushl 0 0x800000) (coreWith []) = ([0xFF800000], 0) ∧ dsAfter (.pushhi 0 0xFFFF) (coreWith []) = ([0xFFFF0000], 0) ∧
    dsAfter (.ori 0 0xFFFF) (coreWith [0x80000000]) = ([0x8000FFFF], 8) ∧
    (let s := coreWith [10] { a := [0x20003FFC, 0x20003FFE, 0, 0] }
     reachesB s 0 0x20003FFC 2 false = true ∧ reachesB s 0 0x20003FFE 2 false = true ∧ bits ((s.core 0).amode.getD 0 0) 31 30 = 0 ∧
       dsAfter (.macx 0 0 1 2 0xFE) s = ([10 + 18 * 32576], 0)) := by decide +kernel

theorem test_system : pcAfter (.fence 0) (coreWith []) = 0x20000102 ∧ pcAfter (.syncia 0) (coreWith []) = 0x20000102 ∧
    dsAfter (.synci 0) (coreWith [5]) = ([], 0) ∧ ((after (.ei 0) (coreWith [])).core 0).status = 0xC0000000 ∧
    ((after (.di 0) (coreWith [] { status := 0xC0000000 })).core 0).status = 0x80000000 ∧ (coreWith []).nextSource 0 0 = none ∧
    ((after (.sleep 0) (coreWith [])).core 0).asleep = true ∧ ((coreWith [] task).core 0).machine = false ∧
    (after (.sleep 0) (coreWith [] task)).get CPU.XCAUSE.CAUSE = 2 ∧ vectorB (coreWith [] task) 0 2 = true ∧
    (after (.brk 0) (coreWith [])).get CPU.XCAUSE.CAUSE = 10 ∧
    (let s := coreWith [] { held := true } |> fun s => { s with dn := { cores := s.dn.cores.map fun k => { k with step := k.held } } }
     runsB s 0 false = true ∧ pcAfter (.brk 0) s = 0x20000100) ∧
    (let t := after (.trap 0 255) (coreWith [])
     t.get CPU.XCAUSE.CAUSE = 9 ∧ t.get CPU.XCAUSE.ARG = 255 ∧ t.get CPU.XCAUSE.LONG = 1) ∧
    dsAfter (.rdc 0 8) (coreWith []) = ([0x201FFE00], 0) ∧ ((after (.wrc 0 8) (coreWith [0xFFFFFFFF])).core 0).vbar = 0xFFFFFE00 ∧
    ((after (.wrc 0 1) (coreWith [0x20003FFF])).core 0).dsp = 0x20003FFC ∧
    ((after (.wrc 0 0) (coreWith [0xFFFFFFFF])).core 0).status = 0xF000000F := by decide +kernel

/-- A doorbell at level 1. -/
def rung (k : DnCore) : State := having [(CPU.IPRIO2.L, 2 ^ 12), (CPU.DBSTAT.DB, 1)] (coreWith [] k)

theorem test_interrupts : (rung {}).nextSource 0 0 = some (38, 1) ∧ ((after (.sleep 0) (rung {})).core 0).asleep = false ∧
    (let s := rung { status := 0xC0000003 }
     bitOf (s.core 0).status 30 = 1 ∧ vectorB s 0 54 = true ∧ (s.nextSource 0 1) = none ∧
       (let t := after (.interruptEntry 0) s
        (t.core 0).status = 0xD0000003 ∧ (t.core 0).rs = [0xC0000003, 0x20000100])) ∧
    (let s := rung { asleep := true }
     (s.core 0).asleep = true ∧ s.reachable Dom.core = true ∧ ((after (.sleepWake 0) s).core 0).asleep = false) := by decide +kernel

/-- A core at an address that no memory is at; one whose PC is at an undefined encoding. -/
def astray : State := { coreWith [] with dn := { cores := [{ pc := 0x28000000, vbar := 0x201FFE00 }, DnCore.reset 1] } }

theorem test_coreEvents : astray.coreRuns 0 = true ∧ astray.fetchFault 0 0x28000000 false = some (.fetch 0x28000000) ∧
    vectorB astray 0 3 = true ∧ (after (.fetchFault 0 false) astray).get CPU.XADDR.A = 0x28000000 ∧
    undefinedHalf 0xDFFF = true ∧ (after (.undefinedInstruction 0 0xDFFF) (coreWith [])).get CPU.XFAULT.E = 0xDFFF ∧
    undefinedLong 0xFFFFFFFF = true ∧ (after (.undefinedInstruction 0 0xFFFFFFFF) (coreWith [])).get CPU.XCAUSE.LONG = 1 := by
  decide +kernel
/-! The block as a whole. -/

theorem test_step : step { State.reset with pending := [.tapReset, .nop 0] } = exec .tapReset { State.reset with pending := [.nop 0] } := rfl

theorem test_idle : State.reset.clk.savedTb = none ∧ State.reset.pwr.inReset = false ∧ State.reset.pending = [] ∧
    next (step State.reset) = { State.reset with clk := { tb := 1 } } ∧ asleep.pending = [] ∧
    (let s := { State.reset with clk := { savedTb := some 4 } }
     s.clk.savedTb ≠ none ∧ next (step s) = s) := by decide +kernel

theorem test_wf : segmented.wf = true ∧ framed.wf = true := by decide +kernel

/-- A register of the last table, in a copy of its own. -/
theorem test_resetValues : (Page.table .GIO).length ≠ 0 ∧ State.reset.reg (GAU.CFG.CAP.key) = 0x07D003E8 ∧
    State.reset.reg ((SHU.FORMCFG.LF.copy 15).key) = 0x04110800 := by decide +kernel

/-- SOC is at its threshold of 10 %, anchored. -/
def charged : State := having [(GAU.STAT.ANCH, 1), (GAU.SOC.VAL, 100), (GAU.CTRL.EN, 1), (GAU.CHG.UAH, 200000), (GAU.RESTT.MIN, 30)]

theorem test_lowCharge : charged.get GAU.LOWTH.SOC = 100 ∧ charged.domOn Dom.mtr = true ∧ opens charged GAU.CHG.UAH 0 true = true ∧
    (after (.chgWrite dn0 199999) charged).is GAU.STICKY.LOWSOC = true ∧
    (after (.chgWrite dn0 200001) charged).is GAU.STICKY.LOWSOC = false ∧
    (after (.gaugeChargeCount [-1]) charged).is GAU.STICKY.LOWSOC = true ∧
    (after (.gaugeChargeCount [0]) charged).is GAU.STICKY.LOWSOC = false ∧
    charged.get GAU.REST.RESTMIN ≤ charged.get GAU.RESTT.MIN ∧ (after (.gaugeReanchor 2800) charged).is GAU.STICKY.LOWSOC = true := by
  decide +kernel

/-- The page SHU while MAC is off, at its own address and in the window of VI 15. -/
theorem test_domainOffAccess : macOff.pageOn .SHU 0xFFC = false ∧ macOff.boundTo dn0 = 0 ∧
    (let a := pageBase + Page.SHU.code * 0x1000 + 0xFFC
     (after (.domainOffAccess dn0 (BitVec.ofNat 32 a) none) macOff).is SYS.STICKY.DOMOFF = true) ∧
    ((List.range 0x80).find? fun n => viewPage n == some .SHU).isSome = true := by decide +kernel

theorem test_frames : storesNothing .tapReset = true ∧ drivePages (.probeDue 0) = some [] ∧ timePages .tapReset = some [] ∧
    radioPages .quiesceComplete = some [] ∧ (having [(CLK.SLOTLEN.LEN, 5)]).get CLK.SLOTLEN.LEN = 5 := by decide +kernel

theorem test_shadows : iniCopy dn0 ≠ iniCopy (.core 1) ∧ iniCopy (.host 0) = iniCopy (.host 15) := by decide +kernel

/-! The bounds of commands: a command at its bound, and one past it. -/

/-- A list of `n` elements. -/
def many {α : Type} (n : Nat) (x : α) : List α := List.replicate n x

theorem test_bounds_blocks :
    (∀ f ∈ [fun b => Instr.keyload dn0 b 0, fun b => .tenancyOpen dn0 b 0, fun b => .tenancyModify dn0 b 0, fun b => .tenancyClose dn0 b 0,
        fun b => .dbgreopen dn0 b 0, fun b => .activate dn0 b 0, fun b => .lampovrRelease dn0 b 0, fun b => .lampovrOff dn0 b 0,
        fun b => .lampovrLevel dn0 b 0, fun b => .refovrSelect dn0 b 0, fun b => .refovrAuto dn0 b 0, fun b => .regtight dn0 b 0,
        fun b => .ctrreset dn0 b 0, fun b => .commandReservedId dn0 9 b],
      (f (many 62 0)).wellFormed = true ∧ (f (many 63 0)).wellFormed = false) := by decide +kernel

theorem test_bounds_cascade :
    (Instr.relayedFrame (many 2047 0) 0 0 0 (0, 0) 0 0 0 0 0 true 0 0 0 0).wellFormed = true ∧
    (Instr.relayedFrame (many 2048 0) 0 0 0 (0, 0) 0 0 0 0 0 true 0 0 0 0).wellFormed = false ∧
    (Instr.handoverRecordReceive (many 32 0)).wellFormed = true ∧ (Instr.handoverRecordReceive (many 31 0)).wellFormed = false ∧
    (Instr.trainingDone (many 16 0) 0 0).wellFormed = true ∧ (Instr.trainingDone (many 15 0) 0 0).wellFormed = false ∧
    (Instr.remoteAccessServe 0 15 (some (many 16 0))).wellFormed = true ∧
    (Instr.remoteAccessServe 0 15 (some (many 15 0))).wellFormed = false ∧
    (Instr.remoteAccessDone 0 (many 16 0)).wellFormed = true ∧ (Instr.remoteAccessDone 0 (many 17 0)).wellFormed = false := by
  decide +kernel

theorem test_bounds_others :
    (Instr.rd 0 0 1).wellFormed = true ∧ (Instr.rd 0 0 0).wellFormed = false ∧ (Instr.rdf 0 0 0).wellFormed = false ∧
    (Instr.wr 0 0 [5] [] false).wellFormed = true ∧ (Instr.wr 0 0 [] [] false).wellFormed = false ∧
    (Instr.wrf 0 0 [5] [1, 1] false).wellFormed = false ∧
    (Instr.scrubRead 0 0x1FFFFF 0).wellFormed = true ∧ (Instr.scrubRead 0 0x200000 0).wellFormed = false ∧
    (Instr.eccWriteBack 4 0x3FFFF).wellFormed = true ∧ (Instr.eccWriteBack 4 0x40000).wellFormed = false ∧
    (Instr.rxWindowOpen 255).wellFormed = true ∧ (Instr.rxWindowOpen 256).wellFormed = false ∧
    (Instr.rxWindowClose 256).wellFormed = false ∧ (Instr.stagingBufferLoad 256).wellFormed = false ∧
    (Instr.meterIntervalEnd [(0, 0)] false).wellFormed = true ∧ (Instr.meterIntervalEnd [] false).wellFormed = false ∧
    (Instr.meterNozcTimeout (many 1600 (0, 0)) false).wellFormed = true ∧
    (Instr.meterNozcTimeout (many 1601 (0, 0)) false).wellFormed = false ∧
    (Instr.shortDetect 0 4095).wellFormed = true ∧ (Instr.shortDetect 0 4096).wellFormed = false ∧
    (Instr.ovpDetect 0 4096).wellFormed = false ∧ (Instr.ntcHot 4096).wellFormed = false ∧ (Instr.ntcCool 4096).wellFormed = false ∧
    (Instr.gaugeReanchor 65535).wellFormed = true ∧ (Instr.gaugeReanchor 65536).wellFormed = false := by decide +kernel
end Sys2Proof.Tests
end

section
/-! What the register map says of itself: every register of a table stands where `findReg` looks for it. -/

namespace Sys2Proof.Proofs

open Sys2Proof.Machine Sys2Proof.Laws

theorem ofCode_code (p : Page) : Page.ofCode p.code = some p := by cases p <;> rfl

theorem code_lt (p : Page) : p.code < 0x26 := by cases p <;> decide

/-- The page with a code has that code. -/
theorem code_of_ofCode {k : Nat} {p : Page} (h : Page.ofCode k = some p) : p.code = k := by
  unfold Page.ofCode at h
  split at h <;> cases h <;> rfl

/-- Whether each register of a table lies in its page and is found there with its own reset value. -/
def tableFound (t : List RegDesc) : Bool :=
  t.all fun d => (List.range d.count).all fun n =>
    decide (d.off + d.stride * n < 0x1000) && (findReg t (d.off + d.stride * n)).map (·.reset) == some d.reset

theorem table_found (p : Page) : tableFound p.table = true := by cases p <;> decide +kernel

/-- The address of a register of a page, in any copy, by its page code and its offset. -/
theorem key_parts (c off copy : Nat) (hc : c < 0x26) (ho : off < 0x1000) :
    keyAddr (pageBase + c * 0x1000 + off + 0x100000000 * copy) = pageBase + c * 0x1000 + off ∧
      addrPage (pageBase + c * 0x1000 + off) = c ∧ (pageBase + c * 0x1000 + off) % 0x1000 = off := by
  unfold keyAddr addrPage pageBase
  omega

/-- The reset value of a register that its page's table describes, in every copy (R27). -/
theorem resetWord_of_table {p : Page} {d : RegDesc} (hd : d ∈ p.table) {n : Nat} (hn : n < d.count) (c : Nat) :
    resetWord (pageBase + p.code * 0x1000 + d.off + d.stride * n + 0x100000000 * c) = BitVec.ofNat 32 d.reset := by
  have ht := table_found p
  simp only [tableFound, List.all_eq_true, List.mem_range, Bool.and_eq_true, decide_eq_true_eq, beq_iff_eq,
    Option.map_eq_some_iff] at ht
  obtain ⟨ho, e, he, hr⟩ := ht d hd n hn
  obtain ⟨ha, hp, hm⟩ := key_parts p.code (d.off + d.stride * n) c (code_lt p) ho
  rw [Nat.add_assoc (pageBase + p.code * 0x1000), resetWord, ha, hp, hm, ofCode_code]
  simp only [he, hr]

/-- Settles O5: the reset state lists no register, so each holds its `resetWord`, which is its table's. -/
theorem resetValues : Obligations.ResetValues := by
  intro p d hd n hn c
  exact resetWord_of_table hd hn c

end Sys2Proof.Proofs
end

section
/-! What actions leave as it was, said once for any part of the state, and the exact run of a sticky bit's rise. -/

namespace Sys2Proof.Proofs

open Sys2Proof.Machine Sys2Proof.Laws

/-! Completion. -/

/-- A command whose meaning is an action completes with what holds after the action. -/
theorem completes_of_run {c : Instr} {s : State} {P : State → Prop} (a : Act) (h : exec c s = act a s)
    (hp : P (Act.run a s)) : Completes c s P := ⟨_, h.trans (act_next a s), hp⟩

/-! Parts of the state that an action fixes. -/

/-- An action that never changes a part of the state. -/
def Fixes {α : Type} (φ : State → α) (a : Act) : Prop := ∀ s, φ (Act.run a s) = φ s

variable {α β : Type} {φ : State → α}

theorem fixes_skip : Fixes φ skip := fun _ => rfl

theorem fixes_nil : Fixes φ (chain []) := fun _ => rfl

theorem fixes_cons {a : Act} {l : List Act} (ha : Fixes φ a) (hl : Fixes φ (chain l)) : Fixes φ (chain (a :: l)) :=
  fun s => by rw [run_chain_cons, hl, ha]

theorem fixes_look {g : State → Act} (h : ∀ s, Fixes φ (g s)) : Fixes φ (look g) := fun s => h s s

theorem fixes_whenA {c : Bool} {a : Act} (h : Fixes φ a) : Fixes φ (whenA c a) := by
  cases c
  · exact fixes_skip
  · exact h

theorem fixes_ite {c : Prop} [Decidable c] {a b : Act} (ha : Fixes φ a) (hb : Fixes φ b) :
    Fixes φ (if c then a else b) := by
  split <;> assumption

theorem fixes_eachA {l : List β} {f : β → Act} (h : ∀ x, Fixes φ (f x)) : Fixes φ (eachA l f) := by
  induction l with
  | nil => exact fixes_nil
  | cons x l ih => exact fixes_cons (h x) ih

/-- Memory and the Pattern RAM. -/
def store (s : State) : List Host.Cell × List (Nat × Nat) := (s.mem, s.pat)

theorem sameStore_iff {s t : State} : SameStore s t ↔ store t = store s := by
  simp [SameStore, store]

theorem Fixes.sameStore {a : Act} (h : Fixes store a) (s : State) : SameStore s (Act.run a s) :=
  sameStore_iff.mpr (h s)

/-! A sticky bit's rise (R15, R20, R539). -/

/-- Recorder triggers only add to the definitions that have fired. -/
theorem run_eachA_fired (g : Nat → Fired) (l : List Nat) (s : State) :
    Act.run (eachA l fun k => onRecd fun r => { r with fired := r.fired ++ [g k] }) s =
      Eff.apply s (.recd { s.recd with fired := s.recd.fired ++ l.map g }) := by
  induction l generalizing s with
  | nil => rw [List.map_nil, List.append_nil]; rfl
  | cons k l ih => rw [run_eachA_cons, run_onRecd, ih]; simp [Eff.apply]

/-- The report of a sticky bit's rise. -/
def riseReport (at_ : Nat) (f : Fld) (inst info : Nat) : Report := ⟨at_, addrPage f.key, inst, f.lo, 1, info⟩

/-- The state after the bit and its report. -/
def risen (at_ : Nat) (f : Fld) (inst info : Nat) (s : State) : State :=
  Act.run (whenA (addrPage f.key != 0x03 && reports (Eff.apply s (.put f 1)) f) (sendReport (riseReport at_ f inst info)))
    (Eff.apply s (.put f 1))

/-- A rise is the bit, its report, and recorder triggers. -/
theorem run_stickRise_eq (at_ : Nat) (f : Fld) (inst info : Nat) (s : State) : ∃ l,
    Act.run (stickRise at_ f inst info) s = Eff.apply (risen at_ f inst info s)
      (.recd { (risen at_ f inst info s).recd with fired := (risen at_ f inst info s).recd.fired ++ l }) := by
  simp only [stickRise, run_chain_cons, run_chain_nil, run_put, run_look]
  change ∃ l, Act.run (whenA _ _) (risen at_ f inst info s) = _
  rw [run_whenA]
  split
  · exact ⟨_, run_eachA_fired _ _ _⟩
  · exact ⟨[], by rw [List.append_nil]; rfl⟩

/-- A report leaves the recorder alone. -/
theorem fixes_sendReport_recd (r : Report) : Fixes State.recd (sendReport r) := fun s => by
  obtain ⟨b, h⟩ := run_sendReport r s
  rw [h, flt_recd]

theorem risen_recd (at_ : Nat) (f : Fld) (inst info : Nat) (s : State) : (risen at_ f inst info s).recd = s.recd :=
  fixes_whenA (fixes_sendReport_recd _) _

/-- The collector's part of a rise is the report's. -/
theorem stickRise_flt (at_ : Nat) (f : Fld) (inst info : Nat) (s : State) :
    (Act.run (stickRise at_ f inst info) s).flt = (risen at_ f inst info s).flt := by
  obtain ⟨l, h⟩ := run_stickRise_eq at_ f inst info s
  rw [h, recd_flt]

/-- With CORE on a report joins those on their way to the collector (R20). -/
theorem run_sendReport_core {s : State} (h : s.domOn Dom.core = true) (r : Report) :
    Act.run (sendReport r) s = Eff.apply s (.flt { s.flt with sent := s.flt.sent ++ [r] }) := by
  simp [sendReport, Act.run, h]

theorem run_stickAt_of_set {s : State} {f : Fld} (h : s.is f = true) (at_ inst info : Nat) :
    Act.run (stickAt at_ f inst info) s = s := by
  simp [stickAt, h]

theorem run_stickAt_of_clear {s : State} {f : Fld} (h : s.is f = false) (at_ inst info : Nat) :
    Act.run (stickAt at_ f inst info) s = Act.run (stickRise at_ f inst info) s := by
  simp [stickAt, h]

/-- A bit of the collector's own page reports nothing (R20). -/
theorem fixes_stick_flt {f : Fld} (h : addrPage f.key = 0x03) : Fixes State.flt (stick f) := fun s => by
  unfold stick stickI
  rw [run_look]
  cases hs : s.is f
  · rw [run_stickAt_of_clear hs, stickRise_flt]
    simp [risen, h]
  · rw [run_stickAt_of_set hs]

/-- A part of the state that a write of a field, the collector and the recorder leave alone, a sticky bit leaves alone. -/
theorem fixes_stickAt (at_ : Nat) (f : Fld) (inst info : Nat)
    (h : ∀ s v b c, φ (Eff.apply (Eff.apply (Eff.apply s (.put f v)) (.flt b)) (.recd c)) = φ s) :
    Fixes φ (stickAt at_ f inst info) := fun s => by
  obtain ⟨b, c, hr⟩ := run_stickAt at_ f inst info s
  rw [hr]
  split
  · rfl
  · exact h s 1 b c

theorem fixes_stickI (f : Fld) (inst info : Nat)
    (h : ∀ s v b c, φ (Eff.apply (Eff.apply (Eff.apply s (.put f v)) (.flt b)) (.recd c)) = φ s) :
    Fixes φ (stickI f inst info) := fixes_look fun s => fixes_stickAt s.tb f inst info h

theorem fixes_stick (f : Fld)
    (h : ∀ s v b c, φ (Eff.apply (Eff.apply (Eff.apply s (.put f v)) (.flt b)) (.recd c)) = φ s) :
    Fixes φ (stick f) := fixes_stickI f 0 0 h

/-! One-bit fields. -/

/-- Whether a field is 1 after a write of another that shares no bit with it. -/
theorem put_is_apart (s : State) {f g : Fld} (v : Nat) (h : f.lo + f.width ≤ 32) (hd : apart f g = true) :
    (Eff.apply s (.put f v)).is g = s.is g := by
  simp only [State.is, put_get_apart s f g v h hd]

/-- A one-bit field after a write of it. -/
theorem put_is_same (s : State) (f : Fld) (v : Nat) (hw : f.width = 1) (h : f.lo < 32) :
    (Eff.apply s (.put f v)).is f = (v % 2 != 0) := by
  simp [State.is, put_get_same s f v (by omega), hw]

/-- A one-bit field that is 1 stays 1 when one that is 0 is set. -/
theorem put_is_stays {s : State} {f g : Fld} (hf : s.is f = false) (hg : s.is g = true) (wf : f.width = 1)
    (wg : g.width = 1) (hl : f.lo < 32) : (Eff.apply s (.put f 1)).is g = true := by
  have hd : apart f g = true := by
    by_contra hc
    have hk : f.key = g.key ∧ f.lo = g.lo := by
      simp only [apart, wf, wg, Bool.or_eq_true, bne_iff_ne, ne_eq, decide_eq_true_eq, not_or, not_not] at hc
      omega
    have : s.is f = s.is g := by simp only [State.is, State.get, hk, wf, wg]
    simp [hf, hg] at this
  rw [put_is_apart s 1 (by omega) hd, hg]

end Sys2Proof.Proofs
end

section
/-! The fault collector (R15, R20, R349 to R352). -/

namespace Sys2Proof.Proofs

open Sys2Proof.Machine Sys2Proof.Laws

theorem domOn_put_stays {s : State} {f : Fld} {d : Nat} (hf : s.is f = false) (hd : s.domOn d = true) (hw : f.width = 1)
    (hl : f.lo < 32) : (Eff.apply s (.put f 1)).domOn d = true := put_is_stays hf hd hw rfl hl

/-- A sticky bit's rise with CORE on and its FLTEN bit 1 sends its report. -/
theorem stickI_sends {s : State} {f : Fld} (inst info : Nat) (hw : f.width = 1) (hl : f.lo < 32)
    (hp : addrPage f.key ≠ 0x03) (hc : s.domOn Dom.core = true) (hs : s.is f = false)
    (hr : reports (Eff.apply s (.put f 1)) f = true) :
    (Act.run (stickI f inst info) s).flt.sent = s.flt.sent ++ [riseReport s.tb f inst info] := by
  rw [stickI, run_look, run_stickAt_of_clear hs, stickRise_flt, risen, run_whenA,
    if_pos (by simp [hp, hr]), run_sendReport_core (domOn_put_stays hs hc hw hl)]
  rfl

theorem stickyReportsHold : StickyReportsHold := by
  intro s f inst info hw hl hp hc
  refine ⟨fun hs hr => ⟨stickI_sends inst info hw hl hp hc hs hr, stickI_is f inst info s hw hl⟩, fun hs => ?_⟩
  rw [stickI, run_look, run_stickAt_of_set hs]

/-! The collector. -/

/-- Time passes to a due moment, or stands. -/
theorem run_until (t : Nat) (s : State) :
    Act.run (until_ t) s = if s.clk.tb < t then Eff.apply s (.clk { s.clk with tb := t % 2 ^ 64 }) else s := by
  simp only [until_, Act.run]
  by_cases h : s.clk.tb < t
  · simp only [h, if_true]; rfl
  · simp only [h, if_false, applyAll_nil]

theorem fixes_until {α : Type} {φ : State → α} (h : ∀ s b, φ (Eff.apply s (.clk b)) = φ s) (t : Nat) : Fixes φ (until_ t) :=
  fun s => by
    rw [run_until]
    split
    · exact h _ _
    · rfl

theorem run_count (f : Fld) (s : State) :
    Act.run (count f) s = Eff.apply s (.put f (min (s.get f + 1) (2 ^ f.width - 1))) := rfl

/-- A report that finds room is staged (R349). -/
theorem run_stageReport_room {s : State} (h : s.flt.staged.length < 256) (hl : s.flt.lost = none) (r : Report) :
    Act.run (stageReport r) s = { s with flt := { s.flt with staged := s.flt.staged ++ [r] } } := by
  have h' : ¬ (decide (s.flt.staged.length ≥ 256) || s.flt.lost.isSome) = true := by simp [hl, h]
  rw [stageReport, run_look, if_neg h', run_onFlt]
  rfl

/-- What an append adds: the entry, QAVAIL and the pulse of producer FLTQ (R352). -/
theorem appendEntry_flt (r : Report) (s : State) :
    (Act.run (appendEntry r) s).flt = { s.flt with queue := s.flt.queue ++ [r] } := by
  simp only [appendEntry, run_chain_cons, run_chain_nil, run_pulse, stm_flt, run_onFlt]
  rw [fixes_stick_flt rfl, flt_flt]

theorem appendEntry_qavail (r : Report) (s : State) : (Act.run (appendEntry r) s).is FLT.STICKY.QAVAIL = true := by
  simp only [appendEntry, run_chain_cons, run_chain_nil, run_pulse, stm_is]
  exact stick_is _ _ rfl (by decide)

theorem appendEntry_pulse (r : Report) (s : State) :
    (34, (Act.run (appendEntry r) s).tb) ∈ (Act.run (appendEntry r) s).stm.pulses := by
  simp [appendEntry]

theorem fixes_appendEntry_store (r : Report) : Fixes store (appendEntry r) :=
  fixes_cons (fun _ => rfl) (fixes_cons (fixes_stick _ fun _ _ _ _ => rfl) (fixes_cons (fun _ => rfl) fixes_nil))

/-- The collector's part of a loss where an overflow is open (R351). -/
theorem loseReport_flt {s : State} {m : Report} (r : Report) (h : s.flt.lost = some m) (hb : r.before m = true) :
    (Act.run (loseReport r) s).flt = { s.flt with lost := some r } := by
  simp [loseReport, run_count, h, hb]

/-- The counter of a page's lost reports counts a loss, up to its largest value (R351). -/
theorem loseReport_counts (r : Report) (s : State) :
    (Act.run (loseReport r) s).get (lostFld r.page) = min (s.get (lostFld r.page) + 1) 255 := by
  have hw : (lostFld r.page).width = 8 := rfl
  have hlo : (lostFld r.page).lo = 8 * (r.page % 4) := Nat.zero_add _
  simp only [loseReport, run_chain_cons, run_chain_nil, run_onFlt, flt_get, run_count]
  rw [put_get_same _ _ _ (by omega), hw]
  omega

theorem reportArrives {s : State} {r : Report} {l : List Report} (hs : s.flt.sent = r :: l)
    (h : s.flt.staged.length < 256) (hl : s.flt.lost = none) :
    exec .faultReportArrive s = .next { s with flt := { s.flt with sent := l, staged := s.flt.staged ++ [r] } } := by
  show act _ s = _
  rw [act_next, run_look, hs]
  simp only [run_chain_cons, run_chain_nil, run_onFlt]
  exact congrArg Host.Outcome.next (run_stageReport_room (s := Eff.apply s (.flt { s.flt with sent := l })) h hl r)

/-- The state in which the lowest staged report is appended or lost. -/
def unstaged (r : Report) (s : State) : State :=
  Act.run (chain [until_ (r.tb + 2), onFlt fun f => { f with staged := dropReport r f.staged }]) s

theorem unstaged_flt (r : Report) (s : State) :
    (unstaged r s).flt = { s.flt with staged := dropReport r s.flt.staged } := by
  simp [unstaged, fixes_until (φ := State.flt) (fun _ _ => rfl) _ s]

theorem unstaged_store (r : Report) (s : State) : store (unstaged r s) = store s :=
  fixes_cons (fixes_until (fun _ _ => rfl) _) (fixes_cons (φ := store) (fun _ => rfl) fixes_nil) s

theorem unstaged_get (r : Report) (s : State) (g : Fld) : (unstaged r s).get g = s.get g :=
  fixes_cons (fixes_until (fun _ _ => rfl) _) (fixes_cons (φ := (·.get g)) (fun _ => rfl) fixes_nil) s

/-- The lowest staged report, where nothing holds it back, is appended, or lost with 63 entries in use (R349, R351). -/
theorem exec_faultQueueAppend {s : State} {r : Report} (hr : lowestReport s.flt.staged = some r)
    (hs : s.flt.sent.any (·.before r) = false) (hm : s.flt.marked = false)
    (hl : ∀ m, s.flt.lost = some m → r.before m = true) :
    exec .faultQueueAppend s =
      .next (Act.run (if s.flt.queue.length ≥ 63 then loseReport r else appendEntry r) (unstaged r s)) := by
  show act _ s = _
  rw [act_next, run_look, hr]
  cases hlost : s.flt.lost with
  | none => simp only [hs, hm, Bool.or_false, Bool.false_eq_true, if_false, run_chain_cons, run_chain_nil, unstaged]
  | some m => simp only [hs, hm, hl m hlost, Bool.not_true, Bool.or_false, Bool.false_eq_true, if_false, run_chain_cons,
      run_chain_nil, unstaged]

theorem faultCollectorHold : FaultCollectorHold := by
  intro s i
  refine ⟨fun r l hs h hl => reportArrives hs h hl, ?_, ?_, ?_, ?_⟩
  · intro r hr hs hm hl hq
    refine ⟨_, exec_faultQueueAppend hr hs hm (by simp [hl]), ?_⟩
    rw [if_neg (by omega)]
    refine ⟨?_, ?_, appendEntry_qavail _ _, appendEntry_pulse _ _, sameStore_iff.mpr ?_⟩
    · rw [appendEntry_flt, unstaged_flt]
    · rw [appendEntry_flt, unstaged_flt]
    · rw [fixes_appendEntry_store, unstaged_store]
  · intro r m hr hs hm hl hb hq hc _
    refine ⟨_, exec_faultQueueAppend hr hs hm (by simp [hl, hb]), ?_⟩
    rw [if_pos hq]
    have hu : (unstaged r s).flt.lost = some m := by rw [unstaged_flt, hl]
    refine ⟨?_, ?_, ?_⟩
    · rw [loseReport_flt r hu hb, unstaged_flt]
    · rw [loseReport_flt r hu hb]
    · rw [loseReport_counts, unstaged_get]
      omega
  · intro m hl hm hn
    refine completes_of_run _ rfl ?_
    rw [run_look, hl]
    simp only [hm, hn, Bool.or_false, Bool.false_eq_true, if_false, run_chain_cons, run_chain_nil, run_onFlt]
    have hu := fixes_until (φ := State.flt) (fun _ _ => rfl) (m.tb + 2) s
    refine ⟨?_, ?_, stick_is _ _ rfl (by decide), sameStore_iff.mpr ?_⟩
    · rw [fixes_stick_flt rfl, appendEntry_flt, flt_flt, hu]
    · rw [fixes_stick_flt rfl, appendEntry_flt, flt_flt]
    · rw [fixes_stick (φ := store) _ fun _ _ _ _ => rfl, fixes_appendEntry_store]
      exact fixes_until (φ := store) (fun _ _ => rfl) (m.tb + 2) s
  · intro w r l ho hq hw
    refine completes_of_run _ rfl ?_
    rw [run_atRegister _ ho, popFault, run_look, hq]
    have hb : (bitOf w.toNat 0 == 1) = true := by rw [bitOf_testBit, hw]; rfl
    simp only [hb, run_whenA, if_true, run_onFlt, flt_flt]
    refine ⟨trivial, fun hk => ?_, rfl, rfl, rfl⟩
    simp [hk]

/-- Settles O43: a rise sends its report once, and each collector command does what its clause says. -/
theorem faultReports : Obligations.FaultReports := ⟨stickyReportsHold, faultCollectorHold⟩

end Sys2Proof.Proofs
end

section
/-! Routing (R42, R295 to R300): where an access reaches a register, and that the word an address lies in is reached the same
way. -/

namespace Sys2Proof.Proofs

open Sys2Proof.Machine Sys2Proof.Laws

/-- A physical address of a register page (R6). -/
def inPages (a : Nat) : Prop := pageBase ≤ a ∧ a < 0x40026000

/-- An address of a page's view in a window (R295). -/
def inViews (a : Nat) : Prop := Base.window ≤ a ∧ a < 0x51000000 ∧ a % 0x100000 < 0x80000

theorem addrPage_inPages {a : Nat} (h : inPages a) : a = pageBase + addrPage a * 0x1000 + a % 0x1000 ∧ addrPage a < 0x26 := by
  unfold inPages pageBase at h
  unfold addrPage pageBase
  omega

/-- The conditions of the memory regions fail above them (R42). -/
theorem skip_regions {α : Type} {a : Nat} (h : pageBase ≤ a) (x₁ x₂ x₃ x₄ x₅ x₆ y : α) :
    (if a < 0x10000 then x₁
      else if Base.flashA ≤ a ∧ a < 0x08800000 then x₂
      else if Base.sram ≤ a ∧ a < 0x20200000 then x₃
      else if Base.bobbin ≤ a ∧ a < 0x24080000 then x₄
      else if Base.mram ≤ a ∧ a < 0x28040000 then x₅
      else if Base.fram ≤ a ∧ a < 0x30100000 then x₆
      else y) = y := by
  unfold pageBase at h
  rw [if_neg (by omega), if_neg (by omega), if_neg (by omega), if_neg (by omega), if_neg (by omega), if_neg (by omega)]

/-- The address map in the register pages. -/
theorem routePhys_page {s : State} {a : Nat} {p : Page} (h : inPages a) (hp : Page.ofCode (addrPage a) = some p)
    (w : Bool) : s.routePhys a w = if s.pageOn p (a % 0x1000) then .reg p (a % 0x1000) 0 else .domOff := by
  unfold State.routePhys
  dsimp only
  rw [skip_regions h.1, if_pos (show pageBase ≤ a ∧ a < 0x40026000 from h), hp]

/-- The address map in the page views of a window. -/
theorem routePhys_view {s : State} {a : Nat} {p : Page} (h : inViews a) (hm : s.reachable Dom.mac = true)
    (hp : viewPage (a % 0x100000 / 0x1000) = some p) (w : Bool) :
    s.routePhys a w =
      (let v := (a - Base.window) / 0x100000
      if !s.pageOn p (a % 0x1000) then .domOff
      else if v == 0 then .reg p (a % 0x1000) 0
      else if (s.viOpen v || p == .VIF) && s.viewSees p (a % 0x1000) v w then .reg p (a % 0x1000) v else .viewRef v) := by
  obtain ⟨hlo, hhi, hv⟩ := h
  unfold State.routePhys
  dsimp only
  rw [skip_regions (by unfold Base.window at hlo; unfold pageBase; omega),
    if_neg (by unfold Base.window at hlo; omega), if_pos ⟨hlo, hhi⟩, if_neg (by simp [hm]),
    if_neg (Nat.not_le.mpr hv), hp]
  dsimp only
  rw [show a % 0x100000 % 0x1000 = a % 0x1000 by omega]

/-- What an access that reaches a register says of its address. -/
structure AtReg (s : State) (a : Nat) (p : Page) (off v : Nat) : Prop where
  offset : off = a % 0x1000
  on     : s.pageOn p off = true
  place  : (inPages a ∧ Page.ofCode (addrPage a) = some p ∧ v = 0) ∨
    (inViews a ∧ s.reachable Dom.mac = true ∧ viewPage (a % 0x100000 / 0x1000) = some p ∧ v = (a - Base.window) / 0x100000)

/-- The regions of memory are no registers. -/
theorem region_of_routePhys {s : State} {a : Nat} {w : Bool} {p : Page} {off v : Nat}
    (h : s.routePhys a w = .reg p off v) : inPages a ∨ Base.window ≤ a ∧ a < 0x51000000 := by
  have rom (d : Nat) : (if (!s.reachable d) = true then Route.domOff else if w = true then .romWrite else .mem a) ≠
      .reg p off v := by
    split
    · simp
    · split <;> simp
  have ram (d : Nat) : (if s.reachable d = true then Route.mem a else .domOff) ≠ .reg p off v := by split <;> simp
  by_contra hn
  obtain ⟨hp, hw⟩ := not_or.mp hn
  unfold State.routePhys at h
  dsimp only at h
  by_cases h1 : a < 0x10000
  · rw [if_pos h1] at h; exact rom _ h
  rw [if_neg h1] at h
  by_cases h2 : Base.flashA ≤ a ∧ a < 0x08800000
  · rw [if_pos h2] at h; exact rom _ h
  rw [if_neg h2] at h
  by_cases h3 : Base.sram ≤ a ∧ a < 0x20200000
  · rw [if_pos h3] at h; exact ram _ h
  rw [if_neg h3] at h
  by_cases h4 : Base.bobbin ≤ a ∧ a < 0x24080000
  · rw [if_pos h4] at h; exact ram _ h
  rw [if_neg h4] at h
  by_cases h5 : Base.mram ≤ a ∧ a < 0x28040000
  · rw [if_pos h5] at h; exact ram _ h
  rw [if_neg h5] at h
  by_cases h6 : Base.fram ≤ a ∧ a < 0x30100000
  · rw [if_pos h6] at h; exact ram _ h
  rw [if_neg h6, if_neg (show ¬ (pageBase ≤ a ∧ a < 0x40026000) from hp), if_neg hw] at h
  cases h

/-- In a window only the views reach a register, with MAC reachable. -/
theorem view_of_routePhys {s : State} {a : Nat} {w : Bool} {p : Page} {off v : Nat}
    (hw : Base.window ≤ a ∧ a < 0x51000000) (h : s.routePhys a w = .reg p off v) :
    inViews a ∧ s.reachable Dom.mac = true ∧ ∃ q, viewPage (a % 0x100000 / 0x1000) = some q := by
  unfold State.routePhys at h
  dsimp only at h
  rw [skip_regions (by unfold Base.window at hw; unfold pageBase; omega), if_neg (by unfold Base.window at hw; omega),
    if_pos hw] at h
  cases hm : s.reachable Dom.mac with
  | false => rw [if_pos (by simp [hm])] at h; cases h
  | true =>
    rw [if_neg (by simp [hm])] at h
    by_cases ho : 0x80000 ≤ a % 0x100000
    · rw [if_pos ho] at h
      split at h <;> cases h
    · rw [if_neg ho] at h
      refine ⟨⟨hw.1, hw.2, by omega⟩, rfl, ?_⟩
      cases hq : viewPage (a % 0x100000 / 0x1000) with
      | none => rw [hq] at h; cases h
      | some q => exact ⟨q, rfl⟩

theorem atReg_of_routePhys {s : State} {a : Nat} {w : Bool} {p : Page} {off v : Nat}
    (h : s.routePhys a w = .reg p off v) : AtReg s a p off v := by
  obtain hp | hw := region_of_routePhys h
  · cases hq : Page.ofCode (addrPage a) with
    | none =>
      have := (addrPage_inPages hp).2
      generalize addrPage a = k at *
      interval_cases k <;> cases hq
    | some q =>
      rw [routePhys_page hp hq] at h
      split at h
      · cases h
        exact ⟨rfl, ‹_›, .inl ⟨hp, hq, rfl⟩⟩
      · cases h
  · obtain ⟨hv, hm, q, hq⟩ := view_of_routePhys hw h
    rw [routePhys_view hv hm hq] at h
    dsimp only at h
    split at h
    · cases h
    next hon =>
    have hon' : s.pageOn q (a % 0x1000) = true := by simpa using hon
    split at h
    · next hz => cases h; exact ⟨rfl, hon', .inr ⟨hv, hm, hq, (beq_iff_eq.mp hz).symm⟩⟩
    split at h
    · cases h; exact ⟨rfl, hon', .inr ⟨hv, hm, hq, rfl⟩⟩
    · cases h

theorem routePhys_of_route {s : State} {i : Initiator} {a : Nat} {w : Bool} {p : Page} {off v : Nat}
    (h : s.route i a w = .reg p off v) : s.routePhys a w = .reg p off v := by
  unfold State.route at h
  dsimp only at h
  split at h
  · cases h
  · exact h

/-- An access that reaches a register does so at the offset of its address. -/
theorem atReg_of_route {s : State} {i : Initiator} {a : Nat} {w : Bool} {p : Page} {off v : Nat}
    (h : s.route i a w = .reg p off v) : AtReg s a p off v := atReg_of_routePhys (routePhys_of_route h)

theorem route_off_lt {s : State} {i : Initiator} {a : Nat} {w : Bool} {p : Page} {off v : Nat}
    (h : s.route i a w = .reg p off v) : off < 0x1000 := by
  have := (atReg_of_route h).offset
  omega

/-! The word that an address lies in. -/

theorem laneOf_word (off : Nat) : laneOf (off / 4 * 4) = laneOf off := by
  unfold laneOf
  by_cases h : 0x200 ≤ off ∧ off < 0xA00
  · rw [if_pos h, if_pos (by omega), show (off / 4 * 4 - 0x200) % 0x200 / 4 = (off - 0x200) % 0x200 / 4 by omega]
  · rw [if_neg h, if_neg (by omega)]

theorem pageOn_word (s : State) (p : Page) (off : Nat) : s.pageOn p (off / 4 * 4) = s.pageOn p off := by
  simp only [State.pageOn, laneOf_word]

/-- A bound initiator reaches a word where it reaches one of its bytes: every boundary of R300 is a word's. -/
theorem boundReaches_word (s : State) (i : Initiator) (v a : Nat) (w : Bool) :
    s.boundReaches i v (a / 4 * 4) w = s.boundReaches i v a w := by
  have hle (x : Nat) (hx : x % 4 = 0) : decide (x ≤ a / 4 * 4) = decide (x ≤ a) :=
    decide_eq_decide.mpr (by omega)
  have hlt (x : Nat) (hx : x % 4 = 0) : decide (a / 4 * 4 < x) = decide (a < x) :=
    decide_eq_decide.mpr (by omega)
  have hb : Base.sram ≤ a → (a / 4 * 4 - Base.sram) / 0x20000 = (a - Base.sram) / 0x20000 := by
    unfold Base.sram; omega
  have hs (m : Nat) : (decide (Base.sram ≤ a) && decide (a < Base.sram + 0x200000) &&
        bitOf m ((a / 4 * 4 - Base.sram) / 0x20000) == 1) =
      (decide (Base.sram ≤ a) && decide (a < Base.sram + 0x200000) && bitOf m ((a - Base.sram) / 0x20000) == 1) := by
    by_cases h : Base.sram ≤ a
    · rw [hb h]
    · simp [h]
  simp only [State.boundReaches, State.inPartition]
  rw [hle _ (by unfold Base.window; omega), hlt _ (by unfold Base.window; omega), hle _ (by unfold Base.fram; omega),
    hlt _ (by unfold Base.fram; omega), hle _ (by unfold Base.sram; omega), hlt _ (by unfold Base.sram; omega),
    hlt 0x10000 (by omega), hle _ (by unfold Base.flashA; omega), hlt 0x08800000 (by omega), hs]

/-- The word of a byte that reaches a register reaches it too, through the physical page or VI 0's window. -/
theorem route_word {s : State} {i : Initiator} {a : Nat} {w : Bool} {p : Page} {off : Nat}
    (h : s.route i a w = .reg p off 0) : s.route i (a / 4 * 4) w = .reg p (off / 4 * 4) 0 := by
  obtain ⟨ho, hon, hat⟩ := atReg_of_route h
  have hb : (s.boundTo i != 0 && !s.boundReaches i (s.boundTo i) a w) = false := by
    unfold State.route at h
    dsimp only at h
    split at h
    · cases h
    · exact Bool.eq_false_of_not_eq_true ‹_›
  have hm : a / 4 * 4 % 0x1000 = off / 4 * 4 := by omega
  rw [State.route, boundReaches_word, hb]
  rw [← pageOn_word] at hon
  simp only [Bool.false_eq_true, if_false]
  obtain ⟨hp, hq, -⟩ | ⟨hv, hmac, hq, hz⟩ := hat
  · have hp' : inPages (a / 4 * 4) := by unfold inPages pageBase at hp ⊢; omega
    have ha : addrPage (a / 4 * 4) = addrPage a := by unfold addrPage; omega
    rw [routePhys_page hp' (by rw [ha, hq]), hm, if_pos hon]
  · have hv' : inViews (a / 4 * 4) := by unfold inViews Base.window at hv ⊢; omega
    have ha : a / 4 * 4 % 0x100000 / 0x1000 = a % 0x100000 / 0x1000 := by omega
    have hz' : (a / 4 * 4 - Base.window) / 0x100000 = 0 := by
      unfold inViews at hv; unfold Base.window at hv hz ⊢; omega
    rw [routePhys_view hv' hmac (by rw [ha, hq])]
    simp only [hon, hz', hm, beq_self_eq_true, if_true, Bool.not_true, Bool.false_eq_true, if_false]

end Sys2Proof.Proofs
end

section
/-! Actions that touch one page's registers, the collector and the recorder, and writes judged field by field (R14, R22 to
R25). -/

namespace Sys2Proof.Proofs

open Sys2Proof.Machine Sys2Proof.Laws

/-! Frames of sticky bits and field writes. -/

theorem onlyStuck_refl (s : State) (ps : List Nat) : OnlyStuck s s ps := ⟨fun _ _ => rfl, rfl⟩

theorem onlyStuck_trans {s t u : State} {ps : List Nat} (h₁ : OnlyStuck s t ps) (h₂ : OnlyStuck t u ps) :
    OnlyStuck s u ps :=
  ⟨fun k hk => (h₂.regs k hk).trans (h₁.regs k hk), by rw [h₂.same, h₁.same]⟩

theorem onlyStuck_mem {s t : State} {ps : List Nat} (h : OnlyStuck s t ps) : t.mem = s.mem := by rw [h.same]

theorem onlyStuck_pat {s t : State} {ps : List Nat} (h : OnlyStuck s t ps) : t.pat = s.pat := by rw [h.same]

theorem onlyStuck_bus {s t : State} {ps : List Nat} (h : OnlyStuck s t ps) : t.bus = s.bus := by rw [h.same]

theorem onlyStuck_sameStore {s t : State} {ps : List Nat} (h : OnlyStuck s t ps) : SameStore s t := ⟨onlyStuck_mem h, onlyStuck_pat h⟩

/-- An action that changes the registers of some pages, the collector and the recorder, and nothing else. -/
def Sticks (ps : List Nat) (a : Act) : Prop := ∀ s, OnlyStuck s (Act.run a s) ps

variable {ps : List Nat}

theorem sticks_skip : Sticks ps skip := fun s => onlyStuck_refl s ps

theorem sticks_nil : Sticks ps (chain []) := fun s => onlyStuck_refl s ps

theorem sticks_cons {a : Act} {l : List Act} (ha : Sticks ps a) (hl : Sticks ps (chain l)) : Sticks ps (chain (a :: l)) :=
  fun s => by rw [run_chain_cons]; exact onlyStuck_trans (ha s) (hl _)

theorem sticks_look {g : State → Act} (h : ∀ s, Sticks ps (g s)) : Sticks ps (look g) := fun s => h s s

theorem sticks_whenA {c : Bool} {a : Act} (h : Sticks ps a) : Sticks ps (whenA c a) := by
  cases c
  · exact sticks_skip
  · exact h

theorem sticks_eachA {α : Type} {l : List α} {f : α → Act} (h : ∀ x, Sticks ps (f x)) : Sticks ps (eachA l f) := by
  induction l with
  | nil => exact sticks_nil
  | cons x l ih => exact sticks_cons (h x) ih

theorem onlyPages_put (s : State) (f : Fld) (v : Nat) (h : addrPage (keyAddr f.key) ∈ ps) :
    OnlyPages s (Eff.apply s (.put f v)) ps := fun k hk => by
  by_cases he : k = f.key
  · exact absurd (he ▸ h) hk
  · exact put_reg_ne s f v k he

theorem sticks_put (f : Fld) (v : Nat) (h : addrPage (keyAddr f.key) ∈ ps) : Sticks ps (put f v) :=
  fun s => ⟨onlyPages_put s f v h, rfl⟩

theorem sticks_stickI (f : Fld) (inst info : Nat) (h : addrPage (keyAddr f.key) ∈ ps) : Sticks ps (stickI f inst info) :=
  fun s => by
    obtain ⟨b, c, hr⟩ := run_stickAt s.tb f inst info s
    rw [stickI, run_look, hr]
    split
    · exact onlyStuck_refl s ps
    · exact ⟨onlyPages_put s f 1 h, rfl⟩

theorem sticks_stick (f : Fld) (h : addrPage (keyAddr f.key) ∈ ps) : Sticks ps (stick f) := sticks_stickI f 0 0 h

theorem keyAddr_copy (f : Fld) (c : Nat) : keyAddr (f.copy c).key = keyAddr f.key := by
  rw [copy_key, keyAddr, keyAddr]
  omega

theorem sticks_stickV (f : Fld) (v : Nat) (h : addrPage (keyAddr f.key) ∈ ps) : Sticks ps (stickV f v) :=
  sticks_cons (sticks_stick f h) (sticks_cons (sticks_whenA (sticks_put _ _ (by rwa [keyAddr_copy]))) sticks_nil)

/-- Through the physical page a condition sets the page's own bit alone. -/
theorem run_stickV_zero (f : Fld) (s : State) : Act.run (stickV f 0) s = Act.run (stick f) s := by
  simp [stickV]

/-! RSVD and LOCKV of a key's page (R18). -/

/-- STICKY of the page of a key, one bit of it. -/
def stickyBit (k b : Nat) : Fld := (headerOf (keyAddr k) 0x10 32).bit b

theorem stickyBit_lt (k : Nat) {b : Nat} (h : b < 32) : (stickyBit k b).lo < 32 := by
  show 0 + b < 32
  omega

theorem headerOf_page (k off b : Nat) (h : off < 0x1000) :
    addrPage (keyAddr ((headerOf (keyAddr k) off 32).bit b).key) = addrPage (keyAddr k) := by
  show addrPage (keyAddr (keyAddr k / 0x1000 * 0x1000 + off)) = _
  unfold addrPage keyAddr
  omega

theorem sticks_setRsvd (k v : Nat) : Sticks [addrPage (keyAddr k)] (setRsvd k v) :=
  sticks_stickV _ v (by rw [headerOf_page _ _ _ (by omega)]; exact List.mem_singleton_self _)

theorem sticks_setLockv (k v : Nat) : Sticks [addrPage (keyAddr k)] (setLockv k v) :=
  sticks_stickV _ v (by rw [headerOf_page _ _ _ (by omega)]; exact List.mem_singleton_self _)

theorem setRsvd_is (k : Nat) (s : State) : (Act.run (setRsvd k 0) s).is (stickyBit k 31) = true := by
  rw [setRsvd, run_stickV_zero]
  exact stick_is (stickyBit k _) s rfl (stickyBit_lt k (by decide))

theorem setLockv_is (k : Nat) (s : State) : (Act.run (setLockv k 0) s).is (stickyBit k 30) = true := by
  rw [setLockv, run_stickV_zero]
  exact stick_is (stickyBit k _) s rfl (stickyBit_lt k (by decide))

theorem keeps_setRsvd {k : Nat} {g : Fld} (h : apart (stickyBit k 31) g = true) : Keeps (setRsvd k 0) g := fun s => by
  rw [setRsvd, run_stickV_zero]
  exact keeps_stick (f := stickyBit k 31) (stickyBit_lt k (by decide)) h s

theorem keeps_setLockv {k : Nat} {g : Fld} (h : apart (stickyBit k 30) g = true) : Keeps (setLockv k 0) g := fun s => by
  rw [setLockv, run_stickV_zero]
  exact keeps_stick (f := stickyBit k 30) (stickyBit_lt k (by decide)) h s

/-! One field of a written word. -/

/-- The place of a field of the register at a key. -/
def placeOf (k : Nat) (f : FieldDesc) : Fld := ⟨k, f.lo, f.width, 0⟩

/-- Whether a write of a field may be refused: it may set RSVD or LOCKV (R22 to R24). -/
def refusable (f : FieldDesc) : Bool := f.acc == .rw || f.acc == .rwl

theorem of_lt (f : FieldDesc) (w : Nat) : f.of w < 2 ^ f.width := Nat.mod_lt _ (Nat.two_pow_pos _)

theorem get_lt (s : State) (f : Fld) : s.get f < 2 ^ f.width := Nat.mod_lt _ (Nat.two_pow_pos _)

theorem sticks_judgeField (k v w : Nat) (bad : FieldDesc → Nat → Bool) (f : FieldDesc) :
    Sticks [addrPage (keyAddr k)] (judgeField k v w bad f) := by
  have hp : addrPage (keyAddr (placeOf k f).key) ∈ [addrPage (keyAddr k)] := List.mem_singleton_self _
  have hs : Sticks [addrPage (keyAddr k)]
      (if !f.lim.allows f.width (f.of w) || bad f (f.of w) then setRsvd k v else put (placeOf k f) (f.of w)) := by
    split
    · exact sticks_setRsvd k v
    · exact sticks_put _ _ hp
  refine sticks_look fun s => ?_
  cases f.acc with
  | rw => exact hs
  | rwl =>
    dsimp only
    split
    · exact sticks_setLockv k v
    · exact hs
  | w1c | w1s => exact sticks_put _ _ hp
  | ro | wo => exact sticks_skip

/-- A judged field keeps a place apart from its own and, where it may be refused, from RSVD and LOCKV. -/
theorem keeps_judgeField {k w : Nat} {f : FieldDesc} {g : Fld} (hb : f.lo + f.width ≤ 32)
    (ha : apart (placeOf k f) g = true)
    (hr : refusable f = true → apart (stickyBit k 31) g = true ∧ apart (stickyBit k 30) g = true) :
    Keeps (judgeField k 0 w (fun _ _ => false) f) g := by
  have hp (v : Nat) : Keeps (put (placeOf k f) v) g := keeps_put (f := placeOf k f) v hb ha
  have hs (h : refusable f = true) : Keeps
      (if !f.lim.allows f.width (f.of w) || false then setRsvd k 0 else put (placeOf k f) (f.of w)) g :=
    keeps_ite (keeps_setRsvd (hr h).1) (hp _)
  refine keeps_look fun s => ?_
  unfold refusable at hr hs
  cases hacc : f.acc with
  | rw => exact hs (by rw [hacc]; rfl)
  | rwl => exact keeps_ite (keeps_setLockv (hr (by rw [hacc]; rfl)).2) (hs (by rw [hacc]; rfl))
  | w1c | w1s => exact hp _
  | ro | wo => exact keeps_skip g

/-- What a field holds after it was judged (R14, R22 to R25). -/
theorem judgeField_get {k : Nat} {w : Word} {f : FieldDesc} (s : State) (hb : f.lo + f.width ≤ 32)
    (hr : refusable f = true →
      apart (stickyBit k 31) (placeOf k f) = true ∧ apart (stickyBit k 30) (placeOf k f) = true) :
    (Act.run (judgeField k 0 w.toNat (fun _ _ => false) f) s).get (placeOf k f) = fieldAfter s k w f := by
  have hput (v : Nat) (hv : v < 2 ^ f.width) : (Act.run (put (placeOf k f) v) s).get (placeOf k f) = v := by
    rw [run_put, put_get_same s (placeOf k f) v hb]
    exact Nat.mod_eq_of_lt hv
  have hx := of_lt f w.toNat
  have hold : s.get (placeOf k f) < 2 ^ f.width := get_lt s _
  have hstore (h : refusable f = true) :
      (Act.run (if !f.lim.allows f.width (f.of w.toNat) || false then setRsvd k 0 else put (placeOf k f) (f.of w.toNat)) s).get
        (placeOf k f) = if f.lim.allows f.width (f.of w.toNat) then f.of w.toNat else s.get (placeOf k f) := by
    cases f.lim.allows f.width (f.of w.toNat) with
    | true => exact hput _ hx
    | false => exact keeps_setRsvd (hr h).1 s
  unfold refusable at hr hstore
  rw [judgeField, run_look]
  cases hacc : f.acc with
  | rw =>
    simp only [fieldAfter, hacc]
    exact hstore (by rw [hacc]; rfl)
  | rwl =>
    have hl := hstore (by rw [hacc]; rfl)
    simp only [fieldAfter, hacc]
    cases hlk : s.locked k with
    | true => exact keeps_setLockv (hr (by rw [hacc]; rfl)).2 s
    | false =>
      simp only [Bool.false_eq_true, if_false, Bool.false_or]
      refine hl.trans ?_
      cases f.lim.allows f.width (f.of w.toNat) <;> rfl
  | w1c =>
    simp only [fieldAfter, hacc]
    exact hput _ (by have : s.get (placeOf k f) < 2 ^ f.width := hold; exact lt_of_le_of_lt (Nat.sub_le _ _) this)
  | w1s =>
    simp only [fieldAfter, hacc]
    exact hput _ (Nat.or_lt_two_pow hold hx)
  | ro | wo =>
    simp only [fieldAfter, hacc]
    rfl

/-! The fields of a register. -/

/-- Two fields of one register that share no bit. -/
def disjoint (f g : FieldDesc) : Bool := decide (f.lo + f.width ≤ g.lo) || decide (g.lo + g.width ≤ f.lo)

theorem apart_placeOf {k : Nat} {f g : FieldDesc} (h : disjoint f g = true) : apart (placeOf k f) (placeOf k g) = true := by
  simp only [disjoint, Bool.or_eq_true] at h
  simp only [apart, placeOf, Bool.or_eq_true]
  tauto

/-- Whether the fields of a description lie in the word and share no bit, and one that may be refused stands in no STICKY
and no LOCK. -/
def sound (d : RegDesc) : Bool :=
  d.fields.all (fun f => decide (f.lo + f.width ≤ 32)) && decide (d.fields.Pairwise fun f g => disjoint f g = true) &&
    (!d.fields.any refusable || decide (0x1C < d.off) || (d.stride == 0 && d.off != 0x10 && d.off != 0x1C))

theorem table_sound (p : Page) : p.table.all sound = true := by cases p <;> decide +kernel

/-- A description that is found covers the offset asked for. -/
theorem findReg_some {t : List RegDesc} {off : Nat} {d : RegDesc} (h : findReg t off = some d) :
    d ∈ t ∧ d.off ≤ off ∧ (d.stride = 0 → off = d.off) := by
  refine ⟨List.mem_of_find?_eq_some h, ?_⟩
  have hp := List.find?_some h
  rw [Bool.and_eq_true, decide_eq_true_eq] at hp
  refine ⟨hp.1, fun hz => ?_⟩
  have h2 := hp.2
  rw [if_pos hz, beq_iff_eq] at h2
  exact h2

/-- What the tables say of a register that is found. -/
structure Found (p : Page) (off : Nat) (d : RegDesc) : Prop where
  found : findReg p.table off = some d
  width : ∀ f ∈ d.fields, f.lo + f.width ≤ 32
  pairs : d.fields.Pairwise fun f g => disjoint f g = true
  plain : d.fields.any refusable = true → off ≠ 0x10 ∧ off ≠ 0x1C

theorem found_of_findReg {p : Page} {off : Nat} {d : RegDesc} (h : findReg p.table off = some d) : Found p off d := by
  obtain ⟨hm, hle, hz⟩ := findReg_some h
  have hs := List.all_eq_true.mp (table_sound p) d hm
  simp only [sound, Bool.and_eq_true, List.all_eq_true, decide_eq_true_eq, Bool.or_eq_true, Bool.not_eq_true',
    beq_iff_eq, bne_iff_ne] at hs
  obtain ⟨⟨hw, ha⟩, hr⟩ := hs
  refine ⟨h, hw, ha, fun hany => ?_⟩
  obtain (hf | hlt) | ⟨⟨hst, h10⟩, h1c⟩ := hr
  · rw [hany] at hf; cases hf
  · omega
  · rw [hz hst]; exact ⟨h10, h1c⟩

/-- A key of a register: its page's place, and what the tables say of it. -/
structure KeyOf (k : Nat) (p : Page) (off : Nat) (d : RegDesc) : Prop where
  addr  : keyAddr k = pageBase + p.code * 0x1000 + off
  small : off < 0x1000
  found : Found p off d

theorem KeyOf.page {k off : Nat} {p : Page} {d : RegDesc} (h : KeyOf k p off d) : addrPage (keyAddr k) = p.code := by
  rw [h.addr]
  exact (key_parts p.code off 0 (code_lt p) h.small).2.1

theorem KeyOf.descOf {k off : Nat} {p : Page} {d : RegDesc} (h : KeyOf k p off d) : descOf k = some d := by
  have hm : keyAddr k % 0x1000 = off := by
    rw [h.addr]
    exact (key_parts p.code off 0 (code_lt p) h.small).2.2
  rw [Machine.descOf, h.page, ofCode_code, hm]
  exact h.found.found

theorem KeyOf.header {k off : Nat} {p : Page} {d : RegDesc} (h : KeyOf k p off d) (o : Nat) :
    headerOf (keyAddr k) o 32 = headerOf (pageBase + p.code * 0x1000) o 32 := by
  have := h.small
  rw [h.addr, headerOf, headerOf, show (pageBase + p.code * 0x1000 + off) / 0x1000 * 0x1000 =
    (pageBase + p.code * 0x1000) / 0x1000 * 0x1000 by unfold pageBase; omega]

/-- A bit of the header lies apart from a register at another offset of the page. -/
theorem KeyOf.apart_header {k off : Nat} {p : Page} {d : RegDesc} (h : KeyOf k p off d) {o b : Nat} (ho : off ≠ o)
    (hlt : o < 0x1000) (f : FieldDesc) : apart ((headerOf (keyAddr k) o 32).bit b) (placeOf k f) = true := by
  have ha := h.addr
  have hs := h.small
  have hne : keyAddr k / 0x1000 * 0x1000 + o ≠ k := by
    intro he
    unfold keyAddr at he ha
    unfold pageBase at ha
    omega
  simp only [apart, headerOf, Fld.bit, placeOf, Bool.or_eq_true, bne_iff_ne]
  exact .inl (.inl hne)

theorem apart_comm {f g : Fld} (h : apart f g = true) : apart g f = true := by
  simp only [apart, Bool.or_eq_true, bne_iff_ne, ne_eq, decide_eq_true_eq] at h ⊢
  omega

/-! A judged write of a register's fields, in order. -/

/-- The fields of a list judged one after another. -/
def judgeAll (k w : Nat) (l : List FieldDesc) : Act := eachA l (judgeField k 0 w fun _ _ => false)

/-- The fields of a list that may be judged together: in the word, disjoint, and apart from the bits that a refusal sets. -/
structure Judgeable (k : Nat) (l : List FieldDesc) : Prop where
  width  : ∀ f ∈ l, f.lo + f.width ≤ 32
  pairs  : l.Pairwise fun f g => disjoint f g = true
  sticky : l.any refusable = true → ∀ f b, apart (stickyBit k b) (placeOf k f) = true

theorem Judgeable.tail {k : Nat} {f : FieldDesc} {l : List FieldDesc} (h : Judgeable k (f :: l)) : Judgeable k l :=
  ⟨fun g hg => h.width g (List.mem_cons_of_mem _ hg), h.pairs.of_cons,
    fun hr => h.sticky (by rw [List.any_cons, hr, Bool.or_true])⟩

theorem any_refusable {f : FieldDesc} {l : List FieldDesc} (hf : f ∈ l) (hr : refusable f = true) :
    l.any refusable = true := List.any_eq_true.mpr ⟨f, hf, hr⟩

/-- Judged fields keep a place apart from each of them and, where one may be refused, from RSVD and LOCKV. -/
theorem keeps_judgeAll {k w : Nat} {l : List FieldDesc} {g : Fld} (hb : ∀ f ∈ l, f.lo + f.width ≤ 32)
    (ha : ∀ f ∈ l, apart (placeOf k f) g = true)
    (hr : l.any refusable = true → apart (stickyBit k 31) g = true ∧ apart (stickyBit k 30) g = true) :
    Keeps (judgeAll k w l) g := by
  refine keeps_chain fun a h => ?_
  obtain ⟨f, hf, rfl⟩ := List.mem_map.mp h
  exact keeps_judgeField (hb f hf) (ha f hf) fun h => hr (any_refusable hf h)

theorem locked_stays {k w : Nat} {f : FieldDesc} (hb : f.lo + f.width ≤ 32)
    (ha : apart (placeOf k f) ((headerOf (keyAddr k) 0x1C 32).bit 0) = true) (s : State) :
    (Act.run (judgeField k 0 w (fun _ _ => false) f) s).locked k = s.locked k := by
  have hne : (keyAddr k / 0x1000 * 0x1000 + 0x10 != keyAddr k / 0x1000 * 0x1000 + 0x1C) = true := by
    rw [bne_iff_ne]; omega
  have h := keeps_judgeField (w := w) hb ha (fun _ => by
    simp only [apart, stickyBit, headerOf, Fld.bit, hne, Bool.true_or, and_self]) s
  simp only [State.locked, State.is, h]

/-- Each field of a judged write holds what its own judgement gives it (R25). -/
theorem judgeAll_get {k : Nat} {w : Word} {l : List FieldDesc} (h : Judgeable k l)
    (hl : ∀ f ∈ l, l.any refusable = true → apart (placeOf k f) ((headerOf (keyAddr k) 0x1C 32).bit 0) = true)
    (s : State) : ∀ f ∈ l, (Act.run (judgeAll k w.toNat l) s).get (placeOf k f) = fieldAfter s k w f := by
  induction l generalizing s with
  | nil => simp
  | cons g l ih =>
    intro f hf
    rw [judgeAll, run_eachA_cons]
    set t := Act.run (judgeField k 0 w.toNat (fun _ _ => false) g) s with ht
    have hgw := h.width g List.mem_cons_self
    have hdis : ∀ x ∈ l, disjoint g x = true := (List.pairwise_cons.mp h.pairs).1
    obtain rfl | hfl := List.mem_cons.mp hf
    · refine (keeps_judgeAll h.tail.width (fun x hx => apart_comm (apart_placeOf (hdis x hx))) (fun hr => ?_) t).trans
        (judgeField_get s hgw fun hr => ?_)
      · exact ⟨h.sticky (by rw [List.any_cons, hr, Bool.or_true]) _ _, h.sticky (by rw [List.any_cons, hr, Bool.or_true]) _ _⟩
      · exact ⟨h.sticky (any_refusable List.mem_cons_self hr) _ _, h.sticky (any_refusable List.mem_cons_self hr) _ _⟩
    · have hold : t.get (placeOf k f) = s.get (placeOf k f) :=
        keeps_judgeField hgw (apart_placeOf (hdis f hfl))
          (fun hr => ⟨h.sticky (any_refusable List.mem_cons_self hr) _ _, h.sticky (any_refusable List.mem_cons_self hr) _ _⟩) s
      have hkey : fieldAfter t k w f = fieldAfter s k w f := by
        have hold' : t.get ⟨k, f.lo, f.width, 0⟩ = s.get ⟨k, f.lo, f.width, 0⟩ := hold
        simp only [fieldAfter, hold']
        cases hacc : f.acc with
        | rwl =>
          have hany := any_refusable hf (show refusable f = true by rw [refusable, hacc]; rfl)
          rw [ht, locked_stays hgw (hl g List.mem_cons_self hany)]
        | rw | w1c | w1s | ro | wo => rfl
      rw [← hkey]
      exact ih h.tail (fun x hx hr => hl x (List.mem_cons_of_mem _ hx) (by rw [List.any_cons, hr, Bool.or_true])) t f hfl

end Sys2Proof.Proofs
end

section
/-! Writes of registers that have no rules beside their tables' (R14, R22 to R25). -/

namespace Sys2Proof.Proofs

open Sys2Proof.Machine Sys2Proof.Laws

/-! From the bus to the register. -/

/-- A word written where the route reaches a register is the register's write. -/
theorem run_busWrite_reg {s : State} {i : Initiator} {a : Nat} {p : Page} {off v : Nat} (w : Word) (ha : a % 4 = 0)
    (hr : s.route i a true = .reg p off v) (hp : p = .PWR → refusesPwr i = false) (hw : s.pairHolds p = false) :
    Act.run (busWrite i a 4 w.toNat) s = Act.run (writeReg i p off v w.toNat) s := by
  have hpwr : (p == .PWR && refusesPwr i) = false := by
    by_cases hq : p = .PWR
    · rw [hp hq, Bool.and_false]
    · rw [beq_false_of_ne hq, Bool.false_and]
  rw [busWrite, run_look, show a / 4 * 4 = a by omega, hr]
  simp only [ha, beq_self_eq_true, Bool.and_true, if_true]
  rw [regAccess, run_look, hw]
  simp only [Bool.false_eq_true, if_false, hpwr]
  rw [Nat.mod_eq_of_lt w.isLt]

/-- The key of a register of a page, for an access through the physical page. -/
theorem keyOf_regKey {p : Page} {off : Nat} {d : RegDesc} (ho : off < 0x1000) (h : findReg p.table off = some d)
    (who : Option Initiator) : KeyOf (regKey p off d who 0) p off d := by
  refine ⟨?_, ho, found_of_findReg h⟩
  rw [regKey, Nat.mul_comm (copyOf d who 0)]
  exact (key_parts p.code off (copyOf d who 0) (code_lt p) ho).1

/-- A register with one copy has its page's key. -/
theorem regKey_shared {p : Page} {off : Nat} {d : RegDesc} (h : d.copy = .shared) (who : Option Initiator) :
    regKey p off d who 0 = pageBase + p.code * 0x1000 + off := by
  simp [regKey, copyOf, h]

/-- A write whose rules are those of the table judges the register's fields in order. -/
theorem plainWrite_eq {k off : Nat} {p : Page} {d : RegDesc} (h : KeyOf k p off d) (w : Nat) :
    plainWrite k 0 w = judgeAll k w d.fields := by
  rw [plainWrite, judgedWrite, h.descOf, judgeAll]

theorem whenA_true (a : Act) : whenA true a = a := rfl

/-- A write of a register without rules of its own judges its fields in order. -/
theorem writeReg_plain {i : Initiator} {p : Page} {off w : Nat} {d : RegDesc} (hs : specialWrite i p off 0 w = none)
    (hd : findReg p.table off = some d) (ho : off < 0x1000) :
    writeReg i p off 0 w = judgeAll (regKey p off d (some i) 0) w d.fields := by
  rw [writeReg, hs, hd]
  dsimp only
  rw [bne_self_eq_false, Bool.false_and, Bool.not_false, whenA_true]
  exact plainWrite_eq (keyOf_regKey ho hd (some i)) w

theorem KeyOf.judgeable {k off : Nat} {p : Page} {d : RegDesc} (h : KeyOf k p off d) : Judgeable k d.fields :=
  ⟨h.found.width, h.found.pairs, fun hr f _ => h.apart_header (h.found.plain hr).1 (by omega) f⟩

/-- A write of a register with refusable fields leaves LOCK alone. -/
theorem KeyOf.lock_apart {k off : Nat} {p : Page} {d : RegDesc} (h : KeyOf k p off d) (f : FieldDesc)
    (hr : d.fields.any refusable = true) : apart (placeOf k f) ((headerOf (keyAddr k) 0x1C 32).bit 0) = true :=
  apart_comm (h.apart_header (h.found.plain hr).2 (by omega) f)

theorem sticks_judgeAll (k w : Nat) (l : List FieldDesc) : Sticks [addrPage (keyAddr k)] (judgeAll k w l) :=
  sticks_eachA fun f => sticks_judgeField k 0 w _ f

theorem registerWriteByTableHold : RegisterWriteByTableHold := by
  intro s i a w p off d ha hr hp hw hs hd hc
  have ho := route_off_lt hr
  have hk := keyOf_regKey ho hd (some i)
  refine completes_of_run _ rfl ?_
  rw [run_busWrite_reg w ha hr hp hw, writeReg_plain hs hd ho]
  rw [← regKey_shared hc (some i)]
  refine ⟨judgeAll_get hk.judgeable (fun f _ hr => hk.lock_apart f hr) s, ?_⟩
  rw [← hk.page]
  exact sticks_judgeAll _ _ _ s

/-! A refused field (R22 to R24). -/

/-- RSVD and LOCKV stay set while further fields of a register are judged. -/
theorem judgeField_is {k w : Nat} {f : FieldDesc} {s : State} {b : Nat} (hb : b = 31 ∨ b = 30)
    (hw : f.lo + f.width ≤ 32) (ha : apart (placeOf k f) (stickyBit k b) = true)
    (hs : s.is (stickyBit k b) = true) :
    (Act.run (judgeField k 0 w (fun _ _ => false) f) s).is (stickyBit k b) = true := by
  have hlt : (stickyBit k b).lo < 32 := stickyBit_lt k (by omega)
  have hput (v : Nat) : (Act.run (put (placeOf k f) v) s).is (stickyBit k b) = true := by
    rw [run_put, put_is_apart s (f := placeOf k f) v hw ha, hs]
  have hstick (c : Nat) (hc : c = 31 ∨ c = 30) : (Act.run (stick (stickyBit k c)) s).is (stickyBit k b) = true := by
    have hcl : (stickyBit k c).lo < 32 := stickyBit_lt k (by omega)
    by_cases hbc : c = b
    · subst hbc; exact stick_is _ s rfl hcl
    · have hd : apart (stickyBit k c) (stickyBit k b) = true := by
        have hlo (n : Nat) : (stickyBit k n).lo = n := Nat.zero_add n
        have hwd (n : Nat) : (stickyBit k n).width = 1 := rfl
        simp only [apart, hlo, hwd, Bool.or_eq_true, decide_eq_true_eq]
        omega
      simp only [State.is, keeps_stick (f := stickyBit k c) hcl hd s] at hs ⊢
      exact hs
  have hstore : (Act.run (if !f.lim.allows f.width (f.of w) || false then setRsvd k 0 else put (placeOf k f) (f.of w))
      s).is (stickyBit k b) = true := by
    split
    · rw [setRsvd, run_stickV_zero]; exact hstick 31 (.inl rfl)
    · exact hput _
  rw [judgeField, run_look]
  cases f.acc with
  | rw => exact hstore
  | rwl =>
    dsimp only
    split
    · rw [setLockv, run_stickV_zero]; exact hstick 30 (.inr rfl)
    · exact hstore
  | w1c | w1s => exact hput _
  | ro | wo => exact hs

theorem Judgeable.of_subset {k : Nat} {l m : List FieldDesc} (h : Judgeable k l) (hm : m.Sublist l) : Judgeable k m :=
  ⟨fun f hf => h.width f (hm.subset hf), h.pairs.sublist hm, fun hr => h.sticky (by
    obtain ⟨f, hf, hfr⟩ := List.any_eq_true.mp hr
    exact any_refusable (hm.subset hf) hfr)⟩

theorem run_judgeAll_append (k w : Nat) (l m : List FieldDesc) (s : State) :
    Act.run (judgeAll k w (l ++ m)) s = Act.run (judgeAll k w m) (Act.run (judgeAll k w l) s) := by
  induction l generalizing s with
  | nil => rfl
  | cons f l ih =>
    simp only [judgeAll, List.cons_append, run_eachA_cons] at ih ⊢
    exact ih _

theorem judgeAll_is {k w : Nat} {l : List FieldDesc} {b : Nat} (hb : b = 31 ∨ b = 30)
    (hw : ∀ f ∈ l, f.lo + f.width ≤ 32) (ha : ∀ f ∈ l, apart (placeOf k f) (stickyBit k b) = true) (s : State)
    (hs : s.is (stickyBit k b) = true) : (Act.run (judgeAll k w l) s).is (stickyBit k b) = true := by
  induction l generalizing s with
  | nil => exact hs
  | cons f l ih =>
    rw [judgeAll, run_eachA_cons]
    exact ih (fun x hx => hw x (List.mem_cons_of_mem _ hx)) (fun x hx => ha x (List.mem_cons_of_mem _ hx)) _
      (judgeField_is hb (hw f List.mem_cons_self) (ha f List.mem_cons_self) hs)

theorem judgeAll_locked {k w : Nat} {l : List FieldDesc} (hw : ∀ f ∈ l, f.lo + f.width ≤ 32)
    (ha : ∀ f ∈ l, apart (placeOf k f) ((headerOf (keyAddr k) 0x1C 32).bit 0) = true) (s : State) :
    (Act.run (judgeAll k w l) s).locked k = s.locked k := by
  induction l generalizing s with
  | nil => rfl
  | cons f l ih =>
    rw [judgeAll, run_eachA_cons]
    exact (ih (fun x hx => hw x (List.mem_cons_of_mem _ hx)) (fun x hx => ha x (List.mem_cons_of_mem _ hx)) _).trans
      (locked_stays (hw f List.mem_cons_self) (ha f List.mem_cons_self) s)

/-- The bit that the judgement of one field sets, in every state that keeps the page's lock, is set after the whole write. -/
theorem judgeAll_sets {k off w b : Nat} {p : Page} {d : RegDesc} {f : FieldDesc} (h : KeyOf k p off d)
    (hb : b = 31 ∨ b = 30) (hf : f ∈ d.fields) (hr : refusable f = true) (s : State)
    (hset : ∀ t : State, t.locked k = s.locked k →
      (Act.run (judgeField k 0 w (fun _ _ => false) f) t).is (stickyBit k b) = true) :
    (Act.run (judgeAll k w d.fields) s).is (stickyBit k b) = true := by
  have hany := any_refusable hf hr
  have hj := h.judgeable
  obtain ⟨l, m, hlm⟩ := List.append_of_mem hf
  have hl : ∀ x ∈ l, x ∈ d.fields := fun x hx => by rw [hlm]; exact List.mem_append_left _ hx
  have hm : ∀ x ∈ m, x ∈ d.fields := fun x hx => by
    rw [hlm]; exact List.mem_append_right _ (List.mem_cons_of_mem _ hx)
  rw [hlm, run_judgeAll_append, judgeAll.eq_def k w (f :: m), run_eachA_cons]
  refine judgeAll_is hb (fun x hx => hj.width x (hm x hx)) (fun x _ => apart_comm (hj.sticky hany x b)) _ (hset _ ?_)
  exact judgeAll_locked (fun x hx => hj.width x (hl x hx)) (fun x _ => h.lock_apart x hany) s

theorem refusedFieldSetsStickyHold : RefusedFieldSetsStickyHold := by
  intro s i a w p off d f ha hr hp hw hs hd hf
  have ho := route_off_lt hr
  have hk := keyOf_regKey ho hd (some i)
  set k := regKey p off d (some i) 0 with hkey
  have hrun : Act.run (busWrite i a.toNat 4 w.toNat) s = Act.run (judgeAll k w.toNat d.fields) s := by
    rw [run_busWrite_reg w ha hr hp hw, writeReg_plain hs hd ho]
  have hbit (b : Nat) : (headerOf (pageBase + p.code * 0x1000) 0x10 32).bit b = stickyBit k b := by
    rw [stickyBit, hk.header]
  have hlock : s.locked (pageBase + p.code * 0x1000) = s.locked k := by
    have := code_lt p
    have hz : keyAddr (pageBase + p.code * 0x1000) = pageBase + p.code * 0x1000 := by
      unfold keyAddr pageBase; omega
    rw [State.locked, State.locked, hk.header, hz]
  refine ⟨fun hacc hno => completes_of_run _ rfl ?_, fun hacc hlk => completes_of_run _ rfl ?_⟩
  · rw [hrun, hbit]
    refine judgeAll_sets hk (.inl rfl) hf (by rw [refusable, hacc]; rfl) s fun t _ => ?_
    rw [judgeField, run_look, hacc]
    simp only [hno, Bool.not_false, Bool.true_or, if_true]
    exact setRsvd_is k t
  · rw [hrun, hbit]
    refine judgeAll_sets hk (.inr rfl) hf (by rw [refusable, hacc]; rfl) s fun t ht => ?_
    rw [judgeField, run_look, hacc]
    simp only [ht, ← hlock, hlk, if_true]
    exact setLockv_is k t

/-- Settles O41: the fields are judged in order, and each keeps what the others hold; RSVD and LOCKV stay set. -/
theorem registerWrites : Obligations.RegisterWrites := ⟨registerWriteByTableHold, refusedFieldSetsStickyHold⟩

end Sys2Proof.Proofs
end

section
/-! Direct transmissions (R155): GO on a chain that has one already. -/

namespace Sys2Proof.Proofs

open Sys2Proof.Machine Sys2Proof.Laws

/-- After device reset, with a direct transmission that waits on TXA. -/
def directWaits : State :=
  { State.reset with txp := { chains := [{ runs := [{ what := .direct, vi := 0, w0 := 0, w1 := 0, octets := [], start := 0 }] }, {}] } }

/-- What GO of another direct frame leaves there. -/
def directRefused : State := Act.run (atRegister .debug 0 (TXP.CDCTRL.i 0) true (writeDctrl 0 1)) directWaits

theorem exec_directWaits : exec (.directFrameGo .debug 0 false) directWaits = .next directRefused := rfl

theorem opens_directWaits : Opens directWaits .debug (TXP.CDCTRL.i 0) 0 true :=
  ⟨.TXP, 0x60, 0, by decide +kernel, fun h => nomatch h⟩

/-- DBUSY rises there: STICKY of page TXP, whose code is 0x15, changes. -/
theorem sticky_directRefused : addrPage (keyAddr TXP.STICKY.key) = 0x15 ∧ directWaits.reg TXP.STICKY.key = 0 ∧
    directRefused.reg TXP.STICKY.key = 0x10 := by decide +kernel

/-- Refutes O58: a second GO on a chain with a direct transmission sets TXP.STICKY.DBUSY, a register of page 0x15, while the
statement says that only page 0x0D (SEC) changes. -/
theorem not_transmission : ¬ Obligations.Transmission := by
  rintro ⟨-, -, hdirect, -⟩
  obtain ⟨-, hbusy, -, -⟩ := hdirect directWaits .debug 0 rfl
  obtain ⟨t, ht, -, -, hst⟩ := hbusy false opens_directWaits rfl
  rw [exec_directWaits] at ht
  cases ht
  obtain ⟨hpage, hold, hnew⟩ := sticky_directRefused
  have hsame := hst.regs TXP.STICKY.key (by rw [hpage]; decide)
  rw [hold, hnew] at hsame
  exact absurd hsame (by decide)

end Sys2Proof.Proofs
end

section
/-! The accesses that the map turns away (R9, R13, R41 to R46, R297, R300). -/

namespace Sys2Proof.Proofs

open Sys2Proof.Machine Sys2Proof.Laws

/-! What a read returns. -/

@[simp] theorem answered_answer (i : Initiator) (v : Nat) (s : State) : (Act.run (answer i v) s).answered i = v := by
  simp [answer, State.answered]

theorem answer_regs (i : Initiator) (v : Nat) (s : State) : (Act.run (answer i v) s).regs = s.regs := rfl

theorem answer_store (i : Initiator) (v : Nat) (s : State) : store (Act.run (answer i v) s) = store s := rfl

theorem onlyPages_of_regs {s t : State} (h : t.regs = s.regs) (ps : List Nat) : OnlyPages s t ps := fun k _ => by
  simp only [State.reg, h]

theorem onlyPages_trans {s t u : State} {ps : List Nat} (h₁ : OnlyPages s t ps) (h₂ : OnlyPages t u ps) :
    OnlyPages s u ps := fun k hk => (h₂ k hk).trans (h₁ k hk)

theorem answered_of_onlyStuck {s t : State} {ps : List Nat} (h : OnlyStuck s t ps) (i : Initiator) :
    t.answered i = s.answered i := by
  simp only [State.answered, onlyStuck_bus h]

/-! Refused accesses. -/

/-- Where a route leads to no register and no memory. -/
def turnedAway : Route → Bool
  | .reg _ _ _ | .mem _ => false
  | _ => true

/-- The state in which a refused access sets its sticky bit: a read has been answered with 0. -/
def answeredZero (i : Initiator) (w : Option Word) (s : State) : State :=
  Act.run (whenA w.isNone (answer i 0)) s

/-- An access whose word the map turns away is answered with 0, if it is a read, and sets what its refusal sets. -/
theorem run_busAccess_refused {s : State} {i : Initiator} {a : Nat} {w : Option Word} {r : Route} (n : Nat)
    (hr : s.route i (a / 4 * 4) w.isSome = r) (ht : turnedAway r = true) :
    Act.run (busAccess i a n w) s = Act.run (refusal i a r) (answeredZero i w s) := by
  cases w with
  | some x =>
    rw [busAccess, busWrite, run_look]
    cases r with
    | reg | mem => cases ht
    | unmapped | domOff | romWrite | viewRef | bindViol => rw [show s.route i (a / 4 * 4) true = _ from hr]; rfl
  | none =>
    rw [busAccess, busRead, run_look]
    cases r with
    | reg | mem => cases ht
    | unmapped | domOff | romWrite | viewRef | bindViol =>
      rw [show s.route i (a / 4 * 4) false = _ from hr]
      simp only [run_chain_cons, run_chain_nil]
      rfl

/-- What a refused access leaves: pages other than those of its sticky bits, memory, and the answer 0 of a read. -/
theorem refused_leaves {s : State} {i : Initiator} {a : Nat} {w : Option Word} {r : Route} {ps : List Nat}
    (h : Sticks ps (refusal i a r)) :
    let t := Act.run (refusal i a r) (answeredZero i w s)
    (w = none → t.answered i = 0) ∧ OnlyPages s t ps ∧ SameStore s t := by
  have hst := h (answeredZero i w s)
  refine ⟨fun hw => ?_, ?_, ?_⟩
  · rw [answered_of_onlyStuck hst, hw]
    exact answered_answer i 0 s
  · refine onlyPages_trans (onlyPages_of_regs ?_ ps) hst.regs
    cases w <;> rfl
  · refine sameStore_iff.mpr ((sameStore_iff.mp (onlyStuck_sameStore hst)).trans ?_)
    cases w <;> rfl

/-- An access that one sticky bit of page SYS answers. -/
theorem refused_sys {s : State} {i : Initiator} {a : Nat} {w : Option Word} {r : Route} {f : Fld} (n : Nat)
    (hr : s.route i (a / 4 * 4) w.isSome = r) (ht : turnedAway r = true) (hf : refusal i a r = stick f)
    (hw : f.width = 1) (hl : f.lo < 32) (hp : addrPage (keyAddr f.key) = 0x00) :
    let t := Act.run (busAccess i a n w) s
    t.is f = true ∧ (w = none → t.answered i = 0) ∧ OnlyPages s t [0x00] ∧ SameStore s t := by
  intro t
  have hst : Sticks [0x00] (refusal i a r) := by rw [hf]; exact sticks_stick f (by rw [hp]; exact List.mem_singleton_self _)
  have ht' : t = Act.run (refusal i a r) (answeredZero i w s) := run_busAccess_refused n hr ht
  rw [ht']
  refine ⟨?_, refused_leaves hst⟩
  rw [hf]
  exact stick_is f _ hw hl

/-- A tenant view that does not show the register sets VIEWREF, in the tenant's copy too (R297, R298). -/
theorem stickV_is (f : Fld) (v : Nat) (s : State) (hw : f.width = 1) (hl : f.lo < 32) :
    (Act.run (stickV f v) s).is f = true ∧ (v ≠ 0 → (Act.run (stickV f v) s).is (f.copy v) = true) := by
  have hs := stick_is f s hw hl
  simp only [stickV, run_chain_cons, run_chain_nil, run_whenA, run_put]
  by_cases hv : v = 0
  · simp [hv, hs]
  · rw [if_pos (by simpa using hv)]
    refine ⟨?_, fun _ => put_is_same _ (f.copy v) 1 hw hl⟩
    have hk : (f.copy v).key ≠ f.key := by rw [copy_key]; omega
    rw [put_is_apart _ 1 (by rw [copy_lo, copy_width]; omega) (by rw [apart, bne_iff_ne.mpr hk]; rfl), hs]

theorem sticks_bindViolation (i : Initiator) (v a : Nat) : Sticks [0x1C] (bindViolation i v a) :=
  sticks_look fun _ => sticks_cons (sticks_stick _ (by decide)) (sticks_cons (sticks_whenA
    (sticks_cons (sticks_put _ _ (by decide)) (sticks_cons (sticks_put _ _ (by decide)) (sticks_cons
      (sticks_put _ _ (by decide)) (sticks_cons (sticks_put _ _ (by decide)) (sticks_cons (sticks_put _ _ (by decide))
        sticks_nil)))))) sticks_nil)

/-- VIOLLOG keeps the first bound initiator that was refused (R300). -/
theorem bindViolation_logs {s : State} (i : Initiator) (v a : Nat) (h : s.is VIF.VIOLLOG.V = false) :
    let t := Act.run (bindViolation i v a) s
    t.is VIF.STICKY.BINDVIOL = true ∧ t.is VIF.VIOLLOG.V = true ∧ t.get VIF.VIOLLOG.VI = v % 16 ∧
      t.get VIF.VIOLLOG.ADDR = a / 0x1000 % 2 ^ 20 := by
  intro t
  have hs := stick_is VIF.STICKY.BINDVIOL s rfl (by decide)
  have ht : t = Act.run (chain [put VIF.VIOLLOG.INIT (violWho i).1, put VIF.VIOLLOG.VI v,
      put VIF.VIOLLOG.CH (violWho i).2, put VIF.VIOLLOG.ADDR (a / 0x1000), put VIF.VIOLLOG.V 1])
      (Act.run (stick VIF.STICKY.BINDVIOL) s) := by
    rw [show t = Act.run (bindViolation i v a) s from rfl, bindViolation, run_look, h, Bool.not_false, whenA_true,
      run_chain_cons, run_chain_cons, run_chain_nil]
  rw [ht]
  simp only [run_chain_cons, run_chain_nil, run_put]
  refine ⟨?_, ?_, ?_, ?_⟩
  · rw [put_is_apart _ _ (by decide) (by decide), put_is_apart _ _ (by decide) (by decide),
      put_is_apart _ _ (by decide) (by decide), put_is_apart _ _ (by decide) (by decide),
      put_is_apart _ _ (by decide) (by decide), hs]
  · rw [put_is_same _ _ _ rfl (by decide)]
    rfl
  · rw [put_get_apart _ _ _ _ (by decide) (by decide), put_get_apart _ _ _ _ (by decide) (by decide),
      put_get_apart _ _ _ _ (by decide) (by decide), put_get_same _ _ _ (by decide),
      show VIF.VIOLLOG.VI.width = 4 from rfl]
    norm_num
  · rw [put_get_apart _ _ _ _ (by decide) (by decide), put_get_same _ _ _ (by decide),
      show VIF.VIOLLOG.ADDR.width = 20 from rfl]

/-! Narrow and misaligned accesses (R9). -/

theorem sticky_base (p : Page) (b : Nat) :
    (headerOf (pageBase + p.code * 0x1000) 0x10 32).bit b = stickyBit (pageBase + p.code * 0x1000) b ∧
      addrPage (keyAddr (pageBase + p.code * 0x1000)) = p.code := by
  have := code_lt p
  have hz : keyAddr (pageBase + p.code * 0x1000) = pageBase + p.code * 0x1000 := by
    unfold keyAddr pageBase; omega
  rw [stickyBit, hz]
  refine ⟨rfl, ?_⟩
  unfold addrPage pageBase
  omega

/-- A narrow or misaligned write inside a page sets RSVD of the page. -/
theorem run_busWrite_narrow {s : State} {i : Initiator} {a n : Nat} {p : Page} {off : Nat} (w : Nat)
    (hr : s.route i a true = .reg p off 0) (hn : n ≠ 4 ∨ a % 4 ≠ 0) :
    Act.run (busWrite i a n w) s = Act.run (setRsvd (pageBase + p.code * 0x1000) 0) s := by
  have hc : ¬ ((n == 4 && a % 4 == 0) = true) := by
    rw [Bool.and_eq_true, beq_iff_eq, beq_iff_eq]
    omega
  rw [busWrite, run_look, route_word hr]
  dsimp only
  rw [if_neg hc]

theorem accessWidth_eq_four {n : Fin 3} : accessWidth n = 4 ↔ n = 2 := by
  fin_cases n <;> decide

theorem narrowWrite_sets {s : State} {i : Initiator} {a x : Word} {n : Fin 3} {p : Page} {off : Nat}
    (hr : s.route i a.toNat true = .reg p off 0) (hn : n ≠ 2 ∨ a.toNat % 4 ≠ 0) :
    Completes (.narrowOrMisalignedAccess i a n (some x)) s fun t =>
      t.is ((headerOf (pageBase + p.code * 0x1000) 0x10 32).bit 31) = true ∧ OnlyStuck s t [p.code] := by
  refine completes_of_run (busWrite i a.toNat (accessWidth n) x.toNat) rfl ?_
  obtain ⟨hb, hpage⟩ := sticky_base p 31
  rw [run_busWrite_narrow _ hr (by rwa [ne_eq, accessWidth_eq_four]), hb]
  refine ⟨setRsvd_is _ s, ?_⟩
  have := sticks_setRsvd (pageBase + p.code * 0x1000) 0 s
  rwa [hpage] at this

/-! Reads of SRAM. -/

/-- SRAM lies in no flash bank and is never hidden (R433, R600). -/
theorem bankAt_sram {a : Nat} (h : 0x20000000 ≤ a) : bankAt a = none := by
  rw [bankAt, if_neg (by unfold Base.flashA Base.flashB; omega), if_neg (by unfold Base.flashB; omega)]

theorem hidden_sram {s : State} {a : Nat} (hlo : 0x20000000 ≤ a) (hhi : a < 0x20200000) : s.hidden a = none := by
  rw [State.hidden]
  split
  · rfl
  · rw [if_neg (by unfold Base.mram; omega), if_neg (by unfold Base.flashA; omega)]

theorem load_sram {s : State} {a n : Nat} (hlo : 0x20000000 ≤ a) (hhi : a + n ≤ 0x20200000) : s.load a n = s.bytes a n := by
  induction n generalizing a with
  | zero => rfl
  | succ n ih =>
    have h1 : s.load1 a = s.byte a := by
      simp [State.load1, hidden_sram hlo (show a < 0x20200000 by omega), State.stalled, bankAt_sram hlo]
    rw [State.load, State.bytes, h1, ih (by omega) (by omega)]

theorem run_meetMem_sram {s : State} {a : Nat} (n : Nat) (hlo : 0x20000000 ≤ a) (hb : s.ecc.bad = [])
    (hf : s.ecc.fresh = []) : Act.run (meetMem a n) s = s := by
  simp only [meetMem, bankAt_sram hlo, run_chain_cons, run_chain_nil, run_skip]
  rw [Act.run, touch_none a n hb hf, applyAll_nil]

/-- A read of SRAM that its route reaches returns the bytes. -/
theorem run_busRead_sram {s : State} {i : Initiator} {a n : Nat} (hlo : 0x20000000 ≤ a) (hhi : a + n ≤ 0x20200000)
    (hw : s.route i (a / 4 * 4) false = .mem (a / 4 * 4)) (hr : s.route i a false = .mem a) (hb : s.ecc.bad = [])
    (hf : s.ecc.fresh = []) : Act.run (busRead i a n) s = Act.run (answer i (s.bytes a n)) s := by
  rw [busRead, run_look, hw]
  dsimp only
  rw [hr]
  simp only [run_chain_cons, run_chain_nil]
  rw [run_meetMem_sram n hlo hb hf, load_sram hlo hhi]

/-- Settles O13: each refused access takes the branch of its route, and a narrow read of SRAM the branch of memory. -/
theorem refusedAccesses : Obligations.RefusedAccesses := by
  intro s i a n w
  refine ⟨fun x p off hr hn => narrowWrite_sets hr hn, ?_, ?_, ?_, ?_, ?_, ?_⟩
  · intro hlo hhi hw hr hb hf
    refine completes_of_run (busRead i a.toNat (accessWidth n)) rfl ?_
    rw [run_busRead_sram hlo hhi hw hr hb hf]
    exact ⟨answered_answer _ _ s, rfl, rfl, rfl⟩
  · intro hr
    refine completes_of_run (busAccess i (a.toNat / 4 * 4) 4 w) rfl ?_
    exact refused_sys 4 (by rw [Nat.mul_div_cancel _ (by decide), hr]) rfl rfl rfl (by decide) (by decide)
  · intro hr
    refine completes_of_run (look fun _ => busAccess i (a.toNat / 4 * 4) 4 w) rfl ?_
    rw [run_look]
    exact refused_sys 4 (by rw [Nat.mul_div_cancel _ (by decide), hr]) rfl rfl rfl (by decide) (by decide)
  · intro x hr
    refine completes_of_run (busAccess i (a.toNat / accessWidth n * accessWidth n) (accessWidth n) (some x)) rfl ?_
    have hword : a.toNat / accessWidth n * accessWidth n / 4 * 4 = a.toNat / 4 * 4 := by
      fin_cases n <;> simp only [accessWidth] <;> omega
    rw [run_busAccess_refused (r := .romWrite) _ (by rw [hword]; exact hr) rfl]
    exact ⟨stick_is SYS.STICKY.ROWRITE _ rfl (by decide), sticks_stick SYS.STICKY.ROWRITE (by decide) s⟩
  · intro v off u hr
    refine completes_of_run (busAccess i (Base.window + v * 0x100000 + off / 4 * 4) 4 w) rfl ?_
    rw [run_busAccess_refused (r := .viewRef u) 4 (by
      rw [← hr]; congr 1; unfold Base.window; omega) rfl]
    obtain ⟨hv, hc⟩ := stickV_is VIF.STICKY.VIEWREF u (answeredZero i w s) rfl (by decide)
    obtain ⟨ha, -, hst⟩ := refused_leaves (s := s) (w := w) (r := .viewRef u) (i := i)
      (a := Base.window + v * 0x100000 + off / 4 * 4) (sticks_stickV VIF.STICKY.VIEWREF u (ps := [0x1C]) (by decide))
    exact ⟨hv, hc, ha, hst⟩
  · intro v hal hr hlog
    refine completes_of_run (busAccess i (a.toNat / accessWidth 2 * accessWidth 2) (accessWidth 2) w) rfl ?_
    have hword : a.toNat / accessWidth 2 * accessWidth 2 = a.toNat := by
      show a.toNat / 4 * 4 = a.toNat
      omega
    rw [hword, run_busAccess_refused (r := .bindViol v) _ (by
      rw [show a.toNat / 4 * 4 = a.toNat by omega, hr]) rfl]
    obtain ⟨ha, -, hst⟩ := refused_leaves (s := s) (w := w) (r := .bindViol v) (i := i) (a := a.toNat)
      (sticks_bindViolation i v a.toNat)
    have hz : (answeredZero i w s).is VIF.VIOLLOG.V = false := by rw [← hlog]; cases w <;> rfl
    obtain ⟨hb, hlogged, hvi, haddr⟩ := bindViolation_logs (s := answeredZero i w s) i v a.toNat hz
    refine ⟨hb, hlogged, hvi, haddr.trans ?_, ha, hst⟩
    have := a.isLt
    omega

end Sys2Proof.Proofs
end

section
/-! Header registers, registers that a read clears, doorbells and a remote store (R10, R15, R21, R326, R407, R568). -/

namespace Sys2Proof.Proofs

open Sys2Proof.Machine Sys2Proof.Laws

/-! STICKY and LOCK. -/

theorem run_unlockBroken {s : State} (h : s.flc.step = 0) : Act.run unlockBroken s = s := by
  rw [unlockBroken, run_look, h, run_whenA, if_neg (by decide)]

/-- No register of an array stands below the array. -/
theorem arrayAt_below {off base : Nat} (h : off < base) (stride count : Nat) : arrayAt off base stride count = none :=
  if_neg (by omega)

/-- STICKY and LOCK of every page but FLC have the rules of their tables alone. -/
theorem specialWrite_header {q : Page} (hq : q ≠ .FLC) {off : Nat} (ho : off = 0x10 ∨ off = 0x1C) (i : Initiator) (w : Nat) :
    specialWrite i q off 0 w = none := by
  obtain rfl | rfl := ho <;> cases q
  case inl.FLC | inr.FLC => exact absurd rfl hq
  case inl.DMD | inr.DMD | inl.DUT | inr.DUT | inl.REC | inr.REC | inl.TIM | inr.TIM | inl.CMD | inr.CMD =>
    simp [specialWrite, writeDmd, writeTim, arrayAt_below]
  all_goals rfl

/-- The write of STICKY or LOCK of page FLC, which would break an open privileged path (R442). -/
theorem run_writeFlc_header {off : Nat} (ho : off = 0x10 ∨ off = 0x1C) (i : Initiator) (w : Nat) (s : State) :
    Act.run (writeFlc i off w) s =
      Act.run (plainWrite (pageBase + Page.FLC.code * 0x1000 + off) 0 w) (Act.run unlockBroken s) := by
  have hk : FLC.UNLK.key - 0x40 + off = pageBase + Page.FLC.code * 0x1000 + off := rfl
  rw [← hk, writeFlc, run_look]
  obtain rfl | rfl := ho
  · simp [arrayAt_below]
  · simp [arrayAt_below]

/-- The key of STICKY or LOCK. -/
theorem keyOf_header {q : Page} {off : Nat} {d : RegDesc} (ho : off < 0x1000) (hd : findReg q.table off = some d) :
    KeyOf (pageBase + q.code * 0x1000 + off) q off d := by
  refine ⟨?_, ho, found_of_findReg hd⟩
  have := code_lt q
  unfold keyAddr pageBase
  omega

theorem regKey_header {q : Page} {off : Nat} {d : RegDesc} (h : d.off = 0x10 ∨ d.copy = .shared) (who : Option Initiator) :
    regKey q off d who 0 = pageBase + q.code * 0x1000 + off := by
  have hz : copyOf d who 0 = 0 := by
    unfold copyOf
    obtain h | h := h
    · rw [if_pos (.inl h)]
    · rw [h]; exact ite_self 0
  rw [regKey, hz, Nat.zero_mul, Nat.add_zero]

/-- A write of STICKY or LOCK judges the register's fields, with no privileged path open. -/
theorem run_writeReg_header {s : State} {q : Page} {off : Nat} {d : RegDesc} (ho : off = 0x10 ∨ off = 0x1C)
    (hd : findReg q.table off = some d) (hdo : d.off = 0x10 ∨ d.copy = .shared) (hs : s.flc.step = 0) (i : Initiator) (w : Nat) :
    Act.run (writeReg i q off 0 w) s = Act.run (judgeAll (pageBase + q.code * 0x1000 + off) w d.fields) s := by
  have hlt : off < 0x1000 := by omega
  by_cases hq : q = .FLC
  · subst hq
    rw [writeReg, specialWrite]
    dsimp only
    rw [run_writeFlc_header ho, run_unlockBroken hs, plainWrite_eq (keyOf_header hlt hd)]
  · rw [writeReg_plain (specialWrite_header hq ho i w) hd hlt, regKey_header hdo]

/-- STICKY and LOCK as every table describes them. -/
theorem findReg_sticky (q : Page) : (findReg q.table 0x10).all (fun d => d.off == 0x10) = true := by
  cases q <;> decide +kernel

theorem findReg_lock (q : Page) : findReg q.table 0x1C = some ⟨0x1C, 1, 0, 0, .shared, [⟨0, 1, .w1s, .any⟩]⟩ := by
  cases q <;> rfl

/-- A one-bit number is its bit. -/
theorem eq_testBit_toNat {x : Nat} (h : x < 2 ^ 1) : x = (x.testBit 0).toNat := by
  rw [← bitOf_testBit, bitOf]
  omega

theorem of_bit (f : FieldDesc) (w : Nat) (hw : f.width = 1) : f.of w = (w.testBit f.lo).toNat := by
  rw [FieldDesc.of, hw, ← bitOf_testBit]
  rfl

theorem get_bit (s : State) (g : Fld) (hw : g.width = 1) : s.get g = (s.is g).toNat := by
  have h : s.get g < 2 ^ g.width := get_lt s g
  rw [hw] at h
  simp only [State.is]
  rcases (by omega : s.get g = 0 ∨ s.get g = 1) with hz | hz <;> rw [hz] <;> rfl

/-- A sticky bit after a write of 1 or 0 to it (R15). -/
theorem fieldAfter_w1c {s : State} {k : Nat} {w : Word} {f : FieldDesc} (hw : f.width = 1) (ha : f.acc = .w1c) :
    fieldAfter s k w f = (s.is (placeOf k f) && !w.toNat.testBit f.lo).toNat := by
  have hg : s.get ⟨k, f.lo, f.width, 0⟩ = (s.is (placeOf k f)).toNat := get_bit s (placeOf k f) hw
  simp only [fieldAfter, ha, hg, of_bit f _ hw]
  cases s.is (placeOf k f) <;> cases w.toNat.testBit f.lo <;> rfl

theorem fieldAfter_w1s {s : State} {k : Nat} {w : Word} {f : FieldDesc} (hw : f.width = 1) (ha : f.acc = .w1s) :
    fieldAfter s k w f = (s.is (placeOf k f) || w.toNat.testBit f.lo).toNat := by
  have hg : s.get ⟨k, f.lo, f.width, 0⟩ = (s.is (placeOf k f)).toNat := get_bit s (placeOf k f) hw
  simp only [fieldAfter, ha, hg, of_bit f _ hw]
  cases s.is (placeOf k f) <;> cases w.toNat.testBit f.lo <;> rfl

theorem is_of_get_toNat {s : State} {g : Fld} {b : Bool} (h : s.get g = b.toNat) : s.is g = b := by
  rw [State.is, h]
  cases b <;> rfl

/-- What a command that writes STICKY or LOCK of a page leaves of the register's fields. -/
theorem header_fields {s : State} {i : Initiator} {q : Page} {off : Nat} {d : RegDesc} (w : Word)
    (ho : off = 0x10 ∨ off = 0x1C) (hp : q = .PWR → refusesPwr i = false) (hw : s.pairHolds q = false) (hs : s.flc.step = 0)
    (hr : s.route i (pageBase + q.code * 0x1000 + off) true = .reg q off 0) (hd : findReg q.table off = some d)
    (hdo : d.off = 0x10 ∨ d.copy = .shared) : ∀ f ∈ d.fields,
      (Act.run (busWrite i (pageBase + q.code * 0x1000 + off) 4 w.toNat) s).get
        (placeOf (pageBase + q.code * 0x1000 + off) f) = fieldAfter s (pageBase + q.code * 0x1000 + off) w f := by
  have hk := keyOf_header (q := q) (show off < 0x1000 by omega) hd
  rw [run_busWrite_reg w (by unfold pageBase; omega) hr hp hw, run_writeReg_header ho hd hdo hs]
  exact judgeAll_get hk.judgeable (fun f _ h => hk.lock_apart f h) s

theorem viewPlace_zero (q : Page) (off : Nat) : viewPlace q off 0 = pageBase + q.code * 0x1000 + off := by
  cases q <;> rfl

theorem code_val {k : Fin 38} {q : Page} (h : Page.ofCode k = some q) : q.code = k := code_of_ofCode h

theorem stickyClears {s : State} {i : Initiator} {w : Word} {k : Fin 38} {q : Page} {d : RegDesc}
    (hq : Page.ofCode k = some q) (hp : q = .PWR → refusesPwr i = false) (hw : s.pairHolds q = false) (hs : s.flc.step = 0)
    (hr : s.route i (pageBase + q.code * 0x1000 + 0x10) true = .reg q 0x10 0) (hd : findReg q.table 0x10 = some d) :
    Completes (.stickyClear i k 0 w) s fun t => ∀ f ∈ d.fields,
      let g : Fld := ⟨pageBase + q.code * 0x1000 + 0x10, f.lo, f.width, 0⟩
      f.width = 1 → f.acc = .w1c → t.is g = (s.is g && !w.toNat.testBit f.lo) := by
  have hdo : d.off = 0x10 := by
    have := findReg_sticky q
    rw [hd] at this
    exact beq_iff_eq.mp this
  refine completes_of_run (busWrite i (viewPlace q 0x10 0) 4 w.toNat) ?_ ?_
  · show execStickyClear i k 0 w s = _
    rw [execStickyClear, hq]
    rfl
  · rw [viewPlace_zero]
    intro f hf g hfw hfa
    exact is_of_get_toNat ((header_fields w (.inl rfl) hp hw hs hr hd (.inl hdo) f hf).trans (fieldAfter_w1c hfw hfa))

theorem lockWrites {s : State} {i : Initiator} {w : Word} {k : Fin 38} {q : Page} (hq : Page.ofCode k = some q)
    (hp : q = .PWR → refusesPwr i = false) (hw : s.pairHolds q = false) (hs : s.flc.step = 0)
    (hr : s.route i (pageBase + q.code * 0x1000 + 0x1C) true = .reg q 0x1C 0) :
    Completes (.lockWrite i k 0 w) s fun t =>
      t.locked (pageBase + q.code * 0x1000) = (s.locked (pageBase + q.code * 0x1000) || w.toNat.testBit 0) := by
  have hlock : ∀ t : State, t.locked (pageBase + q.code * 0x1000) =
      t.is (placeOf (pageBase + q.code * 0x1000 + 0x1C) ⟨0, 1, .w1s, .any⟩) := fun t => by
    have hz : keyAddr (pageBase + q.code * 0x1000) / 0x1000 * 0x1000 = pageBase + q.code * 0x1000 := by
      have := code_lt q
      unfold keyAddr pageBase; omega
    rw [State.locked, headerOf, hz]
    rfl
  refine completes_of_run (busWrite i (viewPlace q 0x1C 0) 4 w.toNat) ?_ ?_
  · show execLockWrite i k 0 w s = _
    rw [execLockWrite, hq]
    rfl
  · rw [viewPlace_zero, hlock, hlock]
    exact is_of_get_toNat ((header_fields w (.inr rfl) hp hw hs hr (findReg_lock q) (.inr rfl) ⟨0, 1, .w1s, .any⟩
      List.mem_cons_self).trans (fieldAfter_w1s rfl rfl))

/-! Registers that a read clears (R10). -/

/-- The registers of the statement, each with its page. -/
def clearedByRead : List (Fld × Page) :=
  [(FLT.RECCNT, .FLT), (REC.FROZCNT, .REC), (REC.LOSTCNT, .REC), (PWR.WAKESRC, .PWR), (LMP.OTCNT, .LMP),
    (MEM.MAXLAP, .MEM), (CAS.LINKERR, .CAS)]

/-- Each of them has a key of its page, and its whole word is cleared. -/
theorem readReg_clears {x : Fld × Page} (hx : x ∈ clearedByRead) (i : Initiator) (s : State) :
    Act.run (readReg i x.2 (x.1.key % 0x1000) 0) s =
      Eff.apply (Act.run (answer i (s.peek (some i) x.2 (x.1.key % 0x1000) 0)) s) (.put { x.1 with lo := 0, width := 32 } 0) := by
  simp only [clearedByRead, List.mem_cons, List.not_mem_nil, or_false] at hx
  obtain rfl | rfl | rfl | rfl | rfl | rfl | rfl := hx <;> rfl

/-- A read of a whole word that the route reaches is the register's read. -/
theorem run_busRead_reg {s : State} {i : Initiator} {a : Nat} {p : Page} {off v : Nat} (ha : a % 4 = 0)
    (hr : s.route i a false = .reg p off v) (hw : s.pairHolds p = false) :
    Act.run (busRead i a 4) s = Act.run (readReg i p off v) s := by
  have hn : ¬ (((4 : Nat) == 4 && a % 4 != 0) || decide (4 < a % 4 + 4)) = true := by simp [ha]
  rw [busRead, run_look, show a / 4 * 4 = a by omega, hr]
  dsimp only
  rw [if_neg hn, regAccess, run_look, hw, if_neg Bool.false_ne_true, run_chain_cons, run_chain_cons, run_chain_nil, run_look,
    run_whenA, if_neg (by decide)]

theorem readToClears {s : State} {i : Initiator} {x : Fld × Page} (hx : x ∈ clearedByRead)
    (hr : s.route i x.1.key false = .reg x.2 (x.1.key % 0x1000) 0) :
    Completes (.readToClear i (BitVec.ofNat 32 x.1.key)) s fun t =>
      t.answered i = s.peek (some i) x.2 (x.1.key % 0x1000) 0 ∧ t.get { x.1 with lo := 0, width := 32 } = 0 ∧
        OnlyPages s t [x.2.code] ∧ SameStore s t := by
  have hfacts : ∀ y ∈ clearedByRead, y.1.key < 2 ^ 32 ∧ y.1.key % 4 = 0 ∧ addrPage (keyAddr y.1.key) = y.2.code ∧
      y.2 ≠ .SHU ∧ y.2 ≠ .PAT := by decide
  obtain ⟨hlt, hal, hpage, hshu, hpat⟩ := hfacts x hx
  have hkey : (BitVec.ofNat 32 x.1.key).toNat / 4 * 4 = x.1.key := by
    rw [BitVec.toNat_ofNat, Nat.mod_eq_of_lt hlt]
    omega
  have hpair : s.pairHolds x.2 = false := by
    rw [State.pairHolds, beq_false_of_ne hshu, beq_false_of_ne hpat, Bool.or_false, Bool.and_false]
  refine completes_of_run (busRead i ((BitVec.ofNat 32 x.1.key).toNat / 4 * 4) 4) rfl ?_
  rw [hkey, run_busRead_reg hal hr hpair, readReg_clears hx]
  set u := Act.run (answer i (s.peek (some i) x.2 (x.1.key % 0x1000) 0)) s with hu
  refine ⟨?_, ?_, ?_, rfl, rfl⟩
  · show u.answered i = _
    rw [hu, answered_answer]
  · rw [put_get_same u { x.1 with lo := 0, width := 32 } 0 (Nat.le_refl 32), Nat.zero_mod]
  · exact onlyPages_trans (onlyPages_of_regs rfl _)
      (onlyPages_put u { x.1 with lo := 0, width := 32 } 0 (by rw [hpage]; exact List.mem_singleton_self _))

/-! The release of DN1 and the doorbells (R407, R568). -/

/-- What a write of CPU.CTRL by DN0 or the host does to DN1, where it changes DN1RUN. -/
def moveDn1 (s : State) (run : Bool) : Act :=
  chain [put CPU.CTRL.DN1RUN run.toNat, put CPU.STAT.LOCK1 0, put CPU.STAT.SLEEP1 0,
    onCore 1 fun _ => { DnCore.reset 1 with pc := s.get CPU.DN1PC.PC * 2, runs := run }]

/-- DN0 and the host move DN1 between its reset and its start at DN1PC. -/
theorem run_writeDn1run {s : State} {i : Initiator} (run : Bool) (hi : i = .core 0 ∨ ∃ v, i = .host v)
    (h : s.is CPU.CTRL.DN1RUN ≠ run) :
    Act.run (writeDn1run i (if run then 1 else 0)) s = Act.run (moveDn1 s run) s := by
  have hwhen : Act.run (writeDn1run i (if run then 1 else 0)) s =
      Act.run (whenA (s.is CPU.CTRL.DN1RUN != run) (moveDn1 s run)) s := by
    obtain rfl | ⟨v, rfl⟩ := hi <;> cases run <;> rfl
  rw [hwhen, bne_iff_ne.mpr h, whenA_true]

theorem core_onCore {s : State} (h : s.dn.cores.length = 2) (c : Fin 2) (k : DnCore) (d : Nat) :
    (Act.run (onCore c fun _ => k) s).core d = if d = c then k else s.core d := by
  have hc := c.isLt
  simp only [onCore, run_onDn, modify_const, State.core, dn_dn, List.getD_eq_getElem?_getD, List.getElem?_set]
  by_cases hd : d = c.val
  · subst hd
    simp [h, show c.val ≤ 1 by omega]
  · simp [hd, Ne.symm hd]

theorem dn1runWrites {s : State} {i : Initiator} (run : Bool) (hi : i = .core 0 ∨ ∃ v, i = .host v)
    (ho : Opens s i CPU.CTRL.DN1RUN 0 true) (h : s.is CPU.CTRL.DN1RUN ≠ run) (hl : s.dn.cores.length = 2) :
    Completes (.dn1runWrite i run) s fun t =>
      t.is CPU.CTRL.DN1RUN = run ∧ t.core 0 = s.core 0 ∧
        t.core 1 = { DnCore.reset 1 with pc := s.get CPU.DN1PC.PC * 2, runs := run } := by
  refine completes_of_run (atRegister i 0 CPU.CTRL.DN1RUN true (writeDn1run i (if run then 1 else 0))) rfl ?_
  rw [run_atRegister _ ho, run_writeDn1run run hi h, moveDn1, run_chain_cons, run_chain_cons, run_chain_cons, run_chain_cons,
    run_chain_nil]
  refine ⟨?_, ?_, ?_⟩
  · rw [onCore, run_onDn, dn_is, run_put, run_put, run_put, put_is_apart _ _ (by decide) (by decide), put_is_apart _ _ (by decide) (by decide),
      put_is_same _ _ _ rfl (by decide)]
    cases run <;> rfl
  · exact core_onCore hl 1 _ 0
  · exact core_onCore hl 1 _ 1

/-- Ringing a list of doorbells. -/
theorem ring_doorbells (l : List Nat) (hl : ∀ c ∈ l, c < 2) (s : State) (d : Nat) (hd : d < 2) :
    (Act.run (eachA l fun c => put (CPU.DBSTAT.DB.bit c) 1) s).is (CPU.DBSTAT.DB.bit d) =
      (s.is (CPU.DBSTAT.DB.bit d) || decide (d ∈ l)) := by
  have hlo (c : Nat) : (CPU.DBSTAT.DB.bit c).lo = c := Nat.zero_add c
  have hwd (c : Nat) : (CPU.DBSTAT.DB.bit c).width = 1 := rfl
  induction l generalizing s with
  | nil => simp
  | cons c l ih =>
    have hc := hl c List.mem_cons_self
    rw [run_eachA_cons, ih (fun x hx => hl x (List.mem_cons_of_mem _ hx)), run_put]
    by_cases hdc : d = c
    · subst hdc
      rw [put_is_same _ _ _ rfl (by rw [hlo]; omega)]
      simp
    · rw [put_is_apart _ _ (by rw [hlo, hwd]; omega) (by
        simp only [apart, hlo, hwd, Bool.or_eq_true, decide_eq_true_eq]; omega)]
      simp [hdc]

theorem dbsetWrites {s : State} {i : Initiator} {w : Word} (ho : Opens s i CPU.DBSET 0 true) :
    Completes (.dbsetWrite i w) s fun t =>
      ∀ c < 2, t.is (CPU.DBSTAT.DB.bit c) = (s.is (CPU.DBSTAT.DB.bit c) || w.toNat.testBit c) := by
  refine completes_of_run (atRegister i 0 CPU.DBSET true (writeDbset w.toNat)) rfl fun c hc => ?_
  rw [run_atRegister _ ho, writeDbset, ring_doorbells _ (by simp +contextual) s c hc]
  congr 1
  simp only [List.mem_filter, List.mem_range, hc, true_and, bitOf_testBit]
  cases w.toNat.testBit c <;> rfl

theorem hdbsetWrites {s : State} {i : Initiator} (set : Bool) (ho : Opens s i HIF.HDBSET 0 true) :
    Completes (.hdbsetWrite i set) s fun t => t.is HIF.HDB.VAL = (s.is HIF.HDB.VAL || set) := by
  refine completes_of_run (atRegister i 0 HIF.HDBSET true (whenA set (put HIF.HDB.VAL 1))) rfl ?_
  rw [run_atRegister _ ho, run_whenA]
  cases set with
  | false => rw [if_neg Bool.false_ne_true, Bool.or_false]
  | true => rw [if_pos rfl, run_put, put_is_same _ _ _ rfl (by decide), Bool.or_true]; rfl

/-! A remote store (R326). -/

/-- A store to SRAM with no error known there stores its bytes and nothing else. -/
theorem run_storeMem_sram {s : State} {a n v : Nat} (hlo : 0x20000000 ≤ a) (hhi : a < 0x20200000) (hb : s.ecc.bad = [])
    (hf : s.ecc.fresh = []) : Act.run (storeMem a n v) s = Act.run (setBytes a n v) s := by
  have hw : memWord a = some (0, (a - Base.sram) / 8 * 8) := by
    rw [memWord, if_pos ⟨by unfold Base.sram; omega, hhi⟩]
  have hheal : Act.run (heal a n) s = s := by
    rw [heal, run_look, hb, hf]
    rfl
  rw [storeMem, run_look, if_neg (by unfold Base.bobbin; omega), hidden_sram hlo hhi, if_neg (by decide),
    if_neg (by unfold Base.mram; omega), storeWord, run_look, hw]
  dsimp only
  rw [hb, hf, if_neg (by simp), run_chain_cons, run_chain_cons, run_chain_cons, run_chain_nil, run_whenA,
    if_neg (by simp), hheal]

/-- The bus block of the cascade has no part in a route. -/
theorem route_cas (s : State) (b : CasSt) (i : Initiator) (a : Nat) (w : Bool) :
    (Eff.apply s (.cas b)).route i a w = s.route i a w := rfl

theorem remoteStores {s : State} {w a : Word} (hm : s.domOn Dom.mac = true) (hl : s.linkLive = true)
    (he : s.is CAS.CTRL.REMEN = true) (hr : s.route .remote (a.toNat / 4 * 4) true = .mem (a.toNat / 4 * 4))
    (hlo : 0x20000000 ≤ a.toNat) (hhi : a.toNat < 0x20200000) (hb : s.ecc.bad = []) (hf : s.ecc.fresh = []) :
    Completes (.remoteAccessServe a 0 (some [w])) s fun t =>
      t.word (a.toNat / 4 * 4) = w.toNat ∧ t.regs = s.regs ∧
        ∀ j, (j < a.toNat / 4 * 4 ∨ a.toNat / 4 * 4 + 4 ≤ j) → t.byte j = s.byte j := by
  set at_ := a.toNat / 4 * 4 with hat
  set u := Eff.apply s (.cas { s.cas with served := [] }) with hu
  have hrun : exec (.remoteAccessServe a 0 (some [w])) s = .next (Act.run (setWord at_ w.toNat) u) := by
    show act _ s = _
    rw [act_next, run_look, hm, hl, he, Bool.and_self, Bool.and_self, whenA_true, run_chain_cons, run_chain_cons,
      run_chain_nil]
    congr 1
    show Act.run (eachA [0] fun k => busWrite .remote (at_ + 4 * k) 4 (List.getD [w] k 0).toNat) u = _
    rw [run_eachA_cons, run_eachA_nil]
    show Act.run (busWrite .remote at_ 4 w.toNat) u = _
    have hru : u.route .remote at_ true = .mem at_ := hr
    rw [busWrite, run_look, show at_ / 4 * 4 = at_ by omega, hru]
    dsimp only
    exact run_storeMem_sram (s := u) (by omega) (by omega) hb hf
  refine ⟨_, hrun, ?_, ?_, fun j hj => ?_⟩
  · rw [setWord_word, Nat.mod_eq_of_lt w.isLt]
  · rw [Act.run, applyAll_regs _ _ (by simp [setWord, setBytes, regFree])]
    rfl
  · rw [setWord_byte_ne at_ _ j _ hj]
    rfl

/-- Settles O14: STICKY and LOCK by their tables' fields, the others by what their commands run to. -/
theorem headersAndDoorbells : Obligations.HeadersAndDoorbells := by
  intro s i w
  refine ⟨fun k q d hq hp hw hs => ⟨fun hr hd => stickyClears hq hp hw hs hr hd, fun hr => lockWrites hq hp hw hs hr⟩,
    fun x hx hr => readToClears hx hr, fun run hi ho h hl => dn1runWrites run hi ho h hl, dbsetWrites,
    fun set ho => hdbsetWrites set ho, fun a hm hl he hr hlo hhi hb hf => remoteStores hm hl he hr hlo hhi hb hf⟩

end Sys2Proof.Proofs
end

section
/-! The device resets (R27, R469, R470, R592, R605, R609, R619 to R621). -/

namespace Sys2Proof.Proofs

open Sys2Proof.Machine Sys2Proof.Laws

/-! What holds after an action, whatever came before it. -/

/-- An action after which something holds. -/
def Establishes (P : State → Prop) (a : Act) : Prop := ∀ s, P (Act.run a s)

/-- An action that keeps something that holds. -/
def Preserves (P : State → Prop) (a : Act) : Prop := ∀ s, P s → P (Act.run a s)

variable {P : State → Prop} {a : Act} {l : List Act}

theorem preserves_nil : Preserves P (chain []) := fun _ h => h

theorem preserves_cons (ha : Preserves P a) (hl : Preserves P (chain l)) : Preserves P (chain (a :: l)) := fun s h => by
  rw [run_chain_cons]
  exact hl _ (ha s h)

theorem preserves_eachA {α : Type} {m : List α} {f : α → Act} (h : ∀ x ∈ m, Preserves P (f x)) :
    Preserves P (eachA m f) := by
  induction m with
  | nil => exact preserves_nil
  | cons x m ih => exact preserves_cons (h x List.mem_cons_self) (ih fun y hy => h y (List.mem_cons_of_mem _ hy))

theorem establishes_head (ha : Establishes P a) (hl : Preserves P (chain l)) : Establishes P (chain (a :: l)) := fun s => by
  rw [run_chain_cons]
  exact hl _ (ha s)

theorem establishes_tail (h : Establishes P (chain l)) : Establishes P (chain (a :: l)) := fun s => by
  rw [run_chain_cons]
  exact h _

/-! Registers. -/

theorem reg_resetPages (s : State) (lo hi k : Nat) : (Eff.apply s (.resetPages lo hi)).reg k =
    if lo ≤ keyAddr k ∧ keyAddr k < hi then resetWord k else s.reg k := by
  show Sparse.get resetWord (Sparse.drop s.regs fun k => lo ≤ keyAddr k && keyAddr k < hi) k = _
  rw [sparse_get_drop]
  simp only [Bool.and_eq_true, decide_eq_true_eq]
  rfl

/-- A register at its reset value stays there when a page is reset. -/
theorem preserves_resetPage (c k : Nat) : Preserves (fun t => t.reg k = resetWord k) (resetPage c) := fun s h => by
  show (Eff.apply s (.resetPages _ _)).reg k = _
  rw [reg_resetPages, h, ite_self]

theorem run_eachA_append {α : Type} (l m : List α) (f : α → Act) (s : State) :
    Act.run (eachA (l ++ m) f) s = Act.run (eachA m f) (Act.run (eachA l f) s) := by
  induction l generalizing s with
  | nil => rfl
  | cons x l ih => rw [List.cons_append, run_eachA_cons, run_eachA_cons, ih]

/-- Every register of the pages is at its reset value once each page is reset. -/
theorem establishes_resetAll {k : Nat} (h : inPages (keyAddr k)) :
    Establishes (fun t => t.reg k = resetWord k) (eachA (List.range 0x26) resetPage) := by
  obtain ⟨hpage, hlt⟩ := addrPage_inPages h
  obtain ⟨l, m, hlm⟩ := List.append_of_mem (List.mem_range.mpr hlt)
  intro s
  rw [hlm, run_eachA_append, run_eachA_cons]
  refine preserves_eachA (fun c _ => preserves_resetPage c k) _ ?_
  show (Eff.apply _ (.resetPages _ _)).reg k = _
  rw [reg_resetPages, if_pos]
  omega

/-! Memory. -/

/-- The memories that lose their contents. -/
def lostMemory (a : Nat) : Prop :=
  (0x20000000 ≤ a ∧ a < 0x20200000) ∨ (0x24000000 ≤ a ∧ a < 0x24080000) ∨ (0x30000000 ≤ a ∧ a < 0x30100000)

/-- The memories that keep their contents: flash and MRAM. -/
def keptMemory (a : Nat) : Prop := (0x08000000 ≤ a ∧ a < 0x08800000) ∨ (0x28000000 ≤ a ∧ a < 0x28040000)

theorem byte_wipeMemory (lo hi a : Nat) (s : State) :
    (Act.run (wipeMemory lo hi) s).byte a = if lo ≤ a ∧ a < hi then (resetByte a).toNat else s.byte a :=
  wipe_mem s lo hi a

theorem resetByte_of_lost {a : Nat} (h : lostMemory a) : resetByte a = 0 := by
  unfold lostMemory at h
  unfold resetByte
  rw [if_neg (by omega), if_neg (by omega)]

theorem preserves_wipeMemory_zero {a : Nat} (h : lostMemory a) (lo hi : Nat) :
    Preserves (fun t => t.byte a = 0) (wipeMemory lo hi) := fun s hs => by
  show (Act.run (wipeMemory lo hi) s).byte a = 0
  rw [byte_wipeMemory, resetByte_of_lost h, hs]
  exact ite_self 0

theorem establishes_wipeMemory_zero {a lo hi : Nat} (h : lostMemory a) (ha : lo ≤ a ∧ a < hi) :
    Establishes (fun t => t.byte a = 0) (wipeMemory lo hi) := fun s => by
  show (Act.run (wipeMemory lo hi) s).byte a = 0
  rw [byte_wipeMemory, if_pos ha, resetByte_of_lost h]
  rfl

theorem fixes_wipeMemory_byte {a lo hi : Nat} (ha : ¬(lo ≤ a ∧ a < hi)) :
    Fixes (fun t => t.byte a) (wipeMemory lo hi) := fun s => by
  show (Act.run (wipeMemory lo hi) s).byte a = _
  rw [byte_wipeMemory, if_neg ha]

theorem fixes_resetPages {α : Type} {φ : State → α} (h : ∀ s lo hi, φ (Eff.apply s (.resetPages lo hi)) = φ s)
    (l : List Nat) : Fixes φ (eachA l resetPage) := fixes_eachA fun _ s => h s _ _

/-! Everything is lost (R27). -/

/-- Fields that an action keeps take their values again after it. -/
theorem run_keeping (fs : List Fld) (a : Act) (s : State) :
    Act.run (keeping fs a) s = Act.run (eachA fs fun f => put f (s.get f)) (Act.run a s) := by
  rw [keeping, run_look, run_chain_cons, run_chain_cons, run_chain_nil]

theorem run_loseAll (fs : List Fld) (s : State) :
    Act.run (loseAll fs) s = Act.run (eachA fs fun f => put f (s.get f)) (Act.run (loseAll []) s) := by
  simp only [loseAll, run_keeping, run_eachA_nil]

/-- NVM's registers go to their reset values, and its block goes off. -/
theorem preserves_nvmOff (hb : ∀ f, Preserves P (onFlc f)) (hr : ∀ c, Preserves P (resetPage c)) : Preserves P nvmOff :=
  preserves_cons (hb _) (preserves_cons (fun s h => by
    rw [registersOff, run_keeping]
    exact preserves_eachA (fun c _ => hr c) _ h) preserves_nil)

/-- An action that keeps no field is the action. -/
theorem establishes_keeping_nil (h : Establishes P a) : Establishes P (keeping [] a) := fun s => by
  rw [run_keeping]
  exact h s

theorem fixes_keeping_nil {α : Type} {φ : State → α} (h : Fixes φ a) : Fixes φ (keeping [] a) := fun s => by
  rw [run_keeping]
  exact h s

theorem lost_reg {k : Nat} (h : inPages (keyAddr k)) : Establishes (fun t => t.reg k = resetWord k) (loseAll []) := by
  unfold loseAll
  refine establishes_keeping_nil (establishes_head (establishes_resetAll h) ?_)
  iterate 5 refine preserves_cons (fun _ h => h) ?_
  refine preserves_cons (preserves_nvmOff (fun _ _ h => h) fun c => preserves_resetPage c k) ?_
  iterate 31 refine preserves_cons (fun _ h => h) ?_
  exact preserves_nil

/-- SRAM, the Bobbin and the frame memory are wiped one after the other. -/
theorem establishes_wipes {a : Nat} (h : lostMemory a) (hl : Preserves (fun t => t.byte a = 0) (chain l)) :
    Establishes (fun t => t.byte a = 0) (chain (wipeMemory Base.sram 0x20200000 :: wipeMemory Base.bobbin 0x24080000 ::
      wipeMemory Base.fram 0x30100000 :: l)) := by
  have hw := preserves_wipeMemory_zero h
  rcases h with ha | ha | ha
  · exact establishes_head (establishes_wipeMemory_zero (.inl ha) ha)
      (preserves_cons (hw _ _) (preserves_cons (hw _ _) hl))
  · exact establishes_tail (establishes_head (establishes_wipeMemory_zero (.inr (.inl ha)) ha) (preserves_cons (hw _ _) hl))
  · exact establishes_tail (establishes_tail (establishes_head (establishes_wipeMemory_zero (.inr (.inr ha)) ha) hl))

theorem lost_byte {a : Nat} (h : lostMemory a) : Establishes (fun t => t.byte a = 0) (loseAll []) := by
  unfold loseAll
  refine establishes_keeping_nil (establishes_tail (establishes_tail (establishes_wipes h ?_)))
  refine preserves_cons (fun _ h => h) (preserves_cons (preserves_nvmOff (fun _ _ h => h) fun _ _ h => h) ?_)
  iterate 31 refine preserves_cons (fun _ h => h) ?_
  exact preserves_nil

theorem fixes_loseAll_byte {a : Nat} (h : keptMemory a) : Fixes (fun t => t.byte a) (loseAll []) := by
  unfold keptMemory at h
  unfold loseAll
  refine fixes_keeping_nil (fixes_cons (fixes_resetPages (fun _ _ _ => rfl) _) (fixes_cons (fun _ => rfl) ?_))
  refine fixes_cons (fixes_wipeMemory_byte (by unfold Base.sram; omega)) (fixes_cons (fixes_wipeMemory_byte (by unfold Base.bobbin; omega)) (fixes_cons (fixes_wipeMemory_byte (by unfold Base.fram; omega)) ?_))
  iterate 33 refine fixes_cons (fun _ => rfl) ?_
  exact fixes_nil

theorem lost_pat : Establishes (fun t => t.pat = []) (loseAll []) := by
  unfold loseAll
  refine establishes_keeping_nil ?_
  iterate 5 refine establishes_tail ?_
  refine establishes_head (fun _ => rfl) (preserves_cons (preserves_nvmOff (fun _ _ h => h) fun _ _ h => h) ?_)
  iterate 31 refine preserves_cons (fun _ h => h) ?_
  exact preserves_nil

theorem lost_cores : Establishes (fun t => t.dn = { cores := [{ runs := false }, DnCore.reset 1] }) (loseAll []) := by
  unfold loseAll
  refine establishes_keeping_nil ?_
  iterate 31 refine establishes_tail ?_
  refine establishes_head (fun _ => rfl) ?_
  iterate 6 refine preserves_cons (fun _ h => h) ?_
  exact preserves_nil

/-! A device reset (R27, R620). -/

/-- What a device reset leaves of registers, memory, the Pattern RAM and the cores. -/
def Lost (s t : State) : Prop :=
  (∀ k, inPages (keyAddr k) → addrPage (keyAddr k) ≠ 0x01 → t.reg k = resetWord k) ∧
  (∀ a, lostMemory a → t.byte a = 0) ∧ (∀ a, keptMemory a → t.byte a = s.byte a) ∧ t.pat = [] ∧
  t.dn = { cores := [{ runs := false }, DnCore.reset 1] }

theorem lost_loseAll_nil (s : State) : Lost s (Act.run (loseAll []) s) :=
  ⟨fun _ h _ => lost_reg h s, fun _ h => lost_byte h s, fun _ h => fixes_loseAll_byte h s, lost_pat s, lost_cores s⟩

/-- A field of the power controller's page is no other page's. -/
theorem preserves_put_lost {s : State} {f : Fld} (h : addrPage (keyAddr f.key) = 0x01) (v : Nat) :
    Preserves (Lost s) (put f v) := fun t ⟨hr, hrest⟩ => by
  refine ⟨fun k hk hp => ?_, hrest⟩
  rw [run_put, put_reg_ne _ _ _ _ fun he => hp (by rw [he, h])]
  exact hr k hk hp

theorem lost_loseAll {fs : List Fld} (h : ∀ f ∈ fs, addrPage (keyAddr f.key) = 0x01) (s : State) :
    Lost s (Act.run (loseAll fs) s) := by
  rw [run_loseAll]
  exact preserves_eachA (fun f hf => preserves_put_lost (h f hf) _) _ (lost_loseAll_nil s)

/-- The fields that a device reset keeps. -/
def keptInReset (s : State) : List Fld :=
  if s.mode = 4 then keptInOff else [PWR.RTCSEC.SEC, PWR.STAT.RTCLOST, PWR.STAT.ONBAK]

theorem keptInReset_page (s : State) : ∀ f ∈ keptInReset s, addrPage (keyAddr f.key) = 0x01 := by
  unfold keptInReset
  split <;> decide

/-- The power controller's state as a device reset starts. -/
def pwrInReset (s : State) (p : PwrSt) : PwrSt := { p with
  inReset := true
  cold := s.mode = 4 || (s.pwr.inReset && s.pwr.cold) }

theorem run_deviceReset (s : State) : Act.run deviceReset s =
    Act.run (chain [put PWR.STAT.DOMON 1, onPwr (pwrInReset s)]) (Act.run (loseAll (keptInReset s))
      (Act.run (onClk fun c => { c with external := s.is CLK.CTRL.XOSRC }) s)) := by
  rw [deviceReset, run_look, run_chain_cons, run_chain_cons]
  rfl

/-- AON's power domain alone is on, and the reset is under way. -/
theorem inReset_of_lost {s t : State} (h : Lost s t) (f : PwrSt → PwrSt) (hf : ∀ p, (f p).inReset = true) :
    InReset s (Act.run (chain [put PWR.STAT.DOMON 1, onPwr f]) t) := by
  rw [run_chain_cons, run_chain_cons, run_chain_nil, run_onPwr]
  obtain ⟨hreg, hzero, hkept, hpat, hdn⟩ := preserves_put_lost (s := s) (f := PWR.STAT.DOMON) (by decide) 1 t h
  refine ⟨fun k h1 h2 => hreg k ⟨h1, h2⟩, hzero, hkept, hpat, hf _, ?_, ?_, ?_⟩
  · rw [pwr_get, run_put, put_get_same _ _ _ (by decide)]
    rfl
  · rw [State.core, pwr_dn, hdn]; rfl
  · rw [State.core, pwr_dn, hdn]; rfl

theorem deviceReset_inReset (s : State) : InReset s (Act.run deviceReset s) := by
  rw [run_deviceReset]
  have hl := lost_loseAll (keptInReset_page s) (Act.run (onClk fun c => { c with external := s.is CLK.CTRL.XOSRC }) s)
  exact inReset_of_lost hl _ fun _ => rfl

theorem deviceReset_cold {s : State} (h : s.mode = 4) : (Act.run deviceReset s).pwr.cold = true := by
  rw [run_deviceReset, run_chain_cons, run_chain_cons, run_chain_nil, run_onPwr]
  show (decide (s.mode = 4) || _) = true
  rw [decide_eq_true h, Bool.true_or]

/-- The first of the kept fields takes its value again, which no other one touches. -/
theorem loseAll_keeps {f : Fld} {fs : List Fld} (hf : f.lo + f.width ≤ 32)
    (h : ∀ g ∈ fs, g.lo + g.width ≤ 32 ∧ apart g f = true) : Keeps (loseAll (f :: fs)) f := fun s => by
  have hrest : Keeps (eachA fs fun g => put g (s.get g)) f :=
    keeps_chain (by simpa using fun g hg => keeps_put _ (h g hg).1 (h g hg).2)
  rw [run_loseAll, run_eachA_cons, hrest, run_put, put_get_same _ _ _ hf, Nat.mod_eq_of_lt (get_lt s f)]

theorem keptInReset_keeps (s : State) : Keeps (loseAll (keptInReset s)) PWR.RTCSEC.SEC := by
  unfold keptInReset
  split <;> exact loseAll_keeps (by decide) (by decide)

/-- The RTC counts on through a device reset (R469). -/
theorem deviceReset_rtcsec (s : State) : (Act.run deviceReset s).get PWR.RTCSEC.SEC = s.get PWR.RTCSEC.SEC := by
  rw [run_deviceReset, run_chain_cons, run_chain_cons, run_chain_nil, run_onPwr, pwr_get, run_put,
    put_get_apart _ _ _ _ (by decide) (by decide), keptInReset_keeps, run_onClk, clk_get]

end Sys2Proof.Proofs
end

section
/-! The device resets' commands (R27, R385, R469, R470, R592, R605, R609, R619 to R621). -/

namespace Sys2Proof.Proofs

open Sys2Proof.Machine Sys2Proof.Laws

/-- What a reset has left stays where only the power controller's hidden state changes, and the reset goes on. -/
theorem inReset_onPwr {s t : State} (h : InReset s t) (f : PwrSt → PwrSt) (hf : (f t.pwr).inReset = true) :
    InReset s (Act.run (onPwr f) t) := by
  obtain ⟨hreg, hzero, hkept, hpat, -, hd, h0, h1⟩ := h
  exact ⟨hreg, hzero, hkept, hpat, hf, hd, h0, h1⟩

/-- A write to the power controller's page that spares DOMON leaves a reset under way. -/
theorem inReset_put {s t : State} (h : InReset s t) {f : Fld} (v : Nat) (hp : addrPage (keyAddr f.key) = 0x01)
    (hl : f.lo + f.width ≤ 32) (hd : apart f PWR.STAT.DOMON = true) : InReset s (Act.run (put f v) t) := by
  obtain ⟨hreg, hzero, hkept, hpat, hr, hdom, h0, h1⟩ := h
  refine ⟨fun k hlo hhi hk => ?_, hzero, hkept, hpat, hr, ?_, h0, h1⟩
  · rw [run_put, put_reg_ne _ _ _ _ fun he => hk (by rw [he, hp])]
    exact hreg k hlo hhi hk
  · rw [run_put, put_get_apart _ _ _ _ hl hd, hdom]

/-- Time passing to a due moment is no part of what a reset leaves. -/
theorem inReset_until {s u : State} (n : Nat) (h : InReset (Act.run (until_ n) s) u) : InReset s u := by
  obtain ⟨hreg, hzero, hkept, hrest⟩ := h
  refine ⟨hreg, hzero, fun a ha => ?_, hrest⟩
  rw [hkept a ha]
  exact fixes_until (φ := fun t => t.byte a) (fun _ _ => rfl) n s

theorem brownOut_resets (s : State) : Completes .brownOut s fun t => InReset s t ∧ t.pwr.pgood = false := by
  refine completes_of_run _ rfl ?_
  rw [run_chain_cons, run_chain_cons, run_chain_nil]
  have h := deviceReset_inReset s
  generalize Act.run deviceReset s = t at h ⊢
  obtain ⟨-, -, -, -, hr, -⟩ := id h
  exact ⟨inReset_onPwr h _ hr, rfl⟩

/-- A power-on reset keeps nothing, not even the RTC's count (R469). -/
theorem powerOnReset_resets (s : State) :
    Completes .powerOnResetEngage s fun t => InReset s t ∧ t.pwr.cold = true ∧ t.get PWR.RTCSEC.SEC = 0 := by
  refine completes_of_run _ rfl ?_
  have hl := lost_loseAll_nil s
  have hsec : (Act.run (loseAll []) s).get PWR.RTCSEC.SEC = 0 := by
    rw [State.get, lost_reg (k := PWR.RTCSEC.SEC.key) (by unfold inPages; decide)]
    decide
  rw [run_chain_cons]
  generalize Act.run (loseAll []) s = t at hl hsec ⊢
  rw [run_chain_cons, run_chain_cons]
  replace hl : Lost s (Act.run (onThm fun _ => {}) (Act.run (onClk fun _ => {}) t)) := hl
  refine ⟨inReset_of_lost hl _ fun _ => rfl, ?_, ?_⟩
  · rw [run_chain_cons, run_chain_cons, run_chain_nil, run_onPwr]
    rfl
  · rw [run_chain_cons, run_chain_cons, run_chain_nil, run_onPwr, pwr_get, run_put,
      put_get_apart _ _ _ _ (by decide) (by decide), run_onThm, thm_get, run_onClk, clk_get, hsec]

theorem aonPowerOn_selects {s : State} (h : s.pwr.inReset = true) (b low : Bool) :
    Completes (.aonPowerOn b low) s fun t => t.is PWR.STAT.ONBAK = b ∧ t.pwr.lowVio = low ∧ SameStore s t := by
  refine completes_of_run _ rfl ?_
  rw [run_look, h, whenA_true, run_chain_cons, run_chain_cons, run_chain_nil, run_onPwr]
  refine ⟨?_, rfl, rfl, rfl⟩
  rw [pwr_is, run_put, put_is_same _ _ _ rfl (by decide)]
  cases b <;> rfl

theorem vinRiseInOff_resets {s : State} (h : s.mode = 4) :
    Completes .vinRiseInOff s fun t => InReset s t ∧ t.is PWR.STAT.ONBAK = false ∧ t.pwr.cold = true := by
  refine completes_of_run _ rfl ?_
  rw [run_look, h, show ((4 : Nat) == 4) = true from rfl, whenA_true, run_chain_cons, run_chain_cons, run_chain_nil]
  refine ⟨inReset_put (deviceReset_inReset s) 0 (by decide) (by decide) (by decide), ?_, ?_⟩
  · rw [run_put, put_is_same _ _ _ rfl (by decide)]; rfl
  · rw [run_put, put_pwr, deviceReset_cold h]

theorem activateReset_resets {s : State} {n : Nat} (h : s.upd.resetAt = some n) :
    Completes .activateReset s (InReset s) := by
  refine completes_of_run _ rfl ?_
  rw [run_look, h]
  dsimp only
  rw [run_chain_cons, run_chain_cons, run_chain_nil]
  exact inReset_until n (deviceReset_inReset _)

/-- The end of the sequence starts DN0 at the address in boot ROM word 0, with DN1 held in reset (R385, R620). -/
def Started (t : State) : Prop :=
  t.core 0 = { DnCore.reset 0 with pc := t.word 0 } ∧ t.core 1 = DnCore.reset 1 ∧ t.upd.due = some true

theorem startCores_starts : Establishes Started (startCores true) := fun s => by
  rw [startCores, run_look, run_chain_cons, run_chain_cons, run_chain_nil]
  exact ⟨rfl, rfl, rfl⟩

theorem deviceResetEnd_starts {s : State} (h : s.pwr.inReset = true) (b0 b1 m : Bool) :
    Completes (.deviceResetEnd b0 b1 m) s Started := by
  refine completes_of_run _ rfl ?_
  rw [run_look, h, whenA_true, deviceResetEnd, run_look]
  refine (show Establishes Started _ from ?_) s
  iterate 19 refine establishes_tail ?_
  exact establishes_head startCores_starts preserves_nil

theorem deviceResetHold : DeviceResetHold := fun s =>
  ⟨completes_of_run _ rfl ⟨deviceReset_inReset s, deviceReset_rtcsec s⟩, brownOut_resets s, powerOnReset_resets s,
    aonPowerOn_selects, vinRiseInOff_resets, fun _ => activateReset_resets, deviceResetEnd_starts⟩

end Sys2Proof.Proofs
end

section
/-! The supply, the RTC and the wake sources (R469, R475, R478, R480, R514). -/

namespace Sys2Proof.Proofs

open Sys2Proof.Machine Sys2Proof.Laws

/-! What a wake touches: a few fields of the power controller, its hidden state and STICKY.WAKE. -/

/-- The fields that a wake and a request for a mode write. -/
def wakeFields : List Fld :=
  [PWR.STAT.MODE, PWR.STAT.BUSY, PWR.WAKETB.TB, PWR.MODEREQ.TARGET, PWR.MODEREQ.PEND, PWR.STICKY.WAKE]

/-- The fields that show a wake source. -/
def sourceFields (src : Nat) : List Fld := [PWR.WAKESRC.SRC.bit src, PWR.WAKESRC.V, PWR.WAKESRC.FROM]

/-- A part of the state that a wake leaves alone. -/
structure WakeBlind {α : Type} (φ : State → α) : Prop where
  put : ∀ f ∈ wakeFields, ∀ v, Fixes φ (put f v)
  pwr : ∀ f, Fixes φ (onPwr f)
  sticky : ∀ at_, Fixes φ (stickAt at_ PWR.STICKY.WAKE 0 0)

section
variable {α : Type} {φ : State → α} (h : WakeBlind φ)
include h

theorem fixes_startRestore (m : Nat) : Fixes φ (startRestore m) :=
  fixes_look fun _ => fixes_cons (h.pwr _)
    (fixes_cons (fixes_ite (h.put _ (by simp [wakeFields]) _) (h.put _ (by simp [wakeFields]) _)) fixes_nil)

theorem fixes_wakeTo (m : Nat) : Fixes φ (wakeTo m) :=
  fixes_look fun _ => fixes_ite (h.pwr _)
    (fixes_ite (fixes_look fun _ => fixes_ite (h.pwr _) fixes_skip) (fixes_startRestore h m))

theorem fixes_requestMode (m : Nat) : Fixes φ (requestMode m) :=
  fixes_look fun _ => fixes_cons (fixes_whenA (fixes_wakeTo h m)) (fixes_cons (fixes_ite
    (fixes_cons (h.put _ (by simp [wakeFields]) _) (fixes_cons (h.put _ (by simp [wakeFields]) _)
      (fixes_cons (h.pwr _) fixes_nil)))
    (h.put _ (by simp [wakeFields]) _)) fixes_nil)

/-- A request for NARROW. -/
theorem fixes_requestNarrow : Fixes φ (writeModereq 1) :=
  fixes_look fun _ => fixes_cons (h.put _ (by simp [wakeFields]) _)
    (fixes_cons (fixes_ite (h.put _ (by simp [wakeFields]) _) (fixes_requestMode h _)) fixes_nil)

/-- The wake itself: its stamp, STICKY.WAKE and the start of the restore. -/
theorem fixes_wake (t m : Nat) :
    Fixes φ (chain [put PWR.WAKETB.TB t, stickAt t PWR.STICKY.WAKE 0 0, wakeTo m]) :=
  fixes_cons (h.put _ (by simp [wakeFields]) _) (fixes_cons (h.sticky _) (fixes_cons (fixes_wakeTo h m) fixes_nil))

/-- A wake source beside what shows it. -/
theorem fixes_wakeSource {src : Nat} (hs : ∀ f ∈ sourceFields src, ∀ v, Fixes φ (put f v)) (m k : Nat) :
    Fixes φ (wakeSource src m k) :=
  fixes_look fun _ => fixes_cons (hs _ (by simp [sourceFields]) _) (fixes_cons (hs _ (by simp [sourceFields]) _)
    (fixes_cons (hs _ (by simp [sourceFields]) _) (fixes_cons (fixes_whenA (fixes_wake h _ _)) fixes_nil)))

/-- The alarm beside what shows it and the producer's pulse. -/
theorem fixes_rtcAlarm (hs : ∀ f ∈ sourceFields 3, ∀ v, Fixes φ (put f v)) (hp : ∀ p n, Fixes φ (pulseAon p n)) (k : Nat) :
    Fixes φ (rtcAlarm k) :=
  fixes_look fun _ => fixes_whenA (fixes_cons (h.pwr _) (fixes_cons (hp _ _) (fixes_cons (fixes_wakeSource h hs _ _)
    fixes_nil)))

end

theorem wakeBlind_store : WakeBlind store := ⟨fun _ _ _ _ => rfl, fun _ _ => rfl, fun _ => fixes_stickAt _ _ _ _ fun _ _ _ _ => rfl⟩

theorem wakeBlind_stm : WakeBlind State.stm := ⟨fun _ _ _ _ => rfl, fun _ _ => rfl, fun _ => fixes_stickAt _ _ _ _ fun _ _ _ _ => rfl⟩

/-- The seconds of operation that the recorder has counted. -/
def opsec (s : State) : Nat := s.recd.opsec

/-- A sticky bit's rise may fire recorder definitions, and counts no operation. -/
theorem fixes_stickAt_opsec (at_ : Nat) (f : Fld) (inst info : Nat) : Fixes opsec (stickAt at_ f inst info) :=
  fun s => by
    cases hs : s.is f with
    | true => rw [run_stickAt_of_set hs]
    | false =>
      obtain ⟨l, h⟩ := run_stickRise_eq at_ f inst info s
      rw [run_stickAt_of_clear hs, h]
      show (risen at_ f inst info s).recd.opsec = s.recd.opsec
      rw [risen_recd]

theorem wakeBlind_opsec : WakeBlind opsec :=
  ⟨fun _ _ _ _ => rfl, fun _ _ => rfl, fun _ => fixes_stickAt_opsec _ _ _ _⟩

theorem keeps_stickAt {f g : Fld} (at_ inst info : Nat) (hl : f.lo + f.width ≤ 32) (hd : apart f g = true) :
    Keeps (stickAt at_ f inst info) g :=
  fixes_stickAt (φ := (·.get g)) at_ f inst info fun s v _ _ => put_get_apart s f g v hl hd

theorem wakeFields_fit : ∀ f ∈ wakeFields, f.lo + f.width ≤ 32 := by decide

/-- A field that is none of those that a wake writes. -/
theorem wakeBlind_get {g : Fld} (h : ∀ f ∈ wakeFields, apart f g = true) : WakeBlind (·.get g) :=
  ⟨fun f hf v => keeps_put v (wakeFields_fit f hf) (h f hf), fun _ _ => rfl,
    fun _ => keeps_stickAt _ 0 0 (by decide) (h PWR.STICKY.WAKE (by simp [wakeFields]))⟩

/-! Wake sources. -/

theorem keeps_sourceFields {src : Nat} {g : Fld} (h : ∀ f ∈ sourceFields src, f.lo + f.width ≤ 32 ∧ apart f g = true) :
    ∀ f ∈ sourceFields src, ∀ v, Keeps (put f v) g := fun f hf v => keeps_put v (h f hf).1 (h f hf).2

/-- A source's bit of WAKESRC shares nothing with its other fields, nor with what a wake writes. -/
theorem wakeSrc_apart : ∀ src < 8, apart PWR.WAKESRC.V (PWR.WAKESRC.SRC.bit src) = true ∧
    apart PWR.WAKESRC.FROM (PWR.WAKESRC.SRC.bit src) = true ∧ (PWR.WAKESRC.SRC.bit src).lo < 32 ∧
    ∀ f ∈ wakeFields, apart f (PWR.WAKESRC.SRC.bit src) = true := by decide

theorem mode_lt (s : State) : s.mode < 2 ^ PWR.WAKESRC.FROM.width := get_lt s PWR.STAT.MODE

/-- A source that fires shows in WAKESRC with the mode it came in (R475). -/
theorem wakeSource_shows {src : Nat} (h : src < 8) (m k : Nat) (s : State) :
    (Act.run (wakeSource src m k) s).is (PWR.WAKESRC.SRC.bit src) = true ∧
      (Act.run (wakeSource src m k) s).is PWR.WAKESRC.V = true ∧
      (Act.run (wakeSource src m k) s).get PWR.WAKESRC.FROM = s.mode := by
  obtain ⟨hv, hf, hl, hw⟩ := wakeSrc_apart src h
  have hwake : ∀ {g : Fld}, (∀ f ∈ wakeFields, apart f g = true) → ∀ c t, Keeps (whenA c (chain
      [put PWR.WAKETB.TB t, stickAt t PWR.STICKY.WAKE 0 0, wakeTo m])) g :=
    fun hg c t => fixes_whenA (fixes_wake (wakeBlind_get hg) t m)
  rw [wakeSource, run_look, run_chain_cons, run_chain_cons, run_chain_cons, run_chain_cons, run_chain_nil]
  refine ⟨?_, ?_, ?_⟩
  · rw [State.is, hwake hw, ← State.is, run_put, run_put, run_put, put_is_apart _ _ (by decide) hf,
      put_is_apart _ _ (by decide) hv, put_is_same _ _ _ rfl hl]
    rfl
  · rw [State.is, hwake (by decide), ← State.is, run_put, run_put, put_is_apart _ _ (by decide) (by decide),
      put_is_same _ _ _ rfl (by decide)]
    rfl
  · rw [hwake (by decide), run_put, put_get_same _ _ _ (by decide), Nat.mod_eq_of_lt (mode_lt s)]

/-- A source is shown in WAKESRC and stores nothing. -/
theorem wakeSource_sameStore (src m k : Nat) : Fixes store (wakeSource src m k) :=
  fixes_wakeSource wakeBlind_store (fun _ _ _ _ => rfl) m k

theorem wakeSource_stm (src m k : Nat) : Fixes State.stm (wakeSource src m k) :=
  fixes_wakeSource wakeBlind_stm (fun _ _ _ _ => rfl) m k

theorem stampNow_of_clk {s t : State} (h : t.clk = s.clk) (k : Nat) : t.stampNow k = s.stampNow k := by
  rw [State.stampNow, State.stampNow, h]

/-- A producer's pulse carries its stamp. -/
theorem pulseAon_mem (p k : Nat) (s : State) : (p, s.stampNow k) ∈ (Act.run (pulseAon p k) s).stm.pulses := by
  rw [pulseAon, run_look, run_onStm, stm_stm]
  exact List.mem_append_right _ List.mem_cons_self

/-! The events. -/

/-- The RTC counts on where the device is not OFF (R469, R544). -/
theorem rtcSecond_counts {s : State} (k : Nat) (hk : s.thm.k32ok = true) (hm : s.mode ≠ 4) :
    Completes (.rtcSecond k) s fun t => t.get PWR.RTCSEC.SEC = (s.get PWR.RTCSEC.SEC + 1) % 2 ^ 32 ∧
      t.recd.opsec = (s.recd.opsec + 1) % 2 ^ 32 ∧ SameStore s t := by
  refine completes_of_run _ rfl ?_
  have hoff : (s.mode != 4) = true := by simpa using hm
  have hon : ¬(s.mode == 4) = true := by simpa using hm
  rw [run_look, hk, whenA_true, rtcSecond, run_look, run_chain_cons, run_chain_cons, run_chain_cons, run_chain_cons,
    run_chain_cons, run_chain_nil, hoff, whenA_true, if_neg hon]
  refine ⟨?_, ?_, ?_⟩
  · have halarm : Keeps (rtcAlarm k) PWR.RTCSEC.SEC :=
      fixes_rtcAlarm (wakeBlind_get (by decide)) (keeps_sourceFields (by decide)) (fun _ _ _ => rfl) k
    rw [halarm, keeps_whenA (keeps_onGau _ _), run_onRecd, recd_get, run_onPwr, pwr_get, run_put,
      put_get_same _ _ _ (by decide)]
    rfl
  · have hgau : ∀ c f, Fixes opsec (whenA c (onGau f)) := fun c f => fixes_whenA fun _ => rfl
    rw [← opsec, fixes_rtcAlarm wakeBlind_opsec (fun _ _ _ _ => rfl) (fun _ _ _ => rfl) k, hgau,
      opsec, run_onRecd, recd_recd, run_onPwr, pwr_recd, run_put, put_recd]
  · have hgau : ∀ c f, Fixes store (whenA c (onGau f)) := fun c f => fixes_whenA fun _ => rfl
    refine sameStore_iff.mpr ?_
    rw [fixes_rtcAlarm wakeBlind_store (fun _ _ _ _ => rfl) (fun _ _ _ => rfl) k, hgau]
    rfl

/-- WAKEN shows as source 2 and through producer 90 (R475). -/
theorem wakenLow_wakes {s : State} (k : Nat) (hm : s.mode ≠ 4) (hr : s.pwr.inReset = false) :
    Completes (.wakenLow k) s fun t => (90, s.stampNow k) ∈ t.stm.pulses ∧ t.is (PWR.WAKESRC.SRC.bit 2) = true ∧
      t.is PWR.WAKESRC.V = true ∧ t.get PWR.WAKESRC.FROM = s.mode ∧ SameStore s t := by
  refine completes_of_run _ rfl ?_
  have hon : ¬(s.mode == 4) = true := by simpa using hm
  rw [run_look, if_neg hon, hr, Bool.not_false, whenA_true, run_chain_cons, run_chain_cons, run_chain_nil]
  obtain ⟨hbit, hv, hfrom⟩ := wakeSource_shows (src := 2) (by decide) s.wakeMode k (Act.run (pulseAon 90 k) s)
  refine ⟨?_, hbit, hv, hfrom, sameStore_iff.mpr (wakeSource_sameStore _ _ _ _)⟩
  rw [wakeSource_stm]
  exact pulseAon_mem 90 k s

/-- A sticky bit's rise at a given moment. -/
theorem stickAt_is (at_ : Nat) (f : Fld) (inst info : Nat) (s : State) (hw : f.width = 1) (hl : f.lo < 32) :
    (Act.run (stickAt at_ f inst info) s).is f = true := by
  obtain ⟨b, c, h⟩ := run_stickAt at_ f inst info s
  rw [h]
  split
  · assumption
  · rw [recd_is, flt_is, put_is_same _ _ _ hw hl]
    rfl

theorem is_of_keeps {a : Act} {g : Fld} (h : Keeps a g) (s : State) : (Act.run a s).is g = s.is g := by
  rw [State.is, h, State.is]

/-- The change of supply: its status bit, its sticky bit and its producer's pulse. -/
theorem supplyChange {f : Fld} (p k v n : Nat) (s : State) (hw : f.width = 1) (hl : f.lo < 32)
    (ha : apart f PWR.STAT.ONBAK = true) :
    let t := Act.run (pulseAon p k) (Act.run (stickAt n f 0 0) (Act.run (put PWR.STAT.ONBAK v) s))
    t.is PWR.STAT.ONBAK = (v % 2 != 0) ∧ t.is f = true ∧ (p, s.stampNow k) ∈ t.stm.pulses ∧ SameStore s t := by
  have hclk : Fixes State.clk (stickAt n f 0 0) := fixes_stickAt _ _ _ _ fun _ _ _ _ => rfl
  have hstore : Fixes store (stickAt n f 0 0) := fixes_stickAt _ _ _ _ fun _ _ _ _ => rfl
  have hpulse : ∀ g, Keeps (pulseAon p k) g := fun _ _ => rfl
  refine ⟨?_, ?_, ?_, sameStore_iff.mpr ?_⟩
  · rw [is_of_keeps (hpulse _), is_of_keeps (keeps_stickAt n 0 0 (by omega) ha), run_put, put_is_same _ _ _ rfl (by decide)]
  · rw [is_of_keeps (hpulse _), stickAt_is _ _ _ _ _ hw hl]
  · have hstamp := stampNow_of_clk (s := s) (hclk (Act.run (put PWR.STAT.ONBAK v) s)) k
    rw [← hstamp]
    exact pulseAon_mem p k _
  · show store (Act.run (stickAt n f 0 0) _) = _
    rw [hstore]
    rfl

/-- VIN falls: the supply selector, OUTAGE and producer 92; AUTONARROW may ask for NARROW (R480). -/
theorem vinFall_shows {s : State} (k : Nat) (hb : s.is PWR.STAT.ONBAK = false) (hm : s.mode ≠ 4)
    (hr : s.pwr.inReset = false) : Completes (.vinFall k) s fun t => t.is PWR.STAT.ONBAK = true ∧
      t.is PWR.STICKY.OUTAGE = true ∧ (92, s.stampNow k) ∈ t.stm.pulses ∧ SameStore s t := by
  refine completes_of_run _ rfl ?_
  have hoff : (s.mode != 4) = true := by simpa using hm
  rw [vinFall, run_look, hb, Bool.not_false, whenA_true, hoff, hr, Bool.not_false, Bool.true_and, whenA_true, run_chain_cons,
    run_chain_cons, run_chain_nil, run_chain_cons, run_chain_cons, run_chain_cons, run_chain_nil]
  obtain ⟨hon, hsticky, hpulse, hstore⟩ := supplyChange (f := PWR.STICKY.OUTAGE) 92 k 1 _ s rfl (by decide) (by decide)
  generalize Act.run (pulseAon 92 k) _ = t at hon hsticky hpulse hstore ⊢
  have hnarrow : ∀ {α : Type} {φ : State → α}, WakeBlind φ → ∀ c, φ (Act.run (whenA c (writeModereq 1)) t) = φ t :=
    fun h c => fixes_whenA (fixes_requestNarrow h) t
  refine ⟨?_, ?_, ?_, ?_⟩
  · rw [is_of_keeps (keeps_whenA (fixes_requestNarrow (wakeBlind_get (by decide)))), hon]
    rfl
  · rw [is_of_keeps (keeps_whenA (fixes_requestNarrow (wakeBlind_get (by decide)))), hsticky]
  · rwa [hnarrow wakeBlind_stm]
  · rw [sameStore_iff] at hstore ⊢
    rw [hnarrow wakeBlind_store, hstore]

/-- VIN is back: the supply selector, VINBACK, producer 93 and wake source 4 (R475, R480). -/
theorem vinRestored_shows {s : State} (k : Nat) (hb : s.is PWR.STAT.ONBAK = true) (hm : s.mode ≠ 4)
    (hr : s.pwr.inReset = false) : Completes (.vinRestored k) s fun t => t.is PWR.STAT.ONBAK = false ∧
      t.is PWR.STICKY.VINBACK = true ∧ (93, s.stampNow k) ∈ t.stm.pulses ∧ t.is (PWR.WAKESRC.SRC.bit 4) = true ∧
      SameStore s t := by
  refine completes_of_run _ rfl ?_
  have hoff : (s.mode != 4) = true := by simpa using hm
  rw [vinRestored, run_look, hb, whenA_true, hoff, hr, Bool.not_false, Bool.true_and, whenA_true, run_chain_cons,
    run_chain_cons, run_chain_nil, run_chain_cons, run_chain_cons, run_chain_cons, run_chain_nil]
  obtain ⟨hon, hsticky, hpulse, hstore⟩ := supplyChange (f := PWR.STICKY.VINBACK) 93 k 0 _ s rfl (by decide) (by decide)
  generalize Act.run (pulseAon 93 k) _ = t at hon hsticky hpulse hstore ⊢
  refine ⟨?_, ?_, ?_, (wakeSource_shows (by decide) _ _ _).1, ?_⟩
  · rw [is_of_keeps (fixes_wakeSource (wakeBlind_get (by decide)) (keeps_sourceFields (by decide)) _ _), hon]
    rfl
  · rw [is_of_keeps (fixes_wakeSource (wakeBlind_get (by decide)) (keeps_sourceFields (by decide)) _ _), hsticky]
  · rwa [wakeSource_stm]
  · rw [sameStore_iff] at hstore ⊢
    rw [wakeSource_sameStore, hstore]

/-- OFF is entered with AON's domain alone on (R474). -/
theorem enterOff_off (s : State) : (Act.run enterOff s).mode = 4 ∧ (Act.run enterOff s).get PWR.STAT.DOMON = 1 := by
  rw [enterOff, run_chain_cons, run_chain_cons, run_chain_cons, run_chain_nil]
  refine ⟨?_, ?_⟩
  · rw [State.mode, run_put, put_get_same _ _ _ (by decide)]
    rfl
  · rw [run_put, put_get_apart _ _ _ _ (by decide) (by decide), run_put, put_get_same _ _ _ (by decide)]
    rfl

/-- A sequence toward OFF closes nothing where AON's domain alone is on, and OFF is entered at once. -/
theorem sequenceStart_off {s : State} (h : s.get PWR.STAT.DOMON = 1) :
    (Act.run (sequenceStart 4) s).mode = 4 ∧ (Act.run (sequenceStart 4) s).get PWR.STAT.DOMON = 1 := by
  have hnone : (domainsLess 1 (s.modeDomains 4 ||| 1) == 0) = true := by
    rw [show s.modeDomains 4 = 0 from rfl]
    decide
  rw [sequenceStart, run_look, h]
  dsimp only
  rw [if_pos hnone, if_pos (show ((4 : Nat) == 4) = true from rfl), run_chain_cons, run_chain_cons, run_chain_nil, run_chain_cons,
    run_chain_cons, run_chain_nil]
  exact enterOff_off _

/-- The backup cutoff enters OFF (R514). -/
theorem cutoff_off {s : State} (k : Nat) (hb : s.is PWR.STAT.ONBAK = true) (hm : s.mode ≠ 4) (hr : s.pwr.inReset = false)
    (hd : s.get PWR.STAT.DOMON = 1) : Completes (.cutoff k) s fun t => t.mode = 4 ∧ t.get PWR.STAT.DOMON = 1 := by
  refine completes_of_run _ rfl ?_
  have hoff : (s.mode != 4) = true := by simpa using hm
  rw [cutoff, run_look, hb, hoff, hr, Bool.not_false, Bool.true_and, Bool.true_and, whenA_true, run_chain_cons, run_chain_cons,
    run_chain_cons, run_chain_cons, run_chain_nil]
  refine sequenceStart_off ?_
  have hmeter : Keeps (whenA (s.domOn Dom.mtr) (chain [stick GAU.STICKY.CUTOFF,
      whenA (s.get GAU.SOC.VAL != 0) (stick GAU.STICKY.DISAGREE)])) PWR.STAT.DOMON :=
    keeps_whenA (keeps_cons (keeps_stick (by decide) (by decide))
      (keeps_cons (keeps_whenA (keeps_stick (by decide) (by decide))) (keeps_nil _)))
  have hpulse : Keeps (pulseAon 94 k) PWR.STAT.DOMON := fun _ => rfl
  rw [run_onPwr, pwr_get, hpulse, hmeter, hd]

theorem supplyAndWakeHold : SupplyAndWakeHold := fun _ k =>
  ⟨rtcSecond_counts k, vinFall_shows k, vinRestored_shows k, wakenLow_wakes k, cutoff_off k⟩

/-- Settles O45: the supply's events show and wake as their clauses say, and each reset loses all but what it keeps. -/
theorem supplyAndReset : Obligations.SupplyAndReset := ⟨supplyAndWakeHold, deviceResetHold⟩

end Sys2Proof.Proofs
end

section
/-! The canonical form of the stores (note 2): after reset, and through every step. -/

namespace Sys2Proof.Proofs

open Sys2Proof.Machine Sys2Proof.Laws

/-- Every command's meaning is an action. -/
theorem exec_isAct (c : Instr) (s : State) : ∃ a : Act, exec c s = act a s := by
  cases c <;> exact ⟨_, rfl⟩

/-- What a command leaves when it answers a next state. -/
theorem run_of_exec {c : Instr} {s t : State} {a : Act} (ha : exec c s = act a s) (h : exec c s = .next t) :
    t = Act.run a s := by
  rw [ha, act_next] at h
  exact (Host.Outcome.next.inj h).symm

/-- A command keeps the canonical form. -/
theorem exec_wf {c : Instr} {s t : State} (hs : s.wf = true) (h : exec c s = .next t) : t.wf = true := by
  obtain ⟨a, ha⟩ := exec_isAct c s
  rw [run_of_exec ha h]
  exact run_wf a s hs

/-- Settles O3: a step is `idle` or the front command's meaning, and every action keeps the form. -/
theorem stepKeepsCanonicalForm : Obligations.StepKeepsCanonicalForm := by
  intro s t hs h
  rw [step] at h
  cases hp : s.pending with
  | nil =>
    rw [hp] at h
    obtain rfl := Host.Outcome.next.inj h
    exact run_wf idle s hs
  | cons c rest =>
    rw [hp] at h
    exact exec_wf (s := { s with pending := rest }) hs h

/-- Settles O4: the reset state lists no byte, no register, no word of the Pattern RAM and no command. -/
theorem resetIsCanonical : Obligations.ResetIsCanonical := ⟨rfl, rfl⟩

end Sys2Proof.Proofs
end

section
/-! Accesses to a page whose domain is off or not yet restored (R41, R297, R300). -/

namespace Sys2Proof.Proofs

open Sys2Proof.Machine Sys2Proof.Laws

/-- The map turns away an access to a physical page whose domain cannot be reached. -/
theorem routePhys_pageOff {s : State} {p : Page} {off : Nat} (ho : off < 0x1000) (hoff : s.pageOn p off = false)
    (w : Bool) : s.routePhys (pageBase + p.code * 0x1000 + off) w = .domOff := by
  have hc := code_lt p
  obtain ⟨-, hp, hm⟩ := key_parts p.code off 0 hc ho
  rw [routePhys_page (p := p) (by unfold inPages pageBase; omega) (by rw [hp, ofCode_code]), hm, hoff]
  rfl

/-- The same in a window, whether or not MAC is reachable. -/
theorem routePhys_viewOff {s : State} {p : Page} {off v n : Nat} (ho : off < 0x1000) (hv : v < 16) (hn : n < 0x80)
    (hp : viewPage n = some p) (hoff : s.pageOn p off = false) (w : Bool) :
    s.routePhys (Base.window + v * 0x100000 + n * 0x1000 + off) w = .domOff := by
  set a := Base.window + v * 0x100000 + n * 0x1000 + off with ha
  unfold Base.window at ha
  have hview : inViews a := by unfold inViews Base.window; omega
  cases hm : s.reachable Dom.mac with
  | true =>
    rw [routePhys_view hview hm (p := p) (by rw [← hp]; congr 1; omega), show a % 0x1000 = off by omega]
    simp only [hoff, Bool.not_false, if_true]
  | false =>
    obtain ⟨hlo, hhi, -⟩ := hview
    unfold State.routePhys
    dsimp only
    rw [skip_regions (by unfold pageBase; omega), if_neg (by omega), if_pos ⟨hlo, hhi⟩, if_pos (by rw [hm]; rfl)]

/-- An initiator that its virtual interface lets reach the address is routed by the map (R300). -/
theorem route_of_reaches {s : State} {i : Initiator} {a : Nat} {w : Bool}
    (h : s.boundTo i = 0 ∨ s.boundReaches i (s.boundTo i) a w = true) : s.route i a w = s.routePhys a w := by
  unfold State.route
  dsimp only
  rcases h with h | h <;> rw [h] <;> simp

/-- What a page's sticky bit alone leaves of the power controller. -/
theorem refused_pwr {s : State} {i : Initiator} {a : Nat} {w : Option Word} {r : Route} {ps : List Nat}
    (h : Sticks ps (refusal i a r)) : (Act.run (refusal i a r) (answeredZero i w s)).pwr = s.pwr := by
  rw [(h _).same]
  cases w <;> rfl

/-- Outside its page a domain's bit is as it was. -/
theorem domOn_of_onlyPages {s t : State} {ps : List Nat} (h : OnlyPages s t ps) (hp : 0x01 ∉ ps) (d : Nat) :
    t.domOn d = s.domOn d := by
  have hk : t.reg PWR.STAT.DOMON.key = s.reg PWR.STAT.DOMON.key := h _ (by
    rwa [show addrPage (keyAddr PWR.STAT.DOMON.key) = 0x01 from rfl])
  unfold State.domOn State.is State.get
  rw [show (PWR.STAT.DOMON.bit d).key = PWR.STAT.DOMON.key from rfl, hk]

/-- Settles O8: either address routes to a domain that is off, which DOMOFF alone answers. -/
theorem domainOff : Obligations.DomainOff := by
  intro s i a w p off ho hoff hbound haddr
  have hr : s.route i (a.toNat / 4 * 4) w.isSome = .domOff := by
    rw [route_of_reaches hbound]
    rcases haddr with h | ⟨v, n, hv, hn, hp, h⟩
    · rw [h, routePhys_pageOff ho hoff]
    · rw [h, routePhys_viewOff ho hv hn hp hoff]
  have hr' : s.route i (a.toNat / 4 * 4 / 4 * 4) w.isSome = .domOff := by rw [Nat.mul_div_cancel _ (by decide), hr]
  refine completes_of_run (look fun _ => busAccess i (a.toNat / 4 * 4) 4 w) rfl ?_
  rw [run_look]
  obtain ⟨hset, hans, hpages, hstore⟩ := refused_sys (f := SYS.STICKY.DOMOFF) 4 hr' rfl rfl rfl (by decide) (by decide)
  refine ⟨hset, hans, hpages, hstore, ?_, domOn_of_onlyPages hpages (by decide)⟩
  rw [run_busAccess_refused 4 hr' rfl]
  exact refused_pwr (ps := [0x00]) (sticks_stick SYS.STICKY.DOMOFF (by decide))

end Sys2Proof.Proofs
end

section
/-! Two commands that touch more than their frames say: a Mover descriptor that a closed interface refuses is stamped in memory
(R300, R453), and a calibration's end abandons the lanes of a port that goes off (R69, R115). -/

namespace Sys2Proof.Proofs

open Sys2Proof.Machine Sys2Proof.Laws

/-- After device reset, with Mover channel 0 bound to VI 1, which is not open, and its descriptor at the start of SRAM. -/
def boundToClosed : State :=
  { State.reset with regs := [(VIF.MOVBIND.B.key, 1), (MOV.CDESC.ADDR.key, 0x20000000)] }

/-- What GO of that channel leaves. -/
def descriptorStamped : State :=
  Act.run (atRegister .debug 0 (MOV.CCTRL.GO.i 0) true (writeMovCtrl 0 (2 ^ 31))) boundToClosed

theorem exec_boundToClosed : exec (.moverGo .debug 0 0) boundToClosed = .next descriptorStamped := rfl

/-- The descriptor's status is stored: bit 23 and the code 0x0B. -/
theorem descriptorStamped_mem : descriptorStamped.mem = [(0x20000002, 0x80), (0x20000003, 0x0B)] := by decide +kernel

/-- Refutes O9: MOVER_GO of a channel whose interface is closed stores the status of the descriptor that the interface refuses. -/
theorem not_memoryUntouched : ¬ Obligations.MemoryUntouched := by
  intro h
  obtain ⟨hmem, -⟩ := h (.moverGo .debug 0 0) _ _ rfl exec_boundToClosed
  rw [descriptorStamped_mem] at hmem
  cases hmem

/-- After device reset, with lane 0 enabled and listening on port 0, which is disabled and shows CAL while its DC unit runs. -/
def calibratesDisabled : State :=
  { State.reset with
    regs := [(DMD.LCFG.EN.key, 0x80000000), (DMD.LSTAT.STATE.key, 0x80000000)]
    rfe := { cal := [{ ends := some 0 }] } }

/-- What the end of that unit leaves. -/
def calibratedDisabled : State := Act.run (chain [calComplete 0 [0], checkPort 0]) calibratesDisabled

theorem exec_calibratesDisabled : exec (.calUnitComplete 0 [0]) calibratesDisabled = .next calibratedDisabled := rfl

/-- The lane listened, and is off. -/
theorem lane_calibratedDisabled : addrPage (keyAddr DMD.LSTAT.STATE.key) = Page.DMD.code ∧
    calibratesDisabled.laneState 0 = 4 ∧ calibratedDisabled.laneState 0 = 0 := by decide +kernel

/-- Refutes O12: the end of a calibration unit of a disabled port puts the port's lanes off, in page DMD, while the statement
says that only the pages RFE and THM change. -/
theorem not_radioFrames : ¬ Obligations.RadioFrames := by
  intro h
  obtain ⟨⟨hregs, -, -, -⟩, -⟩ := h (.calUnitComplete 0 [0]) _ _ _ rfl exec_calibratesDisabled
  obtain ⟨hpage, hwas, hnow⟩ := lane_calibratedDisabled
  have hkept : calibratedDisabled.laneState 0 = calibratesDisabled.laneState 0 := by
    simp only [State.laneState, State.get]
    rw [show (DMD.LSTAT.STATE.i 0).key = DMD.LSTAT.STATE.key from rfl, hregs _ (by rw [hpage]; decide)]
  rw [hwas, hnow] at hkept
  cases hkept

end Sys2Proof.Proofs
end

section
/-! The effects that a frame permits, and the rules by which an action stays within them (R6, R40). The rules are tagged for
`fun_prop`, which follows a definition's combinators down to the operations that a rule of their own describes; therefore they
speak of `(a ·)`, an action written as a function. -/

namespace Sys2Proof.Proofs

open Sys2Proof.Machine Sys2Proof.Laws

/-- The page of a register field (R6), by the field's key alone: so it is found also where the field's place is not known. -/
def pageOf : Fld → Option Page
  | ⟨key, _, _, _⟩ => Page.ofCode (addrPage (keyAddr key))

theorem pageOf_eq (f : Fld) : pageOf f = Page.ofCode (addrPage (keyAddr f.key)) := rfl

/-- Whether a page is one of some pages. -/
def permits (ps : List Page) : Option Page → Bool
  | some p => ps.contains p
  | none => false

/-- Whether a frame permits an effect: a field of one of its pages, or the hidden state of a block, but for the keys, the OTP and,
where `cores` does not permit them, the cores. -/
def inFrame (cores : Bool) (ps : List Page) : Eff → Prop
  | .put f _ => permits ps (pageOf f) = true
  | .byte .. | .wipe .. | .pat .. | .wipePat | .resetKeys .. | .resetPages .. | .key _ | .otp _ => False
  | .dn _ => cores = true
  | _ => True

/-- An action all of whose effects a frame permits. -/
@[fun_prop]
def Within (cores : Bool) (ps : List Page) (a : State → List Eff) : Prop := ∀ s, ∀ e ∈ a s, inFrame cores ps e

/-! What a permitted effect, and an action within a frame, leave alone. -/

/-- The parts of the state outside a frame. -/
structure Outside (cores : Bool) (s t : State) (ps : List Page) : Prop where
  regs : ∀ k, (∀ p ∈ ps, addrPage (keyAddr k) ≠ p.code) → t.reg k = s.reg k
  mem  : t.mem = s.mem
  pat  : t.pat = s.pat
  key  : t.key = s.key
  otp  : t.otp = s.otp
  dn   : cores = false → t.dn = s.dn

variable {d : Bool} {ps : List Page}

theorem Outside.refl (s : State) : Outside d s s ps := ⟨fun _ _ => rfl, rfl, rfl, rfl, rfl, fun _ => rfl⟩

theorem Outside.trans {s t u : State} (h₁ : Outside d s t ps) (h₂ : Outside d t u ps) : Outside d s u ps :=
  ⟨fun k hk => (h₂.regs k hk).trans (h₁.regs k hk), h₂.mem.trans h₁.mem, h₂.pat.trans h₁.pat, h₂.key.trans h₁.key,
    h₂.otp.trans h₁.otp, fun hd => (h₂.dn hd).trans (h₁.dn hd)⟩

theorem permits_iff {o : Option Page} : permits ps o = true ↔ ∃ p ∈ ps, o = some p := by
  cases o with
  | none => simp [permits]
  | some q => simp [permits]

theorem outside_apply {e : Eff} (h : inFrame d ps e) (s : State) : Outside d s (e.apply s) ps := by
  cases e with
  | put f v =>
    obtain ⟨p, hp, hc⟩ := permits_iff.mp h
    exact ⟨fun k hk => put_reg_ne s f v k fun he => hk p hp (by rw [he, code_of_ofCode hc]), rfl, rfl, rfl, rfl, fun _ => rfl⟩
  | dn b => exact ⟨fun _ _ => rfl, rfl, rfl, rfl, rfl, fun hd => by rw [show d = true from h] at hd; cases hd⟩
  | byte | wipe | pat | wipePat | resetKeys | resetPages | key | otp => exact h.elim
  | _ => exact ⟨fun _ _ => rfl, rfl, rfl, rfl, rfl, fun _ => rfl⟩

theorem Within.outside {a : Act} (h : Within d ps (a ·)) (s : State) : Outside d s (Act.run a s) ps := by
  have hall : ∀ (l : List Eff) (s : State), (∀ e ∈ l, inFrame d ps e) → Outside d s (applyAll s l) ps := by
    intro l
    induction l with
    | nil => exact fun s _ => .refl s
    | cons e l ih =>
      intro s hl
      rw [applyAll_cons]
      exact (outside_apply (hl e List.mem_cons_self) s).trans (ih _ fun x hx => hl x (List.mem_cons_of_mem _ hx))
  exact hall _ _ (h s)

/-! Combinators. -/

@[fun_prop] theorem within_skip : Within d ps (skip ·) := fun _ _ he => (List.not_mem_nil he).elim

@[fun_prop] theorem within_nil : Within d ps (chain [] ·) := within_skip

@[fun_prop] theorem within_cons {a : Act} {l : List Act} (ha : Within d ps (a ·)) (hl : Within d ps (chain l ·)) :
    Within d ps (chain (a :: l) ·) := fun s e he => (List.mem_append.mp he).elim (ha s e) (hl _ e)

@[fun_prop] theorem within_look {g : State → Act} (h : ∀ s, Within d ps (g s ·)) : Within d ps (look g ·) :=
  fun s => h s s

@[fun_prop] theorem within_whenA {c : Bool} {a : Act} (h : Within d ps (a ·)) : Within d ps (whenA c a ·) := by
  cases c
  · exact within_skip
  · exact h

@[fun_prop] theorem within_ite {c : Prop} [Decidable c] {a b : Act} (ha : Within d ps (a ·)) (hb : Within d ps (b ·)) :
    Within d ps ((if c then a else b) ·) := by
  split <;> assumption

@[fun_prop] theorem within_eachA {α : Type} {l : List α} {f : α → Act} (h : ∀ x ∈ l, Within d ps (f x ·)) :
    Within d ps (eachA l f ·) := by
  induction l with
  | nil => exact within_nil
  | cons x l ih => exact within_cons (h x List.mem_cons_self) (ih fun y hy => h y (List.mem_cons_of_mem _ hy))

@[fun_prop] theorem within_eachA_range {n : Nat} {f : Nat → Act} (h : ∀ k, k < n → Within d ps (f k ·)) :
    Within d ps (eachA (List.range n) f ·) := within_eachA fun k hk => h k (List.mem_range.mp hk)

@[fun_prop] theorem within_eachA_filter {n : Nat} {p : Nat → Bool} {f : Nat → Act} (h : ∀ k, k < n → Within d ps (f k ·)) :
    Within d ps (eachA ((List.range n).filter p) f ·) :=
  within_eachA fun k hk => h k (List.mem_range.mp (List.mem_of_mem_filter hk))

@[fun_prop] theorem within_eachA_sub {k : Nat} {l : List Nat} {p : Nat → Bool} {f : Nat → Act} (hl : ∀ n ∈ l, n < k)
    (h : ∀ n, n < k → Within d ps (f n ·)) : Within d ps (eachA (l.filter p) f ·) :=
  within_eachA fun n hn => h n (hl n (List.mem_of_mem_filter hn))

@[fun_prop] theorem within_draw {k : Nat → Act} (h : ∀ x, Within d ps (k x ·)) : Within d ps (draw k ·) := by
  intro s e he
  obtain rfl | he := List.mem_cons.mp he
  · trivial
  · exact h _ _ e he

/-! One effect. -/

theorem within_one {g : State → Eff} (h : ∀ s, inFrame d ps (g s)) : Within d ps fun s => [g s] := fun s e he => by
  obtain rfl := List.mem_singleton.mp he
  exact h s

@[fun_prop] theorem within_onClk (f : ClkSt → ClkSt) : Within d ps (onClk f ·) := within_one fun _ => trivial
@[fun_prop] theorem within_onFlt (f : FltSt → FltSt) : Within d ps (onFlt f ·) := within_one fun _ => trivial
@[fun_prop] theorem within_onStm (f : StmSt → StmSt) : Within d ps (onStm f ·) := within_one fun _ => trivial
@[fun_prop] theorem within_onPwr (f : PwrSt → PwrSt) : Within d ps (onPwr f ·) := within_one fun _ => trivial
@[fun_prop] theorem within_onRecd (f : RecSt → RecSt) : Within d ps (onRecd f ·) := within_one fun _ => trivial
@[fun_prop] theorem within_onBus (f : BusSt → BusSt) : Within d ps (onBus f ·) := within_one fun _ => trivial
@[fun_prop] theorem within_onThm (f : ThmSt → ThmSt) : Within d ps (onThm f ·) := within_one fun _ => trivial
@[fun_prop] theorem within_onTim (f : TimSt → TimSt) : Within d ps (onTim f ·) := within_one fun _ => trivial
@[fun_prop] theorem within_onI2c (f : I2cSt → I2cSt) : Within d ps (onI2c f ·) := within_one fun _ => trivial
@[fun_prop] theorem within_onLmp (f : LmpSt → LmpSt) : Within d ps (onLmp f ·) := within_one fun _ => trivial
@[fun_prop] theorem within_onMtr (f : MtrSt → MtrSt) : Within d ps (onMtr f ·) := within_one fun _ => trivial
@[fun_prop] theorem within_onRef (f : RefSt → RefSt) : Within d ps (onRef f ·) := within_one fun _ => trivial
@[fun_prop] theorem within_onGau (f : GauSt → GauSt) : Within d ps (onGau f ·) := within_one fun _ => trivial
@[fun_prop] theorem within_onDut (f : DutSt → DutSt) : Within d ps (onDut f ·) := within_one fun _ => trivial
@[fun_prop] theorem within_onShu (f : ShuSt → ShuSt) : Within d ps (onShu f ·) := within_one fun _ => trivial
@[fun_prop] theorem within_onBob (f : BobSt → BobSt) : Within d ps (onBob f ·) := within_one fun _ => trivial
@[fun_prop] theorem within_onDbg (f : DbgSt → DbgSt) : Within d ps (onDbg f ·) := within_one fun _ => trivial
@[fun_prop] theorem within_onCas (f : CasSt → CasSt) : Within d ps (onCas f ·) := within_one fun _ => trivial
@[fun_prop] theorem within_onHif (f : HifSt → HifSt) : Within d ps (onHif f ·) := within_one fun _ => trivial
@[fun_prop] theorem within_onDn (f : DnSt → DnSt) : Within true ps (onDn f ·) := within_one fun _ => rfl

/-- Time passes. -/
@[fun_prop] theorem within_until (t : Nat) : Within d ps (until_ t ·) := fun s => by
  show ∀ e ∈ if s.clk.tb < t then _ else _, _
  split
  · exact within_onClk _ s
  · exact within_skip s

/-! Register fields. -/

@[fun_prop] theorem within_put {f : Fld} (v : Nat) (h : permits ps (pageOf f) = true) : Within d ps (put f v ·) :=
  within_one fun _ => h

@[fun_prop] theorem within_putS {f : Fld} (v : Int) (h : permits ps (pageOf f) = true) : Within d ps (putS f v ·) :=
  within_put _ h

@[fun_prop] theorem within_addSat {f : Fld} (n : Nat) (h : permits ps (pageOf f) = true) :
    Within d ps (addSat f n ·) := within_one fun _ => h

theorem pageOf_copy (f : Fld) (c : Nat) : pageOf (f.copy c) = pageOf f := by
  rw [pageOf_eq, keyAddr_copy]
  rfl

/-- Every copy of a register lies in its page. -/
@[fun_prop] theorem within_put_copy {f : Fld} (c v : Nat) (h : permits ps (pageOf f) = true) :
    Within d ps (put (f.copy c) v ·) := within_put v (by rwa [pageOf_copy])

/-- The page of the first `k` registers of an array, where they all lie in one page. -/
def arrayPage (f : Fld) (k : Nat) : Option Page :=
  bif Nat.ble (f.key % 0x1000 + f.stride * k) (0xFFF + f.stride) then pageOf f else none

theorem pageOf_i {f : Fld} {k n : Nat} (hn : n < k) (h : permits ps (arrayPage f k) = true) :
    pageOf (f.i n) = pageOf f := by
  cases hb : Nat.ble (f.key % 0x1000 + f.stride * k) (0xFFF + f.stride) with
  | false => rw [arrayPage, hb] at h; cases h
  | true =>
    have hk := Nat.le_of_ble_eq_true hb
    have hm : f.stride * n + f.stride ≤ f.stride * k := by
      rw [← Nat.mul_succ]
      exact Nat.mul_le_mul_left _ hn
    rw [pageOf_eq, pageOf_eq, i_key]
    congr 1
    unfold addrPage keyAddr
    omega

/-- A register of an array that lies in one page. -/
@[fun_prop] theorem within_put_i {f : Fld} {k n : Nat} (v : Nat) (hn : n < k) (h : permits ps (arrayPage f k) = true) :
    Within d ps (put (f.i n) v ·) := by
  refine within_put v ?_
  rw [pageOf_i hn h]
  cases hb : Nat.ble (f.key % 0x1000 + f.stride * k) (0xFFF + f.stride) with
  | false => rw [arrayPage, hb] at h; cases h
  | true => rw [arrayPage, hb] at h; exact h

end Sys2Proof.Proofs
end

section
/-! The shared operations of the model within a frame: counters, sticky bits and their reports, pulses, and accesses by
an initiator (R10 to R20, R40, R41). -/

namespace Sys2Proof.Proofs

open Sys2Proof.Machine Sys2Proof.Laws

variable {d : Bool} {ps : List Page}

/-! Counters. -/

@[fun_prop] theorem within_count {f : Fld} (h : permits ps (pageOf f) = true) : Within d ps (count f ·) := by
  unfold count
  fun_prop (disch := assumption)

@[fun_prop] theorem within_count_copy {f : Fld} (c : Nat) (h : permits ps (pageOf f) = true) :
    Within d ps (count (f.copy c) ·) := within_count (by rwa [pageOf_copy])

theorem permits_i {f : Fld} {k n : Nat} (hn : n < k) (h : permits ps (arrayPage f k) = true) :
    permits ps (pageOf (f.i n)) = true := by
  rw [pageOf_i hn h]
  cases hb : Nat.ble (f.key % 0x1000 + f.stride * k) (0xFFF + f.stride) with
  | false => rw [arrayPage, hb] at h; cases h
  | true => rw [arrayPage, hb] at h; exact h

@[fun_prop] theorem within_count_i {f : Fld} {k n : Nat} (hn : n < k) (h : permits ps (arrayPage f k) = true) :
    Within d ps (count (f.i n) ·) := within_count (permits_i hn h)

/-! Sticky bits. A report and a recorder's sample lie in hidden state. -/

@[fun_prop] theorem within_sendReport (r : Report) : Within d ps (sendReport r ·) := fun s => by
  have one (x : FltSt) : ∀ e ∈ [Eff.flt x], inFrame d ps e := within_one (g := fun _ => .flt x) (fun _ => trivial) s
  show ∀ e ∈ if s.domOn Dom.core then _ else _, _
  split_ifs
  · exact one _
  · exact one _
  · exact one _

@[fun_prop] theorem within_stickRise {f : Fld} (at_ inst info : Nat) (h : permits ps (pageOf f) = true) :
    Within d ps (stickRise at_ f inst info ·) := by
  unfold stickRise
  fun_prop (disch := assumption)

@[fun_prop] theorem within_stickAt {f : Fld} (at_ inst info : Nat) (h : permits ps (pageOf f) = true) :
    Within d ps (stickAt at_ f inst info ·) := by
  unfold stickAt
  fun_prop (disch := assumption)

@[fun_prop] theorem within_stickI {f : Fld} (inst info : Nat) (h : permits ps (pageOf f) = true) :
    Within d ps (stickI f inst info ·) := by
  unfold stickI
  fun_prop (disch := assumption)

@[fun_prop] theorem within_stick {f : Fld} (h : permits ps (pageOf f) = true) : Within d ps (stick f ·) := by
  unfold stick
  fun_prop (disch := assumption)

@[fun_prop] theorem within_stickV {f : Fld} (v : Nat) (h : permits ps (pageOf f) = true) : Within d ps (stickV f v ·) := by
  unfold stickV
  fun_prop (disch := assumption)

@[fun_prop] theorem within_stickVI {f : Fld} (v inst info : Nat) (h : permits ps (pageOf f) = true) :
    Within d ps (stickVI f v inst info ·) := by
  unfold stickVI
  fun_prop (disch := assumption)

/-! Pulses. -/

@[fun_prop] theorem within_pulse (p : Nat) : Within d ps (pulse p ·) := by
  unfold pulse
  fun_prop

@[fun_prop] theorem within_pulseAon (p n : Nat) : Within d ps (pulseAon p n ·) := by
  unfold pulseAon
  fun_prop

/-! Accesses. -/

@[fun_prop] theorem within_answer (i : Initiator) (v : Nat) : Within d ps (answer i v ·) := by
  unfold answer
  fun_prop

@[fun_prop] theorem within_bindViolation (i : Initiator) (v a : Nat) (h : ps.contains .VIF = true) :
    Within d ps (bindViolation i v a ·) := by
  unfold bindViolation
  fun_prop (disch := assumption)

@[fun_prop] theorem within_refusal (i : Initiator) (a : Nat) (r : Route) (hs : ps.contains .SYS = true)
    (hv : ps.contains .VIF = true) : Within d ps (refusal i a r ·) := by
  cases r <;> unfold refusal <;> fun_prop (disch := assumption)

@[fun_prop] theorem within_routed (i : Initiator) (a : Nat) (write : Bool) {effect : Act} (r : Route)
    (hs : ps.contains .SYS = true) (hp : ps.contains .PWR = true) (hv : ps.contains .VIF = true)
    (he : Within d ps (effect ·)) : Within d ps (routed i a write effect r ·) := by
  cases r <;> unfold routed <;> fun_prop (disch := assumption)

@[fun_prop] theorem within_atRegister (i : Initiator) (v : Nat) (f : Fld) (write : Bool) {effect : Act}
    (hs : ps.contains .SYS = true) (hp : ps.contains .PWR = true) (hv : ps.contains .VIF = true)
    (he : Within d ps (effect ·)) : Within d ps (atRegister i v f write effect ·) := by
  unfold atRegister
  fun_prop (disch := assumption)

/-! A word written to a register. -/

theorem pageOf_header {k : Nat} (off b : Nat) (ho : off < 0x1000) (h : permits ps (Page.ofCode (addrPage (keyAddr k))) = true) :
    permits ps (pageOf ((headerOf (keyAddr k) off 32).bit b)) = true := by
  rwa [pageOf_eq, headerOf_page _ _ _ ho]

@[fun_prop] theorem within_setRsvd {k : Nat} (v : Nat) (h : permits ps (Page.ofCode (addrPage (keyAddr k))) = true) :
    Within d ps (setRsvd k v ·) := within_stickV v (pageOf_header _ _ (by decide) h)

@[fun_prop] theorem within_setLockv {k : Nat} (v : Nat) (h : permits ps (Page.ofCode (addrPage (keyAddr k))) = true) :
    Within d ps (setLockv k v ·) := within_stickV v (pageOf_header _ _ (by decide) h)

@[fun_prop] theorem within_judgeField {k : Nat} (v w : Nat) (bad : FieldDesc → Nat → Bool) (f : FieldDesc)
    (h : permits ps (Page.ofCode (addrPage (keyAddr k))) = true) : Within d ps (judgeField k v w bad f ·) := by
  refine within_look fun s => ?_
  cases f.acc with
  | rw | rwl | w1c | w1s | ro | wo => dsimp only; fun_prop (disch := assumption)

@[fun_prop] theorem within_judgedWrite {k : Nat} (v w : Nat) (bad : FieldDesc → Nat → Bool)
    (h : permits ps (Page.ofCode (addrPage (keyAddr k))) = true) : Within d ps (judgedWrite k v w bad ·) := by
  unfold judgedWrite
  cases descOf k with
  | some _ => dsimp only; fun_prop (disch := assumption)
  | none => exact within_skip

@[fun_prop] theorem within_plainWrite {k : Nat} (v w : Nat) (h : permits ps (Page.ofCode (addrPage (keyAddr k))) = true) :
    Within d ps (plainWrite k v w ·) := within_judgedWrite v w _ h

end Sys2Proof.Proofs
end

section
/-! The operations of the lamp drive, the meter, the references, the gauge and the cascade within a frame
(R311 to R330, R478 to R520). -/

namespace Sys2Proof.Proofs

open Sys2Proof.Machine Sys2Proof.Laws

variable {d : Bool} {ps : List Page}

/-! The lamp drive. -/

section Lamps

variable {n : Nat} (hn : n < 4) (h : ps.contains .LMP = true)

@[fun_prop] theorem within_onLamp (n : Nat) (f : LampCh → LampCh) : Within d ps (onLamp n f ·) := by
  unfold onLamp
  fun_prop

@[fun_prop] theorem within_onRelay (r : Nat) (f : Relay → Relay) : Within d ps (onRelay r f ·) := by
  unfold onRelay
  fun_prop

include h

theorem permits_lampSticky (kind : Nat) : permits ps (pageOf (lampSticky kind)) = true := by
  unfold lampSticky
  split <;> exact h

theorem permits_relayFld (r : Nat) : permits ps (pageOf (relayFld r).1) = true ∧
    permits ps (pageOf (relayFld r).2.1) = true ∧ permits ps (pageOf (relayFld r).2.2) = true := by
  unfold relayFld
  split <;> exact ⟨h, h, h⟩

@[fun_prop] theorem within_relayStart (r dir : Nat) : Within d ps (relayStart r dir ·) := by
  obtain ⟨hp, hw, -⟩ := permits_relayFld h r
  unfold relayStart
  fun_prop (disch := assumption)

@[fun_prop] theorem within_relayRequest (r dir : Nat) : Within d ps (relayRequest r dir ·) := by
  obtain ⟨-, hw, -⟩ := permits_relayFld h r
  unfold relayRequest
  fun_prop (disch := assumption)

@[fun_prop] theorem within_writeRelay (w : Nat) : Within d ps (writeRelay w ·) := by
  unfold writeRelay
  fun_prop (disch := assumption)

include hn

@[fun_prop] theorem within_lampEnter (st : Nat) : Within d ps (lampEnter n st ·) := by
  unfold lampEnter
  fun_prop (disch := assumption)

@[fun_prop] theorem within_settleLamp : Within d ps (settleLamp n ·) := by
  unfold settleLamp
  fun_prop (disch := assumption)

@[fun_prop] theorem within_lampClear : Within d ps (lampClear n ·) := by
  unfold lampClear
  fun_prop (disch := assumption)

@[fun_prop] theorem within_writeLampEn (en : Bool) : Within d ps (writeLampEn n en ·) := by
  unfold writeLampEn
  fun_prop (disch := assumption)

@[fun_prop] theorem within_overrideEnd : Within d ps (overrideEnd n ·) := by
  unfold overrideEnd
  fun_prop (disch := assumption)

@[fun_prop] theorem within_windowStart (sense : Nat) : Within d ps (windowStart n sense ·) := by
  unfold windowStart
  fun_prop (disch := assumption)

theorem permits_lampCounter (kind : Nat) : permits ps (pageOf (lampCounter n kind)) = true := by
  unfold lampCounter
  split
  · exact permits_i hn h
  · exact permits_i hn h
  · exact permits_i hn h
  · exact permits_i hn h
  · exact h

@[fun_prop] theorem within_lampFaultOf (kind : Nat) : Within d ps (lampFaultOf n kind ·) := by
  have hc := permits_lampCounter hn h kind
  unfold lampFaultOf
  fun_prop (disch := assumption)

omit hn

@[fun_prop] theorem within_settleLamps : Within d ps (settleLamps ·) := by
  unfold settleLamps
  fun_prop (disch := assumption)

@[fun_prop] theorem within_lampFault {chans : List Nat} (kind : Nat) (hl : ∀ n ∈ chans, n < 4) :
    Within d ps (lampFault chans kind ·) := by
  have hs := permits_lampSticky h kind
  unfold lampFault
  fun_prop (disch := assumption)

@[fun_prop] theorem within_lampFault_one (kind : Nat) (hn : n < 4) : Within d ps (lampFault [n] kind ·) :=
  within_lampFault h kind fun m hm => by rwa [List.mem_singleton.mp hm]

@[fun_prop] theorem within_lampFault_filter (kind : Nat) (p : Nat → Bool) :
    Within d ps (lampFault ((List.range 4).filter p) kind ·) :=
  within_lampFault h kind fun _ hm => List.mem_range.mp (List.mem_of_mem_filter hm)

@[fun_prop] theorem within_openDecision (hn : n < 4) : Within d ps (openDecision n ·) := by
  unfold openDecision
  fun_prop (disch := assumption)

end Lamps

/-! The meter. -/

section Meter

variable (h : ps.contains .MTR = true)
include h

@[fun_prop] theorem within_addEnergy {f : Fld} (frac energy : Nat) (keep : Nat → MtrSt → MtrSt)
    (hf : permits ps (pageOf f) = true) : Within d ps (addEnergy f frac energy keep ·) := by
  unfold addEnergy
  fun_prop (disch := assumption)

@[fun_prop] theorem within_intervalEnd (samples : List (Int × Int)) (noZc : Bool) (freq : Nat) :
    Within d ps (intervalEnd samples noZc freq ·) := by
  unfold intervalEnd
  fun_prop (disch := assumption)

@[fun_prop] theorem within_runInterval (samples : List (Int × Int)) (full noZc : Bool) :
    Within d ps (runInterval samples full noZc ·) := by
  unfold runInterval
  fun_prop (disch := assumption)

@[fun_prop] theorem within_readRstat (i : Initiator) : Within d ps (readRstat i ·) := by
  unfold readRstat
  fun_prop (disch := assumption)

omit h

@[fun_prop] theorem within_readEnergy (i : Initiator) {f : Fld} (hf : permits ps (pageOf f) = true) :
    Within d ps (readEnergy i f ·) := by
  unfold readEnergy
  fun_prop (disch := assumption)

end Meter

/-! The references. -/

section References

@[fun_prop] theorem within_moveReference (sel cause : Nat) : Within d ps (moveReference sel cause ·) := by
  unfold moveReference
  fun_prop

variable (h : ps.contains .REF = true)
include h

@[fun_prop] theorem within_decideDrift (dA dB : Nat) : Within d ps (decideDrift dA dB ·) := by
  have hb : permits ps (pageOf (if decide (dA > dB) then REF.STAT.BADA else REF.STAT.BADB)) = true := by split <;> exact h
  unfold decideDrift
  fun_prop (disch := assumption)

@[fun_prop] theorem within_compareReferences (dab dac dbc : Int) : Within d ps (compareReferences dab dac dbc ·) := by
  unfold compareReferences
  fun_prop (disch := assumption)

end References

/-! The gauge. -/

section Gauge

variable (h : ps.contains .GAU = true)
include h

@[fun_prop] theorem within_settleSoc : Within d ps (settleSoc ·) := by
  unfold settleSoc
  fun_prop (disch := assumption)

@[fun_prop] theorem within_moveCharge (q : Int) : Within d ps (moveCharge q ·) := by
  unfold moveCharge
  fun_prop (disch := assumption)

@[fun_prop] theorem within_moveRest (rest : Bool) (ms : Nat) : Within d ps (moveRest rest ms ·) := by
  unfold moveRest
  fun_prop (disch := assumption)

@[fun_prop] theorem within_gaugeSample (i : Int) : Within d ps (gaugeSample i ·) := by
  unfold gaugeSample
  fun_prop (disch := assumption)

@[fun_prop] theorem within_writeChg (w : Nat) : Within d ps (writeChg w ·) := by
  unfold writeChg
  fun_prop (disch := assumption)

@[fun_prop] theorem within_gaugeVoltage (mv : Nat) : Within d ps (gaugeVoltage mv ·) := by
  unfold gaugeVoltage
  fun_prop (disch := assumption)

end Gauge

/-! The cascade. -/

section Cascade

@[fun_prop] theorem within_sendLink (x : LinkSend) : Within d ps (sendLink x ·) := by
  unfold sendLink
  fun_prop

@[fun_prop] theorem within_dropKeys (n : Nat) (ext : Bool) : Within d ps (dropKeys n ext ·) := by
  unfold dropKeys
  fun_prop

@[fun_prop] theorem within_setHandover (n st : Nat) : Within d ps (setHandover n st ·) := by
  unfold setHandover
  fun_prop

section Contexts

variable (h : ps.contains .BOB = true)
include h

@[fun_prop] theorem within_ctxFull (v : Nat) : Within d ps (ctxFull v ·) := by
  unfold ctxFull
  fun_prop (disch := assumption)

@[fun_prop] theorem within_place (n : Nat) (ext : Bool) (key : Nat) {k : Bool → Act} (hk : ∀ b, Within d ps (k b ·)) :
    Within d ps (place n ext key k ·) := by
  refine within_look fun s => ?_
  cases placeKey s.bob.hashKey key (if ext then s.bob.extKeys else s.bob.shortKeys) with
  | some _ => dsimp only; fun_prop (disch := assumption)
  | none => dsimp only; fun_prop (disch := assumption)

@[fun_prop] theorem within_receiveRecord (l : List Nat) : Within d ps (receiveRecord l ·) := by
  unfold receiveRecord
  apply within_look
  intro s
  cases s.ctxFree with
  | none => dsimp only; fun_prop (disch := assumption)
  | some _ => dsimp only; fun_prop (disch := assumption)

end Contexts

section Link

variable (hc : ps.contains .CAS = true)
include hc

@[fun_prop] theorem within_handoverFails (n reason : Nat) : Within d ps (handoverFails n reason ·) := by
  unfold handoverFails
  fun_prop (disch := assumption)

@[fun_prop] theorem within_trained (rt : List Nat) (up : Int) : Within d ps (trained rt up ·) := by
  unfold trained
  fun_prop (disch := assumption)

@[fun_prop] theorem within_writeRctrl (w : Nat) : Within d ps (writeRctrl w ·) := by
  unfold writeRctrl
  fun_prop (disch := assumption)

@[fun_prop] theorem within_remoteGo (i : Initiator) (member addr words wr : Nat) (hs : ps.contains .SYS = true)
    (hp : ps.contains .PWR = true) (hv : ps.contains .VIF = true) :
    Within d ps (remoteGo i member addr words wr ·) := by
  unfold remoteGo
  fun_prop (disch := assumption)

variable (hk : ps.contains .CLK = true)
include hk

@[fun_prop] theorem within_settleLink : Within d ps (settleLink ·) := by
  unfold settleLink
  fun_prop (disch := assumption)

@[fun_prop] theorem within_linkLost (reason : Nat) : Within d ps (linkLost reason ·) := by
  unfold linkLost
  fun_prop (disch := assumption)

@[fun_prop] theorem within_writeCasCtrl (w : Nat) : Within d ps (writeCasCtrl w ·) := by
  unfold writeCasCtrl
  fun_prop (disch := assumption)

@[fun_prop] theorem within_writeRole (w : Nat) (hs : ps.contains .SYS = true) (hl : ps.contains .LMP = true) :
    Within d ps (writeRole w ·) := by
  unfold writeRole
  fun_prop (disch := assumption)

end Link

end Cascade

end Sys2Proof.Proofs
end

section
/-! Commands whose effects a frame permits, and the frames of the commands of the lamp drive, the meter, the references, the
gauge and the cascade. -/

namespace Sys2Proof.Proofs

open Sys2Proof.Machine Sys2Proof.Laws

/-- A command is an action within a frame. -/
def Stays (cores : Bool) (ps : List Page) (c : Instr) : Prop := ∃ a : Act, exec c = act a ∧ Within cores ps (a ·)

variable {d : Bool} {ps : List Page}

theorem Stays.outside {c : Instr} {s t : State} (h : Stays d ps c) (hx : exec c s = .next t) : Outside d s t ps := by
  obtain ⟨a, he, ha⟩ := h
  rw [he] at hx
  cases hx
  exact ha.outside s

theorem Outside.framed {s t : State} (h : Outside d s t ps) : Framed s t ps := ⟨h.regs, h.mem, h.key, h.otp⟩

section Lamps

variable (h : ps.contains .LMP = true)
include h

theorem stays_softStartEnd (n : Fin 4) : Stays d ps (.softStartEnd n) := by
  refine ⟨_, rfl, within_look fun s => ?_⟩
  cases (s.lamp n).ssFrom with
  | none => exact within_skip
  | some t => fun_prop (disch := solve_by_elim [Fin.isLt])

theorem stays_relayPulseEnd (r : Fin 2) : Stays d ps (.relayPulseEnd r) := by
  obtain ⟨hp, -, hd⟩ := permits_relayFld h r
  refine ⟨_, rfl, within_look fun s => ?_⟩
  cases (s.relay r).pulse with
  | none => exact within_skip
  | some p => dsimp only; fun_prop (disch := assumption)

theorem stays_relayWaitStart (r : Fin 2) : Stays d ps (.relayWaitStart r) := by
  refine ⟨_, rfl, within_look fun s => ?_⟩
  cases (s.relay r).waits with
  | none => exact within_skip
  | some dir => dsimp only; fun_prop (disch := assumption)

theorem stays_overrideExpire (n : Fin 4) : Stays d ps (.overrideExpire n) := by
  have hn := n.isLt
  refine ⟨_, rfl, within_look fun s => ?_⟩
  cases (s.lamp n).ovr with
  | none => exact within_skip
  | some o =>
    cases h : o.ends with
    | none => dsimp only; rw [h]; exact within_skip
    | some t => dsimp only; rw [h]; fun_prop (disch := assumption)

end Lamps

section Cascade

variable (hc : ps.contains .CAS = true)
include hc

theorem stays_retrain : Stays d ps .retrain := by
  refine ⟨_, rfl, within_look fun s => ?_⟩
  cases s.cas.lostAt with
  | none => exact within_skip
  | some t => dsimp only; fun_prop (disch := assumption)

theorem stays_tickMarkerCheck (ns : Option Int) (hk : ps.contains .CLK = true) : Stays d ps (.tickMarkerCheck ns) := by
  refine ⟨_, rfl, within_look fun s => ?_⟩
  cases ns with
  | none => dsimp only; fun_prop (disch := assumption)
  | some t => dsimp only; fun_prop (disch := assumption)

/-- The buffer of a remote access has a word for every word that it counts. -/
theorem stays_remoteAccessDone (result : Fin 4) (words : List Word) : Stays d ps (.remoteAccessDone result words) := by
  refine ⟨_, rfl, within_look fun s => ?_⟩
  have hw : s.get CAS.RCTRL.WORDS + 1 ≤ 16 := get_lt s CAS.RCTRL.WORDS
  have hb : ∀ k, k < s.get CAS.RCTRL.WORDS + 1 → k < 16 := fun k hk => Nat.lt_of_lt_of_le hk hw
  have hr : Within d ps (eachA (List.range (s.get CAS.RCTRL.WORDS + 1)) (fun k => put (CAS.RBUF.W.i k) (words.getD k 0).toNat) ·) :=
    within_eachA_range fun k hk => within_put_i _ (hb k hk) hc
  fun_prop (disch := assumption)

end Cascade

theorem stays_refSwitchover (h : ps.contains .REF = true) : Stays d ps .refSwitchover := by
  refine ⟨_, rfl, within_look fun s => ?_⟩
  cases s.ref.due with
  | none => exact within_skip
  | some due => dsimp only; fun_prop (disch := assumption)

theorem stays_energyRead (i : Initiator) (rev : Bool) (hs : ps.contains .SYS = true) (hp : ps.contains .PWR = true)
    (hv : ps.contains .VIF = true) (h : ps.contains .MTR = true) : Stays d ps (.energyRead i rev) := by
  have hf : permits ps (pageOf (if rev then MTR.EREV.WH else MTR.EACC.WH)) = true := by split <;> exact h
  exact ⟨_, rfl, within_atRegister _ _ _ _ hs hp hv (within_readEnergy i hf)⟩

/-- Every command of these blocks is an action within its frame. -/
theorem stays_of_drivePages {c : Instr} (hc : drivePages c = some ps) : Stays false ps c := by
  cases c with
  | softStartEnd n => cases hc; exact stays_softStartEnd rfl n
  | relayPulseEnd r => cases hc; exact stays_relayPulseEnd rfl r
  | relayWaitStart r => cases hc; exact stays_relayWaitStart rfl r
  | overrideExpire n => cases hc; exact stays_overrideExpire rfl n
  | refSwitchover => cases hc; exact stays_refSwitchover rfl
  | energyRead i rev => cases hc; exact stays_energyRead i rev rfl rfl rfl rfl
  | retrain => cases hc; exact stays_retrain rfl
  | tickMarkerCheck ns => cases hc; exact stays_tickMarkerCheck rfl ns rfl
  | remoteAccessDone result words => cases hc; exact stays_remoteAccessDone rfl result words
  | dimWindowStart | rampshortTrip | shortDetect | ovpDetect | openDiagDecision | retryDelayExpire | onFaultFree10s
  | channelEnWrite =>
    cases hc
    exact ⟨_, rfl, by fun_prop (disch := solve_by_elim [Fin.isLt])⟩
  | ntcHot | ntcCool | lmpenChange | vgdChange | relaySet | relayReset | probeDue | meterIntervalEnd | meterNozcTimeout
  | rstatRead | refCompare | gaugeChargeCount | gaugeReanchor | chgWrite | loadRecordSend | linkLoss | linkAlignLock
  | linkEnable | trainingDone | trainingMarker | trainingTimeout | downstreamLinkLoss | memberIrqLevel | roleWrite
  | closeRecord | handoverRecordSend | handoverRecordReceive | handoverAcceptReceive | remoteRead | remoteWrite =>
    cases hc
    exact ⟨_, rfl, by fun_prop (disch := rfl)⟩
  | _ => cases hc

/-- Settles O10: every command of these blocks is an action within its frame, and no such action touches the Pattern RAM or a
core. -/
theorem driveFrames : Obligations.DriveFrames := by
  intro c s t ps hc hx
  have ho := (stays_of_drivePages hc).outside hx
  exact ⟨ho.framed, ho.pat, ho.dn rfl⟩

end Sys2Proof.Proofs
end

section
/-! The operations of the clock, power, the Thimble, the timers, the pads, the two-wire controllers, the host link and the debug
port within a frame, and the frames of their commands. -/

namespace Sys2Proof.Proofs

open Sys2Proof.Machine Sys2Proof.Laws

variable {d : Bool} {ps : List Page}

/-! Power and wakes. -/

section Power

variable (h : ps.contains .PWR = true)
include h

@[fun_prop] theorem within_startRestore (mode : Nat) : Within d ps (startRestore mode ·) := by
  unfold startRestore
  fun_prop (disch := assumption)

@[fun_prop] theorem within_wakeTo (mode : Nat) : Within d ps (wakeTo mode ·) := by
  unfold wakeTo
  fun_prop (disch := assumption)

@[fun_prop] theorem within_wakeSource (src mode k32 : Nat) : Within d ps (wakeSource src mode k32 ·) := by
  unfold wakeSource
  fun_prop (disch := assumption)

@[fun_prop] theorem within_requestMode (m : Nat) : Within d ps (requestMode m ·) := by
  unfold requestMode
  fun_prop (disch := assumption)

@[fun_prop] theorem within_writeModereq (w : Nat) : Within d ps (writeModereq w ·) := by
  unfold writeModereq
  fun_prop (disch := assumption)

@[fun_prop] theorem within_writeDomen (w : Nat) : Within d ps (writeDomen w ·) := by
  unfold writeDomen
  fun_prop (disch := assumption)

@[fun_prop] theorem within_rtcAlarm (k32 : Nat) : Within d ps (rtcAlarm k32 ·) := by
  unfold rtcAlarm
  fun_prop (disch := assumption)

@[fun_prop] theorem within_writeRtcsec (w : Nat) : Within d ps (writeRtcsec w ·) := by
  unfold writeRtcsec
  fun_prop (disch := assumption)

@[fun_prop] theorem within_vinFall (n : Nat) : Within d ps (vinFall n ·) := by
  unfold vinFall
  fun_prop (disch := assumption)

@[fun_prop] theorem within_vinRestored (n : Nat) : Within d ps (vinRestored n ·) := by
  unfold vinRestored
  fun_prop (disch := assumption)

end Power

/-! The Thimble. -/

section Thimble

variable (h : ps.contains .THM = true)
include h

@[fun_prop] theorem within_thimbleRun : Within d ps (thimbleRun ·) := by
  unfold thimbleRun
  fun_prop (disch := assumption)

@[fun_prop] theorem within_thimbleRestart : Within d ps (thimbleRestart ·) := by
  unfold thimbleRestart
  fun_prop (disch := assumption)

@[fun_prop] theorem within_writeThimble (khz : Option Nat) : Within d ps (writeThimble khz ·) := by
  cases khz with
  | none => unfold writeThimble; fun_prop (disch := assumption)
  | some f => unfold writeThimble; fun_prop (disch := assumption)

omit h in
@[fun_prop] theorem within_thimbleAction (k32 : Nat) (hp : ps.contains .PWR = true) :
    Within d ps (thimbleAction k32 ·) := by
  unfold thimbleAction
  fun_prop (disch := assumption)

@[fun_prop] theorem within_thimbleTrigger (code group k32 : Nat) (hp : ps.contains .PWR = true) :
    Within d ps (thimbleTrigger code group k32 ·) := by
  unfold thimbleTrigger
  fun_prop (disch := assumption)

end Thimble

/-! Timers and pads. -/

section Timers

variable {n : Nat} (hn : n < 8) (h : ps.contains .TIM = true)
include h

section One

include hn

@[fun_prop] theorem within_syncTimer : Within d ps (syncTimer n ·) := by
  unfold syncTimer
  fun_prop (disch := assumption)

@[fun_prop] theorem within_fireTimer : Within d ps (fireTimer n ·) := by
  unfold fireTimer
  fun_prop (disch := assumption)

@[fun_prop] theorem within_checkWindow : Within d ps (checkWindow n ·) := by
  unfold checkWindow
  fun_prop (disch := assumption)

@[fun_prop] theorem within_countEvent : Within d ps (countEvent n ·) := by
  unfold countEvent
  fun_prop (disch := assumption)

@[fun_prop] theorem within_armTimer : Within d ps (armTimer n ·) := by
  unfold armTimer
  fun_prop (disch := assumption)

@[fun_prop] theorem within_stopTimer : Within d ps (stopTimer n ·) := by
  unfold stopTimer
  fun_prop (disch := assumption)

@[fun_prop] theorem within_writeTimerCtrl (w : Nat) : Within d ps (writeTimerCtrl n w ·) := by
  unfold writeTimerCtrl
  fun_prop (disch := assumption)

@[fun_prop] theorem within_writeTimerCmp (w : Nat) : Within d ps (writeTimerCmp n w ·) := by
  unfold writeTimerCmp
  fun_prop (disch := assumption)

end One

@[fun_prop] theorem within_timersPause : Within d ps (timersPause ·) := by
  unfold timersPause
  fun_prop (disch := assumption)

@[fun_prop] theorem within_timersResume : Within d ps (timersResume ·) := by
  unfold timersResume
  fun_prop (disch := assumption)

@[fun_prop] theorem within_crystalTimers : Within d ps (crystalTimers ·) := by
  unfold crystalTimers
  fun_prop (disch := assumption)

@[fun_prop] theorem within_gpioLevel (p : Nat) (level : Bool) (hg : ps.contains .GIO = true) :
    Within d ps (gpioLevel p level ·) := by
  unfold gpioLevel
  fun_prop (disch := assumption)

omit h in
@[fun_prop] theorem within_softTrigger (w : Nat) : Within d ps (softTrigger w ·) := by
  unfold softTrigger
  fun_prop

end Timers

/-! The clock. -/

section Clock

@[fun_prop] theorem within_rollDue : Within d ps (rollDue ·) := by
  unfold rollDue rollsBy rollBucketsBy rollDwellBy
  fun_prop

@[fun_prop] theorem within_unlessSlaved {a : Act} (hc : ps.contains .CAS = true) (ha : Within d ps (a ·)) :
    Within d ps (unlessSlaved a ·) := by
  unfold unlessSlaved
  fun_prop (disch := assumption)

@[fun_prop] theorem within_writeAsnhi (w : Nat) (hc : ps.contains .CAS = true) : Within d ps (writeAsnhi w ·) := by
  unfold writeAsnhi
  fun_prop (disch := assumption)

@[fun_prop] theorem within_writeAsnlo (w : Nat) (hc : ps.contains .CAS = true) : Within d ps (writeAsnlo w ·) := by
  unfold writeAsnlo
  fun_prop (disch := assumption)

variable (h : ps.contains .CLK = true)
include h

@[fun_prop] theorem within_readTblo (i : Initiator) : Within d ps (readTblo i ·) := by
  unfold readTblo
  fun_prop (disch := assumption)

@[fun_prop] theorem within_readAsnlo (i : Initiator) : Within d ps (readAsnlo i ·) := by
  unfold readAsnlo
  fun_prop (disch := assumption)

@[fun_prop] theorem within_addAdjust (x : Int) : Within d ps (addAdjust x ·) := by
  unfold addAdjust
  fun_prop (disch := assumption)

@[fun_prop] theorem within_adjustTick (x : Int) (hb : ps.contains .BOB = true) : Within d ps (adjustTick x ·) := by
  unfold adjustTick
  fun_prop (disch := assumption)

@[fun_prop] theorem within_writeTickadj (w : Nat) (hc : ps.contains .CAS = true) (hb : ps.contains .BOB = true) :
    Within d ps (writeTickadj w ·) := by
  unfold writeTickadj
  fun_prop (disch := assumption)

@[fun_prop] theorem within_writeClkCtrl (w : Nat) (hc : ps.contains .CAS = true) : Within d ps (writeClkCtrl w ·) := by
  unfold writeClkCtrl
  fun_prop (disch := assumption)

end Clock

/-! The collector. -/

section Collector

@[fun_prop] theorem within_checkpoint : Within d ps (checkpoint ·) := by
  unfold checkpoint
  fun_prop

@[fun_prop] theorem within_popFault (w : Nat) : Within d ps (popFault w ·) := by
  refine within_look fun s => ?_
  cases s.flt.queue with
  | nil => exact within_skip
  | cons r l => dsimp only; fun_prop

@[fun_prop] theorem within_writeInject (w : Nat) (h : ps.contains .FLT = true) : Within d ps (writeInject w ·) := by
  unfold writeInject
  fun_prop (disch := assumption)

end Collector

/-! The two-wire controllers. -/

section Wires

@[fun_prop] theorem within_setI2c (n : Nat) (t : Option I2cTx) : Within d ps (setI2c n t ·) := by
  unfold setI2c
  fun_prop

variable {n : Nat} (hn : n < 2) (h : ps.contains .I2C = true)
include h

@[fun_prop] theorem within_abandonTarget : Within d ps (abandonTarget ·) := by
  unfold abandonTarget
  fun_prop (disch := assumption)

@[fun_prop] theorem within_readRxreg (i : Initiator) : Within d ps (readRxreg i ·) := by
  unfold readRxreg
  fun_prop (disch := assumption)

@[fun_prop] theorem within_writeTxreg (w : Nat) : Within d ps (writeTxreg w ·) := by
  unfold writeTxreg
  fun_prop (disch := assumption)

include hn

@[fun_prop] theorem within_beginI2c (t : I2cTx) : Within d ps (beginI2c n t ·) := by
  unfold beginI2c
  fun_prop (disch := assumption)

@[fun_prop] theorem within_writeI2cCmd (w : Nat) : Within d ps (writeI2cCmd n w ·) := by
  unfold writeI2cCmd
  fun_prop (disch := assumption)

@[fun_prop] theorem within_writeI2cRecov (w : Nat) : Within d ps (writeI2cRecov n w ·) := by
  unfold writeI2cRecov
  fun_prop (disch := assumption)

@[fun_prop] theorem within_endI2c (result : Nat) : Within d ps (endI2c n result ·) := by
  have hd : permits ps (pageOf (if n = 0 then I2C.STICKY.ADONE else I2C.STICKY.BDONE)) = true := by split <;> exact h
  unfold endI2c
  fun_prop (disch := assumption)

end Wires

/-! The host link, the debug port and the doorbells. -/

section Links

@[fun_prop] theorem within_failRest : Within d ps (failRest ·) := by
  unfold failRest
  fun_prop

@[fun_prop] theorem within_loadIr (code : Nat) (acts : State → Bool) : Within d ps (loadIr code acts ·) := by
  unfold loadIr
  fun_prop

@[fun_prop] theorem within_hostError (kind vi field : Nat) {f : Fld} (h : ps.contains .HIF = true)
    (hf : permits ps (pageOf f) = true) : Within d ps (hostError kind vi field (some f) ·) := by
  unfold hostError
  fun_prop (disch := assumption)

@[fun_prop] theorem within_showHeld (h : ps.contains .DBG = true) : Within d ps (showHeld ·) := by
  unfold showHeld
  fun_prop (disch := assumption)

@[fun_prop] theorem within_writeDbset (w : Nat) (h : ps.contains .CPU = true) : Within d ps (writeDbset w ·) := by
  unfold writeDbset
  fun_prop (disch := assumption)

@[fun_prop] theorem within_onCore (c : Nat) (f : DnCore → DnCore) : Within true ps (onCore c f ·) := by
  unfold onCore
  fun_prop

end Links

end Sys2Proof.Proofs
end

section
/-! The frames of the commands of the clock, the two-wire controllers, the timers, the Thimble, the collector, the debug port,
power and the host link. -/

namespace Sys2Proof.Proofs

open Sys2Proof.Machine Sys2Proof.Laws

variable {d : Bool} {ps : List Page}

theorem stays_thimbleDetectStart (h : ps.contains .THM = true) : Stays d ps .thimbleDetectStart := by
  refine ⟨_, rfl, within_look fun s => ?_⟩
  cases s.thm.detectAt with
  | none => exact within_skip
  | some t => dsimp only; fun_prop (disch := assumption)

theorem stays_wakeFrameReceived (crc : Option Byte) (code : BitVec 16) (group : Byte) (k32 : Nat)
    (h : ps.contains .THM = true) (hp : ps.contains .PWR = true) : Stays d ps (.wakeFrameReceived crc code group k32) := by
  refine ⟨_, rfl, within_look fun s => ?_⟩
  cases s.thm.lastTrigger with
  | none => dsimp only; fun_prop (disch := assumption)
  | some t => dsimp only; fun_prop (disch := assumption)

theorem stays_i2cStartOnFreeBus (n : Fin 2) : Stays d ps (.i2cStartOnFreeBus n) := by
  refine ⟨_, rfl, within_look fun s => ?_⟩
  cases s.i2cTx n with
  | none => exact within_skip
  | some t => dsimp only; fun_prop

section Wires

variable (h : ps.contains .I2C = true)
include h

theorem stays_i2cTransactionEnd (n : Fin 2) (addrAck dataAck : Bool) (rx : Byte) (freed : Bool) :
    Stays d ps (.i2cTransactionEnd n addrAck dataAck rx freed) := by
  have hn := n.isLt
  refine ⟨_, rfl, within_look fun s => ?_⟩
  cases s.i2cTx n with
  | none => exact within_skip
  | some t => dsimp only; fun_prop (disch := assumption)

theorem stays_arbitrationLost (n : Fin 2) : Stays d ps (.arbitrationLost n) := by
  have hn := n.isLt
  have hf : permits ps (pageOf (if n.val = 0 then I2C.STICKY.AARB else I2C.STICKY.BARB)) = true := by split <;> exact h
  refine ⟨_, rfl, within_look fun s => ?_⟩
  cases s.i2cTx n with
  | none => exact within_skip
  | some t => dsimp only; fun_prop (disch := assumption)

theorem stays_i2cLowTimeout (port : Fin 3) (sda : Bool) : Stays d ps (.i2cLowTimeout port sda) := by
  refine ⟨_, rfl, within_look fun s => within_whenA ?_⟩
  by_cases hp : port.val = 2
  · rw [if_pos hp]
    fun_prop (disch := assumption)
  · rw [if_neg hp]
    have hn : port.val < 2 := by omega
    refine within_cons ?_ (within_cons ?_ within_nil)
    · split <;> fun_prop (disch := assumption)
    · cases s.i2cTx port with
      | none => exact within_skip
      | some t => dsimp only; fun_prop (disch := assumption)

end Wires

theorem stays_hostWaitTimeout (h : ps.contains .HIF = true) : Stays d ps .hostWaitTimeout := by
  refine ⟨_, rfl, within_look fun s => ?_⟩
  cases s.hif.read with
  | none => exact within_skip
  | some r => dsimp only; fun_prop (disch := assumption)

/-- Every command of these blocks is an action within its frame. -/
theorem stays_of_timePages {c : Instr} (hc : timePages c = some ps) : Stays true ps c := by
  cases c with
  | thimbleDetectStart => cases hc; exact stays_thimbleDetectStart rfl
  | wakeFrameReceived crc code group k32 => cases hc; exact stays_wakeFrameReceived crc code group k32 rfl rfl
  | i2cStartOnFreeBus n => cases hc; exact stays_i2cStartOnFreeBus n
  | i2cTransactionEnd n addrAck dataAck rx freed => cases hc; exact stays_i2cTransactionEnd rfl n addrAck dataAck rx freed
  | arbitrationLost n => cases hc; exact stays_arbitrationLost rfl n
  | i2cLowTimeout port sda => cases hc; exact stays_i2cLowTimeout rfl port sda
  | hostWaitTimeout => cases hc; exact stays_hostWaitTimeout rfl
  | timerArm | timerStop | timerCmpWrite | timerFire | i2cWrite | i2cRead | busRecovery =>
    cases hc
    exact ⟨_, rfl, by fun_prop (disch := solve_by_elim [Fin.isLt])⟩
  | tbloRead | tickadjWrite | asnhiWrite | asnloWrite | asnloRead | tickenWrite | pllUnlock | pllRelock | k32Fail | k32Restart
  | thimbleRestart | thimbleSyncFound | intermediateCheckpoint | faultPop | injectShuout | injectBobctx | dbsetWrite
  | modereqWrite | domenWrite | xoStable | rtcsecWrite | vinFall | vinRestored | aonPowerOn | swtrig | gpioEdge
  | targetWriteReceived | targetRead | rxregRead | txregWrite | targetSclTimeout | targetWakeMatch | seg | badOpcode
  | hdbsetWrite | tapReset | extest | idcode | samplePreload | dbgap | bypass | debugHalt | debugStep | debugResume =>
    cases hc
    exact ⟨_, rfl, by fun_prop (disch := rfl)⟩
  | _ => cases hc

/-- Settles O11: every command of these blocks is an action within its frame, and no such action touches the Pattern RAM. -/
theorem timeFrames : Obligations.TimeFrames := by
  intro c s t ps hc hx
  have ho := (stays_of_timePages hc).outside hx
  exact ⟨ho.framed, ho.pat⟩

end Sys2Proof.Proofs
end

section
/-! The lamp drive's holds by heat, by the LMPEN ball and by the gate supply, its overrides and its relays (R37, R487, R488,
R491, R495 to R497, R500). -/

namespace Sys2Proof.Proofs

open Sys2Proof.Machine Sys2Proof.Laws

variable {α β : Type} {φ : State → α}

/-! Actions on each of several things, seen from one of them. -/

/-- A part of the state that only one of the actions touches is what that one makes of it. -/
theorem run_eachA_at {l : List β} {f : β → Act} {x : β} (hd : l.Nodup) (hx : x ∈ l)
    (hf : ∀ y ∈ l, y ≠ x → Fixes φ (f y)) (s : State) :
    ∃ u, φ u = φ s ∧ φ (Act.run (eachA l f) s) = φ (Act.run (f x) u) := by
  obtain ⟨l₁, l₂, rfl⟩ := List.append_of_mem hx
  obtain ⟨-, hd₂, hdis⟩ := List.nodup_append.mp hd
  have fixes_sub {m : List β} (hm : ∀ y ∈ m, y ∈ l₁ ++ x :: l₂ ∧ y ≠ x) : Fixes φ (eachA m f) := by
    induction m with
    | nil => exact fixes_nil
    | cons y m ih =>
      exact fixes_cons (hf y (hm y List.mem_cons_self).1 (hm y List.mem_cons_self).2)
        (ih fun z hz => hm z (List.mem_cons_of_mem _ hz))
  refine ⟨Act.run (eachA l₁ f) s, fixes_sub (fun y hy => ⟨List.mem_append_left _ hy, ?_⟩) s, ?_⟩
  · exact hdis y hy x List.mem_cons_self
  · rw [run_eachA_append, run_eachA_cons]
    refine fixes_sub (fun y hy => ⟨List.mem_append_right _ (List.mem_cons_of_mem _ hy), ?_⟩) _
    rintro rfl
    exact (List.nodup_cons.mp hd₂).1 hy

/-! What a state shows of a list of fields. -/

/-- The values of some fields. -/
def shown (gs : List Fld) (s : State) : List Nat := gs.map s.get

theorem shown_eq_iff {gs : List Fld} {s t : State} : shown gs s = shown gs t ↔ ∀ g ∈ gs, s.get g = t.get g := List.map_inj_left

theorem fixes_shown {gs : List Fld} {a : Act} (h : ∀ g ∈ gs, Keeps a g) : Fixes (shown gs) a :=
  fun s => shown_eq_iff.mpr fun g hg => h g hg s

theorem lamp_onLamp_ne {m n : Nat} (h : m ≠ n) (f : LampCh → LampCh) (s : State) :
    (Act.run (onLamp m f) s).lamp n = s.lamp n := by
  simp [onLamp, State.lamp, List.getD_eq_getElem?_getD, h]

/-- The fields of an array lie as its first does. -/
theorem fits_i {f : Fld} (n : Nat) (h : f.lo + f.width ≤ 32) : (f.i n).lo + (f.i n).width ≤ 32 := h

/-! A channel's entry into a state, and its answer to its enable and to the holds (R485, R487, R488). -/

/-- The fields that an entry into a state writes. -/
def enterFields (n : Nat) : List Fld := [LMP.CHSTAT.STATE.i n, LMP.CHSTAT.DIAG.i n]

theorem keeps_lampEnter {n : Nat} {g : Fld} (h : ∀ f ∈ enterFields n, apart f g = true) (st : Nat) :
    Keeps (lampEnter n st) g :=
  keeps_look fun _ => keeps_cons (keeps_put _ (fits_i n (by decide)) (h _ (by simp [enterFields])))
    (keeps_cons (keeps_put _ (fits_i n (by decide)) (h _ (by simp [enterFields]))) (keeps_cons (keeps_onLmp _ g) (keeps_nil g)))

theorem apart_state_diag : ∀ n < 4, apart (LMP.CHSTAT.STATE.i n) (LMP.CHSTAT.DIAG.i n) = true ∧
    apart (LMP.CHSTAT.DIAG.i n) (LMP.CHSTAT.STATE.i n) = true := by decide

theorem lampEnter_lampState {n : Nat} (hn : n < 4) {st : Nat} (hst : st < 8) (s : State) :
    (Act.run (lampEnter n st) s).lampState n = st := by
  rw [lampEnter, run_look, run_chain_cons, run_chain_cons, run_chain_cons, run_chain_nil, onLamp, run_onLmp, State.lampState,
    lmp_get, run_put, put_get_apart _ _ _ _ (fits_i n (by decide)) (apart_state_diag n hn).2, run_put,
    put_get_same _ _ _ (fits_i n (by decide))]
  exact Nat.mod_eq_of_lt hst

theorem lampEnter_diag (n st : Nat) (s : State) : (Act.run (lampEnter n st) s).get (LMP.CHSTAT.DIAG.i n) = 0 := by
  rw [lampEnter, run_look, run_chain_cons, run_chain_cons, run_chain_cons, run_chain_nil, onLamp, run_onLmp, lmp_get, run_put,
    put_get_same _ _ _ (fits_i n (by decide))]
  rfl

/-- The fields that decide what a channel does of itself. -/
def deciding (n : Nat) : List Fld :=
  [LMP.CHSTAT.STATE.i n, LMP.CHCTRL.EN.i n, SYS.ROLE.VAL, LMP.CTRL.ENPIN, LMP.STAT.NTCHOT, LMP.NTCCFG.NTCEN]

theorem apart_deciding : ∀ m < 4, ∀ n < 4, m ≠ n → ∀ g ∈ deciding n, ∀ f ∈ enterFields m, apart f g = true := by decide

/-- All that decides what a channel does of itself. -/
def lampView (n : Nat) (s : State) : List Nat × Option LampOvr × Bool × Bool :=
  (shown (deciding n) s, (s.lamp n).ovr, s.lmp.enBall, s.lmp.vgdOk)

section View

variable {n : Nat} {s t : State} (h : lampView n s = lampView n t)
include h

theorem get_of_lampView {g : Fld} (hg : g ∈ deciding n) : s.get g = t.get g :=
  shown_eq_iff.mp (Prod.mk.inj h).1 g hg

theorem lampState_of_view : s.lampState n = t.lampState n := get_of_lampView h (by simp [deciding])

theorem lampHeldHard_of_view : s.lampHeldHard = t.lampHeldHard := by
  obtain ⟨-, -, hb, hv⟩ := by simpa only [lampView, Prod.mk.injEq] using h
  simp only [State.lampHeldHard, State.is, get_of_lampView h (g := SYS.ROLE.VAL) (by simp [deciding]),
    get_of_lampView h (g := LMP.CTRL.ENPIN) (by simp [deciding]), hb, hv]

theorem lampHeld_of_view : s.lampHeld = t.lampHeld := by
  simp only [State.lampHeld, lampHeldHard_of_view h, State.ntcHot, State.is,
    get_of_lampView h (g := LMP.STAT.NTCHOT) (by simp [deciding]),
    get_of_lampView h (g := LMP.NTCCFG.NTCEN) (by simp [deciding])]

theorem lampWanted_of_view : s.lampWanted n = t.lampWanted n := by
  obtain ⟨-, ho, -, -⟩ := by simpa only [lampView, Prod.mk.injEq] using h
  simp only [State.lampWanted, ho, State.is, get_of_lampView h (g := LMP.CHCTRL.EN.i n) (by simp [deciding])]

end View

/-- What no entry into a state touches, a channel's answer leaves alone. -/
theorem fixes_settleLamp {n : Nat} (h : ∀ st, Fixes φ (lampEnter n st)) : Fixes φ (settleLamp n) :=
  fixes_look fun _ => fixes_ite (fixes_whenA (h 1)) (fixes_ite (fixes_whenA (h 0)) fixes_skip)

theorem fixes_lampView_settleLamp {m n : Nat} (hm : m < 4) (hn : n < 4) (hne : m ≠ n) : Fixes (lampView n) (settleLamp m) := by
  refine fixes_settleLamp fun st s => ?_
  have hs : shown (deciding n) (Act.run (lampEnter m st) s) = shown (deciding n) s :=
    fixes_shown (fun g hg => keeps_lampEnter (apart_deciding m hm n hn hne g hg) st) s
  have hl : (Act.run (lampEnter m st) s).lamp n = s.lamp n := lamp_onLamp_ne hne _ _
  rw [lampView, hs, hl]
  rfl

/-- A channel that is wanted and that nothing holds leaves OFF for START. -/
theorem settleLamp_starts {n : Nat} (hn : n < 4) {s : State} (h0 : s.lampState n = 0) (hw : s.lampWanted n = true)
    (hh : s.lampHeld = false) : (Act.run (settleLamp n) s).lampState n = 1 := by
  rw [settleLamp, run_look, h0, hw, hh]
  exact lampEnter_lampState hn (by decide) s

/-- A channel in START or ON that a hold other than heat's takes goes OFF. -/
theorem settleLamp_stops {n : Nat} (hn : n < 4) {s : State} (h12 : s.lampState n = 1 ∨ s.lampState n = 2)
    (hh : s.lampHeldHard = true) : (Act.run (settleLamp n) s).lampState n = 0 := by
  have h0 : (s.lampState n == 0) = false := by rcases h12 with h | h <;> rw [h] <;> rfl
  have h1 : (s.lampState n == 1 || s.lampState n == 2) = true := by rcases h12 with h | h <;> rw [h] <;> rfl
  rw [settleLamp, run_look, h0, if_neg Bool.false_ne_true, h1, if_pos rfl, hh, Bool.or_true, whenA_true]
  exact lampEnter_lampState hn (by decide) s

/-- While LAMP is reachable each channel answers for itself. -/
theorem settleLamps_at {n : Nat} (hn : n < 4) {s : State} (hr : s.reachable Dom.lamp = true) :
    ∃ u, lampView n u = lampView n s ∧ (Act.run settleLamps s).lampState n = (Act.run (settleLamp n) u).lampState n := by
  rw [settleLamps, run_look, hr, whenA_true]
  obtain ⟨u, hu, hx⟩ := run_eachA_at (φ := lampView n) List.nodup_range (List.mem_range.mpr hn)
    (fun m hm hne => fixes_lampView_settleLamp (List.mem_range.mp hm) hn hne) s
  exact ⟨u, hu, lampState_of_view hx⟩

theorem settleLamps_starts {n : Nat} (hn : n < 4) {s : State} (hr : s.reachable Dom.lamp = true) (h0 : s.lampState n = 0)
    (hw : s.lampWanted n = true) (hh : s.lampHeld = false) : (Act.run settleLamps s).lampState n = 1 := by
  obtain ⟨u, hu, hx⟩ := settleLamps_at hn hr
  rw [hx]
  exact settleLamp_starts hn ((lampState_of_view hu).trans h0) ((lampWanted_of_view hu).trans hw) ((lampHeld_of_view hu).trans hh)

theorem settleLamps_stops {n : Nat} (hn : n < 4) {s : State} (hr : s.reachable Dom.lamp = true)
    (h12 : s.lampState n = 1 ∨ s.lampState n = 2) (hh : s.lampHeldHard = true) : (Act.run settleLamps s).lampState n = 0 := by
  obtain ⟨u, hu, hx⟩ := settleLamps_at hn hr
  rw [hx]
  exact settleLamp_stops hn (by rwa [lampState_of_view hu]) ((lampHeldHard_of_view hu).trans hh)

/-- What no channel's entry into a state touches. -/
theorem fixes_settleLamps (h : ∀ n < 4, ∀ st, Fixes φ (lampEnter n st)) : Fixes φ settleLamps :=
  fixes_look fun _ => fixes_whenA (fixes_cons (fixes_settleLamp (h 0 (by decide))) (fixes_cons (fixes_settleLamp (h 1 (by decide)))
    (fixes_cons (fixes_settleLamp (h 2 (by decide))) (fixes_cons (fixes_settleLamp (h 3 (by decide))) fixes_nil))))

/-! A channel's fault by heat (R487, R491, R492). -/

/-- The fields that a fault by heat of a channel writes. -/
def heatFields (n : Nat) : List Fld := enterFields n ++
  [LMP.OTCNT.CNT, LMP.FLOG.V.i n, LMP.FLOG.KIND.i n, LMP.FLOG.LOCK.i n, LMP.FLOGTB.TB.i n, LMP.STICKY.LOCKOUT]

theorem keeps_lampFaultOf_heat {n : Nat} {g : Fld} (h : ∀ f ∈ heatFields n, apart f g = true) : Keeps (lampFaultOf n 5) g := by
  have he : ∀ f ∈ enterFields n, apart f g = true := fun f hf => h f (List.mem_append_left _ hf)
  refine keeps_look fun s => keeps_cons (fun u => put_get_apart u LMP.OTCNT.CNT g _ (by decide) (h _ (by simp [heatFields])))
    (keeps_cons (keeps_put _ (fits_i n (by decide)) (h _ (by simp [heatFields])))
    (keeps_cons (keeps_put _ (fits_i n (by decide)) (h _ (by simp [heatFields])))
    (keeps_cons (keeps_put _ (fits_i n (by decide)) (h _ (by simp [heatFields])))
    (keeps_cons (keeps_put _ (fits_i n (by decide)) (h _ (by simp [heatFields])))
    (keeps_cons (keeps_ite ?_ ?_)
    (keeps_cons (keeps_whenA (keeps_stickI _ _ (by decide) (h _ (by simp [heatFields]))))
    (keeps_cons (keeps_onLmp _ g) (keeps_nil g))))))))
  · exact keeps_whenA (keeps_put _ (fits_i n (by decide)) (he _ (by simp [enterFields])))
  · exact keeps_cons (keeps_pulse _ g) (keeps_cons (keeps_onLmp _ g) (keeps_cons (keeps_lampEnter he 3) (keeps_nil g)))

/-- No fault takes time. -/
theorem fixes_tb_lampFaultOf (n kind : Nat) : Fixes State.tb (lampFaultOf n kind) := by
  have he : ∀ st, Fixes State.tb (lampEnter n st) := fun st =>
    fixes_look fun _ => fixes_cons (fun _ => rfl) (fixes_cons (fun _ => rfl) (fixes_cons (fun _ => rfl) fixes_nil))
  refine fixes_look fun s => fixes_cons (fun _ => rfl) (fixes_cons (fun _ => rfl) (fixes_cons (fun _ => rfl)
    (fixes_cons (fun _ => rfl) (fixes_cons (fun _ => rfl) (fixes_cons (fixes_ite (fixes_whenA fun _ => rfl) ?_)
    (fixes_cons (fixes_whenA (fixes_stickI _ _ _ fun _ _ _ _ => rfl)) (fixes_cons (fun _ => rfl) fixes_nil)))))))
  exact fixes_cons (fun _ => rfl) (fixes_cons (fun _ => rfl) (fixes_cons (he _) fixes_nil))

/-- The fields that show a channel's fault. -/
def faultView (n : Nat) : List Fld :=
  [LMP.CHSTAT.STATE.i n, LMP.CHSTAT.DIAG.i n, LMP.FLOG.V.i n, LMP.FLOG.KIND.i n, LMP.FLOGTB.TB.i n]

theorem apart_faultView : ∀ m < 4, ∀ n < 4, m ≠ n → ∀ g ∈ faultView n, ∀ f ∈ heatFields m, apart f g = true := by decide

/-- What a fault by heat shows of a channel, and the time base. -/
def heatView (n : Nat) (s : State) : List Nat × Nat := (shown (faultView n) s, s.tb)

theorem fixes_heatView {m n : Nat} (hm : m < 4) (hn : n < 4) (hne : m ≠ n) : Fixes (heatView n) (lampFaultOf m 5) := fun s => by
  rw [heatView, fixes_shown (fun g hg => keeps_lampFaultOf_heat (apart_faultView m hm n hn hne g hg)) s,
    fixes_tb_lampFaultOf m 5 s]
  rfl

/-- The fault by heat of a channel that has taken none in this cycle: its fields, and its entry into FAULT. -/
theorem run_lampFaultOf_heat {n : Nat} {s : State} (h : s.justFaulted n = false) :
    Act.run (lampFaultOf n 5) s = Act.run (chain [count LMP.OTCNT.CNT, put (LMP.FLOG.V.i n) 1, put (LMP.FLOG.KIND.i n) 5,
      put (LMP.FLOG.LOCK.i n) 0, put (LMP.FLOGTB.TB.i n) (s.tb % 2 ^ 32),
      chain [pulse (9 + n), onLmp fun l => { l with left := l.left.set n (s.lampState n, s.lamp n) }, lampEnter n 3],
      whenA false (stickI LMP.STICKY.LOCKOUT n 0), onLamp n fun c => { c with faultAt := s.tb, onlyHot := true }]) s := by
  unfold lampFaultOf
  rw [run_look, h]
  simp only [lampCounter, bne_self_eq_false, Bool.false_and, Bool.or_false, Bool.false_eq_true, if_false, Bool.not_false,
    beq_self_eq_true, Bool.true_and, Bool.true_or]

section Fault

variable {n p : Nat} {f : LmpSt → LmpSt} {a : Act} {k : LampCh → LampCh}

theorem keeps_enterFault {g : Fld} (h : ∀ f ∈ enterFields n, apart f g = true) :
    Keeps (chain [chain [pulse p, onLmp f, lampEnter n 3], whenA false a, onLamp n k]) g :=
  keeps_cons (keeps_cons (keeps_pulse _ g) (keeps_cons (keeps_onLmp _ g) (keeps_cons (keeps_lampEnter h 3) (keeps_nil g))))
    (keeps_cons (keeps_skip g) (keeps_cons (keeps_onLmp _ g) (keeps_nil g)))

theorem enterFault_get {g : Fld} (s : State) :
    (Act.run (chain [chain [pulse p, onLmp f, lampEnter n 3], whenA false a, onLamp n k]) s).get g =
      (Act.run (lampEnter n 3) (Act.run (onLmp f) (Act.run (pulse p) s))).get g := by
  rw [run_chain_cons, run_chain_cons, run_chain_cons, run_chain_cons, run_chain_cons, run_chain_cons]
  rfl

end Fault

/-- A field that an action writes first and its rest keeps. -/
theorem put_chain_get {g : Fld} {l : List Act} (hf : g.lo + g.width ≤ 32) (hl : Keeps (chain l) g) (v : Nat) (s : State) :
    (Act.run (chain (put g v :: l)) s).get g = v % 2 ^ g.width := by
  rw [run_chain_cons, hl, run_put, put_get_same _ _ _ hf]

theorem apart_log : ∀ n < 4,
    (∀ g ∈ [LMP.FLOG.V.i n, LMP.FLOG.KIND.i n, LMP.FLOGTB.TB.i n], ∀ f ∈ enterFields n, apart f g = true) ∧
    (∀ g ∈ [LMP.FLOG.V.i n, LMP.FLOG.KIND.i n], ∀ f ∈ [LMP.FLOG.LOCK.i n, LMP.FLOGTB.TB.i n], apart f g = true) ∧
    apart (LMP.FLOG.KIND.i n) (LMP.FLOG.V.i n) = true := by decide

/-- What the fault by heat of a channel shows. -/
theorem lampFaultOf_heat {n : Nat} (hn : n < 4) {s : State} (h : s.justFaulted n = false) :
    shown (faultView n) (Act.run (lampFaultOf n 5) s) = [3, 0, 1, 5, s.tb % 2 ^ 32] := by
  obtain ⟨hlog, hflog, hkind⟩ := apart_log n hn
  have keeps_log {g : Fld} (hg : g ∈ [LMP.FLOG.V.i n, LMP.FLOG.KIND.i n]) {l : List Act} (hl : Keeps (chain l) g) :
      Keeps (chain (put (LMP.FLOG.LOCK.i n) 0 :: put (LMP.FLOGTB.TB.i n) (s.tb % 2 ^ 32) :: l)) g :=
    keeps_cons (keeps_put _ (fits_i n (by decide)) (hflog g hg _ (by simp)))
      (keeps_cons (keeps_put _ (fits_i n (by decide)) (hflog g hg _ (by simp))) hl)
  have hst : (Act.run (lampFaultOf n 5) s).get (LMP.CHSTAT.STATE.i n) = 3 := by
    rw [run_lampFaultOf_heat h, run_chain_cons, run_chain_cons, run_chain_cons, run_chain_cons, run_chain_cons, enterFault_get]
    exact lampEnter_lampState hn (by decide) _
  have hdiag : (Act.run (lampFaultOf n 5) s).get (LMP.CHSTAT.DIAG.i n) = 0 := by
    rw [run_lampFaultOf_heat h, run_chain_cons, run_chain_cons, run_chain_cons, run_chain_cons, run_chain_cons, enterFault_get]
    exact lampEnter_diag n 3 _
  have hv : (Act.run (lampFaultOf n 5) s).get (LMP.FLOG.V.i n) = 1 := by
    rw [run_lampFaultOf_heat h, run_chain_cons, put_chain_get (fits_i n (by decide))]
    · rfl
    · exact keeps_cons (keeps_put _ (fits_i n (by decide)) hkind) (keeps_log (by simp) (keeps_enterFault (hlog _ (by simp))))
  have hk : (Act.run (lampFaultOf n 5) s).get (LMP.FLOG.KIND.i n) = 5 := by
    rw [run_lampFaultOf_heat h, run_chain_cons, run_chain_cons, put_chain_get (fits_i n (by decide))]
    · rfl
    · exact keeps_log (by simp) (keeps_enterFault (hlog _ (by simp)))
  have htb : (Act.run (lampFaultOf n 5) s).get (LMP.FLOGTB.TB.i n) = s.tb % 2 ^ 32 := by
    rw [run_lampFaultOf_heat h, run_chain_cons, run_chain_cons, run_chain_cons, run_chain_cons,
      put_chain_get (fits_i n (by decide)) (keeps_enterFault (hlog _ (by simp)))]
    exact Nat.mod_mod _ _
  simp only [shown, faultView, List.map_cons, List.map_nil, hst, hdiag, hv, hk, htb]

/-! Faults by heat of several channels. -/

theorem keeps_eachA_mem {l : List β} {f : β → Act} {g : Fld} (h : ∀ x ∈ l, Keeps (f x) g) : Keeps (eachA l f) g :=
  fun s => preserves_eachA (P := fun t => t.get g = s.get g) (fun x hx u hu => (h x hx u).trans hu) s rfl

theorem keeps_lampFault_heat {chans : List Nat} {g : Fld} (hb : ∀ m ∈ chans, m < 4) (hs : apart LMP.STICKY.OVERTEMP g = true)
    (h : ∀ m < 4, ∀ f ∈ heatFields m, apart f g = true) : Keeps (lampFault chans 5) g :=
  keeps_look fun _ => keeps_whenA (keeps_cons (keeps_stickI _ _ (by decide) hs)
    (keeps_cons (keeps_eachA_mem fun m hm => keeps_lampFaultOf_heat (h m (hb m (List.mem_of_mem_filter hm)))) (keeps_nil g)))

theorem justFaulted_of_runs {s : State} {n : Nat} (h : s.lampState n = 1 ∨ s.lampState n = 2) : s.justFaulted n = false := by
  rcases h with h | h <;> simp [State.justFaulted, h]

theorem apart_overtemp : ∀ m < 4, (∀ f ∈ heatFields m, apart f LMP.STICKY.OVERTEMP = true) ∧
    ∀ g ∈ faultView m, apart LMP.STICKY.OVERTEMP g = true := by decide

/-- A fault by heat of several channels shows in each of them that runs. -/
theorem lampFault_heat {chans : List Nat} (hd : chans.Nodup) (hb : ∀ m ∈ chans, m < 4) {n : Nat} (hn : n ∈ chans) {s : State}
    (h12 : s.lampState n = 1 ∨ s.lampState n = 2) :
    heatView n (Act.run (lampFault chans 5) s) = ([3, 0, 1, 5, s.tb % 2 ^ 32], s.tb) ∧
      (Act.run (lampFault chans 5) s).is LMP.STICKY.OVERTEMP = true := by
  let l := chans.filter fun m => s.lampState m == 1 || s.lampState m == 2 || s.justFaulted m
  have hnl : n ∈ l := List.mem_filter.mpr ⟨hn, by rcases h12 with h | h <;> simp [h]⟩
  have hlb : ∀ m ∈ l, m < 4 := fun m hm => hb m (List.mem_of_mem_filter hm)
  let s₁ := Act.run (stickI LMP.STICKY.OVERTEMP (l.headD 0) (l.foldl (fun m n => m + 2 ^ n) 0)) s
  have hrun : Act.run (lampFault chans 5) s = Act.run (eachA l fun m => lampFaultOf m 5) s₁ := by
    have hne : (!l.isEmpty) = true := by
      rw [List.isEmpty_eq_false_iff_exists_mem.mpr ⟨n, hnl⟩]
      rfl
    change Act.run (whenA (!l.isEmpty) _) s = _
    rw [hne, whenA_true, run_chain_cons, run_chain_cons, run_chain_nil]
    rfl
  have hview : heatView n s₁ = heatView n s := by
    have hs : shown (faultView n) s₁ = shown (faultView n) s :=
      fixes_shown (fun g hg => keeps_stickI _ _ (by decide) ((apart_overtemp n (hb n hn)).2 g hg)) s
    have ht : s₁.tb = s.tb := fixes_stickI (φ := State.tb) _ _ _ (fun _ _ _ _ => rfl) s
    rw [heatView, hs, ht]
    rfl
  rw [hrun]
  constructor
  · obtain ⟨u, hu, hx⟩ := run_eachA_at (φ := heatView n) (hd.filter _) hnl
      (fun m hm hne => fixes_heatView (hlb m hm) (hb n hn) hne) s₁
    obtain ⟨hsh, htb⟩ := Prod.mk.inj (hu.trans hview)
    have hst : u.lampState n = s.lampState n := shown_eq_iff.mp hsh _ (by simp [faultView])
    rw [hx, heatView, lampFaultOf_heat (hb n hn) (justFaulted_of_runs (by rwa [hst])), fixes_tb_lampFaultOf n 5 u, htb]
  · exact preserves_eachA (P := fun t => t.is LMP.STICKY.OVERTEMP = true)
      (fun m hm u hu => by simpa only [State.is, keeps_lampFaultOf_heat (apart_overtemp m (hlb m hm)).1 u] using hu) s₁
      (stickI_is _ _ _ s rfl (by decide))

/-! The commands. -/

theorem apart_ntc : ∀ m < 4, ∀ f ∈ heatFields m, apart f LMP.STAT.NTCHOT = true ∧ apart f LMP.NTCV.MV = true := by decide

theorem runs_of_lampRuns {s : State} {n : Nat} (h : s.lampRuns n = true) : s.lampState n = 1 ∨ s.lampState n = 2 := by
  simp only [State.lampRuns, Bool.and_eq_true, Bool.or_eq_true, beq_iff_eq] at h
  exact h.2

/-- A channel that has taken no fault in this cycle is as it was before. -/
theorem beforeFault_of_runs {s : State} {n : Nat} (h : s.lampState n = 1 ∨ s.lampState n = 2) : s.beforeFault n = s := by
  rw [State.beforeFault, justFaulted_of_runs h]
  rfl

/-- What a fault by heat shows is what the statement asks of it. -/
theorem lampFaulted_of_heatView {s t : State} {n x : Nat} (h : heatView n t = ([3, 0, 1, 5, x % 2 ^ 32], x))
    (ho : t.is LMP.STICKY.OVERTEMP = true) (hs : SameStore s t) : LampFaulted s t n 5 := by
  obtain ⟨hsh, rfl⟩ := Prod.mk.inj h
  simp only [shown, faultView, List.map_cons, List.map_nil, List.cons.injEq] at hsh
  obtain ⟨hst, hdiag, hv, hk, htb, -⟩ := hsh
  exact ⟨hst, hk, by rw [State.is, hv]; rfl, hdiag, htb, ho, hs⟩

theorem apart_ntc_state : ∀ n < 4, apart LMP.STAT.NTCHOT (LMP.CHSTAT.STATE.i n) = true ∧
    apart LMP.NTCV.MV (LMP.CHSTAT.STATE.i n) = true := by decide

/-- Heat above the threshold faults every channel that runs (R487, R491). -/
theorem completes_ntcHot {s : State} {mv : Nat} (hon : s.domOn Dom.lamp = true) (hen : s.is LMP.NTCCFG.NTCEN = true)
    (hhot : s.is LMP.STAT.NTCHOT = false) (hmv : mv < s.get LMP.NTCCFG.NTCTH * 4) :
    Completes (.ntcHot mv) s fun t => t.is LMP.STAT.NTCHOT = true ∧ t.get LMP.NTCV.MV = mv % 4096 ∧
      (∀ n < 4, s.lampRuns n = true → LampFaulted s t n 5) ∧ SameStore s t := by
  let chans := (List.range 4).filter fun n => (s.beforeFault n).lampRuns n
  have hb : ∀ m ∈ chans, m < 4 := fun m hm => List.mem_range.mp (List.mem_of_mem_filter hm)
  let s₁ := Eff.apply (Eff.apply s (.put LMP.NTCV.MV mv)) (.put LMP.STAT.NTCHOT 1)
  have hx : exec (.ntcHot mv) s = .next (Act.run (lampFault chans 5) s₁) := by
    show act _ s = _
    rw [act_next, run_look, hon, hen, hhot, decide_eq_true hmv, Bool.not_false, Bool.and_true, Bool.and_true, whenA_true,
      whenA_true, run_chain_cons, run_chain_cons, run_chain_nil, run_chain_cons, run_chain_cons, run_chain_nil]
    rfl
  have ho := (stays_of_drivePages rfl).outside hx
  refine ⟨_, hx, ?_, ?_, fun n hn hr => ?_, ⟨ho.mem, ho.pat⟩⟩
  · rw [State.is, keeps_lampFault_heat hb (by decide) (fun m hm f hf => (apart_ntc m hm f hf).1), put_get_same _ _ _ (by decide)]
    rfl
  · rw [keeps_lampFault_heat hb (by decide) (fun m hm f hf => (apart_ntc m hm f hf).2),
      put_get_apart _ _ _ _ (by decide) (by decide), put_get_same _ _ _ (by decide)]
    rfl
  · have h12 := runs_of_lampRuns hr
    have hst : s₁.lampState n = s.lampState n := by
      rw [State.lampState, put_get_apart _ _ _ _ (by decide) (apart_ntc_state n hn).1,
        put_get_apart _ _ _ _ (by decide) (apart_ntc_state n hn).2]
      rfl
    have hmem : n ∈ chans := List.mem_filter.mpr ⟨List.mem_range.mpr hn, by rwa [beforeFault_of_runs h12]⟩
    obtain ⟨hview, hover⟩ := lampFault_heat (List.nodup_range.filter _) hb hmem (s := s₁) (by rwa [hst])
    exact lampFaulted_of_heatView hview hover ⟨ho.mem, ho.pat⟩

theorem reachable_of {s t : State} {d : Nat} (hd : t.get (PWR.STAT.DOMON.bit d) = s.get (PWR.STAT.DOMON.bit d))
    (hp : t.pwr = s.pwr) : t.reachable d = s.reachable d := by
  simp only [State.reachable, State.domOn, State.is, hd, hp]

/-- The fields that decide what a channel does of itself, but for the latch of heat, and whether LAMP is on. -/
theorem apart_cool : ∀ n < 4,
    (∀ f ∈ [LMP.NTCV.MV, LMP.STAT.NTCHOT], ∀ g ∈ [LMP.CHSTAT.STATE.i n, LMP.CHCTRL.EN.i n], apart f g = true) ∧
    (∀ f ∈ enterFields n, apart f LMP.STAT.NTCHOT = true) := by decide

/-- The latch of heat clears above its hysteresis, and the channels that wait for it start (R488). -/
theorem completes_ntcCool {s : State} {mv : Nat} (hon : s.domOn Dom.lamp = true) (hhot : s.is LMP.STAT.NTCHOT = true)
    (hmv : (s.get LMP.NTCCFG.NTCTH + s.get LMP.NTCCFG.NTCHYS) * 4 < mv) :
    Completes (.ntcCool mv) s fun t => t.is LMP.STAT.NTCHOT = false ∧
      (∀ n < 4, s.lampState n = 0 → s.lampWanted n = true → s.lampHeldHard = false → s.reachable Dom.lamp = true →
        t.lampState n = 1) ∧ SameStore s t := by
  let s₁ := Eff.apply (Eff.apply s (.put LMP.NTCV.MV mv)) (.put LMP.STAT.NTCHOT 0)
  have hx : exec (.ntcCool mv) s = .next (Act.run settleLamps s₁) := by
    show act _ s = _
    rw [act_next, run_look, hon, hhot, decide_eq_true hmv, Bool.and_true, whenA_true, whenA_true, run_chain_cons, run_chain_cons,
      run_chain_nil, run_chain_cons, run_chain_cons, run_chain_nil]
    rfl
  have hget {g : Fld} (hv : apart LMP.NTCV.MV g = true) (hh : apart LMP.STAT.NTCHOT g = true) : s₁.get g = s.get g := by
    rw [put_get_apart _ _ _ _ (by decide) hh, put_get_apart _ _ _ _ (by decide) hv]
  have hcool : s₁.is LMP.STAT.NTCHOT = false := put_is_same _ _ _ rfl (by decide)
  have ho := (stays_of_drivePages rfl).outside hx
  refine ⟨_, hx, ?_, fun n hn h0 hw hh hr => ?_, ⟨ho.mem, ho.pat⟩⟩
  · have hk : Keeps settleLamps LMP.STAT.NTCHOT :=
      fixes_settleLamps (φ := fun t => t.get LMP.STAT.NTCHOT) fun n hn st => keeps_lampEnter (apart_cool n hn).2 st
    rw [State.is, hk s₁]
    exact hcool
  · have ha := (apart_cool n hn).1
    refine settleLamps_starts hn ?_ ?_ ?_ ?_
    · rwa [reachable_of (s := s) (hget (by decide) (by decide)) rfl]
    · rw [State.lampState, hget (ha _ (by simp) _ (by simp)) (ha _ (by simp) _ (by simp))]
      exact h0
    · have he : s₁.is (LMP.CHCTRL.EN.i n) = s.is (LMP.CHCTRL.EN.i n) := by
        rw [State.is, hget (ha _ (by simp) _ (by simp)) (ha _ (by simp) _ (by simp))]
        rfl
      rw [State.lampWanted, he]
      exact hw
    · rw [State.lampHeld, State.ntcHot, hcool, Bool.false_and, Bool.or_false, State.lampHeldHard, State.is,
        hget (g := SYS.ROLE.VAL) (by decide) (by decide), hget (g := LMP.CTRL.ENPIN) (by decide) (by decide)]
      exact hh

/-- An entry into a state leaves the levels from outside alone. -/
theorem fixes_lampEnter_levels (h : ∀ (s : State) (c : List LampCh), φ (Eff.apply s (.lmp { s.lmp with ch := c })) = φ s)
    (hp : ∀ f v, Fixes φ (put f v)) (n st : Nat) : Fixes φ (lampEnter n st) :=
  fixes_look fun _ => fixes_cons (hp _ _) (fixes_cons (hp _ _) (fixes_cons (fun s => h s _) fixes_nil))

/-- The ball's level, and with the pin enabled and low no channel runs (R37, R487). -/
theorem completes_lmpenChange (s : State) (level : Bool) : Completes (.lmpenChange level) s fun t => t.lmp.enBall = level ∧
    (level = false → s.is LMP.CTRL.ENPIN = true → s.reachable Dom.lamp = true → ∀ n < 4,
      (s.lampState n = 1 ∨ s.lampState n = 2) → t.lampState n = 0) ∧ SameStore s t := by
  let s₁ := Eff.apply s (.lmp { s.lmp with enBall := level })
  have hx : exec (.lmpenChange level) s = .next (Act.run settleLamps s₁) := by
    show act _ s = _
    rw [act_next, run_chain_cons, run_chain_cons, run_chain_nil]
    rfl
  have ho := (stays_of_drivePages rfl).outside hx
  refine ⟨_, hx, ?_, fun hl hp hr n hn h12 => ?_, ⟨ho.mem, ho.pat⟩⟩
  · exact fixes_settleLamps (φ := fun t => t.lmp.enBall)
      (fun n _ st => fixes_lampEnter_levels (fun _ _ => rfl) (fun _ _ _ => rfl) n st) s₁
  · refine settleLamps_stops (s := s₁) hn hr h12 ?_
    have hb : s₁.lmp.enBall = false := hl
    rw [State.lampHeldHard, hb, show s₁.is LMP.CTRL.ENPIN = true from hp]
    simp

theorem apart_vgduv : (∀ n < 4, apart LMP.STICKY.VGDUV (LMP.CHSTAT.STATE.i n) = true ∧
    ∀ f ∈ enterFields n, apart f LMP.STICKY.VGDUV = true) ∧ apart LMP.STICKY.VGDUV (PWR.STAT.DOMON.bit Dom.lamp) = true := by
  decide

/-- The gate supply's level, and below its threshold no channel runs (R37, R488). -/
theorem completes_vgdChange (s : State) (mv : Nat) : Completes (.vgdChange mv) s fun t =>
    t.lmp.vgdOk = decide ((if s.lmp.vgdOk then 9000 else 9500) ≤ mv) ∧ t.lmp.vgdHere = decide (3000 ≤ mv) ∧
      (mv < 9000 → s.reachable Dom.lamp = true → (s.lmp.vgdOk = true → t.is LMP.STICKY.VGDUV = true) ∧
        ∀ n < 4, (s.lampState n = 1 ∨ s.lampState n = 2) → t.lampState n = 0) ∧ SameStore s t := by
  let s₁ := Act.run (whenA (s.domOn Dom.lamp && s.lmp.vgdOk && mv < s.vgdThreshold) (stick LMP.STICKY.VGDUV)) s
  let s₂ := Eff.apply s₁ (.lmp { s₁.lmp with
    vgdOk := decide (mv ≥ s.vgdThreshold), vgdHere := decide (mv ≥ 3000) })
  have hx : exec (.vgdChange mv) s = .next (Act.run settleLamps s₂) := by
    show act _ s = _
    rw [act_next, run_look, run_chain_cons, run_chain_cons, run_chain_cons, run_chain_nil]
    rfl
  have hlevels {φ : State → Bool} (h : ∀ (s : State) (c : List LampCh), φ (Eff.apply s (.lmp { s.lmp with ch := c })) = φ s)
      (hp : ∀ f v, Fixes φ (put f v)) : φ (Act.run settleLamps s₂) = φ s₂ :=
    fixes_settleLamps (fun n _ st => fixes_lampEnter_levels h hp n st) s₂
  have ho := (stays_of_drivePages rfl).outside hx
  obtain ⟨hap, hpow⟩ := apart_vgduv
  refine ⟨_, hx, ?_, ?_, fun hmv hr => ⟨fun hok => ?_, fun n hn h12 => ?_⟩, ⟨ho.mem, ho.pat⟩⟩
  · exact hlevels (φ := fun t => t.lmp.vgdOk) (fun _ _ => rfl) fun _ _ _ => rfl
  · exact hlevels (φ := fun t => t.lmp.vgdHere) (fun _ _ => rfl) fun _ _ _ => rfl
  · have hk : Keeps settleLamps LMP.STICKY.VGDUV :=
      fixes_settleLamps (φ := fun t => t.get LMP.STICKY.VGDUV) fun n hn st => keeps_lampEnter (hap n hn).2 st
    have hd : s.domOn Dom.lamp = true := (Bool.and_eq_true_iff.mp hr).1
    have hs₁ : s₁ = Act.run (stick LMP.STICKY.VGDUV) s := by
      show Act.run (whenA _ _) s = _
      rw [hd, hok, State.vgdThreshold, hok, if_pos rfl, decide_eq_true hmv]
      rfl
    rw [State.is, hk s₂]
    show s₁.is LMP.STICKY.VGDUV = true
    rw [hs₁]
    exact stick_is _ _ rfl (by decide)
  · have hkeep {g : Fld} (hg : apart LMP.STICKY.VGDUV g = true) : s₂.get g = s.get g :=
      keeps_whenA (keeps_stick (by decide) hg) s
    have hpwr : s₂.pwr = s.pwr := fixes_whenA (φ := State.pwr) (fixes_stick _ fun _ _ _ _ => rfl) s
    have hbad : s₂.lmp.vgdOk = false := by
      refine decide_eq_false fun hge => ?_
      have ht : 9000 ≤ s.vgdThreshold := by rw [State.vgdThreshold]; split <;> decide
      omega
    refine settleLamps_stops (s := s₂) hn (by rwa [reachable_of (s := s) (hkeep hpow) hpwr]) ?_ ?_
    · rw [State.lampState, hkeep (hap n hn).1]
      exact h12
    · rw [State.lampHeldHard, hbad]
      simp

/-! Overrides (R496). -/

theorem lamp_onLamp (n : Nat) (f : LampCh → LampCh) (s : State) :
    (Act.run (onLamp n f) s).lamp n = if n < s.lmp.ch.length then f (s.lamp n) else {} := by
  by_cases h : n < s.lmp.ch.length
  · simp [onLamp, State.lamp, List.getD_eq_getElem?_getD, h]
  · simp [onLamp, State.lamp, List.getD_eq_getElem?_getD, h]

/-- An entry into a state leaves a channel's override alone. -/
theorem fixes_ovr_lampEnter (n st : Nat) : Fixes (fun t => (t.lamp n).ovr) (lampEnter n st) := by
  refine fixes_look fun s => fixes_cons (fun _ => rfl) (fixes_cons (fun _ => rfl) (fixes_cons (fun t => ?_) fixes_nil))
  rw [lamp_onLamp]
  split
  · rfl
  · rename_i h
    rw [State.lamp, List.getD_eq_default _ _ (by omega)]

theorem fixes_lampClear {n : Nat} (h : ∀ st, Fixes φ (lampEnter n st)) (hr : Fixes φ (put (LMP.CHSTAT.RETRIES.i n) 0)) :
    Fixes φ (lampClear n) := fixes_look fun _ => fixes_whenA (fixes_cons (h 0) (fixes_cons hr fixes_nil))

theorem apart_ovr : ∀ n < 4, ∀ g ∈ [LMP.CHSTAT.OVR.i n, LMP.STICKY.OVR],
    (∀ f ∈ enterFields n, apart f g = true) ∧ apart (LMP.CHSTAT.RETRIES.i n) g = true := by decide

/-- What follows the release of an override. -/
theorem fixes_afterOvr {n : Nat} {c : Bool} (h : ∀ st, Fixes φ (lampEnter n st))
    (hr : Fixes φ (put (LMP.CHSTAT.RETRIES.i n) 0)) : Fixes φ (chain [whenA c (lampClear n), settleLamp n]) :=
  fixes_cons (fixes_whenA (fixes_lampClear h hr)) (fixes_cons (fixes_settleLamp h) fixes_nil)

/-- An override that ends releases its channel (R496). -/
theorem completes_overrideExpire {s : State} {n : Fin 4} {o : LampOvr} {at_ : Nat} (ho : (s.lamp n).ovr = some o)
    (he : o.ends = some at_) : Completes (.overrideExpire n) s fun t =>
      (t.lamp n).ovr = none ∧ t.is (LMP.CHSTAT.OVR.i n) = false ∧ t.is LMP.STICKY.OVR = true ∧ SameStore s t := by
  let s₁ := Act.run (until_ (at_ + 1)) s
  let s₂ := Eff.apply (Act.run (onLamp n fun c => { c with ovr := none }) s₁) (.put (LMP.CHSTAT.OVR.i n) 0)
  let rest := chain [whenA (!s₁.is (LMP.CHCTRL.EN.i n)) (lampClear n), settleLamp n]
  have hx : exec (.overrideExpire n) s = .next (Act.run rest (Act.run (stickI LMP.STICKY.OVR n 0) s₂)) := by
    have hl : s₁.lamp n = s.lamp n := fixes_until (φ := (State.lamp · n)) (fun _ _ => rfl) _ s
    show act _ s = _
    rw [act_next, run_look, ho]
    dsimp only
    rw [he]
    dsimp only
    rw [run_chain_cons, run_chain_cons, run_chain_nil]
    show Host.Outcome.next (Act.run (overrideEnd n) s₁) = _
    rw [overrideEnd, run_look, hl, ho, Option.isSome_some, whenA_true, run_chain_cons, run_chain_cons, run_chain_cons]
    rfl
  have hkeep {g : Fld} (hg : g ∈ [LMP.CHSTAT.OVR.i n, LMP.STICKY.OVR]) : Keeps rest g := by
    obtain ⟨hen, hre⟩ := apart_ovr n n.isLt g hg
    exact fixes_afterOvr (φ := fun t => t.get g) (keeps_lampEnter hen) (keeps_put 0 (fits_i _ (by decide)) hre)
  have hout := (stays_of_drivePages rfl).outside hx
  refine ⟨_, hx, ?_, ?_, ?_, ⟨hout.mem, hout.pat⟩⟩
  · have hr : Fixes (fun t => (t.lamp n).ovr) rest := fixes_afterOvr (fixes_ovr_lampEnter n) fun _ => rfl
    have hs : Fixes (fun t => (t.lamp n).ovr) (stickI LMP.STICKY.OVR n 0) := fixes_stickI _ _ _ fun _ _ _ _ => rfl
    refine (hr _).trans ((hs _).trans ?_)
    show ((Act.run (onLamp n _) s₁).lamp n).ovr = none
    rw [lamp_onLamp]
    split <;> rfl
  · have ha : ∀ n < 4, apart LMP.STICKY.OVR (LMP.CHSTAT.OVR.i n) = true := by decide
    rw [State.is, hkeep (by simp), keeps_stickI _ _ (by decide) (ha n n.isLt), put_get_same _ _ _ (fits_i _ (by decide))]
    rfl
  · rw [State.is, hkeep (by simp)]
    exact stickI_is _ _ _ s₂ rfl (by decide)

/-! Relays (R37, R497, R500). -/

theorem relay_onRelay {r : Nat} (f : Relay → Relay) {s : State} (h : r < s.lmp.relay.length) :
    (Act.run (onRelay r f) s).relay r = f (s.relay r) := by
  simp [onRelay, State.relay, List.getD_eq_getElem?_getD, h]

theorem relay_onRelay_ne {r q : Nat} (h : q ≠ r) (f : Relay → Relay) (s : State) :
    (Act.run (onRelay q f) s).relay r = s.relay r := by
  simp [onRelay, State.relay, List.getD_eq_getElem?_getD, h]

/-- The commands of a relay's two directions are writes of RLYCTRL. -/
theorem exec_relay {i : Initiator} {r : Fin 2} {x : Nat × Instr} (hx : x ∈ [(1, Instr.relaySet i r), (2, .relayReset i r)]) :
    (x.1 = 1 ∨ x.1 = 2) ∧ drivePages x.2 = some [.SYS, .PWR, .VIF, .LMP] ∧
      ∀ s, Opens s i LMP.RLYCTRL 0 true → exec x.2 s = .next (Act.run (writeRelay (x.1 * 16 ^ r.val)) s) := by
  have hrun {c : Instr} {w : Nat} (hc : ∀ s, exec c s = act (atRegister i 0 LMP.RLYCTRL true (writeRelay w)) s) (s : State)
      (h : Opens s i LMP.RLYCTRL 0 true) : exec c s = .next (Act.run (writeRelay w) s) := by
    rw [hc, act_next, run_atRegister _ h]
  simp only [List.mem_cons, List.not_mem_nil, or_false] at hx
  obtain rfl | rfl := hx
  · exact ⟨.inl rfl, rfl, hrun fun _ => rfl⟩
  · exact ⟨.inr rfl, rfl, hrun fun _ => rfl⟩

theorem run_writeRelay_none {s : State} (h : s.get SYS.ROLE.VAL = 0) (w : Nat) : Act.run (writeRelay w) s = s := by
  rw [writeRelay, run_look, h]
  rfl

/-- A word with one relay's direction is a request of that relay (R497). -/
theorem run_writeRelay {s : State} (h : s.get SYS.ROLE.VAL ≠ 0) {k : Nat} (hk : k = 1 ∨ k = 2) (r : Fin 2) :
    Act.run (writeRelay (k * 16 ^ r.val)) s = Act.run (relayRequest r k) s := by
  have hr : ∀ r : Fin 2, ∀ k ∈ [1, 2], bits (k * 16 ^ r.val) 1 0 = (if r = 0 then k else 0) ∧
      bits (k * 16 ^ r.val) 5 4 = (if r = 0 then 0 else k) := by decide
  obtain ⟨hlo, hhi⟩ := hr r k (by simpa using hk)
  rw [writeRelay, run_look, beq_false_of_ne h, if_neg Bool.false_ne_true, hlo, hhi, run_chain_cons, run_chain_cons, run_chain_cons,
    run_chain_nil]
  obtain rfl | rfl := hk <;> fin_cases r <;> rfl

/-- The fields of a relay lie in one register, and are apart. -/
theorem relayFld_apart : ∀ r < 2, (∀ f ∈ [(relayFld r).1, (relayFld r).2.1, (relayFld r).2.2], f.lo + f.width ≤ 32) ∧
    apart (relayFld r).1 (relayFld r).2.1 = true ∧ apart (relayFld r).2.1 (relayFld r).1 = true ∧
    apart (relayFld r).2.2 (relayFld r).1 = true ∧ (relayFld r).1.width = 1 ∧ (relayFld r).2.1.width = 1 ∧
    (relayFld r).2.2.width = 2 := by decide

/-- A relay's pulse starts at once (R497). -/
theorem relayStart_starts {r : Nat} (hr : r < 2) (dir : Nat) {s : State} (hl : s.lmp.relay.length = 2) :
    (Act.run (relayStart r dir) s).relay r = { pulse := some (dir, s.tb), waits := none } ∧
      (Act.run (relayStart r dir) s).tb = s.tb ∧ (Act.run (relayStart r dir) s).is (relayFld r).1 = true ∧
      (Act.run (relayStart r dir) s).is (relayFld r).2.1 = false := by
  obtain ⟨hfit, -, hwp, -, hp, hw, -⟩ := relayFld_apart r hr
  rw [relayStart, run_look, run_chain_cons, run_chain_cons, run_chain_cons, run_chain_nil, run_put, run_put]
  refine ⟨relay_onRelay _ (by omega), rfl, ?_, ?_⟩
  · rw [put_is_apart _ _ (hfit _ (by simp)) hwp, put_is_same _ _ _ hp (by have := hfit _ List.mem_cons_self; omega)]
    rfl
  · rw [put_is_same _ _ _ hw (by have := hfit (relayFld r).2.1 (by simp); omega)]
    rfl

section Requests

variable {s : State} {i : Initiator} {r : Fin 2} {x : Nat × Instr} (hx : x ∈ [(1, Instr.relaySet i r), (2, .relayReset i r)])
  (ho : Opens s i LMP.RLYCTRL 0 true)
include hx ho

/-- With ROLE = NONE a relay's command changes nothing (R37). -/
theorem exec_relay_none (h : s.get SYS.ROLE.VAL = 0) : exec x.2 s = .next s := by
  rw [(exec_relay hx).2.2 s ho, run_writeRelay_none h]

variable (hrole : s.get SYS.ROLE.VAL ≠ 0)
include hrole

/-- A relay's command is its request, and leaves memory and the Pattern RAM alone. -/
theorem completes_relay {P : State → Prop} (hp : P (Act.run (relayRequest r x.1) s)) :
    Completes x.2 s fun t => P t ∧ SameStore s t := by
  obtain ⟨hk, hc, hrun⟩ := exec_relay hx
  have he := hrun s ho
  rw [run_writeRelay hrole hk] at he
  have hout := (stays_of_drivePages hc).outside he
  exact ⟨_, he, hp, hout.mem, hout.pat⟩

theorem completes_relay_busy (h : (s.relay r).pulse.isSome = true ∨ (s.relay r).waits.isSome = true) :
    Completes x.2 s fun t => (t.is LMP.STICKY.RLYBUSY = true ∧ t.lmp = s.lmp) ∧ SameStore s t := by
  have hb : ((s.relay r).pulse.isSome || (s.relay r).waits.isSome) = true := Bool.or_eq_true_iff.mpr h
  refine completes_relay hx ho hrole ?_
  rw [relayRequest, run_look, hb, if_pos rfl]
  exact ⟨stick_is _ _ rfl (by decide), fixes_stick (φ := State.lmp) _ (fun _ _ _ _ => rfl) s⟩

theorem completes_relay_waits (hl : s.lmp.relay.length = 2) (hp : (s.relay r).pulse = none) (hw : (s.relay r).waits = none)
    (h : (s.relay (1 - r.val)).pulse.isSome = true) : Completes x.2 s fun t =>
      ((t.relay r).waits = some x.1 ∧ (t.relay r).pulse = none ∧ t.is (relayFld r).2.1 = true) ∧ SameStore s t := by
  obtain ⟨hfit, -, -, -, -, hwidth, -⟩ := relayFld_apart r r.isLt
  have hne : 1 - r.val ≠ r.val := by omega
  refine completes_relay hx ho hrole ?_
  rw [relayRequest, run_look, hp, hw, h]
  simp only [Option.isSome_none, Bool.or_false, Bool.false_eq_true, if_false, Bool.true_or, if_true]
  rw [run_chain_cons, run_chain_cons, run_chain_cons, run_chain_nil, run_put]
  have hrel : ∀ u : State, (Act.run (onRelay (1 - r.val) fun y => { y with behind := false }) u).relay r = u.relay r :=
    relay_onRelay_ne hne _
  have hrel' := (hrel _).trans (relay_onRelay (s := s) (r := r)
    (fun _ => { waits := some x.1, behind := (s.relay (1 - r.val)).waits.isSome }) (by omega))
  refine ⟨congrArg Relay.waits hrel', congrArg Relay.pulse hrel', ?_⟩
  rw [put_is_same _ _ _ hwidth (by have := hfit (relayFld r).2.1 (by simp); omega)]
  rfl

theorem completes_relay_starts (hl : s.lmp.relay.length = 2) (hp : (s.relay r).pulse = none) (hw : (s.relay r).waits = none)
    (hp' : (s.relay (1 - r.val)).pulse = none) (hw' : (s.relay (1 - r.val)).waits = none) : Completes x.2 s fun t =>
      ((t.relay r).pulse = some (x.1, s.tb) ∧ t.is (relayFld r).1 = true) ∧ SameStore s t := by
  refine completes_relay hx ho hrole ?_
  rw [relayRequest, run_look, hp, hw, hp', hw']
  simp only [Option.isSome_none, Bool.or_false, Bool.false_eq_true, if_false]
  obtain ⟨hrel, -, hpulse, -⟩ := relayStart_starts r.isLt x.1 hl
  exact ⟨congrArg Relay.pulse hrel, hpulse⟩

end Requests

/-- A pulse ends after its width, and its direction stays shown (R497). -/
theorem completes_relayPulseEnd {s : State} {r : Fin 2} {dir at_ : Nat} (hl : s.lmp.relay.length = 2)
    (hp : (s.relay r).pulse = some (dir, at_)) : Completes (.relayPulseEnd r) s fun t =>
      (t.relay r).pulse = none ∧ t.is (relayFld r).1 = false ∧ t.get (relayFld r).2.2 = dir % 4 ∧
        t.lmp.pulseEnd = t.tb ∧ SameStore s t := by
  obtain ⟨hfit, -, -, hlast, hpulse, -, hwidth⟩ := relayFld_apart r r.isLt
  let s₁ := Act.run (until_ (at_ + s.get LMP.RLYCFG.PW * 4000)) s
  let s₂ := Eff.apply (Eff.apply (Act.run (onRelay r fun x => { x with pulse := none }) s₁) (.put (relayFld r).1 0))
    (.put (relayFld r).2.2 dir)
  have hx : exec (.relayPulseEnd r) s = .next (Eff.apply s₂ (.lmp { s₂.lmp with pulseEnd := s₂.tb })) := by
    show act _ s = _
    rw [act_next, run_look, hp]
    dsimp only
    rw [run_chain_cons, run_chain_cons, run_chain_cons, run_chain_cons, run_chain_cons, run_chain_nil]
    rfl
  have hl₁ : s₁.lmp = s.lmp := fixes_until (φ := State.lmp) (fun _ _ => rfl) _ s
  have hout := (stays_of_drivePages rfl).outside hx
  refine ⟨_, hx, ?_, ?_, ?_, rfl, ⟨hout.mem, hout.pat⟩⟩
  · exact congrArg Relay.pulse (relay_onRelay (s := s₁) (r := r) (fun x => { x with pulse := none }) (by rw [hl₁]; omega))
  · rw [lmp_is, put_is_apart _ _ (hfit _ (by simp)) hlast, put_is_same _ _ _ hpulse
      (by have := hfit _ List.mem_cons_self; omega)]
    rfl
  · rw [lmp_get, put_get_same _ _ _ (hfit _ (by simp)), hwidth]
    rfl

section Waits

variable {s : State} {r : Fin 2} {dir : Nat} (hw : (s.relay r).waits = some dir)
include hw

theorem exec_relayWaitStart_none (h : s.get SYS.ROLE.VAL = 0) : exec (.relayWaitStart r) s = .next s := by
  show act _ s = _
  rw [act_next, run_look, hw]
  dsimp only
  rw [h, bne_self_eq_false, Bool.and_false, Bool.false_and, Bool.false_and]
  rfl

/-- A request that waits starts once the other relay is at rest (R497). -/
theorem completes_relayWaitStart (hl : s.lmp.relay.length = 2) (hp : (s.relay (1 - r.val)).pulse = none)
    (hw' : (s.relay (1 - r.val)).waits = none) (hr : s.reachable Dom.lamp = true) (hrole : s.get SYS.ROLE.VAL ≠ 0) :
    Completes (.relayWaitStart r) s fun t => t.relay r = { pulse := some (dir, t.tb), waits := none } ∧
      t.is (relayFld r).1 = true ∧ t.is (relayFld r).2.1 = false ∧ SameStore s t := by
  let s₁ := Act.run (until_ (s.lmp.pulseEnd + 4000)) s
  have hx : exec (.relayWaitStart r) s = .next (Act.run (relayStart r dir) s₁) := by
    show act _ s = _
    rw [act_next, run_look, hw]
    dsimp only
    rw [hr, hp, hw', bne_iff_ne.mpr hrole, Option.isNone_none, Option.isSome_none, Bool.and_false, Bool.not_false, Bool.and_true,
      Bool.and_true, Bool.and_true, whenA_true, run_chain_cons, run_chain_cons, run_chain_nil]
  have hl₁ : s₁.lmp = s.lmp := fixes_until (φ := State.lmp) (fun _ _ => rfl) _ s
  obtain ⟨hrel, htb, hpulse, hwait⟩ := relayStart_starts (s := s₁) r.isLt dir (by rw [hl₁]; exact hl)
  have hout := (stays_of_drivePages rfl).outside hx
  exact ⟨_, hx, by rw [hrel, htb], hpulse, hwait, hout.mem, hout.pat⟩

end Waits

/-- Settles O39: each hold, override and relay command does what its clause says. -/
theorem lampHoldsAndRelays : Obligations.LampHoldsAndRelays := by
  intro s i
  refine ⟨fun mv hon => ⟨fun hen hhot hmv => completes_ntcHot hon hen hhot hmv, fun hhot hmv => completes_ntcCool hon hhot hmv⟩,
    completes_lmpenChange s, completes_vgdChange s, fun n o at_ ho he => completes_overrideExpire ho he, fun r hl => ?_⟩
  refine ⟨fun x hx ho => ⟨exec_relay_none hx ho, fun hrole => ⟨?_, ?_, ?_⟩⟩, fun dir at_ hp => completes_relayPulseEnd hl hp, ?_⟩
  · intro h
    simpa only [and_assoc] using completes_relay_busy hx ho hrole h
  · intro hp hw h
    simpa only [and_assoc] using completes_relay_waits hx ho hrole hl hp hw h
  · intro hp hw hp' hw'
    simpa only [and_assoc] using completes_relay_starts hx ho hrole hl hp hw hp' hw'
  · exact fun dir hw hp hw' hr => ⟨completes_relayWaitStart hw hl hp hw' hr, exec_relayWaitStart_none hw⟩

end Sys2Proof.Proofs
end

section
/-! A write of ROLE = NONE while a fence closes LAMP: the channels keep their states (R472, R488). -/

namespace Sys2Proof.Proofs

open Sys2Proof.Machine Sys2Proof.Laws

/-- After device reset, with ROLE = MEMBER, channel 0 in START, and a fence open that closes LAMP. -/
def lampCloses : State :=
  { State.reset with
    regs := [(SYS.ROLE.key, 1), (LMP.CHSTAT.STATE.key, 0x20000000)]
    pwr := { closing := 2 ^ Dom.lamp } }

/-- What a write of ROLE = NONE leaves. -/
def roleNone : State := Act.run (atRegister .debug 0 SYS.ROLE true (writeRole 0)) lampCloses

theorem exec_lampCloses : exec (.roleWrite .debug 0#32) lampCloses = .next roleNone := rfl

theorem opens_lampCloses : Opens lampCloses .debug SYS.ROLE 0 true := ⟨.SYS, 0x44, 0, by decide +kernel, nofun⟩

theorem lampCloses_holds : lampCloses.locked SYS.ROLE.key = false ∧ lampCloses.get SYS.ROLE.VAL = 1 ∧
    lampCloses.domOn Dom.lamp = true ∧ lampCloses.lampState 0 = 1 := by decide +kernel

/-- LAMP is on and not reachable, so the channel is not settled. -/
theorem roleNone_lampState : roleNone.lampState 0 = 1 := by decide +kernel

/-- Refutes O51: the statement has every channel that runs go OFF on a write of ROLE = NONE while LAMP is on, and the model settles
the channels only while LAMP is reachable, not while a fence closes it. -/
theorem not_cascadeLinkAndTime : ¬ Obligations.CascadeLinkAndTime := by
  rintro ⟨hlink, -⟩
  obtain ⟨hlock, hrole, hon, hst⟩ := lampCloses_holds
  obtain ⟨hw, -⟩ := hlink lampCloses .debug 0#32
  obtain ⟨t, hx, -, -, hoff, -⟩ := hw opens_lampCloses hlock (by decide) nofun
  cases exec_lampCloses.symm.trans hx
  have h0 := hoff (by rw [hrole]; decide) rfl hon 0 (by decide) (.inl hst)
  rw [roleNone_lampState] at h0
  cases h0

end Sys2Proof.Proofs
end

section
/-! A step (R49, R467): the command at the front of the queue, or the passing of time. -/

namespace Sys2Proof.Proofs

open Sys2Proof.Machine Sys2Proof.Laws

theorem step_of_front {s : State} {c : Instr} {rest : List Instr} (h : s.pending = c :: rest) :
    step s = exec c { s with pending := rest } := by
  rw [step, h]

theorem step_of_empty {s : State} (h : s.pending = []) : step s = .next (Act.run idle s) := by
  rw [step, h]
  exact act_next idle s

/-- Time passes in an idle step while TB runs. -/
theorem run_idle_running {s : State} (ht : s.clk.savedTb = none) (hr : s.pwr.inReset = false) :
    Act.run idle s = { s with clk := { s.clk with tb := (s.clk.tb + 1) % 2 ^ 64 } } := by
  have hc : (s.clk.savedTb.isSome || s.pwr.inReset) = false := by rw [ht, hr]; rfl
  simp only [idle, Act.run, hc]
  rfl

/-- TB does not run while CORE is off, nor under a reset. -/
theorem run_idle_stopped {s : State} (h : s.clk.savedTb ≠ none ∨ s.pwr.inReset = true) : Act.run idle s = s := by
  have hc : (s.clk.savedTb.isSome || s.pwr.inReset) = true := by
    rwa [Bool.or_eq_true, Option.isSome_iff_ne_none]
  simp only [idle, Act.run, hc, if_true, applyAll_nil]

/-- Settles O1: the front command's meaning, or `idle`, which passes one unit exactly where TB runs. -/
theorem stepRunsFrontCommand : Obligations.StepRunsFrontCommand := by
  refine ⟨fun c rest s h => step_of_front h, fun s h => ⟨fun ht hr => ?_, fun hst => ?_⟩⟩
  · rw [step_of_empty h, run_idle_running ht hr]
  · rw [step_of_empty h, run_idle_stopped hst]

end Sys2Proof.Proofs
end

section
/-! What an action within a frame keeps, and what an access that reaches its register leaves (R6, R41). -/

namespace Sys2Proof.Proofs

open Sys2Proof.Machine Sys2Proof.Laws

variable {d : Bool} {ps : List Page} {a : Act}

theorem Within.sameStore (h : Within d ps (a ·)) (s : State) : SameStore s (Act.run a s) :=
  ⟨(h.outside s).mem, (h.outside s).pat⟩

/-- An action within a frame keeps the fields of the other pages. -/
theorem Within.keeps {g : Fld} (h : Within d ps (a ·)) (hg : ∀ p ∈ ps, addrPage (keyAddr g.key) ≠ p.code) : Keeps a g :=
  fun s => by rw [State.get, State.get, (h.outside s).regs g.key hg]

/-- A command that makes an access completes with what holds after the effect of the access. -/
theorem completes_of_access {c : Instr} {s : State} {i : Initiator} {v : Nat} {f : Fld} {write : Bool} {P : State → Prop}
    (hc : exec c s = act (atRegister i v f write a) s) (ho : Opens s i f v write) (hp : P (Act.run a s)) :
    Completes c s P := completes_of_run _ hc (by rwa [run_atRegister a ho])

end Sys2Proof.Proofs
end

section
/-! The shadows of the time base (R52). -/

namespace Sys2Proof.Proofs

open Sys2Proof.Machine Sys2Proof.Laws

/-- Initiators with one number are one initiator, or interfaces of the host link. -/
theorem eq_or_host_of_iniIx {i j : Initiator} (h : iniIx i = iniIx j) : i = j ∨ ∃ v w, i = .host v ∧ j = .host w := by
  cases i with
  | host v => cases j with
    | host w => exact .inr ⟨v, w, rfl, rfl⟩
    | core m | mover m | cipher | debug | remote => dsimp only [iniIx] at h; omega
  | core n => cases j with
    | core m => rw [Fin.ext h]; exact .inl rfl
    | mover m | host m | cipher | debug | remote => dsimp only [iniIx] at h; omega
  | mover n => cases j with
    | mover m => rw [Fin.ext (Nat.add_left_cancel h)]; exact .inl rfl
    | core m | host m | cipher | debug | remote => dsimp only [iniIx] at h; omega
  | cipher | debug | remote => cases j with
    | core m | mover m | host m => dsimp only [iniIx] at h; omega
    | cipher | debug | remote => cases h <;> exact .inl rfl

theorem iniCopy_eq_iff (i j : Initiator) : iniCopy i = iniCopy j ↔ i = j ∨ ∃ v w, i = .host v ∧ j = .host w := by
  refine ⟨fun h => eq_or_host_of_iniIx (Nat.add_left_cancel h), ?_⟩
  rintro (rfl | ⟨v, w, rfl, rfl⟩)
  · rfl
  · rfl

/-- What the table of page CLK says of TBHI. -/
theorem findReg_tbhi : findReg Page.CLK.table 0x44 = some ⟨0x44, 1, 0, 0, .perIni, [⟨0, 32, .ro, .any⟩]⟩ := rfl

theorem regKey_tbhi (i : Initiator) :
    regKey .CLK 0x44 ⟨0x44, 1, 0, 0, .perIni, [⟨0, 32, .ro, .any⟩]⟩ (some i) 0 = (CLK.TBHI.copy (iniCopy i)).key := by
  show 0x40002044 + iniCopy i * 0x100000000 = _
  rw [copy_key, Nat.mul_comm]
  rfl

/-- A read of TBHI shows the reader's own shadow. -/
theorem peek_tbhi (s : State) (i : Initiator) : s.peek (some i) .CLK 0x44 0 = s.get (CLK.TBHI.copy (iniCopy i)) := by
  rw [State.peek, findReg_tbhi]
  dsimp only
  rw [regKey_tbhi]
  show (s.reg _).toNat - ((s.reg _).toNat &&& 0) = (s.reg _).toNat / 2 ^ 0 % 2 ^ 32
  have := (s.reg (CLK.TBHI.copy (iniCopy i)).key).isLt
  rw [Nat.and_zero]
  omega

/-- A recorder sample finds no shadow. -/
theorem peek_tbhi_recorder (s : State) : s.peek none .CLK 0x44 0 = 0 := by
  rw [State.peek, findReg_tbhi]
  exact Nat.zero_sub _

theorem apart_shadow {i j : Initiator} (h : iniCopy j ≠ iniCopy i) :
    apart (CLK.TBHI.copy (iniCopy i)) (CLK.TBHI.copy (iniCopy j)) = true := by
  have : (CLK.TBHI.copy (iniCopy i)).key ≠ (CLK.TBHI.copy (iniCopy j)).key := by
    rw [copy_key, copy_key]
    omega
  rw [apart, bne_iff_ne.mpr this]
  rfl

/-- A read of TBLO: its reply, and the reader's shadow. -/
theorem run_readTblo (i : Initiator) (s : State) : Act.run (readTblo i) s =
    Eff.apply (Act.run (answer i (s.tb % 2 ^ 32)) s) (.put (CLK.TBHI.copy (iniCopy i)) (s.tb / 2 ^ 32 % 2 ^ 32)) := by
  rw [readTblo, run_look, run_chain_cons, run_chain_cons, run_chain_nil, run_put]

theorem readTblo_answered (i : Initiator) (s : State) : (Act.run (readTblo i) s).answered i = s.tb % 2 ^ 32 := by
  rw [run_readTblo]
  exact answered_answer i _ s

theorem readTblo_shadow (i : Initiator) (s : State) :
    (Act.run (readTblo i) s).get (CLK.TBHI.copy (iniCopy i)) = s.tb / 2 ^ 32 % 2 ^ 32 := by
  rw [run_readTblo, put_get_same _ _ _ (by decide : 0 + 32 ≤ 32)]
  exact Nat.mod_mod _ _

/-- Every other shadow stays. -/
theorem keeps_readTblo {i j : Initiator} (h : iniCopy j ≠ iniCopy i) : Keeps (readTblo i) (CLK.TBHI.copy (iniCopy j)) :=
  keeps_look fun _ => keeps_cons (fun _ => rfl)
    (keeps_cons (keeps_put _ (by decide : 0 + 32 ≤ 32) (apart_shadow h)) (keeps_nil _))

/-- A trigger of the recorder touches no register of another page. -/
theorem stays_recorderTrigger : Stays false [.REC] .recorderTrigger := by
  refine ⟨_, rfl, within_look fun s => ?_⟩
  cases s.recd.fired with
  | nil => exact within_skip
  | cons f l =>
    dsimp only
    unfold recorderTrigger recordLost
    fun_prop (disch := rfl)

/-- Settles O6: each reader has the copy of TBHI of its own number, and the recorder none. -/
theorem timeBaseShadows : Obligations.TimeBaseShadows := by
  intro s i j
  refine ⟨fun ho => completes_of_access rfl ho ⟨readTblo_answered i s, ?_, fun hij => ?_⟩, iniCopy_eq_iff i j,
    peek_tbhi_recorder s, fun t ht => ?_⟩
  · rw [peek_tbhi, readTblo_shadow]
  · rw [peek_tbhi, peek_tbhi]
    exact keeps_readTblo hij s
  · have hp : addrPage (keyAddr (CLK.TBHI.copy (iniCopy i)).key) = Page.CLK.code := by rw [keyAddr_copy]; rfl
    have hr := (stays_recorderTrigger.outside ht).regs (CLK.TBHI.copy (iniCopy i)).key (by rw [hp]; decide)
    rw [peek_tbhi, peek_tbhi, State.get, State.get, hr]

end Sys2Proof.Proofs
end

section
/-! What the timers leave alone: the hidden state of every other block, and the pulses that wait already (R521 to R527). -/

namespace Sys2Proof.Proofs

open Sys2Proof.Machine Sys2Proof.Laws

variable {P : State → Prop} {a : Act}

theorem preserves_skip : Preserves P skip := fun _ h => h

theorem preserves_look {g : State → Act} (h : ∀ s, Preserves P (g s)) : Preserves P (look g) := fun s => h s s

theorem preserves_whenA {c : Bool} (h : Preserves P a) : Preserves P (whenA c a) := by
  cases c
  · exact preserves_skip
  · exact h

/-- What holds of a state whatever its registers, its timers, its collector and its recorder hold, and after each pulse. -/
structure TimerBlind (P : State → Prop) : Prop where
  put : ∀ f v, Preserves P (put f v)
  tim : ∀ f, Preserves P (onTim f)
  pulse : ∀ p, Preserves P (pulse p)
  sticky : ∀ f inst info, Preserves P (stickI f inst info)

/-- A part of the state that the effects of a timer leave alone. -/
theorem timerBlind_eq {α : Type} {φ : State → α} (hp : ∀ s f v, φ (Eff.apply s (.put f v)) = φ s)
    (ht : ∀ s x, φ (Eff.apply s (.tim x)) = φ s) (hm : ∀ s x, φ (Eff.apply s (.stm x)) = φ s)
    (hf : ∀ s x, φ (Eff.apply s (.flt x)) = φ s) (hr : ∀ s x, φ (Eff.apply s (.recd x)) = φ s) (c : α) :
    TimerBlind (φ · = c) :=
  ⟨fun f v s h => (hp s f v).trans h, fun f s h => (ht s _).trans h, fun p s h => (hm s _).trans h,
    fun f inst info s h => (fixes_stickI f inst info (fun s v x y => by rw [hr, hf, hp]) s).trans h⟩

theorem timerBlind_clk (c : ClkSt) : TimerBlind (State.clk · = c) :=
  timerBlind_eq (fun _ _ _ => rfl) (fun _ _ => rfl) (fun _ _ => rfl) (fun _ _ => rfl) (fun _ _ => rfl) c

/-- A pulse joins those that wait. -/
theorem timerBlind_pulses (x : Nat × Nat) : TimerBlind (x ∈ ·.stm.pulses) :=
  ⟨fun _ _ _ h => h, fun _ _ h => h, fun _ _ h => List.mem_append_left _ h, fun f inst info s h => by
    rwa [fixes_stickI (φ := State.stm) f inst info (fun _ _ _ _ => rfl) s]⟩

section
variable (h : TimerBlind P)
include h

theorem preserves_syncTimer (n : Nat) : Preserves P (syncTimer n) :=
  preserves_look fun _ => preserves_cons (h.put _ _) (preserves_cons (h.tim _) preserves_nil)

theorem preserves_stickVI (f : Fld) (v inst info : Nat) : Preserves P (stickVI f v inst info) :=
  preserves_cons (h.sticky _ _ _) (preserves_cons (preserves_whenA (h.put _ _)) preserves_nil)

theorem preserves_fireTimer (n : Nat) : Preserves P (fireTimer n) :=
  preserves_look fun _ => preserves_cons (preserves_stickVI h _ _ _ _) (preserves_cons (h.put _ _)
    (preserves_cons (h.pulse _) (preserves_cons (h.put _ _) preserves_nil)))

theorem preserves_checkWindow (n : Nat) : Preserves P (checkWindow n) :=
  preserves_look fun _ => preserves_whenA (preserves_fireTimer h n)

theorem preserves_countEvent (n : Nat) : Preserves P (countEvent n) :=
  preserves_look fun _ => preserves_whenA (preserves_cons (h.put _ _) (preserves_cons (h.tim _)
    (preserves_cons (preserves_whenA (preserves_fireTimer h n)) preserves_nil)))

theorem preserves_countSource (src sel : Nat) : Preserves P (countSource src sel) :=
  preserves_look fun _ => preserves_eachA fun n _ => preserves_countEvent h n

theorem preserves_timersResume : Preserves P timersResume :=
  preserves_look fun _ => preserves_cons (h.tim _) (preserves_cons (preserves_eachA fun n _ =>
    preserves_cons (preserves_syncTimer h n) (preserves_cons (preserves_checkWindow h n) preserves_nil)) preserves_nil)

end

end Sys2Proof.Proofs
end

section
/-! Reads and writes of the clock (R52, R55 to R58, R317). -/

namespace Sys2Proof.Proofs

open Sys2Proof.Machine Sys2Proof.Laws

/-! Reads. -/

/-- A read of ASNLO: its reply, and the reader's latch. -/
theorem run_readAsnlo (i : Initiator) (s : State) : Act.run (readAsnlo i) s =
    Eff.apply (Act.run (answer i (s.clk.asn % 2 ^ 32)) s) (.put (CLK.ASNHI.copy (iniCopy i)) (s.clk.asn / 2 ^ 32 % 256)) := by
  rw [readAsnlo, run_look, run_chain_cons, run_chain_cons, run_chain_nil, run_put]

theorem readAsnlo_answered (i : Initiator) (s : State) : (Act.run (readAsnlo i) s).answered i = s.clk.asn % 2 ^ 32 := by
  rw [run_readAsnlo]
  exact answered_answer i _ s

theorem readAsnlo_latch (i : Initiator) (s : State) :
    (Act.run (readAsnlo i) s).get (CLK.ASNHI.copy (iniCopy i)) = s.clk.asn / 2 ^ 32 % 256 := by
  rw [run_readAsnlo, put_get_same _ _ _ (by decide : 0 + 32 ≤ 32)]
  show s.clk.asn / 2 ^ 32 % 256 % 2 ^ 32 = _
  omega

/-! Writes that a synchronised member ignores (R317). -/

theorem run_unlessSlaved_free {s : State} (h : s.slaved = false) (a : Act) : Act.run (unlessSlaved a) s = Act.run a s := by
  rw [unlessSlaved, run_look, h]
  rfl

theorem run_unlessSlaved_slaved {s : State} (h : s.slaved = true) (a : Act) :
    Act.run (unlessSlaved a) s = Act.run (stick CAS.STICKY.CLKREF) s := by
  rw [unlessSlaved, run_look, h]
  rfl

/-! The pending adjustment (R55). -/

/-- A signed number of 16 bits reads as it was written. -/
theorem toS_ofS {x : Int} (hlo : -2 ^ 15 ≤ x) (hhi : x < 2 ^ 15) : toS 16 (ofS 16 x % 2 ^ 16) = x := by
  unfold toS ofS
  split <;> omega

theorem putS_getS (x : Int) (s : State) (hlo : -2 ^ 15 ≤ x) (hhi : x < 2 ^ 15) :
    (Act.run (putS CLK.ADJPEND.ADJ x) s).getS CLK.ADJPEND.ADJ = x := by
  rw [putS, run_put, State.getS, put_get_same _ _ _ (by decide)]
  exact toS_ofS hlo hhi

theorem getS_of_keeps {a : Act} {g : Fld} (h : Keeps a g) (s : State) : (Act.run a s).getS g = s.getS g := by
  rw [State.getS, State.getS, h s]

/-- The part of a contribution that counts in ADJACC (R237). -/
def adjustCount (was : Int) : Act := look fun s =>
  whenA (s.domOn Dom.mac) (put BOB.ADJACC.ACC (ofS 32 (toS 32 (s.get BOB.ADJACC.ACC) + (s.getS CLK.ADJPEND.ADJ - was))))

theorem keeps_adjustCount {g : Fld} (was : Int) (hg : apart BOB.ADJACC.ACC g = true) : Keeps (adjustCount was) g :=
  keeps_look fun _ => keeps_whenA (keeps_put _ (by decide) hg)

theorem adjustTick_eq (x : Int) :
    adjustTick x = look fun s => chain [addAdjust x, adjustCount (s.getS CLK.ADJPEND.ADJ)] := rfl

theorem run_addAdjust (x : Int) (s : State) : Act.run (addAdjust x) s =
    (let y := s.getS CLK.ADJPEND.ADJ + x
     Act.run (whenA (y < -1000 || 1000 < y) (stick CLK.STICKY.ADJSAT))
      (Act.run (putS CLK.ADJPEND.ADJ (clampS (-1000) 1000 y)) s)) := by
  rw [addAdjust, run_look]
  dsimp only
  rw [run_chain_cons, run_chain_cons, run_chain_nil]

/-- A contribution by firmware: the adjustment, ADJSAT beyond its limits, ADJACC and TBEST. -/
theorem run_writeTickadj {s : State} (h : s.slaved = false) (w : Nat) : Act.run (writeTickadj w) s =
    (let x := s.getS CLK.ADJPEND.ADJ + toS 16 w
     Act.run (put CLK.STAT.TBEST 0) (Act.run (adjustCount (s.getS CLK.ADJPEND.ADJ))
      (Act.run (whenA (x < -1000 || 1000 < x) (stick CLK.STICKY.ADJSAT))
        (Act.run (putS CLK.ADJPEND.ADJ (clampS (-1000) 1000 x)) s)))) := by
  rw [writeTickadj, run_unlessSlaved_free h, run_chain_cons, run_chain_cons, run_chain_nil, adjustTick_eq, run_look,
    run_chain_cons, run_chain_cons, run_chain_nil, run_addAdjust]

theorem writeTickadj_adjpend {s : State} (h : s.slaved = false) (w : Nat) :
    (Act.run (writeTickadj w) s).getS CLK.ADJPEND.ADJ = max (-1000) (min 1000 (s.getS CLK.ADJPEND.ADJ + toS 16 w)) := by
  have hput : Keeps (put CLK.STAT.TBEST 0) CLK.ADJPEND.ADJ := keeps_put _ (by decide) (by decide)
  have hsat : Keeps (stick CLK.STICKY.ADJSAT) CLK.ADJPEND.ADJ := keeps_stick (by decide) (by decide)
  rw [run_writeTickadj h]
  dsimp only
  rw [getS_of_keeps hput, getS_of_keeps (keeps_adjustCount _ (by decide)), getS_of_keeps (keeps_whenA hsat), clampS]
  exact putS_getS _ s (by omega) (by omega)

theorem writeTickadj_adjsat {s : State} (h : s.slaved = false) {w : Nat}
    (hx : s.getS CLK.ADJPEND.ADJ + toS 16 w < -1000 ∨ 1000 < s.getS CLK.ADJPEND.ADJ + toS 16 w) :
    (Act.run (writeTickadj w) s).is CLK.STICKY.ADJSAT = true := by
  have hput : Keeps (put CLK.STAT.TBEST 0) CLK.STICKY.ADJSAT := keeps_put _ (by decide) (by decide)
  have hc : (decide (s.getS CLK.ADJPEND.ADJ + toS 16 w < -1000) || decide (1000 < s.getS CLK.ADJPEND.ADJ + toS 16 w)) = true := by
    simpa using hx
  rw [run_writeTickadj h]
  dsimp only
  rw [is_of_keeps hput, is_of_keeps (keeps_adjustCount _ (by decide)), hc]
  exact stick_is _ _ rfl (by decide)

theorem writeTickadj_tbest {s : State} (h : s.slaved = false) (w : Nat) :
    (Act.run (writeTickadj w) s).get CLK.STAT.TBEST = 0 := by
  rw [run_writeTickadj h]
  exact put_get_same _ CLK.STAT.TBEST 0 (by decide)

/-! The ASN (R56, R198). -/

theorem run_writeAsnhi {s : State} (h : s.slaved = false) (w : Nat) :
    Act.run (writeAsnhi w) s = { s with clk := { s.clk with asnStaged := w % 256 } } := by
  rw [writeAsnhi, run_unlessSlaved_free h]
  rfl

/-- A commit of the ASN, and the prefetch that it makes void. -/
theorem run_writeAsnlo {s : State} (h : s.slaved = false) (w : Word) : Act.run (writeAsnlo w.toNat) s =
    { s with
      clk := { s.clk with asnCommit := some (s.clk.asnStaged * 2 ^ 32 + w.toNat) }
      shu := { s.shu with void := s.shu.next.isSome || s.shu.void } } := by
  rw [writeAsnlo, run_unlessSlaved_free h, run_chain_cons, run_chain_cons, run_chain_nil, run_onClk, run_look, clk_shu,
    Nat.mod_eq_of_lt w.isLt, run_whenA]
  cases s.shu.next.isSome <;> rfl

/-! The tick's start (R57). -/

/-- What the table of page CLK says of CTRL. -/
def ctrlDesc : RegDesc := ⟨0x008, 1, 0, 0, .shared, [⟨4, 1, .rwl, .any⟩, ⟨1, 3, .rw, .range 0 4⟩, ⟨0, 1, .rw, .any⟩]⟩

theorem keyOf_clkCtrl : KeyOf CLK.CTRL.key .CLK 0x08 ctrlDesc :=
  keyOf_header (q := .CLK) (off := 0x08) (by decide) rfl

/-- A write of the fields of CTRL. -/
theorem run_plainWrite_clkCtrl (w : Nat) (s : State) :
    Act.run (plainWrite CLK.CTRL.key 0 w) s = Act.run (judgeAll CLK.CTRL.key w ctrlDesc.fields) s := by
  rw [plainWrite_eq keyOf_clkCtrl]

theorem plainWrite_ticken (w : Word) (s : State) :
    (Act.run (plainWrite CLK.CTRL.key 0 w.toNat) s).is CLK.CTRL.TICKEN = w.toNat.testBit CLK.CTRL.TICKEN.lo := by
  refine is_of_get_toNat ?_
  rw [run_plainWrite_clkCtrl]
  refine (judgeAll_get keyOf_clkCtrl.judgeable (fun f _ hr => keyOf_clkCtrl.lock_apart f hr) s ⟨0, 1, .rw, .any⟩
    (by simp [ctrlDesc])).trans ?_
  exact of_bit _ _ rfl

theorem keeps_plainWrite_slotlen (w : Nat) : Keeps (plainWrite CLK.CTRL.key 0 w) CLK.SLOTLEN.LEN := fun s => by
  rw [run_plainWrite_clkCtrl]
  exact keeps_judgeAll (by decide) (by decide) (fun _ => ⟨by decide, by decide⟩) s

theorem plainWrite_clkCtrl_clk (w : Nat) (s : State) : (Act.run (plainWrite CLK.CTRL.key 0 w) s).clk = s.clk := by
  rw [run_plainWrite_clkCtrl, (sticks_judgeAll _ _ _ s).same]

/-- The state after a write of CTRL that starts the tick. -/
theorem run_writeClkCtrl_start {s : State} {w : Word} (hs : s.slaved = false) (ht : s.is CLK.CTRL.TICKEN = false)
    (hw : w.toNat.testBit CLK.CTRL.TICKEN.lo = true) :
    Act.run (writeClkCtrl w.toNat) s =
      (let u := Act.run (plainWrite CLK.CTRL.key 0 w.toNat) s
       { u with clk := { s.clk with nextTick := (s.tb + s.get CLK.SLOTLEN.LEN) % 2 ^ 64 } }) := by
  have hset := plainWrite_ticken w s
  rw [hw] at hset
  rw [writeClkCtrl, run_look, hs, ht]
  simp only [Bool.false_and, Bool.false_eq_true, if_false, run_chain_cons, run_chain_nil, run_whenA, run_look, hset,
    Bool.not_false, Bool.true_and, if_true, run_onClk, keeps_plainWrite_slotlen _ s, plainWrite_clkCtrl_clk]
  rfl

end Sys2Proof.Proofs
end

section
/-! The PLL's lock and the 32.768 kHz crystal (R61, R275, R469, R527), and the commands of the clock. -/

namespace Sys2Proof.Proofs

open Sys2Proof.Machine Sys2Proof.Laws

/-! The PLL. -/

/-- What a loss of lock does. -/
def lockLost : Act :=
  chain [put CLK.STAT.PLLLOCK 0, stick CLK.STICKY.PLLUNLOCK, timersPause, onClk fun c => { c with gated := true }]

/-- What the lock's return does. -/
def lockBack : Act := chain [put CLK.STAT.PLLLOCK 1, onClk fun c => { c with gated := false }, timersResume]

theorem exec_pllUnlock {s : State} (hc : s.domOn Dom.core = true) (hl : s.is CLK.STAT.PLLLOCK = true) :
    exec .pllUnlock s = .next (Act.run lockLost s) := by
  show act _ s = _
  rw [act_next, run_look, hc, hl]
  rfl

theorem exec_pllRelock {s : State} (hc : s.domOn Dom.core = true) (hl : s.is CLK.STAT.PLLLOCK = false) :
    exec .pllRelock s = .next (Act.run lockBack s) := by
  show act _ s = _
  rw [act_next, run_look, hc, hl]
  rfl

/-- The registers of a timer lie in page TIM. -/
theorem keeps_timersPause {g : Fld} (hg : addrPage (keyAddr g.key) ≠ Page.TIM.code) : Keeps timersPause g :=
  (within_timersPause (d := false) (ps := [.TIM]) rfl).keeps (by simpa using hg)

theorem keeps_timersResume {g : Fld} (hg : addrPage (keyAddr g.key) ≠ Page.TIM.code) : Keeps timersResume g :=
  (within_timersResume (d := false) (ps := [.TIM]) rfl).keeps (by simpa using hg)

theorem run_lockLost (s : State) :
    (let u := Act.run timersPause (Act.run (stick CLK.STICKY.PLLUNLOCK) (Act.run (put CLK.STAT.PLLLOCK 0) s))
     Act.run lockLost s = Eff.apply u (.clk { u.clk with gated := true })) := by
  rw [lockLost, run_chain_cons, run_chain_cons, run_chain_cons, run_chain_cons, run_chain_nil, run_onClk]

theorem run_lockBack (s : State) :
    (let u := Act.run (put CLK.STAT.PLLLOCK 1) s
     Act.run lockBack s = Act.run timersResume (Eff.apply u (.clk { u.clk with gated := false }))) := by
  rw [lockBack, run_chain_cons, run_chain_cons, run_chain_cons, run_chain_nil, run_onClk]

theorem lockLost_holds (s : State) :
    let t := Act.run lockLost s
    t.is CLK.STAT.PLLLOCK = false ∧ t.is CLK.STICKY.PLLUNLOCK = true ∧ t.clk.gated = true ∧ SameStore s t := by
  have hst : Keeps (stick CLK.STICKY.PLLUNLOCK) CLK.STAT.PLLLOCK := keeps_stick (by decide) (by decide)
  have hw : Within false [.CLK, .TIM] (lockLost ·) := by unfold lockLost; fun_prop (disch := rfl)
  refine ⟨?_, ?_, ?_, hw.sameStore s⟩
  · rw [run_lockLost, clk_is, is_of_keeps (keeps_timersPause (by decide)), is_of_keeps hst, run_put,
      put_is_same _ _ _ rfl (by decide)]
    rfl
  · rw [run_lockLost, clk_is, is_of_keeps (keeps_timersPause (by decide))]
    exact stick_is _ _ rfl (by decide)
  · rw [run_lockLost, clk_clk]

theorem lockBack_holds (s : State) :
    let t := Act.run lockBack s
    t.is CLK.STAT.PLLLOCK = true ∧ t.clk.gated = false ∧ SameStore s t := by
  have hw : Within false [.CLK, .TIM] (lockBack ·) := by unfold lockBack; fun_prop (disch := rfl)
  refine ⟨?_, ?_, hw.sameStore s⟩
  · rw [run_lockBack, is_of_keeps (keeps_timersResume (by decide)), clk_is, run_put, put_is_same _ _ _ rfl (by decide)]
    rfl
  · rw [run_lockBack, preserves_timersResume (timerBlind_clk _) _ rfl, clk_clk]

/-! The crystal. -/

/-- What the crystal's stop does to the Thimble. -/
def thimbleDeaf (runs : Bool) (at_ : Nat) : Act := chain [whenA runs (stickAt at_ THM.STICKY.NOK32 0 0),
  onThm fun t => { t with k32ok := false, detecting := false, detectAt := none }, put THM.STAT.INFR 0, thimbleRun]

/-- What the crystal's stop does to the RTC, and CLK's sign of it. -/
def clocksLost (at_ : Nat) : Act := chain [put CLK.STAT.K32OK 0, stick CLK.STICKY.K32FAIL, put PWR.STAT.RTCLOST 1,
  stickAt at_ PWR.STICKY.RTCLOST 0 0, put PWR.RTCSEC.SEC 0]

theorem exec_k32Fail {s : State} (hc : s.domOn Dom.core = true) (k : Nat) : exec (.k32Fail k) s =
    .next (Act.run (thimbleDeaf (s.is THM.STAT.RUN) (s.stampNow k))
      (Act.run (clocksLost (s.stampNow k)) (Act.run crystalTimers s))) := by
  show act _ s = _
  rw [act_next, run_look, hc]
  simp only [thimbleDeaf, clocksLost, run_chain_cons, run_chain_nil, whenA_true]

theorem fixes_thimbleRun_thm : Fixes State.thm thimbleRun :=
  fixes_look fun _ => fixes_ite (fun _ => rfl) (fixes_cons (fun _ => rfl) (fixes_cons (fun _ => rfl) fixes_nil))

theorem thimbleDeaf_k32ok (runs : Bool) (at_ : Nat) (s : State) : (Act.run (thimbleDeaf runs at_) s).thm.k32ok = false := by
  rw [thimbleDeaf, run_chain_cons, run_chain_cons, run_chain_cons, run_chain_cons, run_chain_nil, fixes_thimbleRun_thm, run_put,
    put_thm, run_onThm, thm_thm]

theorem keeps_thimbleDeaf {g : Fld} (runs : Bool) (at_ : Nat) (hg : addrPage (keyAddr g.key) ≠ Page.THM.code) :
    Keeps (thimbleDeaf runs at_) g :=
  Within.keeps (d := false) (ps := [.THM]) (by unfold thimbleDeaf; fun_prop (disch := rfl)) (by simpa using hg)

theorem clocksLost_holds (at_ : Nat) (s : State) :
    let t := Act.run (clocksLost at_) s
    t.is CLK.STAT.K32OK = false ∧ t.is PWR.STAT.RTCLOST = true ∧ t.get PWR.RTCSEC.SEC = 0 := by
  have hsec {g : Fld} (hg : apart PWR.RTCSEC.SEC g = true) : Keeps (put PWR.RTCSEC.SEC 0) g := keeps_put _ (by decide) hg
  have hlost {g : Fld} (hg : apart PWR.STICKY.RTCLOST g = true) : Keeps (stickAt at_ PWR.STICKY.RTCLOST 0 0) g :=
    keeps_stickAt at_ 0 0 (by decide) hg
  have hstat : Keeps (put PWR.STAT.RTCLOST 1) CLK.STAT.K32OK := keeps_put _ (by decide) (by decide)
  have hfail : Keeps (stick CLK.STICKY.K32FAIL) CLK.STAT.K32OK := keeps_stick (by decide) (by decide)
  rw [clocksLost, run_chain_cons, run_chain_cons, run_chain_cons, run_chain_cons, run_chain_cons, run_chain_nil]
  refine ⟨?_, ?_, ?_⟩
  · rw [is_of_keeps (hsec (by decide)), is_of_keeps (hlost (by decide)), is_of_keeps hstat, is_of_keeps hfail, run_put,
      put_is_same _ _ _ rfl (by decide)]
    rfl
  · rw [is_of_keeps (hsec (by decide)), is_of_keeps (hlost (by decide)), run_put, put_is_same _ _ _ rfl (by decide)]
    rfl
  · exact put_get_same _ PWR.RTCSEC.SEC 0 (by decide)

/-- The Thimble with the crystal back: an enabled one detects 500 µs later. -/
def crystalBack (s : State) (t : ThmSt) : ThmSt :=
  { t with k32ok := true, detectAt := if s.is THM.CTRL.EN && !t.k32ok then some (s.tb + 2000) else t.detectAt }

theorem exec_k32Restart {s : State} (hc : s.domOn Dom.core = true) : exec .k32Restart s =
    .next (Act.run (onThm (crystalBack s)) (Act.run (put CLK.STAT.K32OK 1) (Act.run crystalTimers s))) := by
  show act _ s = _
  rw [act_next, run_look, hc, run_chain_cons, run_chain_cons, run_chain_cons, run_chain_nil, whenA_true]
  rfl

/-! The commands. -/

/-- Settles O15: each command of the clock by what its own action runs to. -/
theorem clockCommands : Obligations.ClockCommands := by
  intro s i w
  refine ⟨fun ho => ?_, fun ho => ?_, fun hs ho => ?_, fun hs ho => ?_, fun hs ho => ?_, fun hs ho => ?_, fun hs ho ht hw => ?_,
    fun hc hl => ⟨_, exec_pllUnlock hc hl, lockLost_holds s⟩, fun hc hl => ⟨_, exec_pllRelock hc hl, lockBack_holds s⟩,
    fun k hc => ?_, fun hc => ?_⟩
  · exact completes_of_access rfl ho ⟨readTblo_answered i s, readTblo_shadow i s,
      (within_readTblo (d := false) (ps := [.CLK]) rfl i).sameStore s⟩
  · exact completes_of_access rfl ho ⟨readAsnlo_answered i s, readAsnlo_latch i s,
      (within_readAsnlo (d := false) (ps := [.CLK]) rfl i).sameStore s⟩
  · exact completes_of_access rfl ho ⟨writeTickadj_adjpend hs _, writeTickadj_adjsat hs, writeTickadj_tbest hs _,
      (within_writeTickadj (d := false) (ps := [.CLK, .CAS, .BOB]) rfl _ rfl rfl).sameStore s⟩
  · show act _ s = _
    rw [act_next, run_atRegister _ ho, run_writeAsnhi hs]
  · refine completes_of_access rfl ho ?_
    rw [run_writeAsnlo hs]
    exact ⟨rfl, fun hn => by rw [hn]; rfl, rfl, rfl, rfl⟩
  · refine completes_of_access rfl ho ?_
    rw [writeAsnlo, run_unlessSlaved_slaved hs]
    exact ⟨stick_is _ s rfl (by decide), sticks_stick _ (by decide) s⟩
  · refine completes_of_access rfl ho ?_
    have hst := (within_writeClkCtrl (d := false) (ps := [.CLK, .CAS]) rfl w.toNat rfl).sameStore s
    rw [run_writeClkCtrl_start hs ht hw] at hst ⊢
    exact ⟨(plainWrite_ticken w s).trans hw, rfl, hst⟩
  · obtain ⟨hok, hlost, hsec⟩ := clocksLost_holds (s.stampNow k) (Act.run crystalTimers s)
    have hkeep {g : Fld} (hg : addrPage (keyAddr g.key) ≠ Page.THM.code) :=
      keeps_thimbleDeaf (s.is THM.STAT.RUN) (s.stampNow k) hg
    refine ⟨_, exec_k32Fail hc k, ?_, ?_, ?_, thimbleDeaf_k32ok _ _ _⟩
    · rw [is_of_keeps (hkeep (by decide)), hok]
    · rw [is_of_keeps (hkeep (by decide)), hlost]
    · rw [hkeep (by decide), hsec]
  · refine ⟨_, exec_k32Restart hc, ?_, rfl⟩
    rw [run_onThm, thm_is, run_put, put_is_same _ _ _ rfl (by decide)]
    rfl

end Sys2Proof.Proofs
end

section
/-! The slot tick with MAC and RXN off (R53, R56). -/

namespace Sys2Proof.Proofs

open Sys2Proof.Machine Sys2Proof.Laws

variable {d : Bool} {ps : List Page}

/-- Time that passes changes TB alone. -/
theorem run_until_eq (t : Nat) (s : State) : ∃ b, Act.run (until_ t) s = Eff.apply s (.clk { s.clk with tb := b }) := by
  rw [run_until]
  split
  · exact ⟨_, rfl⟩
  · exact ⟨s.clk.tb, rfl⟩

theorem whenA_false (a : Act) : whenA false a = skip := rfl

theorem putS_zero (f : Fld) : putS f 0 = put f 0 := by
  rw [putS, ofS, Int.zero_emod, Int.toNat_zero]

/-- The clock after a tick that no load record governs. -/
def ticked (s : State) : ClkSt := { s.clk with
  lastTick := s.clk.nextTick
  asn := s.clk.asnCommit.getD ((s.clk.asn + 1) % 2 ^ 40)
  asnSince := s.clk.nextTick
  asnBefore := s.clk.asn
  record := none
  nextTick := ((s.clk.nextTick : Int) + s.get CLK.SLOTLEN.LEN + s.getS CLK.ADJPEND.ADJ).toNat % 2 ^ 64
  asnCommit := none }

theorem run_tickClock {s : State} (hr : s.clk.record = none) (hm : s.domOn Dom.mac = false) :
    Act.run tickClock s = Eff.apply (Eff.apply s (.clk (ticked s))) (.put CLK.ADJPEND.ADJ 0) := by
  rw [tickClock, run_look]
  dsimp only
  rw [hr]
  dsimp only
  repeat rw [run_chain_cons]
  rw [hm, Bool.and_false, whenA_false, run_chain_nil, run_skip, run_skip, sub_self, ite_self, putS_zero, run_put, run_onClk,
    beq_self_eq_true, if_pos rfl, ticked]

/-- What a tick does after its pulse with MAC and RXN off: the timers on SLOT, PHOLD, and the windows where RXW is on. -/
def tickRest (rxw : Bool) : Act := chain [countSource 5 0, pholdTick, whenA rxw windowTick]

theorem run_slotTick {s : State} (hm : s.domOn Dom.mac = false) (hr : s.domOn Dom.rxn = false) (temp : Int) :
    Act.run (slotTick temp) s = Act.run (tickRest (s.domOn Dom.rxw)) (Act.run (pulse 8)
      (Act.run tickClock (Act.run (until_ s.clk.nextTick) s))) := by
  rw [slotTick, run_look, tickRest]
  repeat rw [run_chain_cons]
  rw [hm, hr, whenA_false, whenA_false, whenA_false, run_skip, run_skip, run_skip]

@[fun_prop] theorem within_onChz (f : ChzSt → ChzSt) : Within d ps (onChz f ·) := within_one fun _ => trivial

@[fun_prop] theorem within_countSource (src sel : Nat) (h : ps.contains .TIM = true) : Within d ps (countSource src sel ·) := by
  unfold countSource
  fun_prop (disch := assumption)

@[fun_prop] theorem within_pholdTick (h : ps.contains .THM = true) : Within d ps (pholdTick ·) := by
  unfold pholdTick
  fun_prop (disch := assumption)

theorem within_tickRest (rxw : Bool) : Within false [.TIM, .THM] (tickRest rxw ·) := by
  unfold tickRest windowTick
  fun_prop (disch := rfl)

theorem preserves_pholdTick {P : State → Prop} (hput : ∀ f v, Preserves P (put f v)) (hpwr : ∀ f, Preserves P (onPwr f)) :
    Preserves P pholdTick :=
  preserves_cons (preserves_look fun _ => hput _ _) (preserves_cons (preserves_look fun _ => preserves_whenA (hpwr _))
    preserves_nil)

theorem preserves_tickRest {P : State → Prop} (h : TimerBlind P) (hpwr : ∀ f, Preserves P (onPwr f))
    (hchz : ∀ f, Preserves P (onChz f)) (rxw : Bool) : Preserves P (tickRest rxw) :=
  preserves_cons (preserves_countSource h 5 0) (preserves_cons (preserves_pholdTick h.put hpwr)
    (preserves_cons (preserves_whenA (preserves_look fun _ => hchz _)) preserves_nil))

/-- The state right after the tick's pulse. -/
def pulsed (s : State) : State := Act.run (pulse 8) (Act.run tickClock (Act.run (until_ s.clk.nextTick) s))

/-- What the tick has done by its pulse; `b` is TB at the tick. -/
theorem pulsed_holds {s : State} (hr : s.clk.record = none) (hm : s.domOn Dom.mac = false) :
    (∃ b, (pulsed s).clk = { ticked s with tb := b }) ∧ (pulsed s).get CLK.ADJPEND.ADJ = 0 ∧
      (8, (pulsed s).tb) ∈ (pulsed s).stm.pulses ∧ SameStore s (pulsed s) := by
  obtain ⟨b, hb⟩ := run_until_eq s.clk.nextTick s
  have hp : pulsed s = Act.run (pulse 8) (Eff.apply (Eff.apply (Eff.apply s (.clk { s.clk with tb := b }))
      (.clk { ticked s with tb := b })) (.put CLK.ADJPEND.ADJ 0)) := by
    rw [pulsed, hb, run_tickClock (s := Eff.apply s (.clk { s.clk with tb := b })) hr hm]
    rfl
  rw [hp]
  exact ⟨⟨b, rfl⟩, put_get_same _ CLK.ADJPEND.ADJ 0 (by decide), List.mem_append_right _ List.mem_cons_self, rfl, rfl⟩

/-- The tick outside MAC: the clock, the adjustment, the pulse of SLOTTICK, and no store changed. -/
theorem slotTick_holds {s : State} (hr : s.clk.record = none) (hm : s.domOn Dom.mac = false) (hx : s.domOn Dom.rxn = false)
    (temp : Int) :
    let t := Act.run (slotTick temp) s
    (∃ b, t.clk = { ticked s with tb := b }) ∧ t.get CLK.ADJPEND.ADJ = 0 ∧ (8, t.tb) ∈ t.stm.pulses ∧ SameStore s t := by
  obtain ⟨hclk, hadj, hpulse, hmem, hpat⟩ := pulsed_holds hr hm
  have hw := within_tickRest (s.domOn Dom.rxw)
  have hst := hw.sameStore (pulsed s)
  have hc : (Act.run (tickRest (s.domOn Dom.rxw)) (pulsed s)).clk = (pulsed s).clk :=
    preserves_tickRest (timerBlind_clk _) (fun _ _ h => h) (fun _ _ h => h) _ _ rfl
  have hp := preserves_tickRest (timerBlind_pulses _) (fun _ _ h => h) (fun _ _ h => h) (s.domOn Dom.rxw) _ hpulse
  rw [run_slotTick hm hx, ← pulsed.eq_def]
  dsimp only
  refine ⟨?_, ?_, ?_, hst.1.trans hmem, hst.2.trans hpat⟩
  · rwa [hc]
  · rw [hw.keeps (by decide), hadj]
  · rwa [State.tb, hc]

end Sys2Proof.Proofs
end

section
/-! A lane that is settled (R78, R114, R115): what changes beside its state. -/

namespace Sys2Proof.Proofs

open Sys2Proof.Machine Sys2Proof.Laws

variable {α : Type} {φ : State → α}

/-- A part of the state that lane `n`'s entry into a state, and a sticky bit, leave alone. -/
structure LaneBlind (n : Nat) (φ : State → α) : Prop where
  put : ∀ f v, Fixes φ (put f v)
  lane : ∀ f : LaneSt → LaneSt, (∀ l, (f l).isOpen = l.isOpen) → Fixes φ (onLane n f)
  sticky : ∀ f inst info, Fixes φ (stickI f inst info)

theorem fixes_laneEnter {n : Nat} (h : LaneBlind n φ) (st : Nat) : Fixes φ (laneEnter n st) :=
  fixes_look fun _ => fixes_cons (h.put _ _) (fixes_cons (h.lane _ fun _ => rfl) fixes_nil)

theorem fixes_stickVI_of {n : Nat} (h : LaneBlind n φ) (f : Fld) (v inst info : Nat) : Fixes φ (stickVI f v inst info) :=
  fixes_cons (h.sticky _ _ _) (fixes_cons (fixes_whenA (h.put _ _)) fixes_nil)

theorem fixes_settleLane {n : Nat} (h : LaneBlind n φ) : Fixes φ (settleLane n) :=
  fixes_look fun _ => fixes_ite (fixes_whenA (fixes_laneEnter h 0)) (fixes_ite fixes_skip
    (fixes_ite (fixes_whenA (fixes_laneEnter h 3)) (fixes_ite (fixes_whenA (fixes_laneEnter h 1))
      (fixes_ite (fixes_whenA (fixes_laneEnter h 4)) (fixes_whenA (fixes_cons (fixes_laneEnter h 2)
        (fixes_cons (fixes_stickVI_of h _ _ _ _) fixes_nil)))))))

theorem laneBlind_store (n : Nat) : LaneBlind n store :=
  ⟨fun _ _ _ => rfl, fun _ _ _ => rfl, fun _ _ _ => fixes_stickI _ _ _ fun _ _ _ _ => rfl⟩

theorem laneBlind_shu (n : Nat) : LaneBlind n State.shu :=
  ⟨fun _ _ _ => rfl, fun _ _ _ => rfl, fun _ _ _ => fixes_stickI _ _ _ fun _ _ _ _ => rfl⟩

theorem lane_onLane {n : Nat} {s : State} (h : n < s.dmd.lanes.length) (f : LaneSt → LaneSt) :
    (Act.run (onLane n f) s).lane n = f (s.lane n) := by
  simp [onLane, State.lane, h]

/-- Whether a lane's window is open, and that there is such a lane. -/
def laneOpen (n : Nat) (s : State) : Bool × Nat := ((s.lane n).isOpen, s.dmd.lanes.length)

theorem laneBlind_open (n : Nat) : LaneBlind n (laneOpen n) :=
  ⟨fun _ _ _ => rfl, fun f hf s => by
    by_cases h : n < s.dmd.lanes.length
    · rw [laneOpen, lane_onLane h, hf]
      simp [onLane, laneOpen]
    · simp [onLane, laneOpen, State.lane, h],
    fun _ _ _ => fixes_stickI _ _ _ fun _ _ _ _ => rfl⟩

end Sys2Proof.Proofs
end

section
/-! The receive windows, the staging of a cell's frame, and the store window (R111, R154, R201, R219). -/

namespace Sys2Proof.Proofs

open Sys2Proof.Machine Sys2Proof.Laws

/-- A cell of the slot after a change of it. -/
theorem cell_onCell {s : State} {k : Nat} {c : RunCell} (h : s.shu.cells[k]? = some c) (f : RunCell → RunCell) :
    (Act.run (onCell k f) s).shu.cells[k]? = some (f c) := by
  simp [onCell, h]

/-! Receive windows. -/

/-- Lane `n` listens, or listens no longer, for its cell. -/
def openLane (n : Nat) (b : Bool) : Act := chain [onLane n fun l => { l with isOpen := b }, settleLane n]

/-- A cell that waits for a lane finds none at the opening of its window. -/
def missLane (k vi : Nat) : Act :=
  chain [onCell k fun c => { c with waits := false }, count DMD.NOLANE.CNT, stickVI DMD.STICKY.NOLANE vi 0 0]

theorem openLane_isOpen {n : Nat} {s : State} (h : n < s.dmd.lanes.length) (b : Bool) :
    ((Act.run (openLane n b) s).lane n).isOpen = b := by
  rw [openLane, run_chain_cons, run_chain_cons, run_chain_nil]
  refine (congrArg Prod.fst (fixes_settleLane (laneBlind_open n) _)).trans ?_
  show ((Act.run _ s).lane n).isOpen = b
  rw [lane_onLane h]

theorem openLane_store (n : Nat) (b : Bool) : Fixes store (openLane n b) :=
  fixes_cons (fun _ => rfl) (fixes_cons (fixes_settleLane (laneBlind_store n)) fixes_nil)

theorem openLane_shu (n : Nat) (b : Bool) : Fixes State.shu (openLane n b) :=
  fixes_cons (fun _ => rfl) (fixes_cons (fixes_settleLane (laneBlind_shu n)) fixes_nil)

/-- A sticky bit with a copy for each interface is 1 in the physical page. -/
theorem stickVI_is (f : Fld) (v inst info : Nat) (s : State) (hw : f.width = 1) (hl : f.lo < 32) :
    (Act.run (stickVI f v inst info) s).is f = true := by
  rw [stickVI, run_chain_cons, run_chain_cons, run_chain_nil, run_whenA]
  split
  · next hv =>
    have hk : apart (f.copy v) f = true := by
      have : (f.copy v).key ≠ f.key := by
        rw [copy_key]
        have : v ≠ 0 := by simpa using hv
        omega
      rw [apart, bne_iff_ne.mpr this]
      rfl
    rw [run_put, put_is_apart _ _ (by rw [copy_lo, copy_width, hw]; exact hl) hk]
    exact stickI_is f inst info s hw hl
  · exact stickI_is f inst info s hw hl

theorem missLane_nolane (k vi : Nat) (s : State) : (Act.run (missLane k vi) s).is DMD.STICKY.NOLANE = true := by
  rw [missLane, run_chain_cons, run_chain_cons, run_chain_cons, run_chain_nil]
  exact stickVI_is _ _ _ _ _ rfl (by decide)

theorem missLane_store (k vi : Nat) : Fixes store (missLane k vi) :=
  fixes_cons (fun _ => rfl) (fixes_cons (fun _ => rfl) (fixes_cons
    (fixes_cons (fixes_stickI _ _ _ fun _ _ _ _ => rfl) (fixes_cons (fixes_whenA fun _ => rfl) fixes_nil)) fixes_nil))

theorem fixes_until_store (t : Nat) : Fixes store (until_ t) := fixes_until (fun _ _ => rfl) t

theorem fixes_until_dmd (t : Nat) : Fixes State.dmd (until_ t) := fixes_until (fun _ _ => rfl) t

theorem fixes_until_shu (t : Nat) : Fixes State.shu (until_ t) := fixes_until (fun _ _ => rfl) t

/-- A granted receiving cell opens its window, whatever waits for an acknowledgement. -/
theorem opens_receiving {c : RunCell} (hg : c.granted = true) (hc : c.closed = false) (ht : c.tx = false) (b : Bool) :
    (c.granted && !c.closed && (!c.tx || b)) = true := by
  rw [hg, hc, ht]
  rfl

section Windows

variable {s : State} {k : Nat} {c : RunCell} (hk : s.shu.cells[k]? = some c)
include hk

section Open

variable (hg : c.granted = true) (hc : c.closed = false) (ht : c.tx = false)
include hg hc ht

theorem exec_rxWindowOpen_lane {n : Nat} (hn : c.lane = some n) : exec (.rxWindowOpen k) s =
    .next (Act.run (openLane n true) (Act.run (until_ (s.windowOpensAt c)) s)) := by
  show act _ s = _
  rw [act_next, run_look, hk]
  dsimp only
  rw [opens_receiving hg hc ht, whenA_true, hn, run_chain_cons, run_chain_cons, run_chain_nil]
  rfl

theorem exec_rxWindowOpen_none (hn : c.lane = none) (hw : c.waits = true) : exec (.rxWindowOpen k) s =
    .next (Act.run (missLane k c.vi) (Act.run (until_ (s.windowOpensAt c)) s)) := by
  show act _ s = _
  rw [act_next, run_look, hk]
  dsimp only
  rw [opens_receiving hg hc ht, whenA_true, hn, hw, run_chain_cons, run_chain_cons, run_chain_nil]
  rfl

end Open

/-- TB at which the window of a cell closes. -/
def windowClosesAt (s : State) (c : RunCell) : Nat := s.windowOpensAt c + 4 * (if c.tx then c.t.ackwait else c.t.rxwait)

theorem exec_rxWindowClose {n : Nat} (hn : c.lane = some n) (ho : (s.lane n).isOpen = true) (hc : (s.lane n).cell = some k) :
    exec (.rxWindowClose k) s = .next (Act.run (openLane n false) (Act.run (onCell k fun c => { c with closed := true })
      (Act.run (until_ (windowClosesAt s c)) s))) := by
  show act _ s = _
  rw [act_next, run_look, hk]
  dsimp only
  rw [hn]
  dsimp only
  rw [ho, hc, Bool.true_and, beq_self_eq_true, whenA_true]
  rw [run_chain_cons, run_chain_cons]
  rfl

theorem rxWindowOpen_holds (hl : s.dmd.lanes.length = 128) (hg : c.granted = true) (hc : c.closed = false) (ht : c.tx = false) :
    (∀ n : Fin 128, c.lane = some n.val → Completes (.rxWindowOpen k) s fun t => (t.lane n).isOpen = true ∧ SameStore s t) ∧
      (c.lane = none → c.waits = true → Completes (.rxWindowOpen k) s fun t =>
        t.is DMD.STICKY.NOLANE = true ∧ SameStore s t) := by
  refine ⟨fun n hn => ⟨_, exec_rxWindowOpen_lane hk hg hc ht hn, openLane_isOpen ?_ _, sameStore_iff.mpr ?_⟩,
    fun hn hw => ⟨_, exec_rxWindowOpen_none hk hg hc ht hn hw, missLane_nolane _ _ _, sameStore_iff.mpr ?_⟩⟩
  · rw [fixes_until_dmd, hl]
    exact n.isLt
  · rw [openLane_store, fixes_until_store]
  · rw [missLane_store, fixes_until_store]

theorem rxWindowClose_holds (hl : s.dmd.lanes.length = 128) (n : Fin 128) (hn : c.lane = some n.val)
    (ho : (s.lane n).isOpen = true) (hc : (s.lane n).cell = some k) :
    Completes (.rxWindowClose k) s fun t =>
      (t.lane n).isOpen = false ∧ t.shu.cells[k]? = some { c with closed := true } ∧ SameStore s t := by
  refine ⟨_, exec_rxWindowClose hk hn ho hc, openLane_isOpen ?_ _, ?_, sameStore_iff.mpr ?_⟩
  · show n.val < (Act.run (until_ _) s).dmd.lanes.length
    rw [fixes_until_dmd, hl]
    exact n.isLt
  · rw [openLane_shu, cell_onCell]
    rw [fixes_until_shu, hk]
  · rw [openLane_store]
    exact fixes_until_store _ s

end Windows

/-! The staging buffers. -/

/-- No word is known to hold an error, so none is met. -/
theorem ue_of_bad_nil {s : State} (h : s.ecc.bad = []) (a n : Nat) : s.ue a n = false := by
  rw [State.ue, h, List.any_nil]

theorem portChain_lt (s : State) (p : Nat) : s.portChain p < 2 := by
  unfold State.portChain
  split <;> omega

/-- A run joins those of a chain. -/
theorem runs_onChain {s : State} {n : Nat} (h : n < s.txp.chains.length) (r : TxRun) :
    ((Act.run (onChain n fun x => { x with runs := x.runs ++ [r] }) s).txChain n).runs = (s.txChain n).runs ++ [r] := by
  simp [onChain, State.txChain, h]

/-- What the load of a cell's frame into a free buffer does. -/
def stageRun (k chainNo : Nat) (r : TxRun) : Act :=
  chain [onChain chainNo fun x => { x with runs := x.runs ++ [r] }, onCell k fun c => { c with loaded := true }]

theorem run_loadRun {s : State} {c : RunCell} {buf : Nat} (hb : (s.txChain (s.portChain c.port)).freeBuffer = some buf) (k : Nat)
    (octets : List Nat) : Act.run (loadRun k c octets) s =
      Act.run (stageRun k (s.portChain c.port) { s.cellRun c octets with buf }) s := by
  rw [loadRun, run_look, hb]
  rfl

/-- A cell whose frame has no job and meets no seam loads the octets of its descriptor. -/
theorem run_loadCell {s : State} {c : RunCell} {off buf : Nat} (hd : c.desc = some off) (hj : s.shu.jobs = [])
    (hb : (s.txChain (s.portChain c.port)).freeBuffer = some buf) (hs : s.seamAt c.vi off = none) (k : Nat) :
    Act.run (loadCell k c) s = Act.run (loadRun k c (s.descOctets off)) s := by
  rw [loadCell, run_look]
  dsimp only
  rw [hj, List.find?_nil, hb, hd]
  dsimp only
  rw [hs]
  rfl

theorem exec_stagingBufferLoad {s : State} {k off buf : Nat} {c : RunCell} (hk : s.shu.cells[k]? = some c)
    (hd : c.desc = some off) (hg : c.granted = true) (ht : c.tx = true) (hl : c.loaded = false) (hr : s.pairRuns = true)
    (he : s.ecc.bad = []) (hj : s.shu.jobs = []) (hb : (s.txChain (s.portChain c.port)).freeBuffer = some buf)
    (hs : s.seamAt c.vi off = none) :
    exec (.stagingBufferLoad k) s =
      .next (Act.run (stageRun k (s.portChain c.port) { s.cellRun c (s.descOctets off) with buf }) s) := by
  have hany : ((s.loadRanges c).any fun r => s.ue r.1 r.2) = false := List.any_eq_false.mpr fun r _ => by
    rw [ue_of_bad_nil he]
    exact Bool.false_ne_true
  show act _ s = _
  rw [act_next, run_look, hk]
  dsimp only
  rw [hg, ht, hl, hr, hany]
  exact congrArg Host.Outcome.next ((run_loadCell hd hj hb hs k).trans (run_loadRun hb k _))

/-- Settles O31: the tick by its clock and its pulse, the windows by their lane, and the load by its run. -/
theorem slotEvents : Obligations.SlotEvents := by
  intro s i k c
  refine ⟨fun temp hc ht hm hx hr => ?_, fun hk hlen => ⟨fun hg hcl htx => rxWindowOpen_holds hk hlen hg hcl htx,
    fun n hn ho hcell => rxWindowClose_holds hk hlen n hn ho hcell, fun off buf hd hg htx hl hrun he hj hb hlen2 hs => ?_⟩,
    fun off q hq => completes_of_run _ rfl ?_⟩
  · obtain ⟨⟨b, hclk⟩, hadj, hpulse, hst⟩ := slotTick_holds hr hm hx temp
    have hex : exec (.slotTick temp) s = .next (Act.run (slotTick temp) s) := by
      show act _ s = _
      rw [act_next, run_look, hc, ht]
      rfl
    refine ⟨_, hex, ?_, ?_, ?_, ?_, hadj, hpulse, hst⟩
    all_goals rw [hclk]; rfl
  · refine ⟨_, exec_stagingBufferLoad hk hd hg htx hl hrun he hj hb hs, ?_, ?_, rfl, rfl, rfl⟩
    · exact runs_onChain (by rw [hlen2]; exact portChain_lt s _) _
    · exact cell_onCell hk _
  · rw [run_look, hq]
    exact ⟨stick_is _ s rfl (by decide), sticks_stick _ (by decide) s⟩

end Sys2Proof.Proofs
end

section
/-! The work of the lanes within a frame, and what it leaves alone wherever it is (R103 to R115, R129, R187). -/

namespace Sys2Proof.Proofs

open Sys2Proof.Machine Sys2Proof.Laws

/-! Within a frame. -/

section Frame

variable {d : Bool} {ps : List Page}

@[fun_prop] theorem within_onDmd (f : DmdSt → DmdSt) : Within d ps (onDmd f ·) := within_one fun _ => trivial
@[fun_prop] theorem within_onRfe (f : RfeSt → RfeSt) : Within d ps (onRfe f ·) := within_one fun _ => trivial

@[fun_prop] theorem within_onLane (n : Nat) (f : LaneSt → LaneSt) : Within d ps (onLane n f ·) := by
  unfold onLane
  fun_prop

@[fun_prop] theorem within_onCell (k : Nat) (f : RunCell → RunCell) : Within d ps (onCell k f ·) := by
  unfold onCell
  fun_prop

variable {n : Nat} (hn : n < 128) (hd : ps.contains .DMD = true)
include hn

/-- The bit of a lane in a row of registers, 32 lanes to each. -/
theorem within_put_laneBit {f : Fld} (v : Nat) (h : permits ps (arrayPage f 4) = true) :
    Within d ps (put (f.mapBit n) v ·) := by
  have hp : permits ps (pageOf (f.i (n / 32))) = true := permits_i (by omega) h
  exact within_put v hp

include hd

@[fun_prop] theorem within_laneEnter (st : Nat) : Within d ps (laneEnter n st ·) := by
  unfold laneEnter
  fun_prop (disch := assumption)

@[fun_prop] theorem within_showBuffers : Within d ps (showBuffers n ·) := by
  unfold showBuffers
  fun_prop (disch := assumption)

@[fun_prop] theorem within_settleLane (hc : ps.contains .CHZ = true) : Within d ps (settleLane n ·) := by
  unfold settleLane
  fun_prop (disch := assumption)

@[fun_prop] theorem within_assignLane (k : Nat) (hf : ps.contains .FEC = true) : Within d ps (assignLane n k ·) := by
  refine within_look fun s => ?_
  cases s.shu.cells[k]? with
  | none => exact within_skip
  | some c =>
    have hr (v : Nat) := within_put_laneBit (d := d) hn (f := FEC.RSCMAP.L) v hf
    have hi (v : Nat) := within_put_laneBit (d := d) hn (f := FEC.ILVMAP.L) v hf
    dsimp only
    fun_prop (disch := assumption)

@[fun_prop] theorem within_laneFreed (hf : ps.contains .FEC = true) : Within d ps (laneFreed n ·) := by
  refine within_look fun s => ?_
  generalize List.find? _ _ = o
  cases o with
  | none => exact within_skip
  | some k => exact within_assignLane hn hd k hf

end Frame

/-! Outside the registers. -/

variable {α : Type} {φ : State → α}

/-- A part of the state that the work of lane `n` leaves alone: it is no register, lane, cell or port, and the frames of the
lane do not count in it. -/
structure LaneWork (n : Nat) (φ : State → α) : Prop extends LaneBlind n φ where
  anyLane : ∀ f, Fixes φ (onDmd f)
  cell : ∀ k f, Fixes φ (onCell k f)
  port : ∀ p f, Fixes φ (onPort p f)
  drop : ∀ buf, Fixes φ (onFrm fun r => { r with frames := r.frames.filter fun x => !(x.lane == n && x.buf == buf) })

section Work

variable {n : Nat} (h : LaneWork n φ)
include h

theorem fixes_assignLane (k : Nat) : Fixes φ (assignLane n k) := fixes_look fun s => by
  cases s.shu.cells[k]? with
  | none => exact fixes_skip
  | some c =>
    exact fixes_cons (h.put _ _) <| fixes_cons (h.put _ _) <| fixes_cons (h.put _ _) <| fixes_cons (h.put _ _) <|
      fixes_cons (h.put _ _) <| fixes_cons (h.put _ _) <|
      fixes_cons (fixes_whenA <| fixes_cons (h.put _ _) <| fixes_cons (h.put _ _) fixes_nil) <|
      fixes_cons (fixes_whenA (h.anyLane _)) <| fixes_cons (h.anyLane _) <| fixes_cons (h.cell _ _) fixes_nil

theorem fixes_laneFreed : Fixes φ (laneFreed n) := fixes_look fun s => by
  generalize List.find? _ _ = o
  cases o with
  | none => exact fixes_skip
  | some k => exact fixes_assignLane h k

theorem fixes_showBuffers : Fixes φ (showBuffers n) :=
  fixes_look fun _ => fixes_cons (h.put _ _) (fixes_cons (h.put _ _) fixes_nil)

theorem fixes_restartDwell (p : Nat) : Fixes φ (restartDwell p) := fixes_look fun _ => h.port p _

theorem fixes_setGain (p : Nat) (g : Int) : Fixes φ (setGain p g) := fixes_look fun _ => fixes_whenA <|
  fixes_cons (h.put _ _) <| fixes_cons (h.put _ _) <| fixes_cons (h.put _ _) <| fixes_cons (h.put _ _) <|
    fixes_cons (h.port p _) fixes_nil

theorem fixes_liftFreeze (p : Nat) : Fixes φ (liftFreeze p) := fixes_look fun s => fixes_whenA <|
  fixes_cons (h.put _ _) <|
    fixes_cons (by cases (s.rfPort p).heldTune with
      | none => exact fixes_skip
      | some t => exact h.put _ _) <|
    fixes_cons (h.port p _) <| fixes_cons (fixes_whenA (fixes_look fun _ => fixes_setGain h p _)) <|
    fixes_cons (h.put _ _) <| fixes_cons (fixes_restartDwell h p) fixes_nil

theorem fixes_dropFrame (k : Option Nat) : Fixes φ (dropFrame n k) := fixes_look fun s => by
  cases s.laneFrame n with
  | none => exact fixes_skip
  | some f =>
    exact fixes_cons (by cases k with
        | none => exact fixes_skip
        | some c => unfold countLane; exact h.anyLane _) <|
      fixes_cons (h.drop f.buf) <| fixes_cons (h.anyLane _) <| fixes_cons (h.put _ _) <|
      fixes_cons (fixes_settleLane h.toLaneBlind) <| fixes_cons (fixes_laneFreed h) <|
      fixes_cons (fixes_showBuffers h) <| fixes_cons (fixes_liftFreeze h f.port) fixes_nil

theorem fixes_checkLane : Fixes φ (checkLane n) := fixes_look fun _ =>
  fixes_cons (fixes_whenA (fixes_dropFrame h (some 8))) (fixes_cons (fixes_settleLane h.toLaneBlind) fixes_nil)

end Work

theorem fixes_checkPort (h : ∀ n, LaneWork n φ) (p : Nat) : Fixes φ (checkPort p) :=
  fixes_look fun _ => fixes_eachA fun n => fixes_checkLane (h n)

theorem laneWork_clk (n : Nat) : LaneWork n State.clk where
  put _ _ _ := rfl
  lane _ _ _ := rfl
  sticky _ _ _ := fixes_stickI _ _ _ fun _ _ _ _ => rfl
  anyLane _ _ := rfl
  cell _ _ _ := rfl
  port _ _ _ := rfl
  drop _ _ := rfl

/-- The calibration units. -/
theorem laneWork_cal (n : Nat) : LaneWork n fun s => (s.rfe.cal, s.rfe.xoMoves) where
  put _ _ _ := rfl
  lane _ _ _ := rfl
  sticky _ _ _ := fixes_stickI _ _ _ fun _ _ _ _ => rfl
  anyLane _ _ := rfl
  cell _ _ _ := rfl
  port _ _ _ := rfl
  drop _ _ := rfl

/-- The frame in progress on another lane. -/
theorem laneWork_frame {n m : Nat} (hm : m ≠ n) : LaneWork n (State.laneFrame · m) where
  put _ _ _ := rfl
  lane _ _ _ := rfl
  sticky _ _ _ := fixes_stickI _ _ _ fun _ _ _ _ => rfl
  anyLane _ _ := rfl
  cell _ _ _ := rfl
  port _ _ _ := rfl
  drop buf s := by
    show ((s.frm.frames.filter _).filter _).find? _ = (s.frm.frames.filter _).find? _
    rw [List.find?_filter, List.find?_filter, List.find?_filter]
    congr 1
    funext x
    by_cases hx : x.lane = m
    · simp [hx, hm]
    · simp [hx]

end Sys2Proof.Proofs
end

section
/-! Gain (R74 to R82), and what the work of a port's lanes leaves of the registers. -/

namespace Sys2Proof.Proofs

open Sys2Proof.Machine Sys2Proof.Laws

/-- A write of a field leaves the other registers alone. -/
theorem keeps_put_ne {f g : Fld} (v : Nat) (h : g.key ≠ f.key) : Keeps (put f v) g := fun s => by
  rw [run_put, State.get, State.get, put_reg_ne s f v g.key h]

/-! What a change of gain, and the end of a freeze, leave of the registers. -/

section Registers

variable {n : Nat} {g : Fld} (hg : g.key ≠ (RFE.PGSTAT.i n).key)

theorem keeps_onPort (f : RfPort → RfPort) : Keeps (onPort n f) g := fun _ => rfl

theorem keeps_restartDwell : Keeps (restartDwell n) g := fun _ => rfl

include hg

theorem keeps_setGain (x : Int) : Keeps (setGain n x) g := keeps_look fun _ => keeps_whenA <|
  keeps_cons (keeps_put_ne _ hg) <| keeps_cons (keeps_put_ne _ hg) <| keeps_cons (keeps_put_ne _ hg) <|
    keeps_cons (keeps_put_ne _ hg) <| keeps_cons (keeps_onPort _) (keeps_nil g)

theorem keeps_startGain : Keeps (startGain n) g := keeps_look fun _ => keeps_setGain hg _

theorem keeps_gainChanged (starts : Bool) : Keeps (gainChanged n starts) g := keeps_look fun _ => keeps_ite
  (keeps_cons (keeps_put_ne _ hg) <| keeps_cons (keeps_whenA (keeps_onPort _)) (keeps_nil g))
  (keeps_cons (keeps_onPort _) <| keeps_cons (keeps_look fun _ => keeps_whenA (keeps_startGain hg)) (keeps_nil g))

theorem keeps_liftFreeze (ht : g.key ≠ (RFE.PTUNE.i n).key) : Keeps (liftFreeze n) g := keeps_look fun s => keeps_whenA <|
  keeps_cons (keeps_put_ne _ hg) <|
    keeps_cons (by cases (s.rfPort n).heldTune with
      | none => exact keeps_skip g
      | some t => exact keeps_put_ne _ ht) <|
    keeps_cons (keeps_onPort _) <| keeps_cons (keeps_whenA (keeps_startGain hg)) <|
    keeps_cons (keeps_put_ne _ hg) <| keeps_cons keeps_restartDwell (keeps_nil g)

end Registers

/-! What the lanes of a port leave of the registers when the port's state has changed. -/

section Lanes

/-- A field in no register that lanes, or the end of a freeze of port `p`, write. -/
structure OffPort (p : Nat) (g : Fld) : Prop where
  page : ∀ q ∈ [Page.DMD, .CHZ, .FEC], addrPage (keyAddr g.key) ≠ q.code
  gain : g.key ≠ (RFE.PGSTAT.i p).key
  tune : g.key ≠ (RFE.PTUNE.i p).key

variable {n p : Nat} {g : Fld} (hn : n < 128) (hg : OffPort p g)
include hn hg

theorem keeps_settleLane : Keeps (settleLane n) g :=
  Within.keeps (d := false) (ps := [.DMD, .CHZ, .FEC]) (within_settleLane hn rfl rfl) hg.page

/-- A lane whose frame in progress, if it has one, came through port `p` drops it. -/
theorem dropFrame_get {s : State} (hs : ∀ f, s.laneFrame n = some f → f.port = p) (k : Option Nat) :
    (Act.run (dropFrame n k) s).get g = s.get g := by
  have hput (v : Nat) : Keeps (put (DMD.LSTAT.CLIPM.i n) v) g :=
    Within.keeps (d := false) (ps := [.DMD, .CHZ, .FEC]) (within_put_i v hn rfl) hg.page
  have hfreed : Keeps (laneFreed n) g :=
    Within.keeps (d := false) (ps := [.DMD, .CHZ, .FEC]) (within_laneFreed hn rfl rfl) hg.page
  have hshow : Keeps (showBuffers n) g :=
    Within.keeps (d := false) (ps := [.DMD, .CHZ, .FEC]) (within_showBuffers hn rfl) hg.page
  rw [dropFrame.eq_def, run_look]
  cases hf : s.laneFrame n with
  | none => rfl
  | some f =>
    obtain rfl := hs f hf
    exact keeps_cons (g := g) (by cases k with
        | none => exact keeps_skip g
        | some c => exact show Keeps (countLane n c) g from fun _ => rfl)
      (keeps_cons (fun _ => rfl) <| keeps_cons (fun _ => rfl) <| keeps_cons (hput 0) <|
        keeps_cons (keeps_settleLane hn hg) <| keeps_cons hfreed <| keeps_cons hshow <|
        keeps_cons (keeps_liftFreeze hg.gain hg.tune) (keeps_nil g)) s

theorem checkLane_get {s : State} (hs : ∀ f, s.laneFrame n = some f → f.port = p) :
    (Act.run (checkLane n) s).get g = s.get g := by
  rw [checkLane, run_look, run_chain_cons, run_chain_cons, run_chain_nil, keeps_settleLane hn hg, run_whenA]
  split
  · exact dropFrame_get hn hg hs _
  · rfl

omit hn hg

/-- The frame in progress on a lane of a port came through the port. -/
theorem port_of_laneSite {s : State} {f : RxFrame} (hp : s.laneSite n = p) (hf : s.laneFrame n = some f) : f.port = p := by
  rw [State.laneSite, hf] at hp
  exact hp

include hg

theorem checkLanes_get {l : List Nat} (hnd : l.Nodup) (hl : ∀ m ∈ l, m < 128) {s : State}
    (hs : ∀ m ∈ l, ∀ f, s.laneFrame m = some f → f.port = p) : (Act.run (eachA l checkLane) s).get g = s.get g := by
  induction l generalizing s with
  | nil => rfl
  | cons m l ih =>
    obtain ⟨hm, hnd⟩ := List.nodup_cons.mp hnd
    rw [run_eachA_cons, ih hnd fun k hk => hl k (List.mem_cons_of_mem _ hk)]
    · exact checkLane_get (hl m List.mem_cons_self) hg (hs m List.mem_cons_self)
    · intro k hk f hf
      have hne : k ≠ m := fun he => hm (he ▸ hk)
      refine hs k (List.mem_cons_of_mem _ hk) f ?_
      rwa [show (Act.run (checkLane m) s).laneFrame k = s.laneFrame k from fixes_checkLane (laneWork_frame hne) s] at hf

/-- The lanes of a port touch no register but their own, their sticky bits' and the port's gain and tuner. -/
theorem keeps_checkPort : Keeps (checkPort p) g := fun s => by
  rw [checkPort, run_look]
  refine checkLanes_get hg (List.nodup_range.filter _) (fun m hm => List.mem_range.mp (List.mem_of_mem_filter hm)) ?_
  intro m hm f hf
  exact port_of_laneSite (beq_iff_eq.mp (List.mem_filter.mp hm).2) hf

end Lanes

end Sys2Proof.Proofs
end

section
/-! The AGC, writes of a gain, clipping and the converters (R74 to R83), and the return loss (R90 to R92). -/

namespace Sys2Proof.Proofs

open Sys2Proof.Machine Sys2Proof.Laws

/-! Registers. -/

theorem apart_of_key {f g : Fld} (h : f.key ≠ g.key) : apart f g = true := by
  rw [apart, bne_iff_ne.mpr h]
  rfl

/-- Fields of one array of registers share no bit where those of its first register do not. -/
theorem apart_i {f g : Fld} (h : apart f g = true) (hs : f.stride = g.stride) (n : Nat) : apart (f.i n) (g.i n) = true := by
  simp only [apart, Bool.or_eq_true, bne_iff_ne, decide_eq_true_eq] at h
  obtain (hk | hl) | hl := h
  · exact apart_of_key (by rw [i_key, i_key, hs]; omega)
  · simp [apart, hl]
  · simp [apart, hl]

/-- A write of a field of an array leaves a field of the same number alone that shares no bit with it. -/
theorem keeps_put_i {f g : Fld} (v n : Nat) (h : f.lo + f.width ≤ 32) (hd : apart f g = true) (hs : f.stride = g.stride) :
    Keeps (put (f.i n) v) (g.i n) := keeps_put v h (apart_i hd hs n)

/-- An action within a frame keeps a field of a page that is none of the frame's. -/
theorem Within.keeps_page {d : Bool} {ps : List Page} {a : Act} {g : Fld} {p : Page} (h : Within d ps (a ·))
    (hg : pageOf g = some p) (hp : p ∉ ps) : Keeps a g := h.keeps fun q hq he => hp <| by
  rw [← code_of_ofCode hg] at he
  have := congrArg Page.ofCode he
  rw [ofCode_code, ofCode_code] at this
  rwa [Option.some.inj this]

/-- The same for a field of one of `k` registers of an array. -/
theorem Within.keeps_i {d : Bool} {ps : List Page} {a : Act} {f : Fld} {p : Page} {n : Nat} (h : Within d ps (a ·)) (k : Nat)
    (hn : n < k) (hf : arrayPage f k = some p) (hp : p ∉ ps) : Keeps a (f.i n) := by
  have hperm : permits [p] (arrayPage f k) = true := by rw [hf, permits, List.contains_cons, beq_self_eq_true, Bool.true_or]
  obtain ⟨q, hq, hpage⟩ := permits_iff.mp (permits_i hn hperm)
  rw [List.mem_singleton.mp hq] at hpage
  exact h.keeps_page hpage hp

/-- A signed number of 8 bits reads as it was written. -/
theorem putS_getS_byte {f : Fld} {x : Int} (s : State) (hw : f.width = 8) (hl : f.lo ≤ 24) (hlo : -128 ≤ x) (hhi : x < 128) :
    (Act.run (putS f x) s).getS f = x := by
  rw [putS, run_put, State.getS, put_get_same _ _ _ (by omega), hw]
  unfold toS ofS
  split <;> omega

theorem rfPort_onPort {s : State} {n : Nat} (h : n < s.rfe.ports.length) (f : RfPort → RfPort) :
    (Act.run (onPort n f) s).rfPort n = f (s.rfPort n) := by
  simp [onPort, State.rfPort, h]

/-! Within a frame. -/

section Frame

variable {d : Bool} {ps : List Page}

@[fun_prop] theorem within_onPort (n : Nat) (f : RfPort → RfPort) : Within d ps (onPort n f ·) := by
  unfold onPort
  fun_prop

@[fun_prop] theorem within_restartDwell (n : Nat) : Within d ps (restartDwell n ·) := by
  unfold restartDwell
  fun_prop

@[fun_prop] theorem within_putS_i {f : Fld} {k m : Nat} (x : Int) (hm : m < k) (h : permits ps (arrayPage f k) = true) :
    Within d ps (putS (f.i m) x ·) := within_put_i _ hm h

variable {n : Nat} (hn : n < 2)
include hn

@[fun_prop] theorem within_sampled (level : Int) (peak : Nat) (h : ps.contains .RXS = true) :
    Within d ps (sampled n level peak ·) := by
  unfold sampled peakSeen
  fun_prop (disch := assumption)

variable (h : ps.contains .RFE = true)
include h

@[fun_prop] theorem within_setGain (x : Int) : Within d ps (setGain n x ·) := by
  unfold setGain
  fun_prop (disch := assumption)

@[fun_prop] theorem within_startGain : Within d ps (startGain n ·) := by
  unfold startGain
  fun_prop (disch := assumption)

@[fun_prop] theorem within_gainChanged (starts : Bool) : Within d ps (gainChanged n starts ·) := by
  unfold gainChanged
  fun_prop (disch := assumption)

@[fun_prop] theorem within_agcStep (x : Int) : Within d ps (agcStep n x ·) := by
  unfold agcStep
  fun_prop (disch := assumption)

end Frame

/-! Gain. -/

/-- A gain that is set is the gain, limited to its range (R74). -/
theorem setGain_gain (n : Nat) (x : Int) (s : State) :
    (Act.run (setGain n x) s).getS (RFE.PGSTAT.GAIN.i n) = clampS (-31) 30 x := by
  have hlna (v : Nat) := keeps_put_i (f := RFE.PGSTAT.LNA) (g := RFE.PGSTAT.GAIN) v n (by decide) (by decide) rfl
  have hatt (v : Nat) := keeps_put_i (f := RFE.PGSTAT.ATT) (g := RFE.PGSTAT.GAIN) v n (by decide) (by decide) rfl
  have hset (v : Nat) := keeps_put_i (f := RFE.PGSTAT.SETTLING) (g := RFE.PGSTAT.GAIN) v n (by decide) (by decide) rfl
  rw [setGain, run_look]
  dsimp only
  rw [run_whenA]
  split
  · repeat rw [run_chain_cons]
    rw [run_chain_nil, getS_of_keeps (keeps_onPort _), getS_of_keeps (hset _), getS_of_keeps (hatt _), getS_of_keeps (hlna _)]
    exact putS_getS_byte s rfl (by decide : 0 ≤ 24) (by unfold clampS; omega) (by unfold clampS; omega)
  · next hx => exact (by simpa using hx : _ = _).symm

/-- A step of the AGC, limited to its window and to the range of the gain (R77). -/
theorem agcStep_gain (n : Nat) (x : Int) (s : State) :
    let sch := s.getS (RFE.PGAIN.SCHGAIN.i n)
    let span : Int := s.get (RFE.PCFG.AGCSPAN.i n)
    (Act.run (agcStep n x) s).getS (RFE.PGSTAT.GAIN.i n) =
      clampS (-31) 30 (clampS (sch - span) (sch + span) (s.getS (RFE.PGSTAT.GAIN.i n) + x)) := by
  rw [agcStep, run_look]
  dsimp only
  rw [run_chain_cons, run_chain_cons, run_chain_nil, getS_of_keeps keeps_restartDwell, setGain_gain]

/-- What intervals of samples do before the AGC's decision, and a step of it. -/
def agcMove (n t : Nat) (level : Int) (peak : Nat) (x : Int) : Act :=
  chain [until_ t, sampled n level peak, agcStep n x]

/-- The largest sample magnitude is kept (R99). -/
theorem peakSeen_get (n : Fin 2) (m : Nat) (s : State) :
    (Act.run (peakSeen n m) s).get (RXS.PPEAK.PK.i n) = max (s.get (RXS.PPEAK.PK.i n)) (min m 2048) := by
  have hlt := get_lt s (RXS.PPEAK.PK.i n)
  have hw : (RXS.PPEAK.PK.i n).width = 12 := rfl
  rw [peakSeen, run_look, run_put, put_get_same _ _ _ (by decide : 0 + 12 ≤ 32), hw]
  rw [hw] at hlt
  omega

theorem agcMove_holds (n : Fin 2) (t : Nat) (level : Int) (peak : Nat) (x : Int) (s : State) :
    let sch := s.getS (RFE.PGAIN.SCHGAIN.i n)
    let span : Int := s.get (RFE.PCFG.AGCSPAN.i n)
    let u := Act.run (agcMove n t level peak x) s
    u.getS (RFE.PGSTAT.GAIN.i n) =
        clampS (-31) 30 (clampS (sch - span) (sch + span) (s.getS (RFE.PGSTAT.GAIN.i n) + x)) ∧
      (s.is (RXS.STAT.RUN0.bit n) = true →
        u.get (RXS.PPEAK.PK.i n) = max (s.get (RXS.PPEAK.PK.i n)) (min peak 2048)) ∧ SameStore s u := by
  have hsam : Within false [.RXS] (sampled n level peak ·) := within_sampled n.isLt _ _ rfl
  have hstep : Within false [.RFE] (agcStep n x ·) := within_agcStep n.isLt rfl x
  have hall : Within false [.RXS, .RFE] (agcMove n t level peak x ·) := by
    have := n.isLt
    unfold agcMove
    fun_prop (disch := first | assumption | rfl)
  dsimp only
  refine ⟨?_, fun hrun => ?_, hall.sameStore s⟩
  · rw [agcMove, run_chain_cons, run_chain_cons, run_chain_cons, run_chain_nil, agcStep_gain]
    have hsch := hsam.keeps_i (f := RFE.PGAIN.SCHGAIN) 2 n.isLt rfl (by decide)
    have hgain := hsam.keeps_i (f := RFE.PGSTAT.GAIN) 2 n.isLt rfl (by decide)
    have hspan := hsam.keeps_i (f := RFE.PCFG.AGCSPAN) 2 n.isLt rfl (by decide)
    rw [getS_of_keeps hsch, getS_of_keeps hgain, hspan, getS_of_keeps (keeps_until _ _), getS_of_keeps (keeps_until _ _),
      keeps_until]
  · have hlev (v : Nat) := keeps_put_i (f := RXS.PLEVEL.L) (g := RXS.PPEAK.PK) v n (by decide) (by decide) rfl
    rw [agcMove, run_chain_cons, run_chain_cons, run_chain_cons, run_chain_nil, hstep.keeps_i 2 n.isLt rfl (by decide),
      sampled, run_look, is_of_keeps (keeps_until _ _), hrun, whenA_true, run_chain_cons, run_chain_cons, run_chain_nil,
      peakSeen_get, putS, hlev, keeps_until]

theorem exec_agcStepDown {s : State} {n : Fin 2} {level : Int} (ha : s.agcActs n = true)
    (hl : s.getS (RFE.PAGC.AGCHI.i n) < level) (peak : BitVec 12) :
    ∃ t, exec (.agcStepDown n (level, peak)) s =
      .next (Act.run (agcMove n t level peak.toNat (-(s.get (RFE.PAGC.AGCSTEP.i n) : Int))) s) := by
  refine ⟨(s.rfPort n).dwellFrom + 4 * s.get (RFE.PAGC.DWELLDN.i n), ?_⟩
  show act _ s = _
  rw [act_next, run_look, ha]
  dsimp only
  rw [show (true && decide (level > s.getS (RFE.PAGC.AGCHI.i n))) = true from decide_eq_true hl]
  rfl

theorem exec_agcStepUp {s : State} {n : Fin 2} {level : Int} (ha : s.agcActs n = true)
    (hl : level < s.getS (RFE.PAGC.AGCLO.i n)) (peak : BitVec 12) :
    ∃ t, exec (.agcStepUp n (level, peak)) s =
      .next (Act.run (agcMove n t level peak.toNat (s.get (RFE.PAGC.AGCSTEP.i n))) s) := by
  refine ⟨(s.rfPort n).dwellFrom + 4 * s.get (RFE.PAGC.DWELLUP.i n), ?_⟩
  show act _ s = _
  rw [act_next, run_look, ha]
  dsimp only
  rw [show (true && decide (level < s.getS (RFE.PAGC.AGCLO.i n))) = true from decide_eq_true hl]
  rfl

end Sys2Proof.Proofs
end

section
/-! The commands of the front end (R74 to R83, R90). -/

namespace Sys2Proof.Proofs

open Sys2Proof.Machine Sys2Proof.Laws

/-! A written gain (R75, R80). -/

/-- What the table of page RFE says of PnGAIN. -/
def pgainDesc : RegDesc :=
  ⟨0x044, 2, 64, 0, .shared, [⟨8, 8, .rw, .signed (-31) 30⟩, ⟨0, 8, .rw, .signed (-31) 30⟩]⟩

theorem keyOf_pgain (n : Fin 2) : KeyOf (RFE.PGAIN.i n).key .RFE (0x44 + 0x40 * n) pgainDesc where
  addr := by decide +revert
  small := by omega
  found := found_of_findReg (by decide +revert)

/-- A permitted value of SCHGAIN is stored. -/
theorem plainWrite_schgain (n : Fin 2) {w : Word} (s : State) (hlo : -31 ≤ toS 8 (fieldOf w RFE.PGAIN.SCHGAIN.lo 8))
    (hhi : toS 8 (fieldOf w RFE.PGAIN.SCHGAIN.lo 8) ≤ 30) :
    (Act.run (plainWrite (RFE.PGAIN.i n).key 0 w.toNat) s).getS (RFE.PGAIN.SCHGAIN.i n) =
      toS 8 (fieldOf w RFE.PGAIN.SCHGAIN.lo 8) := by
  have hk := keyOf_pgain n
  have hof : FieldDesc.of ⟨0, 8, .rw, .signed (-31) 30⟩ w.toNat = fieldOf w RFE.PGAIN.SCHGAIN.lo 8 := rfl
  have hallows : (Lim.signed (-31) 30).allows 8 (fieldOf w RFE.PGAIN.SCHGAIN.lo 8) = true := by
    have hlt : fieldOf w RFE.PGAIN.SCHGAIN.lo 8 < 2 ^ 8 := Nat.mod_lt _ (Nat.two_pow_pos _)
    unfold toS at hlo hhi
    rw [Nat.mod_eq_of_lt hlt] at hlo hhi
    simp only [Lim.allows, Bool.and_eq_true, decide_eq_true_eq]
    exact ⟨hlo, hhi⟩
  have hget := judgeAll_get hk.judgeable (fun f _ hr => hk.lock_apart f hr) (w := w) s ⟨0, 8, .rw, .signed (-31) 30⟩
    (by simp [pgainDesc])
  rw [plainWrite_eq hk, State.getS]
  refine congrArg (toS 8) (hget.trans ?_)
  simp only [fieldAfter, hof, hallows, if_true]

theorem writePgain_holds (n : Fin 2) {w : Word} (s : State) (hlo : -31 ≤ toS 8 (fieldOf w RFE.PGAIN.SCHGAIN.lo 8))
    (hhi : toS 8 (fieldOf w RFE.PGAIN.SCHGAIN.lo 8) ≤ 30) :
    let t := Act.run (writePgain n w.toNat) s
    t.getS (RFE.PGAIN.SCHGAIN.i n) = toS 8 (fieldOf w RFE.PGAIN.SCHGAIN.lo 8) ∧ SameStore s t := by
  have hn := n.isLt
  have hp : permits [.RFE] (Page.ofCode (addrPage (keyAddr (RFE.PGAIN.i n).key))) = true := by
    rw [(keyOf_pgain n).page]
    rfl
  have hall : Within false [.RFE] (writePgain n w.toNat ·) := by
    unfold writePgain
    fun_prop (disch := first | assumption | rfl)
  have hkey : (RFE.PGAIN.SCHGAIN.i n).key ≠ (RFE.PGSTAT.i n).key := by
    show 0x40010044 + 64 * n.val ≠ 0x40010048 + 64 * n.val
    omega
  refine ⟨?_, hall.sameStore s⟩
  rw [writePgain, run_look]
  dsimp only
  rw [run_chain_cons, run_chain_cons, run_chain_nil, run_look, getS_of_keeps (keeps_whenA (keeps_gainChanged hkey _)),
    plainWrite_schgain n s hlo hhi]

/-! A gain that has settled (R78). -/

/-- What lane `k` of port `n` does once the gain has settled. -/
def settledLane (n k : Nat) : Act :=
  chain [look fun s => whenA (s.laneState k == 5 && s.get (portFld n) == 2) (laneEnter k 4), settleLane k, laneFreed k]

/-- What happens once the gain has settled. -/
def gainHasSettled (n : Nat) (s : State) : Act :=
  chain [until_ (s.rfPort n).settleAt, put (RFE.PGSTAT.SETTLING.i n) 0,
    eachA ((List.range 128).filter fun k => s.lanePort k == n) (settledLane n)]

theorem within_settledLane {n k : Nat} (hk : k < 128) : Within false [.DMD, .CHZ, .FEC] (settledLane n k ·) := by
  unfold settledLane
  fun_prop (disch := first | assumption | rfl)

theorem fixes_settledLane_clk (n k : Nat) : Fixes State.clk (settledLane n k) :=
  fixes_cons (fixes_look fun _ => fixes_whenA (fixes_laneEnter (laneWork_clk k).toLaneBlind 4))
    (fixes_cons (fixes_settleLane (laneWork_clk k).toLaneBlind) (fixes_cons (fixes_laneFreed (laneWork_clk k)) fixes_nil))

theorem gainHasSettled_holds (n : Fin 2) {s : State} (ha : (s.rfPort n).settleAt < 2 ^ 64) :
    let t := Act.run (gainHasSettled n s) s
    t.is (RFE.PGSTAT.SETTLING.i n) = false ∧ (s.rfPort n).settleAt ≤ t.tb ∧ SameStore s t := by
  have hlanes : Within false [.DMD, .CHZ, .FEC]
      (eachA ((List.range 128).filter fun k => s.lanePort k == n.val) (settledLane n) ·) :=
    within_eachA_filter fun k hk => within_settledLane hk
  have hclk : Fixes State.clk (eachA ((List.range 128).filter fun k => s.lanePort k == n.val) (settledLane n)) :=
    fixes_eachA (fixes_settledLane_clk n)
  dsimp only
  rw [gainHasSettled, run_chain_cons, run_chain_cons, run_chain_cons, run_chain_nil]
  refine ⟨?_, ?_, ?_⟩
  · rw [is_of_keeps (hlanes.keeps_i 2 n.isLt rfl (by decide)), run_put]
    exact put_is_same _ _ 0 rfl (by decide : 18 < 32)
  · rw [State.tb, hclk]
    show _ ≤ (Act.run (until_ _) s).tb
    rw [until_tb _ _ ha]
    exact le_max_right _ _
  · refine sameStore_iff.mpr ((sameStore_iff.mp (hlanes.sameStore _)).trans ?_)
    exact fixes_until_store _ s

/-! A clip event (R81). -/

/-- A mark on a frame reaches no page below that of the lanes. -/
theorem keeps_markClip {g : Fld} (hg : g.key < DMD.STICKY.key) (f : RxFrame) : Keeps (markClip f) g := by
  have hg' : g.key < 0x40013010 := hg
  refine keeps_whenA (keeps_cons (fun _ => rfl) (keeps_cons (keeps_put_ne _ ?_) (keeps_cons (keeps_stickVI _ _ _ (by decide)
    (apart_of_key hg.ne') (apart_of_key ?_)) (keeps_nil g))))
  · rw [i_key]
    show g.key ≠ 0x40013800 + 4 * f.lane
    omega
  · rw [copy_key]
    show 0x40013010 + 0x100000000 * f.vi ≠ g.key
    omega

theorem fixes_markClip_store (f : RxFrame) : Fixes store (markClip f) := fixes_whenA <|
  fixes_cons (fun _ => rfl) <| fixes_cons (fun _ => rfl) <|
    fixes_cons (fixes_cons (fixes_stickI _ _ _ fun _ _ _ _ => rfl) (fixes_cons (fixes_whenA fun _ => rfl) fixes_nil)) fixes_nil

/-- What a clip does on a port that is frozen. -/
def clipFrozen (n : Nat) (s : State) : Act :=
  chain [eachA (s.inProgress.filter (·.port == n)) markClip, stick (RFE.STICKY.CLIP0.bit n)]

/-- What a clip does on a port that is not. -/
def clipFree (n : Nat) (s : State) : Act :=
  whenA ((s.rfPort n).mode == 0) (agcStep n (-(s.get (RFE.PCFG.CLIPSTEP.i n) : Int)))

/-- What a clip event records of itself. -/
def clipSeen (n m : Nat) : Act := chain [count (RXS.PCLIPS.CNT.i n), peakSeen n m, stick (RXS.STICKY.CLIPEV0.bit n)]

theorem clipSeen_holds (n : Fin 2) {m : Nat} (hm : m ≤ 2048) (s : State) :
    let t := Act.run (clipSeen n m) s
    t.get (RXS.PPEAK.PK.i n) = max (s.get (RXS.PPEAK.PK.i n)) m ∧ t.is (RXS.STICKY.CLIPEV0.bit n) = true ∧
      store t = store s := by
  have hn := n.isLt
  have hlo : (RXS.STICKY.CLIPEV0.bit n).lo < 32 := by
    show 0 + n.val < 32
    omega
  have hbit : Keeps (stick (RXS.STICKY.CLIPEV0.bit n)) (RXS.PPEAK.PK.i n) := keeps_stick hlo (apart_of_key (by
    show 0x40011010 ≠ 0x40011048 + 16 * n.val
    omega))
  have hcount : Keeps (count (RXS.PCLIPS.CNT.i n)) (RXS.PPEAK.PK.i n) := fun s =>
    keeps_put_i (f := RXS.PCLIPS.CNT) (g := RXS.PPEAK.PK) _ n (by decide) (by decide) rfl s
  dsimp only
  rw [clipSeen, run_chain_cons, run_chain_cons, run_chain_cons, run_chain_nil]
  refine ⟨?_, stick_is _ _ rfl hlo, ?_⟩
  · rw [hbit, peakSeen_get, hcount, Nat.min_eq_left hm]
  · rw [fixes_stick (φ := store) _ fun _ _ _ _ => rfl]
    rfl

/-- Neither branch of a clip reaches the registers of page RXS. -/
theorem keeps_clipRest (n : Fin 2) (s : State) {g : Fld} (hp : pageOf g = some .RXS) (hk : g.key < DMD.STICKY.key) :
    Keeps (if s.frozen n then clipFrozen n s else clipFree n s) g := by
  have hs : Within false [.RFE] (stick (RFE.STICKY.CLIP0.bit n) ·) := within_stick rfl
  have ha (x : Int) : Within false [.RFE] (agcStep n x ·) := within_agcStep n.isLt rfl x
  exact keeps_ite
    (keeps_cons (keeps_eachA fun f => keeps_markClip hk f) (keeps_cons (hs.keeps_page hp (by decide)) (keeps_nil g)))
    (keeps_whenA ((ha _).keeps_page hp (by decide)))

theorem fixes_clipRest_store (n : Fin 2) (s : State) :
    Fixes store (if s.frozen n then clipFrozen n s else clipFree n s) := fixes_ite
  (fixes_cons (fixes_eachA fixes_markClip_store) (fixes_cons (fixes_stick _ fun _ _ _ _ => rfl) fixes_nil))
  (fixes_whenA fun s => sameStore_iff.mp ((within_agcStep (d := false) (ps := [.RFE]) n.isLt rfl _).sameStore s))

theorem peak_place (n : Fin 2) : pageOf (RXS.PPEAK.PK.i n) = some .RXS ∧ (RXS.PPEAK.PK.i n).key < DMD.STICKY.key := by
  decide +revert

theorem exec_clipEvent {s : State} {n : Fin 2} (hr : s.is (RXS.STAT.RUN0.bit n) = true) (hp : s.portState n ≠ 2) (low : Bool) :
    exec (.clipEvent n low) s = .next (Act.run (if s.frozen n then clipFrozen n s else clipFree n s)
      (Act.run (clipSeen n (if low then 2048 else 2047)) s)) := by
  show act _ s = _
  rw [act_next, run_look, hr, bne_iff_ne.mpr hp, Bool.true_and, whenA_true, clipSeen]
  repeat rw [run_chain_cons]
  rw [run_chain_nil, run_chain_nil]
  rfl

theorem clipEvent_holds {s : State} {n : Fin 2} (hr : s.is (RXS.STAT.RUN0.bit n) = true) (hp : s.portState n ≠ 2) (low : Bool) :
    Completes (.clipEvent n low) s fun t =>
      t.get (RXS.PPEAK.PK.i n) = max (s.get (RXS.PPEAK.PK.i n)) (if low then 2048 else 2047) ∧
        t.is (RXS.STICKY.CLIPEV0.bit n) = true ∧ (s.frozen n = true → t.is (RFE.STICKY.CLIP0.bit n) = true) ∧
        SameStore s t := by
  have hn := n.isLt
  obtain ⟨hpk, hev, hst⟩ := clipSeen_holds n (m := if low then 2048 else 2047) (by split <;> omega) s
  refine ⟨_, exec_clipEvent hr hp low, ?_, ?_, fun hf => ?_, sameStore_iff.mpr ?_⟩
  · rw [keeps_clipRest n s (peak_place n).1 (peak_place n).2, hpk]
  · have hkey : RXS.STICKY.key < DMD.STICKY.key := by decide
    rw [is_of_keeps (keeps_clipRest n s (g := RXS.STICKY.CLIPEV0.bit n) rfl hkey), hev]
  · rw [if_pos hf, clipFrozen, run_chain_cons, run_chain_cons, run_chain_nil]
    exact stick_is _ _ rfl (show 5 + n.val < 32 by omega)
  · rw [fixes_clipRest_store, hst]

/-! The converters (R83). -/

/-- What happens 2 µs after the last condition of a converter has become true. -/
def converterStarts (n t : Nat) : Act :=
  chain [until_ t, onPort n fun p => { p with runAt := none },
    look fun s => whenA (s.converterMay n) (put (RXS.STAT.RUN0.bit n) 1)]

theorem exec_converterRun {s : State} {n : Fin 2} {t : Nat} (ht : (s.rfPort n).runAt = some t) :
    exec (.converterRun n) s = .next (Act.run (converterStarts n t) s) := by
  show act _ s = _
  rw [act_next, run_look, ht]
  rfl

theorem converterMay_of_keeps {a : Act} (h : ∀ g, Keeps a g) (s : State) (n : Nat) :
    (Act.run a s).converterMay n = s.converterMay n := by
  simp only [State.converterMay, State.domOn, is_of_keeps (h _)]

theorem converterRun_holds {s : State} {n : Fin 2} {t : Nat} (hlen : s.rfe.ports.length = 2) (ht : (s.rfPort n).runAt = some t)
    (hm : s.converterMay n = true) : Completes (.converterRun n) s fun u =>
      u.is (RXS.STAT.RUN0.bit n) = true ∧ (u.rfPort n).runAt = none ∧ SameStore s u := by
  refine ⟨_, exec_converterRun ht, ?_⟩
  dsimp only
  have hrfe : (Act.run (until_ t) s).rfe = s.rfe := fixes_until (φ := State.rfe) (fun _ _ => rfl) t s
  rw [converterStarts, run_chain_cons, run_chain_cons, run_chain_cons, run_chain_nil, run_look,
    converterMay_of_keeps fun _ => keeps_onPort _, converterMay_of_keeps (keeps_until t), hm, whenA_true, run_put]
  refine ⟨put_is_same _ _ 1 rfl (show 0 + n.val < 32 by omega), ?_, sameStore_iff.mpr (fixes_until_store t s)⟩
  show ((Act.run (onPort n _) (Act.run (until_ t) s)).rfPort n).runAt = none
  rw [rfPort_onPort (by rw [hrfe, hlen]; exact n.isLt)]

/-! The return loss (R90 to R92). -/

theorem keeps_searchTurns (n r : Nat) (g : Fld) : Keeps (searchTurns n r) g := fun _ => rfl

theorem keeps_tunerMove (n : Nat) (g : Fld) : Keeps (tunerMove n) g := keeps_look fun _ _ => rfl

/-- How many ports the front end has. -/
def portCount (s : State) : Nat := s.rfe.ports.length

theorem fixes_onPort_count (n : Nat) (f : RfPort → RfPort) : Fixes portCount (onPort n f) := fun s => by
  simp [onPort, portCount]

theorem fixes_stick_count (f : Fld) : Fixes portCount (stick f) := fixes_stick f fun _ _ _ _ => rfl

/-- What a measurement of the return loss does but for its record in the port. -/
def lossSeen (n r : Nat) (low auto search : Bool) : Act :=
  chain [put (RFE.PTUNE.RLOSS.i n) r, whenA low (stick (RFE.STICKY.MISMATCH0.bit n)), whenA auto (searchTurns n r),
    whenA search (tunerMove n), whenA (r < 12) (stick RFE.STICKY.SEVERE)]

theorem fixes_lossSeen {α : Type} {φ : State → α} (hput : ∀ f v, Fixes φ (put f v)) (hst : ∀ f, Fixes φ (stick f))
    (hport : ∀ n f, Fixes φ (onPort n f)) (n r : Nat) (low auto search : Bool) : Fixes φ (lossSeen n r low auto search) :=
  fixes_cons (hput _ _) <| fixes_cons (fixes_whenA (hst _)) <| fixes_cons (fixes_whenA (hport _ _)) <|
    fixes_cons (fixes_whenA (fixes_look fun _ => hport _ _)) <| fixes_cons (fixes_whenA (hst _)) fixes_nil

theorem severe_apart_mismatch (n : Fin 2) : apart RFE.STICKY.SEVERE (RFE.STICKY.MISMATCH0.bit n) = true := by
  decide +revert

theorem lossSeen_holds (n : Fin 2) {r : Nat} (hr : r ≤ 0xFE) (low auto search : Bool) (s : State) :
    let t := Act.run (lossSeen n r low auto search) s
    t.get (RFE.PTUNE.RLOSS.i n) = r ∧ (low = true → t.is (RFE.STICKY.MISMATCH0.bit n) = true) ∧
      (r < 12 → t.is RFE.STICKY.SEVERE = true) := by
  have hn := n.isLt
  have hbit : (RFE.STICKY.MISMATCH0.bit n).lo < 32 := show 0 + n.val < 32 by omega
  have hkey : RFE.STICKY.key ≠ (RFE.PTUNE.RLOSS.i n).key := show 0x40010010 ≠ 0x40010058 + 64 * n.val by omega
  have hm : Keeps (whenA low (stick (RFE.STICKY.MISMATCH0.bit n))) (RFE.PTUNE.RLOSS.i n) :=
    keeps_whenA (keeps_stick hbit (apart_of_key hkey))
  have hs : Keeps (whenA (r < 12) (stick RFE.STICKY.SEVERE)) (RFE.PTUNE.RLOSS.i n) :=
    keeps_whenA (keeps_stick (by decide) (apart_of_key hkey))
  have hsm : Keeps (whenA (r < 12) (stick RFE.STICKY.SEVERE)) (RFE.STICKY.MISMATCH0.bit n) :=
    keeps_whenA (keeps_stick (by decide) (severe_apart_mismatch n))
  have hturn (g : Fld) : Keeps (whenA auto (searchTurns n r)) g := keeps_whenA (keeps_searchTurns n r g)
  have hmove (g : Fld) : Keeps (whenA search (tunerMove n)) g := keeps_whenA (keeps_tunerMove n g)
  dsimp only
  rw [lossSeen]
  repeat rw [run_chain_cons]
  rw [run_chain_nil]
  refine ⟨?_, fun hl => ?_, fun hl => ?_⟩
  · rw [hs, hmove, hturn, hm, run_put, put_get_same _ _ _ (by decide : 8 + 8 ≤ 32)]
    exact Nat.mod_eq_of_lt (show r < 2 ^ 8 by omega)
  · rw [is_of_keeps hsm, is_of_keeps (hmove _), is_of_keeps (hturn _), hl, whenA_true]
    exact stick_is _ _ rfl hbit
  · rw [decide_eq_true hl, whenA_true]
    exact stick_is _ _ rfl (by decide)

theorem returnLoss_holds (n : Fin 2) (loss : Nat) {s : State} (hlen : portCount s = 2) :
    let t := Act.run (returnLoss n loss) s
    t.get (RFE.PTUNE.RLOSS.i n) = min loss 0xFE ∧ (t.rfPort n).lastLoss = some (min loss 0xFE) ∧
      (min loss 0xFE < s.get (RFE.PTUNE.MMTH.i n) → t.is (RFE.STICKY.MISMATCH0.bit n) = true) ∧
      (min loss 0xFE < 12 → t.is RFE.STICKY.SEVERE = true) ∧ store t = store s := by
  have hrun : Act.run (returnLoss n loss) s = Act.run (onPort n fun p => { p with
      lastLoss := some (min loss 0xFE)
      severe := if min loss 0xFE < 12 then true else if min loss 0xFE ≥ s.get (RFE.PTUNE.MMTH.i n) then false else p.severe })
      (Act.run (lossSeen n (min loss 0xFE) (min loss 0xFE < s.get (RFE.PTUNE.MMTH.i n)) (s.is (RFE.PCFG.TUNEAUTO.i n))
        (s.is (RFE.PCFG.TUNEAUTO.i n) && min loss 0xFE < s.get (RFE.PTUNE.TUNETH.i n))) s) := by
    rw [returnLoss, run_look, lossSeen]
    repeat rw [run_chain_cons]
    rw [run_chain_nil, run_chain_nil]
  obtain ⟨hloss, hmis, hsev⟩ := lossSeen_holds n (min_le_right loss 0xFE) (min loss 0xFE < s.get (RFE.PTUNE.MMTH.i n))
    (s.is (RFE.PCFG.TUNEAUTO.i n)) (s.is (RFE.PCFG.TUNEAUTO.i n) && min loss 0xFE < s.get (RFE.PTUNE.TUNETH.i n)) s
  have hcount := fixes_lossSeen (φ := portCount) (fun _ _ _ => rfl) fixes_stick_count fixes_onPort_count
  have hstore := fixes_lossSeen (φ := store) (fun _ _ _ => rfl) (fun f => fixes_stick f fun _ _ _ _ => rfl) (fun _ _ _ => rfl)
  dsimp only
  rw [hrun]
  refine ⟨hloss, ?_, fun h => hmis (decide_eq_true h), hsev, hstore _ _ _ _ _ s⟩
  rw [rfPort_onPort]
  show n.val < portCount _
  rw [hcount, hlen]
  exact n.isLt

theorem exec_returnLossMeasure {s : State} {n : Fin 2} {r : TxRun} (hb : (s.txChain (s.portChain n)).busy = some r)
    (hp : r.port = n.val) (hph : 2 ≤ r.phase) (hs : r.lossSeen = false) (hpa : s.is (RFE.PCFG.PAPATH.i n) = false)
    (loss : Nat) :
    exec (.returnLossMeasure n loss) s = .next (Act.run (returnLoss n loss)
      (Act.run (onBusy (s.portChain n) fun x => { x with lossSeen := true })
        (Act.run (until_ (min (r.tb + 256) r.lastTb)) s))) := by
  show act _ s = _
  rw [act_next, run_look]
  dsimp only
  rw [hb]
  dsimp only
  rw [hp, hs, hpa, beq_self_eq_true, decide_eq_true hph, Bool.not_false, Bool.and_self, Bool.and_self, Bool.and_self, whenA_true]
  repeat rw [run_chain_cons]
  rfl

theorem returnLossMeasure_holds {s : State} {n : Fin 2} {r : TxRun} (hlen : s.rfe.ports.length = 2)
    (hb : (s.txChain (s.portChain n)).busy = some r) (hp : r.port = n.val) (hph : 2 ≤ r.phase) (hs : r.lossSeen = false)
    (hpa : s.is (RFE.PCFG.PAPATH.i n) = false) (loss : Nat) :
    Completes (.returnLossMeasure n loss) s fun t =>
      t.get (RFE.PTUNE.RLOSS.i n) = min loss 0xFE ∧ (t.rfPort n).lastLoss = some (min loss 0xFE) ∧
        (min loss 0xFE < s.get (RFE.PTUNE.MMTH.i n) → t.is (RFE.STICKY.MISMATCH0.bit n) = true) ∧
        (min loss 0xFE < 12 → t.is RFE.STICKY.SEVERE = true) ∧ SameStore s t := by
  refine ⟨_, exec_returnLossMeasure hb hp hph hs hpa loss, ?_⟩
  have hbusy (g : Fld) : Keeps (onBusy (s.portChain n) fun x => { x with lossSeen := true }) g := fun _ => rfl
  obtain ⟨hloss, hlast, hmis, hsev, hst⟩ := returnLoss_holds n loss
    (s := Act.run (onBusy (s.portChain n) fun x => { x with lossSeen := true })
      (Act.run (until_ (min (r.tb + 256) r.lastTb)) s))
    ((fixes_until (φ := portCount) (fun _ _ => rfl) _ s).trans hlen)
  rw [hbusy, keeps_until] at hmis
  exact ⟨hloss, hlast, hmis, hsev, sameStore_iff.mpr (hst.trans (fixes_until_store _ s))⟩

/-! The front end. -/

theorem exec_gainSettled {s : State} {n : Fin 2} (h : s.is (RFE.PGSTAT.SETTLING.i n) = true) :
    exec (.gainSettled n) s = .next (Act.run (gainHasSettled n s) s) := by
  show act _ s = _
  rw [act_next, run_look, h, whenA_true]
  rfl

theorem frontEndHold : FrontEndHold := by
  intro s i n hlen
  refine ⟨fun w ho hlo hhi => completes_of_access rfl ho (writePgain_holds n s hlo hhi), fun ha => ?_,
    fun hs hlt => ⟨_, exec_gainSettled hs, gainHasSettled_holds n hlt⟩, fun hr hp low => clipEvent_holds hr hp low,
    fun t ht hm => converterRun_holds hlen ht hm,
    fun loss r hb hp hph hs hpa => returnLossMeasure_holds hlen hb hp hph hs hpa loss⟩
  intro sch span step g level peak
  refine ⟨fun hl => ?_, fun hl => ?_⟩
  · obtain ⟨t, ht⟩ := exec_agcStepDown ha hl peak
    exact ⟨_, ht, agcMove_holds n t level peak.toNat _ s⟩
  · obtain ⟨t, ht⟩ := exec_agcStepUp ha hl peak
    obtain ⟨hg, -, hst⟩ := agcMove_holds n t level peak.toNat (s.get (RFE.PAGC.AGCSTEP.i n)) s
    exact ⟨_, ht, hg, hst⟩

end Sys2Proof.Proofs
end

section
/-! Calibration units: their requests, their results and what they show (R93 to R97). -/

namespace Sys2Proof.Proofs

open Sys2Proof.Machine Sys2Proof.Laws

/-! Lists of fields. -/

/-- Fields written one after another, no two of which share a bit, each hold what they were given. -/
theorem eachA_put_get {ι : Type} {l : List ι} {f : ι → Fld} {v : ι → Nat} (hw : ∀ x ∈ l, (f x).lo + (f x).width ≤ 32)
    (hp : l.Pairwise fun x y => apart (f x) (f y) = true) {x : ι} (hx : x ∈ l) (s : State) :
    (Act.run (eachA l fun x => put (f x) (v x)) s).get (f x) = v x % 2 ^ (f x).width := by
  induction l generalizing s with
  | nil => cases hx
  | cons y l ih =>
    obtain ⟨hy, hp⟩ := List.pairwise_cons.mp hp
    rw [run_eachA_cons]
    obtain rfl | hx := List.mem_cons.mp hx
    · have hrest : Keeps (eachA l fun y => put (f y) (v y)) (f x) := keeps_chain fun a ha => by
        obtain ⟨z, hz, rfl⟩ := List.mem_map.mp ha
        exact keeps_put _ (hw z (List.mem_cons_of_mem _ hz)) (apart_comm (hy z hz))
      rw [hrest, run_put, put_get_same _ _ _ (hw x List.mem_cons_self)]
    · exact ih (fun z hz => hw z (List.mem_cons_of_mem _ hz)) hp hx _

/-- What one action of a row brings about, and the others keep, holds after the row. -/
theorem holds_after_eachA {ι : Type} {l : List ι} {f : ι → Act} {I Q : State → Prop} {x : ι} (hx : x ∈ l)
    (hI : ∀ y, Preserves I (f y)) (hbrings : ∀ s, I s → Q (Act.run (f x) s)) (hQ : ∀ y, Preserves Q (f y)) {s : State}
    (hs : I s) : Q (Act.run (eachA l f) s) := by
  induction l generalizing s with
  | nil => cases hx
  | cons y l ih =>
    rw [run_eachA_cons]
    obtain rfl | hx := List.mem_cons.mp hx
    · exact preserves_eachA (fun y _ => hQ y) _ (hbrings s hs)
    · exact ih hx (hI y s hs)

/-! One unit. -/

theorem calUnit_onCal {s : State} {u : Nat} (h : u < s.rfe.cal.length) (f : CalUnit → CalUnit) :
    (Act.run (onCal u f) s).calUnit u = f (s.calUnit u) := by
  simp [onCal, State.calUnit, h]

theorem calUnit_onCal_ne (s : State) {u v : Nat} (h : v ≠ u) (f : CalUnit → CalUnit) :
    (Act.run (onCal v f) s).calUnit u = s.calUnit u := by
  simp [onCal, State.calUnit, h]

/-- How many units there are. -/
def unitCount (s : State) : Nat := s.rfe.cal.length

theorem fixes_onCal_count (u : Nat) (f : CalUnit → CalUnit) : Fixes unitCount (onCal u f) := fun s => by
  simp [onCal, unitCount]

/-! What the units show (R94, R98). -/

theorem calOf_lt (u : Nat) : calOf u < 5 := by
  unfold calOf
  split_ifs <;> omega

theorem fixes_showCal {α : Type} {φ : State → α} (h : ∀ s f v, φ (Eff.apply s (.put f v)) = φ s) : Fixes φ showCal :=
  fixes_look fun _ => fixes_eachA fun _ _ => h _ _ _

theorem keeps_showCal {g : Fld} (h : g.key ≠ RFE.CALREQ.key) : Keeps showCal g :=
  keeps_look fun _ => keeps_eachA fun _ => keeps_put_ne _ h

/-- REQ of a calibration with a pending unit is 1. -/
theorem showCal_asks {s : State} {u : Nat} (hu : u < 13) (hp : (s.calUnit u).pending = true) :
    (Act.run showCal s).is (RFE.CALREQ.REQ.bit (calOf u)) = true := by
  have hany : ((List.range 13).any fun v => calOf v == calOf u && (s.calUnit v).pending) = true :=
    List.any_eq_true.mpr ⟨u, List.mem_range.mpr hu, by rw [hp, beq_self_eq_true]; rfl⟩
  have hget := eachA_put_get (l := List.range 5) (f := fun c => RFE.CALREQ.REQ.bit c)
    (v := fun c => if (List.range 13).any fun v => calOf v == c && (s.calUnit v).pending then 1 else 0) (by decide) (by decide)
    (List.mem_range.mpr (calOf_lt u)) s
  rw [if_pos hany] at hget
  rw [showCal, run_look, State.is, hget]
  rfl

/-! Requests (R94). -/

/-- A unit is pending, and its calibration shows it. -/
def Asked (u : Nat) (s : State) : Prop :=
  (s.calUnit u).pending = true ∧ s.is (RFE.CALREQ.REQ.bit (calOf u)) = true

theorem asked_showCal {s : State} {u : Nat} (hu : u < 13) (hp : (s.calUnit u).pending = true) : Asked u (Act.run showCal s) := by
  refine ⟨?_, showCal_asks hu hp⟩
  rw [show (Act.run showCal s).calUnit u = s.calUnit u from fixes_showCal (φ := (State.calUnit · u)) (fun _ _ _ => rfl) s, hp]

theorem run_calPending (u : Nat) (s : State) :
    Act.run (calPending u) s = Act.run showCal (Act.run (onCal u fun c => { c with pending := true }) s) := by
  rw [calPending, run_chain_cons, run_chain_cons, run_chain_nil]

theorem asked_calPending {s : State} {u : Nat} (hu : u < 13) (hlen : unitCount s = 13) : Asked u (Act.run (calPending u) s) := by
  rw [run_calPending]
  refine asked_showCal hu ?_
  rw [calUnit_onCal (show u < unitCount s by omega)]

/-- A unit that another is asked for beside it stays pending. -/
theorem preserves_asked {u : Nat} (hu : u < 13) (v : Nat) : Preserves (Asked u) (calPending v) := fun s hs => by
  rw [run_calPending]
  refine asked_showCal hu ?_
  by_cases hv : v = u
  · subst hv
    have hlt : v < s.rfe.cal.length := by
      by_contra hge
      have hdef : s.calUnit v = {} := by simp [State.calUnit, List.getElem?_eq_none (Nat.le_of_not_lt hge)]
      have := hs.1
      rw [hdef] at this
      cases this
    rw [calUnit_onCal hlt]
  · rw [calUnit_onCal_ne s hv, hs.1]

theorem fixes_calPending_count (u : Nat) : Fixes unitCount (calPending u) :=
  fixes_cons (fixes_onCal_count _ _) (fixes_cons (fixes_showCal fun _ _ _ => rfl) fixes_nil)

theorem fixes_calPending_store (u : Nat) : Fixes store (calPending u) :=
  fixes_cons (fun _ => rfl) (fixes_cons (fixes_showCal fun _ _ _ => rfl) fixes_nil)

theorem writeCalreq_asks {s : State} (hlen : unitCount s = 13) {w u : Nat} (hu : u < 13) (hw : w.testBit (calOf u) = true) :
    Asked u (Act.run (writeCalreq w) s) := by
  have hb : (bitOf w (calOf u) == 1) = true := by rw [bitOf_testBit, hw]; rfl
  exact holds_after_eachA (List.mem_filter.mpr ⟨List.mem_range.mpr hu, hb⟩) (I := (unitCount · = 13))
    (fun v t ht => (fixes_calPending_count v t).trans ht) (fun _ ht => asked_calPending hu ht) (preserves_asked hu) hlen

theorem calPeriodExpire_holds {s : State} (hlen : unitCount s = 13) (u : Fin 13) (hd : s.domOn Dom.rxn = true)
    (hp : s.get RFE.CALCFG.PERIOD ≠ 0) : Completes (.calPeriodExpire u) s fun t =>
      (t.calUnit u).pending = true ∧ t.is (RFE.CALREQ.REQ.bit (calOf u)) = true ∧ SameStore s t := by
  refine completes_of_run _ rfl ?_
  rw [run_look, hd, bne_iff_ne.mpr hp, Bool.and_self, whenA_true, run_chain_cons, run_chain_cons, run_chain_nil]
  obtain ⟨hpend, hreq⟩ := asked_calPending u.isLt ((fixes_until (φ := unitCount) (fun _ _ => rfl) _ s).trans hlen)
  refine ⟨hpend, hreq, sameStore_iff.mpr ?_⟩
  rw [fixes_calPending_store, fixes_until_store]

/-! A unit that starves (R97). -/

theorem calStarve_holds {s : State} (hlen : unitCount s = 13) (u : Fin 13) (ha : (s.calUnit u).age = 1000) :
    Completes (.calStarve u) s fun t => t.is RFE.STICKY.CALSTARVE = true ∧ (t.calUnit u).age = 1001 ∧ SameStore s t := by
  refine completes_of_run _ rfl ?_
  rw [run_look, ha, beq_self_eq_true, whenA_true, run_chain_cons, run_chain_cons, run_chain_nil]
  refine ⟨stick_is _ _ rfl (by decide), ?_, sameStore_iff.mpr ?_⟩
  · rw [show State.calUnit (Act.run (stick RFE.STICKY.CALSTARVE) _) u = State.calUnit _ u from
        fixes_stick (φ := (State.calUnit · u)) _ (fun _ _ _ _ => rfl) _,
      calUnit_onCal (show u.val < unitCount s by omega)]
  · rw [fixes_stick (φ := store) _ fun _ _ _ _ => rfl]
    rfl

end Sys2Proof.Proofs
end

section
/-! The end of a calibration unit (R96), and the calibration units together. -/

namespace Sys2Proof.Proofs

open Sys2Proof.Machine Sys2Proof.Laws

/-! The results of a unit. -/

/-- The results by field: a Thimble result is written to both of its registers. -/
def calResults (u : Nat) (rs : List Int) : List Int := if u == 4 then [rs.getD 0 0, rs.getD 0 0] else rs

/-- Whether a unit's results lie in their fields' ranges. -/
def calGood (s : State) (u : Nat) (r : List Int) : Bool :=
  if u == 11 then xoFits s.xoSum
  else (calFields u).zipIdx.all fun f => f.1.2.1 ≤ r.getD f.2 0 && r.getD f.2 0 ≤ f.1.2.2

/-- What results in range do. -/
def calStores (u : Nat) (r : List Int) : Act :=
  chain [eachA (calFields u).zipIdx fun f => putS f.1.1 (r.getD f.2 0),
    whenA (u == 11) (chain [xoTarget, onRfe fun x => { x with xoMoves := true }]), put (RFE.CALSTAT.FAILED.bit (calOf u)) 0]

/-- What a result out of range does. -/
def calRefuses (u : Nat) : Act := chain [stick RFE.STICKY.CALFAIL, put (RFE.CALSTAT.FAILED.bit (calOf u)) 1]

/-- What the end of a unit does whatever its results. -/
def calEnds (u t : Nat) (temp : Int) : Act :=
  chain [onCal u fun c => { c with pending := false, age := 0, doneAt := t, doneT := temp, ends := none }, showCal]

/-- The lanes of a port that a unit held take up their work. -/
def calReleases (port : Option Nat) : Act := match port with | some p => checkPort p | none => skip

theorem exec_calUnitComplete {s : State} {u : Fin 13} {t : Nat} (ht : (s.calUnit u).ends = some t) (rs : List Int) :
    exec (.calUnitComplete u rs) s = .next (Act.run (calReleases (s.calHolds u)) (Act.run (calEnds u t (s.getS RFE.TEMP.T))
      (Act.run (if calGood s u (calResults u rs) then calStores u (calResults u rs) else calRefuses u)
        (Act.run (until_ t) s)))) := by
  have hrun : Act.run (calComplete u rs) s = Act.run (calEnds u t (s.getS RFE.TEMP.T))
      (Act.run (if calGood s u (calResults u rs) then calStores u (calResults u rs) else calRefuses u)
        (Act.run (until_ t) s)) := by
    rw [calComplete, run_look, ht, calEnds]
    dsimp only
    repeat rw [run_chain_cons]
    rfl
  show act _ s = _
  rw [act_next, ← hrun, run_chain_cons, run_chain_cons, run_chain_nil]
  rfl

/-- The bounds of the statement, as the model tests them. -/
theorem calGood_iff (s : State) (u : Fin 13) (r : List Int) : calGood s u r = true ↔
    if u = 11 then xoFits s.xoSum = true
    else ∀ f ∈ (calFields u).zipIdx, f.1.2.1 ≤ r.getD f.2 0 ∧ r.getD f.2 0 ≤ f.1.2.2 := by
  have hu : (u.val == 11) = decide (u = 11) := by decide +revert
  by_cases h : u = 11
  · simp [calGood, h]
  · simp [calGood, hu, h]

theorem calResults_eq (u : Fin 13) (rs : List Int) :
    calResults u rs = if u = 4 then [rs.getD 0 0, rs.getD 0 0] else rs := by
  have hu : (u.val == 4) = decide (u = 4) := by decide +revert
  by_cases h : u = 4 <;> simp [calResults, hu, h]

/-! The registers that the end of a unit leaves alone. -/

/-- Whether a field lies in no register that lanes, a port's gain or tuner, or CALREQ take part in. -/
def spared (g : Fld) : Bool :=
  [Page.DMD, .CHZ, .FEC].all (fun q => addrPage (keyAddr g.key) != q.code) &&
    [0, 1].all (fun p => g.key != (RFE.PGSTAT.i p).key && g.key != (RFE.PTUNE.i p).key) && g.key != RFE.CALREQ.key

theorem offPort_of_spared {g : Fld} (h : spared g = true) {p : Nat} (hp : p < 2) : OffPort p g := by
  simp only [spared, Bool.and_eq_true, List.all_eq_true, bne_iff_ne] at h
  obtain ⟨⟨hpage, hport⟩, -⟩ := h
  have hm : p ∈ [0, 1] := by
    have : p = 0 ∨ p = 1 := by omega
    simpa using this
  exact ⟨hpage, (hport p hm).1, (hport p hm).2⟩

theorem chainPort_lt (s : State) {c : Nat} (hc : c < 2) : s.chainPort c < 2 := by
  unfold State.chainPort
  split <;> omega

/-- A unit holds port 0 or port 1, if any. -/
theorem calHolds_lt {s : State} {u p : Nat} (h : s.calHolds u = some p) : p < 2 := by
  have hport : ∀ q, calPort u = some q → q < 2 := by
    unfold calPort
    split <;> simp
  have hchain : ∀ c, calChain u = some c → c < 2 := by
    unfold calChain
    split <;> simp
  unfold State.calHolds at h
  cases hq : calPort u with
  | some q =>
    rw [hq] at h
    exact Option.some.inj h ▸ hport q hq
  | none =>
    rw [hq] at h
    obtain ⟨c, hc, rfl⟩ := Option.map_eq_some_iff.mp h
    exact chainPort_lt s (hchain c hc)

theorem keeps_calReleases {g : Fld} (hg : spared g = true) (s : State) (u : Nat) : Keeps (calReleases (s.calHolds u)) g := by
  cases h : s.calHolds u with
  | none => exact keeps_skip g
  | some p => exact keeps_checkPort (offPort_of_spared hg (calHolds_lt h))

theorem keeps_calEnds {g : Fld} (hg : spared g = true) (u t : Nat) (temp : Int) : Keeps (calEnds u t temp) g := by
  simp only [spared, Bool.and_eq_true, bne_iff_ne] at hg
  exact keeps_cons (fun _ => rfl) (keeps_cons (keeps_showCal hg.2) (keeps_nil g))

/-- The fields of a unit's results lie in the word, share no bit, and stand in no register that the unit's end writes beside. -/
theorem calFields_places (u : Fin 13) :
    (∀ f ∈ (calFields u).zipIdx, f.1.1.lo + f.1.1.width ≤ 32) ∧
      ((calFields u).zipIdx.Pairwise fun f g => apart f.1.1 g.1.1 = true) ∧
      ∀ f ∈ calFields u, spared f.1 = true ∧ f.1.key ≠ RFE.CALSTAT.key ∧ f.1.key ≠ RFE.STICKY.key ∧
        f.1.key ≠ RFE.XOTRIM.key := by
  decide +revert +kernel

theorem ofS_lt (w : Nat) (i : Int) : ofS w i < 2 ^ w := by
  have h : (0 : Int) < (2 ^ w : Nat) := by exact_mod_cast Nat.two_pow_pos w
  have h1 := Int.emod_lt_of_pos i h
  have h2 := Int.emod_nonneg i h.ne'
  unfold ofS
  omega

/-! Results in range. -/

theorem keeps_xoTarget {g : Fld} (h : g.key ≠ RFE.XOTRIM.key) : Keeps xoTarget g :=
  keeps_look fun _ => keeps_whenA (keeps_put_ne _ h)

/-- Each result is stored. -/
theorem calStores_fields (u : Fin 13) (r : List Int) (s : State) : ∀ f ∈ (calFields u).zipIdx,
    (Act.run (calStores u r) s).get f.1.1 = ofS f.1.1.width (r.getD f.2 0) := by
  intro f hf
  obtain ⟨hw, hp, hk⟩ := calFields_places u
  obtain ⟨-, hstat, -, hxo⟩ := hk f.1 (List.fst_mem_of_mem_zipIdx hf)
  have hfail : Keeps (put (RFE.CALSTAT.FAILED.bit (calOf u)) 0) f.1.1 := keeps_put_ne _ hstat
  have hmove : Keeps (whenA (u.val == 11) (chain [xoTarget, onRfe fun x => { x with xoMoves := true }])) f.1.1 :=
    keeps_whenA (keeps_cons (keeps_xoTarget hxo) (keeps_cons (fun _ => rfl) (keeps_nil _)))
  rw [calStores, run_chain_cons, run_chain_cons, run_chain_cons, run_chain_nil, hfail, hmove]
  have hget := eachA_put_get (f := fun f => f.1.1) (v := fun f => ofS f.1.1.width (r.getD f.2 0)) hw hp hf s
  rw [Nat.mod_eq_of_lt (ofS_lt _ _)] at hget
  exact hget

theorem failedBit_lo (u : Nat) : (RFE.CALSTAT.FAILED.bit (calOf u)).lo < 32 := by
  have := calOf_lt u
  show 16 + calOf u < 32
  omega

theorem calStores_failed (u : Nat) (r : List Int) (s : State) :
    (Act.run (calStores u r) s).is (RFE.CALSTAT.FAILED.bit (calOf u)) = false := by
  rw [calStores, run_chain_cons, run_chain_cons, run_chain_cons, run_chain_nil, run_put, put_is_same _ _ 0 rfl (failedBit_lo u)]
  rfl

/-- The crystal's unit has no field of results: its target is the sum, where that fits (R96). -/
theorem calStores_target {s : State} (h : xoFits s.xoSum = true) (r : List Int) :
    (Act.run (calStores 11 r) s).getS RFE.XOTRIM.TARGET = s.xoSum ∧ (Act.run (calStores 11 r) s).rfe.xoMoves = true := by
  have hfail : Keeps (put (RFE.CALSTAT.FAILED.bit (calOf 11)) 0) RFE.XOTRIM.TARGET := keeps_put_ne _ (by decide)
  have hmove : Keeps (onRfe fun x => { x with xoMoves := true }) RFE.XOTRIM.TARGET := fun _ => rfl
  have hrange := h
  simp only [xoFits, Bool.and_eq_true, decide_eq_true_eq] at hrange
  rw [calStores, run_chain_cons, run_chain_cons, run_chain_cons, run_chain_nil, getS_of_keeps hfail, beq_self_eq_true, whenA_true,
    run_chain_cons, run_chain_cons, run_chain_nil, getS_of_keeps hmove, xoTarget, run_look]
  refine ⟨?_, rfl⟩
  show (Act.run (whenA (xoFits s.xoSum) (putS RFE.XOTRIM.TARGET s.xoSum)) s).getS RFE.XOTRIM.TARGET = _
  rw [h, whenA_true]
  exact putS_getS_byte s rfl (by decide) hrange.1 (by omega)

/-! Whatever the results. -/

/-- The units, and whether the crystal's trim moves. -/
def calState (s : State) : List CalUnit × Bool := (s.rfe.cal, s.rfe.xoMoves)

theorem calUnit_of_calState {s t : State} (h : calState t = calState s) (u : Nat) : t.calUnit u = s.calUnit u := by
  rw [State.calUnit, State.calUnit, show t.rfe.cal = s.rfe.cal from congrArg Prod.fst h]

theorem fixes_calReleases (port : Option Nat) : Fixes calState (calReleases port) := by
  cases port with
  | none => exact fixes_skip
  | some p => exact fixes_checkPort laneWork_cal p

theorem calEnds_unit {s : State} {u t : Nat} (h : u < unitCount s) (temp : Int) :
    ((Act.run (calEnds u t temp) s).calUnit u).pending = false ∧ ((Act.run (calEnds u t temp) s).calUnit u).ends = none := by
  rw [calEnds, run_chain_cons, run_chain_cons, run_chain_nil,
    calUnit_of_calState (fixes_showCal (φ := calState) (fun _ _ _ => rfl) _), calUnit_onCal h]
  exact ⟨rfl, rfl⟩

theorem fixes_calEnds_xoMoves (u t : Nat) (temp : Int) : Fixes (fun s => s.rfe.xoMoves) (calEnds u t temp) :=
  fixes_cons (fun _ => rfl) (fixes_cons (fixes_showCal fun _ _ _ => rfl) fixes_nil)

theorem fixes_calStores_count (u : Nat) (r : List Int) : Fixes unitCount (calStores u r) :=
  fixes_cons (fixes_eachA fun _ _ => rfl) <|
    fixes_cons (fixes_whenA <|
      fixes_cons (fixes_look fun _ => fixes_whenA fun _ => rfl) <| fixes_cons (fun _ => rfl) fixes_nil) <|
    fixes_cons (fun _ => rfl) fixes_nil

theorem fixes_calRefuses_count (u : Nat) : Fixes unitCount (calRefuses u) :=
  fixes_cons (fixes_stick _ fun _ _ _ _ => rfl) (fixes_cons (fun _ => rfl) fixes_nil)

/-- What the end of a unit in state `s`, at TB `t`, makes of the state `v` in which its results have been taken. -/
def calFinish (s : State) (u t : Nat) (v : State) : State :=
  Act.run (calReleases (s.calHolds u)) (Act.run (calEnds u t (s.getS RFE.TEMP.T)) v)

theorem calFinish_get {g : Fld} (hg : spared g = true) (s : State) (u t : Nat) (v : State) :
    (calFinish s u t v).get g = v.get g := by
  rw [calFinish, keeps_calReleases hg, keeps_calEnds hg]

theorem calFinish_is {g : Fld} (hg : spared g = true) (s : State) (u t : Nat) (v : State) :
    (calFinish s u t v).is g = v.is g := by
  rw [State.is, State.is, calFinish_get hg]

theorem calFinish_getS {g : Fld} (hg : spared g = true) (s : State) (u t : Nat) (v : State) :
    (calFinish s u t v).getS g = v.getS g := by
  rw [State.getS, State.getS, calFinish_get hg]

theorem calFinish_unit (s : State) {u t : Nat} {v : State} (h : u < unitCount v) :
    ((calFinish s u t v).calUnit u).pending = false ∧ ((calFinish s u t v).calUnit u).ends = none := by
  rw [calFinish, calUnit_of_calState (fixes_calReleases _ _)]
  exact calEnds_unit h _

theorem calFinish_xoMoves (s : State) (u t : Nat) (v : State) : (calFinish s u t v).rfe.xoMoves = v.rfe.xoMoves := by
  have h := congrArg Prod.snd (fixes_calReleases (s.calHolds u) (Act.run (calEnds u t (s.getS RFE.TEMP.T)) v))
  exact h.trans (fixes_calEnds_xoMoves u t (s.getS RFE.TEMP.T) v)

theorem spared_failed (u : Nat) : spared (RFE.CALSTAT.FAILED.bit (calOf u)) = true := by
  show spared RFE.CALSTAT.FAILED = true
  decide

section Complete

variable {s : State} {u : Fin 13} {t : Nat} (hlen : unitCount s = 13) (ht : (s.calUnit u).ends = some t) {rs : List Int}
include hlen ht

theorem calUnitComplete_good (hgood : calGood s u (calResults u rs) = true) :
    Completes (.calUnitComplete u rs) s fun v =>
      (∀ f ∈ (calFields u).zipIdx, v.get f.1.1 = ofS f.1.1.width ((calResults u rs).getD f.2 0)) ∧
        (u = 11 → v.getS RFE.XOTRIM.TARGET = s.xoSum ∧ v.rfe.xoMoves = true) ∧
        (v.calUnit u).pending = false ∧ (v.calUnit u).ends = none ∧ v.is (RFE.CALSTAT.FAILED.bit (calOf u)) = false := by
  have hsum : (Act.run (until_ t) s).xoSum = s.xoSum := fixes_until (φ := State.xoSum) (fun _ _ => rfl) t s
  have hcount : unitCount (Act.run (calStores u (calResults u rs)) (Act.run (until_ t) s)) = 13 := by
    rw [fixes_calStores_count, fixes_until (φ := unitCount) (fun _ _ => rfl), hlen]
  have hex := exec_calUnitComplete ht rs
  rw [if_pos hgood] at hex
  refine ⟨_, hex, ?_⟩
  rw [← calFinish.eq_def s u t]
  obtain ⟨hpend, hends⟩ := calFinish_unit s (u := u) (t := t)
    (v := Act.run (calStores u (calResults u rs)) (Act.run (until_ t) s)) (by omega)
  refine ⟨fun f hf => ?_, fun hu => ?_, hpend, hends, ?_⟩
  · obtain ⟨hsp, -⟩ := (calFields_places u).2.2 f.1 (List.fst_mem_of_mem_zipIdx hf)
    rw [calFinish_get hsp, calStores_fields u _ _ f hf]
  · subst hu
    obtain ⟨htarget, hmoves⟩ := calStores_target (s := Act.run (until_ t) s) (by rw [hsum]; exact hgood) (calResults 11 rs)
    rw [calFinish_getS (by decide), calFinish_xoMoves, ← hsum]
    exact ⟨htarget, hmoves⟩
  · rw [calFinish_is (spared_failed u), calStores_failed]

theorem calUnitComplete_bad (hbad : calGood s u (calResults u rs) ≠ true) :
    Completes (.calUnitComplete u rs) s fun v =>
      v.is RFE.STICKY.CALFAIL = true ∧ v.is (RFE.CALSTAT.FAILED.bit (calOf u)) = true ∧
        (∀ f ∈ calFields u, v.get f.1 = s.get f.1) ∧ v.getS RFE.XOTRIM.TARGET = s.getS RFE.XOTRIM.TARGET ∧
        (v.calUnit u).pending = false := by
  have hcount : unitCount (Act.run (calRefuses u) (Act.run (until_ t) s)) = 13 := by
    rw [fixes_calRefuses_count, fixes_until (φ := unitCount) (fun _ _ => rfl), hlen]
  have hkept {g : Fld} (hstat : g.key ≠ RFE.CALSTAT.key) (hst : g.key ≠ RFE.STICKY.key) : Keeps (calRefuses u) g :=
    keeps_cons (keeps_stick (by decide) (apart_of_key hst.symm)) (keeps_cons (keeps_put_ne _ hstat) (keeps_nil g))
  have hfail (v : Nat) : Keeps (put (RFE.CALSTAT.FAILED.bit (calOf u)) v) RFE.STICKY.CALFAIL :=
    keeps_put_ne _ (show RFE.STICKY.key ≠ RFE.CALSTAT.key by decide)
  have hex := exec_calUnitComplete ht rs
  rw [if_neg hbad] at hex
  refine ⟨_, hex, ?_⟩
  rw [← calFinish.eq_def s u t]
  refine ⟨?_, ?_, fun f hf => ?_, ?_, (calFinish_unit s (by omega)).1⟩
  · rw [calFinish_is (by decide), calRefuses, run_chain_cons, run_chain_cons, run_chain_nil, is_of_keeps (hfail 1)]
    exact stick_is _ _ rfl (by decide)
  · rw [calFinish_is (spared_failed u), calRefuses, run_chain_cons, run_chain_cons, run_chain_nil, run_put,
      put_is_same _ _ 1 rfl (failedBit_lo u)]
    rfl
  · obtain ⟨hsp, hstat, hst, -⟩ := (calFields_places u).2.2 f hf
    rw [calFinish_get hsp, hkept hstat hst, keeps_until]
  · rw [calFinish_getS (by decide), getS_of_keeps (hkept (by decide) (by decide)), getS_of_keeps (keeps_until _ _)]

end Complete

theorem calibrationUnitsHold : CalibrationUnitsHold := by
  intro s i hlen
  refine ⟨fun w ho => completes_of_access rfl ho ⟨fun u hu hw => writeCalreq_asks hlen hu hw,
      Fixes.sameStore (fixes_eachA fixes_calPending_store) s⟩,
    fun u hd hp => calPeriodExpire_holds hlen u hd hp, fun u t rs ht => ?_, fun u ha => calStarve_holds hlen u ha⟩
  intro r good
  have hr : r = calResults u rs := (calResults_eq u rs).symm
  have hgood : calGood s u (calResults u rs) = true ↔ good := by
    rw [← hr]
    exact calGood_iff s u r
  refine ⟨fun h => ?_, fun h => ?_⟩
  · rw [hr]
    exact calUnitComplete_good hlen ht (hgood.mpr h)
  · exact calUnitComplete_bad hlen ht (mt hgood.mp h)

/-- Settles O46: each command of the front end and each of the calibration units by what its actions leave of their registers. -/
theorem frontEndAndCalibration : Obligations.FrontEndAndCalibration := ⟨frontEndHold, calibrationUnitsHold⟩

end Sys2Proof.Proofs
end

section
/-! A frame whose port is none of the device's (R79, R132): the statement on received frames bounds its lane and not its port. -/

namespace Sys2Proof.Proofs

open Sys2Proof.Machine Sys2Proof.Laws

/-- A frame on lane 2 that is complete and has a good FCS, with 223 for its port. -/
def strayPortFrame : RxFrame :=
  { lane := 2, buf := 0, port := 223, vi := 0, mode := 0, midx := 0, plan := 0, chan := 0, sfdsel := 0, rsc := false, ilv := false
    stage := 1, len := 2, fcs2 := true, octets := [0, 0], verdict := some ⟨0, false, 0, 0⟩ }

/-- After device reset, with that frame in progress. -/
def strayPort : State := { State.reset with frm := { frames := [strayPortFrame] } }

/-- What the end of the frame leaves. -/
def strayPortEnded : State := Act.run (chain [feed 2 [], frameEnd 2]) strayPort

theorem exec_strayPort : exec (.frameEnd 2 [] () () () ()) strayPort = .next strayPortEnded := rfl

/-- The frame meets what the statement asks of it. -/
theorem strayPort_meets : strayPort.laneFrame (2 : Fin 128) = some strayPortFrame ∧
    strayPort.frameAt (2 : Fin 128) strayPortFrame.buf = some strayPortFrame ∧
    fcsOf strayPortFrame.fcs2 strayPortFrame.body = strayPortFrame.octets.drop strayPortFrame.total ∧
    strayPort.dmd.lanes.length = 128 ∧ (strayPort.lane (2 : Fin 128)).counts.length = 10 := by decide +kernel

/-- The gain register of port 223 would stand where LSTAT of lane 2 does; so FROZEN and HELD, which the end of the freeze clears,
are two bits of the frame's LQI. -/
theorem strayPort_lqi : (RFE.PGSTAT.i 223).key = (DMD.LSTAT.i 2).key ∧
    (fedFrame strayPort strayPortFrame []).rx.lqi (strayPort.rxOf strayPortFrame) = 255 ∧
    strayPortEnded.get (DMD.LSTAT.LQI.i 2) = 252 := by decide +kernel

/-- Refutes O26: the end of a frame lifts the freeze of the frame's port, which the statement leaves free; the gain register of
port 223 is the status register of lane 2, so that LQI does not hold what was measured. -/
theorem not_frameReception : ¬ Obligations.FrameReception := by
  intro h
  obtain ⟨hframe, hbuf, hfcs, hlanes, hcounts⟩ := strayPort_meets
  obtain ⟨-, hmeasured, hheld⟩ := strayPort_lqi
  obtain ⟨-, -, hend⟩ := h strayPort 2 strayPortFrame hframe hbuf rfl
  obtain ⟨-, hgood, -⟩ := hend [] (by decide) rfl hlanes hcounts
  obtain ⟨t, ht, -, -, hlqi, -⟩ := hgood hfcs
  obtain rfl := Host.Outcome.next.inj (exec_strayPort.symm.trans ht)
  rw [hmeasured] at hlqi
  exact absurd (hheld.symm.trans hlqi) (by decide)

end Sys2Proof.Proofs
end

section
/-! A lane whose QUALIFY times out as TB wraps (R49, R69, R115): the calibration that keeps its disabled port from OFF is found
running before the wrap, and not after it. -/

namespace Sys2Proof.Proofs

open Sys2Proof.Machine Sys2Proof.Laws

/-- After device reset, at the last TB before the wrap: lane 0 on the narrow path entered QUALIFY at this TB, on a channel at
868 MHz, and its port, which is disabled, shows CAL while its DC unit runs. -/
def qualifiesAtWrap : State :=
  { State.reset with
    regs := [(CHZ.PLANF0.key, 868000), (CHZ.PLANSP.key, 0x00010000), (DMD.CTRL.key, 1), (DMD.LCFG.key, 0x80000000),
      (DMD.LSTAT.key, 0xA0000000)]
    clk := { tb := 2 ^ 64 - 1 }
    rfe := { cal := [{ ends := some (2 ^ 64 - 1) }] }
    dmd := { lanes := { since := 2 ^ 64 - 1 } :: List.replicate 127 {} } }

/-- The time at which the qualifier of lane 0 gives up, 2 × QUALN symbols after the lane's entry into QUALIFY. -/
def qualifierGivesUp (s : State) : Nat :=
  max (if s.laneMoves 0 then 0 else (s.rfPort (s.lanePort 0)).settleAt)
    ((s.lane 0).since + symbolsTb (s.get (DMD.LCFG.MODE.i 0)) (2 * (s.get (DMD.LFIND.QUALN.i 0) + 1)))

/-- What the timeout of the qualifier leaves. -/
def qualifiedAtWrap : State :=
  Act.run (chain [until_ (qualifierGivesUp qualifiesAtWrap), countLane 0 1, laneEnter 0 4, settleLane 0]) qualifiesAtWrap

theorem exec_qualifiesAtWrap : exec (.qualifierTimeout 0) qualifiesAtWrap = .next qualifiedAtWrap := by
  have hstate : (qualifiesAtWrap.laneState (0 : Fin 128) == 5) = true := by decide +kernel
  show act _ _ = _
  rw [act_next, run_look, hstate, whenA_true]
  rfl

/-- The lane meets what the statement asks of it. -/
theorem qualifiesAtWrap_meets : qualifiesAtWrap.dmd.lanes.length = 128 ∧
    qualifiesAtWrap.laneLive (0 : Fin 128) = true ∧ qualifiesAtWrap.is (DMD.LCFG.SCHED.i (0 : Fin 128)) = false ∧
    qualifiesAtWrap.laneWillFit (0 : Fin 128) = true ∧ qualifiesAtWrap.laneState (0 : Fin 128) = 5 ∧
    (qualifiesAtWrap.freeBuffer (0 : Fin 128)).isSome = true := by decide +kernel

/-- The port goes from CAL to OFF as TB wraps, and the lane with it. -/
theorem qualifiedAtWrap_off : qualifiesAtWrap.portState 0 = 3 ∧ 2 ^ 64 ≤ qualifierGivesUp qualifiesAtWrap ∧
    qualifiedAtWrap.portState 0 = 0 ∧ qualifiedAtWrap.laneState (0 : Fin 128) = 0 := by decide +kernel

/-- Refutes O47: a qualifier's timeout that falls past the wrap of TB leaves the lane OFF and not in ENERGY, since the lane's
port is live before it by a calibration alone, whose run is judged by TB. -/
theorem not_receiver : ¬ Obligations.Receiver := by
  intro h
  obtain ⟨-, hfinder, -⟩ := h
  obtain ⟨hlanes, hlive, hsched, hfit, hstate, hfree⟩ := qualifiesAtWrap_meets
  obtain ⟨-, -, -, hoff⟩ := qualifiedAtWrap_off
  obtain ⟨-, -, htimeout, -⟩ := hfinder qualifiesAtWrap 0 0 hlanes
  obtain ⟨hqualifier, -⟩ := htimeout hlive hsched hfit
  obtain ⟨t, ht, henergy, -⟩ := hqualifier hstate hfree
  obtain rfl := Host.Outcome.next.inj (exec_qualifiesAtWrap.symm.trans ht)
  rw [hoff] at henergy
  cases henergy

end Sys2Proof.Proofs
end

section
/-! What leaves the frame engine alone: its frames, the transmit chains, the frame job that runs, the waits for acknowledgements and
the securing jobs (R149, R163 to R190, R206, R207). The rules are tagged for `fun_prop`, as those of `Within` are. -/

namespace Sys2Proof.Proofs

open Sys2Proof.Machine Sys2Proof.Laws

/-- What the commands on frames, acknowledgements and frame jobs work on, and the clock. -/
def engine (s : State) : FrmSt × TxpSt × Option FrameJob × List AckWait × List TxJob × ClkSt :=
  (s.frm, s.txp, s.sec.frame, s.shu.waits, s.shu.jobs, s.clk)

/-- An action that changes nothing of it. -/
@[fun_prop]
def Quiet (a : State → List Eff) : Prop := ∀ s, engine (applyAll s (a s)) = engine s

theorem Quiet.engine {a : Act} (h : Quiet (a ·)) (s : State) : engine (Act.run a s) = engine s := h s

theorem Quiet.frm {a : Act} (h : Quiet (a ·)) : Fixes State.frm a := fun s => congrArg Prod.fst (h s)

theorem Quiet.txp {a : Act} (h : Quiet (a ·)) : Fixes State.txp a := fun s => congrArg (·.2.1) (h s)

theorem Quiet.job {a : Act} (h : Quiet (a ·)) (s : State) : (Act.run a s).sec.frame = s.sec.frame :=
  congrArg (·.2.2.1) (h s)

theorem Quiet.waits {a : Act} (h : Quiet (a ·)) (s : State) : (Act.run a s).shu.waits = s.shu.waits :=
  congrArg (·.2.2.2.1) (h s)

theorem Quiet.jobs {a : Act} (h : Quiet (a ·)) (s : State) : (Act.run a s).shu.jobs = s.shu.jobs :=
  congrArg (·.2.2.2.2.1) (h s)

theorem Quiet.clk {a : Act} (h : Quiet (a ·)) : Fixes State.clk a := fun s => congrArg (·.2.2.2.2.2) (h s)

/-! Combinators. -/

@[fun_prop] theorem quiet_skip : Quiet (skip ·) := fun _ => rfl

@[fun_prop] theorem quiet_nil : Quiet (chain [] ·) := quiet_skip

@[fun_prop] theorem quiet_cons {a : Act} {l : List Act} (ha : Quiet (a ·)) (hl : Quiet (chain l ·)) :
    Quiet (chain (a :: l) ·) := fun s => by
  show engine (Act.run (chain (a :: l)) s) = _
  rw [run_chain_cons, hl.engine, ha.engine]

@[fun_prop] theorem quiet_look {g : State → Act} (h : ∀ s, Quiet (g s ·)) : Quiet (look g ·) := fun s => h s s

@[fun_prop] theorem quiet_whenA {c : Bool} {a : Act} (h : Quiet (a ·)) : Quiet (whenA c a ·) := by
  cases c
  · exact quiet_skip
  · exact h

@[fun_prop] theorem quiet_ite {c : Prop} [Decidable c] {a b : Act} (ha : Quiet (a ·)) (hb : Quiet (b ·)) :
    Quiet ((if c then a else b) ·) := by
  split <;> assumption

@[fun_prop] theorem quiet_eachA {α : Type} {l : List α} {f : α → Act} (h : ∀ x, Quiet (f x ·)) : Quiet (eachA l f ·) := by
  induction l with
  | nil => exact quiet_nil
  | cons x l ih => exact quiet_cons (h x) ih

@[fun_prop] theorem quiet_draw {k : Nat → Act} (h : ∀ x, Quiet (k x ·)) : Quiet (draw k ·) :=
  fun s => h s.free (Eff.apply s .drawn)

/-! One effect. -/

@[fun_prop] theorem quiet_put (f : Fld) (v : Nat) : Quiet (put f v ·) := fun _ => rfl
@[fun_prop] theorem quiet_putS (f : Fld) (v : Int) : Quiet (putS f v ·) := fun _ => rfl
@[fun_prop] theorem quiet_count (f : Fld) : Quiet (count f ·) := fun _ => rfl
@[fun_prop] theorem quiet_wipe (lo hi : Nat) : Quiet (wipe lo hi ·) := fun _ => rfl
@[fun_prop] theorem quiet_onBob (f : BobSt → BobSt) : Quiet (onBob f ·) := fun _ => rfl
@[fun_prop] theorem quiet_onKey (f : KeySt → KeySt) : Quiet (onKey f ·) := fun _ => rfl
@[fun_prop] theorem quiet_onDmd (f : DmdSt → DmdSt) : Quiet (onDmd f ·) := fun _ => rfl
@[fun_prop] theorem quiet_onLane (n : Nat) (f : LaneSt → LaneSt) : Quiet (onLane n f ·) := fun _ => rfl
@[fun_prop] theorem quiet_onCell (k : Nat) (f : RunCell → RunCell) : Quiet (onCell k f ·) := fun _ => rfl

@[fun_prop] theorem quiet_onShu {f : ShuSt → ShuSt} (hw : ∀ u, (f u).waits = u.waits) (hj : ∀ u, (f u).jobs = u.jobs) :
    Quiet (onShu f ·) := fun s => by
  show (_, _, _, (f s.shu).waits, (f s.shu).jobs, _) = _
  rw [hw, hj]
  rfl

@[fun_prop] theorem quiet_onSec {f : SecSt → SecSt} (hf : ∀ e, (f e).frame = e.frame) : Quiet (onSec f ·) := fun s => by
  show (_, _, (f s.sec).frame, _) = _
  rw [hf]
  rfl

/-- Stores of bytes. -/
theorem quiet_bytes {a : Act} (h : ∀ s, ∀ e ∈ a s, ∃ x b, e = .byte x b) : Quiet (a ·) := fun s => by
  have hl : ∀ (l : List Eff) (s : State), (∀ e ∈ l, ∃ x b, e = .byte x b) → engine (applyAll s l) = engine s := by
    intro l
    induction l with
    | nil => exact fun _ _ => rfl
    | cons e l ih =>
      intro s he
      obtain ⟨x, b, rfl⟩ := he e List.mem_cons_self
      exact ih _ fun y hy => he y (List.mem_cons_of_mem _ hy)
  exact hl _ _ (h s)

@[fun_prop] theorem quiet_setBytes (a n v : Nat) : Quiet (setBytes a n v ·) := quiet_bytes fun _ e he => by
  obtain ⟨_, -, rfl⟩ := List.mem_map.mp he
  exact ⟨_, _, rfl⟩

@[fun_prop] theorem quiet_setOctets (a : Nat) (l : List Nat) : Quiet (setOctets a l ·) := quiet_bytes fun _ e he => by
  obtain ⟨_, -, rfl⟩ := List.mem_map.mp he
  exact ⟨_, _, rfl⟩

@[fun_prop] theorem quiet_setWord (a v : Nat) : Quiet (setWord a v ·) := quiet_setBytes a 4 v

@[fun_prop] theorem quiet_setWordBits (a hi lo v : Nat) : Quiet (setWordBits a hi lo v ·) := fun s => quiet_setWord a _ s

/-! Sticky bits. -/

@[fun_prop] theorem quiet_stickI (f : Fld) (inst info : Nat) : Quiet (stickI f inst info ·) :=
  fixes_stickI (φ := engine) f inst info fun _ _ _ _ => rfl

@[fun_prop] theorem quiet_stick (f : Fld) : Quiet (stick f ·) := quiet_stickI f 0 0

@[fun_prop] theorem quiet_stickV (f : Fld) (v : Nat) : Quiet (stickV f v ·) := by
  unfold stickV
  fun_prop

@[fun_prop] theorem quiet_stickVI (f : Fld) (v inst info : Nat) : Quiet (stickVI f v inst info ·) := by
  unfold stickVI
  fun_prop

/-! The work of the lanes (R111, R115, R129). -/

@[fun_prop] theorem quiet_laneEnter (n st : Nat) : Quiet (laneEnter n st ·) := by
  unfold laneEnter
  fun_prop

@[fun_prop] theorem quiet_showBuffers (n : Nat) : Quiet (showBuffers n ·) := by
  unfold showBuffers
  fun_prop

@[fun_prop] theorem quiet_settleLane (n : Nat) : Quiet (settleLane n ·) := by
  unfold settleLane
  fun_prop

@[fun_prop] theorem quiet_assignLane (n k : Nat) : Quiet (assignLane n k ·) := quiet_look fun s => by
  cases s.shu.cells[k]? with
  | none => exact quiet_skip
  | some c => dsimp only; fun_prop

@[fun_prop] theorem quiet_laneFreed (n : Nat) : Quiet (laneFreed n ·) := quiet_look fun s => by
  generalize List.find? _ _ = o
  cases o with
  | none => exact quiet_skip
  | some k => exact quiet_assignLane n k

/-! The completion of transmit descriptors (R206). -/

@[fun_prop] theorem quiet_journal : Quiet (journal ·) := by
  unfold journal
  fun_prop (disch := exact fun _ => rfl)

@[fun_prop] theorem quiet_onQueue (v kind ctx : Nat) (f : TxQueue → TxQueue) : Quiet (onQueue v kind ctx f ·) := by
  unfold onQueue
  fun_prop (disch := exact fun _ => rfl)

@[fun_prop] theorem quiet_setCx (n : Nat) (f : CtxFld) (v : Nat) : Quiet (setCx n f v ·) := by
  unfold setCx
  fun_prop

@[fun_prop] theorem quiet_countCx (n : Nat) (f : CtxFld) : Quiet (countCx n f ·) := by
  unfold countCx
  fun_prop

@[fun_prop] theorem quiet_setBackoff (v kind ctx be bc : Nat) : Quiet (setBackoff v kind ctx be bc ·) := by
  unfold setBackoff
  split
  · exact fun _ => rfl
  · fun_prop

@[fun_prop] theorem quiet_resetBackoff (v kind ctx : Nat) : Quiet (resetBackoff v kind ctx ·) := by
  unfold resetBackoff
  fun_prop

@[fun_prop] theorem quiet_showQueue (v ctx : Nat) : Quiet (showQueue v ctx ·) := by
  unfold showQueue
  fun_prop

@[fun_prop] theorem quiet_pushDone (v status off : Nat) : Quiet (pushDone v status off ·) := by
  unfold pushDone
  fun_prop (disch := exact fun _ => rfl)

@[fun_prop] theorem quiet_writeDone (v status : Nat) (e : TxEntry) : Quiet (writeDone v status e ·) := by
  unfold writeDone
  fun_prop

@[fun_prop] theorem quiet_completeTx (v kind ctx : Nat) (e : TxEntry) (status : Nat) :
    Quiet (completeTx v kind ctx e status ·) := by
  unfold completeTx
  fun_prop

@[fun_prop] theorem quiet_drawWord {k : Nat → Act} (h : ∀ x, Quiet (k x ·)) : Quiet (drawWord k ·) := quiet_look fun s => by
  cases s.sec.pool with
  | nil => exact quiet_draw h
  | cons x l => dsimp only [showPool]; fun_prop (disch := exact fun _ => rfl)

@[fun_prop] theorem quiet_backoffResult (c : RunCell) (q : TxQueue) (good : Bool) : Quiet (backoffResult c q good ·) := by
  unfold backoffResult
  fun_prop

@[fun_prop] theorem quiet_attemptEnds (c : RunCell) (off : Nat) (acked : Bool) : Quiet (attemptEnds c off acked ·) :=
  quiet_look fun s => by
    cases s.queueOf c.vi off with
    | none => exact quiet_skip
    | some p => dsimp only; fun_prop

@[fun_prop] theorem quiet_cellFails (cell status : Nat) : Quiet (cellFails cell status ·) := quiet_look fun s => by
  cases s.shu.cells[cell]? with
  | none => exact quiet_skip
  | some c =>
    refine quiet_cons (quiet_onCell cell _) (quiet_cons ?_ quiet_nil)
    cases c.desc with
    | none => exact quiet_skip
    | some off =>
      dsimp only
      cases s.queueOf c.vi off with
      | none => exact quiet_skip
      | some p => dsimp only; fun_prop

/-! What a frame that has passed does to its context (R229 to R248). -/

@[fun_prop] theorem quiet_flushCtx (n : Nat) : Quiet (flushCtx n ·) := by
  unfold flushCtx
  fun_prop

@[fun_prop] theorem quiet_ctxEnter (n st : Nat) : Quiet (ctxEnter n st ·) := by
  have hpat : Quiet fun _ => [Eff.pat (backoffAt n) 0] := fun _ => rfl
  unfold ctxEnter loseTimeSource dropKeys
  fun_prop (disch := exact fun _ => rfl)

@[fun_prop] theorem quiet_ctxHeard (n asn : Nat) (rssi : Int) (lqi : Nat) : Quiet (ctxHeard n asn rssi lqi ·) := by
  unfold ctxHeard setLastAsn
  fun_prop

@[fun_prop] theorem quiet_driftUpdate (n : Nat) (delta : Int) (stamp : Nat) : Quiet (driftUpdate n delta stamp ·) := by
  unfold driftUpdate
  fun_prop

@[fun_prop] theorem quiet_followTime (n : Nat) (delta : Int) (counts : Bool) : Quiet (followTime n delta counts ·) := by
  unfold followTime adjustTick addAdjust
  fun_prop

@[fun_prop] theorem quiet_confirmation (n : Nat) : Quiet (confirmation n ·) := by
  unfold confirmation writeLease
  fun_prop

@[fun_prop] theorem quiet_micFailed (n asn win : Nat) : Quiet (micFailed n asn win ·) := by
  unfold micFailed
  fun_prop

@[fun_prop] theorem quiet_acceptCounter (n : Nat) (c : Option Nat) (asn : Nat) : Quiet (acceptCounter n c asn ·) := by
  unfold acceptCounter
  cases c <;> dsimp only <;> fun_prop

@[fun_prop] theorem quiet_raiseRxfc (p : RelaySet) (more : List Nat) : Quiet (raiseRxfc p more ·) := by
  unfold raiseRxfc
  fun_prop

@[fun_prop] theorem quiet_storeCounter (ctx asn : Nat) (m : Mac) : Quiet (storeCounter ctx asn m ·) := quiet_look fun s => by
  cases m.counter with
  | none => dsimp only; fun_prop
  | some c => cases s.relaySet ctx asn <;> dsimp only <;> fun_prop

@[fun_prop] theorem quiet_frameHeard (f : RxFrame) (ctx : Nat) (secured : Bool) : Quiet (frameHeard f ctx secured ·) :=
  quiet_look fun s => by
    cases f.cell <;> dsimp only <;> fun_prop

@[fun_prop] theorem quiet_beaconTaken (f : RxFrame) (ctx : Nat) (plain : List Nat) : Quiet (beaconTaken f ctx plain ·) := by
  unfold beaconTaken
  fun_prop (disch := exact fun _ => rfl)

@[fun_prop] theorem quiet_supersSeen (f : RxFrame) (ctx status : Nat) : Quiet (supersSeen f ctx status ·) :=
  quiet_look fun s => by
    cases f.mac.rejoin (s.get (SHU.FORMOUI.OUI.copy f.vi)) <;> dsimp only <;> fun_prop

end Sys2Proof.Proofs
end

section
/-! The frames of a lane's buffer (R128, R129), and the release of a buffer. -/

namespace Sys2Proof.Proofs

open Sys2Proof.Machine Sys2Proof.Laws

/-- The frames in a buffer of a lane, the one that `State.frameAt` finds in front. -/
def framesAt (s : State) (l b : Nat) : List RxFrame := s.frm.frames.filter fun x => x.lane == l && x.buf == b

variable {s t : State} {l b : Nat} {f : RxFrame} {p : RxFrame → Prop}

theorem frameAt_eq_head (s : State) (l b : Nat) : s.frameAt l b = (framesAt s l b).head? := by
  rw [framesAt, List.head?_filter]
  rfl

theorem mem_framesAt {x : RxFrame} : x ∈ framesAt s l b ↔ x ∈ s.frm.frames ∧ x.lane = l ∧ x.buf = b := by
  simp [framesAt]

theorem mem_of_frameAt (h : s.frameAt l b = some f) : f ∈ framesAt s l b :=
  List.mem_of_mem_head? (by rw [← frameAt_eq_head, h]; rfl)

theorem place_of_frameAt (h : s.frameAt l b = some f) : f.lane = l ∧ f.buf = b := (mem_framesAt.mp (mem_of_frameAt h)).2

theorem atBuffer_iff : atBuffer t l b p ↔ ∀ x ∈ framesAt t l b, p x := by
  simp only [atBuffer, mem_framesAt, and_imp]

theorem inBuffer_iff : inBuffer t l b p ↔ ∃ x ∈ framesAt t l b, p x := by
  simp only [inBuffer, mem_framesAt, and_assoc]

theorem framesAt_of_frm (h : t.frm = s.frm) (l b : Nat) : framesAt t l b = framesAt s l b := by rw [framesAt, h, framesAt]

/-- A change of a frame that leaves it in its buffer. -/
def SamePlace (g : RxFrame → RxFrame) : Prop := ∀ x, (g x).lane = x.lane ∧ (g x).buf = x.buf

theorem framesAt_onFrame {g : RxFrame → RxFrame} (hg : SamePlace g) (l b : Nat) (s : State) :
    framesAt (Act.run (onFrame l b g) s) l b = (framesAt s l b).map g := by
  show (s.frm.frames.map fun x => if x.lane == l && x.buf == b then g x else x).filter (fun x => x.lane == l && x.buf == b) = _
  have hp : ((fun x => x.lane == l && x.buf == b) ∘ fun x => if x.lane == l && x.buf == b then g x else x) =
      fun x : RxFrame => x.lane == l && x.buf == b := funext fun x => by
    dsimp only [Function.comp]
    split
    · rw [(hg x).1, (hg x).2]
    · rfl
  rw [List.filter_map, hp]
  exact List.map_congr_left fun x hx => if_pos (List.mem_filter.mp hx).2

theorem run_withFrame (h : s.frameAt l b = some f) (k : RxFrame → Act) : Act.run (withFrame l b k) s = Act.run (k f) s := by
  rw [withFrame, run_look, h]

/-! The release (R129, R188). -/

/-- Whether nothing waits on a frame any more. -/
def RxFrame.isDone (f : RxFrame) : Bool :=
  f.stage == 3 && f.copies.isEmpty && !f.awaits && (!f.ackRequired || f.ackResolved)

/-- A buffer is emptied, and its lane takes up its work again. -/
def emptyBuffer (l b : Nat) : Act := chain [
  onFrm fun r => { r with frames := r.frames.filter fun x => !(x.lane == l && x.buf == b) },
  whenA (l < 128) (chain [showBuffers l, look fun s => whenA (s.laneState l == 3) (chain [settleLane l, laneFreed l])])]

/-- A release empties the buffer or does nothing. -/
theorem run_releaseIfDone (l b : Nat) (s : State) : Act.run (releaseIfDone l b) s =
    if (s.frameAt l b).any RxFrame.isDone then Act.run (emptyBuffer l b) s else s := by
  rw [releaseIfDone, withFrame, run_look]
  cases s.frameAt l b with
  | none => rfl
  | some f =>
    rw [run_whenA]
    rfl

theorem framesAt_emptyBuffer (l b : Nat) (s : State) : framesAt (Act.run (emptyBuffer l b) s) l b = [] := by
  have hq : Quiet (chain [whenA (l < 128) (chain [showBuffers l,
      look fun s => whenA (s.laneState l == 3) (chain [settleLane l, laneFreed l])])] ·) := by fun_prop
  rw [emptyBuffer, run_chain_cons, framesAt_of_frm (hq.frm _)]
  show (s.frm.frames.filter _).filter _ = []
  rw [List.filter_filter]
  exact List.filter_eq_nil_iff.mpr fun x _ => by simp

/-- The frames of a buffer after its release. -/
theorem framesAt_releaseIfDone (l b : Nat) (s : State) : framesAt (Act.run (releaseIfDone l b) s) l b =
    if (framesAt s l b).head?.any RxFrame.isDone then [] else framesAt s l b := by
  rw [run_releaseIfDone, frameAt_eq_head]
  split
  · exact framesAt_emptyBuffer l b s
  · rfl

/-- A part of the state that the work of the lanes and a change of the frames leave alone. -/
theorem fixes_releaseIfDone {α : Type} {φ : State → α} (hq : ∀ s t, engine t = engine s → φ t = φ s)
    (hf : ∀ s x, φ (Eff.apply s (.frm x)) = φ s) (l b : Nat) : Fixes φ (releaseIfDone l b) := fun s => by
  have hl : Quiet (chain [whenA (l < 128) (chain [showBuffers l,
      look fun s => whenA (s.laneState l == 3) (chain [settleLane l, laneFreed l])])] ·) := by fun_prop
  rw [run_releaseIfDone]
  split
  · rw [emptyBuffer, run_chain_cons, hq _ _ (hl.engine _)]
    exact hf _ _
  · rfl

theorem releaseIfDone_txp (l b : Nat) : Fixes State.txp (releaseIfDone l b) :=
  fixes_releaseIfDone (fun _ _ h => congrArg (·.2.1) h) (fun _ _ => rfl) l b

theorem releaseIfDone_job (l b : Nat) (s : State) : (Act.run (releaseIfDone l b) s).sec.frame = s.sec.frame :=
  fixes_releaseIfDone (φ := (·.sec.frame)) (fun _ _ h => congrArg (·.2.2.1) h) (fun _ _ => rfl) l b s

theorem releaseIfDone_waits (l b : Nat) (s : State) : (Act.run (releaseIfDone l b) s).shu.waits = s.shu.waits :=
  fixes_releaseIfDone (φ := (·.shu.waits)) (fun _ _ h => congrArg (·.2.2.2.1) h) (fun _ _ => rfl) l b s

section Frame

variable {d : Bool} {ps : List Page}

@[fun_prop] theorem within_onFrm (f : FrmSt → FrmSt) : Within d ps (onFrm f ·) := within_one fun _ => trivial
@[fun_prop] theorem within_onSec (f : SecSt → SecSt) : Within d ps (onSec f ·) := within_one fun _ => trivial

@[fun_prop] theorem within_onFrame (l b : Nat) (g : RxFrame → RxFrame) : Within d ps (onFrame l b g ·) := by
  unfold onFrame
  fun_prop

@[fun_prop] theorem within_withFrame {k : RxFrame → Act} (l b : Nat) (h : ∀ f, Within d ps (k f ·)) :
    Within d ps (withFrame l b k ·) := fun s => by
  show ∀ e ∈ (match s.frameAt l b with | some f => k f | none => skip) s, _
  cases s.frameAt l b with
  | none => exact within_skip s
  | some f => exact h f s

@[fun_prop] theorem within_cancelCopies (l b : Nat) (q : Nat → Bool) : Within d ps (cancelCopies l b q ·) := by
  unfold cancelCopies
  fun_prop

@[fun_prop] theorem within_releaseIfDone (l b : Nat) (hd : ps.contains .DMD = true) (hc : ps.contains .CHZ = true)
    (hf : ps.contains .FEC = true) : Within d ps (releaseIfDone l b ·) := by
  have hlane : Within d ps (whenA (l < 128) (chain [showBuffers l,
      look fun s => whenA (s.laneState l == 3) (chain [settleLane l, laneFreed l])]) ·) := by
    by_cases hl : l < 128
    · fun_prop (disch := assumption)
    · rw [decide_eq_false hl]
      exact within_skip
  unfold releaseIfDone
  fun_prop (disch := assumption)

end Frame

end Sys2Proof.Proofs
end

section
/-! The delivery rings (R183 to R188, R626): a copy of one entry with its descriptor, and the ring registers. -/

namespace Sys2Proof.Proofs

open Sys2Proof.Machine Sys2Proof.Laws

/-! Octets in memory (R8). -/

/-- The bytes after a store of octets. -/
theorem setOctets_byte (a : Nat) (l : List Nat) (j : Nat) (s : State) : (Act.run (setOctets a l) s).byte j =
    if a ≤ j ∧ j < a + l.length then l.getD (j - a) 0 % 256 else s.byte j := by
  induction l using List.reverseRecOn with
  | nil => rw [if_neg (by rw [List.length_nil]; omega)]; rfl
  | append_singleton l x ih =>
    have hrun : Act.run (setOctets a (l ++ [x])) s =
        Eff.apply (Act.run (setOctets a l) s) (.byte (a + l.length) (BitVec.ofNat 8 x)) := by
      simp [Act.run, setOctets, List.zipIdx_append, applyAll_append]
    rw [hrun, List.length_append, List.length_singleton]
    by_cases hj : j = a + l.length
    · subst hj
      rw [byte_mem_same, if_pos (by omega), Nat.add_sub_cancel_left]
      simp
    · rw [byte_mem_ne _ _ _ _ hj, ih]
      by_cases hin : a ≤ j ∧ j < a + l.length
      · rw [if_pos hin, if_pos (by omega), List.getD_append _ _ _ _ (by omega)]
      · rw [if_neg hin, if_neg (by omega)]

theorem octets_setOctets_same (a : Nat) (l : List Nat) (s : State) :
    (Act.run (setOctets a l) s).octets a l.length = l.map (· % 256) := by
  refine List.ext_getElem (by simp [State.octets]) fun i h₁ h₂ => ?_
  have hi : i < l.length := by simpa using h₂
  simp [State.octets, setOctets_byte, hi]

theorem octets_setOctets_apart {a b n : Nat} {l : List Nat} (h : b + n ≤ a ∨ a + l.length ≤ b) (s : State) :
    (Act.run (setOctets a l) s).octets b n = s.octets b n := by
  refine List.map_congr_left fun i hi => ?_
  have := List.mem_range.mp hi
  rw [setOctets_byte, if_neg (by omega)]

theorem octets_of_mem {s t : State} (h : t.mem = s.mem) (a n : Nat) : t.octets a n = s.octets a n := by
  simp only [State.octets, State.byte, h]

/-! Fields of registers that stand at different addresses. -/

theorem apart_of_addr {f g : Fld} (h : keyAddr f.key ≠ keyAddr g.key) : apart f g = true :=
  apart_of_key fun he => h (by rw [he])

/-- Fields that share no bit share none in a copy of their registers. -/
theorem apart_copy {f g : Fld} (h : apart f g = true) (c : Nat) : apart (f.copy c) (g.copy c) = true := by
  simp only [apart, Bool.or_eq_true, bne_iff_ne, decide_eq_true_eq] at h
  obtain (hk | hl) | hl := h
  · exact apart_of_key (by rw [copy_key, copy_key]; omega)
  · simp [apart, hl]
  · simp [apart, hl]

/-- A sticky bit of an interface leaves every register at another address alone. -/
theorem keeps_stickV_addr {f g : Fld} (v : Nat) (hl : f.lo + f.width ≤ 32) (h : keyAddr f.key ≠ keyAddr g.key) :
    Keeps (stickV f v) g :=
  keeps_stickV v hl (apart_of_addr h) (apart_of_addr (by rwa [keyAddr_copy]))

/-- A released buffer changes no register of the frame engine's page. -/
theorem keeps_releaseIfDone {g : Fld} {p : Page} (l b : Nat) (hg : pageOf g = some p) (hp : p ∉ [Page.DMD, .CHZ, .FEC]) :
    Keeps (releaseIfDone l b) g :=
  (within_releaseIfDone (d := false) (ps := [.DMD, .CHZ, .FEC]) l b rfl rfl rfl).keeps_page hg hp

/-! A copy of one entry. -/

section Copy

variable {s : State} {f : RxFrame} {v : Nat}

/-- The data of a frame's copy for an interface (R173, R186). -/
def copyData (f : RxFrame) (v : Nat) : List Nat := if v == f.vi then f.plain else f.octets

/-- The octets of its descriptor. -/
def copyDesc (f : RxFrame) (v : Nat) : List Nat := (descriptorOf f v (copyData f v).length).flatMap (leOctets 4)

/-- The entry that WRIDX points at, its descriptor's address, and its data cell's. -/
def ringSlot (s : State) (v : Nat) : Nat := s.get (FRM.WRIDX.IDX.copy v) % s.ringSize v
def descEntry (s : State) (v : Nat) : Nat := Base.fram + s.get (FRM.RINGBASE.OFF.copy v) * 32 + 32 * ringSlot s v
def dataCell (s : State) (v : Nat) : Nat := Base.fram + s.get (FRM.DATABASE.OFF.copy v) * 256 + s.cellBytes v * ringSlot s v

/-- What a copy of one entry stores, and what it shows. -/
def storeCopy (s : State) (f : RxFrame) (v : Nat) : Act :=
  chain [setOctets (dataCell s v) (copyData f v), setOctets (descEntry s v) (copyDesc f v)]
def showCopy (f : RxFrame) (v next : Nat) (rises : Bool) : Act := chain [
  put (FRM.WRIDX.IDX.copy v) next, whenA rises (pulse 31), stickV FRM.STICKY.RXAVAIL v,
  cancelCopies f.lane f.buf (· == v), releaseIfDone f.lane f.buf]

theorem copyDesc_length (f : RxFrame) (v : Nat) : (copyDesc f v).length = 32 := by
  simp [copyDesc, descriptorOf, leOctets]

theorem length_le_cell (h : s.entriesFor v (copyData f v).length = 1) : (copyData f v).length ≤ s.cellBytes v := by
  have hc : 0 < s.cellBytes v := Nat.mul_pos (by decide) (Nat.two_pow_pos _)
  have hd : ((copyData f v).length + s.cellBytes v - 1) / s.cellBytes v < 2 := by
    have hm : max 1 (((copyData f v).length + s.cellBytes v - 1) / s.cellBytes v) = 1 := h
    omega
  have := (Nat.div_lt_iff_lt_mul hc).mp hd
  omega

theorem run_writeCopy (h : s.entriesFor v (copyData f v).length = 1) : Act.run (writeCopy f v) s =
    Act.run (showCopy f v ((s.get (FRM.WRIDX.IDX.copy v) + 1) % s.ringSize v) (!s.is FRM.STICKY.RXAVAIL))
      (Act.run (storeCopy s f v) s) := by
  have hfit := length_le_cell h
  rw [writeCopy, run_look]
  change s.entriesFor v (if v == f.vi then f.plain else f.octets).length = 1 at h
  dsimp only
  rw [h]
  simp only [List.range_one, List.drop_one, List.tail_cons, run_chain_cons, run_chain_nil, run_eachA_cons, run_eachA_nil,
    Nat.mul_zero, List.drop_zero, Nat.add_zero, storeCopy, showCopy]
  rw [copyData] at hfit
  rw [List.take_of_length_le hfit]
  rfl

/-- The data cells and the descriptors of a ring that fits lie apart (R184). -/
theorem descEntry_apart (hr : s.ringFits v = true) (hl : (copyData f v).length ≤ s.cellBytes v) :
    dataCell s v + (copyData f v).length ≤ descEntry s v ∨ descEntry s v + (copyDesc f v).length ≤ dataCell s v := by
  have hslot : ringSlot s v + 1 ≤ s.ringSize v := Nat.mod_lt _ (Nat.two_pow_pos _)
  have hcell : s.cellBytes v * ringSlot s v + s.cellBytes v ≤ s.cellBytes v * s.ringSize v := by
    rw [← Nat.mul_succ]
    exact Nat.mul_le_mul_left _ hslot
  simp only [State.ringFits, Bool.and_eq_true, Bool.or_eq_true, decide_eq_true_eq] at hr
  obtain ⟨-, hr⟩ := hr
  rw [copyDesc_length, descEntry, dataCell]
  omega

theorem storeCopy_octets (hr : s.ringFits v = true) (hl : (copyData f v).length ≤ s.cellBytes v) :
    (Act.run (storeCopy s f v) s).octets (descEntry s v) 32 = (copyDesc f v).map (· % 256) ∧
      (Act.run (storeCopy s f v) s).octets (dataCell s v) (copyData f v).length = (copyData f v).map (· % 256) := by
  rw [storeCopy, run_chain_cons, run_chain_cons, run_chain_nil]
  constructor
  · rw [← copyDesc_length f v]
    exact octets_setOctets_same _ _ _
  · rw [octets_setOctets_apart (descEntry_apart hr hl)]
    exact octets_setOctets_same _ _ _

theorem showCopy_mem (f : RxFrame) (v next : Nat) (rises : Bool) (s : State) :
    (Act.run (showCopy f v next rises) s).mem = s.mem := by
  have h : Within false [.FRM, .DMD, .CHZ, .FEC] (showCopy f v next rises ·) := by
    unfold showCopy
    fun_prop (disch := rfl)
  exact (h.outside s).mem

theorem showCopy_registers (f : RxFrame) (v next : Nat) (rises : Bool) (s : State) :
    (Act.run (showCopy f v next rises) s).get (FRM.WRIDX.IDX.copy v) = next % 2 ^ FRM.WRIDX.IDX.width ∧
      (Act.run (showCopy f v next rises) s).is FRM.STICKY.RXAVAIL = true := by
  have hpage : pageOf (FRM.WRIDX.IDX.copy v) = some .FRM := pageOf_copy FRM.WRIDX.IDX v
  have hsticky : Keeps (stickV FRM.STICKY.RXAVAIL v) (FRM.WRIDX.IDX.copy v) :=
    keeps_stickV_addr v (by decide) (by rw [keyAddr_copy]; decide)
  have hpulse : Keeps (whenA rises (pulse 31)) (FRM.WRIDX.IDX.copy v) := keeps_whenA (keeps_pulse 31 _)
  have hrest {g : Fld} (hg : pageOf g = some .FRM) :
      Keeps (chain [cancelCopies f.lane f.buf (· == v), releaseIfDone f.lane f.buf]) g :=
    keeps_cons (fun _ => rfl) (keeps_cons (keeps_releaseIfDone _ _ hg (by decide)) (keeps_nil g))
  rw [showCopy, run_chain_cons, run_chain_cons, run_chain_cons]
  constructor
  · rw [hrest hpage, hsticky, hpulse]
    exact put_get_same s (FRM.WRIDX.IDX.copy v) next (show FRM.WRIDX.IDX.lo + FRM.WRIDX.IDX.width ≤ 32 by decide)
  · rw [is_of_keeps (hrest rfl)]
    exact (stickV_is FRM.STICKY.RXAVAIL v _ rfl (by decide)).1

theorem exec_deliveryWrite {v : Fin 16} (hf : s.firstFor v = some f) (hm : s.domOn Dom.mac = true) (hc : v.val ∈ f.copies)
    (hr : f.ready = true) (hh : s.heldByMigration f = false) :
    exec (.deliveryWrite v) s = .next (Act.run (writeCopy f v) s) := by
  show act _ s = _
  rw [act_next, run_look, hf]
  dsimp only
  rw [hm, List.contains_iff_mem.mpr hc, hr, hh]
  rfl

end Copy

/-! The ring registers. -/

section Registers

variable {s : State} {v : Nat}

theorem bitOf_eq_toNat_testBit (n b : Nat) : bitOf n b = (n.testBit b).toNat := by
  rw [bitOf, Nat.testBit_eq_decide_div_mod_eq]
  have := Nat.mod_lt (n / 2 ^ b) (show 0 < 2 by decide)
  by_cases h : n / 2 ^ b % 2 = 1
  · rw [decide_eq_true h, h]; rfl
  · rw [decide_eq_false h, Bool.toNat_false]; omega

/-- A field of RINGCFG takes a written value while the ring is disabled. -/
def takeField (v : Nat) (w : Word) (f : Fld) : Act := look fun s =>
  if fieldOf w f.lo f.width == s.get (f.copy v) then skip else put (f.copy v) (fieldOf w f.lo f.width)

theorem takeField_get {w : Word} {f : Fld} (hf : f.lo + f.width ≤ 32) (s : State) :
    (Act.run (takeField v w f) s).get (f.copy v) = fieldOf w f.lo f.width := by
  rw [takeField, run_look, run_ite, run_skip]
  split
  · next h => exact (beq_iff_eq.mp h).symm
  · rw [run_put, put_get_same _ (f.copy v) _ hf]
    exact Nat.mod_eq_of_lt (Nat.mod_lt _ (Nat.two_pow_pos _))

theorem keeps_takeField {w : Word} {f g : Fld} (hf : f.lo + f.width ≤ 32) (hg : apart (f.copy v) g = true) :
    Keeps (takeField v w f) g := keeps_look fun _ => keeps_ite (keeps_skip g) (keeps_put (f := f.copy v) _ hf hg)

theorem takeField_store (v : Nat) (w : Word) (f : Fld) : Fixes store (takeField v w f) :=
  fixes_look fun _ => fixes_ite fixes_skip fun _ => rfl

/-- What enabling a ring does (R184). -/
def enableRing (v : Nat) : Act := chain [
  put (FRM.RINGCFG.EN.copy v) 1, put (FRM.WRIDX.IDX.copy v) 0, put (FRM.RDIDX.IDX.copy v) 0]

section Config

variable {w : Word} (hoff : s.is (FRM.RINGCFG.EN.copy v) = false)
include hoff

theorem run_writeRingcfg_fields (hb : w.toNat.testBit 31 = false) (hlo : 4 ≤ w.toNat % 16) (hhi : w.toNat % 16 ≤ 10) :
    Act.run (writeRingcfg v w.toNat) s =
      Act.run (takeField v w FRM.RINGCFG.LOG2N) (Act.run (takeField v w FRM.RINGCFG.CELLSZ) s) := by
  have hbit : bitOf w.toNat 31 = 0 := by rw [bitOf_eq_toNat_testBit, hb]; rfl
  simp [writeRingcfg, takeField, hoff, hbit, hlo, hhi]

theorem run_writeRingcfg_enable (hb : w.toNat.testBit 31 = true) (hlog : s.get (FRM.RINGCFG.LOG2N.copy v) = w.toNat % 16)
    (hcell : s.get (FRM.RINGCFG.CELLSZ.copy v) = fieldOf w FRM.RINGCFG.CELLSZ.lo FRM.RINGCFG.CELLSZ.width) :
    Act.run (writeRingcfg v w.toNat) s =
      if s.ringFits v then Act.run (enableRing v) s else Act.run (stickV FRM.STICKY.RINGERR v) s := by
  have hbit : bitOf w.toNat 31 = 1 := by rw [bitOf_eq_toNat_testBit, hb]; rfl
  have hfield : fieldOf w FRM.RINGCFG.LOG2N.lo FRM.RINGCFG.LOG2N.width = w.toNat % 16 :=
    congrArg (· % 16) (Nat.div_one w.toNat)
  simp [writeRingcfg, enableRing, hoff, hbit, hcell, hfield, hlog]

end Config

/-- The three fields that enabling a ring writes. -/
theorem enableRing_get (v : Nat) (s : State) : (Act.run (enableRing v) s).is (FRM.RINGCFG.EN.copy v) = true ∧
    (Act.run (enableRing v) s).get (FRM.WRIDX.IDX.copy v) = 0 ∧ (Act.run (enableRing v) s).get (FRM.RDIDX.IDX.copy v) = 0 := by
  have hwr {f g : Fld} (n : Nat) (hl : f.lo + f.width ≤ 32) (h : keyAddr f.key ≠ keyAddr g.key) :
      Keeps (put (f.copy v) n) (g.copy v) :=
    keeps_put (f := f.copy v) n hl (apart_copy (apart_of_addr h) v)
  have hidx (n : Nat) : Keeps (put (FRM.RDIDX.IDX.copy v) n) (FRM.WRIDX.IDX.copy v) := hwr n (by decide) (by decide)
  have hen₁ (n : Nat) : Keeps (put (FRM.WRIDX.IDX.copy v) n) (FRM.RINGCFG.EN.copy v) := hwr n (by decide) (by decide)
  have hen₂ (n : Nat) : Keeps (put (FRM.RDIDX.IDX.copy v) n) (FRM.RINGCFG.EN.copy v) := hwr n (by decide) (by decide)
  rw [enableRing, run_chain_cons, run_chain_cons, run_chain_cons, run_chain_nil]
  refine ⟨?_, ?_, ?_⟩
  · rw [is_of_keeps (hen₂ 0), is_of_keeps (hen₁ 0)]
    exact put_is_same s (FRM.RINGCFG.EN.copy v) 1 rfl (show FRM.RINGCFG.EN.lo < 32 by decide)
  · rw [hidx]
    exact put_get_same _ (FRM.WRIDX.IDX.copy v) 0 (show FRM.WRIDX.IDX.lo + FRM.WRIDX.IDX.width ≤ 32 by decide)
  · exact put_get_same _ (FRM.RDIDX.IDX.copy v) 0 (show FRM.RDIDX.IDX.lo + FRM.RDIDX.IDX.width ≤ 32 by decide)

/-- RDIDX takes an index that moves it no further than WRIDX (R185). -/
theorem run_writeRdidx {w : Nat} (hn : w % 1024 < s.ringSize v)
    (hm : (w % 1024 + s.ringSize v - s.get (FRM.RDIDX.IDX.copy v)) % s.ringSize v ≤
      (s.get (FRM.WRIDX.IDX.copy v) + s.ringSize v - s.get (FRM.RDIDX.IDX.copy v)) % s.ringSize v) :
    Act.run (writeRdidx v w) s = Eff.apply s (.put (FRM.RDIDX.IDX.copy v) (w % 1024)) := by
  rw [writeRdidx, run_look]
  dsimp only
  rw [decide_eq_true hn, decide_eq_true hm]
  rfl

end Registers

/-- Settles O27: a copy by its stores and what it then shows, and the registers by their fields. -/
theorem deliveryRings : Obligations.DeliveryRings := by
  intro s i v w
  refine ⟨?_, fun ho hoff => ⟨fun hb hlo hhi => ?_, fun hb hlog hcell => ⟨fun hfits => ?_, fun hfits => ?_⟩⟩, ?_⟩
  · intro f hf hm hc hr hh hfits data slot hone
    have hdata : data = copyData f v := (if_congr beq_iff_eq rfl rfl).symm
    rw [hdata] at hone ⊢
    obtain ⟨hdesc, hcells⟩ := storeCopy_octets hfits (length_le_cell hone)
    obtain ⟨hwr, havail⟩ := showCopy_registers f v ((s.get (FRM.WRIDX.IDX.copy v) + 1) % s.ringSize v)
      (!s.is FRM.STICKY.RXAVAIL) (Act.run (storeCopy s f v) s)
    refine ⟨_, exec_deliveryWrite hf hm hc hr hh, ?_⟩
    rw [run_writeCopy hone]
    exact ⟨hwr, havail, (octets_of_mem (showCopy_mem ..) _ _).trans hdesc, (octets_of_mem (showCopy_mem ..) _ _).trans hcells⟩
  · refine completes_of_access rfl ho ?_
    rw [run_writeRingcfg_fields hoff hb hlo hhi]
    refine ⟨?_, ?_, sameStore_iff.mpr ((takeField_store ..).trans (takeField_store ..))⟩
    · rw [takeField_get (by decide)]
      exact congrArg (· % 16) (Nat.div_one w.toNat)
    · rw [keeps_takeField (by decide) (apart_copy (by decide) v), takeField_get (by decide)]
  · refine completes_of_access rfl ho ?_
    rw [run_writeRingcfg_enable hoff hb hlog hcell, if_pos hfits]
    obtain ⟨hen, hwr, hrd⟩ := enableRing_get v s
    exact ⟨hen, hwr, hrd, rfl, rfl⟩
  · refine completes_of_access rfl ho ?_
    rw [run_writeRingcfg_enable hoff hb hlog hcell, if_neg (by rw [hfits]; exact Bool.false_ne_true)]
    refine ⟨?_, (stickV_is FRM.STICKY.RINGERR v s rfl (by decide)).1,
      onlyStuck_sameStore (sticks_stickV (ps := [addrPage (keyAddr FRM.STICKY.key)]) _ v (by decide) s)⟩
    rw [is_of_keeps (keeps_stickV_addr v (by decide) (by rw [keyAddr_copy]; decide)), hoff]
  · intro ho rd n hn hmove
    refine completes_of_access rfl ho ?_
    rw [run_writeRdidx hn hmove]
    refine ⟨?_, rfl, rfl⟩
    rw [put_get_same _ (FRM.RDIDX.IDX.copy v) _ (show FRM.RDIDX.IDX.lo + FRM.RDIDX.IDX.width ≤ 32 by decide)]
    exact Nat.mod_eq_of_lt (Nat.mod_lt _ (by decide))

end Sys2Proof.Proofs
end

section
/-! The end of a frame job (R174, R359, R368), and acknowledgements built and received (R154, R176, R180 to R182, R206). -/

namespace Sys2Proof.Proofs

open Sys2Proof.Machine Sys2Proof.Laws

/-! What the end of a job leaves: everything but the registers, their reports and samples, the cipher engine and the keys. -/

/-- The state without them. -/
def besideJobs (s : State) : State := { s with regs := [], flt := {}, recd := {}, sec := {}, key := {} }

theorem besideJobs_stickV (f : Fld) (v : Nat) : Fixes besideJobs (stickV f v) :=
  fixes_cons (fixes_stick f fun _ _ _ _ => rfl) (fixes_cons (fixes_whenA fun _ => rfl) fixes_nil)

theorem besideJobs_keySet (c : KeyChange) : Fixes besideJobs (keySet c) := fixes_look fun _ =>
  fixes_cons (fun _ => rfl) <| fixes_cons (fun _ => rfl) <| fixes_cons
    (fixes_whenA <| fixes_cons (fun _ => rfl) <| fixes_cons (fun _ => rfl) <| fixes_cons (besideJobs_stickV _ _) fixes_nil)
    fixes_nil

theorem besideJobs_endFrameJob : Fixes besideJobs endFrameJob := fixes_look fun _ =>
  fixes_cons (fun _ => rfl) <| fixes_cons (fun _ => rfl) <| fixes_cons
    (fixes_look fun _ => fixes_cons (fun _ => rfl) <| fixes_cons (fixes_eachA besideJobs_keySet) fixes_nil) fixes_nil

theorem besideJobs_reseedsOf (blocks : Nat) : Fixes besideJobs (reseedsOf blocks) :=
  fixes_whenA <| fixes_look fun _ => fixes_whenA <| fixes_cons (fun _ => rfl) <| fixes_cons (fun _ => rfl) fixes_nil

theorem besideJobs_dualSticky (v dual : Nat) : Fixes besideJobs (dualSticky v dual) :=
  fixes_whenA <| fixes_cons (besideJobs_stickV _ _) <| fixes_cons (fixes_whenA (besideJobs_stickV _ _)) fixes_nil

@[fun_prop] theorem quiet_keysSettle (inUse : Nat → Bool) : Quiet (keysSettle inUse ·) := by
  unfold keysSettle keySet
  fun_prop (disch := exact fun _ => rfl)

@[fun_prop] theorem quiet_reseeds (n : Nat) : Quiet (reseeds n ·) := by
  unfold reseeds showPool
  fun_prop (disch := exact fun _ => rfl)

@[fun_prop] theorem quiet_dualSticky (v dual : Nat) : Quiet (dualSticky v dual ·) := by
  unfold dualSticky
  fun_prop

/-- After the end of a frame job none runs. -/
theorem endFrameJob_job (s : State) : (Act.run endFrameJob s).sec.frame = none := by
  rw [endFrameJob, run_look]
  repeat rw [run_chain_cons]
  rw [run_chain_nil]
  exact (quiet_keysSettle _).job _

/-! An acknowledgement is settled (R180). -/

/-- The pages of an acknowledgement that is not sent, and of the work of the lanes. -/
def ackPages : List Page := [.FRM, .DMD, .CHZ, .FEC]

theorem within_ackSettled (f : RxFrame) (sent : Bool) : Within false ackPages (ackSettled f sent ·) := by
  unfold ackSettled ackMissed ackPages
  fun_prop (disch := rfl)

theorem ackSettled_txp (f : RxFrame) (sent : Bool) : Fixes State.txp (ackSettled f sent) := by
  have hq : Quiet (whenA (!sent) (ackMissed f.vi) ·) := by
    unfold ackMissed
    fun_prop
  exact fixes_cons hq.txp <| fixes_cons (fun _ => rfl) <| fixes_cons (releaseIfDone_txp _ _) fixes_nil

/-- The rest of a frame's processing, once a sticky bit of the frame engine is set, leaves it. -/
theorem sticky_stays {g : Fld} (hg : pageOf g = some .FRM) (l b : Nat) (change : RxFrame → RxFrame) :
    Keeps (chain [onFrame l b change, releaseIfDone l b]) g :=
  keeps_cons (fun _ => rfl) (keeps_cons (keeps_releaseIfDone l b hg (by decide)) (keeps_nil g))

theorem ackSettled_missed (f : RxFrame) (s : State) : (Act.run (ackSettled f false) s).is FRM.STICKY.ACKMISS = true := by
  rw [ackSettled, run_chain_cons, is_of_keeps (sticky_stays rfl _ _ _), Bool.not_false, whenA_true, ackMissed, run_chain_cons,
    run_chain_cons, run_chain_nil]
  exact (stickV_is FRM.STICKY.ACKMISS f.vi _ rfl (by decide)).1

/-- A moment that has passed takes no time. -/
theorem run_until_past {s : State} {t : Nat} (h : t ≤ s.tb) : Act.run (until_ t) s = s := by
  rw [run_until]
  exact if_neg (not_lt.mpr h)

/-! An acknowledgement that is built (R176, R180). -/

section Built

variable {s : State} {l b t : Nat} {f : RxFrame}

/-- Its octets; the moment, in fine units, by which it has to be complete; and the end of its ramp-down. -/
def ackData (s : State) (f : RxFrame) : List Nat := s.ackOctets f ((f.verdict.map (·.ctx)).getD 0) f.ackCounter
def ackLatest (s : State) (f : RxFrame) : Nat := s.ackTime f - (s.rampTb f.port + 80) * 64
def ackDown (s : State) (f : RxFrame) : Nat := s.ackTime f +
  (airTb f.mode ((ackData s f).length + fcsLen f.fcs2) (s.get (FRM.ACKCFG.PRELEN.copy f.vi)) f.coded + s.rampTb f.port) * 64

/-- What a chain does with it, and what is left of one that no chain sends. -/
def sendAck (s : State) (f : RxFrame) (buf : Nat) : Act := chain [
  onChain (s.chainPort f.port) fun x => { x with runs := x.runs ++ [{ s.ackRun f (ackData s f) with buf }] }, ackSettled f true]
def loseAck (s : State) (f : RxFrame) (l b : Nat) : Act := chain [
  whenA (s.sec.frame == some (.answer l b)) endFrameJob, onFrame l b fun x => { x with job := 6 }, ackSettled f false]

def loseUnstaged (f : RxFrame) : Act := chain [stickV TXP.STICKY.NOBUF f.vi, ackSettled f false]

/-- What becomes of an acknowledgement that is complete: too late or disturbed, still being secured, past the tick or in a direct
slot, without a buffer, or handed to its chain. -/
def decideAck (s : State) (f : RxFrame) (l b : Nat) : Act :=
  if s.tb * 64 > ackLatest s f || s.shu.disturbed || !s.pairRuns then loseAck s f l b
  else whenA (f.job != 4 && f.job != 5)
    (if ackDown s f > s.clk.nextTick * 64 || (s.txChain (s.chainPort f.port)).direct then
      chain [whenA (s.txChain (s.chainPort f.port)).direct (stickV TXP.STICKY.ACKSKIP f.vi), ackSettled f false]
    else (s.txChain (s.chainPort f.port)).freeBuffer.elim (loseUnstaged f) (sendAck s f))

theorem decideAck_late (h : s.tb * 64 > ackLatest s f) : decideAck s f l b = loseAck s f l b := by
  rw [decideAck, decide_eq_true h]
  rfl

theorem decideAck_intime (hlate : ¬s.tb * 64 > ackLatest s f) (hdis : s.shu.disturbed = false) (hrun : s.pairRuns = true)
    (h4 : f.job ≠ 4) (h5 : f.job ≠ 5) (hend : ackDown s f ≤ s.clk.nextTick * 64)
    (hdir : (s.txChain (s.chainPort f.port)).direct = false) {o : Option Nat}
    (ho : (s.txChain (s.chainPort f.port)).freeBuffer = o) :
    decideAck s f l b = o.elim (loseUnstaged f) (sendAck s f) := by
  rw [decideAck, decide_eq_false hlate, hdis, hrun, bne_iff_ne.mpr h4, bne_iff_ne.mpr h5, decide_eq_false (not_lt.mpr hend),
    hdir, ho]
  rfl

variable (hf : s.frameAt l b = some f) (hst : f.stage = 3) (hreq : f.ackRequired = true) (hres : f.ackResolved = false)
  (ht : t ≤ s.tb)
include hf hst hreq hres ht

theorem run_buildAck : Act.run (buildAck l b t) s = Act.run (decideAck s f l b) s := by
  rw [buildAck, run_withFrame hf, hst, hreq, hres, show (3 == 3 && true && !false) = true from rfl, whenA_true, run_chain_cons,
    run_until_past ht, run_chain_cons, run_chain_nil, run_look, decideAck]
  dsimp only
  cases (s.txChain (s.chainPort f.port)).freeBuffer <;> rfl

omit hf hst hreq hres ht

theorem sendAck_holds (hp : f.port < 2) (hl : s.txp.chains.length = 2) (buf : Nat) :
    ((Act.run (sendAck s f buf) s).txChain (s.chainPort f.port)).runs =
        (s.txChain (s.chainPort f.port)).runs ++ [{ s.ackRun f (ackData s f) with buf }] ∧
      SameStore s (Act.run (sendAck s f buf) s) := by
  rw [sendAck, run_chain_cons, run_chain_cons, run_chain_nil]
  constructor
  · rw [State.txChain, ackSettled_txp]
    exact runs_onChain (by rw [hl]; exact chainPort_lt s hp) _
  · exact (within_ackSettled f true).sameStore _

theorem loseUnstaged_holds (c : Nat) : ((Act.run (loseUnstaged f) s).txChain c).runs = (s.txChain c).runs ∧
    (Act.run (loseUnstaged f) s).is TXP.STICKY.NOBUF = true ∧ (Act.run (loseUnstaged f) s).is FRM.STICKY.ACKMISS = true := by
  rw [loseUnstaged, run_chain_cons, run_chain_cons, run_chain_nil]
  refine ⟨?_, ?_, ackSettled_missed f _⟩
  · rw [State.txChain, ackSettled_txp, (quiet_stickV _ _).txp]
    rfl
  · rw [is_of_keeps ((within_ackSettled f false).keeps_page (p := .TXP) rfl (by decide))]
    exact (stickV_is TXP.STICKY.NOBUF f.vi s rfl (by decide)).1

theorem loseAck_holds (l b c : Nat) : ((Act.run (loseAck s f l b) s).txChain c).runs = (s.txChain c).runs ∧
    (Act.run (loseAck s f l b) s).is FRM.STICKY.ACKMISS = true ∧ SameStore s (Act.run (loseAck s f l b) s) := by
  have hend : Fixes besideJobs (whenA (s.sec.frame == some (.answer l b)) endFrameJob) := fixes_whenA besideJobs_endFrameJob
  rw [loseAck, run_chain_cons, run_chain_cons, run_chain_cons, run_chain_nil]
  refine ⟨?_, ackSettled_missed f _, sameStore_iff.mpr ?_⟩
  · rw [State.txChain, ackSettled_txp]
    exact congrArg (fun u => (u.txChain c).runs) (hend s)
  · rw [sameStore_iff.mp ((within_ackSettled f false).sameStore _)]
    exact congrArg (fun u => (u.mem, u.pat)) (hend s)

end Built

/-! Acknowledgements received (R181, R182, R206). -/

section Received

variable {s : State} {f : RxFrame} {w : AckWait}

/-- A wait is over. -/
theorem dropWait_waits (w : AckWait) (s : State) :
    ∀ x ∈ (Act.run (dropWait w) s).shu.waits, ¬(x.lane = w.lane ∧ x.desc = w.desc) := by
  intro x hx ⟨hl, hd⟩
  have := (List.mem_filter.mp hx).2
  simp [hl, hd] at this

theorem ackStray_holds {l b : Nat} (hf : s.frameAt l b = some f) : (Act.run (ackStray l b) s).is FRM.STICKY.ACKSTRAY = true ∧
    (Act.run (ackStray l b) s).shu.waits = s.shu.waits ∧ SameStore s (Act.run (ackStray l b) s) := by
  have hw : Within false ackPages (ackStray l b ·) := by
    unfold ackStray ackPages
    fun_prop (disch := rfl)
  refine ⟨?_, ?_, hw.sameStore s⟩ <;> rw [ackStray, run_withFrame hf, run_chain_cons, run_chain_cons]
  · rw [is_of_keeps (sticky_stays rfl _ _ _)]
    exact (stickV_is FRM.STICKY.ACKSTRAY f.vi _ rfl (by decide)).1
  · rw [run_chain_cons, run_chain_cons, run_chain_nil, releaseIfDone_waits]
    exact ((quiet_stickV _ _).waits _).trans ((quiet_count _).waits s)

theorem exec_ackMatch {l : Fin 128} {b : Fin 2} (hf : s.frameAt l b = some f) (hst : f.stage = 3) (ha : f.awaits = true)
    (h1 : f.job ≠ 1) (h2 : f.job ≠ 2) (hr : s.pairRuns = true) {o : Option AckWait}
    (ho : (s.shu.waits.find? fun w => w.meets f && s.ackVerifies w f) = o) :
    exec (.ackMatch l b) s = .next (Act.run (o.elim (ackStray l b) fun w =>
      chain [ackMatched w f, onFrame l b fun x => { x with awaits := false }, releaseIfDone l b]) s) := by
  show act _ s = _
  rw [act_next, run_withFrame hf, run_look, hst, ha, hr, bne_iff_ne.mpr h1, bne_iff_ne.mpr h2, ho]
  cases o <;> rfl

/-- A match ends the wait, where the context is free and not the time source. -/
theorem ackMatched_waits (hfree : s.ctxState (s.waitCtx w) = CtxState.free) (hts : s.is (SHU.VISTAT.TSV.copy s.tvi) = false)
    (l b : Nat) : ∀ x ∈ (Act.run (chain [ackMatched w f, onFrame l b fun x => { x with awaits := false }, releaseIfDone l b])
      s).shu.waits, ¬(x.lane = w.lane ∧ x.desc = w.desc) := by
  have hheld : s.stillHeld (s.waitCtx w) w.cell.vi = false := by
    rw [State.stillHeld, hfree]
    rfl
  rw [run_chain_cons, run_chain_cons, run_chain_cons, run_chain_nil, releaseIfDone_waits]
  show ∀ x ∈ (Act.run (ackMatched w f) s).shu.waits, _
  rw [ackMatched, run_look]
  dsimp only
  rw [hheld, hts, Bool.and_false, Bool.false_and, whenA_false, whenA_false, run_chain_cons, run_chain_cons, run_chain_cons,
    run_chain_cons, run_chain_nil, (quiet_attemptEnds _ _ _).waits]
  exact dropWait_waits w s

theorem exec_ackTimeout {l : Fin 128} (hw : (s.shu.waits.find? (·.lane == l.val)) = some w) (hr : s.pairRuns = true)
    (hn : s.laneFrame l = none) (hq : s.laneState l ≠ 5)
    (hall : (s.frm.frames.all fun f => !(f.lane == l.val && f.awaits)) = true) :
    exec (.ackTimeout l) s = .next (Act.run (chain [until_ (w.ends + 4 * (w.cell.t.rxackd + w.cell.t.ackwait)), dropWait w,
      attemptEnds w.cell w.desc false]) s) := by
  have hany : (!s.frm.frames.any fun f => f.lane == l.val && f.awaits) = true := by
    rwa [List.not_any_eq_all_not]
  show act _ s = _
  rw [act_next, run_look, hw]
  dsimp only
  rw [hr, hn, bne_iff_ne.mpr hq, hany]
  rfl

theorem ackTimeout_holds (w : AckWait) (t : Nat) (s : State) :
    let u := Act.run (chain [until_ t, dropWait w, attemptEnds w.cell w.desc false]) s
    (∀ x ∈ u.shu.waits, ¬(x.lane = w.lane ∧ x.desc = w.desc)) ∧ (t < 2 ^ 64 → t ≤ u.tb) := by
  intro u
  have hq := quiet_attemptEnds w.cell w.desc false
  have hu : u = Act.run (attemptEnds w.cell w.desc false) (Act.run (dropWait w) (Act.run (until_ t) s)) := by
    rw [← run_chain_nil (Act.run (attemptEnds _ _ _) _), ← run_chain_cons, ← run_chain_cons, ← run_chain_cons]
  rw [hu]
  constructor
  · rw [hq.waits]
    exact dropWait_waits w _
  · intro ht
    rw [State.tb, hq.clk]
    exact (le_max_right _ _).trans (until_tb t s ht).ge

end Received

/-- Settles O28: an acknowledgement that is built by what becomes of it, and one that is received by the waits that are left. -/
theorem acknowledgements : Obligations.Acknowledgements := by
  intro s lane buf
  refine ⟨?_, fun f hf hst ha h1 h2 hr => ⟨fun hall => ?_, fun w hw hfree hts => ?_⟩, fun w hw hr hn hq hall => ?_⟩
  · intro f t hf hst hreq hres ht hp hl c octets late ends
    have hrun := run_buildAck hf hst hreq hres ht
    refine ⟨fun hlate hdis hpair h4 h5 hend hdir => ⟨fun b hb => ?_, fun hb => ?_⟩, fun hlate => ?_⟩
    · refine completes_of_run _ rfl ?_
      rw [hrun, decideAck_intime hlate hdis hpair h4 h5 hend hdir hb]
      exact sendAck_holds hp hl b
    · refine completes_of_run _ rfl ?_
      rw [hrun, decideAck_intime hlate hdis hpair h4 h5 hend hdir hb]
      exact loseUnstaged_holds _
    · refine completes_of_run _ rfl ?_
      rw [hrun, decideAck_late hlate]
      exact loseAck_holds _ _ _
  · have hnone : (s.shu.waits.find? fun w => w.meets f && s.ackVerifies w f) = none := by
      exact List.find?_eq_none.mpr fun w hw =>
        ne_true_of_eq_false ((Bool.not_eq_true_eq_eq_false _).mp (List.all_eq_true.mp hall w hw))
    exact ⟨_, exec_ackMatch hf hst ha h1 h2 hr hnone, ackStray_holds hf⟩
  · exact ⟨_, exec_ackMatch hf hst ha h1 h2 hr hw, ackMatched_waits hfree hts _ _⟩
  · exact ⟨_, exec_ackTimeout hw hr hn hq hall, ackTimeout_holds _ _ _⟩

end Sys2Proof.Proofs
end

section
/-! The start of a frame job (R174, R207, R234). -/

namespace Sys2Proof.Proofs

open Sys2Proof.Machine Sys2Proof.Laws

/-! The queue of frame jobs. -/

theorem leastBy_mem {α : Type} {key : α → Nat} {l : List α} {x : α} (h : leastBy key l = some x) : x ∈ l := by
  induction l generalizing x with
  | nil => cases h
  | cons y l ih =>
    rw [leastBy] at h
    cases hl : leastBy key l with
    | none =>
      rw [hl] at h
      rw [← Option.some.inj h]
      exact List.mem_cons_self
    | some z =>
      rw [hl] at h
      rw [← Option.some.inj h]
      split
      · exact List.mem_cons_of_mem _ (ih hl)
      · exact List.mem_cons_self

theorem nextVerify_some {s : State} {p : Bool} {f : RxFrame} (h : s.nextVerify p = some f) :
    f ∈ s.frm.frames ∧ (f.job = 1 → f.classP = p) := by
  obtain ⟨hmem, hjob⟩ := List.mem_filter.mp (leastBy_mem h)
  refine ⟨hmem, fun h1 => ?_⟩
  simpa [h1] using hjob

/-! The parts of a start. -/

section Start

variable {s : State} {f : RxFrame} {j : TxJob}

theorem mem_onJob {x : TxJob} {cell : Nat} (g : TxJob → TxJob) (hx : x ∈ s.shu.jobs) (hc : x.cell = cell) :
    g x ∈ (Act.run (onJob cell g) s).shu.jobs := by
  have := List.mem_map_of_mem (f := fun j : TxJob => if j.cell == cell then g j else j) hx
  rwa [if_pos (beq_iff_eq.mpr hc)] at this

section Frame

variable {d : Bool} {ps : List Page}

@[fun_prop] theorem within_onJob (cell : Nat) (g : TxJob → TxJob) : Within d ps (onJob cell g ·) := by
  unfold onJob
  fun_prop

@[fun_prop] theorem within_reseeds (n : Nat) (h : ps.contains .SEC = true) : Within d ps (reseeds n ·) := by
  unfold reseeds showPool
  fun_prop (disch := assumption)

@[fun_prop] theorem within_preempt : Within d ps (preempt ·) := within_look fun s => by
  cases s.sec.frame with
  | none => exact within_skip
  | some k => cases k <;> dsimp only <;> fun_prop

@[fun_prop] theorem within_startVerify (f : RxFrame) (h : ps.contains .SEC = true) : Within d ps (startVerify f ·) := by
  unfold startVerify reseed
  fun_prop (disch := assumption)

end Frame

/-- A frame job that is put back leaves every frame in its buffer with its key. -/
theorem preempt_mem (hf : f ∈ s.frm.frames) :
    ∃ x ∈ (Act.run preempt s).frm.frames, x.lane = f.lane ∧ x.buf = f.buf ∧ x.secret = f.secret := by
  have hchange (l b : Nat) (n : Nat) : ∃ x ∈ (Act.run (onFrame l b fun x => { x with job := n }) s).frm.frames,
      x.lane = f.lane ∧ x.buf = f.buf ∧ x.secret = f.secret :=
    ⟨_, List.mem_map_of_mem hf, by split <;> exact ⟨rfl, rfl, rfl⟩⟩
  rw [preempt, run_look]
  cases s.sec.frame with
  | none => exact ⟨f, hf, rfl, rfl, rfl⟩
  | some k =>
    cases k with
    | verify l b => exact hchange l b 1
    | answer l b => exact hchange l b 4
    | secure k => exact ⟨f, hf, rfl, rfl, rfl⟩

/-- The end of every start: the engine's job, a reseeding, and the class. -/
def engineTakes (k : FrameJob) (reseeds : Bool) (cls : Nat) : Act :=
  chain [onSec fun e => { e with frame := some k }, whenA reseeds reseed, put SEC.STAT.CLASS cls]

theorem engineTakes_holds (k : FrameJob) (r : Bool) {cls : Nat} (hc : cls < 4) (s : State) :
    (Act.run (engineTakes k r cls) s).sec.frame = some k ∧ (Act.run (engineTakes k r cls) s).get SEC.STAT.CLASS = cls ∧
      (Act.run (engineTakes k r cls) s).frm = s.frm ∧ (Act.run (engineTakes k r cls) s).shu.jobs = s.shu.jobs := by
  have hq : Quiet (whenA r reseed ·) := by
    unfold reseed
    fun_prop
  rw [engineTakes, run_chain_cons, run_chain_cons, run_chain_cons, run_chain_nil]
  refine ⟨hq.job _, ?_, hq.frm _, hq.jobs _⟩
  exact (put_get_same _ SEC.STAT.CLASS cls (by decide)).trans (Nat.mod_eq_of_lt hc)

/-- A verification takes its key, once. -/
def takesKey (key : List Nat) (x : RxFrame) : RxFrame :=
  { x with job := 2, secret := if x.secret.isEmpty then key else x.secret }

theorem run_startVerify (f : RxFrame) (s : State) : Act.run (startVerify f) s =
    Act.run (engineTakes (.verify f.lane f.buf) f.secret.isEmpty (if f.classP then 1 else 2))
      (Act.run (onFrame f.lane f.buf (takesKey (s.key.keys.getD f.slot []))) s) := by
  rw [startVerify, run_look, run_chain_cons]
  rfl

/-- A verification of a frame that is in its buffer, with its secret, starts. -/
theorem startVerify_holds {x : RxFrame} (hx : x ∈ s.frm.frames) (hl : x.lane = f.lane) (hb : x.buf = f.buf)
    (hs : x.secret = f.secret) :
    let t := Act.run (startVerify f) s
    t.sec.frame = some (.verify f.lane f.buf) ∧ t.get SEC.STAT.CLASS = (if f.classP then 1 else 2) ∧
      inBuffer t f.lane f.buf fun y => y.job = 2 ∧
        y.secret = if f.secret.isEmpty then s.key.keys.getD f.slot [] else f.secret := by
  intro t
  obtain ⟨hjob, hclass, hfrm, -⟩ := engineTakes_holds (.verify f.lane f.buf) f.secret.isEmpty
    (cls := if f.classP then 1 else 2) (by split <;> decide)
    (Act.run (onFrame f.lane f.buf (takesKey (s.key.keys.getD f.slot []))) s)
  rw [← run_startVerify] at hjob hclass hfrm
  refine ⟨hjob, hclass, inBuffer_iff.mpr ⟨takesKey (s.key.keys.getD f.slot []) x, ?_, rfl, ?_⟩⟩
  · rw [framesAt_of_frm hfrm, framesAt_onFrame (g := takesKey (s.key.keys.getD f.slot [])) fun _ => ⟨rfl, rfl⟩]
    exact List.mem_map_of_mem (mem_framesAt.mpr ⟨hx, hl, hb⟩)
  · rw [← hs]
    rfl

/-- The securing of an acknowledgement that needs no counter starts. -/
theorem run_startAnswer (h : f.mac.fcSup = true ∨ f.ackCounter.isSome = true) (s : State) : Act.run (startAnswer f) s =
    Act.run (engineTakes (.answer f.lane f.buf) true 1) (Act.run (onFrame f.lane f.buf fun x => { x with job := 5 }) s) := by
  rw [startAnswer, if_pos (Bool.or_eq_true_iff.mpr h), run_chain_cons]
  rfl

theorem startAnswer_holds {x : RxFrame} (h : f.mac.fcSup = true ∨ f.ackCounter.isSome = true) (hx : x ∈ s.frm.frames)
    (hl : x.lane = f.lane) (hb : x.buf = f.buf) :
    let t := Act.run (startAnswer f) s
    t.sec.frame = some (.answer f.lane f.buf) ∧ t.get SEC.STAT.CLASS = 1 ∧ (inBuffer t f.lane f.buf fun y => y.job = 5) ∧
      SameStore s t := by
  intro t
  have hw : Within false [.SEC] (engineTakes (.answer f.lane f.buf) true 1 ·) := by
    unfold engineTakes reseed
    fun_prop (disch := rfl)
  obtain ⟨hjob, hclass, hfrm, -⟩ := engineTakes_holds (.answer f.lane f.buf) true (cls := 1) (by decide)
    (Act.run (onFrame f.lane f.buf fun x => { x with job := 5 }) s)
  have hst := hw.sameStore (Act.run (onFrame f.lane f.buf fun x => { x with job := 5 }) s)
  rw [← run_startAnswer h] at hjob hclass hfrm hst
  refine ⟨hjob, hclass, inBuffer_iff.mpr ⟨{ x with job := 5 }, ?_, rfl⟩, hst⟩
  rw [framesAt_of_frm hfrm, framesAt_onFrame (g := fun x => { x with job := 5 }) fun _ => ⟨rfl, rfl⟩]
  exact List.mem_map_of_mem (f := fun x : RxFrame => { x with job := 5 }) (mem_framesAt.mpr ⟨hx, hl, hb⟩)

/-! The securing of a cell's frame. -/

/-- It runs with a key. -/
def securingRuns (j : TxJob) (key : List Nat) : Act := chain [
  onJob j.cell fun x => { x with stage := 1, secret := key }, onSec fun e => { e with frame := some (.secure j.cell) },
  whenA j.secret.isEmpty reseed, put SEC.STAT.CLASS 2]

/-- A job waits for its cell with some octets. -/
def JobWaits (s : State) (j : TxJob) (octets : List Nat) : Prop := ∃ x ∈ s.shu.jobs, x.cell = j.cell ∧ x.octets = octets

theorem securingRuns_holds {octets : List Nat} (h : JobWaits s j octets) (key : List Nat) :
    let t := Act.run (securingRuns j key) s
    t.sec.frame = some (.secure j.cell) ∧ t.get SEC.STAT.CLASS = 2 ∧
      ∃ x ∈ t.shu.jobs, x.cell = j.cell ∧ x.stage = 1 ∧ x.octets = octets := by
  intro t
  obtain ⟨x, hx, hc, ho⟩ := h
  obtain ⟨hjob, hclass, -, hjobs⟩ := engineTakes_holds (.secure j.cell) j.secret.isEmpty (cls := 2) (by decide)
    (Act.run (onJob j.cell fun x => { x with stage := 1, secret := key }) s)
  have ht : t = Act.run (engineTakes (.secure j.cell) j.secret.isEmpty 2)
      (Act.run (onJob j.cell fun x => { x with stage := 1, secret := key }) s) := run_chain_cons ..
  rw [ht]
  refine ⟨hjob, hclass, { x with stage := 1, secret := key }, ?_, hc, rfl, ho⟩
  rw [hjobs]
  exact mem_onJob (fun x => { x with stage := 1, secret := key }) hx hc

/-- A counter that is not exhausted is taken and counted up. -/
theorem run_takeCounter {n : Nat} (h : s.cx n Cx.txfc ≠ 0xFFFFFFFF) (k : Option Nat → Act) :
    Act.run (takeCounter n k) s =
      Act.run (k (some (s.cx n Cx.txfc))) (Act.run (setCx n Cx.txfc (s.cx n Cx.txfc + 1)) s) := by
  rw [takeCounter, run_look]
  dsimp only
  rw [if_neg (by simpa using h), run_chain_cons, run_chain_cons, run_chain_nil]

/-- A securing that was put back runs again with its octets. -/
theorem run_startSecuring_again (h : j.secret ≠ []) :
    Act.run (startSecuring j) s = Act.run (securingRuns j (s.key.keys.getD j.slot [])) s := by
  rw [startSecuring, run_look]
  dsimp only
  rw [if_pos (bne_iff_ne.mpr h)]
  rfl

section Fresh

variable (h : j.secret = []) (hslot : s.encSlot j.vi j.slot = true)
  (hsup : ((txMac j.octets).fcSup && !(txMac j.octets).asnNonce) = false)
include h hslot hsup

/-- A securing without a counter of its own runs with its octets. -/
theorem run_startSecuring_plain (hm : (txMac j.octets).sec = false ∨ (txMac j.octets).ver ≠ 2) :
    Act.run (startSecuring j) s = Act.run (securingRuns j (s.key.keys.getD j.slot [])) s := by
  have hplain : ((txMac j.octets).sec && (txMac j.octets).ver == 2) = false := by
    obtain hm | hm := hm
    · rw [hm, Bool.false_and]
    · rw [beq_false_of_ne hm, Bool.and_false]
  rw [startSecuring, run_look]
  dsimp only
  rw [bne_eq_false_iff_eq.mpr h, hsup, hslot, hplain, Bool.false_and]
  rfl

/-- A secured frame takes the counter of its context into its octets. -/
theorem run_startSecuring_counted (hsec : (txMac j.octets).sec = true) (hver : (txMac j.octets).ver = 2) (hctx : j.ctx < 4096)
    (hfc : (txMac j.octets).fcSup = false) (hc : s.cx j.ctx Cx.txfc ≠ 0xFFFFFFFF) :
    Act.run (startSecuring j) s = Act.run (securingRuns j (s.key.keys.getD j.slot []))
      (Act.run (onJob j.cell fun x => { x with
          counter := some (s.cx j.ctx Cx.txfc), octets := withCounter x.octets (txMac j.octets) (s.cx j.ctx Cx.txfc) })
        (Act.run (setCx j.ctx Cx.txfc (s.cx j.ctx Cx.txfc + 1)) s)) := by
  rw [startSecuring, run_look]
  dsimp only
  rw [if_neg (by simp [h]), if_neg (by simp [hsup]), if_neg (by simp [hslot]), if_neg (by simp [hctx]),
    if_pos (by simp [hsec, hver]), run_takeCounter hc]
  dsimp only
  rw [hfc, run_chain_cons, run_chain_cons, run_chain_nil]
  rfl

end Fresh

/-! What the command starts. -/

theorem preempt_key : Fixes State.key preempt := fixes_look fun s => by
  cases s.sec.frame with
  | none => exact fixes_skip
  | some k => cases k <;> exact fun _ => rfl

/-- A frame job of class P starts, in front of one that it puts back. -/
theorem exec_frameJobStart_classP (hd : s.domOn Dom.mac = true) (hv : s.nextVerify true = some f) (hr : s.runsP = false)
    {a : Act} (ha : (if f.job == 4 then startAnswer f else startVerify f) = a) :
    exec .frameJobStart s = .next (Act.run a (Act.run preempt s)) := by
  show act _ s = _
  rw [act_next, run_look, hd, whenA_true, startFrameJob, run_look, hv]
  dsimp only
  rw [hr, ha, Bool.not_false, whenA_true, run_chain_cons, run_chain_cons, run_chain_nil]

section Free

variable (hd : s.domOn Dom.mac = true) (hp : s.nextVerify true = none) (he : s.sec.frame = none)
include hd hp he

/-- Another verification starts on a free engine. -/
theorem exec_frameJobStart_verify (hv : s.nextVerify false = some f) (hj : (s.shu.jobs.all fun j => j.stage != 0) = true) :
    exec .frameJobStart s = .next (Act.run (startVerify f) s) := by
  have hnone : s.shu.jobs.find? (·.stage == 0) = none := List.find?_eq_none.mpr fun j hm => by
    simpa using List.all_eq_true.mp hj j hm
  show act _ s = _
  rw [act_next, run_look, hd, whenA_true, startFrameJob, run_look, hp]
  dsimp only
  rw [he, hv, hnone]
  rfl

/-- So does a securing, where none waits. -/
theorem exec_frameJobStart_secure (hv : s.nextVerify false = none) (hj : s.shu.jobs.find? (·.stage == 0) = some j) :
    exec .frameJobStart s = .next (Act.run (startSecuring j) s) := by
  show act _ s = _
  rw [act_next, run_look, hd, whenA_true, startFrameJob, run_look, hp]
  dsimp only
  rw [he, hv, hj]
  rfl

end Free

/-- The verification of a frame of class P. -/
theorem frameJobStart_verifies (hd : s.domOn Dom.mac = true) (hv : s.nextVerify true = some f) (hr : s.runsP = false)
    (h1 : f.job = 1) :
    Completes .frameJobStart s fun t => t.sec.frame = some (.verify f.lane f.buf) ∧ t.get SEC.STAT.CLASS = 1 ∧
      (inBuffer t f.lane f.buf fun x => x.job = 2 ∧
        x.secret = if f.secret.isEmpty then s.key.keys.getD f.slot [] else f.secret) ∧ SameStore s t := by
  obtain ⟨hmem, hp⟩ := nextVerify_some hv
  obtain ⟨x, hx, hl, hb, hs⟩ := preempt_mem hmem
  obtain ⟨hjob, hclass, hbuf⟩ := startVerify_holds hx hl hb hs
  have hput : Within false [] (preempt ·) := within_preempt
  have hstart : Within false [.SEC] (startVerify f ·) := within_startVerify f rfl
  refine ⟨_, exec_frameJobStart_classP hd hv hr (if_neg (by simp [h1])), hjob, hclass.trans (if_pos (hp h1)), ?_,
    sameStore_iff.mpr ?_⟩
  · rwa [preempt_key] at hbuf
  · exact (sameStore_iff.mp (hstart.sameStore _)).trans (sameStore_iff.mp (hput.sameStore s))

/-- The securing of an acknowledgement. -/
theorem frameJobStart_answers (hd : s.domOn Dom.mac = true) (hv : s.nextVerify true = some f) (hr : s.runsP = false)
    (h4 : f.job = 4) (ha : f.mac.fcSup = true ∨ f.ackCounter.isSome = true) :
    Completes .frameJobStart s fun t => t.sec.frame = some (.answer f.lane f.buf) ∧ t.get SEC.STAT.CLASS = 1 ∧
      (inBuffer t f.lane f.buf fun x => x.job = 5) ∧ SameStore s t := by
  obtain ⟨x, hx, hl, hb, -⟩ := preempt_mem (nextVerify_some hv).1
  obtain ⟨hjob, hclass, hbuf, hst⟩ := startAnswer_holds ha hx hl hb
  have hput : Within false [] (preempt ·) := within_preempt
  exact ⟨_, exec_frameJobStart_classP hd hv hr (if_pos (by simp [h4])), hjob, hclass, hbuf,
    sameStore_iff.mpr ((sameStore_iff.mp hst).trans (sameStore_iff.mp (hput.sameStore s)))⟩

section Free

variable (hd : s.domOn Dom.mac = true) (hp : s.nextVerify true = none) (he : s.sec.frame = none)
include hd hp he

/-- The verification of another frame. -/
theorem frameJobStart_verifies_free (hv : s.nextVerify false = some f) (hj : (s.shu.jobs.all fun j => j.stage != 0) = true) :
    Completes .frameJobStart s fun t => t.sec.frame = some (.verify f.lane f.buf) ∧
      t.get SEC.STAT.CLASS = (if f.classP then 1 else 2) ∧ (inBuffer t f.lane f.buf fun x => x.job = 2) ∧ SameStore s t := by
  obtain ⟨hjob, hclass, x, hx, hl, hb, h2, -⟩ := startVerify_holds (nextVerify_some hv).1 rfl rfl rfl
  have hstart : Within false [.SEC] (startVerify f ·) := within_startVerify f rfl
  exact ⟨_, exec_frameJobStart_verify hd hp he hv hj, hjob, hclass, ⟨x, hx, hl, hb, h2⟩, hstart.sameStore s⟩

variable (hv : s.nextVerify false = none) (hj : s.shu.jobs.find? (·.stage == 0) = some j)
include hv hj

/-- The securing of a cell's frame, whose octets are known when it runs. -/
theorem frameJobStart_secures {u : State} {octets key : List Nat}
    (hrun : Act.run (startSecuring j) s = Act.run (securingRuns j key) u) (hw : JobWaits u j octets) :
    Completes .frameJobStart s fun t => t.sec.frame = some (.secure j.cell) ∧ t.get SEC.STAT.CLASS = 2 ∧
      ∃ x ∈ t.shu.jobs, x.cell = j.cell ∧ x.stage = 1 ∧ x.octets = octets :=
  ⟨_, exec_frameJobStart_secure hd hp he hv hj, hrun ▸ securingRuns_holds hw key⟩

end Free

end Start

end Sys2Proof.Proofs
end

section
/-! What a verified frame leaves in its buffer (R173, R229 to R233). -/

namespace Sys2Proof.Proofs

open Sys2Proof.Machine Sys2Proof.Laws

section Frames

variable {s t : State} {l b : Nat} {f : RxFrame} {p q : RxFrame → Prop}

/-! What holds of every frame in a buffer. -/

theorem atBuffer_onFrame {g : RxFrame → RxFrame} (hg : SamePlace g) (h : ∀ x, q x → p (g x)) (hs : atBuffer s l b q) :
    atBuffer (Act.run (onFrame l b g) s) l b p := atBuffer_iff.mpr fun x hx => by
  rw [framesAt_onFrame hg] at hx
  obtain ⟨y, hy, rfl⟩ := List.mem_map.mp hx
  exact h y (atBuffer_iff.mp hs y hy)

theorem atBuffer_releaseIfDone (hs : atBuffer s l b p) : atBuffer (Act.run (releaseIfDone l b) s) l b p :=
  atBuffer_iff.mpr fun x hx => by
    rw [framesAt_releaseIfDone] at hx
    split at hx
    · cases hx
    · exact atBuffer_iff.mp hs x hx

/-- A frame that is discarded leaves no copy and no data in its buffer, and the frame job as it is. -/
theorem discardFrame_holds (f : RxFrame) (s : State) : (Act.run (discardFrame f) s).sec.frame = s.sec.frame ∧
    atBuffer (Act.run (discardFrame f) s) f.lane f.buf fun x => x.copies = [] ∧ x.plain = [] := by
  rw [discardFrame, run_chain_cons, run_chain_cons, run_chain_cons, run_chain_cons, run_chain_nil]
  refine ⟨releaseIfDone_job .., atBuffer_releaseIfDone ?_⟩
  refine atBuffer_onFrame (q := fun x => x.copies = [] ∧ x.plain = []) (fun _ => ⟨rfl, rfl⟩) (fun _ h => h) ?_
  refine atBuffer_onFrame (q := fun x => x.copies = []) (fun _ => ⟨rfl, rfl⟩) (fun _ h => ⟨h, rfl⟩) ?_
  refine atBuffer_onFrame (q := fun _ => True) (fun _ => ⟨rfl, rfl⟩) (fun x _ => ?_) fun _ _ _ _ => trivial
  exact List.filter_eq_nil_iff.mpr fun _ _ => Bool.false_ne_true

/-! What a verified frame leaves. -/

/-- The frames of a buffer are changed to what a predicate says, their copies and the frame job left alone. -/
def Processed (l b : Nat) (p : RxFrame → Prop) (s t : State) : Prop :=
  t.sec.frame = s.sec.frame ∧
    ∃ g : RxFrame → RxFrame, (∀ x, p (g x) ∧ (g x).copies = x.copies) ∧ framesAt t l b = (framesAt s l b).map g

/-- A change of the frames in a buffer processes them. -/
theorem processed_onFrame {g : RxFrame → RxFrame} (hg : SamePlace g) (h : ∀ x, p (g x) ∧ (g x).copies = x.copies)
    (s : State) : Processed l b p s (Act.run (onFrame l b g) s) := ⟨rfl, g, h, framesAt_onFrame hg l b s⟩

/-- A further change leaves them processed. -/
theorem Processed.onFrame {g : RxFrame → RxFrame} (ht : Processed l b q s t) (hg : SamePlace g)
    (h : ∀ x, q x → p (g x)) (hc : ∀ x, (g x).copies = x.copies) : Processed l b p s (Act.run (onFrame l b g) t) := by
  obtain ⟨hjob, k, hk, hframes⟩ := ht
  refine ⟨hjob, g ∘ k, fun x => ⟨h _ (hk x).1, (hc _).trans (hk x).2⟩, ?_⟩
  rw [framesAt_onFrame hg, hframes, List.map_map]

theorem processed_frameDone (f : RxFrame) (status : Nat) (secraw ack : Bool) (plain : List Nat) (s : State) :
    Processed f.lane f.buf (fun x => x.stage = 3 ∧ x.status = status ∧ x.plain = plain) s
      (Act.run (frameDone f status secraw ack plain) s) := by
  unfold frameDone
  refine processed_onFrame ?_ ?_ s
  · exact fun _ => ⟨rfl, rfl⟩
  · exact fun _ => ⟨⟨rfl, rfl, rfl⟩, rfl⟩

theorem processed_cutCopy (f : RxFrame) (status : Nat) (s : State) :
    Processed f.lane f.buf (fun x => x.stage = 3 ∧ x.status = status ∧ x.plain = f.octets.take f.mac.hdrEnd) s
      (Act.run (cutCopy f status) s) := by
  rw [cutCopy, run_look, run_chain_cons, run_chain_cons, run_chain_nil]
  refine (processed_frameDone f status false false (f.octets.take f.mac.hdrEnd) s).onFrame ?_ ?_ ?_
  · exact fun _ => ⟨rfl, rfl⟩
  · exact fun _ h => h
  · exact fun _ => rfl

theorem processed_chain {a x c : Act} (ha : Quiet (a ·)) (hx : ∀ s, Processed l b p s (Act.run x s)) (hc : Quiet (c ·))
    (s : State) : Processed l b p s (Act.run (chain [a, x, c]) s) := by
  rw [run_chain_cons, run_chain_cons, run_chain_cons, run_chain_nil]
  obtain ⟨hjob, g, hg, hframes⟩ := hx (Act.run a s)
  refine ⟨by rw [hc.job, hjob, ha.job], g, hg, ?_⟩
  rw [framesAt_of_frm (hc.frm _), hframes, framesAt_of_frm (ha.frm _)]

/-- A processed frame is released or stays; one with copies that wait stays. -/
theorem processed_release (h : Processed l b p s t) : let u := Act.run (releaseIfDone l b) t
    u.sec.frame = s.sec.frame ∧ atBuffer u l b p ∧
      (∀ x, (framesAt s l b).head? = some x → x.copies ≠ [] → inBuffer u l b p) := by
  obtain ⟨hjob, g, hg, hframes⟩ := h
  intro u
  refine ⟨(releaseIfDone_job ..).trans hjob, atBuffer_releaseIfDone (atBuffer_iff.mpr fun x hx => ?_), fun x hx hc => ?_⟩
  · rw [hframes] at hx
    obtain ⟨y, -, rfl⟩ := List.mem_map.mp hx
    exact (hg y).1
  · have hhead : (framesAt t l b).head? = some (g x) := by rw [hframes, List.head?_map, hx]; rfl
    have hdone : RxFrame.isDone (g x) = false := by
      rw [RxFrame.isDone, (hg x).2, List.isEmpty_eq_false_iff.mpr hc, Bool.and_false, Bool.false_and, Bool.false_and]
    refine inBuffer_iff.mpr ⟨g x, ?_, (hg x).1⟩
    rw [framesAt_releaseIfDone, hhead, Option.any_some, hdone, if_neg Bool.false_ne_true]
    exact List.mem_of_mem_head? hhead

end Frames

/-! The verdict of a verification. -/

section Verified

/-- Whether the MIC of a frame that is opened is right, and its octets. -/
def opened (s : State) (f : RxFrame) (w : Verdict) : Bool × List Nat :=
  openFrame f.secret (s.ctxEui w.ctx) f.asn f.mac f.body

variable {s : State} {f : RxFrame} {w : Verdict} {r : Bool × List Nat} (hw : f.verdict = some w) (ho : opened s f w = r)
include hw ho

theorem verified_micFails (hr : r.1 = false) :
    (Processed f.lane f.buf (fun x => x.stage = 3 ∧ x.status = Status.micFail ∧ x.plain = f.octets.take f.mac.hdrEnd) s
      (Act.run (verified f) s)) ∧
    (w.res = 2 → (Act.run (verified f) s).is BOB.STICKY.SUPERSRX = true) := by
  rw [← ho, opened] at hr
  rw [verified, run_look, hw]
  dsimp only
  rw [if_pos (by rw [hr]; rfl)]
  refine ⟨processed_chain (by fun_prop) (processed_cutCopy f _) (by fun_prop) s, fun h2 => ?_⟩
  rw [h2, run_chain_cons, run_chain_cons, run_chain_cons, run_chain_nil, beq_self_eq_true, whenA_true, supersSeen, run_look]
  generalize Mac.rejoin _ _ = o
  cases o <;> exact (stickV_is BOB.STICKY.SUPERSRX f.vi _ rfl (by decide)).1

section Opened

variable (hr : r.1 = true) (hb : f.mac.badBeacon r.2 f.total f.len = false)
include hr hb

theorem verified_accepted (hc : s.checkCounter w.ctx f.asn f.mac = .accepted) :
    Processed f.lane f.buf (fun x => x.stage = 3 ∧ x.status = Status.ok ∧ x.plain = r.2) s
      (Act.run (verified f) s) := by
  subst ho
  rw [opened] at *
  rw [verified, run_look, hw]
  dsimp only
  rw [hr, hb, hc]
  exact processed_chain (by fun_prop) (processed_frameDone f _ _ _ _) (by fun_prop) s

theorem verified_stale (hc : s.checkCounter w.ctx f.asn f.mac = .stale) :
    Processed f.lane f.buf (fun x => x.stage = 3 ∧ x.status = Status.counterStale ∧ x.plain = f.octets.take f.mac.hdrEnd) s
      (Act.run (verified f) s) := by
  subst ho
  rw [opened] at *
  rw [verified, run_look, hw]
  dsimp only
  rw [hr, hb, hc]
  exact processed_chain (by fun_prop) (processed_cutCopy f _) (by fun_prop) s

theorem verified_duplicate (hc : s.checkCounter w.ctx f.asn f.mac = .duplicate) :
    Act.run (verified f) s = Act.run (discardFrame f) s := by
  subst ho
  rw [opened] at *
  rw [verified, run_look, hw]
  dsimp only
  rw [hr, hb, hc]
  rfl

end Opened

end Verified

end Sys2Proof.Proofs
end

section
/-! The command that ends a verification (R173, R174, R181, R359). -/

namespace Sys2Proof.Proofs

open Sys2Proof.Machine Sys2Proof.Laws

section Ends

variable {s : State} {f : RxFrame} {j : TxJob} {dual : Fin 3}

/-- What is read beside the registers, the cipher engine and the keys stays where an action changes only these. -/
theorem fixes_of_besideJobs {α : Type} {φ : State → α} (h : ∀ s, φ (besideJobs s) = φ s) {a : Act}
    (ha : Fixes besideJobs a) : Fixes φ a := fun s => by
  rw [← h, ha, h]

@[fun_prop] theorem quiet_reseedsOf (n : Nat) : Quiet (reseedsOf n ·) := by
  unfold reseedsOf
  fun_prop

/-! A difference of the two cipher engines (R359). -/

theorem dualSticky_is (v : Nat) (s : State) : (Act.run (dualSticky v 2) s).is SEC.STICKY.DUALMIS = true ∧
    (Act.run (dualSticky v 2) s).is SEC.STICKY.DUALFAIL = true := by
  rw [dualSticky, show ((2 : Nat) != 0) = true from rfl, whenA_true, run_chain_cons, run_chain_cons, run_chain_nil,
    beq_self_eq_true, whenA_true]
  refine ⟨?_, (stickV_is SEC.STICKY.DUALFAIL v _ rfl (by decide)).1⟩
  rw [is_of_keeps (keeps_stickV v (by decide) (by decide) (by simp [apart, SEC.STICKY.DUALMIS, SEC.STICKY.DUALFAIL]))]
  exact (stickV_is SEC.STICKY.DUALMIS v s rfl (by decide)).1

/-- A change of the frames leaves what is not the frame engine's. -/
theorem fixes_onFrame {α : Type} {φ : State → α} (h : ∀ s x, φ (Eff.apply s (.frm x)) = φ s) (l b : Nat)
    (g : RxFrame → RxFrame) : Fixes φ (onFrame l b g) := fun s => h s _

/-! The end of a verification's job, before its verdict. -/

def jobEnds (f : RxFrame) (dual : Nat) : Act := chain [endFrameJob,
  reseedsOf (ccmBlocks f.mac.hdrEnd (f.body.length - f.mac.hdrEnd - micLen f.mac.level)),
  onFrame f.lane f.buf fun x => { x with job := 3 }, dualSticky f.vi dual]

theorem fixes_jobEnds {α : Type} {φ : State → α} (h : ∀ s, φ (besideJobs s) = φ s)
    (hfrm : ∀ s x, φ (Eff.apply s (.frm x)) = φ s) (f : RxFrame) (dual : Nat) : Fixes φ (jobEnds f dual) :=
  fixes_cons (fixes_of_besideJobs h besideJobs_endFrameJob) <| fixes_cons (fixes_of_besideJobs h (besideJobs_reseedsOf _)) <|
    fixes_cons (fixes_onFrame hfrm _ _ _) <| fixes_cons (fixes_of_besideJobs h (besideJobs_dualSticky _ _)) fixes_nil

theorem opened_jobEnds (w : Verdict) (dual : Nat) : opened (Act.run (jobEnds f dual) s) f w = opened s f w :=
  congrArg (fun eui => openFrame f.secret eui f.asn f.mac f.body)
    (fixes_jobEnds (φ := (·.ctxEui w.ctx)) (fun _ => rfl) (fun _ _ => rfl) f dual s)

theorem checkCounter_jobEnds (ctx asn : Nat) (m : Mac) (dual : Nat) :
    (Act.run (jobEnds f dual) s).checkCounter ctx asn m = s.checkCounter ctx asn m :=
  fixes_jobEnds (φ := (·.checkCounter ctx asn m)) (fun _ => rfl) (fun _ _ => rfl) f dual s

theorem jobEnds_job (dual : Nat) : (Act.run (jobEnds f dual) s).sec.frame = none := by
  rw [jobEnds, run_chain_cons, run_chain_cons, run_chain_cons, run_chain_cons, run_chain_nil, (quiet_dualSticky _ _).job]
  exact ((quiet_reseedsOf _).job _).trans (endFrameJob_job s)

theorem framesAt_jobEnds (dual : Nat) : framesAt (Act.run (jobEnds f dual) s) f.lane f.buf =
    (framesAt s f.lane f.buf).map fun x => { x with job := 3 } := by
  rw [jobEnds, run_chain_cons, run_chain_cons, run_chain_cons, run_chain_cons, run_chain_nil,
    framesAt_of_frm ((quiet_dualSticky _ _).frm _), framesAt_onFrame (g := fun x => { x with job := 3 }) fun _ => ⟨rfl, rfl⟩,
    framesAt_of_frm ((quiet_reseedsOf _).frm _)]
  exact congrArg _ (fixes_of_besideJobs (φ := (framesAt · f.lane f.buf)) (fun _ => rfl) besideJobs_endFrameJob s)

section Verification

variable (hj : s.sec.frame = some (.verify f.lane f.buf)) (hf : s.frameAt f.lane f.buf = some f)
include hj hf

theorem exec_frameVerifyDone {d : Nat} (hd : dual.val = d) {a : Act}
    (ha : (if d = 2 then discardFrame f else whenA (!f.awaits) (verified f)) = a) :
    exec (.frameVerifyDone dual) s =
      .next (Act.run (releaseIfDone f.lane f.buf) (Act.run a (Act.run (jobEnds f d) s))) := by
  subst hd
  have hframe : (Act.run endFrameJob s).frameAt f.lane f.buf = some f :=
    (fixes_of_besideJobs (φ := (·.frameAt f.lane f.buf)) (fun _ => rfl) besideJobs_endFrameJob s).trans hf
  show act _ s = _
  rw [act_next, run_look, hj]
  dsimp only
  rw [verifyEnds, run_chain_cons, run_chain_cons, run_chain_nil, run_withFrame hframe, ha, jobEnds]
  simp only [run_chain_cons, run_chain_nil]

/-- A difference between the engines discards the frame. -/
theorem frameVerifyDone_dualfail : Completes (.frameVerifyDone 2) s fun t =>
    t.sec.frame = none ∧ t.is SEC.STICKY.DUALMIS = true ∧ t.is SEC.STICKY.DUALFAIL = true ∧
      atBuffer t f.lane f.buf fun x => x.copies = [] := by
  obtain ⟨hjob, hbuf⟩ := discardFrame_holds f (Act.run (jobEnds f 2) s)
  have hw : Within false [.DMD, .CHZ, .FEC] (chain [discardFrame f, releaseIfDone f.lane f.buf] ·) := by
    unfold discardFrame frameDone
    fun_prop (disch := rfl)
  have hkeep {g : Fld} (hg : pageOf g = some .SEC) (h : (Act.run (jobEnds f 2) s).is g = true) :
      (Act.run (releaseIfDone f.lane f.buf) (Act.run (discardFrame f) (Act.run (jobEnds f 2) s))).is g = true := by
    have := is_of_keeps (hw.keeps_page hg (by decide)) (Act.run (jobEnds f 2) s)
    rwa [run_chain_cons, run_chain_cons, run_chain_nil, h] at this
  obtain ⟨hmis, hfail⟩ : (Act.run (jobEnds f 2) s).is SEC.STICKY.DUALMIS = true ∧
      (Act.run (jobEnds f 2) s).is SEC.STICKY.DUALFAIL = true := by
    rw [jobEnds, run_chain_cons, run_chain_cons, run_chain_cons, run_chain_cons, run_chain_nil]
    exact dualSticky_is f.vi _
  refine ⟨_, exec_frameVerifyDone (d := 2) hj hf rfl (if_pos rfl), ?_, hkeep rfl hmis, hkeep rfl hfail, ?_⟩
  · rw [releaseIfDone_job, hjob, jobEnds_job]
  · exact atBuffer_releaseIfDone fun x hx hl hb => (hbuf x hx hl hb).1

variable (hd : dual ≠ 2) (haw : f.awaits = false)
include hd haw

theorem exec_frameVerifyDone_verified : exec (.frameVerifyDone dual) s =
    .next (Act.run (releaseIfDone f.lane f.buf) (Act.run (verified f) (Act.run (jobEnds f dual) s))) :=
  exec_frameVerifyDone hj hf rfl ((if_neg fun h => hd (Fin.ext h)).trans (by rw [haw]; rfl))

/-- A frame that its verification processes is released or stays with its copies. -/
theorem frameVerifyDone_processed {p : RxFrame → Prop}
    (hp : Processed f.lane f.buf p (Act.run (jobEnds f dual) s) (Act.run (verified f) (Act.run (jobEnds f dual) s))) :
    Completes (.frameVerifyDone dual) s fun t =>
      t.sec.frame = none ∧ atBuffer t f.lane f.buf p ∧ (f.copies ≠ [] → inBuffer t f.lane f.buf p) := by
  obtain ⟨hjob, hat, hin⟩ := processed_release hp
  refine ⟨_, exec_frameVerifyDone_verified hj hf hd haw, hjob.trans (jobEnds_job dual), hat, hin { f with job := 3 } ?_⟩
  rw [framesAt_jobEnds, List.head?_map, ← frameAt_eq_head, hf]
  rfl

theorem frameVerifyDone_superseded (h : (Act.run (verified f) (Act.run (jobEnds f dual) s)).is BOB.STICKY.SUPERSRX = true) :
    Completes (.frameVerifyDone dual) s fun t => t.is BOB.STICKY.SUPERSRX = true :=
  ⟨_, exec_frameVerifyDone_verified hj hf hd haw,
    (is_of_keeps (keeps_releaseIfDone (p := .BOB) _ _ rfl (by decide)) _).trans h⟩

theorem frameVerifyDone_duplicate
    (h : Act.run (verified f) (Act.run (jobEnds f dual) s) = Act.run (discardFrame f) (Act.run (jobEnds f dual) s)) :
    Completes (.frameVerifyDone dual) s fun t =>
      t.sec.frame = none ∧ atBuffer t f.lane f.buf fun x => x.copies = [] ∧ x.plain = [] := by
  obtain ⟨hjob, hbuf⟩ := discardFrame_holds f (Act.run (jobEnds f dual) s)
  refine ⟨_, exec_frameVerifyDone_verified hj hf hd haw, ?_, ?_⟩ <;> rw [h]
  · rw [releaseIfDone_job, hjob, jobEnds_job]
  · exact atBuffer_releaseIfDone hbuf

end Verification

end Ends

end Sys2Proof.Proofs
end

section
/-! The end of a securing (R174, R207, R359), and the statement on frame jobs. -/

namespace Sys2Proof.Proofs

open Sys2Proof.Machine Sys2Proof.Laws

section Keeps

variable {g : Fld}

/-! A completed descriptor leaves the registers of other pages than the Shuttle's alone (R206). -/

theorem keeps_setWordBits (a hi lo v : Nat) (g : Fld) : Keeps (setWordBits a hi lo v) g := fun s => keeps_setBytes a 4 _ g s

theorem keeps_countCx (n : Nat) (f : CtxFld) (g : Fld) : Keeps (countCx n f) g := keeps_look fun _ => keeps_setWordBits _ _ _ _ g

theorem keeps_showQueue (v ctx : Nat) (g : Fld) : Keeps (showQueue v ctx) g := keeps_look fun _ =>
  keeps_cons (keeps_setWordBits _ _ _ _ g) <| keeps_cons (keeps_setWordBits _ _ _ _ g) (keeps_nil g)

variable {p : Page} (hg : pageOf g = some p) (hp : p ≠ .SHU)
include hg hp

theorem keeps_of_shu {a : Act} (h : Within false [.SHU] (a ·)) : Keeps a g := h.keeps_page hg (by simpa using hp)

theorem keeps_journal : Keeps journal g := keeps_of_shu hg hp (by unfold journal; fun_prop)

theorem keeps_onQueue (v kind ctx : Nat) (f : TxQueue → TxQueue) : Keeps (onQueue v kind ctx f) g :=
  keeps_of_shu hg hp (by unfold onQueue; fun_prop)

theorem keeps_resetBackoff (v kind ctx : Nat) : Keeps (resetBackoff v kind ctx) g := keeps_look fun s => by
  unfold setBackoff
  exact keeps_ite (fun _ => rfl) <| keeps_cons (keeps_journal hg hp) <| keeps_cons (keeps_onQueue hg hp _ _ _ _) (keeps_nil g)

theorem keeps_pushDone (v status off : Nat) : Keeps (pushDone v status off) g :=
  keeps_of_shu hg hp (by unfold pushDone journal; fun_prop (disch := rfl))

theorem keeps_writeDone (v status : Nat) (e : TxEntry) : Keeps (writeDone v status e) g := keeps_look fun s => by
  have hword (a x : Nat) : Keeps (setWord a x) g := keeps_setBytes a 4 x g
  have hbits (a hi lo x : Nat) : Keeps (setWordBits a hi lo x) g := keeps_setWordBits a hi lo x g
  refine keeps_cons (keeps_whenA ?_) (keeps_cons (keeps_pushDone hg hp _ _ _) (keeps_nil g))
  refine keeps_cons (hbits _ _ _ _) (keeps_cons (hbits _ _ _ _) (keeps_cons (hbits _ _ _ _)
    (keeps_cons (keeps_ite ?_ ?_) (keeps_nil g))))
  · exact keeps_setBytes _ _ _ g
  · exact keeps_cons (hword _ _) (keeps_cons (hword _ _) (keeps_cons (hword _ _) (keeps_cons (hword _ _) (keeps_nil g))))

theorem keeps_completeTx (v kind ctx : Nat) (e : TxEntry) (status : Nat) : Keeps (completeTx v kind ctx e status) g :=
  keeps_look fun s => by
    have hctx (n : Nat) (f : CtxFld) (x : Nat) : Keeps (setCx n f x) g := keeps_setWordBits _ _ _ _ g
    have hcount (n : Nat) (f : CtxFld) : Keeps (countCx n f) g := keeps_countCx n f g
    refine keeps_cons (keeps_journal hg hp) <| keeps_cons (keeps_onQueue hg hp _ _ _ _) <|
      keeps_cons (keeps_writeDone hg hp _ _ _) <|
      keeps_cons (keeps_whenA ?_) <| keeps_cons (keeps_whenA (keeps_showQueue v ctx g)) <|
      keeps_cons (keeps_look fun _ => keeps_whenA (keeps_resetBackoff hg hp _ _ _)) (keeps_nil g)
    exact keeps_cons (keeps_journal hg hp) <| keeps_cons (hctx _ _ _) <| keeps_cons (keeps_whenA (hcount _ _)) <|
      keeps_cons (keeps_whenA (keeps_cons (hcount _ _) (keeps_cons (hcount _ _) (keeps_nil g)))) (keeps_nil g)

theorem keeps_cellFails (cell status : Nat) : Keeps (cellFails cell status) g := keeps_look fun s => by
  cases s.shu.cells[cell]? with
  | none => exact keeps_skip g
  | some c =>
    refine keeps_cons (fun _ => rfl) (keeps_cons ?_ (keeps_nil g))
    cases c.desc with
    | none => exact keeps_skip g
    | some off =>
      dsimp only
      cases s.queueOf c.vi off with
      | none => exact keeps_skip g
      | some x => exact keeps_completeTx hg hp _ _ _ _ _

end Keeps

section Ends

variable {s : State} {f : RxFrame} {j : TxJob} {dual : Fin 3}

/-! The end of a securing's job, before its octets change. -/

def securingJobEnds (j : TxJob) (dual : Nat) : Act := chain [endFrameJob, dualSticky j.vi dual,
  reseedsOf (ccmBlocks (txMac j.octets).hdrEnd (j.octets.length - (txMac j.octets).hdrEnd))]

theorem besideJobs_securingJobEnds (j : TxJob) (dual : Nat) : Fixes besideJobs (securingJobEnds j dual) :=
  fixes_cons besideJobs_endFrameJob <| fixes_cons (besideJobs_dualSticky _ _) <| fixes_cons (besideJobs_reseedsOf _) fixes_nil

theorem securingJobEnds_job (j : TxJob) (dual : Nat) (s : State) : (Act.run (securingJobEnds j dual) s).sec.frame = none := by
  rw [securingJobEnds, run_chain_cons, run_chain_cons, run_chain_cons, run_chain_nil, (quiet_reseedsOf _).job,
    (quiet_dualSticky _ _).job, endFrameJob_job]

/-- A change of the Shuttle's jobs leaves what is not the Shuttle's. -/
theorem fixes_onJob {α : Type} {φ : State → α} (h : ∀ s x, φ (Eff.apply s (.shu x)) = φ s) (k : Nat)
    (g : TxJob → TxJob) : Fixes φ (onJob k g) := fun s => h s _

theorem fixes_dropJob {α : Type} {φ : State → α} (h : ∀ s x, φ (Eff.apply s (.shu x)) = φ s) (k : Nat) :
    Fixes φ (dropJob k) :=
  fixes_cons (fun s => h s _) <| fixes_cons (fun s => h s _) fixes_nil

theorem keeps_reseedsOf {g : Fld} (n : Nat) (h : apart SEC.ENTSTAT.AVAIL g = true) : Keeps (reseedsOf n) g :=
  keeps_whenA <| keeps_look fun _ => keeps_whenA <| keeps_cons (keeps_onSec _ g) <|
    keeps_cons (keeps_look fun _ => keeps_put _ (by decide) h) (keeps_nil g)

section Securing

variable {k : Nat} (hk : s.sec.frame = some (.secure k)) (hj : s.shu.jobs.find? (·.cell == k) = some j)
include hk hj

theorem exec_txSecureDone {d : Nat} (hd : dual.val = d) {a : Act}
    (ha : (if d = 2 then chain [dropJob k, cellFails k Status.eccUncorr]
      else onJob k fun x => { x with stage := 2, octets := secureOctets s.ownEui s.shu.asn j }) = a) :
    exec (.txSecureDone dual) s = .next (Act.run a (Act.run (securingJobEnds j d) s)) := by
  subst hd
  show act _ s = _
  rw [act_next, run_look, hk]
  dsimp only
  rw [securingEnds, run_look, hj]
  dsimp only
  rw [ha, securingJobEnds]
  simp only [run_chain_cons, run_chain_nil]

/-- A securing that the engines agree on leaves the secured octets. -/
theorem txSecureDone_secured (hd : dual ≠ 2) : Completes (.txSecureDone dual) s fun t => t.sec.frame = none ∧
    (∃ x ∈ t.shu.jobs, x.cell = k ∧ x.stage = 2 ∧ x.octets = secureOctets s.ownEui s.shu.asn j) ∧ SameStore s t := by
  have hbeside := besideJobs_securingJobEnds j dual.val
  have hjobs : (Act.run (securingJobEnds j dual) s).shu.jobs = s.shu.jobs :=
    fixes_of_besideJobs (φ := (·.shu.jobs)) (fun _ => rfl) hbeside s
  have hcell : j.cell = k := by simpa using List.find?_some hj
  refine ⟨_, exec_txSecureDone hk hj rfl (if_neg fun h => hd (Fin.ext h)), ?_,
    ⟨{ j with stage := 2, octets := secureOctets s.ownEui s.shu.asn j }, ?_, hcell, rfl, rfl⟩, sameStore_iff.mpr ?_⟩
  · exact (fixes_onJob (φ := (·.sec.frame)) (fun _ _ => rfl) k _ _).trans (securingJobEnds_job j _ s)
  · refine mem_onJob (fun x => { x with stage := 2, octets := secureOctets s.ownEui s.shu.asn j }) ?_ hcell
    exact hjobs ▸ List.mem_of_find?_eq_some hj
  · rw [fixes_onJob (φ := store) fun _ _ => rfl]
    exact fixes_of_besideJobs (fun _ => rfl) hbeside s

/-- A difference between the engines drops the securing's job. -/
theorem txSecureDone_dualfail : Completes (.txSecureDone 2) s fun t => t.sec.frame = none ∧
    t.is SEC.STICKY.DUALFAIL = true ∧ ∀ x ∈ t.shu.jobs, x.cell ≠ k := by
  have hq := quiet_cellFails k Status.eccUncorr
  have hdrop : Keeps (dropJob k) SEC.STICKY.DUALFAIL :=
    fixes_dropJob (φ := (·.get SEC.STICKY.DUALFAIL)) (fun _ _ => rfl) k
  refine ⟨_, exec_txSecureDone (d := 2) hk hj rfl (if_pos rfl), ?_⟩
  rw [run_chain_cons, run_chain_cons, run_chain_nil]
  refine ⟨?_, ?_, fun x hx => ?_⟩
  · rw [hq.job]
    exact (fixes_dropJob (φ := (·.sec.frame)) (fun _ _ => rfl) k _).trans (securingJobEnds_job j 2 s)
  · rw [is_of_keeps (keeps_cellFails (p := .SEC) rfl (by decide) k _), is_of_keeps hdrop,
      securingJobEnds, run_chain_cons, run_chain_cons, run_chain_cons, run_chain_nil, is_of_keeps (keeps_reseedsOf _ (by decide))]
    exact (dualSticky_is j.vi _).2
  · rw [hq.jobs] at hx
    have := (List.mem_filter.mp hx).2
    simpa using this

end Securing

/-- An acknowledgement that the engines agree on is secured. -/
theorem txSecureDone_answered {l b : Nat} (ha : s.sec.frame = some (.answer l b)) (hf : s.frameAt l b = some f)
    (hd : dual ≠ 2) : Completes (.txSecureDone dual) s fun t =>
      t.sec.frame = none ∧ (inBuffer t l b fun x => x.job = 6) ∧ SameStore s t := by
  have hq := quiet_dualSticky f.vi dual.val
  have hframes : framesAt (Act.run endFrameJob s) l b = framesAt s l b :=
    fixes_of_besideJobs (φ := (framesAt · l b)) (fun _ => rfl) besideJobs_endFrameJob s
  have hframe := (fixes_of_besideJobs (φ := (·.frameAt l b)) (fun _ => rfl) besideJobs_endFrameJob s).trans hf
  have hrun : exec (.txSecureDone dual) s = .next (Act.run (dualSticky f.vi dual)
      (Act.run (onFrame l b fun x => { x with job := 6 }) (Act.run endFrameJob s))) := by
    show act _ s = _
    rw [act_next, run_look, ha]
    dsimp only
    rw [answerEnds, run_chain_cons, run_chain_cons, run_chain_nil, run_withFrame hframe, run_chain_cons, run_chain_cons,
      run_chain_cons, run_chain_nil, decide_eq_false (p := dual.val = 2) fun h => hd (Fin.ext h), whenA_false, run_skip]
  refine ⟨_, hrun, ?_, inBuffer_iff.mpr ⟨{ f with job := 6 }, ?_, rfl⟩, sameStore_iff.mpr ?_⟩
  · rw [hq.job]
    exact (fixes_onFrame (φ := (·.sec.frame)) (fun _ _ => rfl) l b _ _).trans (endFrameJob_job s)
  · rw [framesAt_of_frm (hq.frm _), framesAt_onFrame (g := fun x => { x with job := 6 }) fun _ => ⟨rfl, rfl⟩]
    exact List.mem_map_of_mem (hframes ▸ mem_of_frameAt hf)
  · rw [fixes_of_besideJobs (φ := store) (fun _ => rfl) (besideJobs_dualSticky _ _), fixes_onFrame (φ := store) fun _ _ => rfl]
    exact fixes_of_besideJobs (φ := store) (fun _ => rfl) besideJobs_endFrameJob s

end Ends

/-- Settles O29: a frame job that starts by what the engine then runs, and one that ends by its verdict or its octets. -/
theorem frameJobs : Obligations.FrameJobs := by
  intro s
  refine ⟨fun f hd hv hr => ⟨frameJobStart_verifies hd hv hr, frameJobStart_answers hd hv hr⟩,
    fun f hd hp hv he hj => frameJobStart_verifies_free hd hp he hv hj, ?_, ?_,
    fun k j hk hj => ⟨fun dual hd => txSecureDone_secured hk hj hd, txSecureDone_dualfail hk hj⟩,
    fun l b f ha hf dual hd => txSecureDone_answered ha hf hd⟩
  · intro j hd hp hv he hj m runs
    have hmem := List.mem_of_find?_eq_some hj
    refine ⟨fun h => ?_, fun h hslot hsup => ⟨fun hm => ?_, fun hsec hver hctx hfc hc => ?_⟩⟩
    · exact frameJobStart_secures hd hp he hv hj (run_startSecuring_again h) ⟨j, hmem, rfl, rfl⟩
    · exact frameJobStart_secures hd hp he hv hj (run_startSecuring_plain h hslot hsup hm) ⟨j, hmem, rfl, rfl⟩
    · refine frameJobStart_secures hd hp he hv hj (run_startSecuring_counted h hslot hsup hsec hver hctx hfc hc) ?_
      exact ⟨_, mem_onJob _ hmem rfl, rfl, rfl⟩
  · intro l b f w hj hf hw r leaves
    obtain ⟨rfl, rfl⟩ := place_of_frameAt hf
    refine ⟨frameVerifyDone_dualfail hj hf, fun dual hd haw => ?_⟩
    have hopen := opened_jobEnds (s := s) (f := f) w dual
    have hcheck := checkCounter_jobEnds (s := s) (f := f) w.ctx f.asn f.mac dual
    refine ⟨fun hr hb hc => ?_, fun hr hb hc => ?_, fun hr => ?_, fun hr h2 => ?_, fun hr hb hc => ?_⟩
    · exact frameVerifyDone_processed hj hf hd haw (verified_accepted hw hopen hr hb (hcheck.trans hc))
    · exact frameVerifyDone_processed hj hf hd haw (verified_stale hw hopen hr hb (hcheck.trans hc))
    · exact frameVerifyDone_processed hj hf hd haw (verified_micFails hw hopen hr).1
    · exact frameVerifyDone_superseded hj hf hd haw ((verified_micFails hw hopen hr).2 h2)
    · exact frameVerifyDone_duplicate hj hf hd haw (verified_duplicate hw hopen hr hb (hcheck.trans hc))

end Sys2Proof.Proofs
end

section
/-! A prefetch that is due past the wrap of TB (R49, R58, R198): a restore may leave NEXTTICK past the wrap. -/

namespace Sys2Proof.Proofs

open Sys2Proof.Machine Sys2Proof.Laws

/-- CORE is off with the tick enabled: NEXTTICK is 38000 units before the wrap of TB, and TB has passed it when CORE comes back. -/
def restoresAtWrap : State :=
  { State.reset with clk := { nextTick := 2 ^ 64 - 38000, savedTb := some (2 ^ 64 - 30000), savedTick := true } }

/-- CORE is back, with the tick and the Shuttle running. -/
def prefetchesAtWrap : State :=
  Act.run (chain [clockRestore 0, put CLK.CTRL.TICKEN 1, put SHU.CTRL.RUN 1]) restoresAtWrap

/-- What the prefetch of the coming slot leaves. -/
def prefetchedAtWrap : State := Act.run (chain [until_ prefetchesAtWrap.prefetchDue, prefetch]) prefetchesAtWrap

/-- The state meets what the statement asks of a prefetch. -/
theorem prefetchesAtWrap_meets : prefetchesAtWrap.shu.pair.stage = 0 ∧ prefetchesAtWrap.domOn Dom.mac = true ∧
    prefetchesAtWrap.is CLK.CTRL.TICKEN = true ∧ prefetchesAtWrap.is SHU.CTRL.RUN = true ∧
    prefetchesAtWrap.shu.runFrom ≤ prefetchesAtWrap.prefetchDue ∧ prefetchesAtWrap.clk.gated = false ∧
    prefetchesAtWrap.shu.next = none := by decide +kernel

theorem exec_prefetchesAtWrap : exec .cellPrefetch prefetchesAtWrap = .next prefetchedAtWrap := by
  have hon : (prefetchesAtWrap.domOn Dom.mac && prefetchesAtWrap.is CLK.CTRL.TICKEN) = true := by decide +kernel
  have hruns : (let u := Act.run (until_ prefetchesAtWrap.prefetchDue) prefetchesAtWrap
      u.is SHU.CTRL.RUN && u.shu.runFrom ≤ u.prefetchDue && !u.clk.gated && u.shu.next.isNone) = true := by decide +kernel
  show act _ _ = _
  rw [act_next, run_look, hon, whenA_true, run_chain_cons, run_chain_cons, run_chain_nil, run_look, hruns, whenA_true, prefetchedAtWrap,
    run_chain_cons, run_chain_cons, run_chain_nil]

/-- The prefetch is due at 2^64, where TB reads 0. -/
theorem prefetchedAtWrap_tb : prefetchesAtWrap.prefetchDue = 2 ^ 64 ∧ prefetchedAtWrap.tb = 0 := by decide +kernel

/-- Refutes O30: the restore of the clock adds whole slots to NEXTTICK without wrapping it, so that the prefetch of a slot may be
due at 2^64 or later, which TB, of 64 bits, never reaches: it has wrapped. -/
theorem not_patternAndSlotframes : ¬ Obligations.PatternAndSlotframes := by
  intro h
  obtain ⟨hstage, hmac, htick, hrun, hfrom, hclk, hnext⟩ := prefetchesAtWrap_meets
  obtain ⟨hdue, htb⟩ := prefetchedAtWrap_tb
  obtain ⟨-, -, hprefetch⟩ := h prefetchesAtWrap .debug 0 0 hstage
  obtain ⟨t, ht, -, -, hreached, -⟩ := hprefetch hmac htick hrun hfrom hclk hnext
  obtain rfl := Host.Outcome.next.inj (exec_prefetchesAtWrap.symm.trans ht)
  rw [hdue, htb] at hreached
  exact absurd hreached (by decide)

end Sys2Proof.Proofs
end

section
/-! A beacon joined while a frame with none of the device's ports is in progress (R60, R79, R211): the statement on networks leaves
the frames in progress free. -/

namespace Sys2Proof.Proofs

open Sys2Proof.Machine Sys2Proof.Laws

/-- A frame on lane 2, which the Shuttle assigns, that searches its SFD, with 447 for its port. -/
def strayScanFrame : RxFrame :=
  { lane := 2, buf := 0, port := 447, vi := 0, mode := 0, midx := 0, plan := 0, chan := 0, sfdsel := 0, rsc := false, ilv := false
    sched := true }

/-- A beacon of PAN 0x1234 with ASN 5 and join metric 1, from context 1. -/
def strayScanBeacon : Heard :=
  { stamp := 640000, mode := 0, ctx := 1
    octets := [0x00, 0xE3, 0x34, 0x12] ++ List.replicate 8 1 ++ [0x00, 0x3F, 0x08, 0x88, 0x06, 0x1A, 5, 0, 0, 0, 0, 1] }

/-- After device reset, with that frame in progress: the timing VI, 0, is in SCAN and has heard the beacon. Port 447 would be
frozen, in SCHED with a gain of 16. -/
def strayScan : State :=
  { State.reset with
    regs := [((DMD.LSTAT.i 2).key, 0xC0000000), ((RFE.PCFG.i 447).key, 0x10), ((RFE.PGAIN.i 447).key, 16),
      (SHU.CTRL.key, 0x00010001), (SHU.VISTAT.key, 1)]
    frm := { frames := [strayScanFrame] }
    shu := { heard := [strayScanBeacon] } }

/-- What the join leaves. -/
def strayScanJoined : State := Act.run (nextBeacon joinBeacon) strayScan

/-- The state meets what the statement asks of a join. -/
theorem strayScan_meets : strayScan.shu.pair.stage = 0 ∧ strayScan.pairRuns = true ∧ strayScan.tvi = 0 ∧
    strayScan.get (SHU.VISTAT.STATE.copy 0) = 1 ∧
    syncIe strayScanBeacon.octets (txMac strayScanBeacon.octets) = some (5, 1, 18) := by decide +kernel

theorem exec_strayScan : exec .beaconJoin strayScan = .next strayScanJoined := by
  have hscans : (strayScan.get (SHU.VISTAT.STATE.copy strayScan.tvi) == 1 && strayScan.pairRuns) = true := by decide +kernel
  show act _ _ = _
  rw [act_next, run_look, hscans, whenA_true]
  rfl

/-- The gain register of port 447 would stand where SHU.CTRL does, and the gain that the end of the freeze starts from is written
to it; so TVI reads 1, and VI 0 stays in SCAN. -/
theorem strayScanJoined_state : (RFE.PGSTAT.i 447).key = SHU.CTRL.key ∧ strayScanJoined.tvi = 1 ∧
    strayScanJoined.get (SHU.VISTAT.STATE.copy 0) = 1 := by decide +kernel

/-- Refutes O32: the re-anchoring of a join drops the frame of a scheduled lane that searches its SFD, which lifts the freeze of the
frame's port; the statement leaves that port free, and the gain register of port 447 is SHU.CTRL, so that another VI than the
timing VI of before the join enters the new state. -/
theorem not_queuesAndNetworks : ¬ Obligations.QueuesAndNetworks := by
  intro h
  obtain ⟨hstage, hruns, htvi, hscan, hsync⟩ := strayScan_meets
  obtain ⟨-, -, hstays⟩ := strayScanJoined_state
  obtain ⟨-, -, -, hnetwork⟩ := h strayScan .debug 0 0 hstage
  obtain ⟨-, hheard⟩ := hnetwork hruns
  obtain ⟨hjoin, -⟩ := hheard strayScanBeacon [] rfl
  rw [htvi] at hjoin
  obtain ⟨t, ht, hjoined, -⟩ := hjoin 5 1 18 hscan hsync (by decide)
  obtain rfl := Host.Outcome.next.inj (exec_strayScan.symm.trans ht)
  rw [hstays] at hjoined
  cases hjoined

end Sys2Proof.Proofs
end

section
/-! The fields of the neighbour contexts (R219, R220): a field after a field was written, and an action's stores in one context as
a list of fields and values. -/

namespace Sys2Proof.Proofs

open Sys2Proof.Machine Sys2Proof.Laws

/-! Words of memory (R8). -/

theorem byte_lt (s : State) (a : Nat) : s.byte a < 256 := (Sparse.get resetByte s.mem a).isLt

theorem word_eq (s : State) (a : Nat) :
    s.word a = s.byte a + 256 * (s.byte (a + 1) + 256 * (s.byte (a + 2) + 256 * s.byte (a + 3))) := rfl

theorem word_lt (s : State) (a : Nat) : s.word a < 2 ^ 32 := by
  have h0 := byte_lt s a
  have h1 := byte_lt s (a + 1)
  have h2 := byte_lt s (a + 2)
  have h3 := byte_lt s (a + 3)
  rw [word_eq]
  omega

theorem word_of_bytes {s t : State} {a : Nat} (h : ∀ i < 4, t.byte (a + i) = s.byte (a + i)) : t.word a = s.word a := by
  rw [word_eq, word_eq, ← h 1 (by decide), ← h 2 (by decide), ← h 3 (by decide), show t.byte a = s.byte a from h 0 (by decide)]

theorem setWordBits_byte {a hi lo v j : Nat} (h : j < a ∨ a + 4 ≤ j) (s : State) :
    (Act.run (setWordBits a hi lo v) s).byte j = s.byte j := setWord_byte_ne a _ j s h

theorem setWordBits_word (a hi lo v : Nat) (s : State) : (Act.run (setWordBits a hi lo v) s).word a =
    (setField (BitVec.ofNat 32 (s.word a)) lo (hi - lo + 1) v).toNat := by
  show (Act.run (setWord a _) s).word a = _
  rw [setWord_word]
  exact Nat.mod_eq_of_lt (BitVec.isLt _)

theorem bits_word (s : State) (a hi lo : Nat) :
    bits (s.word a) hi lo = fieldOf (BitVec.ofNat 32 (s.word a)) lo (hi - lo + 1) := by
  rw [fieldOf, BitVec.toNat_ofNat, Nat.mod_eq_of_lt (word_lt s a), bits]

/-- The bits that were written. -/
theorem setWordBits_same {a hi lo : Nat} (h : lo ≤ hi ∧ hi < 32) (v : Nat) (s : State) :
    (Act.run (setWordBits a hi lo v) s).wordBits a hi lo = v % 2 ^ (hi - lo + 1) := by
  rw [State.wordBits, setWordBits_word, show bits (setField _ lo (hi - lo + 1) v).toNat hi lo =
    fieldOf (setField _ lo (hi - lo + 1) v) lo (hi - lo + 1) from rfl, fieldOf_setField_same _ _ _ _ (by omega)]

/-- Other bits of the same word. -/
theorem setWordBits_apart {a hi lo hi' lo' : Nat} (h : lo ≤ hi ∧ hi < 32) (hd : hi < lo' ∨ hi' < lo) (hl : lo' ≤ hi') (v : Nat)
    (s : State) : (Act.run (setWordBits a hi lo v) s).wordBits a hi' lo' = s.wordBits a hi' lo' := by
  rw [State.wordBits, State.wordBits, setWordBits_word, bits_word,
    show bits (setField _ lo (hi - lo + 1) v).toNat hi' lo' = fieldOf (setField _ lo (hi - lo + 1) v) lo' (hi' - lo' + 1) from rfl,
    fieldOf_setField_ne _ _ _ _ _ _ (by omega) (by omega)]

/-- Stores of bytes leave what no byte of memory shows. -/
theorem fixes_bytes {α : Type} {φ : State → α} (h : ∀ s a b, φ (Eff.apply s (.byte a b)) = φ s) {a : Act}
    (ha : ∀ s, ∀ e ∈ a s, ∃ x b, e = .byte x b) : Fixes φ a := fun s => by
  have hl : ∀ (l : List Eff) (s : State), (∀ e ∈ l, ∃ x b, e = .byte x b) → φ (applyAll s l) = φ s := by
    intro l
    induction l with
    | nil => exact fun _ _ => rfl
    | cons e l ih =>
      intro s he
      obtain ⟨x, b, rfl⟩ := he e List.mem_cons_self
      exact (ih _ fun y hy => he y (List.mem_cons_of_mem _ hy)).trans (h s x b)
  exact hl _ _ (ha s)

theorem setWord_bytes (a v : Nat) (s : State) : ∀ e ∈ setWord a v s, ∃ x b, e = .byte x b := fun e he => by
  obtain ⟨_, -, rfl⟩ := List.mem_map.mp he
  exact ⟨_, _, rfl⟩

/-! Fields of contexts. -/

/-- A field that lies in a word of its context. -/
def fitsCx (f : CtxFld) : Bool := decide (f.word < 32) && decide (f.lo ≤ f.hi) && decide (f.hi < 32)

theorem fitsCx_iff {f : CtxFld} : fitsCx f = true ↔ f.word < 32 ∧ f.lo ≤ f.hi ∧ f.hi < 32 := by
  simp [fitsCx, and_assoc]

/-- Whether two fields share no bit. -/
def apartCx (f g : CtxFld) : Bool := f.word != g.word || decide (f.hi < g.lo) || decide (g.hi < f.lo)

theorem ctxAddr_eq (n : Nat) : ctxAddr n = 0x24000000 + 128 * n := rfl

/-- Whether an address lies outside a context. -/
def offCtx (n a : Nat) : Prop := a < ctxAddr n ∨ ctxAddr (n + 1) ≤ a

theorem setCx_byte {n : Nat} {f : CtxFld} {a : Nat} (hf : f.word < 32) (ha : offCtx n a) (v : Nat) (s : State) :
    (Act.run (setCx n f v) s).byte a = s.byte a := by
  simp only [offCtx, ctxAddr_eq] at ha
  exact setWordBits_byte (by rw [ctxAddr_eq]; omega) s

theorem setCx_same {n : Nat} {f : CtxFld} (hf : fitsCx f = true) (v : Nat) (s : State) :
    (Act.run (setCx n f v) s).cx n f = v % 2 ^ (f.hi - f.lo + 1) := setWordBits_same (fitsCx_iff.mp hf).2 v s

theorem setCx_apart {n : Nat} {f g : CtxFld} (hf : fitsCx f = true) (hg : fitsCx g = true) (h : apartCx f g = true) (v : Nat)
    (s : State) : (Act.run (setCx n f v) s).cx n g = s.cx n g := by
  obtain ⟨-, hf⟩ := fitsCx_iff.mp hf
  obtain ⟨-, hg, -⟩ := fitsCx_iff.mp hg
  by_cases hw : f.word = g.word
  · simp only [apartCx, hw, bne_self_eq_false, Bool.false_or, Bool.or_eq_true, decide_eq_true_eq] at h
    rw [setCx, hw]
    exact setWordBits_apart hf h hg v s
  · have hword : (Act.run (setCx n f v) s).word (ctxAddr n + 4 * g.word) = s.word (ctxAddr n + 4 * g.word) :=
      word_of_bytes fun i hi => setWordBits_byte (by omega) s
    rw [State.cx, State.cx, State.wordBits, State.wordBits, hword]

theorem setCx_bytes (n : Nat) (f : CtxFld) (v : Nat) (s : State) : ∀ e ∈ setCx n f v s, ∃ x b, e = .byte x b :=
  setWord_bytes _ _ s

theorem fixes_setCx {α : Type} {φ : State → α} (h : ∀ s a b, φ (Eff.apply s (.byte a b)) = φ s) (n : Nat) (f : CtxFld)
    (v : Nat) : Fixes φ (setCx n f v) := fixes_bytes h (setCx_bytes n f v)

theorem cx_of_mem {s t : State} (h : t.mem = s.mem) (n : Nat) (f : CtxFld) : t.cx n f = s.cx n f := by
  simp only [State.cx, State.wordBits, State.word, State.bytes, State.byte, h]

theorem byte_of_mem {s t : State} (h : t.mem = s.mem) (a : Nat) : t.byte a = s.byte a := by rw [State.byte, State.byte, h]

/-- A field of a context stands in the context's bytes. -/
theorem cx_of_bytes {s t : State} {n : Nat} {f : CtxFld} (hf : fitsCx f = true)
    (h : ∀ a, ctxAddr n ≤ a → a < ctxAddr (n + 1) → t.byte a = s.byte a) : t.cx n f = s.cx n f := by
  obtain ⟨hw, -⟩ := fitsCx_iff.mp hf
  simp only [ctxAddr_eq] at h
  rw [State.cx, State.cx, State.wordBits, State.wordBits, word_of_bytes fun i hi => h _ (by rw [ctxAddr_eq]; omega)
    (by rw [ctxAddr_eq]; omega)]

theorem onlyCtx_refl (s : State) (n : Nat) : OnlyCtx s s n := fun _ _ => rfl

theorem onlyCtx_trans {s t u : State} {n : Nat} (h₁ : OnlyCtx s t n) (h₂ : OnlyCtx t u n) : OnlyCtx s u n :=
  fun a ha => (h₂ a ha).trans (h₁ a ha)

theorem onlyCtx_of_mem {s t : State} (h : t.mem = s.mem) (n : Nat) : OnlyCtx s t n := fun a _ => byte_of_mem h a

/-- What changes one context changes no other. -/
theorem onlyCtx_cx_ne {s t : State} {n m : Nat} {f : CtxFld} (h : OnlyCtx s t n) (hf : fitsCx f = true) (hm : m ≠ n) :
    t.cx m f = s.cx m f := cx_of_bytes hf fun a ha hb => h a (by simp only [ctxAddr_eq] at ha hb ⊢; omega)

/-! What an action stores, as fields of one context. -/

/-- Fields of a context with values. -/
abbrev Stores := List (CtxFld × Nat)

def writeFields (n : Nat) (l : Stores) : Act := eachA l fun p => setCx n p.1 p.2

/-- Memory has changed by the fields of one context. -/
def Wrote (n : Nat) (l : Stores) (s t : State) : Prop := t.mem = (Act.run (writeFields n l) s).mem

theorem applyAll_bytes_mem {l : List Eff} {s t : State} (hl : ∀ e ∈ l, ∃ a b, e = .byte a b) (h : t.mem = s.mem) :
    (applyAll t l).mem = (applyAll s l).mem := by
  induction l generalizing s t with
  | nil => exact h
  | cons e l ih =>
    obtain ⟨a, b, rfl⟩ := hl e List.mem_cons_self
    refine ih (fun x hx => hl x (List.mem_cons_of_mem _ hx)) ?_
    show Sparse.set _ t.mem a b = Sparse.set _ s.mem a b
    rw [h]

theorem setCx_mem {s t : State} (h : t.mem = s.mem) (n : Nat) (f : CtxFld) (v : Nat) :
    (Act.run (setCx n f v) t).mem = (Act.run (setCx n f v) s).mem := by
  have hw : t.word (ctxAddr n + 4 * f.word) = s.word (ctxAddr n + 4 * f.word) := by
    simp only [State.word, State.bytes, State.byte, h]
  show (applyAll t (setWord _ _ t)).mem = (applyAll s (setWord _ _ s)).mem
  rw [hw]
  exact applyAll_bytes_mem (setWord_bytes _ _ s) h

theorem writeFields_mem {s t : State} (h : t.mem = s.mem) (n : Nat) (l : Stores) :
    (Act.run (writeFields n l) t).mem = (Act.run (writeFields n l) s).mem := by
  induction l generalizing s t with
  | nil => exact h
  | cons p l ih => exact ih (setCx_mem h n p.1 p.2)

theorem run_writeFields_cons (n : Nat) (f : CtxFld) (v : Nat) (l : Stores) (s : State) :
    Act.run (writeFields n ((f, v) :: l)) s = Act.run (writeFields n l) (Act.run (setCx n f v) s) := run_eachA_cons _ _ _ _

theorem run_writeFields_append (n : Nat) (l m : Stores) (s : State) :
    Act.run (writeFields n (l ++ m)) s = Act.run (writeFields n m) (Act.run (writeFields n l) s) := by
  induction l generalizing s with
  | nil => rfl
  | cons p l ih => exact ih _

theorem wrote_nil {s t : State} {n : Nat} (h : t.mem = s.mem) : Wrote n [] s t := h

theorem wrote_setCx (n : Nat) (f : CtxFld) (v : Nat) (s : State) : Wrote n [(f, v)] s (Act.run (setCx n f v) s) := rfl

theorem Wrote.trans {n : Nat} {l m : Stores} {s t u : State} (h₁ : Wrote n l s t) (h₂ : Wrote n m t u) :
    Wrote n (l ++ m) s u := by
  rw [Wrote, run_writeFields_append, h₂]
  exact writeFields_mem h₁ n m

theorem Wrote.then_mem {n : Nat} {l : Stores} {s t u : State} (h : Wrote n l s t) (hu : u.mem = t.mem) : Wrote n l s u :=
  hu.trans h

theorem Wrote.since_mem {n : Nat} {l : Stores} {s t u : State} (h : Wrote n l t u) (hs : s.mem = t.mem) : Wrote n l s u :=
  (wrote_nil (n := n) hs.symm).trans h

/-- Every field of a list lies in the words of its context. -/
def fitAll (l : List CtxFld) : Bool := l.all fitsCx

theorem Wrote.onlyCtx {n : Nat} {l : Stores} {s t : State} (h : Wrote n l s t) (hl : fitAll (l.map (·.1)) = true) :
    OnlyCtx s t n := by
  suffices ∀ s, OnlyCtx s (Act.run (writeFields n l) s) n from onlyCtx_trans (this s) (onlyCtx_of_mem h n)
  clear h
  induction l with
  | nil => exact fun s => onlyCtx_refl s n
  | cons p l ih =>
    intro s
    simp only [fitAll, List.map_cons, List.all_cons, Bool.and_eq_true] at hl
    exact onlyCtx_trans (fun a ha => setCx_byte (fitsCx_iff.mp hl.1).1 ha p.2 s) (ih hl.2 _)

/-- A field keeps its value through stores that are apart from it. -/
theorem Wrote.keeps {n : Nat} {l : Stores} {s t : State} {f : CtxFld} (h : Wrote n l s t)
    (hl : (fitsCx f && fitAll (l.map (·.1)) && (l.map (·.1)).all (apartCx · f)) = true) : t.cx n f = s.cx n f := by
  refine (cx_of_mem h n f).trans ?_
  clear h
  induction l generalizing s with
  | nil => rfl
  | cons p l ih =>
    simp only [fitAll, List.map_cons, List.all_cons, Bool.and_eq_true] at hl ih
    obtain ⟨⟨hf, hp, hl⟩, ha, hr⟩ := hl
    exact (ih ⟨⟨hf, hl⟩, hr⟩).trans (setCx_apart hp hf ha p.2 s)

/-- What a list of stores leaves in a field that it names. -/
def lastStore (f : CtxFld) : Stores → Option Nat
  | [] => none
  | p :: l => (lastStore f l).or (if p.1 = f then some p.2 else none)

/-- Every store of a list is to a field, or apart from it. -/
def clearOf (f : CtxFld) (l : List CtxFld) : Bool := fitsCx f && l.all fun g => fitsCx g && (decide (g = f) || apartCx g f)

theorem keeps_of_lastStore {f : CtxFld} {l : Stores} (hl : clearOf f (l.map (·.1)) = true) (h : lastStore f l = none) :
    (fitsCx f && fitAll (l.map (·.1)) && (l.map (·.1)).all (apartCx · f)) = true := by
  induction l with
  | nil => simpa [clearOf, fitAll] using hl
  | cons p l ih =>
    simp only [lastStore, Option.or_eq_none_iff, ite_eq_right_iff, reduceCtorEq, imp_false] at h
    simp only [clearOf, fitAll, List.map_cons, List.all_cons, Bool.and_eq_true, Bool.or_eq_true, decide_eq_true_eq, h.2,
      false_or] at hl ih ⊢
    obtain ⟨hf, ⟨hp, ha⟩, hr⟩ := hl
    obtain ⟨⟨-, hfit⟩, hapart⟩ := ih ⟨hf, hr⟩ h.1
    exact ⟨⟨hf, hp, hfit⟩, ha, hapart⟩

/-- A field holds what was stored there last, cut to its width. -/
theorem Wrote.reads {n : Nat} {l : Stores} {s t : State} {f : CtxFld} {v : Nat} (h : Wrote n l s t)
    (hl : clearOf f (l.map (·.1)) = true) (hv : lastStore f l = some v) : t.cx n f = v % 2 ^ (f.hi - f.lo + 1) := by
  induction l generalizing s with
  | nil => cases hv
  | cons p l ih =>
    have hrest : Wrote n l (Act.run (setCx n p.1 p.2) s) t := h
    have htail : clearOf f (l.map (·.1)) = true := by
      simp only [clearOf, List.map_cons, List.all_cons, Bool.and_eq_true] at hl ⊢
      exact ⟨hl.1, hl.2.2⟩
    rw [lastStore] at hv
    cases hlast : lastStore f l with
    | some x =>
      rw [hlast, Option.some_or] at hv
      exact ih hrest htail (hlast.trans hv)
    | none =>
      rw [hlast, Option.none_or] at hv
      split at hv
      · next hp =>
        rw [hrest.keeps (keeps_of_lastStore htail hlast), hp, ← Option.some.inj hv]
        exact setCx_same (by simp only [clearOf, Bool.and_eq_true] at hl; exact hl.1) _ _
      · cases hv

theorem Wrote.holds {n : Nat} {l : Stores} {s t : State} {f : CtxFld} {v : Nat} (h : Wrote n l s t)
    (hl : clearOf f (l.map (·.1)) = true) (hv : lastStore f l = some v) (hlt : v < 2 ^ (f.hi - f.lo + 1)) : t.cx n f = v :=
  (h.reads hl hv).trans (Nat.mod_eq_of_lt hlt)

theorem bits_lt (v hi lo : Nat) : bits v hi lo < 2 ^ (hi - lo + 1) := Nat.mod_lt _ (Nat.two_pow_pos _)

theorem cx_lt (s : State) (n : Nat) (f : CtxFld) : s.cx n f < 2 ^ (f.hi - f.lo + 1) := bits_lt _ _ _

end Sys2Proof.Proofs
end

section
/-! A context enters a state (R227, R228, R231, R239). -/

namespace Sys2Proof.Proofs

open Sys2Proof.Machine Sys2Proof.Laws

theorem keeps_setCx (n : Nat) (f : CtxFld) (v : Nat) (g : Fld) : Keeps (setCx n f v) g := keeps_setWordBits _ _ _ _ g

/-- The notes that go with a context's state: the time source's loss, SUSPECT and DEAD. -/
def noteEntry (s : State) (n st : Nat) : Act := chain [
  whenA (ctxLive (s.ctxState n) && !ctxLive st) (loseTimeSource n),
  whenA (st == CtxState.suspect) (stickV BOB.STICKY.SUSPECT (s.cx n Cx.vi)),
  whenA (st == CtxState.dead) (stickV BOB.STICKY.DEAD (s.cx n Cx.vi))]

theorem within_noteEntry (s : State) (n st : Nat) : Within false [.SHU, .BOB] (noteEntry s n st ·) := by
  unfold noteEntry loseTimeSource journal
  fun_prop (disch := rfl)

theorem noteEntry_mem (s : State) (n st : Nat) (t : State) : (Act.run (noteEntry s n st) t).mem = t.mem :=
  ((within_noteEntry s n st).outside t).mem

/-- The notes leave a part of the state alone that no register, report, trigger or journal of the Shuttle shows. -/
theorem fixes_noteEntry {α : Type} {φ : State → α} (hput : ∀ s f v, φ (Eff.apply s (.put f v)) = φ s)
    (hflt : ∀ s b, φ (Eff.apply s (.flt b)) = φ s) (hrecd : ∀ s b, φ (Eff.apply s (.recd b)) = φ s) (hjournal : Fixes φ journal)
    (s : State) (n st : Nat) : Fixes φ (noteEntry s n st) := by
  have hstick (f : Fld) (v : Nat) : Fixes φ (stickV f v) :=
    fixes_cons (fixes_stick f fun s v b c => by rw [hrecd, hflt, hput]) <|
      fixes_cons (fixes_whenA fun s => hput s _ _) fixes_nil
  have hlose : Fixes φ (loseTimeSource n) := fixes_look fun _ => fixes_whenA <|
    fixes_cons hjournal <| fixes_cons (fun s => hput s _ _) <| fixes_cons (hstick _ _) fixes_nil
  exact fixes_cons (fixes_whenA hlose) <| fixes_cons (fixes_whenA (hstick _ _)) <|
    fixes_cons (fixes_whenA (hstick _ _)) fixes_nil

theorem noteEntry_queues (s : State) (n st : Nat) : Fixes (·.shu.queues) (noteEntry s n st) :=
  fixes_noteEntry (fun _ _ _ => rfl) (fun _ _ => rfl) (fun _ _ => rfl) (fixes_look fun _ => fixes_whenA fun _ => rfl) s n st

theorem noteEntry_suspect (s : State) (n : Nat) (t : State) :
    (Act.run (noteEntry s n CtxState.suspect) t).is BOB.STICKY.SUSPECT = true := by
  simp only [noteEntry, run_chain_cons, run_chain_nil]
  exact (stickV_is BOB.STICKY.SUSPECT _ _ rfl (by decide)).1

theorem noteEntry_dead (s : State) (n : Nat) (t : State) :
    (Act.run (noteEntry s n CtxState.dead) t).is BOB.STICKY.DEAD = true := by
  simp only [noteEntry, run_chain_cons, run_chain_nil]
  exact (stickV_is BOB.STICKY.DEAD _ _ rfl (by decide)).1

/-- The descriptors of a context with none queued. -/
theorem run_flushCtx_none {s : State} {n : Nat} (h : OwnsCtx s (s.cx n Cx.vi) n) :
    Act.run (flushCtx n) s = Act.run (setCx n Cx.pending 0) s := by
  rw [flushCtx, run_look]
  dsimp only
  rw [h.own, h.aq]
  rfl

/-- Whether a state completes the descriptors that are queued for its context. -/
def flushes (st : Nat) : Bool := st == CtxState.dead || st == CtxState.superseded || st == CtxState.free

/-- What FREE leaves of a context: its keys, its words, its backoff, its queue, and what the store holds for it. -/
def clearCtx (n : Nat) : Act := chain [dropKeys n true, wipe (ctxAddr n) (ctxAddr (n + 1)), fun _ => [.pat (backoffAt n) 0],
  onShu fun u => { u with queues := u.queues.filter fun q => !(q.kind == 0 && q.ctx == n) },
  onBob fun b => { b with
    restart := b.restart.filter (· != n)
    seen := b.seen.filter (·.ctx != n)
    handovers := b.handovers.filter (·.1 != n) }]

/-- The notes of a state, the end of the context's queues, and the state itself. -/
theorem run_ctxEnter_parts (n st : Nat) (s : State) : Act.run (ctxEnter n st) s =
    Act.run (if st == CtxState.free then clearCtx n else setCx n Cx.state st)
      (Act.run (whenA (flushes st) (flushCtx n)) (Act.run (noteEntry s n st) s)) := by
  rw [ctxEnter, run_look, noteEntry]
  simp only [run_chain_cons, run_chain_nil]
  rfl

/-- A state other than FREE: its notes, its queues, its field. -/
theorem run_ctxEnter {st : Nat} (h : st ≠ CtxState.free) (n : Nat) (s : State) : Act.run (ctxEnter n st) s =
    Act.run (setCx n Cx.state st) (Act.run (whenA (flushes st) (flushCtx n)) (Act.run (noteEntry s n st) s)) := by
  rw [run_ctxEnter_parts, if_neg (by simpa using h)]

theorem ownsCtx_of {s t : State} {n : Nat} (hm : t.mem = s.mem) (hq : t.shu.queues = s.shu.queues)
    (h : OwnsCtx s (s.cx n Cx.vi) n) : OwnsCtx t (t.cx n Cx.vi) n := by
  have hv := cx_of_mem hm n Cx.vi
  refine ⟨fun hf => h.held ((cx_of_mem hm n Cx.state).symm.trans hf), rfl, ?_, ?_⟩
  · rw [hv, State.queue, hq]
    exact h.own
  · rw [hv, State.queue, hq]
    exact h.aq

/-- A state that leaves the queues: one field is stored. -/
theorem wrote_ctxEnter {st : Nat} (h : st ≠ CtxState.free) (hf : flushes st = false) (n : Nat) (s : State) :
    Wrote n [(Cx.state, st)] s (Act.run (ctxEnter n st) s) := by
  rw [run_ctxEnter h, hf]
  exact (wrote_nil (noteEntry_mem s n st s)).trans (wrote_setCx n Cx.state st _)

/-- DEAD or SUPERSEDED of a context with no descriptor queued. -/
theorem wrote_ctxEnter_flushes {st : Nat} (h : st ≠ CtxState.free) (hf : flushes st = true) {n : Nat} {s : State}
    (ho : OwnsCtx s (s.cx n Cx.vi) n) :
    Wrote n [(Cx.pending, 0), (Cx.state, st)] s (Act.run (ctxEnter n st) s) := by
  have ho' := ownsCtx_of (noteEntry_mem s n st s) (noteEntry_queues s n st s) ho
  rw [run_ctxEnter h, hf, whenA_true, run_flushCtx_none ho']
  exact ((wrote_nil (noteEntry_mem s n st s)).trans (wrote_setCx n Cx.pending 0 _)).trans (wrote_setCx n Cx.state st _)

/-- The registers after a state other than FREE of a context with no descriptor queued. -/
theorem ctxEnter_get {st : Nat} (h : st ≠ CtxState.free) {n : Nat} {s : State}
    (ho : flushes st = true → OwnsCtx s (s.cx n Cx.vi) n) (g : Fld) :
    (Act.run (ctxEnter n st) s).get g = (Act.run (noteEntry s n st) s).get g := by
  rw [run_ctxEnter h, keeps_setCx]
  cases hf : flushes st
  · rfl
  · rw [whenA_true, run_flushCtx_none (ownsCtx_of (noteEntry_mem s n st s) (noteEntry_queues s n st s) (ho hf)), keeps_setCx]

theorem ctxEnter_suspect (n : Nat) (s : State) : (Act.run (ctxEnter n CtxState.suspect) s).ctxState n = CtxState.suspect ∧
    (Act.run (ctxEnter n CtxState.suspect) s).is BOB.STICKY.SUSPECT = true ∧
    OnlyCtx s (Act.run (ctxEnter n CtxState.suspect) s) n := by
  have hw := wrote_ctxEnter (st := CtxState.suspect) (by decide) rfl n s
  refine ⟨hw.holds rfl rfl (by decide), ?_, hw.onlyCtx rfl⟩
  rw [State.is, ctxEnter_get (by decide) fun h => absurd h (by decide)]
  exact noteEntry_suspect s n s

theorem ctxEnter_dead {n : Nat} {s : State} (ho : OwnsCtx s (s.cx n Cx.vi) n) :
    (Act.run (ctxEnter n CtxState.dead) s).ctxState n = CtxState.dead ∧
    (Act.run (ctxEnter n CtxState.dead) s).is BOB.STICKY.DEAD = true ∧
    OnlyCtx s (Act.run (ctxEnter n CtxState.dead) s) n := by
  have hw := wrote_ctxEnter_flushes (st := CtxState.dead) (by decide) rfl ho
  refine ⟨hw.holds rfl rfl (by decide), ?_, hw.onlyCtx rfl⟩
  rw [State.is, ctxEnter_get (by decide) fun _ => ho]
  exact noteEntry_dead s n s

/-! FREE. -/

theorem run_ctxEnter_free {n : Nat} {s : State} (ho : OwnsCtx s (s.cx n Cx.vi) n) : Act.run (ctxEnter n CtxState.free) s =
    Act.run (clearCtx n) (Act.run (setCx n Cx.pending 0) (Act.run (noteEntry s n CtxState.free) s)) := by
  have ho' := ownsCtx_of (noteEntry_mem s n CtxState.free s) (noteEntry_queues s n CtxState.free s) ho
  rw [← run_flushCtx_none ho', run_ctxEnter_parts]
  rfl

/-- A byte of the context store reads 0 where nothing is stored. -/
theorem resetByte_ctx {n a : Nat} (hn : n < 4096) (hlo : ctxAddr n ≤ a) (hhi : a < ctxAddr (n + 1)) :
    (resetByte a).toNat = 0 := by
  rw [ctxAddr_eq] at hlo hhi
  rw [resetByte, if_neg (by omega), if_neg (by omega)]
  rfl

theorem clearCtx_byte {n : Nat} (hn : n < 4096) (a : Nat) (s : State) : (Act.run (clearCtx n) s).byte a =
    if ctxAddr n ≤ a ∧ a < ctxAddr (n + 1) then 0 else s.byte a := by
  have hm : (Act.run (clearCtx n) s).byte a =
      (Eff.apply (Act.run (dropKeys n true) s) (.wipe (ctxAddr n) (ctxAddr (n + 1)))).byte a := rfl
  rw [hm, wipe_mem]
  split
  · next h => exact resetByte_ctx hn h.1 h.2
  · rfl

/-- A context with no descriptor queued becomes FREE. -/
theorem ctxEnter_free {n : Nat} (hn : n < 4096) {s : State} (ho : OwnsCtx s (s.cx n Cx.vi) n) :
    (∀ a, ctxAddr n ≤ a → a < ctxAddr (n + 1) → (Act.run (ctxEnter n CtxState.free) s).byte a = 0) ∧
    OnlyCtx s (Act.run (ctxEnter n CtxState.free) s) n := by
  rw [run_ctxEnter_free ho]
  refine ⟨fun a hlo hhi => by rw [clearCtx_byte hn, if_pos ⟨hlo, hhi⟩], fun a ha => ?_⟩
  rw [clearCtx_byte hn, if_neg (by omega), setCx_byte (by decide) ha]
  exact byte_of_mem (noteEntry_mem s n CtxState.free s) a

/-- A context whose bytes are 0 is FREE. -/
theorem ctxState_of_zero {t : State} {n : Nat} (h : ∀ a, ctxAddr n ≤ a → a < ctxAddr (n + 1) → t.byte a = 0) :
    t.ctxState n = CtxState.free := by
  have hb (i : Nat) (hi : i < 4) : t.byte (ctxAddr n + 4 * 3 + i) = 0 :=
    h _ (by omega) (by simp only [ctxAddr_eq]; omega)
  have hw : t.word (ctxAddr n + 4 * 3) = 0 := by
    rw [word_eq, hb 1 (by decide), hb 2 (by decide), hb 3 (by decide), show t.byte (ctxAddr n + 4 * 3) = 0 from hb 0 (by decide)]
  show bits (t.word (ctxAddr n + 4 * 3)) 2 0 = 0
  rw [hw]
  rfl

end Sys2Proof.Proofs
end

section
/-! The sweep, NOACKMAX, and rejoin-only (R228 to R231, R246, R247). -/

namespace Sys2Proof.Proofs

open Sys2Proof.Machine Sys2Proof.Laws

/-! The sweep. -/

/-- The slots since a context was heard. -/
def silenceOf (s : State) (n : Nat) : Nat :=
  (s.clk.asn + 2 ^ 40 - (s.cx n Cx.lastAsnH * 2 ^ 32 + s.cx n Cx.lastAsn)) % 2 ^ 40

theorem run_sweepCtx {s : State} (h : s.bob.restart = []) (n : Nat) : Act.run (sweepCtx n) s =
    if s.get BOB.DEAD.DEADN ≤ silenceOf s n then
      if s.ctxState n = CtxState.learning then Act.run (ctxEnter n CtxState.free) s
      else if s.ctxState n = CtxState.active ∨ s.ctxState n = CtxState.suspect then Act.run (ctxEnter n CtxState.dead) s
      else s
    else if s.ctxState n = CtxState.active ∧ s.get BOB.SUSP.SUSPN ≤ silenceOf s n then
      Act.run (ctxEnter n CtxState.suspect) s
    else s := by
  have hfirst : Act.run (look fun s => whenA (s.bob.restart.contains n) (setLastAsn n s.bob.from_)) s = s := by
    rw [run_look, h]
    rfl
  rw [sweepCtx, run_chain_cons, hfirst, run_chain_cons, run_chain_nil, run_look]
  simp only [run_ite, run_whenA, Bool.or_eq_true, Bool.and_eq_true, beq_iff_eq, decide_eq_true_eq, silenceOf]
  rfl

section Sweep

variable {s : State} {n : Nat} (hmac : s.domOn Dom.mac = true) (hrun : s.is SHU.CTRL.RUN = true)
  (hsweep : s.is BOB.CTRL.SWEEP = true) (hone : (s.ctxHeld.filter fun n => n / 256 == s.clk.asn % 16) = [n])
include hmac hrun hsweep hone

theorem exec_livenessSweep : exec .livenessSweep s = .next (Act.run (sweepCtx n) s) := by
  show act _ s = _
  rw [act_next, run_look, hmac, hrun, hsweep, hone, Bool.and_self, Bool.and_self, whenA_true, run_eachA_cons, run_eachA_nil]

variable (hrestart : s.bob.restart = [])
include hrestart

theorem sweep_suspects (ha : s.ctxState n = CtxState.active) (hlo : s.get BOB.SUSP.SUSPN ≤ silenceOf s n)
    (hhi : silenceOf s n < s.get BOB.DEAD.DEADN) : Completes .livenessSweep s fun t =>
      t.ctxState n = CtxState.suspect ∧ t.is BOB.STICKY.SUSPECT = true ∧ OnlyCtx s t n := by
  refine ⟨_, exec_livenessSweep hmac hrun hsweep hone, ?_⟩
  rw [run_sweepCtx hrestart, if_neg (by omega), if_pos ⟨ha, hlo⟩]
  exact ctxEnter_suspect n s

theorem sweep_kills (ho : OwnsCtx s (s.cx n Cx.vi) n)
    (ha : s.ctxState n = CtxState.active ∨ s.ctxState n = CtxState.suspect) (hlo : s.get BOB.DEAD.DEADN ≤ silenceOf s n) :
    Completes .livenessSweep s fun t => t.ctxState n = CtxState.dead ∧ t.is BOB.STICKY.DEAD = true ∧ OnlyCtx s t n := by
  have hl : s.ctxState n ≠ CtxState.learning := by
    obtain ha | ha := ha <;> rw [ha] <;> decide
  refine ⟨_, exec_livenessSweep hmac hrun hsweep hone, ?_⟩
  rw [run_sweepCtx hrestart, if_pos hlo, if_neg hl, if_pos ha]
  exact ctxEnter_dead ho

theorem sweep_frees (hn : n < 4096) (ho : OwnsCtx s (s.cx n Cx.vi) n) (ha : s.ctxState n = CtxState.learning)
    (hlo : s.get BOB.DEAD.DEADN ≤ silenceOf s n) :
    Completes .livenessSweep s fun t => t.ctxState n = CtxState.free ∧ OnlyCtx s t n := by
  obtain ⟨hzero, honly⟩ := ctxEnter_free hn ho
  refine ⟨_, exec_livenessSweep hmac hrun hsweep hone, ?_⟩
  rw [run_sweepCtx hrestart, if_pos hlo, if_pos ha]
  exact ⟨ctxState_of_zero hzero, honly⟩

theorem sweep_spares (hhi : silenceOf s n < s.get BOB.DEAD.DEADN) (ha : s.ctxState n ≠ CtxState.active) :
    exec .livenessSweep s = .next s := by
  rw [exec_livenessSweep hmac hrun hsweep hone, run_sweepCtx hrestart, if_neg (by omega), if_neg fun h => ha h.1]

end Sweep

theorem noackmaxReached_suspects {s : State} {n : Fin 4096} (hmac : s.domOn Dom.mac = true)
    (ha : s.ctxState n = CtxState.active) (hr : s.get BOB.SUSP.NOACKMAX ≤ s.cx n Cx.noackRun) :
    Completes (.noackmaxReached n) s fun t =>
      t.ctxState n = CtxState.suspect ∧ t.is BOB.STICKY.SUSPECT = true ∧ OnlyCtx s t n := by
  refine ⟨Act.run (ctxEnter n CtxState.suspect) s, ?_, ctxEnter_suspect n s⟩
  show act _ s = _
  rw [act_next, run_look, hmac, ha, decide_eq_true hr]
  rfl

/-! Rejoin-only. -/

theorem bitOf_or (w m : Word) (b : Nat) :
    bitOf (w ||| m).toNat b = (w.toNat.testBit b || m.toNat.testBit b).toNat := by
  rw [bitOf_eq_toNat_testBit, BitVec.toNat_or, Nat.testBit_or]

/-- What a write of BOB.CTRL does with its other bits. -/
def enterRejoin (sweep : Nat) : Act := chain [put BOB.CTRL.SWEEP sweep, put BOB.CTRL.RJONLY 1, put BOB.STAT.RJCONF 0,
  onBob fun b => { b with leaseNow := true }]

def leaveRejoin (sweep : Nat) : Act := chain [put BOB.CTRL.SWEEP sweep, put BOB.CTRL.RJONLY 0, put BOB.STAT.RJCONF 0,
  onBob fun b => { b with leaseNow := false }]

section Rejoin

variable {s : State} {w : Word}

theorem run_writeBobCtrl_rjonly (hw : w.toNat.testBit 2 = false) (hr : s.is BOB.CTRL.RJONLY = false) :
    Act.run (writeBobCtrl (w ||| 2#32).toNat) s = Act.run (enterRejoin (bitOf (w ||| 2#32).toNat 0)) s := by
  have h1 : bitOf (w ||| 2#32).toNat 1 = 1 := by
    rw [bitOf_or, show (2#32).toNat.testBit 1 = true from rfl, Bool.or_true]
    rfl
  have h2 : bitOf (w ||| 2#32).toNat 2 = 0 := by rw [bitOf_or, hw]; rfl
  rw [writeBobCtrl, run_look, h1, h2, hr]
  rfl

theorem run_writeBobCtrl_rjclr (hw : w.toNat.testBit 1 = false) : Act.run (writeBobCtrl (w ||| 4#32).toNat) s =
    if s.is BOB.STAT.RJCONF then Act.run (leaveRejoin (bitOf (w ||| 4#32).toNat 0)) s
    else Act.run (chain [put BOB.CTRL.SWEEP (bitOf (w ||| 4#32).toNat 0), stick BOB.STICKY.CMDREF]) s := by
  have h1 : bitOf (w ||| 4#32).toNat 1 = 0 := by rw [bitOf_or, hw]; rfl
  have h2 : bitOf (w ||| 4#32).toNat 2 = 1 := by
    rw [bitOf_or, show (4#32).toNat.testBit 2 = true from rfl, Bool.or_true]
    rfl
  rw [writeBobCtrl, run_look, h1, h2]
  split <;> rfl

theorem enterRejoin_holds (x : Nat) (s : State) : (Act.run (enterRejoin x) s).is BOB.CTRL.RJONLY = true ∧
    (Act.run (enterRejoin x) s).is BOB.STAT.RJCONF = false := by
  simp only [enterRejoin, run_chain_cons, run_chain_nil, run_put, run_onBob, bob_is]
  constructor
  · rw [put_is_apart _ _ (by decide) (by decide), put_is_same _ _ _ rfl (by decide)]
    rfl
  · rw [put_is_same _ _ _ rfl (by decide)]
    rfl

theorem leaveRejoin_holds (x : Nat) (s : State) : (Act.run (leaveRejoin x) s).is BOB.CTRL.RJONLY = false ∧
    (Act.run (leaveRejoin x) s).is BOB.STAT.RJCONF = false := by
  simp only [leaveRejoin, run_chain_cons, run_chain_nil, run_put, run_onBob, bob_is]
  constructor
  · rw [put_is_apart _ _ (by decide) (by decide), put_is_same _ _ _ rfl (by decide)]
    rfl
  · rw [put_is_same _ _ _ rfl (by decide)]
    rfl

variable {i : Initiator} (ho : Opens s i BOB.CTRL 0 true)
include ho

theorem rjonlySet_holds (hw : w.toNat.testBit 2 = false) (hr : s.is BOB.CTRL.RJONLY = false) :
    Completes (.rjonlySet i w) s fun t => t.is BOB.CTRL.RJONLY = true ∧ t.is BOB.STAT.RJCONF = false ∧
      t.bob = { s.bob with leaseNow := true } ∧ SameStore s t := by
  refine completes_of_access rfl ho ?_
  rw [run_writeBobCtrl_rjonly hw hr]
  obtain ⟨hset, hconf⟩ := enterRejoin_holds (bitOf (w ||| 2#32).toNat 0) s
  exact ⟨hset, hconf, rfl, rfl, rfl⟩

theorem rjclr_confirmed (hw : w.toNat.testBit 1 = false) (hc : s.is BOB.STAT.RJCONF = true) :
    Completes (.rjclr i w) s fun t => t.is BOB.CTRL.RJONLY = false ∧ t.is BOB.STAT.RJCONF = false ∧ SameStore s t := by
  refine completes_of_access rfl ho ?_
  rw [run_writeBobCtrl_rjclr hw, if_pos hc]
  obtain ⟨hclear, hconf⟩ := leaveRejoin_holds (bitOf (w ||| 4#32).toNat 0) s
  exact ⟨hclear, hconf, rfl, rfl⟩

theorem rjclr_refused (hw : w.toNat.testBit 1 = false) (hc : s.is BOB.STAT.RJCONF = false) :
    Completes (.rjclr i w) s fun t => t.get BOB.CTRL.RJONLY = s.get BOB.CTRL.RJONLY ∧ t.is BOB.STICKY.CMDREF = true ∧
      SameStore s t := by
  refine completes_of_access rfl ho ?_
  rw [run_writeBobCtrl_rjclr hw, hc, if_neg (by decide)]
  refine ⟨?_, ?_, Fixes.sameStore (fixes_cons (fun _ => rfl) (fixes_cons (fixes_stick _ fun _ _ _ _ => rfl) fixes_nil)) s⟩
  · rw [run_chain_cons, run_chain_cons, run_chain_nil, keeps_stick (by decide) (by decide), run_put,
      put_get_apart _ _ _ _ (by decide) (by decide)]
  · rw [run_chain_cons, run_chain_cons, run_chain_nil]
    exact stick_is _ _ rfl (by decide)

end Rejoin

/-- Settles O36: the sweep of the one held context of the slot by its silence, NOACKMAX by the run of missing acknowledgements,
and the two bits of rejoin-only. -/
theorem contextStates : Obligations.ContextStates := by
  intro s i n w
  refine ⟨fun hmac hrun hsweep hrestart hone ho => ⟨?_, ?_, ?_, ?_⟩, noackmaxReached_suspects, fun ho => ⟨?_, fun hw => ⟨?_, ?_⟩⟩⟩
  · exact sweep_suspects hmac hrun hsweep hone hrestart
  · exact sweep_kills hmac hrun hsweep hone hrestart ho
  · exact sweep_frees hmac hrun hsweep hone hrestart n.isLt ho
  · exact sweep_spares hmac hrun hsweep hone hrestart
  · exact rjonlySet_holds ho
  · exact rjclr_confirmed ho hw
  · exact rjclr_refused ho hw

end Sys2Proof.Proofs
end

section
/-! The commands of BOB.CMD: how one is taken, judged and ended, and those on a context (R254, R255). -/

namespace Sys2Proof.Proofs

open Sys2Proof.Machine Sys2Proof.Laws

/-! The end of a command. -/

theorem keeps_stickV_cmdref {g : Fld} (v : Nat) (h : keyAddr BOB.STICKY.CMDREF.key ≠ keyAddr g.key) :
    Keeps (stickV BOB.STICKY.CMDREF v) g := keeps_stickV_addr v (by decide) h

theorem within_cmdEnd (v n st : Nat) : Within false [.BOB] (cmdEnd v n st ·) := by
  unfold cmdEnd
  fun_prop (disch := rfl)

theorem cmdEnd_mem (v n st : Nat) (s : State) : (Act.run (cmdEnd v n st) s).mem = s.mem :=
  ((within_cmdEnd v n st).outside s).mem

theorem bobEnds_cmdEnd {n st : Nat} (hn : n < 4096) (hst : st < 256) (v : Nat) (s : State) :
    BobEnds (Act.run (cmdEnd v n st) s) v n st := by
  have haddr : keyAddr BOB.STICKY.CMDREF.key ≠ keyAddr BOB.CMDSTAT.key := by decide
  have hlate {g : Fld} (hg : keyAddr g.key = keyAddr BOB.CMDSTAT.key) :
      Keeps (chain [whenA (st == Status.rsvdOp) (stickV BOB.STICKY.CMDREF v)]) (g.copy v) :=
    keeps_cons (keeps_whenA (keeps_stickV_cmdref v (by rw [keyAddr_copy, hg]; exact haddr))) (keeps_nil _)
  have hctx : apart (BOB.CMDSTAT.CTX.copy v) (BOB.CMDSTAT.STATUS.copy v) = true := apart_copy (by decide) v
  rw [cmdEnd, run_chain_cons, run_chain_cons, BobEnds, hlate (g := BOB.CMDSTAT.STATUS) rfl, hlate (g := BOB.CMDSTAT.CTX) rfl]
  constructor
  · rw [run_put, put_get_apart _ _ _ _ (by decide : 0 + 12 ≤ 32) hctx, run_put, put_get_same _ _ _ (by decide : 16 + 8 ≤ 32)]
    exact Nat.mod_eq_of_lt hst
  · rw [run_put, put_get_same _ _ _ (by decide : 0 + 12 ≤ 32)]
    exact Nat.mod_eq_of_lt hn

theorem cmdEnd_cmdref (v n : Nat) (s : State) : (Act.run (cmdEnd v n Status.rsvdOp) s).is BOB.STICKY.CMDREF = true := by
  rw [cmdEnd, run_chain_cons, run_chain_cons, run_chain_cons, run_chain_nil]
  exact (stickV_is BOB.STICKY.CMDREF v _ rfl (by decide)).1

theorem cmdEnd_bob (v n st : Nat) (s : State) : (Act.run (cmdEnd v n st) s).bob = s.bob := by
  have h : Fixes State.bob (cmdEnd v n st) := fixes_cons (fun _ => rfl) <| fixes_cons (fun _ => rfl) <|
    fixes_cons (fixes_whenA (fixes_cons (fixes_stick _ fun _ _ _ _ => rfl) <|
      fixes_cons (fixes_whenA fun _ => rfl) fixes_nil)) fixes_nil
  exact h s

/-- A command's end leaves what is at other addresses of the page than CMDSTAT's and STICKY's. -/
theorem keeps_cmdEnd_ok {g : Fld} (hg : keyAddr BOB.CMDSTAT.key ≠ keyAddr g.key) (v n : Nat) :
    Keeps (cmdEnd v n Status.ok) g := by
  have hput {f : Fld} (hf : keyAddr f.key = keyAddr BOB.CMDSTAT.key) (hl : f.lo + f.width ≤ 32) (x : Nat) :
      Keeps (put (f.copy v) x) g := keeps_put (f := f.copy v) x hl (apart_of_addr (by rwa [keyAddr_copy, hf]))
  rw [cmdEnd, show (Status.ok == Status.rsvdOp) = false from rfl, whenA_false]
  exact keeps_cons (hput (f := BOB.CMDSTAT.STATUS) rfl (by decide) _) <|
    keeps_cons (hput (f := BOB.CMDSTAT.CTX) rfl (by decide) _) <| keeps_cons (keeps_skip g) (keeps_nil g)

/-! How a command is taken and judged. -/

section Taken

variable {s : State} {i : Initiator} {v : Fin 16} {op n : Nat} {c : Instr}

theorem exec_bobCommand (ht : TakesBob s i v) (hc : exec c s = act (atBobCmd i v op n) s) :
    exec c s = .next (Act.run (bobCommand v op n) s) := by
  rw [hc, act_next, atBobCmd, run_atRegister _ ht.opens, takeBobCmd, run_look, ht.idle, ht.pair, ht.repairs]
  rfl

/-- A command on a context that its view owns, in a state that takes it. -/
theorem run_onCtx_ok (ho : OwnsCtx s v n) {ok : State → Bool} (hok : ok s = true) (e : Act) :
    Act.run (onCtx v n ok e) s = Act.run (cmdEnd v n Status.ok) (Act.run e s) := by
  have howner : ¬(s.ctxState n == CtxState.free || s.cx n Cx.vi != v) = true := by
    simp [ho.held, ho.owner]
  rw [onCtx, run_look, if_neg howner, if_neg (by simp [hok]), run_chain_cons, run_chain_cons, run_chain_nil]

theorem run_onCtx_prot (h : s.ctxState n = CtxState.free ∨ s.cx n Cx.vi ≠ v) (ok : State → Bool) (e : Act) :
    Act.run (onCtx v n ok e) s = Act.run (cmdEnd v n Status.prot) s := by
  have howner : (s.ctxState n == CtxState.free || s.cx n Cx.vi != v) = true := by simpa using h
  rw [onCtx, run_look, if_pos howner]

/-- A command that the judging passes ends with OK after its effect. -/
theorem exec_onCtx (ht : TakesBob s i v) (ho : OwnsCtx s v n) {ok : State → Bool} (hok : ok s = true) {e : Act}
    (hc : exec c s = act (atBobCmd i v op n) s) (hb : Act.run (bobCommand v op n) s = Act.run (onCtx v n ok e) s) :
    exec c s = .next (Act.run (cmdEnd v n Status.ok) (Act.run e s)) := by
  rw [exec_bobCommand ht hc, hb, run_onCtx_ok ho hok]

/-- A command that only stores fields of its context. -/
theorem completes_stores {n : Fin 4096} (ht : TakesBob s i v) (ho : OwnsCtx s v n) {ok : State → Bool} (hok : ok s = true)
    {e : Act} (hc : exec c s = act (atBobCmd i v op n) s) (hb : Act.run (bobCommand v op n) s = Act.run (onCtx v n ok e) s)
    {l : Stores} (hw : Wrote n l s (Act.run e s)) (hl : fitAll (l.map (·.1)) = true) :
    Completes c s fun t => Wrote n l s t ∧ BobEnds t v n Status.ok ∧ OnlyCtx s t n := by
  have hall := hw.then_mem (cmdEnd_mem v n Status.ok _)
  exact ⟨_, exec_onCtx ht ho hok hc hb, hall, bobEnds_cmdEnd n.isLt (by decide) v _, hall.onlyCtx hl⟩

theorem completes_prot {n : Fin 4096} (ht : TakesBob s i v) (hc : exec c s = act (atBobCmd i v op n) s)
    (hb : Act.run (bobCommand v op n) s = Act.run (cmdEnd v n Status.prot) s) :
    Completes c s fun t => BobEnds t v n Status.prot ∧ SameStore s t := by
  refine ⟨_, exec_bobCommand ht hc, ?_⟩
  rw [hb]
  exact ⟨bobEnds_cmdEnd n.isLt (by decide) v s, (within_cmdEnd v n Status.prot).sameStore s⟩

end Taken

/-! The commands that change fields of the context. -/

section Commands

variable {s : State} {i : Initiator} {v : Fin 16} {n : Fin 4096} (ht : TakesBob s i v) (ho : OwnsCtx s v n)

theorem wrote_setLastAsn (n asn : Nat) (s : State) : Wrote n [(Cx.lastAsn, asn % 2 ^ 32), (Cx.lastAsnH, asn / 2 ^ 32 % 256)] s
    (Act.run (setLastAsn n asn) s) := by
  rw [setLastAsn, run_chain_cons, run_chain_cons, run_chain_cons, run_chain_nil, run_onBob]
  exact ((wrote_setCx n Cx.lastAsn _ s).trans (wrote_setCx n Cx.lastAsnH _ _)).then_mem (bob_mem _ _)

/-- The stores of ACTIVATE. -/
def activateStores (s : State) (n : Nat) : Stores :=
  (if s.ctxState n = CtxState.dead then [(Cx.lastAsn, s.clk.asn % 2 ^ 32), (Cx.lastAsnH, s.clk.asn / 2 ^ 32 % 256)] else []) ++
    [(Cx.state, CtxState.active)]

theorem ownsCtx_self (ho : OwnsCtx s v n) : OwnsCtx s (s.cx n Cx.vi) n := by rw [ho.owner]; exact ho

include ht ho

theorem contextActivate_holds (hst : s.ctxState n = CtxState.learning ∨ s.ctxState n = CtxState.dead) :
    Completes (.contextActivate i v n) s fun t => t.ctxState n = CtxState.active ∧ BobEnds t v n Status.ok ∧ OnlyCtx s t n := by
  have hw : Wrote n (activateStores s n) s (Act.run (look fun s => chain [
      whenA (s.ctxState n == CtxState.dead) (setLastAsn n s.clk.asn), ctxEnter n CtxState.active]) s) := by
    have hfirst : Wrote n (if s.ctxState n = CtxState.dead then
        [(Cx.lastAsn, s.clk.asn % 2 ^ 32), (Cx.lastAsnH, s.clk.asn / 2 ^ 32 % 256)] else []) s
        (Act.run (whenA (s.ctxState n == CtxState.dead) (setLastAsn n s.clk.asn)) s) := by
      rw [run_whenA]
      by_cases hd : s.ctxState n = CtxState.dead
      · rw [if_pos hd, if_pos (beq_iff_eq.mpr hd)]
        exact wrote_setLastAsn n _ s
      · rw [if_neg hd, if_neg (by simpa using hd)]
        exact wrote_nil rfl
    rw [run_look, run_chain_cons, run_chain_cons, run_chain_nil]
    exact hfirst.trans (wrote_ctxEnter (st := CtxState.active) (by decide) rfl n _)
  have hshape : fitAll ((activateStores s n).map (·.1)) = true ∧ clearOf Cx.state ((activateStores s n).map (·.1)) = true ∧
      lastStore Cx.state (activateStores s n) = some CtxState.active := by
    rw [activateStores]
    split
    · exact ⟨rfl, rfl, rfl⟩
    · exact ⟨rfl, rfl, rfl⟩
  obtain ⟨hfit, hclear, hlast⟩ := hshape
  obtain ⟨t, hrun, hw, he, honly⟩ := completes_stores (c := .contextActivate i v n) (op := 2) ht ho
    (ok := fun s => s.ctxState n == CtxState.learning || s.ctxState n == CtxState.dead) (by simpa using hst) rfl rfl hw hfit
  exact ⟨t, hrun, hw.holds hclear hlast (by decide), he, honly⟩

theorem declDead_holds (hst : ctxLive (s.ctxState n) = true) : Completes (.decldead i v n) s fun t =>
    t.ctxState n = CtxState.dead ∧ t.is BOB.STICKY.DEAD = true ∧ BobEnds t v n Status.ok ∧ OnlyCtx s t n := by
  have hend := cmdEnd_mem v n Status.ok (Act.run (ctxEnter n CtxState.dead) s)
  obtain ⟨hstate, hdead, honly⟩ := ctxEnter_dead (ownsCtx_self ho)
  refine ⟨_, exec_onCtx ht ho hst rfl rfl, (cx_of_mem hend n Cx.state).trans hstate, ?_, bobEnds_cmdEnd n.isLt (by decide) v _,
    onlyCtx_trans honly (onlyCtx_of_mem hend n)⟩
  rw [is_of_keeps (keeps_cmdEnd_ok (by decide) v n)]
  exact hdead

theorem free_holds (hst : s.ctxState n ≠ CtxState.migrating) : Completes (.free i v n) s fun t =>
    (∀ a, ctxAddr n ≤ a → a < ctxAddr (n + 1) → t.byte a = 0) ∧ BobEnds t v n Status.ok ∧ OnlyCtx s t n := by
  have hend := cmdEnd_mem v n Status.ok (Act.run (ctxEnter n CtxState.free) s)
  obtain ⟨hzero, honly⟩ := ctxEnter_free n.isLt (ownsCtx_self ho)
  refine ⟨_, exec_onCtx ht ho (ok := fun s => s.ctxState n != CtxState.migrating) (bne_iff_ne.mpr hst) rfl rfl,
    fun a hlo hhi => ?_, bobEnds_cmdEnd n.isLt (by decide) v _, onlyCtx_trans honly (onlyCtx_of_mem hend n)⟩
  rw [byte_of_mem hend]
  exact hzero a hlo hhi

theorem clrcol_holds : Completes (.clrcol i v n) s fun t =>
    t.cx n Cx.collide = 0 ∧ t.cx n Cx.mfCnt = 0 ∧ BobEnds t v n Status.ok ∧ OnlyCtx s t n := by
  have hw : Wrote n [(Cx.collide, 0), (Cx.mfCnt, 0)] s (Act.run (chain [setCx n Cx.collide 0, setCx n Cx.mfCnt 0]) s) := rfl
  obtain ⟨t, hrun, hw, he, honly⟩ := completes_stores (c := .clrcol i v n) (op := 8) ht ho (ok := fun _ => true) rfl rfl rfl hw rfl
  exact ⟨t, hrun, hw.holds rfl rfl (by decide), hw.holds rfl rfl (by decide), he, honly⟩

/-- What SETKEY stores in a context: with a new slot the counters at 0, then the key. -/
def resetCounters (n : Nat) : Act := chain [setCx n Cx.rxfc 0, setCx n Cx.txfc 0, setCx n Cx.rxasn 0, setCx n Cx.rxasnH 0,
  setCx n Cx.rxfcv 0, setCx n Cx.rxasnv 0]

def setKeyEffect (n a : Nat) : Act := look fun s => chain [whenA (s.cx n Cx.keySlot != bits a 5 0) (resetCounters n),
  setCx n Cx.ksv (bitOf a 30), setCx n Cx.keySlot (bits a 5 0)]

/-- The stores of SETKEY with argument `a`. -/
def keyStores (s : State) (n a : Nat) : Stores :=
  (if s.cx n Cx.keySlot = bits a 5 0 then []
    else [(Cx.rxfc, 0), (Cx.txfc, 0), (Cx.rxasn, 0), (Cx.rxasnH, 0), (Cx.rxfcv, 0), (Cx.rxasnv, 0)]) ++
    [(Cx.ksv, bitOf a 30), (Cx.keySlot, bits a 5 0)]

omit ht ho in
theorem wrote_setKeyEffect (n a : Nat) (s : State) : Wrote n (keyStores s n a) s (Act.run (setKeyEffect n a) s) := by
  have hfirst : Wrote n (if s.cx n Cx.keySlot = bits a 5 0 then []
      else [(Cx.rxfc, 0), (Cx.txfc, 0), (Cx.rxasn, 0), (Cx.rxasnH, 0), (Cx.rxfcv, 0), (Cx.rxasnv, 0)]) s
      (Act.run (whenA (s.cx n Cx.keySlot != bits a 5 0) (resetCounters n)) s) := by
    rw [run_whenA]
    by_cases hk : s.cx n Cx.keySlot = bits a 5 0
    · rw [if_pos hk, if_neg (by simpa using hk)]
      exact wrote_nil rfl
    · rw [if_neg hk, if_pos (bne_iff_ne.mpr hk)]
      rfl
  rw [setKeyEffect, run_look, run_chain_cons, run_chain_cons, run_chain_cons, run_chain_nil]
  exact hfirst.trans ((wrote_setCx n Cx.ksv _ _).trans (wrote_setCx n Cx.keySlot _ _))

omit ht ho in
theorem run_setKeyCtx (v n : Nat) (s : State) : Act.run (bobCommand v 4 n) s =
    Act.run (onCtx v n (fun _ => true) (setKeyEffect n (s.ctxArg v 3))) s := by
  show Act.run (setKeyCtx v n) s = _
  rw [setKeyCtx, run_look]
  rfl

theorem setkey_holds : Completes (.setkey i v n) s fun t =>
    t.cx n Cx.ksv = bitOf (s.ctxArg v 3) 30 ∧ t.cx n Cx.keySlot = bits (s.ctxArg v 3) 5 0 ∧
      (s.cx n Cx.keySlot ≠ bits (s.ctxArg v 3) 5 0 → t.cx n Cx.rxfc = 0 ∧ t.cx n Cx.txfc = 0 ∧ t.cx n Cx.rxfcv = 0) ∧
      BobEnds t v n Status.ok ∧ OnlyCtx s t n := by
  have hbit : bitOf (s.ctxArg v 3) 30 < 2 := Nat.mod_lt _ (by decide)
  have hslot : bits (s.ctxArg v 3) 5 0 < 2 ^ 6 := bits_lt _ _ _
  have hw := wrote_setKeyEffect n (s.ctxArg v 3) s
  by_cases hk : s.cx n Cx.keySlot = bits (s.ctxArg v 3) 5 0
  · rw [keyStores, if_pos hk] at hw
    obtain ⟨t, hrun, hw, he, honly⟩ := completes_stores (c := .setkey i v n) (op := 4) ht ho rfl rfl
      (run_setKeyCtx v n s) hw rfl
    exact ⟨t, hrun, hw.holds rfl rfl hbit, hw.holds rfl rfl hslot, fun h => absurd hk h, he, honly⟩
  · rw [keyStores, if_neg hk] at hw
    obtain ⟨t, hrun, hw, he, honly⟩ := completes_stores (c := .setkey i v n) (op := 4) ht ho rfl rfl
      (run_setKeyCtx v n s) hw rfl
    exact ⟨t, hrun, hw.holds rfl rfl hbit, hw.holds rfl rfl hslot, fun _ => ⟨hw.holds rfl rfl (by decide),
      hw.holds rfl rfl (by decide), hw.holds rfl rfl (by decide)⟩, he, honly⟩

end Commands

end Sys2Proof.Proofs
end

section
/-! Commands that move keys, and those that set other state: SETSHORT, SUPERSEDE, SETTS, HANDOVER, READ (R223, R240, R249, R255). -/

namespace Sys2Proof.Proofs

open Sys2Proof.Machine Sys2Proof.Laws

/-! Key placement. -/

/-- The store's keys with one more placed. -/
def withKey (n : Nat) (ext : Bool) (p : Nat) (b : BobSt) : BobSt :=
  if ext then { b with extKeys := b.extKeys ++ [(n, p)] } else { b with shortKeys := b.shortKeys ++ [(n, p)] }

theorem run_place {s : State} {n : Nat} {ext : Bool} {key : Nat}
    (h : (placeKey s.bob.hashKey key (if ext then s.bob.extKeys else s.bob.shortKeys)).isSome = true) (k : Bool → Act) :
    ∃ p, Act.run (place n ext key k) s = Act.run (k true) (Eff.apply s (.bob (withKey n ext p s.bob))) := by
  obtain ⟨p, hp⟩ := Option.isSome_iff_exists.mp h
  refine ⟨p, ?_⟩
  rw [place, run_look, hp]
  dsimp only
  rw [run_chain_cons, run_chain_cons, run_chain_nil, run_onBob]
  rfl

/-- Two stores in fields of one context. -/
theorem wrote_two (n : Nat) (f g : CtxFld) (x y : Nat) (s : State) :
    Wrote n [(f, x), (g, y)] s (Act.run (setCx n g y) (Act.run (setCx n f x) s)) :=
  (wrote_setCx n f x s).trans (wrote_setCx n g y _)

section Commands

variable {s : State} {i : Initiator} {v : Fin 16} {n : Fin 4096}

/-! SETSHORT. -/

/-- What SETSHORT does once its key has a place. -/
def moveShort (v n pan short : Nat) (old : Bool) : Act := chain [
  whenA old (onBob fun b => { b with shortKeys := b.shortKeys.eraseP (·.1 == n) }),
  chain [setCx n Cx.pan pan, setCx n Cx.short short, cmdEnd v n Status.ok]]

theorem moveShort_holds {pan short : Nat} (hpan : pan < 2 ^ 16) (hshort : short < 2 ^ 16) (v : Nat) (n : Fin 4096) (old : Bool)
    (s : State) : let t := Act.run (moveShort v n pan short old) s
    t.cx n Cx.pan = pan ∧ t.cx n Cx.short = short ∧ BobEnds t v n Status.ok ∧ OnlyCtx s t n := by
  have hold : Within false [] (whenA old (onBob fun b => { b with shortKeys := b.shortKeys.eraseP (·.1 == n.val) }) ·) := by
    fun_prop
  have hw : Wrote n [(Cx.pan, pan), (Cx.short, short)] s (Act.run (moveShort v n pan short old) s) := by
    rw [moveShort, run_chain_cons, run_chain_cons, run_chain_nil, run_chain_cons, run_chain_cons, run_chain_cons,
      run_chain_nil]
    exact ((wrote_nil (hold.outside s).mem).trans (wrote_two n _ _ _ _ _)).then_mem (cmdEnd_mem v n Status.ok _)
  have he : BobEnds (Act.run (moveShort v n pan short old) s) v n Status.ok := by
    rw [moveShort, run_chain_cons, run_chain_cons, run_chain_nil, run_chain_cons, run_chain_cons, run_chain_cons,
      run_chain_nil]
    exact bobEnds_cmdEnd n.isLt (by decide) v _
  exact ⟨hw.holds rfl rfl hpan, hw.holds rfl rfl hshort, he, hw.onlyCtx rfl⟩

theorem run_setShortCtx (ho : OwnsCtx s v n) (hk : keepsShort (s.ctxState n) = true) (hm : s.ctxState n ≠ CtxState.migrating)
    (ht : s.shortTaken (some n.val) v (bits (s.ctxArg v 2) 31 16) (bits (s.ctxArg v 2) 15 0) = false)
    (hp : bits (s.ctxArg v 2) 15 0 < 0xFFFE → (placeKey s.bob.hashKey
      (shortKey v (bits (s.ctxArg v 2) 31 16) (bits (s.ctxArg v 2) 15 0)) s.bob.shortKeys).isSome = true) :
    ∃ b, Act.run (setShortCtx v n) s = Act.run (moveShort v n (bits (s.ctxArg v 2) 31 16) (bits (s.ctxArg v 2) 15 0)
      (decide (s.cx n Cx.short < 0xFFFE))) (Eff.apply s (.bob b)) := by
  have howner : ¬(s.ctxState n == CtxState.free || s.cx n Cx.vi != v) = true := by simp [ho.held, ho.owner]
  have hjudged : ¬(!keepsShort (s.ctxState n) || s.ctxState n == CtxState.migrating ||
      s.shortTaken (some n.val) v (bits (s.ctxArg v 2) 31 16) (bits (s.ctxArg v 2) 15 0)) = true := by
    simp [hk, hm, ht]
  rw [setShortCtx, run_look]
  dsimp only
  rw [if_neg howner, if_neg hjudged]
  by_cases hs : bits (s.ctxArg v 2) 15 0 < 0xFFFE
  · rw [if_pos hs]
    obtain ⟨p, hrun⟩ := run_place (n := n) (ext := false) (hp hs) fun ok =>
      if ok then moveShort v n (bits (s.ctxArg v 2) 31 16) (bits (s.ctxArg v 2) 15 0) (decide (s.cx n Cx.short < 0xFFFE))
      else chain [ctxFull v, cmdEnd v n Status.rsvdOp]
    exact ⟨_, hrun⟩
  · rw [if_neg hs]
    exact ⟨s.bob, rfl⟩

theorem setshort_holds (ht : TakesBob s i v) (ho : OwnsCtx s v n) (hk : keepsShort (s.ctxState n) = true)
    (hm : s.ctxState n ≠ CtxState.migrating)
    (hfree : s.shortTaken (some n.val) v (bits (s.ctxArg v 2) 31 16) (bits (s.ctxArg v 2) 15 0) = false)
    (hp : bits (s.ctxArg v 2) 15 0 < 0xFFFE → (placeKey s.bob.hashKey
      (shortKey v (bits (s.ctxArg v 2) 31 16) (bits (s.ctxArg v 2) 15 0)) s.bob.shortKeys).isSome = true) :
    Completes (.setshort i v n) s fun t => t.cx n Cx.pan = bits (s.ctxArg v 2) 31 16 ∧
      t.cx n Cx.short = bits (s.ctxArg v 2) 15 0 ∧ BobEnds t v n Status.ok ∧ OnlyCtx s t n := by
  obtain ⟨b, hrun⟩ := run_setShortCtx ho hk hm hfree hp
  refine ⟨_, exec_bobCommand (op := 3) ht rfl, ?_⟩
  rw [show Act.run (bobCommand v 3 n) s = Act.run (setShortCtx v n) s from rfl, hrun]
  exact moveShort_holds (bits_lt _ _ _) (bits_lt _ _ _) v n _ _

/-! SUPERSEDE. -/

/-- What SUPERSEDE with argument `a` does. -/
def supersedeEffect (v n a : Nat) : Act := look fun s => chain [ctxEnter n CtxState.superseded, dropKeys n false,
  setCx n Cx.short 0xFFFE, whenA (bitOf a 31 == 1) (chain [setCx (bits a 11 0) Cx.short (s.cx n Cx.short),
    setCx (bits a 11 0) Cx.pan (s.cx n Cx.pan), whenA (s.cx n Cx.short < 0xFFFE)
      (place (bits a 11 0) false (shortKey v (s.cx n Cx.pan) (s.cx n Cx.short)) fun _ => skip)])]

theorem run_supersedeCtx (v n : Nat) (s : State) : Act.run (bobCommand v 6 n) s = Act.run (onCtx v n
    (fun t => (ctxLive (t.ctxState n) || t.ctxState n == CtxState.dead) && (!(bitOf (s.ctxArg v 0) 31 == 1) ||
      (bits (s.ctxArg v 0) 11 0 != n && t.spareOk v (bits (s.ctxArg v 0) 11 0)))) (supersedeEffect v n (s.ctxArg v 0))) s := by
  show Act.run (supersedeCtx v n) s = _
  rw [supersedeCtx, run_look]
  rfl

/-- The tombstone's stores. -/
def tombStores : Stores := [(Cx.pending, 0), (Cx.state, CtxState.superseded), (Cx.short, 0xFFFE)]

/-- The tombstone, and what a named spare then stores. -/
theorem wrote_supersedeEffect (ho : OwnsCtx s v n) (a : Nat) : ∃ u, Wrote n tombStores s u ∧
    Wrote (bits a 11 0) (if bitOf a 31 = 1 then [(Cx.short, s.cx n Cx.short), (Cx.pan, s.cx n Cx.pan)] else []) u
      (Act.run (supersedeEffect v n a) s) := by
  have hdrop : Within false [] (dropKeys n false ·) := by fun_prop
  refine ⟨Act.run (setCx n Cx.short 0xFFFE) (Act.run (dropKeys n false) (Act.run (ctxEnter n CtxState.superseded) s)), ?_, ?_⟩
  · exact ((wrote_ctxEnter_flushes (by decide) rfl (ownsCtx_self ho)).then_mem (hdrop.outside _).mem).trans
      (wrote_setCx n Cx.short 0xFFFE _)
  · rw [supersedeEffect, run_look, run_chain_cons, run_chain_cons, run_chain_cons, run_chain_cons, run_chain_nil, run_whenA]
    by_cases ha : bitOf a 31 = 1
    · have hplace : Within false [.BOB] (whenA (s.cx n Cx.short < 0xFFFE)
          (place (bits a 11 0) false (shortKey v (s.cx n Cx.pan) (s.cx n Cx.short)) fun _ => skip) ·) := by
        fun_prop (disch := rfl)
      rw [if_pos ha, if_pos (beq_iff_eq.mpr ha), run_chain_cons, run_chain_cons, run_chain_cons, run_chain_nil]
      exact (wrote_two _ _ _ _ _ _).then_mem (hplace.outside _).mem
    · rw [if_neg ha, if_neg (by simpa using ha)]
      exact wrote_nil rfl

theorem supersede_unnamed (ht : TakesBob s i v) (ho : OwnsCtx s v n)
    (hst : ctxLive (s.ctxState n) = true ∨ s.ctxState n = CtxState.dead) (ha : bitOf (s.ctxArg v 0) 31 = 0) :
    Completes (.supersede i v n) s fun t => t.ctxState n = CtxState.superseded ∧ t.cx n Cx.short = 0xFFFE ∧
      BobEnds t v n Status.ok ∧ OnlyCtx s t n := by
  obtain ⟨u, hu, hrest⟩ := wrote_supersedeEffect (v := v) ho (s.ctxArg v 0)
  rw [ha] at hrest
  have hw := hu.then_mem hrest
  obtain ⟨t, hrun, hw, he, honly⟩ := completes_stores (c := .supersede i v n) (op := 6) ht ho (by simpa [ha] using hst) rfl
    (run_supersedeCtx v n s) hw rfl
  exact ⟨t, hrun, hw.holds rfl rfl (by decide), hw.holds rfl rfl (by decide), he, honly⟩

theorem supersede_named (ht : TakesBob s i v) (ho : OwnsCtx s v n)
    (hst : ctxLive (s.ctxState n) = true ∨ s.ctxState n = CtxState.dead) (ha : bitOf (s.ctxArg v 0) 31 = 1)
    (hm : bits (s.ctxArg v 0) 11 0 ≠ n) (hs : s.spareOk v (bits (s.ctxArg v 0) 11 0) = true) :
    Completes (.supersede i v n) s fun t => t.ctxState n = CtxState.superseded ∧ t.cx n Cx.short = 0xFFFE ∧
      t.cx (bits (s.ctxArg v 0) 11 0) Cx.short = s.cx n Cx.short ∧
      t.cx (bits (s.ctxArg v 0) 11 0) Cx.pan = s.cx n Cx.pan ∧ BobEnds t v n Status.ok := by
  obtain ⟨u, hu, hspare⟩ := wrote_supersedeEffect (v := v) ho (s.ctxArg v 0)
  rw [if_pos ha] at hspare
  have hend := hspare.then_mem (cmdEnd_mem v n Status.ok _)
  have hother := hend.onlyCtx rfl
  have hok : ((ctxLive (s.ctxState n) || s.ctxState n == CtxState.dead) && (!(bitOf (s.ctxArg v 0) 31 == 1) ||
      (bits (s.ctxArg v 0) 11 0 != n && s.spareOk v (bits (s.ctxArg v 0) 11 0)))) = true := by
    simpa [hs, hm] using hst
  refine ⟨_, exec_onCtx (op := 6) ht ho hok rfl (run_supersedeCtx v n s), ?_, ?_, hend.holds rfl rfl (cx_lt _ _ _),
    hend.holds rfl rfl (cx_lt _ _ _), bobEnds_cmdEnd n.isLt (by decide) v _⟩
  · exact (onlyCtx_cx_ne hother rfl hm.symm).trans (hu.holds rfl rfl (by decide))
  · exact (onlyCtx_cx_ne hother rfl hm.symm).trans (hu.holds rfl rfl (by decide))

/-! SETTS. -/

theorem setts_holds (ht : TakesBob s i v) (ho : OwnsCtx s v n) (hv : v.val = s.tvi) (hst : ctxLive (s.ctxState n) = true) :
    Completes (.setts i v n) s fun t => t.get (SHU.VISTAT.TSCTX.copy v) = n ∧ t.is (SHU.VISTAT.TSV.copy v) = true ∧
      BobEnds t v n Status.ok ∧ SameStore s t := by
  have hend {g : Fld} (hg : pageOf g = some .SHU) : Keeps (cmdEnd v n Status.ok) g :=
    (within_cmdEnd v n Status.ok).keeps_page hg (by decide)
  have hall : Within false [.SHU, .BOB] (chain [chain [journal, put (SHU.VISTAT.TSCTX.copy v) n,
      put (SHU.VISTAT.TSV.copy v) 1], cmdEnd v n Status.ok] ·) := by
    unfold journal cmdEnd
    fun_prop (disch := rfl)
  refine ⟨_, exec_onCtx (op := 9) ht ho (ok := fun s => v == s.tvi && ctxLive (s.ctxState n)) (by simp [hv, hst]) rfl rfl,
    ?_, ?_, bobEnds_cmdEnd n.isLt (by decide) v _, ?_⟩
  · rw [hend (pageOf_copy SHU.VISTAT.TSCTX v), run_chain_cons, run_chain_cons, run_chain_cons, run_chain_nil, run_put, run_put,
      put_get_apart _ _ _ _ (by decide : 19 + 1 ≤ 32) (apart_copy (by decide) v), put_get_same _ _ _ (by decide : 20 + 12 ≤ 32)]
    exact Nat.mod_eq_of_lt n.isLt
  · rw [is_of_keeps (hend (pageOf_copy SHU.VISTAT.TSV v)), run_chain_cons, run_chain_cons, run_chain_cons, run_chain_nil, run_put,
      put_is_same _ _ _ rfl (by decide : 19 < 32)]
    rfl
  · have hs := hall.sameStore s
    rwa [run_chain_cons, run_chain_cons, run_chain_nil] at hs

/-! HANDOVER. -/

/-- The slot H that the arguments name. -/
def slotArg (s : State) (v : Nat) : Nat := bits (s.ctxArg v 2) 7 0 * 2 ^ 32 + s.ctxArg v 1

/-- What HANDOVER at slot `h` to a destination does. -/
def handoverEffect (n h dst : Nat) : Act := chain [setCx n Cx.migH (h % 2 ^ 32), setCx n Cx.migHh (h / 2 ^ 32),
  setCx n Cx.migDst dst, onBob fun b => { b with handovers := b.handovers.filter (·.1 != n) ++ [(n, 0)] }]

theorem run_handoverCtx (v n : Nat) (s : State) : Act.run (bobCommand v 10 n) s = Act.run (onCtx v n
    (fun t => t.is CLK.STAT.CASSYNC && ctxLive (t.ctxState n) && t.cx n Cx.pending == 0 && slotArg s v ≥ t.clk.asn + 2)
    (handoverEffect n (slotArg s v) (bits (s.ctxArg v 0) 2 0))) s := by
  show Act.run (handoverCtx v n) s = _
  rw [handoverCtx, run_look]
  rfl

theorem handoverEffect_holds {n h dst : Nat} (s : State) : Wrote n
    [(Cx.migH, h % 2 ^ 32), (Cx.migHh, h / 2 ^ 32), (Cx.migDst, dst)] s (Act.run (handoverEffect n h dst) s) ∧
    (Act.run (handoverEffect n h dst) s).bob.handovers = s.bob.handovers.filter (·.1 != n) ++ [(n, 0)] := by
  rw [handoverEffect, run_chain_cons, run_chain_cons, run_chain_cons, run_chain_cons, run_chain_nil, run_onBob]
  constructor
  · exact ((wrote_two n _ _ _ _ s).trans (wrote_setCx n Cx.migDst dst _)).then_mem (bob_mem _ _)
  · have hbob (f : CtxFld) (v : Nat) : Fixes State.bob (setCx n f v) := fixes_setCx (fun _ _ _ => rfl) n f v
    rw [hbob, hbob, hbob]
    rfl

theorem handover_holds (ht : TakesBob s i v) (ho : OwnsCtx s v n) (hsync : s.is CLK.STAT.CASSYNC = true)
    (hst : ctxLive (s.ctxState n) = true) (hpend : s.cx n Cx.pending = 0) (hslot : s.clk.asn + 2 ≤ slotArg s v) :
    Completes (.handover i v n) s fun t =>
      t.bob.handovers = s.bob.handovers.filter (·.1 != n.val) ++ [(n.val, 0)] ∧ t.migSlot n = slotArg s v ∧
      t.cx n Cx.migDst = bits (s.ctxArg v 0) 2 0 ∧ BobEnds t v n Status.ok ∧ OnlyCtx s t n := by
  obtain ⟨hw, hbob⟩ := handoverEffect_holds (n := n) (h := slotArg s v) (dst := bits (s.ctxArg v 0) 2 0) s
  have hend := hw.then_mem (cmdEnd_mem v n Status.ok _)
  have harg : s.ctxArg v 1 < 2 ^ 32 := get_lt s _
  have hlow : slotArg s v % 2 ^ 32 < 2 ^ 32 := Nat.mod_lt _ (by decide)
  have hhigh : slotArg s v / 2 ^ 32 < 2 ^ 8 := by
    have : bits (s.ctxArg v 2) 7 0 < 2 ^ 8 := bits_lt _ _ _
    rw [slotArg]
    omega
  refine ⟨_, exec_onCtx (op := 10) ht ho (by simp [hsync, hst, hpend, hslot]) rfl (run_handoverCtx v n s), ?_, ?_,
    hend.holds rfl rfl (bits_lt _ _ _), bobEnds_cmdEnd n.isLt (by decide) v _, hend.onlyCtx rfl⟩
  · rw [cmdEnd_bob]
    exact hbob
  · rw [State.migSlot, hend.holds rfl rfl hhigh, hend.holds rfl rfl hlow]
    omega

/-! READ. -/

/-- What READ shows: the words of a context as they stand. -/
def showWords (v n : Nat) (s : State) : Act :=
  eachA (List.range 32) fun k => put ((BOB.CTXBUF.W.i k).copy v) (s.word (ctxAddr n + 4 * k))

theorem run_readCtx (v n : Nat) (s : State) : Act.run (bobCommand v 11 n) s =
    Act.run (onCtx v n (fun _ => true) (look (showWords v n))) s := rfl

theorem read_holds (ht : TakesBob s i v) (ho : OwnsCtx s v n) : Completes (.read i v n) s fun t =>
    (∀ k < 32, t.get ((BOB.CTXBUF.W.i k).copy v) = s.word (ctxAddr n + 4 * k)) ∧ BobEnds t v n Status.ok ∧ SameStore s t := by
  have haddr (k : Nat) (hk : k < 32) : keyAddr ((BOB.CTXBUF.W.i k).copy v).key = 0x40019080 + 4 * k := by
    rw [keyAddr_copy, i_key]
    show (0x40019080 + 4 * k) % 2 ^ 32 = _
    omega
  have hwords : Within false [.BOB] (showWords v n s ·) :=
    within_eachA_range fun k hk => within_put_copy v _ (permits_i (k := 32) hk rfl)
  refine ⟨_, exec_onCtx (op := 11) ht ho rfl rfl (run_readCtx v n s), fun k hk => ?_,
    bobEnds_cmdEnd n.isLt (by decide) v _, ?_⟩
  · rw [keeps_cmdEnd_ok (by rw [haddr k hk]; show (0x40019070 : Nat) ≠ _; omega) v n, run_look, showWords]
    refine (eachA_put_get (f := fun k => (BOB.CTXBUF.W.i k).copy v) (fun _ _ => (by decide : 0 + 32 ≤ 32)) ?_
      (List.mem_range.mpr hk) s).trans (Nat.mod_eq_of_lt (word_lt s _))
    refine List.Pairwise.imp_of_mem (fun {a b} ha hb hlt => apart_of_addr ?_) List.pairwise_lt_range
    rw [haddr a (List.mem_range.mp ha), haddr b (List.mem_range.mp hb)]
    omega
  · have hs := (within_cons hwords (within_cons (within_cmdEnd v n Status.ok) within_nil)).sameStore s
    rw [run_look]
    rwa [run_chain_cons, run_chain_cons, run_chain_nil] at hs

end Commands

end Sys2Proof.Proofs
end

section
/-! ALLOC, and the statement on the commands of BOB.CMD (R223, R224, R255). -/

namespace Sys2Proof.Proofs

open Sys2Proof.Machine Sys2Proof.Laws

/-! Both keys of a new context. -/

/-- Places the extended key and the short key that a context has, and goes on where each found a place. -/
def placeBoth (n eui ekey short skey : Nat) (good badShort badExt : Act) : Act :=
  let placeShort : Act := if short < 0xFFFE then place n false skey fun ok => if ok then good else badShort else good
  if eui = 0 then placeShort else place n true ekey fun ok => if ok then placeShort else badExt

/-- The store with other keys. -/
def withKeys (s : State) (e k : List (Nat × Nat)) : State := Eff.apply s (.bob { s.bob with extKeys := e, shortKeys := k })

section Both

variable {n eui ekey short skey : Nat} {good badShort badExt : Act}

theorem run_placeShort {s : State} (h : short < 0xFFFE → (placeKey s.bob.hashKey skey s.bob.shortKeys).isSome = true) :
    ∃ k, Act.run (if short < 0xFFFE then place n false skey fun ok => if ok then good else badShort else good) s =
      Act.run good (withKeys s s.bob.extKeys k) := by
  by_cases hs : short < 0xFFFE
  · rw [if_pos hs]
    obtain ⟨p, hp⟩ := run_place (n := n) (ext := false) (h hs) fun ok => if ok then good else badShort
    exact ⟨_, hp⟩
  · rw [if_neg hs]
    exact ⟨s.bob.shortKeys, rfl⟩

theorem run_placeBoth {s : State} (he : eui ≠ 0 → (placeKey s.bob.hashKey ekey s.bob.extKeys).isSome = true)
    (hs : short < 0xFFFE → (placeKey s.bob.hashKey skey s.bob.shortKeys).isSome = true) :
    ∃ e k, Act.run (placeBoth n eui ekey short skey good badShort badExt) s = Act.run good (withKeys s e k) := by
  rw [placeBoth]
  by_cases h0 : eui = 0
  · obtain ⟨k, hk⟩ := run_placeShort (n := n) (good := good) (badShort := badShort) hs
    rw [if_pos h0]
    exact ⟨_, k, hk⟩
  · rw [if_neg h0]
    obtain ⟨p, hp⟩ := run_place (n := n) (ext := true) (he h0) fun ok => if ok then
      (if short < 0xFFFE then place n false skey fun ok => if ok then good else badShort else good) else badExt
    obtain ⟨k, hk⟩ := run_placeShort (s := Eff.apply s (.bob (withKey n true p s.bob))) (n := n) (good := good)
      (badShort := badShort) hs
    exact ⟨_, k, hp.trans hk⟩

end Both

/-! A new context's words. -/

/-- The fields of a new context, in a place with every byte at 0. -/
def fillCtx (n v eui pan short st learnt asn : Nat) : Act := look fun s => chain [wipe (ctxAddr n) (ctxAddr (n + 1)),
  setCx n Cx.euiLo (eui % 2 ^ 32), setCx n Cx.euiHi (eui / 2 ^ 32), setCx n Cx.pan pan, setCx n Cx.short short, setCx n Cx.vi v,
  setCx n Cx.ownMem s.member, setCx n Cx.learnt learnt, setCx n Cx.state st, setLastAsn n asn, resetBackoff v 0 n]

def fillStores (s : State) (v eui pan short st learnt asn : Nat) : Stores := [(Cx.euiLo, eui % 2 ^ 32), (Cx.euiHi, eui / 2 ^ 32),
  (Cx.pan, pan), (Cx.short, short), (Cx.vi, v), (Cx.ownMem, s.member), (Cx.learnt, learnt), (Cx.state, st),
  (Cx.lastAsn, asn % 2 ^ 32), (Cx.lastAsnH, asn / 2 ^ 32 % 256)]

theorem ctxCreate_eq (n v eui pan short st learnt asn : Nat) (k : Bool → Act) : ctxCreate n v eui pan short st learnt asn k =
    placeBoth n eui (extKey v eui) short (shortKey v pan short) (chain [fillCtx n v eui pan short st learnt asn, k true])
      (chain [dropKeys n true, k false]) (chain [dropKeys n true, k false]) := rfl

theorem wrote_chain_setCx {n : Nat} {f : CtxFld} {v : Nat} {l : Stores} {as : List Act}
    (h : ∀ s, Wrote n l s (Act.run (chain as) s)) (s : State) :
    Wrote n ((f, v) :: l) s (Act.run (chain (setCx n f v :: as)) s) := by
  rw [run_chain_cons]
  exact (wrote_setCx n f v s).trans (h _)

theorem resetBackoff_mem (v ctx : Nat) (s : State) : (Act.run (resetBackoff v 0 ctx) s).mem = s.mem := by
  rw [resetBackoff, run_look, setBackoff, if_pos rfl]
  rfl

/-- A state with the words of a context wiped. -/
def wiped (n : Nat) (s : State) : State := Eff.apply s (.wipe (ctxAddr n) (ctxAddr (n + 1)))

theorem onlyCtx_wiped (n : Nat) (s : State) : OnlyCtx s (wiped n s) n := fun a ha => by
  rw [wiped, wipe_mem, if_neg (by omega)]

theorem wrote_fillCtx (n v eui pan short st learnt asn : Nat) (s : State) :
    Wrote n (fillStores s v eui pan short st learnt asn) (wiped n s) (Act.run (fillCtx n v eui pan short st learnt asn) s) := by
  rw [fillCtx, run_look, run_chain_cons]
  refine wrote_chain_setCx (wrote_chain_setCx <| wrote_chain_setCx <| wrote_chain_setCx <| wrote_chain_setCx <|
    wrote_chain_setCx <| wrote_chain_setCx <| wrote_chain_setCx fun u => ?_) _
  rw [run_chain_cons, run_chain_cons, run_chain_nil]
  exact (wrote_setLastAsn n asn u).then_mem (resetBackoff_mem v n _)

/-! ALLOC. -/

section Alloc

variable {s : State} {i : Initiator} {v : Fin 16} {k : Nat}

/-- What ALLOC with argument `a` does once the keys have their places. -/
def allocEffect (s : State) (v k a : Nat) : Act := chain [
  fillCtx k v (s.ctxArg v 1 * 2 ^ 32 + s.ctxArg v 0) (bits (s.ctxArg v 2) 31 16) (bits (s.ctxArg v 2) 15 0)
    (if bitOf a 31 == 1 then CtxState.active else CtxState.learning) 0 s.clk.asn,
  chain [setCx k Cx.ksv (bitOf a 30), setCx k Cx.keySlot (bits a 5 0), cmdEnd v k Status.ok]]

section Room

variable (hk : s.ctxFree = some k) (huse : s.ctxUse v < s.get (ten VIF.TENB0.CTXQ v))
include hk huse

theorem run_allocCtx_taken (h : s.extTaken v (s.ctxArg v 1 * 2 ^ 32 + s.ctxArg v 0) = true ∨
    s.shortTaken none v (bits (s.ctxArg v 2) 31 16) (bits (s.ctxArg v 2) 15 0) = true) :
    Act.run (allocCtx v) s = Act.run (cmdEnd v 0 Status.rsvdOp) s := by
  rw [allocCtx, run_look, hk]
  dsimp only
  rw [if_pos huse, if_pos (by simpa using h)]

theorem run_allocCtx (he : s.extTaken v (s.ctxArg v 1 * 2 ^ 32 + s.ctxArg v 0) = false)
    (hs : s.shortTaken none v (bits (s.ctxArg v 2) 31 16) (bits (s.ctxArg v 2) 15 0) = false)
    (hpe : s.ctxArg v 1 * 2 ^ 32 + s.ctxArg v 0 ≠ 0 → (placeKey s.bob.hashKey
      (extKey v (s.ctxArg v 1 * 2 ^ 32 + s.ctxArg v 0)) s.bob.extKeys).isSome = true)
    (hps : bits (s.ctxArg v 2) 15 0 < 0xFFFE → (placeKey s.bob.hashKey
      (shortKey v (bits (s.ctxArg v 2) 31 16) (bits (s.ctxArg v 2) 15 0)) s.bob.shortKeys).isSome = true) :
    ∃ e l, Act.run (allocCtx v) s = Act.run (allocEffect s v k (s.ctxArg v 3)) (withKeys s e l) := by
  rw [allocCtx, run_look, hk]
  dsimp only
  rw [if_pos huse, if_neg (by rw [he, hs]; decide), ctxCreate_eq]
  exact run_placeBoth hpe hps

end Room

/-- The stores of ALLOC. -/
def allocStores (s : State) (v a : Nat) : Stores :=
  fillStores s v (s.ctxArg v 1 * 2 ^ 32 + s.ctxArg v 0) (bits (s.ctxArg v 2) 31 16) (bits (s.ctxArg v 2) 15 0)
    (if bitOf a 31 == 1 then CtxState.active else CtxState.learning) 0 s.clk.asn ++
    [(Cx.ksv, bitOf a 30), (Cx.keySlot, bits a 5 0)]

theorem allocEffect_holds (hk : k < 4096) (a : Nat) (e l : List (Nat × Nat)) :
    let t := Act.run (allocEffect s v k a) (withKeys s e l)
    Wrote k (allocStores s v a) (wiped k s) t ∧ BobEnds t v k Status.ok := by
  rw [allocEffect, run_chain_cons, run_chain_cons, run_chain_nil, run_chain_cons, run_chain_cons, run_chain_cons, run_chain_nil]
  refine ⟨?_, bobEnds_cmdEnd hk (by decide) v _⟩
  have hfill := (wrote_fillCtx k v (s.ctxArg v 1 * 2 ^ 32 + s.ctxArg v 0) (bits (s.ctxArg v 2) 31 16) (bits (s.ctxArg v 2) 15 0)
    (if bitOf a 31 == 1 then CtxState.active else CtxState.learning) 0 s.clk.asn (withKeys s e l)).since_mem
    (show (wiped k s).mem = (wiped k (withKeys s e l)).mem from rfl)
  exact (hfill.trans (wrote_two k _ _ _ _ _)).then_mem (cmdEnd_mem v k Status.ok _)

theorem alloc_holds (ht : TakesBob s i v) (hkn : k < 4096) (hk : s.ctxFree = some k)
    (huse : s.ctxUse v < s.get (ten VIF.TENB0.CTXQ v))
    (he : s.extTaken v (s.ctxArg v 1 * 2 ^ 32 + s.ctxArg v 0) = false)
    (hs : s.shortTaken none v (bits (s.ctxArg v 2) 31 16) (bits (s.ctxArg v 2) 15 0) = false)
    (hpe : s.ctxArg v 1 * 2 ^ 32 + s.ctxArg v 0 ≠ 0 → (placeKey s.bob.hashKey
      (extKey v (s.ctxArg v 1 * 2 ^ 32 + s.ctxArg v 0)) s.bob.extKeys).isSome = true)
    (hps : bits (s.ctxArg v 2) 15 0 < 0xFFFE → (placeKey s.bob.hashKey
      (shortKey v (bits (s.ctxArg v 2) 31 16) (bits (s.ctxArg v 2) 15 0)) s.bob.shortKeys).isSome = true) :
    Completes (.alloc i v) s fun t =>
      t.ctxState k = (if bitOf (s.ctxArg v 3) 31 = 1 then CtxState.active else CtxState.learning) ∧
      t.ctxEui k = s.ctxArg v 1 * 2 ^ 32 + s.ctxArg v 0 ∧ t.cx k Cx.pan = bits (s.ctxArg v 2) 31 16 ∧
      t.cx k Cx.short = bits (s.ctxArg v 2) 15 0 ∧ t.cx k Cx.vi = v ∧ t.cx k Cx.ksv = bitOf (s.ctxArg v 3) 30 ∧
      t.cx k Cx.keySlot = bits (s.ctxArg v 3) 5 0 ∧ BobEnds t v k Status.ok ∧ OnlyCtx s t k := by
  have hlo : s.ctxArg v 0 < 2 ^ 32 := get_lt s _
  have hhi : s.ctxArg v 1 < 2 ^ 32 := get_lt s _
  have hst : (if bitOf (s.ctxArg v 3) 31 == 1 then CtxState.active else CtxState.learning) < 2 ^ 3 := by split <;> decide
  obtain ⟨e, l, hrun⟩ := run_allocCtx hk huse he hs hpe hps
  obtain ⟨hw, hend⟩ := allocEffect_holds (s := s) (v := v) hkn (s.ctxArg v 3) e l
  refine ⟨_, exec_bobCommand (op := 1) ht rfl, ?_⟩
  rw [show Act.run (bobCommand v 1 0) s = Act.run (allocCtx v) s from rfl, hrun]
  refine ⟨?_, ?_, hw.holds rfl rfl (bits_lt _ _ _), hw.holds rfl rfl (bits_lt _ _ _), hw.holds rfl rfl v.isLt,
    hw.holds rfl rfl (Nat.mod_lt _ (by decide)), hw.holds rfl rfl (bits_lt _ _ _), hend,
    onlyCtx_trans (onlyCtx_wiped k s) (hw.onlyCtx rfl)⟩
  · rw [State.ctxState, hw.holds rfl rfl hst]
    simp
  · have hl : (s.ctxArg v 1 * 2 ^ 32 + s.ctxArg v 0) % 2 ^ 32 < 2 ^ 32 := Nat.mod_lt _ (by decide)
    have hh : (s.ctxArg v 1 * 2 ^ 32 + s.ctxArg v 0) / 2 ^ 32 < 2 ^ 32 := by omega
    rw [State.ctxEui, hw.holds (f := Cx.euiHi) rfl rfl hh, hw.holds (f := Cx.euiLo) rfl rfl hl]
    omega

theorem alloc_taken (ht : TakesBob s i v) (hk : s.ctxFree = some k) (huse : s.ctxUse v < s.get (ten VIF.TENB0.CTXQ v))
    (h : s.extTaken v (s.ctxArg v 1 * 2 ^ 32 + s.ctxArg v 0) = true ∨
      s.shortTaken none v (bits (s.ctxArg v 2) 31 16) (bits (s.ctxArg v 2) 15 0) = true) :
    Completes (.alloc i v) s fun t =>
      BobEnds t v 0 Status.rsvdOp ∧ t.is BOB.STICKY.CMDREF = true ∧ SameStore s t := by
  refine ⟨_, exec_bobCommand (op := 1) ht rfl, ?_⟩
  rw [show Act.run (bobCommand v 1 0) s = Act.run (allocCtx v) s from rfl, run_allocCtx_taken hk huse h]
  exact ⟨bobEnds_cmdEnd (by decide) (by decide) v s, cmdEnd_cmdref v 0 s, (within_cmdEnd v 0 Status.rsvdOp).sameStore s⟩

end Alloc

/-- A command on a context that its view does not own. -/
theorem commands_prot {s : State} {i : Initiator} {v : Fin 16} {n : Fin 4096} (ht : TakesBob s i v)
    (h : s.ctxState n = CtxState.free ∨ s.cx n Cx.vi ≠ v) :
    ∀ x ∈ [Instr.contextActivate i v n, .setshort i v n, .setkey i v n, .decldead i v n, .supersede i v n, .free i v n,
      .clrcol i v n, .setts i v n, .handover i v n, .read i v n],
    Completes x s fun t => BobEnds t v n Status.prot ∧ SameStore s t := by
  have hshort : Act.run (setShortCtx v n) s = Act.run (cmdEnd v n Status.prot) s := by
    have howner : (s.ctxState n == CtxState.free || s.cx n Cx.vi != v) = true := by simpa using h
    rw [setShortCtx, run_look]
    dsimp only
    rw [if_pos howner]
  simp only [List.forall_mem_cons, List.not_mem_nil, false_imp_iff, implies_true, and_true]
  exact ⟨completes_prot (op := 2) ht rfl (run_onCtx_prot h _ _), completes_prot (op := 3) ht rfl hshort,
    completes_prot (op := 4) ht rfl ((run_setKeyCtx v n s).trans (run_onCtx_prot h _ _)),
    completes_prot (op := 5) ht rfl (run_onCtx_prot h _ _),
    completes_prot (op := 6) ht rfl ((run_supersedeCtx v n s).trans (run_onCtx_prot h _ _)),
    completes_prot (op := 7) ht rfl (run_onCtx_prot h _ _), completes_prot (op := 8) ht rfl (run_onCtx_prot h _ _),
    completes_prot (op := 9) ht rfl (run_onCtx_prot h _ _),
    completes_prot (op := 10) ht rfl ((run_handoverCtx v n s).trans (run_onCtx_prot h _ _)),
    completes_prot (op := 11) ht rfl (run_onCtx_prot h _ _)⟩

/-- Settles O37: each command by the fields that it stores in its context, the two that write registers by those registers, and a
command on a context of another view by its status alone. -/
theorem contextCommands : Obligations.ContextCommands := by
  intro s i v n ht
  refine ⟨fun k hkn he hs hk huse hpe hps => alloc_holds ht hkn hk huse he hs hpe hps,
    fun ho => ⟨contextActivate_holds ht ho, setshort_holds ht ho, setkey_holds ht ho, declDead_holds ht ho,
      fun hst => ⟨supersede_unnamed ht ho hst, supersede_named ht ho hst⟩, free_holds ht ho, clrcol_holds ht ho,
      setts_holds ht ho, handover_holds ht ho, read_holds ht ho⟩,
    commands_prot ht, fun k _ hk huse h => alloc_taken ht hk huse h⟩

end Sys2Proof.Proofs
end

section
/-! Handovers: the stages at the source, the record at the destination, the slot H, and the end of the migration (R249 to R253,
R323, R325). -/

namespace Sys2Proof.Proofs

open Sys2Proof.Machine Sys2Proof.Laws

/-! The link. -/

theorem mem_sendLink (x : LinkSend) (s : State) : x ∈ (Act.run (sendLink x) s).cas.out := by
  rw [sendLink, run_onCas, cas_cas]
  simp

/-! Stages. -/

/-- A handover that exists enters the stage. -/
theorem setHandover_stage {s : State} {n st : Nat} (h : s.handoverStage n = some st) (st' : Nat) :
    (Act.run (setHandover n st') s).handoverStage n = some st' := by
  have hkey : ((fun h : Nat × Nat => h.1 == n) ∘ fun h => if h.1 == n then (n, st') else h) = fun h => h.1 == n := by
    funext x
    by_cases hx : x.1 = n <;> simp [hx]
  rw [State.handoverStage, Option.map_eq_some_iff] at h
  obtain ⟨x, hfind, -⟩ := h
  have hx : x.1 = n := by simpa using List.find?_some hfind
  rw [State.handoverStage, setHandover, run_onBob, bob_bob]
  dsimp only
  rw [List.find?_map, hkey, hfind, Option.map_some, Option.map_some, if_pos (beq_iff_eq.mpr hx)]

theorem handoverStage_filter {t : State} {n : Nat} {l : List (Nat × Nat)} (h : t.bob.handovers = l.filter (·.1 != n)) :
    t.handoverStage n = none := by
  simp [State.handoverStage, h]

/-- A handover that fails is gone, and is logged. -/
theorem handoverFails_holds {n reason : Nat} (hn : n < 4096) (hr : reason < 4) (s : State) :
    let t := Act.run (handoverFails n reason) s
    t.handoverStage n = none ∧ t.is CAS.STICKY.HOREFUSED = true ∧ t.get CAS.HOLOG.REASON = reason ∧
      t.get CAS.HOLOG.CTX = n ∧ SameStore s t := by
  have hbob (f : Fld) (v : Nat) : Fixes State.bob (stickV f v) :=
    fixes_cons (fixes_stick f fun _ _ _ _ => rfl) <| fixes_cons (fixes_whenA fun _ => rfl) fixes_nil
  refine ⟨handoverStage_filter (l := s.bob.handovers) ?_, ?_, ?_, ?_,
    (within_handoverFails (d := false) (ps := [.CAS]) rfl n reason).sameStore s⟩
  all_goals rw [handoverFails, run_look, run_chain_cons, run_chain_cons, run_chain_cons, run_chain_cons, run_chain_cons,
    run_chain_cons, run_chain_nil, run_put, run_put, run_put, run_put, run_onBob]
  · rw [put_bob, put_bob, put_bob, put_bob, hbob]
    rfl
  · rw [put_is_apart _ _ (by decide) (by decide), put_is_apart _ _ (by decide) (by decide),
      put_is_apart _ _ (by decide) (by decide), put_is_apart _ _ (by decide) (by decide)]
    exact (stickV_is CAS.STICKY.HOREFUSED _ _ rfl (by decide)).1
  · rw [put_get_apart _ _ _ _ (by decide) (by decide), put_get_apart _ _ _ _ (by decide) (by decide),
      put_get_same _ _ _ (by decide)]
    exact Nat.mod_eq_of_lt hr
  · rw [put_get_same _ _ _ (by decide)]
    exact Nat.mod_eq_of_lt hn

/-! The end of a migration. -/

/-- What the end of a migration does before the context becomes FREE. -/
def closeHandover (s : State) (n : Nat) : Act := chain [
  whenA s.linkLive (sendLink (.close (s.cx n Cx.migDst) n (s.cx n Cx.rxfc))),
  onBob fun b => { b with handovers := b.handovers.filter (·.1 != n) }]

theorem closeHandover_keeps (s : State) (n : Nat) : (Act.run (closeHandover s n) s).mem = s.mem ∧
    (Act.run (closeHandover s n) s).shu = s.shu := by
  rw [closeHandover, run_chain_cons, run_chain_cons, run_chain_nil, run_whenA]
  split
  · exact ⟨rfl, rfl⟩
  · exact ⟨rfl, rfl⟩

theorem closeHandover_sends {s : State} {n : Nat} (hlive : s.linkLive = true) :
    LinkSend.close (s.cx n Cx.migDst) n (s.cx n Cx.rxfc) ∈ (Act.run (closeHandover s n) s).cas.out := by
  rw [closeHandover, hlive, whenA_true, run_chain_cons, run_chain_cons, run_chain_nil, run_onBob]
  exact mem_sendLink _ s

theorem ctxEnter_free_cas {s : State} {n : Nat} (ho : OwnsCtx s (s.cx n Cx.vi) n) : (Act.run (ctxEnter n CtxState.free) s).cas = s.cas := by
  have hnote := fixes_noteEntry (φ := State.cas) (fun _ _ _ => rfl) (fun _ _ => rfl) (fun _ _ => rfl)
    (fixes_look fun _ => fixes_whenA fun _ => rfl) s n CtxState.free
  have hclear : Fixes State.cas (clearCtx n) := fixes_cons (fun _ => rfl) <| fixes_cons (fun _ => rfl) <|
    fixes_cons (fun _ => rfl) <| fixes_cons (fun _ => rfl) <| fixes_cons (fun _ => rfl) fixes_nil
  rw [run_ctxEnter_free ho, hclear, fixes_setCx (φ := State.cas) fun _ _ _ => rfl]
  exact hnote s

theorem ctxEnter_free_stage {s : State} {n : Nat} (ho : OwnsCtx s (s.cx n Cx.vi) n) :
    (Act.run (ctxEnter n CtxState.free) s).handoverStage n = none := by
  rw [run_ctxEnter_free ho, clearCtx, run_chain_cons, run_chain_cons, run_chain_cons, run_chain_cons, run_chain_cons,
    run_chain_nil, run_onBob]
  exact handoverStage_filter rfl

section Source

variable {s : State} {n : Fin 4096} (hmac : s.domOn Dom.mac = true)
include hmac

theorem handoverRecordSend_holds (hlive : s.linkLive = true) (hst : s.handoverStage n = some 0)
    (hslot : s.clk.asn + 1 = s.migSlot n) : Completes (.handoverRecordSend n) s fun t =>
      t.handoverStage n = some 1 ∧ t.regs = s.regs ∧ SameStore s t ∧
      LinkSend.record (s.cx n Cx.migDst) n ((List.range 32).map fun k => s.word (ctxAddr n + 4 * k)) ∈ t.cas.out := by
  have hrun : exec (.handoverRecordSend n) s = .next (Act.run (sendLink (.record (s.cx n Cx.migDst) n
      ((List.range 32).map fun k => s.word (ctxAddr n + 4 * k)))) (Act.run (setHandover n 1) s)) := by
    show act _ s = _
    rw [act_next, run_look, hmac, hst, hlive, beq_iff_eq.mpr hslot, beq_self_eq_true, Bool.and_self, Bool.and_self, Bool.and_self,
      whenA_true, run_look, run_chain_cons, run_chain_cons, run_chain_nil]
  exact ⟨_, hrun, setHandover_stage hst 1, rfl, ⟨rfl, rfl⟩, mem_sendLink _ _⟩

section Answer

variable (hlive : s.linkLive = true) (hst : s.handoverStage n = some 1)
include hlive hst

theorem exec_handoverAcceptReceive (accepted : Bool) : exec (.handoverAcceptReceive n accepted) s =
    .next (Act.run (if accepted then setHandover n 2 else handoverFails n 1) s) := by
  show act _ s = _
  rw [act_next, run_look, hmac, hst, hlive, beq_self_eq_true, Bool.and_self, Bool.and_self, whenA_true]

theorem handoverAcceptReceive_accepted : Completes (.handoverAcceptReceive n true) s fun t =>
    t.handoverStage n = some 2 ∧ t.regs = s.regs ∧ SameStore s t :=
  ⟨_, exec_handoverAcceptReceive hmac hlive hst true, setHandover_stage hst 2, rfl, rfl, rfl⟩

theorem handoverAcceptReceive_refused : Completes (.handoverAcceptReceive n false) s fun t =>
    t.handoverStage n = none ∧ t.is CAS.STICKY.HOREFUSED = true ∧ t.get CAS.HOLOG.REASON = 1 ∧
      t.get CAS.HOLOG.CTX = n ∧ SameStore s t :=
  ⟨_, exec_handoverAcceptReceive hmac hlive hst false, handoverFails_holds n.isLt (by decide) s⟩

end Answer

/-! Slot H at the source. -/

section Slot

variable (hin : ∀ x ∈ s.bob.incoming, x.1 ≠ n.val)
include hin

theorem exec_handoverSlotH_source {st : Nat} (hst : s.handoverStage n = some st) (h3 : st < 3) (hslot : s.migSlot n ≤ s.clk.asn) :
    exec (.handoverSlotH n) s = .next (Act.run (if st = 2 && ctxLive (s.ctxState n)
      then chain [setHandover n 3, ctxEnter n CtxState.migrating] else handoverFails n 2) s) := by
  have hnone : s.bob.incoming.find? (·.1 == n.val) = none := by simpa using hin
  show act _ s = _
  rw [act_next, run_look, hmac, whenA_true, hnone, hst, run_chain_cons, run_chain_cons, run_chain_nil, run_skip]
  dsimp only
  rw [decide_eq_true h3, decide_eq_true hslot, Bool.and_self, whenA_true]

theorem handoverSlotH_migrates (hst : s.handoverStage n = some 2) (hslot : s.migSlot n ≤ s.clk.asn)
    (hlive : ctxLive (s.ctxState n) = true) : Completes (.handoverSlotH n) s fun t =>
      t.ctxState n = CtxState.migrating ∧ t.handoverStage n = some 3 ∧ OnlyCtx s t n := by
  have hw := (wrote_ctxEnter (st := CtxState.migrating) (by decide) rfl n (Act.run (setHandover n 3) s)).since_mem
    (s := s) rfl
  have hbob : (Act.run (ctxEnter n CtxState.migrating) (Act.run (setHandover n 3) s)).bob = (Act.run (setHandover n 3) s).bob := by
    have hnote := fixes_noteEntry (φ := State.bob) (fun _ _ _ => rfl) (fun _ _ => rfl) (fun _ _ => rfl)
      (fixes_look fun _ => fixes_whenA fun _ => rfl) (Act.run (setHandover n 3) s) n CtxState.migrating
    rw [run_ctxEnter (by decide), fixes_setCx (φ := State.bob) fun _ _ _ => rfl]
    exact hnote _
  refine ⟨_, exec_handoverSlotH_source hmac hin hst (by decide) hslot, ?_⟩
  rw [if_pos (by simp [hlive]), run_chain_cons, run_chain_cons, run_chain_nil]
  refine ⟨hw.holds rfl rfl (by decide), ?_, hw.onlyCtx rfl⟩
  rw [State.handoverStage, hbob]
  exact setHandover_stage hst 3

theorem handoverSlotH_late {st : Nat} (hst : s.handoverStage n = some st) (h2 : st < 2) (hslot : s.migSlot n ≤ s.clk.asn) :
    Completes (.handoverSlotH n) s fun t => t.ctxState n = s.ctxState n ∧ t.handoverStage n = none ∧
      t.is CAS.STICKY.HOREFUSED = true ∧ t.get CAS.HOLOG.REASON = 2 ∧ SameStore s t := by
  obtain ⟨hgone, hsticky, hreason, -, hstore⟩ := handoverFails_holds n.isLt (by decide : 2 < 4) s
  refine ⟨_, exec_handoverSlotH_source hmac hin hst (by omega) hslot, ?_⟩
  rw [decide_eq_false (show ¬st = 2 by omega), Bool.false_and, if_neg Bool.false_ne_true]
  exact ⟨cx_of_mem hstore.1 n Cx.state, hgone, hsticky, hreason, hstore⟩

end Slot

/-! The end of the migration. -/

theorem exec_migrationEnd (hst : s.ctxState n = CtxState.migrating) (hslot : s.migSlot n + 2 ≤ s.clk.asn)
    (hf : s.frm.frames = []) :
    exec (.migrationEnd n) s = .next (Act.run (ctxEnter n CtxState.free) (Act.run (closeHandover s n) s)) := by
  show act _ s = _
  rw [act_next, run_look, hmac, hst, decide_eq_true hslot, hf, beq_self_eq_true, List.any_nil, Bool.not_false, Bool.and_self,
    Bool.and_self, Bool.and_self,
    whenA_true, run_look, run_chain_cons, run_chain_cons, run_chain_cons, run_chain_nil, closeHandover, run_chain_cons,
    run_chain_cons, run_chain_nil]

theorem migrationEnd_holds (hst : s.ctxState n = CtxState.migrating) (hslot : s.migSlot n + 2 ≤ s.clk.asn)
    (ho : OwnsCtx s (s.cx n Cx.vi) n) (hf : s.frm.frames = []) : Completes (.migrationEnd n) s fun t =>
      (∀ a, ctxAddr n ≤ a → a < ctxAddr (n + 1) → t.byte a = 0) ∧ t.handoverStage n = none ∧ OnlyCtx s t n ∧
      (s.linkLive = true → LinkSend.close (s.cx n Cx.migDst) n (s.cx n Cx.rxfc) ∈ t.cas.out) := by
  obtain ⟨hmem, hshu⟩ := closeHandover_keeps s n
  have ho' := ownsCtx_of hmem (congrArg (·.queues) hshu) ho
  obtain ⟨hzero, honly⟩ := ctxEnter_free n.isLt ho'
  refine ⟨_, exec_migrationEnd hmac hst hslot hf, hzero, ctxEnter_free_stage ho',
    onlyCtx_trans (onlyCtx_of_mem hmem n) honly, fun hlive => ?_⟩
  rw [ctxEnter_free_cas ho']
  exact closeHandover_sends hlive

end Source

/-! What the destination does with a record. -/

/-- The answer to a record. -/
def answerRecord (own : Nat) (good : Bool) : Act :=
  chain [onCas fun c => { c with reply := some good }, sendLink (.answer own good)]

theorem answerRecord_holds (own : Nat) (good : Bool) (s : State) : let t := Act.run (answerRecord own good) s
    t.cas.reply = some good ∧ LinkSend.answer own good ∈ t.cas.out ∧ t = { s with cas := t.cas } := by
  rw [answerRecord, run_chain_cons, run_chain_cons, run_chain_nil]
  exact ⟨rfl, mem_sendLink _ _, rfl⟩

/-- What accepting a record does once the keys have their places. -/
def acceptRecord (k : Nat) (l : List Nat) : Act := chain [
  onBob fun b => { b with incoming := b.incoming ++ [(k, wordField l Cx.migHh * 2 ^ 32 + wordField l Cx.migH, l)] },
  answerRecord (wordField l Cx.ownMem) true]

theorem acceptRecord_holds (k : Nat) (l : List Nat) (s : State) (e m : List (Nat × Nat)) :
    let t := Act.run (acceptRecord k l) (withKeys s e m)
    t.cas.reply = some true ∧ LinkSend.answer (wordField l Cx.ownMem) true ∈ t.cas.out ∧ t.regs = s.regs ∧ SameStore s t ∧
      t.bob.incoming = s.bob.incoming ++ [(k, wordField l Cx.migHh * 2 ^ 32 + wordField l Cx.migH, l)] := by
  rw [acceptRecord, run_chain_cons, run_chain_cons, run_chain_nil]
  generalize hu : Act.run (onBob _) (withKeys s e m) = u
  obtain ⟨hreply, hout, heq⟩ := answerRecord_holds (wordField l Cx.ownMem) true u
  dsimp only at hreply hout heq ⊢
  have hbob : (Act.run (answerRecord (wordField l Cx.ownMem) true) u).bob = u.bob := by rw [heq]
  refine ⟨hreply, hout, ?_, ?_, ?_⟩
  · rw [heq, ← hu]; rfl
  · rw [heq, ← hu]; exact ⟨rfl, rfl⟩
  · rw [hbob, ← hu]; rfl

theorem run_receiveRecord {s : State} {k : Nat} {l : List Nat} (hk : s.ctxFree = some k) (hopen : s.viOpen (wordField l Cx.vi) = true)
    (huse : s.ctxUse (wordField l Cx.vi) < s.get (ten VIF.TENB0.CTXQ (wordField l Cx.vi)))
    (hkey : wordField l Cx.ksv = 0 ∨ s.ownsKey (wordField l Cx.vi) (wordField l Cx.keySlot) = true)
    (he : s.extTaken (wordField l Cx.vi) (wordField l Cx.euiHi * 2 ^ 32 + wordField l Cx.euiLo) = false)
    (hs : s.shortTaken none (wordField l Cx.vi) (wordField l Cx.pan) (wordField l Cx.short) = false)
    (hpe : wordField l Cx.euiHi * 2 ^ 32 + wordField l Cx.euiLo ≠ 0 → (placeKey s.bob.hashKey (extKey (wordField l Cx.vi)
      (wordField l Cx.euiHi * 2 ^ 32 + wordField l Cx.euiLo)) s.bob.extKeys).isSome = true)
    (hps : wordField l Cx.short < 0xFFFE → (placeKey s.bob.hashKey (shortKey (wordField l Cx.vi) (wordField l Cx.pan)
      (wordField l Cx.short)) s.bob.shortKeys).isSome = true) :
    ∃ e m, Act.run (receiveRecord l) s = Act.run (acceptRecord k l) (withKeys s e m) := by
  have hjudged : ¬(!s.viOpen (wordField l Cx.vi) ||
      decide (s.get (ten VIF.TENB0.CTXQ (wordField l Cx.vi)) ≤ s.ctxUse (wordField l Cx.vi)) ||
      (s.extTaken (wordField l Cx.vi) (wordField l Cx.euiHi * 2 ^ 32 + wordField l Cx.euiLo) ||
        s.shortTaken none (wordField l Cx.vi) (wordField l Cx.pan) (wordField l Cx.short)) ||
      !(wordField l Cx.ksv == 0 || s.ownsKey (wordField l Cx.vi) (wordField l Cx.keySlot))) = true := by
    rw [hopen, he, hs, decide_eq_false (Nat.not_le.mpr huse)]
    obtain hkey | hkey := hkey <;> simp [hkey]
  rw [receiveRecord, run_look, hk]
  dsimp only
  rw [if_neg hjudged]
  exact run_placeBoth hpe hps

/-! The context starts at slot H. -/

/-- The words of a record, as the context's. -/
def storeRecord (n : Nat) (l : List Nat) : Act := eachA (List.range 32) fun k => setWord (ctxAddr n + 4 * k) (l.getD k 0)

theorem storeRecord_word {k : Nat} (hk : k < 32) (n : Nat) (l : List Nat) (s : State) :
    (Act.run (storeRecord n l) s).word (ctxAddr n + 4 * k) = l.getD k 0 % 2 ^ 32 := by
  obtain ⟨u, -, hu⟩ := run_eachA_at (φ := fun t => t.word (ctxAddr n + 4 * k)) (f := fun k => setWord (ctxAddr n + 4 * k) (l.getD k 0))
    List.nodup_range (List.mem_range.mpr hk) (fun j _ hj t => word_of_bytes fun i hi => setWord_byte_ne _ _ _ t (by omega)) s
  exact hu.trans (setWord_word _ _ u)

theorem onlyCtx_storeRecord (n : Nat) (l : List Nat) (s : State) : OnlyCtx s (Act.run (storeRecord n l) s) n := fun a ha => by
  have hall (m : List Nat) (hm : ∀ k ∈ m, k < 32) : ∀ s : State,
      (Act.run (eachA m fun k => setWord (ctxAddr n + 4 * k) (l.getD k 0)) s).byte a = s.byte a := by
    induction m with
    | nil => exact fun _ => rfl
    | cons k m ih =>
      intro s
      have hk := hm k List.mem_cons_self
      simp only [ctxAddr_eq] at ha
      rw [run_eachA_cons, ih fun j hj => hm j (List.mem_cons_of_mem _ hj), setWord_byte_ne _ _ _ _ (by rw [ctxAddr_eq]; omega)]
  exact hall _ (fun k hk => List.mem_range.mp hk) s

/-- A field of a stored record. -/
theorem storeRecord_cx {f : CtxFld} (hf : fitsCx f = true) (n : Nat) (l : List Nat) (s : State) :
    (Act.run (storeRecord n l) s).cx n f = wordField l f := by
  obtain ⟨hw, hlo, hhi⟩ := fitsCx_iff.mp hf
  rw [State.cx, State.wordBits, storeRecord_word hw, wordField, bits, bits]
  apply Nat.eq_of_testBit_eq
  intro j
  simp only [Nat.testBit_mod_two_pow, Nat.testBit_div_two_pow]
  by_cases hj : j < f.hi - f.lo + 1
  · simp [hj, show j + f.lo < 32 by omega]
  · simp [hj]

/-- What the destination then changes in the context. -/
def startStores (s : State) (l : List Nat) : Stores := [(Cx.gen, (wordField l Cx.gen + 1) % 65536), (Cx.ownMem, s.member),
  (Cx.learnt, 0), (Cx.txfc, min (wordField l Cx.txfc + 16) 0xFFFFFFFF), (Cx.adjRef, s.get BOB.ADJACC.ACC), (Cx.qhead, 0),
  (Cx.qtail, 0), (Cx.pending, 0)]

theorem wrote_startIncoming (n : Nat) (l : List Nat) (s : State) :
    Wrote n (startStores s l) (Act.run (storeRecord n l) s) (Act.run (startIncoming n l) s) := by
  rw [startIncoming, run_look, run_chain_cons]
  refine wrote_chain_setCx (wrote_chain_setCx <| wrote_chain_setCx <| wrote_chain_setCx <| wrote_chain_setCx <|
    wrote_chain_setCx <| wrote_chain_setCx <| wrote_chain_setCx fun u => ?_) _
  rw [run_chain_cons, run_chain_cons, run_chain_nil, run_onBob]
  exact (wrote_nil (resetBackoff_mem (wordField l Cx.vi) n u)).then_mem (bob_mem _ _)

/-! The frame counter once both slots have ended. -/

theorem foldl_max_lt {l : List Nat} {b : Nat} (h : ∀ x ∈ l, x < b) {m : Nat} (hm : m < b) : l.foldl max m < b := by
  induction l generalizing m with
  | nil => exact hm
  | cons x l ih => exact ih (fun y hy => h y (List.mem_cons_of_mem _ hy)) (max_lt hm (h x List.mem_cons_self))

/-- The counters that a context's RXFC is raised to the largest of. -/
def countersOf (s : State) (p : RelaySet) (more : List Nat) : List Nat :=
  (if s.cx p.ctx Cx.rxfcv = 1 then [s.cx p.ctx Cx.rxfc] else []) ++ p.base.toList ++ p.got ++ more

theorem wrote_raiseRxfc (p : RelaySet) (c : Nat) (s : State) :
    Wrote p.ctx [(Cx.rxfc, (countersOf s p [c]).foldl max 0), (Cx.rxfcv, 1)] s (Act.run (raiseRxfc p [c]) s) := by
  have hall : (if s.cx p.ctx Cx.rxfcv == 1 then [s.cx p.ctx Cx.rxfc] else []) ++ p.base.toList ++ p.got ++ [c] =
      countersOf s p [c] := by simp only [countersOf, beq_iff_eq]
  have hsome : (countersOf s p [c]).isEmpty = false := by simp [countersOf]
  rw [raiseRxfc, run_look]
  dsimp only
  rw [hall, hsome, Bool.not_false, whenA_true, run_chain_cons, run_chain_cons, run_chain_nil]
  exact wrote_two _ _ _ _ _ s

/-! The destination: the record, and its context at slot H. -/

section Destination

variable {s : State} {n : Fin 4096} (hmac : s.domOn Dom.mac = true)
include hmac

section Record

variable (hlive : s.linkLive = true) {words : List Word} (hlen : words.length = 32)
include hlive hlen

theorem exec_handoverRecordReceive : exec (.handoverRecordReceive words) s =
    .next (Act.run (receiveRecord (words.map (·.toNat))) s) := by
  show act _ s = _
  rw [act_next, run_look, hmac, hlive, beq_iff_eq.mpr hlen, Bool.and_self, Bool.and_self, whenA_true]

theorem handoverRecordReceive_full (hk : s.ctxFree = none) : Completes (.handoverRecordReceive words) s fun t =>
    t.cas.reply = some false ∧ LinkSend.answer (wordField (words.map (·.toNat)) Cx.ownMem) false ∈ t.cas.out ∧
      t = { s with cas := t.cas } := by
  refine ⟨_, exec_handoverRecordReceive hmac hlive hlen, ?_⟩
  have hrun : Act.run (receiveRecord (words.map (·.toNat))) s =
      Act.run (answerRecord (wordField (words.map (·.toNat)) Cx.ownMem) false) s := by
    rw [receiveRecord, run_look, hk]
    rfl
  rw [hrun]
  exact answerRecord_holds _ _ s

theorem handoverRecordReceive_accepted {k : Nat} (hk : s.ctxFree = some k) :
    let l := words.map (·.toNat)
    let v := wordField l Cx.vi
    let eui := wordField l Cx.euiHi * 2 ^ 32 + wordField l Cx.euiLo
    s.viOpen v = true → s.ctxUse v < s.get (ten VIF.TENB0.CTXQ v) →
    (wordField l Cx.ksv = 0 ∨ s.ownsKey v (wordField l Cx.keySlot) = true) → s.extTaken v eui = false →
    s.shortTaken none v (wordField l Cx.pan) (wordField l Cx.short) = false →
    (eui ≠ 0 → (placeKey s.bob.hashKey (extKey v eui) s.bob.extKeys).isSome = true) →
    (wordField l Cx.short < 0xFFFE →
      (placeKey s.bob.hashKey (shortKey v (wordField l Cx.pan) (wordField l Cx.short)) s.bob.shortKeys).isSome = true) →
    Completes (.handoverRecordReceive words) s fun t =>
      t.cas.reply = some true ∧ LinkSend.answer (wordField l Cx.ownMem) true ∈ t.cas.out ∧ t.regs = s.regs ∧
        SameStore s t ∧ t.bob.incoming = s.bob.incoming ++ [(k, wordField l Cx.migHh * 2 ^ 32 + wordField l Cx.migH, l)] := by
  intro l v eui hopen huse hkey he hs hpe hps
  obtain ⟨e, m, hrun⟩ := run_receiveRecord hk hopen huse hkey he hs hpe hps
  refine ⟨_, exec_handoverRecordReceive hmac hlive hlen, ?_⟩
  rw [hrun]
  exact acceptRecord_holds k l s e m

end Record

theorem closeRecord_holds (hlive : s.linkLive = true) (rxfc : Word) (hseen : s.bob.seen.any (·.ctx == n.val) = true) :
    Completes (.closeRecord n rxfc) s fun t =>
      t.bob.closes = s.bob.closes.filter (·.1 != n.val) ++ [(n.val, rxfc.toNat)] ∧ t = { s with bob := t.bob } := by
  have hrun : exec (.closeRecord n rxfc) s = .next (Act.run (onBob fun b => { b with
      closes := b.closes.filter (·.1 != n.val) ++ [(n.val, rxfc.toNat)] }) s) := by
    show act _ s = _
    rw [act_next, run_look, hmac, hlive, hseen, Bool.and_self, Bool.and_self, whenA_true]
  exact ⟨_, hrun, rfl, rfl⟩

theorem handoverSlotH_starts {x : Nat × Nat × List Nat} (hx : s.bob.incoming.find? (·.1 == n.val) = some x)
    (hslot : x.2.1 ≤ s.clk.asn) (hst : s.handoverStage n = none) : Completes (.handoverSlotH n) s fun t =>
      t.ctxState n = wordField x.2.2 Cx.state ∧ t.cx n Cx.gen = (wordField x.2.2 Cx.gen + 1) % 65536 ∧
      t.cx n Cx.ownMem = s.member ∧ t.cx n Cx.learnt = 0 ∧ t.cx n Cx.pending = 0 ∧
      t.cx n Cx.txfc = min (wordField x.2.2 Cx.txfc + 16) 0xFFFFFFFF ∧ OnlyCtx s t n := by
  have hw := wrote_startIncoming n x.2.2 s
  have hrun : exec (.handoverSlotH n) s = .next (Act.run (startIncoming n x.2.2) s) := by
    show act _ s = _
    rw [act_next, run_look, hmac, whenA_true, hx, hst, run_chain_cons, run_chain_cons, run_chain_nil, run_skip]
    dsimp only
    rw [decide_eq_true hslot, whenA_true]
  have hgen : (wordField x.2.2 Cx.gen + 1) % 65536 < 2 ^ 16 := Nat.mod_lt _ (by decide)
  have hmember : s.member < 2 ^ 3 := get_lt s CAS.STAT.MEMBER
  have htxfc : min (wordField x.2.2 Cx.txfc + 16) 0xFFFFFFFF < 2 ^ 32 := by omega
  exact ⟨_, hrun, (hw.keeps rfl).trans (storeRecord_cx rfl n _ s), hw.holds rfl rfl hgen, hw.holds rfl rfl hmember,
    hw.holds rfl rfl (by decide), hw.holds rfl rfl (by decide), hw.holds rfl rfl htxfc,
    onlyCtx_trans (onlyCtx_storeRecord n _ s) (hw.onlyCtx rfl)⟩

/-- The set of a handover's two slots and the close record are done with. -/
def forgetSlots (n : Nat) : Act := onBob fun b => { b with
  seen := b.seen.filter (·.ctx != n)
  closes := b.closes.filter (·.1 != n) }

theorem rxfcReconcile_holds {p : RelaySet} {c : Nat} (hp : s.bob.seen.find? (·.ctx == n.val) = some p)
    (hc : s.bob.closes.find? (·.1 == n.val) = some (n.val, c)) (hlt : c < 2 ^ 32)
    (hall : ∀ x ∈ p.base.toList ++ p.got, x < 2 ^ 32) (hslot : s.migSlot n + 2 ≤ s.clk.asn) :
    Completes (.rxfcReconcile n) s fun t => t.cx n Cx.rxfc =
      ((if s.cx n Cx.rxfcv = 1 then [s.cx n Cx.rxfc] else []) ++ p.base.toList ++ p.got ++ [c]).foldl max 0 ∧
      t.cx n Cx.rxfcv = 1 ∧ (∀ x ∈ t.bob.seen, x.ctx ≠ n.val) ∧ OnlyCtx s t n := by
  have hctx : p.ctx = n.val := by simpa using List.find?_some hp
  have hrun : exec (.rxfcReconcile n) s = .next (Act.run (forgetSlots n) (Act.run (raiseRxfc p [c]) s)) := by
    show act _ s = _
    rw [act_next, run_look, hp]
    dsimp only
    rw [hc, hmac, decide_eq_true hslot, Option.map_some, Option.isSome_some, Bool.true_or, Bool.and_self, Bool.and_self, whenA_true,
      run_chain_cons, run_chain_cons, run_chain_nil]
    rfl
  have hw := (wrote_raiseRxfc p c s).then_mem (u := Act.run (forgetSlots n) (Act.run (raiseRxfc p [c]) s)) (bob_mem _ _)
  rw [hctx, countersOf, hctx] at hw
  have hbound : ((if s.cx n Cx.rxfcv = 1 then [s.cx n Cx.rxfc] else []) ++ p.base.toList ++ p.got ++ [c]).foldl max 0 < 2 ^ 32 := by
    refine foldl_max_lt (fun x hx => ?_) (by decide)
    rw [List.mem_append, List.mem_append, List.mem_append, List.mem_singleton] at hx
    obtain ((hx | hx) | hx) | rfl := hx
    · split at hx
      · exact List.mem_singleton.mp hx ▸ cx_lt s n Cx.rxfc
      · cases hx
    · exact hall x (List.mem_append_left _ hx)
    · exact hall x (List.mem_append_right _ hx)
    · exact hlt
  refine ⟨_, hrun, hw.holds rfl rfl hbound, hw.holds rfl rfl (by decide), fun x hx => ?_, hw.onlyCtx rfl⟩
  have := (List.mem_filter.mp hx).2
  simpa using this

end Destination

end Sys2Proof.Proofs
end

section
/-! A frame relayed by the source of a handover: its arrival under a lane of its own, its verdict, and what becomes of it (R253,
R324). -/

namespace Sys2Proof.Proofs

open Sys2Proof.Machine Sys2Proof.Laws

/-! The frame of a lane. -/

/-- A frame is the only one under its lane, in the lane's first buffer. -/
def OnlyAt (s : State) (l : Nat) (x : RxFrame) : Prop := framesAt s l 0 = [x] ∧ ∀ y ∈ s.frm.frames, y.lane = l → y.buf = 0

section Alone

variable {s t : State} {l : Nat} {x y : RxFrame}

theorem OnlyAt.frameAt (h : OnlyAt s l x) : s.frameAt l 0 = some x := by rw [frameAt_eq_head, h.1, List.head?_cons]

theorem OnlyAt.place (h : OnlyAt s l x) : x.lane = l ∧ x.buf = 0 := place_of_frameAt h.frameAt

theorem OnlyAt.of_frm (h : OnlyAt s l x) (ht : t.frm = s.frm) : OnlyAt t l x := by
  refine ⟨(framesAt_of_frm ht l 0).trans h.1, ?_⟩
  rw [ht]
  exact h.2

theorem onlyAt_arrival (hnone : ∀ y ∈ s.frm.frames, y.lane ≠ l) (hl : x.lane = l) (hb : x.buf = 0) :
    OnlyAt (Act.run (onFrm fun q => { q with frames := q.frames ++ [x] }) s) l x := by
  have hframes : (Act.run (onFrm fun q => { q with frames := q.frames ++ [x] }) s).frm.frames = s.frm.frames ++ [x] := rfl
  refine ⟨?_, fun y hy hyl => ?_⟩
  · have hold : s.frm.frames.filter (fun y => y.lane == l && y.buf == 0) = [] :=
      List.filter_eq_nil_iff.mpr fun y hy => by simp [hnone y hy]
    rw [framesAt, hframes, List.filter_append, hold, List.nil_append, List.filter_cons_of_pos (by simp [hl, hb]), List.filter_nil]
  · rw [hframes, List.mem_append, List.mem_singleton] at hy
    obtain hy | rfl := hy
    · exact absurd hyl (hnone y hy)
    · exact hb

theorem OnlyAt.onFrame {g : RxFrame → RxFrame} (h : OnlyAt s l x) (hg : SamePlace g) :
    OnlyAt (Act.run (onFrame l 0 g) s) l (g x) := by
  refine ⟨by rw [framesAt_onFrame hg, h.1, List.map_singleton], fun y hy hyl => ?_⟩
  obtain ⟨z, hz, rfl⟩ := List.mem_map.mp (show y ∈ s.frm.frames.map _ from hy)
  split at hyl
  · rw [if_pos ‹_›, (hg z).2]
    exact h.2 z hz ((hg z).1 ▸ hyl)
  · rw [if_neg ‹_›]
    exact h.2 z hz hyl

/-- Once nothing waits on the frame, no frame is left under its lane. -/
theorem OnlyAt.released (h : OnlyAt s l x) (hdone : RxFrame.isDone x = true) :
    ∀ y ∈ (Act.run (releaseIfDone l 0) s).frm.frames, y.lane ≠ l := by
  have hq : Quiet (chain [whenA (l < 128) (chain [showBuffers l,
      look fun s => whenA (s.laneState l == 3) (chain [settleLane l, laneFreed l])])] ·) := by fun_prop
  rw [run_releaseIfDone, h.frameAt, Option.any_some, if_pos hdone, emptyBuffer, run_chain_cons, hq.frm]
  intro y hy hyl
  obtain ⟨hy, hplace⟩ := List.mem_filter.mp (show y ∈ s.frm.frames.filter _ from hy)
  simp [hyl, h.2 y hy hyl] at hplace

theorem OnlyAt.discarded (h : OnlyAt s l x) : ∀ y ∈ (Act.run (discardFrame x) s).frm.frames, y.lane ≠ l := by
  obtain ⟨hl, hb⟩ := h.place
  rw [discardFrame, hl, hb, run_chain_cons, run_chain_cons, run_chain_cons, run_chain_cons, run_chain_nil, frameDone, hl, hb,
    cancelCopies]
  refine (((h.onFrame ?_).onFrame ?_).onFrame ?_).released ?_
  · exact fun _ => ⟨rfl, rfl⟩
  · exact fun _ => ⟨rfl, rfl⟩
  · exact fun _ => ⟨rfl, rfl⟩
  · simp [RxFrame.isDone]

end Alone

/-! Ring space for the copies of a frame (R187). -/

/-- A frame but for its reservations, its copies and whether one was lost. -/
def ButForCopies (x y : RxFrame) : Prop := ∃ resv copies nacked, y = { x with resv, copies, nacked }

theorem ButForCopies.malformed {x y : RxFrame} (h : ButForCopies x y) : y.malformed = x.malformed := by
  obtain ⟨_, _, _, rfl⟩ := h
  rfl

theorem ButForCopies.trans {x y z : RxFrame} (h : ButForCopies x y) (h' : ButForCopies y z) : ButForCopies x z := by
  obtain ⟨_, _, _, rfl⟩ := h
  obtain ⟨_, _, _, rfl⟩ := h'
  exact ⟨_, _, _, rfl⟩

@[fun_prop] theorem quiet_dropCopy (v : Nat) : Quiet (dropCopy v ·) := by
  unfold dropCopy
  fun_prop

theorem OnlyAt.reserveCopy {s : State} {l : Nat} {x : RxFrame} (h : OnlyAt s l x) (v : Nat) :
    ∃ y, OnlyAt (Act.run (reserveCopy l 0 v) s) l y ∧ ButForCopies x y := by
  rw [Machine.reserveCopy, run_withFrame h.frameAt, run_look]
  dsimp only
  split
  · refine ⟨_, h.onFrame ?_, _, _, _, rfl⟩
    exact fun _ => ⟨rfl, rfl⟩
  · rw [run_chain_cons, run_chain_cons, run_chain_nil]
    refine ⟨_, (h.of_frm ((quiet_dropCopy v).frm s)).onFrame ?_, _, _, _, rfl⟩
    exact fun _ => ⟨rfl, rfl⟩

theorem OnlyAt.reserveCopies {l : Nat} (vis : List Nat) {s : State} {x : RxFrame} (h : OnlyAt s l x) :
    ∃ y, OnlyAt (Act.run (eachA vis fun v => Machine.reserveCopy l 0 v) s) l y ∧ ButForCopies x y := by
  induction vis generalizing s x with
  | nil => exact ⟨x, h, _, _, _, rfl⟩
  | cons v vis ih =>
    obtain ⟨y, hy, hxy⟩ := h.reserveCopy v
    obtain ⟨z, hz, hyz⟩ := ih hy
    refine ⟨z, ?_, hxy.trans hyz⟩
    rwa [run_eachA_cons]

/-! The memory. -/

section Store

variable {d : Bool} {ps : List Page}

@[fun_prop] theorem within_reserveCopy (l b v : Nat) (h : ps.contains .FRM = true) : Within d ps (reserveCopy l b v ·) := by
  unfold reserveCopy dropCopy
  fun_prop (disch := assumption)

@[fun_prop] theorem within_discardFrame (f : RxFrame) (hd : ps.contains .DMD = true) (hc : ps.contains .CHZ = true)
    (hf : ps.contains .FEC = true) : Within d ps (discardFrame f ·) := by
  unfold discardFrame frameDone
  fun_prop (disch := assumption)

end Store

/-! The verdict of a frame of an ACTIVE context (R166 to R169). -/

/-- The VIs that accept a frame. -/
def acceptingVis (s : State) (m : Mac) : List Nat := (List.range 16).filter fun v => s.viAccepts v m false

/-- The verdict of a frame of context `k`, with no acknowledgement due. -/
def hitVerdict (s : State) (m : Mac) (k : Nat) : Verdict := ⟨((acceptingVis s m).map (2 ^ ·)).sum, false, 1, k⟩

/-- The bit of every VI that accepts a frame is set in the verdict's mask. -/
theorem bitOf_hitVerdict {s : State} {m : Mac} {v : Nat} (hv : v < 16) (h : s.viAccepts v m false = true) (k : Nat) :
    bitOf (hitVerdict s m k).vis v = 1 := by
  have hsorted : (acceptingVis s m).SortedLT := (List.pairwise_lt_range.filter _).sortedLT
  have hmem : v ∈ acceptingVis s m := List.mem_filter.mpr ⟨List.mem_range.mpr hv, h⟩
  rw [← Nat.bitIndices_sum_map_two_pow hsorted, Nat.mem_bitIndices] at hmem
  rw [bitOf_eq_toNat_testBit, hitVerdict, hmem]
  rfl

/-- A frame of an ACTIVE context that its VI accepts, found by its extended address. -/
structure FromContext (s : State) (f : RxFrame) (k : Nat) : Prop where
  whole : (f.mac.badFc || f.mac.cut) = false
  sound : f.malformed = false
  kind : f.mac.kind ≠ 2
  accepted : s.viAccepts f.vi f.mac false = true
  vi : f.vi < 16
  extended : f.mac.sm = 3
  source : f.mac.src = some (s.ctxEui k)
  found : s.findExt f.vi (s.ctxEui k) = some k
  active : s.ctxState k = CtxState.active

section Verdict

variable {s : State} {l k : Nat} {f : RxFrame}

theorem FromContext.onFrm (hf : FromContext s f k) (g : FrmSt → FrmSt) : FromContext (Act.run (onFrm g) s) f k :=
  ⟨hf.whole, hf.sound, hf.kind, hf.accepted, hf.vi, hf.extended, hf.source, hf.found, hf.active⟩

/-- The sender of a frame is an ACTIVE context. -/
theorem run_lookupSender {v a : Nat} {m : Mac} (hsrc : m.src = some a) (hsm : m.sm = 3) (hfind : s.findExt v a = some k)
    (hst : s.ctxState k = CtxState.active) (asn : Nat) (next : Nat → Nat → Act) :
    Act.run (lookupSender v m asn next) s = Act.run (next 1 k) s := by
  rw [lookupSender, run_look, hsrc]
  dsimp only
  rw [hsm, beq_self_eq_true, if_pos rfl, hfind]
  dsimp only
  rw [hst, if_pos (by decide), if_neg (by decide)]

/-- A whole frame with a verdict. -/
def withVerdict (w : Verdict) (x : RxFrame) : RxFrame := { x with verdict := some w, hdrBad := false, toRelay := false }

/-- The frame takes its verdict, and its copies take ring space. -/
theorem run_giveVerdict (hf : FromContext s f k) (hcell : f.cell = none) (h : OnlyAt s l f) :
    Act.run (giveVerdict l 0) s = Act.run (eachA (acceptingVis s f.mac) fun v => reserveCopy l 0 v)
      (Act.run (onFrame l 0 (withVerdict (hitVerdict s f.mac k))) s) := by
  have hin : ((List.range 16).filter fun v => s.viAccepts v f.mac false).contains f.vi = true :=
    List.contains_iff_mem.mpr (List.mem_filter.mpr ⟨List.mem_range.mpr hf.vi, hf.accepted⟩)
  have hwanted : s.ackWanted f f.mac = false := by simp [State.ackWanted, hcell]
  rw [giveVerdict, run_withFrame h.frameAt, run_look]
  dsimp only
  rw [hf.whole, hin, bne_iff_ne.mpr hf.kind, Bool.not_false, Bool.and_self, Bool.and_self, if_pos rfl,
    run_lookupSender hf.source hf.extended hf.found hf.active, run_look, hf.active, hwanted]
  rw [show (CtxState.active == CtxState.migrating) = false from rfl]
  simp only [Bool.and_false, Bool.false_and, Bool.not_false]
  rw [whenA_true, run_chain_cons, run_chain_cons, run_chain_nil]
  unfold hitVerdict acceptingVis withVerdict
  rfl

end Verdict

/-! The arrival. -/

/-- A frame with nothing wrong in it stays as it is. -/
theorem run_findMalformed_sound {s : State} {l : Nat} {x : RxFrame} (h : OnlyAt s l x) (hx : x.malformed = false) :
    Act.run (findMalformed l 0) s = s := by
  rw [findMalformed, run_withFrame h.frameAt, run_look, hx, Bool.and_false, whenA_false, run_skip]

/-- A relayed frame stands under its lane with its verdict, and memory is as it was. -/
theorem admitRelayed_holds {s : State} {l k : Nat} {r : RelayFrame} (hnone : ∀ x ∈ s.frm.frames, x.lane ≠ l)
    (hf : FromContext s (r.arrived l) k) : let t := Act.run (admitRelayed r l) s
    SameStore s t ∧ ∃ x, OnlyAt t l x ∧ ButForCopies { r.arrived l with verdict := some (hitVerdict s (r.arrived l).mac k) } x := by
  have harrived := onlyAt_arrival (x := r.arrived l) hnone rfl rfl
  have hgive := run_giveVerdict (hf.onFrm fun q => { q with frames := q.frames ++ [r.arrived l] }) rfl harrived
  have hgiven := harrived.onFrame (g := withVerdict (hitVerdict s (r.arrived l).mac k)) fun _ => ⟨rfl, rfl⟩
  obtain ⟨x, hx, hbut⟩ := hgiven.reserveCopies (acceptingVis s (r.arrived l).mac)
  intro t
  have ht : t = Act.run (eachA (acceptingVis s (r.arrived l).mac) fun v => reserveCopy l 0 v)
      (Act.run (onFrame l 0 (withVerdict (hitVerdict s (r.arrived l).mac k)))
        (Act.run (onFrm fun q => { q with frames := q.frames ++ [r.arrived l] }) s)) := by
    show Act.run (admitRelayed r l) s = _
    rw [admitRelayed, run_chain_cons, run_chain_cons, run_chain_cons, run_chain_nil, hgive]
    exact run_findMalformed_sound hx (hbut.malformed.trans hf.sound)
  rw [ht]
  have hw : Within false [.FRM] (eachA (acceptingVis s (r.arrived l).mac) (reserveCopy l 0 ·) ·) := by
    fun_prop (disch := rfl)
  exact ⟨hw.sameStore _, x, hx, hbut⟩

/-! What a context that is heard keeps of it (R228, R229). -/

/-- The stores of a context that is heard. -/
def heardStores (s : State) (k asn : Nat) (rssi : Int) (lqi : Nat) : Stores := [(Cx.lastAsn, asn % 2 ^ 32),
  (Cx.lastAsnH, asn / 2 ^ 32 % 256), (Cx.rssi, ofS 8 rssi), (Cx.lqi, lqi),
  (Cx.rxFrames, min (s.cx k Cx.rxFrames + 1) (2 ^ 32 - 1)), (Cx.noackRun, 0)]

theorem wrote_ctxHeard {s : State} {k : Nat} (hst : s.ctxState k = CtxState.active) (asn : Nat) (rssi : Int) (lqi : Nat) :
    Wrote k (heardStores s k asn rssi lqi) s (Act.run (ctxHeard k asn rssi lqi) s) := by
  have hfirst := ((wrote_setLastAsn k asn s).trans (wrote_setCx k Cx.rssi (ofS 8 rssi) _)).trans (wrote_setCx k Cx.lqi lqi _)
  rw [ctxHeard, run_look, hst, show (CtxState.active == CtxState.suspect) = false from rfl, whenA_false, run_chain_cons,
    run_chain_cons, run_chain_cons, run_chain_cons, run_chain_cons, run_chain_cons, run_chain_nil, run_skip, countCx, run_look,
    hfirst.keeps rfl]
  exact (hfirst.trans (wrote_setCx k Cx.rxFrames _ _)).trans (wrote_setCx k Cx.noackRun 0 _)

/-! The frame engine takes the frame over. -/

section Taken

variable {s : State} {l k : Nat} {x : RxFrame}

/-- A frame without a cell is heard by its context alone. -/
theorem run_frameHeard (hheld : s.stillHeld k x.vi = true) (hcell : x.cell = none) :
    Act.run (frameHeard x k false) s = Act.run (ctxHeard k x.asn x.rssi x.lqi) s := by
  rw [frameHeard, run_look]
  dsimp only
  rw [hheld, whenA_true, hcell, Bool.false_and, Bool.false_and, whenA_false, whenA_false, run_chain_cons, run_chain_cons,
    run_chain_cons, run_chain_cons, run_chain_nil, run_skip, run_skip, run_skip]

theorem beaconTaken_mem (x : RxFrame) (k : Nat) (plain : List Nat) (s : State) :
    (Act.run (beaconTaken x k plain) s).mem = s.mem := by
  rw [beaconTaken, run_look, run_whenA]
  split
  · rfl
  · rfl

/-- A frame with no acknowledgement due is processed. -/
theorem onlyAt_done (h : OnlyAt s l x) (hclass : x.classP = false) (status : Nat) (plain : List Nat) :
    ∃ y, OnlyAt (Act.run (frameDone x status false true plain) (Act.run (onFrame l 0 fun y => { y with awaits := false }) s)) l y ∧
      y.stage = 3 ∧ y.status = status ∧ y.plain = plain ∧ y.ackRequired = false := by
  obtain ⟨hl, hb⟩ := h.place
  rw [frameDone, hl, hb]
  refine ⟨_, (h.onFrame ?_).onFrame ?_, rfl, rfl, rfl, hclass⟩
  · exact fun _ => ⟨rfl, rfl⟩
  · exact fun _ => ⟨rfl, rfl⟩

theorem run_takeFrame (h : OnlyAt s l x) (hbad : x.hdrBad = false) (hrelay : x.toRelay = false) (hkind : x.mac.kind ≠ 2) :
    Act.run (takeFrame l 0) s = Act.run (releaseIfDone l 0) (Act.run (startProcessing x)
      (Act.run (onFrame l 0 fun y => { y with awaits := false }) s)) := by
  rw [takeFrame, run_chain_cons, run_chain_cons, run_chain_cons, run_chain_nil, run_withFrame h.frameAt, run_look, hbad, Bool.false_and,
    whenA_false, run_skip, run_withFrame h.frameAt, run_look, hrelay, if_neg Bool.false_ne_true, hbad, beq_eq_false_iff_ne.mpr hkind,
    Bool.and_false, if_neg Bool.false_ne_true, run_chain_cons, run_chain_cons, run_chain_nil]

theorem run_startProcessing {w : Verdict} (hw : x.verdict = some w) (hbad : x.hdrBad = false) (hbit : bitOf w.vis x.vi = 1)
    (hres : w.res = 1) (hsec : x.mac.sec = false) : Act.run (startProcessing x) s =
      Act.run (beaconTaken x w.ctx x.body) (Act.run (frameHeard x w.ctx false)
        (Act.run (frameDone x Status.ok false true x.octets) s)) := by
  rw [startProcessing, run_look]
  dsimp only
  rw [hw]
  dsimp only
  rw [hbad, hbit, hres, hsec, if_neg (by decide), if_neg (by decide), if_neg (by decide), if_pos (by decide), run_chain_cons,
    run_chain_cons, run_chain_nil, if_pos (by decide), run_chain_cons, run_chain_cons, run_chain_nil]

/-- The frame of an ACTIVE context, not secured and with no acknowledgement due, is ready for delivery, and the context is
heard. -/
theorem takeFrame_holds {vis : Nat} (h : OnlyAt s l x) (hw : x.verdict = some ⟨vis, false, 1, k⟩) (hbad : x.hdrBad = false)
    (hrelay : x.toRelay = false) (hkind : x.mac.kind ≠ 2) (hbit : bitOf vis x.vi = 1) (hsec : x.mac.sec = false)
    (hcell : x.cell = none) (hvi : s.cx k Cx.vi = x.vi) (hst : s.ctxState k = CtxState.active) :
    let t := Act.run (takeFrame l 0) s
    Wrote k (heardStores s k x.asn x.rssi x.lqi) s t ∧
      atBuffer t l 0 fun y => y.stage = 3 ∧ y.status = Status.ok ∧ y.plain = x.octets ∧ y.ackRequired = false := by
  obtain ⟨hl, hb⟩ := h.place
  have hheld : s.stillHeld k x.vi = true := by rw [State.stillHeld, hst, hvi, beq_self_eq_true]; rfl
  have hclass : x.classP = false := by rw [RxFrame.classP, hw]; rfl
  obtain ⟨y, hy, hready⟩ := onlyAt_done h hclass Status.ok x.octets
  dsimp only
  rw [run_takeFrame h hbad hrelay hkind, run_startProcessing hw hbad hbit rfl hsec]
  generalize hu : Act.run (frameDone x Status.ok false true x.octets) _ = u at hy ⊢
  have hmem : u.mem = s.mem := by rw [← hu]; rfl
  refine ⟨?_, atBuffer_releaseIfDone (atBuffer_iff.mpr fun z hz => ?_)⟩
  · have hrelease : Within false [.DMD, .CHZ, .FEC] (releaseIfDone l 0 ·) := by fun_prop (disch := rfl)
    have hheard := wrote_ctxHeard ((cx_of_mem hmem k Cx.state).trans hst) x.asn x.rssi x.lqi
    rw [heardStores, cx_of_mem hmem, ← heardStores] at hheard
    rw [run_frameHeard (by rw [State.stillHeld, State.ctxState, cx_of_mem hmem, cx_of_mem hmem]; exact hheld) hcell]
    exact ((hheard.since_mem hmem.symm).then_mem (beaconTaken_mem ..)).then_mem (hrelease.sameStore _).1
  · rw [framesAt_of_frm ((quiet_beaconTaken _ _ _).frm _), framesAt_of_frm ((quiet_frameHeard _ _ _).frm _), hy.1,
      List.mem_singleton] at hz
    exact hz ▸ hready

end Taken

/-! The relayed frame (R253, R324). -/

section Relayed

variable {s : State} {k : Nat} {r : RelayFrame} (hnone : ∀ x ∈ s.frm.frames, x.lane ≠ s.relayLane r.lane)
  (hf : FromContext s (r.arrived (s.relayLane r.lane)) k)
include hnone hf

/-- After the arrival the generation tag decides. -/
theorem run_relayedFrame (gen : Nat) : let l := s.relayLane r.lane
    let t := Act.run (admitRelayed r l) s
    SameStore s t ∧ ∃ x, OnlyAt t l x ∧ ButForCopies { r.arrived l with verdict := some (hitVerdict s (r.arrived l).mac k) } x ∧
      Act.run (relayedFrame r gen) s = Act.run (if s.cx k Cx.gen != gen then
        chain [stickV BOB.STICKY.STALEGEN x.vi, discardFrame x] else takeFrame l 0) t := by
  obtain ⟨hstore, x, hx, hbut⟩ := admitRelayed_holds hnone hf
  refine ⟨hstore, x, hx, hbut, ?_⟩
  have hverdict : x.verdict = some (hitVerdict s (r.arrived (s.relayLane r.lane)).mac k) := by
    obtain ⟨_, _, _, rfl⟩ := hbut
    rfl
  rw [relayedFrame, run_look, run_chain_cons, run_chain_cons, run_chain_nil, run_withFrame hx.frameAt, run_look, hverdict]
  dsimp only
  rw [hitVerdict, cx_of_mem hstore.1, beq_self_eq_true, Bool.true_and]

/-- A frame with the tag of its context is delivered. -/
theorem relayedFrame_taken (hsec : (r.arrived (s.relayLane r.lane)).mac.sec = false) :
    let t := Act.run (relayedFrame r (s.cx k Cx.gen)) s
    Wrote k (heardStores s k r.asn r.rssi r.lqi) s t ∧ atBuffer t (s.relayLane r.lane) 0 fun y =>
      y.stage = 3 ∧ y.status = Status.ok ∧ y.plain = r.octets ∧ y.ackRequired = false := by
  obtain ⟨hstore, x, hx, hbut, hrun⟩ := run_relayedFrame hnone hf (s.cx k Cx.gen)
  have hheld : s.cx k Cx.vi = r.vi := by
    have hfound := hf.found
    rw [State.findExt] at hfound
    split at hfound
    · cases hfound
    · have := List.find?_some hfound
      rw [Bool.and_eq_true, beq_iff_eq] at this
      exact this.1
  dsimp only
  rw [hrun, bne_self_eq_false, if_neg Bool.false_ne_true]
  obtain ⟨_, _, _, rfl⟩ := hbut
  obtain ⟨hwrote, hat⟩ := takeFrame_holds hx rfl rfl rfl hf.kind (bitOf_hitVerdict hf.vi hf.accepted k) hsec rfl
    ((cx_of_mem hstore.1 k Cx.vi).trans hheld) ((cx_of_mem hstore.1 k Cx.state).trans hf.active)
  rw [heardStores, cx_of_mem hstore.1, ← heardStores] at hwrote
  exact ⟨hwrote.since_mem hstore.1.symm, hat⟩

/-- A frame with another tag is dropped. -/
theorem relayedFrame_stale {gen : Nat} (hgen : s.cx k Cx.gen ≠ gen) : let t := Act.run (relayedFrame r gen) s
    t.is BOB.STICKY.STALEGEN = true ∧ (∀ x ∈ t.frm.frames, x.lane ≠ s.relayLane r.lane) ∧ t.mem = s.mem := by
  obtain ⟨hstore, x, hx, -, hrun⟩ := run_relayedFrame hnone hf gen
  have hw : Within false [.DMD, .CHZ, .FEC] (discardFrame x ·) := by fun_prop (disch := rfl)
  have hstick : Within false [.BOB] (stickV BOB.STICKY.STALEGEN x.vi ·) := by fun_prop (disch := rfl)
  dsimp only
  rw [hrun, if_pos (bne_iff_ne.mpr hgen), run_chain_cons, run_chain_cons, run_chain_nil]
  refine ⟨?_, (hx.of_frm ((quiet_stickV _ _).frm _)).discarded, ?_⟩
  · exact (is_of_keeps (hw.keeps_page rfl (by decide)) _).trans (stickV_is BOB.STICKY.STALEGEN _ _ rfl (by decide)).1
  · exact (hw.sameStore _).1.trans ((hstick.sameStore _).1.trans hstore.1)

end Relayed

section Operands

variable (octets : List Byte) (tb : BitVec 64) (fine : Fin 64) (asn : BitVec 40) (lane : Fin 8 × Fin 128) (port : Fin 2)
  (vi mode : Fin 16) (chan : Fin 2048) (plan : Fin 4) (fcs2 : Bool) (rssi : Int) (lqi : Byte) (fo : Int)

/-- The relayed frame of a command's operands. -/
def relayOf : RelayFrame := ⟨octets.map (·.toNat), tb.toNat, fine, asn.toNat, lane.2, port, vi, mode, chan, plan, fcs2, rssi,
  lqi.toNat, fo, lane.1⟩

theorem exec_relayedFrame {s : State} (hmac : s.domOn Dom.mac = true) (hlive : s.linkLive = true) (gen : BitVec 16) :
    exec (.relayedFrame octets tb fine asn lane port vi mode chan plan fcs2 rssi lqi fo gen) s =
      .next (Act.run (relayedFrame (relayOf octets tb fine asn lane port vi mode chan plan fcs2 rssi lqi fo) gen.toNat) s) := by
  show act _ s = _
  rw [act_next, run_look, hmac, hlive, Bool.and_self, whenA_true, relayOf]

end Operands

theorem cascadeHandoversHold : CascadeHandoversHold := by
  intro s n hmac
  refine ⟨fun hlive => ⟨?send, ?record, ?accept, ?close, ?relayed⟩, fun hin => ⟨?migrates, ?late⟩, ?starts, ?ends, ?reconciled⟩
  case send => exact fun hst hslot => handoverRecordSend_holds hmac hlive hst hslot
  case record => exact fun words hlen => ⟨fun hk => handoverRecordReceive_full hmac hlive hlen hk, fun k hk =>
    handoverRecordReceive_accepted hmac hlive hlen hk⟩
  case accept => exact fun hst => ⟨handoverAcceptReceive_accepted hmac hlive hst, handoverAcceptReceive_refused hmac hlive hst⟩
  case close => exact fun rxfc hseen => closeRecord_holds hmac hlive rxfc hseen
  case migrates => exact fun hst hslot hctx => handoverSlotH_migrates hmac hin hst hslot hctx
  case late => exact fun st hst h2 hslot => handoverSlotH_late hmac hin hst h2 hslot
  case starts => exact fun x hx hslot hst => handoverSlotH_starts hmac hx hslot hst
  case ends => exact fun hst hslot ho hf => migrationEnd_holds hmac hst hslot ho hf
  case reconciled => exact fun p c hp hc hlt hall hslot => rxfcReconcile_holds hmac hp hc hlt hall hslot
  case relayed =>
    intro octets tb fine asn lane port vi mode chan plan fcs2 rssi lqi fo gen k l f hnone _ hkind hwhole hsound hacc hsm hsrc hfind hst
    have hfrom : FromContext s f k := ⟨hwhole, hsound, hkind, hacc, vi.isLt, hsm, hsrc, hfind, hst⟩
    have hrun := exec_relayedFrame octets tb fine asn lane port vi mode chan plan fcs2 rssi lqi fo hmac hlive gen
    refine ⟨fun hgen hsec => ⟨_, hrun, ?_⟩, fun hgen => ⟨_, hrun, ?_⟩⟩
    · obtain ⟨hwrote, hat⟩ := relayedFrame_taken (r := relayOf octets tb fine asn lane port vi mode chan plan fcs2 rssi lqi fo)
        hnone hfrom hsec
      rw [hgen] at hwrote hat
      exact ⟨hwrote.holds rfl rfl (Nat.mod_lt _ (by decide)), hwrote.holds rfl rfl (lt_of_le_of_lt (Nat.min_le_right _ _) (by decide)),
        hwrote.keeps rfl, hwrote.onlyCtx rfl, hat⟩
    · exact relayedFrame_stale (r := relayOf octets tb fine asn lane port vi mode chan plan fcs2 rssi lqi fo) hnone hfrom hgen

end Sys2Proof.Proofs
end

section
/-! Remote accesses and forwarded interrupt levels (R326, R327). -/

namespace Sys2Proof.Proofs

open Sys2Proof.Machine Sys2Proof.Laws

/-! The route to a page after a write of RADDR. -/

theorem get_put_key_ne {f g : Fld} (h : g.key ≠ f.key) (v : Nat) (s : State) : (Eff.apply s (.put f v)).get g = s.get g := by
  rw [State.get, put_reg_ne _ _ _ _ h, State.get]

theorem boundTo_lt (s : State) (i : Initiator) : s.boundTo i < 16 := by
  cases i with
  | core c =>
    rw [State.boundTo]
    split
    · exact get_lt s VIF.BIND.DN1VI
    · decide
  | mover ch => exact get_lt s ((VIF.MOVBIND.B.i (ch.val / 8)).sub (4 * (ch.val % 8)) 4)
  | host vi => exact vi.isLt
  | _ => exact Nat.zero_lt_succ 15

theorem boundTo_put_raddr (v : Nat) (s : State) (i : Initiator) : (Eff.apply s (.put CAS.RADDR v)).boundTo i = s.boundTo i := by
  cases i with
  | core c =>
    rw [State.boundTo, State.boundTo, get_put_key_ne (by decide)]
  | mover ch =>
    refine get_put_key_ne ?_ v s
    have : ch.val / 8 < 2 := by omega
    simp only [Fld.sub, Fld.i, VIF.MOVBIND.B, movedKey, CAS.RADDR]
    omega
  | _ => rfl

theorem boundReaches_put_raddr {n : Nat} (hn : n < 16) (v : Nat) (s : State) (i : Initiator) (a : Nat) (w : Bool) :
    (Eff.apply s (.put CAS.RADDR v)).boundReaches i n a w = s.boundReaches i n a w := by
  have hten (f : Fld) (hf : f.key < 0x4001C200) : (Eff.apply s (.put CAS.RADDR v)).get (ten f n) = s.get (ten f n) := by
    refine get_put_key_ne ?_ v s
    simp only [ten, movedKey, CAS.RADDR]
    omega
  unfold State.boundReaches State.viOpen State.inPartition
  rw [hten _ (by decide), hten _ (by decide), hten _ (by decide), hten _ (by decide)]

theorem reachable_put_raddr (v : Nat) (s : State) (d : Nat) : (Eff.apply s (.put CAS.RADDR v)).reachable d = s.reachable d := by
  rw [State.reachable, State.domOn, State.is, get_put_key_ne (by exact (by decide : PWR.STAT.DOMON.key ≠ CAS.RADDR.key))]
  rfl

/-- A write of RADDR leaves open the accesses to registers of its page. -/
theorem opens_put_raddr {s : State} {i : Initiator} {f : Fld} {w : Bool} (hp : inPages (keyAddr f.key))
    (hc : Page.ofCode (addrPage (keyAddr f.key)) = some .CAS) (v : Nat) (h : Opens s i f 0 w) :
    Opens (Eff.apply s (.put CAS.RADDR v)) i f 0 w := by
  have hroute : (Eff.apply s (.put CAS.RADDR v)).route i (viewAddr f 0) w = s.route i (viewAddr f 0) w := by
    rw [State.route, State.route, boundTo_put_raddr, boundReaches_put_raddr (boundTo_lt s i), viewAddr, if_pos rfl,
      routePhys_page hp hc, routePhys_page hp hc]
    unfold State.pageOn
    rw [reachable_put_raddr, reachable_put_raddr]
  rw [Opens, hroute]
  exact h

/-! What a GO writes. -/

/-- A field without reserved values takes what is written. -/
theorem run_judgeField_any {f : FieldDesc} (ha : f.acc = .rw) (hl : f.lim = .any) (k w : Nat) (s : State) :
    Act.run (judgeField k 0 w (fun _ _ => false) f) s = Eff.apply s (.put (placeOf k f) (f.of w)) := by
  rw [judgeField, run_look, ha, hl]
  rfl

/-- What the table of page CAS says of RADDR. -/
def raddrDesc : RegDesc := ⟨0x064, 1, 0, 0, .shared, [⟨0, 32, .rw, .any⟩]⟩

/-- What the table of page CAS says of RCTRL. -/
def rctrlDesc : RegDesc := ⟨0x068, 1, 0, 0, .shared, [⟨31, 1, .w1s, .any⟩, ⟨30, 1, .rw, .any⟩, ⟨24, 3, .rw, .any⟩, ⟨0, 4, .rw, .any⟩]⟩

theorem keyOf_raddr : KeyOf CAS.RADDR.key .CAS 0x64 raddrDesc := keyOf_header (q := .CAS) (off := 0x64) (by decide) rfl

theorem keyOf_rctrl : KeyOf CAS.RCTRL.key .CAS 0x68 rctrlDesc := keyOf_header (q := .CAS) (off := 0x68) (by decide) rfl

theorem run_plainWrite_raddr {w : Nat} (hw : w < 2 ^ 32) (s : State) :
    Act.run (plainWrite CAS.RADDR.key 0 w) s = Eff.apply s (.put CAS.RADDR w) := by
  have hof : FieldDesc.of ⟨0, 32, .rw, .any⟩ w = w := by rw [FieldDesc.of, Nat.pow_zero, Nat.div_one, Nat.mod_eq_of_lt hw]
  have hplace : placeOf CAS.RADDR.key ⟨0, 32, .rw, .any⟩ = CAS.RADDR := rfl
  rw [plainWrite_eq keyOf_raddr, raddrDesc, judgeAll, run_eachA_cons, run_eachA_nil, run_judgeField_any rfl rfl, hof, hplace]

/-- The fields of a GO's RCTRL but GO itself. -/
def rctrlFields (wr member words : Nat) : Act := chain [put CAS.RCTRL.WR wr, put CAS.RCTRL.MEMBER member, put CAS.RCTRL.WORDS words]

theorem run_plainWrite_rctrl {wr member words : Nat} (hwr : wr < 2) (hm : member < 8) (hn : words < 16) (s : State) :
    Act.run (plainWrite CAS.RCTRL.key 0 (wr * 2 ^ 30 + member * 2 ^ 24 + words)) s =
      Act.run (rctrlFields wr member words) (Eff.apply s (.put CAS.RCTRL.GO (s.get CAS.RCTRL.GO))) := by
  have hgo : FieldDesc.of ⟨31, 1, .w1s, .any⟩ (wr * 2 ^ 30 + member * 2 ^ 24 + words) = 0 := by simp only [FieldDesc.of]; omega
  have hwr' : FieldDesc.of ⟨30, 1, .rw, .any⟩ (wr * 2 ^ 30 + member * 2 ^ 24 + words) = wr := by simp only [FieldDesc.of]; omega
  have hm' : FieldDesc.of ⟨24, 3, .rw, .any⟩ (wr * 2 ^ 30 + member * 2 ^ 24 + words) = member := by simp only [FieldDesc.of]; omega
  have hn' : FieldDesc.of ⟨0, 4, .rw, .any⟩ (wr * 2 ^ 30 + member * 2 ^ 24 + words) = words := by simp only [FieldDesc.of]; omega
  have hplace : placeOf CAS.RCTRL.key ⟨30, 1, .rw, .any⟩ = CAS.RCTRL.WR ∧ placeOf CAS.RCTRL.key ⟨24, 3, .rw, .any⟩ = CAS.RCTRL.MEMBER ∧
      placeOf CAS.RCTRL.key ⟨0, 4, .rw, .any⟩ = CAS.RCTRL.WORDS := ⟨rfl, rfl, rfl⟩
  have hset : Act.run (judgeField CAS.RCTRL.key 0 (wr * 2 ^ 30 + member * 2 ^ 24 + words) (fun _ _ => false) ⟨31, 1, .w1s, .any⟩) s =
      Eff.apply s (.put CAS.RCTRL.GO (s.get CAS.RCTRL.GO)) := by
    rw [judgeField, run_look, hgo]
    exact congrArg (fun v => Eff.apply s (.put CAS.RCTRL.GO v)) (Nat.or_zero _)
  obtain ⟨hplwr, hplm, hpln⟩ := hplace
  rw [plainWrite_eq keyOf_rctrl, rctrlDesc, judgeAll, run_eachA_cons, run_eachA_cons, run_eachA_cons, run_eachA_cons, run_eachA_nil,
    hset, run_judgeField_any rfl rfl, run_judgeField_any rfl rfl, run_judgeField_any rfl rfl, hwr', hm', hn', hplwr, hplm, hpln,
    rctrlFields, run_chain_cons, run_chain_cons, run_chain_cons, run_chain_nil, run_put, run_put, run_put]

/-- The state in which a GO finds the link: RADDR and the fields of RCTRL are written. -/
def accessSet (s : State) (wr member addr words : Nat) : State :=
  let u := Eff.apply s (.put CAS.RADDR addr)
  Act.run (rctrlFields wr member words) (Eff.apply u (.put CAS.RCTRL.GO (u.get CAS.RCTRL.GO)))

theorem keeps_sendLink (x : LinkSend) (g : Fld) : Keeps (sendLink x) g := keeps_onCas _ g

/-- What GO does while no access runs. -/
def startAccess : Act := look fun s =>
  if !s.linkLive then put CAS.RSTAT.RESULT 1
  else if s.get CAS.RCTRL.MEMBER == s.member then put CAS.RSTAT.RESULT 2
  else chain [put CAS.RCTRL.GO 1, put CAS.RSTAT.BUSY 1,
    sendLink (.remote (s.get CAS.RCTRL.MEMBER) (s.get CAS.RADDR) (s.get CAS.RCTRL.WORDS + 1) (s.is CAS.RCTRL.WR))]

section Access

variable {s : State} {wr member addr words : Nat} (hwr : wr < 2) (hm : member < 8) (ha : addr < 2 ^ 32) (hn : words < 16)

theorem accessSet_keeps {g : Fld} (h : [CAS.RADDR, CAS.RCTRL.GO, CAS.RCTRL.WR, CAS.RCTRL.MEMBER, CAS.RCTRL.WORDS].all (apart · g) = true) :
    (accessSet s wr member addr words).get g = s.get g := by
  simp only [List.all_cons, List.all_nil, Bool.and_true, Bool.and_eq_true] at h
  obtain ⟨haddr, hgo, hwr, hmember, hwords⟩ := h
  rw [accessSet, rctrlFields, run_chain_cons, run_chain_cons, run_chain_cons, run_chain_nil, run_put, run_put, run_put,
    put_get_apart _ _ _ _ (by decide) hwords, put_get_apart _ _ _ _ (by decide) hmember, put_get_apart _ _ _ _ (by decide) hwr,
    put_get_apart _ _ _ _ (by decide) hgo, put_get_apart _ _ _ _ (by decide) haddr]

theorem accessSet_linkLive : (accessSet s wr member addr words).linkLive = s.linkLive := by
  rw [State.linkLive, State.link, accessSet_keeps (by decide)]
  rfl

theorem accessSet_member : (accessSet s wr member addr words).member = s.member := accessSet_keeps (by decide)

include hwr hm ha hn in
theorem accessSet_holds : let t := accessSet s wr member addr words
    t.get CAS.RCTRL.WR = wr ∧ t.get CAS.RCTRL.MEMBER = member ∧ t.get CAS.RCTRL.WORDS = words ∧ t.get CAS.RADDR = addr := by
  dsimp only
  rw [accessSet, rctrlFields, run_chain_cons, run_chain_cons, run_chain_cons, run_chain_nil, run_put, run_put, run_put]
  refine ⟨?_, ?_, ?_, ?_⟩
  · rw [put_get_apart _ _ _ _ (by decide) (by decide), put_get_apart _ _ _ _ (by decide) (by decide), put_get_same _ _ _ (by decide)]
    exact Nat.mod_eq_of_lt hwr
  · rw [put_get_apart _ _ _ _ (by decide) (by decide), put_get_same _ _ _ (by decide)]
    exact Nat.mod_eq_of_lt hm
  · rw [put_get_same _ _ _ (by decide)]
    exact Nat.mod_eq_of_lt hn
  · rw [put_get_apart _ _ _ _ (by decide) (by decide), put_get_apart _ _ _ _ (by decide) (by decide),
      put_get_apart _ _ _ _ (by decide) (by decide), put_get_apart _ _ _ _ (by decide) (by decide), put_get_same _ _ _ (by decide)]
    exact Nat.mod_eq_of_lt ha

variable {i : Initiator} (haddr : Opens s i CAS.RADDR 0 true) (hctrl : Opens s i CAS.RCTRL 0 true)
  (hbusy : s.is CAS.RSTAT.BUSY = false)
include hwr hm ha hn haddr hctrl hbusy

theorem run_remoteGo : Act.run (remoteGo i member addr words wr) s = Act.run startAccess (accessSet s wr member addr words) := by
  have hopen := opens_put_raddr (f := CAS.RCTRL) (by unfold inPages pageBase; decide) (by decide) addr hctrl
  have hlow : (2 ^ 31 + wr * 2 ^ 30 + member * 2 ^ 24 + words) % 2 ^ 31 = wr * 2 ^ 30 + member * 2 ^ 24 + words := by omega
  have hgo : bitOf (2 ^ 31 + wr * 2 ^ 30 + member * 2 ^ 24 + words) 31 = 1 := by rw [bitOf]; omega
  rw [remoteGo, run_chain_cons, run_chain_cons, run_chain_nil, run_atRegister _ haddr, run_plainWrite_raddr ha, run_atRegister _ hopen,
    writeRctrl, run_look, hlow, hgo, State.is, get_put_key_ne (by decide), ← State.is, hbusy, beq_self_eq_true, Bool.not_false,
    Bool.and_self, whenA_true, run_chain_cons, run_chain_cons, run_chain_nil, run_plainWrite_rctrl hwr hm hn, accessSet]
  rfl

theorem remoteGo_sameStore : SameStore s (Act.run startAccess (accessSet s wr member addr words)) := by
  have hw : Within false [.CAS, .SYS, .PWR, .VIF] (remoteGo i member addr words wr ·) := by fun_prop (disch := rfl)
  rw [← run_remoteGo hwr hm ha hn haddr hctrl hbusy]
  exact hw.sameStore s

/-- On a link that is up, another member's access runs. -/
theorem remoteGo_runs (hlive : s.linkLive = true) (hother : member ≠ s.member) :
    let t := Act.run (remoteGo i member addr words wr) s
    t.is CAS.RSTAT.BUSY = true ∧ t.is CAS.RCTRL.GO = true ∧ t.get CAS.RCTRL.WR = wr ∧ t.get CAS.RCTRL.MEMBER = member ∧
      t.get CAS.RCTRL.WORDS = words ∧ t.get CAS.RADDR = addr ∧
      LinkSend.remote member addr (words + 1) (wr == 1) ∈ t.cas.out ∧ SameStore s t := by
  have hstore := remoteGo_sameStore hwr hm ha hn haddr hctrl hbusy
  obtain ⟨hgwr, hgm, hgn, hga⟩ := accessSet_holds (s := s) hwr hm ha hn
  have hkeep {g : Fld} (hgo : apart CAS.RCTRL.GO g = true) (hb : apart CAS.RSTAT.BUSY g = true) (x : LinkSend) (u : State) :
      (Act.run (sendLink x) (Eff.apply (Eff.apply u (.put CAS.RCTRL.GO 1)) (.put CAS.RSTAT.BUSY 1))).get g = u.get g := by
    rw [keeps_sendLink, put_get_apart _ _ _ _ (by decide) hb, put_get_apart _ _ _ _ (by decide) hgo]
  have hone : (accessSet s wr member addr words).is CAS.RCTRL.WR = (wr == 1) := by
    rw [State.is, hgwr]
    obtain rfl | rfl : wr = 0 ∨ wr = 1 := by omega
    · rfl
    · rfl
  have hrun : Act.run startAccess (accessSet s wr member addr words) = Act.run (sendLink (.remote member addr (words + 1) (wr == 1)))
      (Eff.apply (Eff.apply (accessSet s wr member addr words) (.put CAS.RCTRL.GO 1)) (.put CAS.RSTAT.BUSY 1)) := by
    rw [startAccess, run_look, accessSet_linkLive, hlive, Bool.not_true, if_neg Bool.false_ne_true, accessSet_member, hgm,
      if_neg (by simpa using hother), hgn, hga, hone, run_chain_cons, run_chain_cons, run_chain_cons, run_chain_nil, run_put, run_put]
  rw [hrun] at hstore
  dsimp only
  rw [run_remoteGo hwr hm ha hn haddr hctrl hbusy, hrun]
  refine ⟨?_, ?_, (hkeep rfl rfl _ _).trans hgwr, (hkeep rfl rfl _ _).trans hgm, (hkeep rfl rfl _ _).trans hgn,
    (hkeep rfl rfl _ _).trans hga, mem_sendLink _ _, hstore⟩
  · rw [is_of_keeps (keeps_sendLink _ _), put_is_same _ _ _ rfl (by decide)]
    rfl
  · rw [is_of_keeps (keeps_sendLink _ _), put_is_apart _ _ (by decide) (by decide), put_is_same _ _ _ rfl (by decide)]
    rfl

/-- An access that cannot run completes at once with its result. -/
theorem remoteGo_fails {r : Nat} (hr : r < 4)
    (hres : Act.run startAccess (accessSet s wr member addr words) = Act.run (put CAS.RSTAT.RESULT r) (accessSet s wr member addr words)) :
    let t := Act.run (remoteGo i member addr words wr) s
    t.is CAS.RSTAT.BUSY = false ∧ t.get CAS.RSTAT.RESULT = r ∧ SameStore s t := by
  have hstore := remoteGo_sameStore hwr hm ha hn haddr hctrl hbusy
  rw [hres] at hstore
  dsimp only
  rw [run_remoteGo hwr hm ha hn haddr hctrl hbusy, hres]
  refine ⟨?_, ?_, hstore⟩
  · rw [run_put, put_is_apart _ _ (by decide) (by decide), State.is, accessSet_keeps (by decide), ← State.is, hbusy]
  · rw [run_put, put_get_same _ _ _ (by decide)]
    exact Nat.mod_eq_of_lt hr

theorem remoteGo_own (hlive : s.linkLive = true) (hown : member = s.member) :
    let t := Act.run (remoteGo i member addr words wr) s
    t.is CAS.RSTAT.BUSY = false ∧ t.get CAS.RSTAT.RESULT = 2 ∧ SameStore s t := by
  obtain ⟨-, hgm, -⟩ := accessSet_holds (s := s) hwr hm ha hn
  refine remoteGo_fails hwr hm ha hn haddr hctrl hbusy (by decide) ?_
  rw [startAccess, run_look, accessSet_linkLive, hlive, Bool.not_true, if_neg Bool.false_ne_true, accessSet_member, hgm,
    if_pos (beq_iff_eq.mpr hown)]

theorem remoteGo_down (hdown : s.linkLive = false) : let t := Act.run (remoteGo i member addr words wr) s
    t.is CAS.RSTAT.BUSY = false ∧ t.get CAS.RSTAT.RESULT = 1 ∧ SameStore s t := by
  refine remoteGo_fails hwr hm ha hn haddr hctrl hbusy (by decide) ?_
  rw [startAccess, run_look, accessSet_linkLive, hdown, Bool.not_false, if_pos rfl]

end Access

/-! The end of a remote access (R326). -/

/-- The words of a read go to RBUF. -/
def fillRbuf (n : Nat) (words : List Word) : Act := eachA (List.range n) fun k => put (CAS.RBUF.W.i k) (words.getD k 0).toNat

theorem fillRbuf_get {n k : Nat} (hk : k < n) (words : List Word) (s : State) :
    (Act.run (fillRbuf n words) s).get (CAS.RBUF.W.i k) = (words.getD k 0).toNat := by
  refine (eachA_put_get (fun _ _ => by exact (by decide : 0 + 32 ≤ 32)) (List.nodup_range.imp fun {x y} hxy => ?_)
    (List.mem_range.mpr hk) s).trans (Nat.mod_eq_of_lt (words.getD k 0).isLt)
  simp only [apart, Fld.i, CAS.RBUF.W, movedKey, Bool.or_eq_true, bne_iff_ne]
  exact .inl (.inl (by omega))

theorem apart_rbuf {f : Fld} (h : f.key < CAS.RBUF.W.key) (k : Nat) : apart f (CAS.RBUF.W.i k) = true := by
  have hne : f.key ≠ CAS.RBUF.W.key + 4 * k := by omega
  simp only [apart, Bool.or_eq_true, bne_iff_ne]
  exact .inl (.inl hne)

theorem remoteAccessDone_holds {s : State} (r : Fin 4) (words : List Word) (hmac : s.domOn Dom.mac = true)
    (hbusy : s.is CAS.RSTAT.BUSY = true) : Completes (.remoteAccessDone r words) s fun t =>
      t.is CAS.RSTAT.BUSY = false ∧ t.is CAS.RCTRL.GO = false ∧ t.get CAS.RSTAT.RESULT = r ∧
        (r.val = 0 → s.is CAS.RCTRL.WR = false → ∀ k ≤ s.get CAS.RCTRL.WORDS,
          t.get (CAS.RBUF.W.i k) = (words.getD k 0).toNat) ∧ SameStore s t := by
  set c := r.val == 0 && !s.is CAS.RCTRL.WR with hc
  set u := Act.run (whenA c (fillRbuf (s.get CAS.RCTRL.WORDS + 1) words)) s with hu
  have hrun : exec (.remoteAccessDone r words) s = .next (Eff.apply (Eff.apply (Eff.apply u (.put CAS.RCTRL.GO 0))
      (.put CAS.RSTAT.BUSY 0)) (.put CAS.RSTAT.RESULT r)) := by
    show act _ s = _
    rw [act_next, run_look, hmac, hbusy, Bool.and_self, whenA_true, run_chain_cons, run_chain_cons, run_chain_cons, run_chain_cons,
      run_chain_nil, run_put, run_put, run_put, hu, fillRbuf]
  have hstore : SameStore s u := (within_whenA (d := false) (ps := [.CAS]) (within_eachA_range fun k hk =>
    within_put_i _ (lt_of_lt_of_le hk (get_lt s CAS.RCTRL.WORDS)) rfl)).sameStore s
  refine ⟨_, hrun, ?_, ?_, ?_, fun hr hwr k hk => ?_, hstore⟩
  · rw [put_is_apart _ _ (by decide) (by decide), put_is_same _ _ _ rfl (by decide)]
    rfl
  · rw [put_is_apart _ _ (by decide) (by decide), put_is_apart _ _ (by decide) (by decide), put_is_same _ _ _ rfl (by decide)]
    rfl
  · rw [put_get_same _ _ _ (by decide)]
    exact Nat.mod_eq_of_lt r.isLt
  · rw [put_get_apart _ _ _ _ (by decide) (apart_rbuf (by decide) k), put_get_apart _ _ _ _ (by decide) (apart_rbuf (by decide) k),
      put_get_apart _ _ _ _ (by decide) (apart_rbuf (by decide) k), hu, hc, hr, hwr]
    exact fillRbuf_get (by omega) words s

/-! Forwarded interrupt levels (R327). -/

theorem memberIrqLevel_holds {s : State} (k : Fin 8) (level : Bool) (hmac : s.domOn Dom.mac = true) (hm0 : s.m0 = true)
    (hlive : s.linkLive = true) (hk : k.val ≠ 0) : Completes (.memberIrqLevel k level) s fun t =>
      t.is (CAS.MIRQ.M.bit (k - 1)) = level ∧
        (level = true → s.is (CAS.MIRQ.M.bit (k - 1)) = false → t.is CAS.STICKY.MIRQ = true) ∧ SameStore s t := by
  have hrun : exec (.memberIrqLevel k level) s = .next (Eff.apply
      (Act.run (whenA (level && !s.is (CAS.MIRQ.M.bit (k - 1))) (stick CAS.STICKY.MIRQ)) s)
      (.put (CAS.MIRQ.M.bit (k - 1)) (if level then 1 else 0))) := by
    show act _ s = _
    rw [act_next, run_look, hmac, hm0, hlive, bne_iff_ne.mpr hk, Bool.and_self, Bool.and_self, Bool.and_self, whenA_true,
      run_chain_cons, run_chain_cons, run_chain_nil, run_put]
  have hlo : (CAS.MIRQ.M.bit (k - 1)).lo < 32 := by
    simp only [Fld.bit, CAS.MIRQ.M]
    omega
  have hstick : Within false [.CAS] (whenA (level && !s.is (CAS.MIRQ.M.bit (k - 1))) (stick CAS.STICKY.MIRQ) ·) := by
    fun_prop (disch := rfl)
  refine ⟨_, hrun, ?_, fun hl h0 => ?_, hstick.sameStore s⟩
  · rw [put_is_same _ _ _ rfl hlo]
    cases level
    · rfl
    · rfl
  · rw [put_is_apart _ _ (by exact hlo) rfl, hl, h0, Bool.not_false, Bool.and_self, whenA_true]
    exact stick_is CAS.STICKY.MIRQ s rfl (by decide)

theorem cascadeRemoteHold : CascadeRemoteHold := by
  intro s i
  refine ⟨fun m addr words haddr hctrl hbusy x hx => ?access, fun r words hmac hbusy => remoteAccessDone_holds r words hmac hbusy,
    fun k level hmac hm0 hlive hk => memberIrqLevel_holds k level hmac hm0 hlive hk⟩
  case access =>
    obtain ⟨hwr, hrun⟩ : x.1 < 2 ∧ exec x.2 s = .next (Act.run (remoteGo i m addr.toNat words x.1) s) := by
      obtain rfl | rfl : x = _ ∨ x = _ := by simpa using hx
      · exact ⟨Nat.zero_lt_two, act_next _ _⟩
      · exact ⟨Nat.one_lt_two, act_next _ _⟩
    exact ⟨fun hlive hother => ⟨_, hrun, remoteGo_runs hwr m.isLt addr.isLt words.isLt haddr hctrl hbusy hlive hother⟩,
      fun hlive hown => ⟨_, hrun, remoteGo_own hwr m.isLt addr.isLt words.isLt haddr hctrl hbusy hlive hown⟩,
      fun hdown => ⟨_, hrun, remoteGo_down hwr m.isLt addr.isLt words.isLt haddr hctrl hbusy hdown⟩⟩

/-- Settles O52: the handovers over the link, then the remote accesses and the forwarded interrupt levels. -/
theorem cascadeTransfers : Obligations.CascadeTransfers := ⟨cascadeHandoversHold, cascadeRemoteHold⟩


end Sys2Proof.Proofs
end
